-- ==== Sys2Proof/Word.lean ====
section
/-!
DEFINITION. The word types and the operand types of the commands: what a frame, a message or a
pin event carries into the block. Plain data only; every meaning is under Machine/.
-/

namespace Sys2Proof

/-- One 32-bit register or memory word (R11, R72). -/
abbrev Word := BitVec 32

/-- One byte of a memory structure or of a frame. -/
abbrev Byte := BitVec 8

/-- Sparse bytes in canonical form: addresses strictly rising, no listed zero byte.
A byte that is not listed reads 0 (R253: bytes never written read as zero; R466: memories are
initialised with zeros). -/
abbrev Memory := List (Nat × Byte)

/-- The four Ethernet ports of R376, numbered 0 to 3 in this order. -/
inductive Port where
  | ringA | ringB | peer | uplink
deriving DecidableEq, Repr, Inhabited

/-- A compact stamp as it is stored: the two little-endian words of R52, well formed or not. -/
structure Compact where
  w0 : Word := 0
  w1 : Word := 0
deriving DecidableEq, Repr, Inhabited

/-- What a Sync carries as the port reads it (R42, R519). -/
structure SyncMsg where
  domain : Byte := 0
  seq : BitVec 16 := 0
  twoStep : Bool := true
  /-- logMessageInterval (R42). -/
  logInterval : Int := -3
  originSec : BitVec 48 := 0
  originNs : Nat := 0
  /-- The correction field, in units of 2^-16 ns. -/
  correction : Int := 0
  /-- The carried rateRatio less one, in units of 2^-41. -/
  rateOffset : Int := 0
  /-- The PHY's raw receive stamp, before the correction of R50. -/
  rawStamp : Int := 0
deriving DecidableEq, Repr, Inhabited

/-- What the Follow_Up of a two-step Sync carries. -/
structure FollowUpMsg where
  domain : Byte := 0
  seq : BitVec 16 := 0
  originSec : BitVec 48 := 0
  originNs : Nat := 0
  correction : Int := 0
  rateOffset : Int := 0
deriving DecidableEq, Repr, Inhabited

/-- What an Announce carries for the best master clock algorithm (R42, R43). -/
structure AnnounceMsg where
  domain : Byte := 0
  priority1 : Byte := 0
  clockClass : Byte := 0
  clockAccuracy : Byte := 0
  variance : BitVec 16 := 0
  priority2 : Byte := 0
  identity : BitVec 64 := 0
  stepsRemoved : BitVec 16 := 0
  /-- Identity and port number of the sending port. -/
  sender : BitVec 64 := 0
  senderPort : BitVec 16 := 0
deriving DecidableEq, Repr, Inhabited

/-- A Pdelay exchange as its response and follow-up complete it: the partner's receipt and
response times and the raw stamp of the response at this port. -/
structure PdelayResp where
  seq : BitVec 16 := 0
  requestReceipt : Int := 0
  responseOrigin : Int := 0
  rawStamp : Int := 0
deriving DecidableEq, Repr, Inhabited

/-- Who sends a Pdelay_Req, its port identity, and the raw stamp of the request at this port (R42). -/
structure PdelayReq where
  requester : BitVec 80 := 0
  rawStamp : Int := 0
deriving DecidableEq, Repr, Inhabited

/-- How a received frame stands with MACsec (R403). -/
inductive MacsecTag where
  | clear | valid | failing
deriving DecidableEq, Repr, Inhabited

/-- A frame at a port: the header fields that the T7 reads, and the payload after the EtherType. -/
structure Frame where
  dst : BitVec 48 := 0
  src : BitVec 48 := 0
  vlan : Bool := false
  vid : BitVec 12 := 0
  pcp : BitVec 3 := 0
  rtag : Option (BitVec 16) := none
  etherType : BitVec 16 := 0
  payload : List Byte := []
  macsec : MacsecTag := .clear
deriving DecidableEq, Repr, Inhabited

/-- The six words of a CTX_COMMAND body (R211, R228). -/
structure CtxBody where
  w0 : Word := 0
  w1 : Word := 0
  w2 : Word := 0
  w3 : Word := 0
  w4 : Word := 0
  w5 : Word := 0
deriving DecidableEq, Repr, Inhabited

/-- The four words of a TIER_HINT body (R262). -/
structure HintBody where
  w0 : Word := 0
  w1 : Word := 0
  w2 : Word := 0
  w3 : Word := 0
deriving DecidableEq, Repr, Inhabited

/-- The six words of a JOB_SUBMIT body (R400). -/
structure JobBody where
  w0 : Word := 0
  w1 : Word := 0
  w2 : Word := 0
  w3 : Word := 0
  w4 : Word := 0
  w5 : Word := 0
deriving DecidableEq, Repr, Inhabited

/-- One reception of a burst of 72 B, the first or a retry (R284 to R287). -/
structure BurstTry where
  /-- The 72 bytes in transfer order, and the CRC-8 byte that follows them on T3 (R285). -/
  data : List Byte := []
  crc : Byte := 0
  /-- How many of the bytes differ from the code word that was stored (R284). -/
  errors : Nat := 0
deriving DecidableEq, Repr, Inhabited

/-- Where a transaction of a channel starts: a unit, and its first burst of 64 bytes there (R286). -/
structure BurstPlace where
  unit : Nat := 0
  first : Fin 64 := 0
deriving DecidableEq, Repr, Inhabited

/-- A slot whose descriptor runs on the Drypoint path, and whether the residue lane finds a mismatch there that the data
do not show (R112). -/
structure LaneSlot where
  slot : Fin 32 := 0
  laneFault : Bool := false
deriving DecidableEq, Repr, Inhabited

/-- What SEC-DED finds on a delivered Linework packet (R297). -/
inductive LaneError where
  | clean | single | double
deriving DecidableEq, Repr, Inhabited

/-- What localisation finds on a faulty core (R434). -/
inductive DiagResult where
  | row (array : Fin 4) (phys : BitVec 7)
  | column (array : Fin 4) (phys : BitVec 7)
  | noFault
  | notLocalised
  | outsideArrays
deriving DecidableEq, Repr, Inhabited

/-- The supply rails of R505 and R411. -/
inductive Rail where
  | core | sram | aon | io18 | io12 | phy08 | phy18 | csi | golent12 | golent18
deriving DecidableEq, Repr, Inhabited

/-- The two stop lines of R424. -/
inductive StopLine where
  | a | b
deriving DecidableEq, Repr, Inhabited

/-- The blocks of the control space that hold a CNT_CLEAR register or counters (R482). -/
inductive Block where
  | glb | tb | rgn | otl | core (n : Fin 36) | plt | tir | chn | lnw | ing | trc | xh | sty | eth
  | prf | brn | sec | ctx
deriving DecidableEq, Repr, Inhabited

/-- A memory channel: physical Golent channel or board-store channel (R302). -/
inductive Channel where
  | golent (c : Fin 66)
  | board (b : Fin 16)
deriving DecidableEq, Repr, Inhabited

/-- The 64-bit quantities whose LO read latches a HI word (R487). -/
inductive HiLatch where
  | stepOffset | ppsCap
deriving DecidableEq, Repr, Inhabited

/-- A unit that can be retired at a job boundary (R432, R433). -/
inductive RetireUnit where
  | core (n : Fin 36)
  | margin | tracing | planner
deriving DecidableEq, Repr, Inhabited

/-- The ego samples of R327: six FP32 values of an inertial frame, three of a wheel frame. -/
structure EgoSample where
  values : List Word := []
deriving DecidableEq, Repr, Inhabited

end Sys2Proof
end

