-- ==== Sys2Proof/Syntax.lean ====
section
/-!
DEFINITION. The commands of the block: one constructor for each row of spec/opcode_table.json, in the
table's order, with the row's operands. Each docstring names the row and the rule that governs it.
-/

namespace Sys2Proof

/-- A command, an event on a pin or on the wires, or an indivisible step of one of the block's own
engines (opcode_table.json; 95_what_each_step_holds.md). -/
inductive Instr where
  /-- CORE_JOB_LAUNCH (R56). -/
  | coreJobLaunch (e : BitVec 12)
  /-- DRYPOINT_JOB_LAUNCH (R151). -/
  | drypointJobLaunch (e : BitVec 12)
  /-- MOVE_LAUNCH (R56). -/
  | moveLaunch (e : BitVec 12)
  /-- STYLUS_LAUNCH (R360). -/
  | stylusLaunch (e : BitVec 12)
  /-- PROOF_CHECK_LAUNCH (R416). -/
  | proofCheckLaunch (e : BitVec 12)
  /-- ETH_GATE_ANCHOR (R383). -/
  | ethGateAnchor (e : BitVec 12)
  /-- TIER_PREFETCH (R264). -/
  | tierPrefetch (e : BitVec 12)
  /-- GPIO_HIGH (R69). -/
  | gpioHigh (e : BitVec 12)
  /-- GPIO_LOW (R69). -/
  | gpioLow (e : BitVec 12)
  /-- GPIO_TOGGLE (R69). -/
  | gpioToggle (e : BitVec 12)
  /-- GPIO_PULSE (R69). -/
  | gpioPulse (e : BitVec 12)
  /-- GPIO_PULSE_END (R69). -/
  | gpioPulseEnd (pin : Fin 16)
  /-- SELFTEST_SLICE (R428). -/
  | selftestSlice (e : BitVec 12)
  /-- ROTATION_INSTANT (R20). -/
  | rotationInstant (e : BitVec 12)
  /-- CARRIED_FIRING_LAUNCH (R520). -/
  | carriedFiringLaunch
  /-- DEFERRED_FIRING_LAUNCH (R59). -/
  | deferredFiringLaunch (e : BitVec 12)
  /-- SPARE_SELFTEST_DONE (R19). -/
  | spareSelftestDone (cl : Fin 4) (pass : Bool)
  /-- ROTATION_HANDOVER_DONE (R23). -/
  | rotationHandoverDone (cl : Fin 4)
  /-- PLL_LOSS_OF_LOCK (R35). -/
  | pllLossOfLock
  /-- TB_CAPTURE (R39). -/
  | tbCapture (v : Word)
  /-- SYNC_RECEIVED (R519). -/
  | syncReceived (p : Port) (m : SyncMsg)
  /-- FOLLOW_UP_RECEIVED (R42). -/
  | followUpReceived (p : Port) (m : FollowUpMsg)
  /-- SYNC_RECEIPT_TIMEOUT (R40). -/
  | syncReceiptTimeout (p : Port)
  /-- ANNOUNCE_RECEIVED (R42). -/
  | announceReceived (p : Port) (m : AnnounceMsg)
  /-- ANNOUNCE_RECEIPT_TIMEOUT (R42). -/
  | announceReceiptTimeout (p : Port)
  /-- PDELAY_REQ_RECEIVED (R42). -/
  | pdelayReqReceived (p : Port) (seq : BitVec 16) (m : PdelayReq)
  /-- PDELAY_RESP_RECEIVED (R42). -/
  | pdelayRespReceived (p : Port) (m : PdelayResp)
  /-- PDELAY_INTERVAL (R42). -/
  | pdelayInterval (p : Port)
  /-- SYNC_INTERVAL (R42). -/
  | syncInterval (p : Port)
  /-- ANNOUNCE_INTERVAL (R42). -/
  | announceInterval (p : Port)
  /-- TB_STEP_ACCEPT (R48). -/
  | tbStepAccept (v : Word)
  /-- TB_SET_GO (R44). -/
  | tbSetGo (v : Word)
  /-- TB_ADJ (R492). -/
  | tbAdj (v : Word)
  /-- TB_GPIO_OUT (R491). -/
  | tbGpioOut (v : Word)
  /-- PPS_OUT_RISE (R66). -/
  | ppsOutRise
  /-- PPS_OUT_FALL (R66). -/
  | ppsOutFall
  /-- PPS_IN_EDGE (R67). -/
  | ppsInEdge
  /-- PPS_LOST (R67). -/
  | ppsLost
  /-- GPIO_EDGE_CAPTURE (R68). -/
  | gpioEdgeCapture (pin : Fin 16) (rising : Bool)
  /-- GCAP_POP (R68). -/
  | gcapPop (pin : Fin 16)
  /-- LATCHED_HI_READ (R487). -/
  | latchedHiRead (q : HiLatch)
  /-- RGN_ENTRY_DISABLE (R61). -/
  | rgnEntryDisable (v : Word)
  /-- RGN_ENTRY_ENABLE (R61). -/
  | rgnEntryEnable (v : Word)
  /-- OTL_STAGE_BEGIN (R81). -/
  | otlStageBegin (v : Word)
  /-- OTL_VALIDATE (R81). -/
  | otlValidate (v : Word)
  /-- VALIDATION_DONE (R82). -/
  | validationDone
  /-- OTL_COMMIT_ARM (R84). -/
  | otlCommitArm (v : Word)
  /-- OTL_CANCEL (R91). -/
  | otlCancel (v : Word)
  /-- COMMIT_PREPARE (R85). -/
  | commitPrepare
  /-- EPOCH_COMMIT (R86). -/
  | epochCommit
  /-- DOMAIN_POWER_DOWN (R466). -/
  | domainPowerDown (d : Fin 24)
  /-- GEMM (R114). -/
  | gemm (job : Word) (slot : Fin 32) (laneFault : Bool)
  /-- CONV (R175). -/
  | conv (job : Word) (slot : Fin 32)
  /-- POOL (R186). -/
  | pool (job : Word) (slot : Fin 32)
  /-- EW_APPLY (R165). -/
  | ewApply (job : Word) (slot : Fin 32)
  /-- PWL_LOAD (R118). -/
  | pwlLoad (job : Word) (slot : Fin 32)
  /-- NORM (R165). -/
  | norm (job : Word) (slot : Fin 32)
  /-- ATTN_DECODE (R220). -/
  | attnDecode (job : Word) (run : LaneSlot)
  /-- ATTN_PREFILL (R220). -/
  | attnPrefill (job : Word) (slot : Fin 32)
  /-- SCAN (R235). -/
  | scan (job : Word) (slot : Fin 32)
  /-- GATE (R239). -/
  | gate (job : Word) (slot : Fin 32)
  /-- SORT (R195). -/
  | sort (job : Word) (slot : Fin 32)
  /-- MOVE_COPY (R165). -/
  | moveCopy (job : Word) (slot : Fin 32)
  /-- MOVE_LAYOUT (R174). -/
  | moveLayout (job : Word) (slot : Fin 32)
  /-- MOVE_TIER (R273). -/
  | moveTier (job : Word) (slot : Fin 32)
  /-- MOVE_TRANSPOSE (R165). -/
  | moveTranspose (job : Word) (slot : Fin 32)
  /-- WAITT_ABSOLUTE (R169). -/
  | waittAbsolute (job : Word) (slot : Fin 32)
  /-- WAITT_RELATIVE (R169). -/
  | waittRelative (job : Word) (slot : Fin 32)
  /-- WAITT_COMPLETE (R169). -/
  | waittComplete (job : Word) (slot : Fin 32)
  /-- SIGNAL (R168). -/
  | signal (job : Word) (slot : Fin 32)
  /-- WAITS (R168). -/
  | waits (job : Word) (slot : Fin 32)
  /-- WAITS_SATISFIED (R168). -/
  | waitsSatisfied (job : Word) (slot : Fin 32)
  /-- CHECK_RESIDUE (R170). -/
  | checkResidue (job : Word) (slot : Fin 32)
  /-- CHECK_STATS (R170). -/
  | checkStats (job : Word) (slot : Fin 32)
  /-- PLANQ_SEARCH (R348). -/
  | planqSearch (job : Word) (slot : Fin 32)
  /-- PLANQ_REVALIDATE (R352). -/
  | planqRevalidate (job : Word) (slot : Fin 32)
  /-- PLANQ_READ_PLAN (R352). -/
  | planqReadPlan (job : Word) (slot : Fin 32)
  /-- PLANQ_PUBLISH (R344). -/
  | planqPublish (job : Word) (slot : Fin 32)
  /-- FUSE (R329). -/
  | fuse (job : Word) (slot : Fin 32)
  /-- DESCRIPTOR_ISSUE (R120). -/
  | descriptorIssue (job : Word) (slot : Fin 32)
  /-- DESCRIPTOR_COMPLETE (R171). -/
  | descriptorComplete (job : Word) (slot : Fin 32)
  /-- WEIGHT_BUFFER_READY (R103). -/
  | weightBufferReady (core : Fin 36) (buf : Fin 2)
  /-- WEIGHT_LOAD_DONE (R102). -/
  | weightLoadDone (core : Fin 36)
  /-- TILE_COMPLETE (R107). -/
  | tileComplete (core : Fin 36) (mismatch : BitVec 4) (row : Word)
  /-- ACC_BANK_FREE (R107). -/
  | accBankFree (core : Fin 36) (bank : Fin 2)
  /-- WASH_RESIDUE_FAULT (R122). -/
  | washResidueFault (core : Fin 36)
  /-- MARGIN_RESIDUE_FAULT (R192). -/
  | marginResidueFault
  /-- MARGIN_QUEUE_START (R192). -/
  | marginQueueStart
  /-- MARGIN_DESCRIPTOR_DONE (R191). -/
  | marginDescriptorDone
  /-- JOB_SUBMIT (R400). -/
  | jobSubmit (sess : Fin 16) (b : JobBody)
  /-- JOB_CANCEL (R161). -/
  | jobCancel (sess : Fin 16) (tag job : Word)
  /-- JOB_LAUNCH_INSTANT (R150). -/
  | jobLaunchInstant (job : Word)
  /-- JOB_START (R149). -/
  | jobStart (part : Fin 8)
  /-- JOB_SEAL_EDGE (R153). -/
  | jobSealEdge (job : Word)
  /-- JOB_DEADLINE (R155). -/
  | jobDeadline (job : Word)
  /-- RESTART_ISSUE (R158). -/
  | restartIssue (job : Word)
  /-- CTX_OPEN (R212). -/
  | ctxOpen (sess : Fin 16) (tag : Word) (b : CtxBody)
  /-- CTX_FORK (R210). -/
  | ctxFork (sess : Fin 16) (tag : Word) (b : CtxBody)
  /-- CTX_TRUNCATE (R212). -/
  | ctxTruncate (sess : Fin 16) (tag : Word) (b : CtxBody)
  /-- CTX_RESET (R212). -/
  | ctxReset (sess : Fin 16) (tag : Word) (b : CtxBody)
  /-- CTX_CLOSE (R212). -/
  | ctxClose (sess : Fin 16) (tag : Word) (b : CtxBody)
  /-- CTX_ATTACH (R229). -/
  | ctxAttach (sess : Fin 16) (tag : Word) (b : CtxBody)
  /-- CTX_EXPORT (R245). -/
  | ctxExport (sess : Fin 16) (tag : Word) (b : CtxBody)
  /-- EXPORT_DONE (R245). -/
  | exportDone (ctx : BitVec 14)
  /-- CTX_IMPORT (R246). -/
  | ctxImport (sess : Fin 16) (tag : Word) (b : CtxBody)
  /-- CTX_SWAP_OUT (R242). -/
  | ctxSwapOut (sess : Fin 16) (tag : Word) (b : CtxBody)
  /-- CTX_SWAP_IN (R243). -/
  | ctxSwapIn (sess : Fin 16) (tag : Word) (b : CtxBody)
  /-- SWAP_DONE (R243). -/
  | swapDone (ctx : BitVec 14)
  /-- PAGE_SEAL (R208). -/
  | pageSeal (index : BitVec 21)
  /-- KV_PAGE_DEMOTE (R208). -/
  | kvPageDemote (part : Fin 8)
  /-- PROMOTE (R263). -/
  | promote (sess : Fin 16) (tag : Word) (b : HintBody)
  /-- RELEASE (R263). -/
  | release (sess : Fin 16) (tag : Word) (b : HintBody)
  /-- PIN (R263). -/
  | pin (sess : Fin 16) (tag : Word) (b : HintBody)
  /-- UNPIN (R263). -/
  | unpin (sess : Fin 16) (tag : Word) (b : HintBody)
  /-- DEMOTE (R263). -/
  | demote (sess : Fin 16) (tag : Word) (b : HintBody)
  /-- DROP (R263). -/
  | drop (sess : Fin 16) (tag : Word) (b : HintBody)
  /-- EXTENT_MISS (R265). -/
  | extentMiss (job : Word) (slot : Fin 32) (obj : Word) (extent : Nat)
  /-- EXTENT_FETCH_DONE (R266). -/
  | extentFetchDone (tag : BitVec 16)
  /-- TIER_REQUEST_TIMEOUT (R268). -/
  | tierRequestTimeout (tag : BitVec 16)
  /-- LATE_COMPLETION (R448). -/
  | lateCompletion (linework : Bool) (tag : BitVec 16)
  /-- TAG_RELEASE (R448). -/
  | tagRelease (tag : BitVec 16)
  /-- ALLOCATION_WAIT_END (R269). -/
  | allocationWaitEnd
  /-- TIER_WRITE_DONE (R252). -/
  | tierWriteDone (crcGood : Bool)
  /-- DIRECTORY_MIRROR_WRITE (R277). -/
  | directoryMirrorWrite
  /-- READOPT_VERIFY_DONE (R278). -/
  | readoptVerifyDone (part : Fin 8) (obj : Word) (ver : BitVec 16) (crc : Word)
  /-- REBUILD_DONE (R275). -/
  | rebuildDone (part : Fin 8) (obj : Word) (ver : BitVec 16)
  /-- TIR_DIR_QUERY (R280). -/
  | tirDirQuery (sess : Fin 16) (v : Word)
  /-- TIER_READ_TRANSACTION (R286). -/
  | tierReadTransaction (ch : Channel) (at_ : BurstPlace) (bursts : List (List BurstTry))
  /-- TIER_WRITE_TRANSACTION (R286). -/
  | tierWriteTransaction (ch : Channel) (at_ : BurstPlace) (bursts : List (List Bool))
  /-- UNIT_UNCORRECTABLE (R288). -/
  | unitUncorrectable (ch : Channel) (unit : Nat)
  /-- RETRAIN_DONE (R290). -/
  | retrainDone (ch : Channel) (pass : Bool) (train : BitVec 24)
  /-- PERIODIC_RETRAIN (R290). -/
  | periodicRetrain (ch : Channel)
  /-- DRIFT_RETRAIN (R290). -/
  | driftRetrain (ch : Channel)
  /-- CHN_RETRAIN (R302). -/
  | chnRetrain (v : Word)
  /-- LINEWORK_PACKET_DELIVERED (R295). -/
  | lineworkPacketDelivered (node : Fin 16) (tag : BitVec 16) (err : LaneError)
  /-- LINEWORK_TIMEOUT (R297). -/
  | lineworkTimeout (tag : BitVec 16)
  /-- REGULATION_WINDOW (R298). -/
  | regulationWindow
  /-- LNW_BUDGET (R304). -/
  | lnwBudget (m : Fin 32) (v : Word)
  /-- CSI_FRAME_START (R310). -/
  | csiFrameStart (port : Fin 12) (vc : Fin 4) (counter : BitVec 16) (lanes : Nat) (rate : Nat) (stamp : Int)
  /-- CSI_LONG_PACKET (R311). -/
  | csiLongPacket (port : Fin 12) (vc : Fin 4) (dataType : BitVec 6) (headerGood crcGood overflow : Bool) (data : List Byte)
  /-- CSI_EMBEDDED_DATA (R313). -/
  | csiEmbeddedData (port : Fin 12) (vc : Fin 4) (data : List Byte)
  /-- CSI_FRAME_END (R306). -/
  | csiFrameEnd (port : Fin 12) (vc : Fin 4)
  /-- SENSOR_FRAGMENT (R315). -/
  | sensorFragment (p : Port) (tsn : BitVec 12) (stamp : Int) (data : List Byte)
  /-- FRAGMENT_TIMEOUT (R315). -/
  | fragmentTimeout (stream : Fin 48)
  /-- FRAME_SEAL (R306). -/
  | frameSeal (stream : Fin 48)
  /-- STREAM_STALE (R319). -/
  | streamStale (stream : Fin 48)
  /-- EGO_PROPAGATE (R327). -/
  | egoPropagate (x : EgoSample) (frameTime : Int)
  /-- EGO_MEASURE (R327). -/
  | egoMeasure (x : EgoSample) (frameTime : Int)
  /-- EGO_PUBLISH (R327). -/
  | egoPublish
  /-- EGO_TIMEOUT (R327). -/
  | egoTimeout
  /-- TRC_EGO_CAPTURE (R337). -/
  | trcEgoCapture (v : Word)
  /-- TRACING_QUEUE_START (R330). -/
  | tracingQueueStart
  /-- TRACK_COAST_EXPIRE (R332). -/
  | trackCoastExpire (track : BitVec 16)
  /-- CALIBRATION_REFINE (R333). -/
  | calibrationRefine (sensor : Fin 48)
  /-- DEMOTION_EXPIRE (R334). -/
  | demotionExpire (sensor : Fin 48)
  /-- PLANNER_QUERY_START (R347). -/
  | plannerQueryStart
  /-- SEARCH_END (R350). -/
  | searchEnd
  /-- SEARCH_BUDGET_EXPIRE (R350). -/
  | searchBudgetExpire
  /-- REPAIR_BUDGET_EXPIRE (R352). -/
  | repairBudgetExpire
  /-- PUBLISH_COPY_START (R344). -/
  | publishCopyStart
  /-- PUBLISH_COPY_DONE (R344). -/
  | publishCopyDone
  /-- PLANNER_FAULT (R356). -/
  | plannerFault
  /-- STYLUS_GUARD (R367). -/
  | stylusGuard (group : Fin 16)
  /-- STYLUS_ENGINE_DONE (R369). -/
  | stylusEngineDone (group : Fin 16) (residueFault : BitVec 5)
  /-- OUTPUT_FRAME_FORM (R370). -/
  | outputFrameForm (group : Fin 16)
  /-- GATE_LIST_ADVANCE (R383). -/
  | gateListAdvance (p : Port)
  /-- GATE_WINDOW_CLOSE (R64). -/
  | gateWindowClose (p : Port) (id : Nat)
  /-- FRAME_TRANSMIT (R383). -/
  | frameTransmit (p : Port)
  /-- FRAME_RECEIVE (R382). -/
  | frameReceive (p : Port) (f : Frame) (stamp : Int)
  /-- FRER_RECOVERY_RESET (R385). -/
  | frerRecoveryReset (tsn : BitVec 12)
  /-- DOWN_LINK_DISCARD (R377). -/
  | downLinkDiscard (p : Port)
  /-- LINK_UP (R377). -/
  | linkUp (p : Port) (speed : Fin 3) (master verified : Bool)
  /-- LINK_DOWN (R377). -/
  | linkDown (p : Port)
  /-- LLDP_TRANSMIT (R387). -/
  | lldpTransmit (p : Port)
  /-- PREEMPTION_VERIFY_TIMEOUT (R382). -/
  | preemptionVerifyTimeout (p : Port)
  /-- LLDP_RECEIVE (R388). -/
  | lldpReceive (p : Port) (macSubtype : Bool) (chassis : BitVec 48) (ttl : BitVec 16)
  /-- PARTNER_EXPIRE (R388). -/
  | partnerExpire (n : Fin 64)
  /-- ARP_REQUEST (R394). -/
  | arpRequest (p : Port) (target : Word) (asker : BitVec 48) (askerIp : Word)
  /-- BYPASS_ARM (R391). -/
  | bypassArm
  /-- BYPASS_ANNOUNCE (R391). -/
  | bypassAnnounce
  /-- BYPASS_OPEN (R392). -/
  | bypassOpen
  /-- BYPASS_OPEN_FAIL (R392). -/
  | bypassOpenFail
  /-- BYPASS_CLOSE (R393). -/
  | bypassClose
  /-- BYPASS_CLOSE_REQ (R393). -/
  | bypassCloseReq (v : Word)
  /-- BYPASS_RETRY (R404). -/
  | bypassRetry (v : Word)
  /-- LIMIAN_OPEN (R398). -/
  | limianOpen (p : Port) (seq w0 : Word) (credits : BitVec 16)
  /-- LIMIAN_CLOSE (R398). -/
  | limianClose (sess : Fin 16)
  /-- LIMIAN_ACK (R396). -/
  | limianAck (sess : Fin 16) (ack : Word) (credits : BitVec 16)
  /-- ACK_DELAY (R396). -/
  | ackDelay (sess : Fin 16)
  /-- RETRANSMIT_TIMEOUT (R397). -/
  | retransmitTimeout (sess : Fin 16)
  /-- SESSION_IDLE_TIMEOUT (R398). -/
  | sessionIdleTimeout (sess : Fin 16)
  /-- REG_READ (R399). -/
  | regRead (sess : Fin 16) (tag addr : Word) (count : Nat)
  /-- REG_WRITE (R399). -/
  | regWrite (sess : Fin 16) (tag addr : Word) (values : List Word)
  /-- OBJ_LOAD_BEGIN (R401). -/
  | objLoadBegin (sess : Fin 16) (tag obj totalBytes w3 : Word) (iv : BitVec 96)
  /-- OBJ_DATA (R401). -/
  | objData (sess : Fin 16) (offset : Word) (data : List Byte)
  /-- OBJ_LOAD_END (R401). -/
  | objLoadEnd (sess : Fin 16) (tag crc : Word) (gcmTag : BitVec 128)
  /-- OBJ_READ (R399). -/
  | objRead (sess : Fin 16) (tag obj : Word) (ver : BitVec 16)
  /-- OBJ_PUSH (R401). -/
  | objPush (sess : Fin 16) (tag obj : Word) (ver : BitVec 16) (remotePart : Fin 8) (remoteObj : Word) (remoteStatus : Byte)
  /-- WDI_EDGE (R414). -/
  | wdiEdge
  /-- WDO_TOGGLE (R424). -/
  | wdoToggle (heartbeat : Bool)
  /-- CHECK_MESSAGE (R419). -/
  | checkMessage
  /-- GATE_SAMPLE_MESSAGE (R425). -/
  | gateSampleMessage
  /-- CONFLICT_BOX_EXPIRE (R417). -/
  | conflictBoxExpire (n : Fin 64)
  /-- SENSOR_FAULT_CLEAR (R425). -/
  | sensorFaultClear
  /-- PRF_RELEASE (R423). -/
  | prfRelease (v : Word)
  /-- LOCKSTEP_MISMATCH (R407). -/
  | lockstepMismatch
  /-- PROOF_SRAM_UNCORRECTABLE (R408). -/
  | proofSramUncorrectable
  /-- PROOF_CLOCK_WINDOW (R410). -/
  | proofClockWindow (ctrl aon : BitVec 16)
  /-- VOLTAGE_TRIP (R411). -/
  | voltageTrip (rail : Rail) (microvolts : Nat)
  /-- STOP_READBACK_MISMATCH (R424). -/
  | stopReadbackMismatch (line : StopLine)
  /-- SLICE_DONE (R426). -/
  | sliceDone (unit : Fin 8) (pass : Bool) (instance_ : Nat)
  /-- SLICE_ABORT (R428). -/
  | sliceAbort
  /-- DIAG_INTERVAL_MISSED (R429). -/
  | diagIntervalMissed (unit : Nat)
  /-- DIAGNOSIS_DONE (R434). -/
  | diagnosisDone (core : Fin 36) (result : DiagResult)
  /-- CORE_RETIRE (R433). -/
  | coreRetire (u : RetireUnit)
  /-- PLATE_SCRUB (R437). -/
  | plateScrub (slice : Fin 4) (corrected : List Nat)
  /-- PLATE_UNCORRECTABLE (R437). -/
  | plateUncorrectable (slice : Fin 4) (bank : Nat)
  /-- PLATE_CORRECTED_LIMIT (R437). -/
  | plateCorrectedLimit (slice : Fin 4) (bank : Nat)
  /-- CTRL_WATCHDOG_EXPIRE (R438). -/
  | ctrlWatchdogExpire (core : Fin 5)
  /-- ROUTER_LANE_SWITCH (R439). -/
  | routerLaneSwitch (node : Fin 16)
  /-- ERROR_REPORT (R446). -/
  | errorReport
  /-- BRN_LOG_POP (R446). -/
  | brnLogPop (v : Word)
  /-- CNT_CLEAR (R447). -/
  | cntClear (b : Block) (v : Word)
  /-- LOCK_SET (R489). -/
  | lockSet (b : Block) (v : Word)
  /-- GLB_AVS_LIMIT (R490). -/
  | glbAvsLimit (v : Word)
  /-- AVS_STEP (R469). -/
  | avsStep (target : Nat) (ack : Bool)
  /-- PMBUS_RETRY (R469). -/
  | pmbusRetry (ack : Bool)
  /-- SEC_BOOT_WRITE_FIRMWARE (R455). -/
  | secBootWriteFirmware (v : Word)
  /-- SEC_BOOT_WRITE_OUTLINE (R456). -/
  | secBootWriteOutline (v : Word)
  /-- BOOT_WRITE_DONE (R456). -/
  | bootWriteDone (readBackGood : Bool)
  /-- SEC_ROLLBACK_COMMIT (R455). -/
  | secRollbackCommit (v : Word)
  /-- SEC_KEY_INSTALL (R458). -/
  | secKeyInstall (v : Word)
  /-- SEC_REVOKE (R460). -/
  | secRevoke (v : Word)
  /-- SEC_LOCK_ADVANCE (R462). -/
  | secLockAdvance (v : Word)
  /-- RECOVERY_IMAGE_LOAD (R454). -/
  | recoveryImageLoad (sess : Fin 16) (tag : Word) (image : List Byte)
  /-- POWER_ON (R470). -/
  | powerOn
  /-- RESET_N_ASSERT (R471). -/
  | resetNAssert (nanoseconds : Nat)
  /-- RESET_N_RELEASE (R475). -/
  | resetNRelease
  /-- SUPPLY_OUT_OF_RANGE (R470). -/
  | supplyOutOfRange (rail : Rail)
  /-- VDD_AON_LOSS (R389). -/
  | vddAonLoss
  /-- GLB_RESET_COLD (R470). -/
  | glbResetCold (v : Word)
  /-- GLB_RESET_WARM (R470). -/
  | glbResetWarm (v : Word)
  /-- GLB_PART_RESET (R472). -/
  | glbPartReset (v : Word)
  /-- PARTITION_RESET_DONE (R472). -/
  | partitionResetDone
  /-- PLL_LOCKED (R475). -/
  | pllLocked (primary standby : Bool)
  /-- FUSE_MAP_LOADED (R449). -/
  | fuseMapLoaded
  /-- MBIST_DONE (R475). -/
  | mbistDone (failedCores : List (Fin 36)) (failedCtrl : List (Fin 5))
  /-- TRAINING_DONE (R290). -/
  | trainingDone (failed : List Channel)
  /-- FIRMWARE_VERIFIED (R453). -/
  | firmwareVerified
  /-- BOOT_OUTLINE_LOAD (R94). -/
  | bootOutlineLoad
  /-- JOBS_READY (R477). -/
  | jobsReady
  /-- DOMAIN_POWER_UP (R466). -/
  | domainPowerUp (d : Fin 24)
  /-- T1_UNCORRECTABLE (R156). -/
  | t1Uncorrectable (core : Fin 36) (bank : Fin 8)
  /-- STEP_HOLD_END (R49). -/
  | stepHoldEnd
  /-- SLEW_COMPLETE (R45). -/
  | slewComplete
deriving DecidableEq, Repr, Inhabited

end Sys2Proof
end

