-- ==== Sys2Proof/WellFormed.lean ====
section
/-!
DEFINITION. Which commands are well formed: the operand of a row that its table of the manual bounds, and the code
that makes a frame or a register write this row's and no other's. A command outside these bounds is no event of the
hardware; the meanings are total on it all the same.
-/

namespace Sys2Proof

/-- CMD of a CTX_COMMAND body is the row's, or a code that no row has (R211, R228). -/
def ctxCode (n : Nat) (b : CtxBody) : Bool :=
  let c := b.w0.toNat % 256
  c = n || c = 0 || decide (10 < c)

/-- ACTION of a TIER_HINT body is the row's, or a code that no row has (R262, R263). -/
def hintCode (n : Nat) (b : HintBody) : Bool :=
  let c := b.w1.toNat % 256
  c = n || c = 0 || decide (6 < c)

/-- A transaction carries at most 16 bursts and stays in one 1 KiB block of its unit; a burst has at most 3 retries
(R286, R287). -/
def burstsOk {α : Type} (first : Fin 64) (l : List (List α)) : Bool :=
  !l.isEmpty && decide (first.val % 16 + l.length ≤ 16) && l.all fun t => !t.isEmpty && decide (t.length ≤ 4)

/-- A burst is 72 B (R284). -/
def burstsWhole (l : List (List BurstTry)) : Bool := l.all fun b => b.all fun t => t.data.length = 72

/-- A test unit, 1 to 7, or 0x100 plus a core (R426, R429). -/
def diagUnit (u : Nat) : Bool :=
  (decide (1 ≤ u) && decide (u ≤ 7)) || (decide (0x100 ≤ u) && decide (u < 0x100 + 36))

/-- The command is one that the hardware can meet (R211, R228, R262, R286, R394, R423, R426, R437, R447, R456, R463,
R470, R489). -/
def Instr.WellFormed (i : Instr) : Bool :=
  match i with
  | .coreJobLaunch _ => true
  | .drypointJobLaunch _ => true
  | .moveLaunch _ => true
  | .stylusLaunch _ => true
  | .proofCheckLaunch _ => true
  | .ethGateAnchor _ => true
  | .tierPrefetch _ => true
  | .gpioHigh _ => true
  | .gpioLow _ => true
  | .gpioToggle _ => true
  | .gpioPulse _ => true
  | .gpioPulseEnd _ => true
  | .selftestSlice _ => true
  | .rotationInstant _ => true
  | .carriedFiringLaunch => true
  | .deferredFiringLaunch _ => true
  | .spareSelftestDone _ _ => true
  | .rotationHandoverDone _ => true
  | .pllLossOfLock => true
  | .tbCapture _ => true
  | .syncReceived _ _ => true
  | .followUpReceived _ _ => true
  | .syncReceiptTimeout _ => true
  | .announceReceived _ _ => true
  | .announceReceiptTimeout _ => true
  | .pdelayReqReceived _ _ _ => true
  | .pdelayRespReceived _ _ => true
  | .pdelayInterval _ => true
  | .syncInterval _ => true
  | .announceInterval _ => true
  | .tbStepAccept _ => true
  | .tbSetGo _ => true
  | .tbAdj _ => true
  | .tbGpioOut _ => true
  | .ppsOutRise => true
  | .ppsOutFall => true
  | .ppsInEdge => true
  | .ppsLost => true
  | .gpioEdgeCapture _ _ => true
  | .gcapPop _ => true
  | .latchedHiRead _ => true
  | .rgnEntryDisable _ => true
  | .rgnEntryEnable _ => true
  | .otlStageBegin _ => true
  | .otlValidate _ => true
  | .validationDone => true
  | .otlCommitArm _ => true
  | .otlCancel _ => true
  | .commitPrepare => true
  | .epochCommit => true
  | .domainPowerDown _ => true
  | .gemm _ _ _ => true
  | .conv _ _ => true
  | .pool _ _ => true
  | .ewApply _ _ => true
  | .pwlLoad _ _ => true
  | .norm _ _ => true
  | .attnDecode _ _ => true
  | .attnPrefill _ _ => true
  | .scan _ _ => true
  | .gate _ _ => true
  | .sort _ _ => true
  | .moveCopy _ _ => true
  | .moveLayout _ _ => true
  | .moveTier _ _ => true
  | .moveTranspose _ _ => true
  | .waittAbsolute _ _ => true
  | .waittRelative _ _ => true
  | .waittComplete _ _ => true
  | .signal _ _ => true
  | .waits _ _ => true
  | .waitsSatisfied _ _ => true
  | .checkResidue _ _ => true
  | .checkStats _ _ => true
  | .planqSearch _ _ => true
  | .planqRevalidate _ _ => true
  | .planqReadPlan _ _ => true
  | .planqPublish _ _ => true
  | .fuse _ _ => true
  | .descriptorIssue _ _ => true
  | .descriptorComplete _ _ => true
  | .weightBufferReady _ _ => true
  | .weightLoadDone _ => true
  | .tileComplete _ _ _ => true
  | .accBankFree _ _ => true
  | .washResidueFault _ => true
  | .marginResidueFault => true
  | .marginQueueStart => true
  | .marginDescriptorDone => true
  | .jobSubmit _ _ => true
  | .jobCancel _ _ _ => true
  | .jobLaunchInstant _ => true
  | .jobStart _ => true
  | .jobSealEdge _ => true
  | .jobDeadline _ => true
  | .restartIssue _ => true
  | .ctxOpen _ _ b => ctxCode 1 b
  | .ctxFork _ _ b => ctxCode 2 b
  | .ctxTruncate _ _ b => ctxCode 3 b
  | .ctxReset _ _ b => ctxCode 4 b
  | .ctxClose _ _ b => ctxCode 5 b
  | .ctxAttach _ _ b => ctxCode 6 b
  | .ctxExport _ _ b => ctxCode 7 b
  | .exportDone _ => true
  | .ctxImport _ _ b => ctxCode 8 b
  | .ctxSwapOut _ _ b => ctxCode 9 b
  | .ctxSwapIn _ _ b => ctxCode 10 b
  | .swapDone _ => true
  | .pageSeal _ => true
  | .kvPageDemote _ => true
  | .promote _ _ b => hintCode 1 b
  | .release _ _ b => hintCode 2 b
  | .pin _ _ b => hintCode 3 b
  | .unpin _ _ b => hintCode 4 b
  | .demote _ _ b => hintCode 5 b
  | .drop _ _ b => hintCode 6 b
  | .extentMiss _ _ _ extent => decide (extent < 262144)
  | .extentFetchDone _ => true
  | .tierRequestTimeout _ => true
  | .lateCompletion _ _ => true
  | .tagRelease _ => true
  | .allocationWaitEnd => true
  | .tierWriteDone _ => true
  | .directoryMirrorWrite => true
  | .readoptVerifyDone _ _ _ _ => true
  | .rebuildDone _ _ _ => true
  | .tirDirQuery _ _ => true
  | .tierReadTransaction _ a bursts => burstsOk a.first bursts && burstsWhole bursts
  | .tierWriteTransaction _ a bursts => burstsOk a.first bursts
  | .unitUncorrectable _ _ => true
  | .retrainDone _ _ _ => true
  | .periodicRetrain _ => true
  | .driftRetrain _ => true
  | .chnRetrain _ => true
  | .lineworkPacketDelivered _ _ _ => true
  | .lineworkTimeout _ => true
  | .regulationWindow => true
  | .lnwBudget _ _ => true
  | .csiFrameStart _ _ _ lanes _ _ => decide (1 ≤ lanes) && decide (lanes ≤ 4)
  | .csiLongPacket _ _ _ _ _ _ _ => true
  | .csiEmbeddedData _ _ _ => true
  | .csiFrameEnd _ _ => true
  | .sensorFragment _ _ _ _ => true
  | .fragmentTimeout _ => true
  | .frameSeal _ => true
  | .streamStale _ => true
  | .egoPropagate _ _ => true
  | .egoMeasure _ _ => true
  | .egoPublish => true
  | .egoTimeout => true
  | .trcEgoCapture _ => true
  | .tracingQueueStart => true
  | .trackCoastExpire _ => true
  | .calibrationRefine _ => true
  | .demotionExpire _ => true
  | .plannerQueryStart => true
  | .searchEnd => true
  | .searchBudgetExpire => true
  | .repairBudgetExpire => true
  | .publishCopyStart => true
  | .publishCopyDone => true
  | .plannerFault => true
  | .stylusGuard _ => true
  | .stylusEngineDone _ _ => true
  | .outputFrameForm _ => true
  | .gateListAdvance _ => true
  | .gateWindowClose _ _ => true
  | .frameTransmit _ => true
  | .frameReceive _ _ _ => true
  | .frerRecoveryReset _ => true
  | .downLinkDiscard _ => true
  | .linkUp _ _ _ _ => true
  | .linkDown _ => true
  | .lldpTransmit _ => true
  | .lldpReceive _ _ _ _ => true
  | .partnerExpire _ => true
  | .arpRequest _ _ _ _ => true
  | .bypassArm => true
  | .bypassAnnounce => true
  | .bypassOpen => true
  | .bypassOpenFail => true
  | .bypassClose => true
  | .bypassCloseReq v => v.getLsbD 9
  | .bypassRetry v => v.getLsbD 8
  | .limianOpen _ _ _ _ => true
  | .limianClose _ => true
  | .limianAck _ _ _ => true
  | .ackDelay _ => true
  | .retransmitTimeout _ => true
  | .sessionIdleTimeout _ => true
  | .regRead _ _ _ _ => true
  | .regWrite _ _ _ _ => true
  | .objLoadBegin _ _ _ _ _ _ => true
  | .objData _ _ data => decide (data.length ≤ 1448)
  | .objLoadEnd _ _ _ _ => true
  | .objRead _ _ _ _ => true
  | .objPush _ _ _ _ _ _ _ => true
  | .wdiEdge => true
  | .wdoToggle _ => true
  | .checkMessage => true
  | .gateSampleMessage => true
  | .conflictBoxExpire _ => true
  | .sensorFaultClear => true
  | .prfRelease _ => true
  | .lockstepMismatch => true
  | .proofSramUncorrectable => true
  | .proofClockWindow _ _ => true
  | .voltageTrip _ _ => true
  | .stopReadbackMismatch _ => true
  | .sliceDone unit _ _ => unit != 0
  | .sliceAbort => true
  | .diagIntervalMissed unit => diagUnit unit
  | .diagnosisDone _ _ => true
  | .coreRetire _ => true
  | .plateScrub _ corrected => corrected.all fun b => decide (b < 168)
  | .plateUncorrectable _ bank => decide (bank < 168)
  | .plateCorrectedLimit _ bank => decide (bank < 168)
  | .ctrlWatchdogExpire _ => true
  | .routerLaneSwitch _ => true
  | .errorReport => true
  | .brnLogPop _ => true
  | .cntClear b _ => b != .glb && b != .prf && b != .sec
  | .lockSet b _ => b = .glb || b = .tb
  | .glbAvsLimit _ => true
  | .avsStep target _ => decide (460 ≤ target) && decide (target ≤ 600)
  | .pmbusRetry _ => true
  | .secBootWriteFirmware v => v.getLsbD 0
  | .secBootWriteOutline v => v.getLsbD 1
  | .bootWriteDone _ => true
  | .secRollbackCommit _ => true
  | .secKeyInstall _ => true
  | .secRevoke _ => true
  | .secLockAdvance _ => true
  | .recoveryImageLoad _ _ _ => true
  | .powerOn => true
  | .resetNAssert _ => true
  | .resetNRelease => true
  | .supplyOutOfRange _ => true
  | .vddAonLoss => true
  | .glbResetCold v => v = 0x434F4C44
  | .glbResetWarm v => v = 0x5741524D
  | .glbPartReset _ => true
  | .partitionResetDone => true
  | .pllLocked _ _ => true
  | .fuseMapLoaded => true
  | .mbistDone _ _ => true
  | .trainingDone _ => true
  | .firmwareVerified => true
  | .bootOutlineLoad => true
  | .jobsReady => true
  | .domainPowerUp _ => true
  | .t1Uncorrectable _ _ => true
  | .stepHoldEnd => true
  | .slewComplete => true
  | .preemptionVerifyTimeout _ => true

end Sys2Proof
end

