-- ==== Sys2Proof/Config.lean ====
section
/-!
DEFINITION. What the model leaves open: values that the manual does not fix, device facts from OTP, and
the functions that the manual only names. Each is an opaque constant without a body,
so nothing can be proved that depends on a particular value of it.
-/

namespace Sys2Proof.Config

open Sys2Proof

/-- The k-th free value of a run (log 2). -/
opaque freeWord : Nat → Word

/-- The k-th free choice among finitely many alternatives, taken modulo their number (log 2). -/
opaque freeChoice : Nat → Nat

/-- GLB_STATUS.GRADE (R2, R481): true for T7-CA-B1. A fuse. -/
opaque grade : Bool

/-- GLB_UID (R490): the device number in OTP. -/
opaque uid : BitVec 64

/-- ETH_MAC (R404): the base MAC address in OTP. -/
opaque macBase : BitVec 48

/-- ETH_OUI (R404): the vendor's OUI in OTP. -/
opaque oui : BitVec 24

/-- SEC_ID_KEY_w (R464): the identity public key. -/
opaque idKey : Nat → Word

/-- The fuse map: the repair map of each array of each core, as a CORE_REPAIR word (R97). -/
opaque fuseRepair : Nat → Nat → Word

/-- The key hash in OTP: 0 VENDOR_HASH, 1 to 4 CUST_HASH_1 to CUST_HASH_4; none in an unprogrammed slot
(R451, R453). -/
opaque otpKeyHash : Nat → Option (List Byte)

/-- The AES-256 key of slot 0, derived from DEVICE_SECRET (R457). -/
opaque deviceKey : BitVec 256

/-- The key that words 0 to 37 of a key blob wrap to the device's identity key; none where the GCM tag fails
(R458). -/
opaque unwrapKey : List Byte → Option (BitVec 256)

/-- A precise function of R139 at an FP32 operand: function code, operand, result. It stands for the
value within the bound of R139 that the part returns. -/
opaque preciseFn : Nat → Word → Word

/-- Raw bytes of the device on CS0 of a board-store channel, and of the one on CS1, 0 where none is fitted (R281,
R284). The integrator fits them. -/
opaque boardRaw : Nat → Bool → Nat

/-- How many bits beyond 48 the significand of a recurrent step has (R142). -/
opaque scanBits : Nat

/-- The order in which a lane tree adds its products (R131, R133): for a count of operands, a list of
operand places, used only where it is a permutation. -/
opaque treeOrder : Nat → List Nat

/-- The order in which firmware takes cores for slots (R18), used only where it is a permutation. -/
opaque slotOrder : Nat → List Nat

/-- The units of 2^-32 ns by which the PHY's raw send stamp of the k-th free value lies after the edge on which the frame
starts: the physical layer's own, before the correction of R50 (log 7). -/
opaque egressDelay : Nat → Nat

/-- The part's arithmetic of tracks and of the ego filter (R327, R332 to R334), in FP32 words. The manual names the
methods and gives no formula, so each is open (log 18). A track's state to the time of a list: state of 9 words,
elapsed units, sensor model, ego pose. -/
opaque trackPredict : List Word → Int → List Word → List Word → List Word

/-- The squared Mahalanobis distance of a predicted track to a detection: predicted state, sensor, ego pose,
detection (log 18). -/
opaque gateDistance : List Word → List Word → List Word → List Word → Word

/-- A track's state after an association: predicted state, sensor, ego pose, detection (log 18). -/
opaque trackUpdate : List Word → List Word → List Word → List Word → List Word

/-- The state of a track that a detection births: sensor, ego pose, detection (log 18). -/
opaque trackBirth : List Word → List Word → List Word → List Word

/-- Whether a sensor's field of view contains a predicted track (log 18). -/
opaque inView : List Word → List Word → List Word → Bool

/-- The squared distance between the associations of two sensors, predicted to one time (log 18). -/
opaque assocDistance : List Word → List Word → List Word → List Word → Int → Word

/-- The squared distance of two hypotheses of a track, the second so many units older (log 18). -/
opaque hypDistance : List Word → List Word → Int → Word

/-- The ego-frame box that encloses two hypotheses with 3 standard deviations: the hypotheses, by how
many units the second is older, the ego pose; low and high corner (log 18). -/
opaque conflictBox : List Word → List Word → Int → List Word → List Word

/-- Whether a detection lies in a box: sensor, ego pose, detection, box (log 18). -/
opaque detInside : List Word → List Word → List Word → List Word → Bool

/-- The ego filter's state after an inertial sample: state, sample, elapsed units (log 18). -/
opaque egoPropagate : List Word → List Word → Int → List Word

/-- The ego filter's state after a wheel sample (log 18). -/
opaque egoMeasure : List Word → List Word → List Word

/-- What the planner adds to the weighted heuristic before it drops the eight fraction bits of HEUR_WEIGHT
(R348): the manual does not state the rounding; taken modulo 256 (log 19). -/
opaque heurRound : Nat

/-- Die temperature, hottest sensor, in 1/16 degrees C (R490): free, by the draw. -/
opaque dieTemp : Nat → BitVec 16

end Sys2Proof.Config
end

