-- ==== Sys2Proof/Machine/Bits.lean ====
section
/-!
DEFINITION. Bit fields, sign extension, byte order and the CRCs of the manual (R7, R8, R74).
-/

namespace Sys2Proof.Machine

open Sys2Proof

/-- The bit field [hi:lo] of a word, as a number (R8). -/
def fld (w : Word) (hi lo : Nat) : Nat := (w.toNat / 2 ^ lo) % 2 ^ (hi + 1 - lo)

/-- One bit of a word (R8). -/
def bit (w : Word) (n : Nat) : Bool := w.getLsbD n

/-- A number as a word, reduced modulo 2^32. -/
def wd (n : Nat) : Word := BitVec.ofNat 32 n

/-- A field of `n` bits read as a two's complement number. -/
def sgn (x n : Nat) : Int := if x < 2 ^ (n - 1) then (x : Int) else (x : Int) - 2 ^ n

/-- A Bool as a bit placed at position `n`. -/
def flag (b : Bool) (n : Nat) : Nat := if b then 2 ^ n else 0

/-- A 0/1 number from a Bool. -/
def toBit (b : Bool) : Nat := if b then 1 else 0

/-- Clamp an integer to a range. -/
def clampInt (lo hi x : Int) : Int := if x < lo then lo else if hi < x then hi else x

/-- The little-endian bytes of a word (R7). -/
def wordBytes (w : Word) : List Byte :=
  [w.extractLsb' 0 8, w.extractLsb' 8 8, w.extractLsb' 16 8, w.extractLsb' 24 8]

/-- The little-endian bytes of a list of words. -/
def wordsBytes (ws : List Word) : List Byte := ws.flatMap wordBytes

/-- A number from little-endian bytes. -/
def leNat : List Byte → Nat
  | [] => 0
  | b :: r => b.toNat + 256 * leNat r

/-- A number from big-endian bytes (frames, R7). -/
def beNat (bs : List Byte) : Nat := leNat bs.reverse

/-- `n` little-endian bytes of a number. -/
def natBytes : Nat → Nat → List Byte
  | 0, _ => []
  | n + 1, x => BitVec.ofNat 8 x :: natBytes n (x / 256)

/-- `n` big-endian bytes of a number. -/
def natBytesBE (n x : Nat) : List Byte := (natBytes n x).reverse

/-- The words of a list of bytes, little-endian; `n` words are read, missing bytes as 0. -/
def bytesWords : Nat → List Byte → List Word
  | 0, _ => []
  | n + 1, bs => wd (leNat (bs.take 4)) :: bytesWords n (bs.drop 4)

/-- One step of a reflected CRC register over one bit. -/
def crcBit {n : Nat} (poly c : BitVec n) : BitVec n :=
  if c.getLsbD 0 then (c >>> 1) ^^^ poly else c >>> 1

/-- One byte into a reflected CRC register. -/
def crcByte {n : Nat} (poly c : BitVec n) (b : Byte) : BitVec n :=
  Nat.repeat (crcBit poly) 8 (c ^^^ b.setWidth n)

/-- CRC-32C (R74): polynomial 0x1EDC_6F41 reflected, initial value and final XOR all ones. -/
def crc32c (bs : List Byte) : Word :=
  (bs.foldl (crcByte 0x82F63B78#32) 0xFFFFFFFF#32) ^^^ 0xFFFFFFFF#32

/-- One bit of the CRC-8 register: the highest bit first (R285). -/
def crc8Bit (c : Byte) : Byte := if c.getLsbD 7 then (c <<< 1) ^^^ 0x07 else c <<< 1

/-- The CRC-8 of a burst on the wires (R285): polynomial 0x07, initial value 0xFF, no reflection, no final XOR. -/
def crc8 (bs : List Byte) : Byte := bs.foldl (fun c b => Nat.repeat crc8Bit 8 (c ^^^ b)) 0xFF

/-- The CRC-32C of the words of a structure in memory order (R74). -/
def crcWords (ws : List Word) : Word := crc32c (wordsBytes ws)

/-- The integer nearest to a / b for b > 0, halves to even. -/
def roundDiv (a : Int) (b : Nat) : Int :=
  let q := a.fdiv b
  let r := a.fmod b
  if 2 * r < b then q else if (b : Int) < 2 * r then q + 1 else if q % 2 = 0 then q else q + 1

/-- A list in an order of places, used only where the order is a permutation of its places. -/
def orderBy {α : Type} [Inhabited α] (p : List Nat) (l : List α) : List α :=
  if p.length = l.length ∧ p.Nodup ∧ p.all (· < l.length) then p.map (l.getD · default) else l

/-- The first of a list of indices below `n` that satisfies a test. -/
def firstIdx (n : Nat) (p : Nat → Bool) : Option Nat := (List.range n).find? p

end Sys2Proof.Machine
end

