-- ==== Sys2Proof/Machine/Types.lean ====
section
/-!
DEFINITION. The plain data types that State is built from: the records of an Outline (R72 to R80),
and the pieces of state of each unit. The default of a field is its value after reset.
-/

namespace Sys2Proof.Machine

open Sys2Proof

/-! ## Time -/

/-- Local time (R37): 48-bit seconds, 30-bit nanoseconds, 32-bit fraction of a nanosecond. -/
structure BaseTime where
  sec : BitVec 48 := 0
  ns : BitVec 30 := 0
  frac : BitVec 32 := 0
deriving DecidableEq, Repr, Inhabited

/-- The synchronisation states of R40, in the order of their codes. -/
inductive SyncState where
  | freeRun | acquiring | locked | holdover | grandmaster
deriving DecidableEq, Repr, Inhabited

/-! ## The Outline (R72 to R80) -/

/-- The header and signature fields of an Outline that outlive validation (R73, R80). -/
structure OtlHeader where
  totalWords : Nat := 0
  epoch : Word := 0
  boot : Bool := false
  debugOnly : Bool := false
  bodyCrc : Word := 0
  recordCount : Nat := 0
  keyIndex : Nat := 0
deriving DecidableEq, Repr, Inhabited

/-- PARTITION (R77). -/
structure PartitionRec where
  part : Nat := 0
  supervised : Bool := false
  slots : Nat := 0
  floor : Nat := 0
  clusters : BitVec 4 := 0
  restart : Nat := 0
  rights : BitVec 3 := 0
deriving DecidableEq, Repr, Inhabited

/-- One entry of REGULATION (R77). -/
structure RegulationEntry where
  part : Nat := 0
  master : Nat := 0
  min : Nat := 0
  share : Nat := 0
deriving DecidableEq, Repr, Inhabited

/-- TIER_POOL (R77). -/
structure TierPoolRec where
  part : Nat := 0
  t2Floor : Nat := 0
  t3Floor : Nat := 0
  t4Floor : Nat := 0
  onDemand : Bool := false
deriving DecidableEq, Repr, Inhabited

/-- One entry of OBJECT_PLACE (R77). -/
structure PlaceEntry where
  part : Nat := 0
  obj : Word := 0
  home : Nat := 2
  pin : Bool := false
  mirror : Bool := false
  source : Nat := 0
  size : Nat := 1
  order : Nat := 0
deriving DecidableEq, Repr, Inhabited

/-- One entry of STREAM (R77). -/
structure StreamEntry where
  part : Nat := 0
  id : Nat := 0
  egress : Bool := false
  ethernet : Bool := false
  port : Nat := 0
  vc : Nat := 0
  dataType : Nat := 0
  tsn : Nat := 0
  applyAtPos : Nat := 0
  period : Nat := 1
  frozenK : Nat := 2
deriving DecidableEq, Repr, Inhabited

/-- The stream uses an Ethernet port: an Ethernet source, or any egress stream, whose PORT is one (R77). -/
def StreamEntry.onPort (e : StreamEntry) : Bool := e.ethernet || e.egress

/-- One entry of NET_PORT (R77). -/
structure NetPortEntry where
  port : Nat := 0
  enable : Bool := false
  speedMax : Nat := 0
  gptp : Bool := false
  role : Nat := 0
  macsec : Bool := false
  logSync : Int := -3
  priority1 : Byte := 255
  priority2 : Byte := 255
  clockClass : Byte := 248
deriving DecidableEq, Repr, Inhabited

/-- One entry of a gate control list (R77). -/
structure GateEntry where
  gates : Byte := 0
  interval : Nat := 1
deriving DecidableEq, Repr, Inhabited

/-- TSN_GATE (R77). -/
structure TsnGateRec where
  port : Nat := 0
  cycle : Nat := 0
  entries : List GateEntry := []
deriving DecidableEq, Repr, Inhabited

/-- One entry of FRER (R77). -/
structure FrerEntry where
  tsn : Nat := 0
  ports : BitVec 4 := 0
  history : Nat := 1
deriving DecidableEq, Repr, Inhabited

/-- One entry of STYLUS_CHAN (R77): 40 Q15 coefficient halfwords. -/
structure ChanEntry where
  part : Nat := 0
  channel : Nat := 0
  cascade : Bool := false
  sections : Nat := 0
  group : Nat := 0
  period : Nat := 5000
  applyLead : Nat := 0
  inStream : Nat := 0
  outStream : Nat := 0
  coeff : List (BitVec 16) := []
deriving DecidableEq, Repr, Inhabited

/-- PLAN_LATTICE (R77). -/
structure LatticeRec where
  part : Nat := 0
  primitives : Nat := 1
  mapX : Nat := 1
  mapY : Nat := 1
  mapZ : Nat := 1
  voxelMm : Nat := 1
  tableObj : Word := 0
  maxPlan : Nat := 1
deriving DecidableEq, Repr, Inhabited

/-- One entry of FUSION (R77). -/
structure FusionEntry where
  stream : Nat := 0
  sensorType : Nat := 0
  extrinsicObj : Word := 0
deriving DecidableEq, Repr, Inhabited

/-- FUSION (R77). -/
structure FusionRec where
  part : Nat := 0
  maxTracks : Nat := 1
  egoHz : Nat := 0
  modelObj : Word := 0
  wheelStream : Nat := 0
  inertialStream : Nat := 0
  entries : List FusionEntry := []
deriving DecidableEq, Repr, Inhabited

/-- One plausibility rule: the eight words of R413. -/
structure RuleWords where
  e0 : Word := 0
  e1 : Word := 0
  e2 : Word := 0
  e3 : Word := 0
  e4 : Word := 0
  e5 : Word := 0
  e6 : Word := 0
  e7 : Word := 0
deriving DecidableEq, Repr, Inhabited

/-- SAFETY_RULE (R77): one rule set. -/
structure RuleSetRec where
  part : Nat := 0
  set : Nat := 0
  n : Nat := 3
  m : Nat := 10
  rules : List RuleWords := []
deriving DecidableEq, Repr, Inhabited

/-- One Registration table entry (R55). -/
structure RegEntry where
  offset : Nat := 0
  late : Nat := 0
  valid : Bool := true
  target : Nat := 0
  unit : Nat := 0
  action : Nat := 0
  part : Nat := 0
  arg : Word := 0
  repeatTicks : Nat := 0
deriving DecidableEq, Repr, Inhabited

/-- A job template (R78). -/
structure TemplateRec where
  chain : Word := 0
  part : Nat := 0
  restart : Nat := 0
  deadline : Nat := 1000
  outBase : Word := 0
deriving DecidableEq, Repr, Inhabited

/-- One entry of SELFTEST (R77). -/
structure SelftestEntry where
  unit : Nat := 0
  sliceTicks : Nat := 16
  slices : Nat := 1
deriving DecidableEq, Repr, Inhabited

/-- CONTEXT_POOL (R77). -/
structure PoolRec where
  part : Nat := 0
  contexts : Nat := 0
  kvPages : Nat := 0
  recStreams : Nat := 0
  maxPositions : Nat := 16
deriving DecidableEq, Repr, Inhabited

/-- An Outline as its records say it (R77). Every field that a record carries is here, so two
Outlines whose records are bit-identical are equal here, record by record (R87). -/
structure Outline where
  header : OtlHeader := {}
  /-- TYPE, SCOPE and ENTRIES of each record in image order (R75, R87). -/
  records : List (Nat × Nat × Nat) := []
  partitions : List PartitionRec := []
  domainOn : BitVec 24 := 0
  powerCap : Nat := 700
  coreRun : BitVec 36 := 0
  gpioOut : BitVec 16 := 0
  gpioHost : BitVec 16 := 0
  unitRun : BitVec 15 := 0
  regulation : List RegulationEntry := []
  tierPools : List TierPoolRec := []
  places : List PlaceEntry := []
  streams : List StreamEntry := []
  ports : List NetPortEntry := []
  gates : List TsnGateRec := []
  frer : List FrerEntry := []
  channels : List ChanEntry := []
  lattice : Option LatticeRec := none
  fusion : Option FusionRec := none
  ruleSets : List RuleSetRec := []
  h : Nat := 160000000
  table : List RegEntry := []
  templates : List TemplateRec := []
  moves : List (List Word) := []
  rotate : Bool := false
  selftest : List SelftestEntry := []
  pools : List PoolRec := []
deriving DecidableEq, Repr, Inhabited

/-! ## The network table (R380) -/

/-- One stream entry of the network table (R380). -/
structure NetEntry where
  mac : BitVec 48 := 0
  vid : BitVec 12 := 0
  tc : Nat := 0
  bySource : Bool := false
  rtag : Bool := false
  fwd : Bool := false
  egress : Bool := false
  maxSdu : Nat := 0
  cir : Nat := 0
  cbsBytes : Nat := 0
  template : List Byte := []
deriving DecidableEq, Repr, Inhabited

/-- The network table in force: its valid entries by index, and the header's per-port words. -/
structure NetTable where
  version : Nat := 0
  entries : List (Nat × NetEntry) := []
  express : List (BitVec 8) := []
  shaped : List (BitVec 8) := []
  idleSlope : List Nat := []
  ringLldp : BitVec 48 := 0
deriving DecidableEq, Repr, Inhabited

/-! ## Counters -/

/-- Every saturating counter of the control space (type SAT), by register name. -/
inductive Counter where
  | tbOutlier | tbJumpRefused | tbForeignDomain | tbPpsBad | tbGcapOvf (pin : Fin 16)
  | rgnLateDrop | rgnLateDefer | rgnLateReport | rgnStepSkipped | rgnProtectedWrite
  | otlCommitCount | otlRefused | otlCommitDiscard
  | coreCheckFail (core : Fin 36) (array : Fin 4) | coreCheckFailDp (core : Fin 36)
  | coreWashResidue (core : Fin 36) | coreWeightLoads (core : Fin 36) | coreLoadWait (core : Fin 36)
  | coreAccWait (core : Fin 36) | coreT1Conflict (core : Fin 36) | coreLateWeights (core : Fin 36)
  | coreDescCount (core : Fin 36)
  | pltCorr (slice : Fin 4) | pltUncorr (slice : Fin 4)
  | tirReadopted | tirReadoptFail | tirLateWeights | tirPromotions | tirEvictions | tirDemotions
  | tirDropped | tirMirrorReads | tirAllocWait | tirSticky | tirTimeouts | tirLateDiscard
  | chnGCrcRetry (c : Fin 66) | chnGEccCorr (c : Fin 66) | chnGEccUncorr (c : Fin 66) | chnGRetrains (c : Fin 66)
  | chnBCrcRetry (b : Fin 16) | chnBEccCorr (b : Fin 16) | chnBEccUncorr (b : Fin 16) | chnBRetrains (b : Fin 16)
  | lnwCorr | lnwUncorr | lnwTimeouts | lnwLateDiscard | lnwLowered | lnwRejected
  | ingPortErr (p : Fin 16) | ingFrames (n : Fin 48) | ingDrops (n : Fin 48) | ingRepeats (n : Fin 48)
  | ingDrifts (n : Fin 48) | ingOutliers (n : Fin 48)
  | trcBirthRefused | trcConflicts | trcDemotions | trcSensorFaults | trcLateLists | trcCalViol (s : Fin 48)
  | xhQueries | xhNoPath | xhTimeouts | xhRepairs | xhRepairFailed | xhTruncated | xhPlanStale | xhCacheMiss
  | styLaunches | styMissed | styChFaults | styHolds | styEngineFaults | styRefBad | styOutSat | styIClamp
  | ethGateMiss | ethFwdDiscard | ethPartnerFull | ethLimBad | ethLimOoo | ethLimRetx | ethLimLost | ethCqOverwrite
  | ethRxFrames (p : Port) | ethRxDrop (p : Port) | ethPsfpDrop (p : Port) | ethFrerDup (p : Port)
  | ethFrerRogue (p : Port) | ethMacsecDrop (p : Port) | ethLinkDown (p : Port) | ethTxFrames (p : Port)
  | prfDisagree | prfReruns | prfMissedLaunch | prfFrozenEvents | prfSliceAbort | prfSliceSkip | prfSliceFail
  | prfDiagMissed | prfGateFail | prfEccCorr | prfReleaseRefused
  | brnRotationLate | brnRestarts | brnSpared | brnRetired | brnTransient | brnLogLost | brnPllSwitch | brnPlateCorr
  | ctxCowCopies | ctxSticky | ctxEvicted | ctxLimitHits | ctxDamaged
  | ctxRecSwapIn | ctxRecSwapOut | ctxRecGateSamples | ctxRecImportReject
deriving DecidableEq, Repr, Inhabited

/-! ## Error records (R443) -/

/-- An error record, before and after the Burnisher gives it its SEQ (R443). -/
structure ErrorRecord where
  time : Compact := {}
  kind : Nat := 0
  inst : Nat := 0
  level : Nat := 0
  cls : Nat := 0
  preReset : Bool := false
  part : Option Nat := none
  code : Nat := 0
  action : Nat := 0
  job : Word := 0
  count : Word := 0
  detail : Word := 0
  seq : Word := 0
deriving DecidableEq, Repr, Inhabited

/-! ## Jobs and descriptors -/

/-- The states of a job (R150). -/
inductive JobState where
  | armed | launched | running | sealing | restarting | done | failed
deriving DecidableEq, Repr, Inhabited

/-- Where a job came from (R146): a session's JOB_SUBMIT, a Registration entry, or a registered
Move descriptor. -/
inductive JobOrigin where
  | submitted (sess : Nat) (tag : Word)
  | fired (entry : Nat)
  | move (entry : Nat)
deriving DecidableEq, Repr, Inhabited

/-- Numeric and status flags of a completion record, bits 16 to 22 of its word 0 (R171). -/
structure NumFlags where
  kZero : Bool := false
  invalid : Bool := false
  overflow : Bool := false
  convSat : Bool := false
  accSat : Bool := false
  lateWait : Bool := false
  drypoint : Bool := false
deriving DecidableEq, Repr, Inhabited

/-- An exact value: NaN, an infinity, or plus or minus m x 2^e. -/
inductive Num where
  | nan
  | inf (neg : Bool)
  | fin (neg : Bool) (m : Nat) (e : Int)
deriving DecidableEq, Repr, Inhabited

/-- One partial sum of the accumulator store: FP32 in floating modes, INT32 in integer modes (R105, R130, R131). -/
structure Accum where
  f32 : Word := 0
  int : Int := 0
  flags : NumFlags := {}
deriving DecidableEq, Repr, Inhabited

/-- One output tile of a product on the arrays: activation rows and weight columns along K, and the accumulator bank
that it fills once its first weight load has ended (R105, R106). -/
structure ArrayTile where
  acts : List (List Num) := []
  cols : List (List Num) := []
  /-- ARITH cycles for which one activation row occupies the feeder (R101, R176). -/
  rowTime : Nat := 1
  bank : Option Nat := none
deriving DecidableEq, Repr, Inhabited

/-- What a descriptor has given to the arrays of its core (R101, R106): the tiles whose results are not written, the
next weight load (a tile of that list, and a K step of it), and the drained banks in tile order. -/
structure ArrayWork where
  int : Bool := false
  /-- Logical columns per array (R101). -/
  pack : Nat := 64
  tiles : List ArrayTile := []
  tile : Nat := 0
  step : Nat := 0
  /-- ARITH cycles of the drain of 64 elements (R107). -/
  drain : Nat := 1
  results : List (List (List Accum)) := []
deriving DecidableEq, Repr, Inhabited

/-- The sixteen words of a descriptor (R163). -/
structure Descriptor where
  w : List Word := []
deriving DecidableEq, Repr, Inhabited

/-- How far an issued descriptor is. -/
inductive DescStage where
  /-- Issued; its operation has not acted yet. -/
  | issued
  /-- It waits: for a held context, a free unit, a signal, an instant, a verdict or an extent. -/
  | waiting
  /-- Its operation has acted; its completion record is not yet written. -/
  | acted
deriving DecidableEq, Repr, Inhabited

/-- Extents of a version that a read in progress needs (R259). -/
structure ExtentUse where
  part : Nat := 0
  obj : Word := 0
  ver : Nat := 0
  first : Nat := 0
  last : Nat := 0
deriving DecidableEq, Repr, Inhabited

/-- A descriptor that a slot has issued and whose completion record is not yet written (R120). -/
structure InFlight where
  index : Nat := 0
  desc : Descriptor := {}
  stage : DescStage := .issued
  issueEdge : Nat := 0
  /-- The engine time of the descriptor in ARITH cycles, by the owning chapter's formula. -/
  cycles : Nat := 0
  /-- The descriptor's product on the arrays (R106, R107). -/
  work : ArrayWork := {}
  /-- The extents that it reads until it is complete (R259). -/
  uses : List ExtentUse := []
  status : Byte := 0
  flags : NumFlags := {}
  result : Word := 0
  detail : Word := 0
deriving DecidableEq, Repr, Inhabited

/-- A completion record (R171). -/
structure CompRecord where
  status : Byte := 0
  opcode : Byte := 0
  flags : NumFlags := {}
  job : Word := 0
  index : BitVec 16 := 0
  slot : Nat := 0
  part : Nat := 0
  attempt : Nat := 0
  result : Word := 0
  endTime : Compact := {}
  elapsed : Word := 0
  detail : Word := 0
deriving DecidableEq, Repr, Inhabited

/-- One slot of a running job: its place in the slot chain, what is in flight, its record log,
its region of T1 scratch (R147, R171). -/
structure SlotState where
  /-- Physical core that serves the slot. -/
  core : Nat := 0
  /-- Logical core slot of the partition. -/
  logical : Nat := 0
  next : Nat := 0
  inFlight : List InFlight := []
  records : List CompRecord := []
  t1 : Memory := []
  /-- Residue digest of R170: the sum of every comparator result of the attempt, FP32. -/
  digest : Word := 0
  /-- CHECK messages of the slot that wait for their verdict (R419). -/
  verdicts : Nat := 0
deriving DecidableEq, Repr, Inhabited

/-- An output of a running job (R253): its bytes, and one past the highest byte written. -/
structure OutputState where
  obj : Word := 0
  data : Memory := []
  extent : Nat := 0
  /-- The fixed length of an output with an OBJECT_PLACE entry. -/
  fixedLen : Option Nat := none
deriving DecidableEq, Repr, Inhabited

/-- A version of a directory object that a job has bound (R149, R253), or a bound frame of a
stream alias (R325). -/
structure Binding where
  obj : Word := 0
  part : Nat := 0
  ver : Nat := 0
  len : Nat := 0
  data : Memory := []
  /-- The version lost its last copy after the bind (R257). -/
  gone : Bool := false
deriving DecidableEq, Repr, Inhabited

/-- The header and the per-slot chains of a chain object (R147). -/
structure Chain where
  width : Nat := 1
  drypoint : Bool := false
  log : Bool := false
  outputs : Nat := 0
  plateLocal : Nat := 0
  wcet : Nat := 1
  inputs : List Word := []
  slots : List (List Descriptor) := []
deriving DecidableEq, Repr, Inhabited

/-! ## Cores and clusters -/

/-- CORE_STATUS.STATE (R123). -/
inductive CoreState where
  | off | idle | running | waitWeights | selfTest | retired
deriving DecidableEq, Repr, Inhabited

/-- What an accumulator bank is doing (R105, R107). -/
inductive BankState where
  | free | computing | draining
deriving DecidableEq, Repr, Inhabited

/-- The repair map of one array (R97, CORE_REPAIR_An). -/
structure RepairMap where
  rowA : BitVec 7 := 0x7F
  rowB : BitVec 7 := 0x7F
  col : BitVec 7 := 0x7F
deriving DecidableEq, Repr, Inhabited

/-- A PWL table (R118). -/
structure PwlTable where
  clamp : Bool := false
  /-- BREAK, SLOPE and INTERCEPT of each segment. -/
  segments : List (Word × Word × Word) := []
  tableEnd : Word := 0
deriving DecidableEq, Repr, Inhabited

/-- One bank of the accumulator store (R105): its state, the job, slot and descriptor of its tile, the partial sums, the
arrays whose comparators have compared a block, and those that mismatched (R99, R134); the edge by which the last K
step is written, and that by which the drain ends (R104, R107). -/
structure AccBank where
  state : BankState := .free
  owner : Option (Word × Nat × Nat) := none
  sums : List (List Accum) := []
  compared : BitVec 4 := 0
  mismatch : BitVec 4 := 0
  written : Nat := 0
  drained : Nat := 0
deriving DecidableEq, Repr, Inhabited

/-- The check column of one array for one K step (R98, R133): the check weight of each logical row, and E_w of each
alignment block in the modes that have one. -/
structure CheckColumn where
  weights : List (BitVec 14) := []
  exps : List (Option Int) := []
deriving DecidableEq, Repr, Inhabited

/-- One set of weight registers of the four arrays (T0, R102, R250): the logical columns of arrays 0 to 3 in order, each
of 64 logical rows, and the check columns. -/
structure WeightSet where
  cols : List (List Num) := []
  checks : List CheckColumn := []
deriving DecidableEq, Repr, Inhabited

/-- A fault that waits for the end of the current output tile (R122): ERROR kind, instance, code and detail, and the
jobs that it meets. -/
structure PendingFault where
  kind : Nat := 0
  inst : Nat := 0
  code : Nat := 0
  detail : Nat := 0
  jobs : List Word := []
deriving DecidableEq, Repr, Inhabited

/-- What is left of a tile whose job has ended (R122): job, partition, the arrays whose comparators have compared, and
those that mismatched. -/
structure TileTail where
  job : Word := 0
  part : Nat := 0
  compared : BitVec 4 := 0
  mismatch : BitVec 4 := 0
deriving DecidableEq, Repr, Inhabited

/-- A Graver core (R96 to R123). -/
structure Core where
  state : CoreState := .off
  /-- The job that uses the core's arrays, and the Drypoint job beside it (R151). -/
  job : Option Word := none
  dryJob : Option Word := none
  repair : List RepairMap := [{}, {}, {}, {}]
  /-- Weight staging buffers 0 and 1 are full (R103). -/
  bufFull : List Bool := [false, false]
  /-- A weight load waits for its buffer (R103). -/
  loadWaits : Bool := false
  /-- A weight load runs and the broadcast is halted (R102, R16), from an edge on. -/
  loading : Bool := false
  loadStart : Nat := 0
  /-- The edge from which the load has waited for its buffer (R103). -/
  loadWaitEdge : Nat := 0
  nextBuf : Nat := 0
  /-- The working weights, and the shadow weights of the last load (R102). -/
  working : WeightSet := {}
  shadow : WeightSet := {}
  /-- The first activation row of the K step in `feed` carries the swap mark (R102). -/
  swapMark : Bool := false
  /-- The activation rows of the K step that streams, 64 values each, its bank, its mode, the edge by which the last
  row has entered, and that row's columns per array (R104). -/
  feed : List (List Num) := []
  feedBank : Nat := 0
  feedInt : Bool := false
  feedPack : Nat := 64
  enterEdge : Nat := 0
  banks : List AccBank := [{}, {}]
  /-- The bank that the next tile fills (R106). -/
  nextBank : Nat := 0
  /-- The first K step of the next tile waits for this bank, from an edge on (R107). -/
  bankWait : Option Nat := none
  bankWaitEdge : Nat := 0
  /-- A tile whose job the deadline has ended before it (R122, R155). -/
  tail : Option TileTail := none
  pendingFaults : List PendingFault := []
  pwl : List (Nat × PwlTable) := []
  /-- Coarse GATE and SCAN descriptors since the last sample (R241). -/
  coarseCount : Nat := 0
  /-- Edges of the core's transient faults (R434). -/
  transients : List Nat := []
  /-- The core leaves service at its next job boundary (R433, R434). -/
  leaving : Bool := false
  /-- The core is in diagnosis (R434). -/
  diagnosing : Bool := false
  /-- Its diagnosis has ended, and it is to be retired (R433, R434). -/
  retiring : Bool := false
  /-- Edge at which its last self-test passed, for R24. -/
  lastPass : Nat := 0
deriving DecidableEq, Repr, Inhabited

/-- Rotation in one cluster (R19 to R26, R436). -/
structure Cluster where
  spare : Option (Fin 9) := none
  /-- The spare's LBIST and MBIST run (R19). -/
  testing : Bool := false
  testStart : Nat := 0
  /-- A handover waits for the outgoing core's job or for the spare's test (R23). -/
  handover : Bool := false
  suspended : Bool := false
  /-- The core whose self-test a diagnosis abandoned (R436). -/
  abandoned : Option (Fin 9) := none
  rejoinEdge : Nat := 0
  /-- Edge from which the 100 ms coverage interval counts (R24, R436). -/
  coverFrom : Nat := 0
deriving DecidableEq, Repr, Inhabited

/-! ## Contexts (R197 to R249) -/

/-- A page-table entry of a layer-group (R204). -/
structure Pte where
  /-- INDEX of the page record that PAGE_ID names (R202). -/
  page : Nat := 0
  /-- PAGE_NO. -/
  index : Nat := 0
  evicted : Bool := false
  valid : Bool := true
  score : BitVec 16 := 0
deriving DecidableEq, Repr, Inhabited

/-- A layer-group record (R203). -/
structure LayerGroup where
  filled : Nat := 0
  ptes : List Pte := []
  /-- The PTE blocks that exist, each with its Plate address in 64 B units: BLOCK and VALID of words 16 to 31. -/
  blocks : List (Nat × BitVec 22) := []
deriving DecidableEq, Repr, Inhabited

/-- A page record, its page and where the page lies (R202, R260). -/
structure PageRecord where
  index : Nat := 0
  part : Nat := 0
  gen : Nat := 1
  refs : Nat := 1
  open_ : Bool := true
  sealed : Bool := false
  damaged : Bool := false
  /-- Its position 15 is committed: it is immutable and waits for its seal (R208). -/
  awaits : Bool := false
  data : Memory := []
  crc : Word := 0
  inPlate : Bool := true
  inT3 : Bool := false
  /-- Its T3 unit, and that of its mirror. -/
  unit : Nat := 0
  mirrorUnit : Option Nat := none
  /-- Of the two, the units whose contents a channel took with it and that are not rewritten (R222, R275, R292). -/
  gone : List Nat := []
  sealEdge : Nat := 0
deriving DecidableEq, Repr, Inhabited

/-- The stored state region of a recurrent context (R225 to R227): its header and its bytes. -/
structure StateRegion where
  /-- STATE_ADDR, while the region is resident (R225). -/
  addr : BitVec 22 := 0
  units : Nat := 2
  lookahead : Nat := 0
  steps : BitVec 64 := 0
  model : Word := 0
  warm : BitVec 16 := 0
  hash : List Byte := []
  /-- Slice bytes, at their offsets in the region. -/
  data : Memory := []
  resident : Bool := true
  swapBusy : Bool := false
  /-- The region has not changed since its last swap-in (R242). -/
  clean : Bool := false
  /-- The first T3 unit of the snapshot that object 0xFC00_0000 + n names; none without one. -/
  snapshot : Option Nat := none
  snapMirror : Option Nat := none
  /-- Logical channels that took units of the snapshot with them and that are not rewritten (R248, R275, R292). -/
  snapGone : List Nat := []
  lastSeal : Nat := 0
  /-- Of each slice, by its offset: the steps since its last zeroing or reset mark, and the segment of
  each step whose output is pending, oldest first (R236, R238; model's own, log 15). -/
  slices : List (Nat × Nat × List Nat) := []
  /-- The steps that a slice not listed there has taken: none since a zeroing, and STEPS of the snapshot after an
  IMPORT (R238, R246; model's own, log 15). -/
  unlisted : Nat := 0
deriving DecidableEq, Repr, Inhabited

/-- CTX_ENTRY.STATE (R199). -/
inductive CtxState where
  | free | active | damaged
deriving DecidableEq, Repr, Inhabited

/-- A context table entry with its page tables (R199, R203). -/
structure Context where
  id : Nat := 0
  state : CtxState := .free
  kv : Bool := false
  part : Nat := 0
  layers : Nat := 0
  groups : Nat := 0
  fmt : Nat := 0
  heads : Nat := 0
  mirror : Bool := false
  window : Nat := 0
  sink : Nat := 0
  recent : Nat := 0
  budget : Nat := 0
  shift : Nat := 0
  root : BitVec 22 := 0
  holder : Word := 0
  lastCommit : Compact := {}
  gen : Word := 0
  lgs : List LayerGroup := []
  /-- The record frames that exist, each with the Plate address that its word of the root frame holds (R203). -/
  recFrames : List (Nat × BitVec 22) := []
  rec_ : Option StateRegion := none
  /-- A page or snapshot was lost while a job held the context (R222). -/
  damagePending : Bool := false
deriving DecidableEq, Repr, Inhabited

/-- A CTX_EXPORT that is not complete (R245). -/
structure ExportOp where
  ctx : Nat := 0
  part : Nat := 0
  obj : Word := 0
  keySlot : Nat := 0
  /-- The key that the export started with (R458). -/
  key : BitVec 256 := 0
  sess : Nat := 0
  tag : Word := 0
  region : StateRegion := {}
deriving DecidableEq, Repr, Inhabited

/-- A swap that is not complete (R243). -/
structure SwapOp where
  ctx : Nat := 0
  swapIn : Bool := true
  /-- The session and tag to answer, when a command asked for the swap. -/
  reply : Option (Nat × Word) := none
deriving DecidableEq, Repr, Inhabited

/-! ## Jobs -/

/-- What an attempt of a job has journalled for its seal edge (R206, R233, R330, R344, R353). -/
structure Journal where
  /-- The contexts that the attempt has touched, as it sees them. -/
  ctxs : List Context := []
  /-- Contexts whose state region has a working copy (R233). -/
  regions : List Nat := []
  /-- Pages that the attempt opened or copied. -/
  opened : List Nat := []
  /-- Pages that lose a reference on the seal edge: evicted, out of the window, copied. -/
  drops : List Nat := []
  /-- A plan to install: plan number, PLAN_SEQ at query start, primitives with the state after each. -/
  plans : List (Nat × Nat × Nat × List (Nat × Word)) := []
  /-- A PUBLISH of this job has finished its copy. -/
  published : Bool := false
deriving DecidableEq, Repr, Inhabited

/-- A context command that waits for regions on their way out (R242). -/
structure CtxWait where
  sess : Nat := 0
  tag : Word := 0
  body : CtxBody := {}
deriving DecidableEq, Repr, Inhabited

/-- A job (R146 to R161). -/
structure Job where
  id : Word := 0
  part : Nat := 0
  origin : JobOrigin := .fired 0
  chainObj : Word := 0
  deadlineUs : Nat := 1000
  budget : Nat := 1
  outBase : Word := 0
  state : JobState := .launched
  /-- The launch instant in local time (R150). -/
  launch : Int := 0
  launchEdge : Nat := 0
  attempt : Nat := 0
  status : Byte := 0
  detail : Word := 0
  chain : Chain := {}
  bound : List Binding := []
  slots : List SlotState := []
  counters : List Word := []
  local_ : Memory := []
  outs : List OutputState := []
  journal : Journal := {}
  /-- DISAGREE verdicts so far (R419). -/
  disagrees : Nat := 0
  /-- The core whose rejoin the restart waits for (R522). -/
  waitsForCore : Option Nat := none
  /-- Objects that the job has read and that the layer-order chain has followed (R264). -/
  chained : List Word := []
deriving DecidableEq, Repr, Inhabited

/-! ## Tiers (R250 to R280) -/

/-- Directory entry states (R257). -/
inductive DirState where
  | open_ | writing | sealed | absent | damaged | rebuilding | verifying
deriving DecidableEq, Repr, Inhabited

/-- A version of a directory object: its directory entry (R256) and its bytes. -/
structure ObjVersion where
  obj : Word := 0
  part : Nat := 0
  ver : Nat := 1
  state : DirState := .sealed
  newest : Bool := true
  home : Nat := 2
  pin : Bool := false
  hpin : Bool := false
  mirror : Bool := false
  source : Nat := 0
  len : Nat := 1
  /-- Present extents in T2, and extents that a fetch fills (R259). -/
  present : List Nat := []
  filling : List Nat := []
  /-- The Plate address of each of these extents in 64 B units, and EXT_TABLE, 0 without an extent (R256, R259). -/
  addrs : List (Nat × BitVec 22) := []
  table : BitVec 22 := 0
  t3 : Option Nat := none
  t3Mirror : Option Nat := none
  /-- Logical channels that took units of the T3 copy with them and that are not rewritten (R275, R292). -/
  gone : List Nat := []
  t4 : Option Nat := none
  /-- A promotion to T2, and one to T3, is in flight (R256, R272). -/
  promoT2 : Bool := false
  promoT3 : Bool := false
  refsT2 : Nat := 0
  refsT3 : Nat := 0
  hostT2 : Bool := false
  hostT3 : Bool := false
  vrefs : Nat := 0
  crc : Word := 0
  lastUse : Int := 0
  order : Nat := 0
  sealJob : Word := 0
  data : Memory := []
  refetch : Bool := false
  /-- The order in which entries were made ABSENT (R255). -/
  absentSeq : Nat := 0
  /-- CTRL edge of the seal (R254). -/
  sealEdge : Nat := 0
  /-- A bind or a read has moved its check to the front (R278). -/
  raised : Bool := false
  /-- HOME changed at a boundary while the version was VERIFYING: its copy moves after the check (R261). -/
  rehome : Bool := false
deriving DecidableEq, Repr, Inhabited

/-- PROMOTING (R256). -/
def ObjVersion.promoting (o : ObjVersion) : Bool := o.promoT2 || o.promoT3

/-- A tier request: the fetch of one extent (R265 to R268, R291). -/
structure TierRequest where
  tag : BitVec 16 := 0
  /-- The jobs and slots that wait for the extent. -/
  askers : List (Word × Nat) := []
  /-- A promotion or the read-ahead wants it too. -/
  shared : Bool := false
  part : Nat := 0
  obj : Word := 0
  ver : Nat := 0
  extent : Nat := 0
  raised : Bool := false
  issueEdge : Nat := 0
  /-- The tier of the copy that it reads, and the units of it that have not arrived (R291). -/
  tier : Nat := 3
  left : List Nat := []
deriving DecidableEq, Repr, Inhabited

/-- A write into T3 or T4 that the Tier Writer has taken up (R252). -/
inductive TierWriteKind where
  | place | demote | swap | kvPage | rebuild | moveCopy | load | mirror
deriving DecidableEq, Repr, Inhabited

structure TierWrite where
  kind : TierWriteKind := .place
  part : Nat := 0
  obj : Word := 0
  ver : Nat := 0
  tier : Nat := 3
  start : Nat := 0
  len : Nat := 1
  mirrorStart : Option Nat := none
  /-- It has its units; else it waits for room, to be mirrored where `mirrored` says so (R252, R269). -/
  placed : Bool := true
  mirrored : Bool := false
deriving DecidableEq, Repr, Inhabited

/-- Units of T3 or T4 that a copy gave up, and when (R252). -/
structure FreedUnits where
  tier : Nat := 3
  start : Nat := 0
  len : Nat := 1
  edge : Nat := 0
deriving DecidableEq, Repr, Inhabited

/-- A tier reference that a TIER_PREFETCH entry, the layer-order chain or a MOVE holds on a version; `job`
is the job whose end releases it, once known (R264, R273). -/
structure TierRef where
  entry : Option Nat := none
  job : Option Word := none
  part : Nat := 0
  obj : Word := 0
  ver : Nat := 0
  tier : Nat := 2
deriving DecidableEq, Repr, Inhabited

/-- Something that waits for T2 space (R269). -/
structure AllocWait where
  job : Word := 0
  /-- The slot whose write waits; 32 for a launch or a fetch. -/
  slot : Nat := 32
  part : Nat := 0
  /-- 4 KiB units wanted. -/
  units : Nat := 0
  obj : Word := 0
  ver : Nat := 0
  extent : Nat := 0
deriving DecidableEq, Repr, Inhabited

/-- One entry of a directory mirror image (R276). -/
structure MirrorEntry where
  obj : Word := 0
  part : Nat := 0
  ver : Nat := 0
  home : Nat := 2
  pin : Bool := false
  mirror : Bool := false
  source : Nat := 0
  len : Nat := 1
  t3 : Nat := 0
  t3Mirror : Nat := 0
  crc : Word := 0
  order : Nat := 0
deriving DecidableEq, Repr, Inhabited

/-- A directory mirror slot (R276): the words of its image, and what the T3 copies that its entries name hold. -/
structure MirrorSlot where
  words : List Word := []
  data : List Memory := []
deriving DecidableEq, Repr, Inhabited

/-- An object load in progress (R401). -/
structure LoadOp where
  sess : Nat := 0
  obj : Word := 0
  part : Nat := 0
  total : Nat := 0
  received : List Byte := []
  encrypted : Bool := false
  /-- The key that the load started with (R458). -/
  key : BitVec 256 := 0
  iv : BitVec 96 := 0
  tag : Word := 0
  /-- The tag of its OBJ_LOAD_END, while the Tier Writer writes the copy (R252). -/
  ending : Option Word := none
deriving DecidableEq, Repr, Inhabited

/-- A CTX_ATTACH with its body, an OBJ_PUSH with its remote partition, ID and status, or an OBJ_READ, which waits for the
check of a version (R257). -/
structure CheckWait where
  part : Nat := 0
  obj : Word := 0
  ver : Nat := 0
  sess : Nat := 0
  tag : Word := 0
  attach : Option CtxBody := none
  push : Option (Nat × Word × Byte) := none
deriving DecidableEq, Repr, Inhabited

/-! ## Memory channels and Linework -/

/-- CHN_G_STATUS_c.STATE and CHN_B_STATUS_b.STATE (R302). -/
inductive ChanState where
  | off | training | active | retraining | spare | retired | lost
deriving DecidableEq, Repr, Inhabited

/-- A request for one unit in a channel's queue: its tag, its class, and the 1 KiB blocks that are not read (R286, R291,
R299). -/
structure ChanRequest where
  tag : BitVec 16 := 0
  unit : Nat := 0
  cls : Nat := 1
  blocks : List Nat := [0, 1, 2, 3]
deriving DecidableEq, Repr, Inhabited

/-- One memory channel (R302). -/
structure MemChannel where
  state : ChanState := .off
  logical : BitVec 7 := 0x7F
  cs1 : Bool := false
  /-- Read-strobe tap, write-levelling tap and detected latency of CHN_x_TRAIN. -/
  train : BitVec 24 := 0
  lastTrain : Nat := 0
  trainTemp : Int := 0
  trainVdd : Nat := 500
  deferred : Bool := false
  /-- Edges of the corrections counted toward 16 within 1 ms (R290). -/
  corrEdges : List Nat := []
  /-- The unit whose burst is read once more after the retrain (R288). -/
  reread : Option Nat := none
  /-- The unit that is uncorrectable (R288). -/
  bad : Option Nat := none
  /-- The request queue, oldest first (R291). -/
  queue : List ChanRequest := []
  /-- The last 16 bursts that the device sent, each by unit and place, the oldest first (R283). -/
  replay : List (Nat × Nat) := []
  /-- Bursts whose write the device has not stored (R286, R287). -/
  unstored : List (Nat × Nat) := []
deriving DecidableEq, Repr, Inhabited

/-- A Linework router (R439). -/
structure Router where
  onShadow : Bool := false
  lost : Bool := false
  uncorrEdges : List Nat := []
deriving DecidableEq, Repr, Inhabited

/-- A Linework transaction that is not complete (R297). -/
structure LineworkTx where
  tag : BitVec 16 := 0
  job : Word := 0
  /-- Destination node, source node, and the core whose port issued it (R27, R295). -/
  node : Nat := 0
  source : Nat := 0
  core : Nat := 0
  /-- Master code, partition and regulation class (R295, R299, R300). -/
  master : Nat := 0
  part : Nat := 0
  cls : Nat := 1
  issueEdge : Nat := 0
deriving DecidableEq, Repr, Inhabited

/-- A fetch that waits because its master is at its limit of outstanding transactions (R301): the slot that missed, or
32 for a promotion or the read-ahead. -/
structure PortWait where
  job : Word := 0
  slot : Nat := 32
  part : Nat := 0
  obj : Word := 0
  ver : Nat := 0
  extent : Nat := 0
deriving DecidableEq, Repr, Inhabited

/-- A tag that a timeout invalidated and that is held out of use (R448). -/
structure HeldTag where
  tag : BitVec 16 := 0
  edge : Nat := 0
deriving DecidableEq, Repr, Inhabited

/-- The budget of one master of one partition (R298, R303). -/
structure Budget where
  part : Nat := 0
  master : Nat := 0
  min : BitVec 12 := 0
  share : BitVec 8 := 1
deriving DecidableEq, Repr, Inhabited

/-! ## Sensor ingress -/

/-- A landed frame, sealed as a version of a stream alias (R306, R307). -/
structure LandedFrame where
  index : Nat := 0
  repeat_ : Bool := false
  frozen : Bool := false
  unsync : Bool := false
  noTime : Bool := false
  timeBad : Bool := false
  gap : Bool := false
  counter : Nat := 0
  arrival : Int := 0
  frameTime : Int := 0
  sensorTime : Nat := 0
  signature : BitVec 64 := 0
  lines : Nat := 0
  rowPitch : Nat := 0
  lineBytes : Nat := 0
  payload : List Byte := []
  binds : Nat := 0
  current : Bool := true
  /-- CTRL edge of the seal. -/
  sealEdge : Nat := 0
deriving DecidableEq, Repr, Inhabited

/-- A frame that is being landed (R306, R311, R315). -/
structure OpenFrame where
  counter : Nat := 0
  arrival : Int := 0
  sensorTime : Option Nat := none
  gptp : Bool := false
  payload : List Byte := []
  /-- Bytes in arrival order without padding, for the signature (R318). -/
  raw : List Byte := []
  lines : Nat := 0
  lineBytes : Nat := 0
  nextFrag : Nat := 0
  ended : Bool := false
  lastEdge : Nat := 0
deriving DecidableEq, Repr, Inhabited

/-- A sensor clock model (R321, R322). RATE is in units of 2^-32. -/
structure ClockModel where
  refS : Nat := 0
  refT : Int := 0
  rate : Int := 0
  valid : Bool := false
  updates : Nat := 0
  lockRun : Nat := 0
  locked : Bool := false
  unsync : Bool := false
  calmRun : Nat := 0
  outlierRun : Nat := 0
  resid : Int := 0
deriving DecidableEq, Repr, Inhabited

/-- ING_S_STATUS_n.STATE (R336). -/
inductive StreamState where
  | off | waiting | active | stale
deriving DecidableEq, Repr, Inhabited

/-- One ingress stream context (R305, R336). -/
structure IngStream where
  state : StreamState := .off
  frozen : Bool := false
  drift : Bool := false
  repeatRun : Nat := 0
  framesSealed : Word := 0
  versions : List LandedFrame := []
  open_ : Option OpenFrame := none
  clock : ClockModel := {}
  /-- Frames of the stream dropped since its previous sealed frame (R316, R317). -/
  droppedSince : Nat := 0
  gapNext : Bool := false
  /-- A frame has been sealed since the stream started afresh (R316 to R318). -/
  hasPrev : Bool := false
  /-- SEQUENCE of a frame that was dropped before its LAST fragment (R309, R315). -/
  dead : Option Nat := none
  lastCounter : Nat := 0
  lastSignature : BitVec 64 := 0
  lastSealEdge : Nat := 0
  /-- Phase state of R326: the lead, the phase, the phase at the last DRIFT, the previous diff. -/
  lead : Option Nat := none
  phase : Int := 0
  phase0 : Int := 0
  prevDiff : Int := 0
deriving DecidableEq, Repr, Inhabited

/-- One CSI-2 port (R310, R312). -/
structure CsiPort where
  lanes : Nat := 0
  /-- Measured lane rate in 10 Mbit/s units. -/
  rate : Nat := 0
deriving DecidableEq, Repr, Inhabited

/-! ## Tracing unit -/

/-- Track states (R332). -/
inductive TrackState where
  | tentative | confirmed | coasting
deriving DecidableEq, Repr, Inhabited

/-- A track (R331, R332, R334). Vector values are FP32 words. -/
structure Track where
  id : BitVec 16 := 0
  state : TrackState := .tentative
  conflicted : Bool := false
  cls : Nat := 0
  pos : List Word := []
  vel : List Word := []
  var_ : List Word := []
  lastAssoc : Int := 0
  /-- The times to which the state and the second hypothesis were updated (R332, R334). -/
  time : Int := 0
  timeB : Int := 0
  /-- The newest association of each sensor: its FUSION entry, its time and its detection (R333, R334). -/
  assocs : List (Nat × Int × List Word) := []
  /-- The last CONFIRM_N updates, newest first: associated or not. -/
  history : List Bool := []
  missRun : Nat := 0
  /-- Conflicted updates, the two sensors, and the second hypothesis (none = absent). -/
  conflictCount : Nat := 0
  sensorA : Nat := 0
  sensorB : Nat := 0
  hypB : Option (List Word) := none
  changed : Bool := false
deriving DecidableEq, Repr, Inhabited

/-- The track table with what a holder's journal may change (R330 to R334). -/
structure TrackTable where
  tracks : List Track := []
  /-- The track ID that the next birth takes (R332). -/
  nextId : BitVec 16 := 1
  /-- FRAME_TIME of the newest list applied; none before the first (R330). -/
  newest : Option Int := none
  /-- Sensors of the residuals collected in the journal, one each (R333). -/
  residuals : List Nat := []
  /-- Demotions that the journal decides: sensor and box (R334). -/
  demotes : List (Nat × List Word) := []
  /-- Escalations that the journal decides: the two sensors (R334). -/
  escalations : List (Nat × Nat) := []
deriving DecidableEq, Repr, Inhabited

/-- Calibration of one FUSION entry (R333, R334). -/
structure Calibration where
  /-- The corrections applied so far, FP32, six components. -/
  correction : List Word := [0, 0, 0, 0, 0, 0]
  limit : Bool := false
  /-- Violation bits of the last 60 seconds, bit 0 the current second. -/
  history : BitVec 60 := 0
  residuals : Nat := 0
  /-- The edge of the newest refinement (R333). -/
  refineEdge : Nat := 0
  /-- The demotions that hold (R334): the edge at which each ends, and its box: x, y, z low and high corners, FP32. -/
  demotions : List (Nat × List Word) := []
deriving DecidableEq, Repr, Inhabited

/-- The ego filter (R327), FP32: position 3, velocity 3, orientation w, x, y, z, biases 6. The world's origin
is the pose at reset. -/
structure EgoFilter where
  state : List Word := [0, 0, 0, 0, 0, 0, 0x3F800000, 0, 0, 0, 0, 0, 0, 0, 0, 0]
  time : Int := 0
  valid : Bool := false
  lastInertial : Nat := 0
  /-- The number of the newest instant of EGO_HZ at which the pose was published, counted from time zero (R327). -/
  published : Nat := 0
deriving DecidableEq, Repr, Inhabited

/-! ## Crosshatch planner -/

/-- PLANQ kinds (R345). -/
inductive QueryKind where
  | search | revalidate | readPlan | publish
deriving DecidableEq, Repr, Inhabited

/-- A query in the planner's queue or running (R345, R347). -/
structure Query where
  job : Word := 0
  slot : Nat := 0
  kind : QueryKind := .search
  plan : Nat := 0
  install : Bool := false
  words : List Word := []
  genBound : Word := 0
  planSeq : Nat := 0
  startEdge : Nat := 0
  /-- Edge at which the search ended and REPAIR_US began (R351). -/
  repairStart : Option Nat := none
  /-- CTRL edges for which a test slice has paused the query (R356). -/
  paused : Nat := 0
  /-- The result of the search, while its path is repaired: status bits, path, counts; and the generation
  that the repair searches (R351, R352). -/
  found : Nat := 0
  path : List (Nat × Word) := []
  expansions : Nat := 0
  pushes : Nat := 0
  repairGen : Word := 0
deriving DecidableEq, Repr, Inhabited

/-- A map buffer (R342): its generation and its bytes. -/
structure MapBuffer where
  gen : Word := 0
  valid : Bool := false
  data : Memory := []
deriving DecidableEq, Repr, Inhabited

/-- A current plan (R353): PLAN_SEQ, GEN_CHECKED, primitives with the state after each. -/
structure Plan where
  seq : BitVec 16 := 0
  gen : Word := 0
  path : List (Nat × Word) := []
deriving DecidableEq, Repr, Inhabited

/-- A primitive of the lattice (R339). -/
structure Primitive where
  dx : Int := 0
  dy : Int := 0
  endHeading : Nat := 0
  endMode : Nat := 0
  cost : Nat := 1
  voxels : List (Int × Int × Nat) := []
deriving DecidableEq, Repr, Inhabited

/-- The lattice that firmware loaded (R339, R340): groups by heading and mode. -/
structure Lattice where
  headings : Nat := 1
  modes : Nat := 1
  cellCost : Nat := 0
  /-- First primitive and count of each (heading, mode) group. -/
  groups : List (Nat × Nat) := []
  prims : List Primitive := []
deriving DecidableEq, Repr, Inhabited

/-! ## Stylus engines -/

/-- STY_CH_c.STATE (R375). -/
inductive ChanRun where
  | unused | waitRef | running | fault
deriving DecidableEq, Repr, Inhabited

/-- The state that a control law carries (R364, R365). -/
structure LawState where
  i : BitVec 16 := 0
  d : BitVec 16 := 0
  res : BitVec 16 := 0
  ePrev : BitVec 16 := 0
  /-- Histories of a cascade: the input's previous two values, then each section's output's. -/
  hist : List (BitVec 16 × BitVec 16) := []
deriving DecidableEq, Repr, Inhabited

/-- One control channel (R360, R367 to R371, R375). -/
structure StyChannel where
  run : ChanRun := .unused
  law : LawState := {}
  /-- Shadow state and output of the firing in progress (R369). -/
  shadow : Option (LawState × BitVec 16) := none
  sample : BitVec 16 := 0
  ref : BitVec 16 := 0
  /-- The latched sample is fresh; the next update is the first after a gap (R367). -/
  fresh : Bool := false
  kick : Bool := false
  missRun : Nat := 0
  missed : Bool := false
  /-- The engines delivered the output of the firing in progress; the newest output delivered (R369). -/
  ready : Bool := false
  computed : BitVec 16 := 0
  lastPassed : BitVec 16 := 0
  /-- CHANNEL_FAULT holds until the next commit (R372). -/
  stuck : Bool := false
deriving DecidableEq, Repr, Inhabited

/-- One channel group (R358, R368, R370). -/
structure StyGroup where
  seq : BitVec 16 := 0
  /-- A first usable reference version exists (R368). -/
  hasRef : Bool := false
  /-- The version of the reference object considered last (R368). -/
  refVer : Option Nat := none
  /-- The tick of the firing whose guard instant came last, and the frame of each stream latched then (R367). -/
  guardTick : Option Nat := none
  latched : List (Nat × Nat) := []
  /-- The firing whose outputs are being computed, and its registration instant. -/
  firing : Bool := false
  instant : Int := 0
  /-- The next frame carries HOLD for a skipped firing (R373). -/
  skipHold : Bool := false
  /-- The engine-done edge of the firing has passed. -/
  delivered : Bool := false
  /-- The verdict of each rule set that has judged the firing: set, PASS, and the edge from which the verdict latch
  holds it (R418). -/
  judged : List (Nat × Bool × Nat) := []
deriving DecidableEq, Repr, Inhabited

/-- STY_ENG_e.STATE (R375). -/
inductive EngState where
  | off | active | spare | retired
deriving DecidableEq, Repr, Inhabited

/-- One Stylus engine (R359, R372): the assignment it serves, 7 for none. -/
structure StyEngine where
  state : EngState := .off
  serves : Nat := 7
  /-- Edge from which it takes firings (R372). -/
  since : Nat := 0
deriving DecidableEq, Repr, Inhabited

/-! ## Ethernet and Limian -/

/-- The time of a grandmaster as a Sync carried it to the T7, for the relay of R42: the origin timestamp, the correction
in 2^-16 ns, the local time at which it left the upstream port, the rate ratio less one in units of 2^-41, and the interval that the master states. -/
structure SyncSource where
  sec : BitVec 48 := 0
  ns : Nat := 0
  correction : Int := 0
  upstream : Int := 0
  rate : Int := 0
  logInterval : Int := -3
deriving DecidableEq, Repr, Inhabited

/-- What the send stamp of a frame is for (R42, R50): nothing more, the time of a Pdelay_Req, the follow-up of a
Pdelay_Resp, or the Follow_Up of a Sync, with the time that it relays. -/
inductive StampUse where
  | none_
  | pdelayReq
  | pdelayResp (seq : BitVec 16) (requester : BitVec 80)
  | sync (seq : BitVec 16) (source : Option SyncSource)
deriving DecidableEq, Repr, Inhabited

/-- A frame that waits at a port to be sent. -/
structure TxFrame where
  id : Nat := 0
  tc : Nat := 0
  bytes : List Byte := []
  /-- Window of an apply-at frame: opening and closing local time (R64). -/
  window : Option (Int × Int) := none
  queuedEdge : Nat := 0
  stream : Option Nat := none
  stampUse : StampUse := .none_
deriving DecidableEq, Repr, Inhabited

/-- A received frame held in the receive buffer until its consumer takes it (R386). -/
structure RxFrame where
  tc : Nat := 0
  limian : Bool := false
  tsn : Option Nat := none
  /-- The session of a reliable Limian frame. -/
  session : Option Nat := none
  bytes : Nat := 0
  /-- The corrected receive stamp (R50), in local time. -/
  stamp : Int := 0
deriving DecidableEq, Repr, Inhabited

/-- FRER recovery of one stream (R385). -/
structure FrerState where
  tsn : Nat := 0
  /-- The newest accepted sequence number; none after a recovery reset (R385). -/
  last : Option (BitVec 16) := none
  /-- History bits behind it: bit k = number last - k was accepted. -/
  seen : BitVec 32 := 0
  lastEdge : Nat := 0
  /-- Sequence number of the next frame generated (egress). -/
  txSeq : BitVec 16 := 0
deriving DecidableEq, Repr, Inhabited

/-- The flow meter of one stream (R382): tokens in bits, and the edge of their last update. -/
structure Meter where
  tsn : Nat := 0
  tokens : Nat := 0
  edge : Nat := 0
deriving DecidableEq, Repr, Inhabited

/-- One Ethernet port (R376, R404, R491). -/
structure EthPort where
  link : Bool := false
  /-- 0 2.5, 1 5, 2 10 Gbit/s; 3 none. -/
  speed : Nat := 3
  phyMaster : Bool := false
  macsecUp : Bool := false
  preemptVerified : Bool := false
  /-- Verifications of frame preemption that went without a response (R382). -/
  verifyTries : Nat := 0
  /-- The edges of the newest verification that began, and of the newest LLDPDU (R382, R387). -/
  verifyEdge : Nat := 0
  lldpEdge : Nat := 0
  txq : List TxFrame := []
  rxq : List RxFrame := []
  /-- Gate control list: entry in force and the edge at which it began (R383). -/
  gateIndex : Nat := 0
  gateEdge : Nat := 0
  /-- Edges until which a frame is on the medium: any frame, and an express one (R383). -/
  busyUntil : Nat := 0
  expressUntil : Nat := 0
  /-- Credit of each class of the credit-based shaper in 1/160 bit, and the edge of its last update (R382). -/
  credit : List Int := List.replicate 8 0
  creditEdge : Nat := 0
  /-- The corrected stamps of the last frame received and of the last frame sent (R50), in local time. -/
  rxStamp : Int := 0
  txStamp : Int := 0
deriving DecidableEq, Repr, Inhabited

/-- gPTP state of one port (R42, R491). -/
structure GptpPort where
  asCapable : Bool := false
  meanDelay : Nat := 0
  /-- neighborRateRatio less one in units of 2^-41, once measured (R519). -/
  neighborRate : Option Int := none
  exchanges : Nat := 0
  /-- Response origin and local receive stamp of the last Pdelay exchange. -/
  lastPdelay : Option (Int × Int) := none
  pdelaySeq : BitVec 16 := 0
  /-- Local send stamp of the outstanding Pdelay_Req. -/
  pdelaySent : Option Int := none
  /-- A two-step Sync that waits for its Follow_Up. -/
  pendingSync : Option SyncMsg := none
  syncSeq : BitVec 16 := 0
  announceSeq : BitVec 16 := 0
  /-- Sync messages sent since the T7 entered GRANDMASTER (R40). -/
  syncsSent : Nat := 0
  /-- The best Announce heard on the port. -/
  foreign : Option AnnounceMsg := none
  /-- Interval the master states, as log2 of seconds. -/
  logInterval : Int := -3
  /-- Pdelay_Req messages in a row without a response. -/
  lost : Nat := 0
  /-- Edges of the last Sync of the selected master and of the last Announce heard, or from which the port waits for
  one; and of the last Sync, Announce and Pdelay_Req sent (R42). -/
  rxSyncEdge : Nat := 0
  rxAnnounceEdge : Nat := 0
  txSyncEdge : Nat := 0
  txAnnounceEdge : Nat := 0
  txPdelayEdge : Nat := 0
deriving DecidableEq, Repr, Inhabited

/-- A partner table entry (R388). -/
structure Partner where
  chassis : BitVec 48 := 0
  /-- By port: edge at which the TTL last heard there runs out; 0 = not heard there. -/
  expiry : List Nat := [0, 0, 0, 0]
deriving DecidableEq, Repr, Inhabited

/-- ETH_BYPASS_STATUS.STATE (R404). -/
inductive BypassState where
  | closed | armed | open_ | failed
deriving DecidableEq, Repr, Inhabited

/-- What a Limian frame of the T7 says (R399). -/
inductive LimBody where
  | openReply (status : Byte) (sess : Nat) (token : Word) (credits : Nat)
  | regData (tag : Word) (status : Byte) (words : List Word)
  | regAck (tag : Word) (status : Byte) (count : Nat)
  | jobReply (tag : Word) (status : Byte) (job : Word)
  | jobDone (tag : Word) (rec : CompRecord)
  | objData (offset : Nat) (data : List Byte)
  | objReply (tag : Word) (status : Byte)
  | ctxReply (tag : Word) (status : Byte) (ctx : Nat)
  | hintReply (tag : Word) (status : Byte)
  | event (code : Nat) (words : List Word)
  | close
deriving DecidableEq, Repr, Inhabited

/-- A reliable frame that the T7 has sent and that is not yet acknowledged (R396, R397). -/
structure LimFrame where
  seq : Word := 0
  body : LimBody := .close
deriving DecidableEq, Repr, Inhabited

/-- A Limian session (R395 to R398). -/
structure Session where
  open_ : Bool := false
  port : Port := .uplink
  /-- The partition of a partition session; none = device session. -/
  part : Option Nat := none
  subscribe : Bool := false
  token : Word := 0
  /-- SEQ of the next reliable frame of the T7, and the next SEQ expected from the host. -/
  txSeq : Word := 0
  rxNext : Word := 0
  peerAck : Word := 0
  peerCredits : Nat := 0
  /-- Reliable frames not yet acknowledged, oldest first, and how many of them have been sent. -/
  unacked : List LimFrame := []
  sent : Nat := 0
  /-- Deliveries since the last acknowledgement, and the edge of the first of them. -/
  undelivered : Nat := 0
  ackEdge : Nat := 0
  timeouts : Nat := 0
  oldestEdge : Nat := 0
  lastValid : Nat := 0
deriving DecidableEq, Repr, Inhabited

/-! ## Proof -/

/-- The states of Proof, in order of severity and of their codes (R422). -/
inductive ProofState where
  | run | degraded | stopped | safeState
deriving DecidableEq, Repr, Inhabited

/-- A message in Proof's mailbox (R170, R241). -/
inductive ProofMsg where
  | residue (job : Word) (slot : Nat) (index : Nat) (set : Nat) (tag : BitVec 16) (digest : Word)
  | stats (job : Word) (slot : Nat) (index : Nat) (set : Nat) (tag : BitVec 16) (min max sum : Word) (nans : Nat)
  | gateSample (job : Word) (tanh : Bool) (diff : Word)
deriving DecidableEq, Repr, Inhabited

/-- One closed frame of a rule set: whether it disagreed, and the largest ACTION among the rules
that disagreed in it (R416, R421). -/
structure RuleFrame where
  disagreed : Bool := false
  action : Nat := 0
deriving DecidableEq, Repr, Inhabited

/-- Proof's state for one rule set (R416, R421, R430). -/
structure RuleSetState where
  /-- The last M frames, newest first. -/
  window : List RuleFrame := []
  /-- Disagreements on messages within the frame in progress. -/
  open_ : RuleFrame := {}
  /-- Groups held by disagreements within the frame in progress. -/
  openGates : BitVec 16 := 0
  escalated : Bool := false
  action : Nat := 0
  /-- Consecutive frames that do not disagree. -/
  goodRun : Nat := 0
  /-- Frames evaluated since the latest increment of PRF_STOP_SEQ that do not disagree in a row. -/
  goodSinceStop : Nat := 0
  /-- Since the latest firing: the shortest time between WDI rising edges, and the longest hold of launches by a
  backward step that ended, in CTRL edges (R414). -/
  wdiMin : Option Nat := none
  holdEdges : Nat := 0
  /-- Edge at which the evaluation of the latest firing ends (R418). -/
  busyUntil : Nat := 0
deriving DecidableEq, Repr, Inhabited

/-- What ingress and the message path tell Proof about one stream (R320, R414). -/
structure ProofStream where
  frozen : Bool := false
  stale : Bool := false
  /-- MISSING events in the frame in progress of each rule set. -/
  missing : List Nat := List.replicate 16 0
  lastFrame : Option Nat := none
  /-- Of each RAW_TAP rule (set, rule): the raw minimum of 16 sectors of the newest tapped frame, in mm (R415). -/
  taps : List (Nat × Nat × List Nat) := []
deriving DecidableEq, Repr, Inhabited

/-- A conflict box (R417): horizontal distance and bearing of its nearest point, and its expiry. -/
structure ConflictBox where
  track : BitVec 16 := 0
  /-- Low and high corners in the ego frame, FP32. -/
  lo : List Word := []
  hi : List Word := []
  expires : Nat := 0
deriving DecidableEq, Repr, Inhabited

/-- A running or finished test slice of a unit (R426 to R429). -/
structure SliceState where
  unit : Nat := 0
  running : Bool := false
  entry : Nat := 0
  endEdge : Nat := 0
  /-- Next slice of each Registration entry of the unit (R429). -/
  next : List (Nat × Nat) := []
  /-- Slices passed in the current pass. -/
  passed : List Nat := []
  passStart : Nat := 0
  missed : Bool := false
deriving DecidableEq, Repr, Inhabited

/-! ## Burnisher, Plate, security -/

/-- One Plate slice (R437, R497). -/
structure PlateSlice where
  powered : Bool := false
  ready : Bool := false
  retired : List Nat := []
  sparesLeft : Nat := 8
  lastScrub : Nat := 0
  /-- Corrected errors of the last second: bank and edge (R437). -/
  corr : List (Nat × Nat) := []
deriving DecidableEq, Repr, Inhabited

/-- A key slot (R457). -/
structure KeySlot where
  valid : Bool := false
  model : Bool := false
  state : Bool := false
  cak : Bool := false
  key : BitVec 256 := 0
  exports_ : Word := 0
  /-- MACsec connectivity association key name (R458). -/
  ckn : List Word := []
deriving DecidableEq, Repr, Inhabited

/-- One boot-Outline copy of the boot store (R474): its header checks, SEQ, and the Outline's words. -/
structure BootCopy where
  headerGood : Bool := false
  seq : Word := 0
  words : List Word := []
deriving DecidableEq, Repr, Inhabited

/-- The debug lock states of R462. -/
inductive LockState where
  | open_ | customer | locked
deriving DecidableEq, Repr, Inhabited

/-- What is powered and how far bring-up is (R470 to R477). -/
inductive BootStage where
  /-- No power, or RESET_N asserted: the pins are held (R471). -/
  | unpowered | held
  /-- The steps of R475, each named by the step that it waits for. -/
  | plls | fuses | mbist | training | firmware | outline
  /-- The boot Outline runs and jobs-ready is awaited; outline recovery; firmware recovery. -/
  | booted | outlineRecovery | firmwareRecovery
  /-- Jobs-ready has passed. -/
  | ready
deriving DecidableEq, Repr, Inhabited

/-- The kinds of reset of R470, in the order of GLB_STATUS.LAST_RESET. -/
inductive ResetKind where
  | coldPower | coldRegister | warmPin | warmRegister
deriving DecidableEq, Repr, Inhabited

/-- The direction of a GPIO pin (R70, TB_GPIO_DIR). -/
inductive PinDir where
  | input | registered | host
deriving DecidableEq, Repr, Inhabited

/-- One GPIO pin (R68 to R70). -/
structure GpioPin where
  dir : PinDir := .input
  level : Bool := false
  /-- Edge at which the pulse in progress ends. -/
  pulseEnd : Option Nat := none
  fifo : List (Compact × Bool) := []
  /-- Edge of the last filtered edge of the input (R68). -/
  lastEdge : Option Nat := none
deriving DecidableEq, Repr, Inhabited

end Sys2Proof.Machine
end

