-- ==== Sys2Proof/Machine/Flags.lean ====
section
/-!
DEFINITION. Exact numbers, IEEE 754 binary32 with round to nearest even, and the numeric flags that each
operation sets (R137, R138).
-/

namespace Sys2Proof.Machine

open Sys2Proof

/-- The quiet NaN of every NaN result (R138). -/
def f32Nan : Word := 0x7FC00000
def f32Inf (neg : Bool) : Word := if neg then 0xFF800000 else 0x7F800000
def f32Max (neg : Bool) : Word := if neg then 0xFF7FFFFF else 0x7F7FFFFF
def f32Zero (neg : Bool) : Word := if neg then 0x80000000 else 0

/-- Number of significant bits of m. -/
def bitLen (m : Nat) : Nat := if m = 0 then 0 else m.log2 + 1

/-- m x 2^e rounded to nearest, ties to even, to `p` bits with the last bit at 2^emin or above. -/
def roundNum (p : Nat) (emin : Int) (m : Nat) (e : Int) : Nat × Int :=
  let lsb := max (e + bitLen m - p) emin
  if lsb ≤ e then (m, e)
  else
    let d := 2 ^ (lsb - e).toNat
    let q := m / d
    let r := m % d
    ((if 2 * r < d then q else if d < 2 * r then q + 1 else if q % 2 = 0 then q else q + 1), lsb)

/-- m x 2^e as an integer number of units 2^u, exact when e is at least u. -/
def scaleTo (m : Nat) (e u : Int) : Nat :=
  if u ≤ e then m * 2 ^ (e - u).toNat else m / 2 ^ (u - e).toNat

/-- floor(log2) of a non-zero m x 2^e (R127). -/
def expOf (m : Nat) (e : Int) : Int := e + bitLen m - 1

/-- The FP32 word nearest to a value, and OVERFLOW when a finite value becomes infinite (R137, R138). -/
def toF32 (x : Num) : Word × NumFlags :=
  match x with
  | .nan => (f32Nan, {})
  | .inf n => (f32Inf n, {})
  | .fin n m e =>
    let r := roundNum 24 (-149) m e
    if r.1 = 0 then (f32Zero n, {})
    else
      let x := expOf r.1 r.2
      if 127 < x then (f32Inf n, { overflow := true })
      else
        let s := if n then 2 ^ 31 else 0
        if x < -126 then (wd (s + scaleTo r.1 r.2 (-149)), {})
        else (wd (s + (x + 127).toNat * 2 ^ 23 + (scaleTo r.1 r.2 (x - 23) - 2 ^ 23)), {})

/-- The value of an FP32 word. -/
def ofF32 (w : Word) : Num :=
  let n := bit w 31
  let ex := fld w 30 23
  let mt := fld w 22 0
  if ex = 255 then (if mt = 0 then .inf n else .nan)
  else if ex = 0 then .fin n mt (-149)
  else .fin n (mt + 2 ^ 23) ((ex : Int) - 150)

/-- The signed integer m of a value in units 2^u, for an exact sum. -/
def intAt (n : Bool) (m : Nat) (e u : Int) : Int :=
  if n then -(scaleTo m e u : Int) else (scaleTo m e u : Int)

/-- Exact sum. An exact zero is +0 unless both are −0 (IEEE 754). -/
def numAdd (a b : Num) : Num :=
  match a, b with
  | .nan, _ => .nan
  | _, .nan => .nan
  | .inf x, .inf y => if x = y then .inf x else .nan
  | .inf x, _ => .inf x
  | _, .inf y => .inf y
  | .fin x m e, .fin y k f =>
    let u := min e f
    let t := intAt x m e u + intAt y k f u
    .fin (if t = 0 then x && y else decide (t < 0)) t.natAbs u

/-- Exact product. -/
def numMul (a b : Num) : Num :=
  match a, b with
  | .nan, _ => .nan
  | _, .nan => .nan
  | .inf x, .inf y => .inf (x != y)
  | .inf x, .fin y k _ => if k = 0 then .nan else .inf (x != y)
  | .fin x m _, .inf y => if m = 0 then .nan else .inf (x != y)
  | .fin x m e, .fin y k f => .fin (x != y) (m * k) (e + f)

/-- Sign change. -/
def numNeg : Num → Num
  | .nan => .nan
  | .inf n => .inf !n
  | .fin n m e => .fin (!n) m e

/-- INVALID is set when a NaN comes from operands that are not NaN (R137). -/
def withInvalid (args : List Num) (r : Num) : Word × NumFlags :=
  let w := toF32 r
  if r = .nan ∧ !args.contains .nan then (w.1, { w.2 with invalid := true }) else w

/-- FP32 addition, subtraction, multiplication and fused multiply-add (R138). -/
def fAdd (a b : Word) : Word × NumFlags :=
  withInvalid [ofF32 a, ofF32 b] (numAdd (ofF32 a) (ofF32 b))
def fSub (a b : Word) : Word × NumFlags :=
  withInvalid [ofF32 a, ofF32 b] (numAdd (ofF32 a) (numNeg (ofF32 b)))
def fMul (a b : Word) : Word × NumFlags :=
  withInvalid [ofF32 a, ofF32 b] (numMul (ofF32 a) (ofF32 b))
def fFma (a b c : Word) : Word × NumFlags :=
  withInvalid [ofF32 a, ofF32 b, ofF32 c] (numAdd (numMul (ofF32 a) (ofF32 b)) (ofF32 c))

/-- A value as a number that orders like it, −0 below +0; NaN has no place (R138). -/
def f32Key (w : Word) : Int := if bit w 31 then -((fld w 30 0 : Int)) - 1 else fld w 30 0
def f32IsNan (w : Word) : Bool := ofF32 w = .nan

/-- minimum and maximum of IEEE 754-2019 clause 9.6: a NaN gives the quiet NaN, −0 orders below +0
(R138). -/
def fMin (a b : Word) : Word :=
  if f32IsNan a || f32IsNan b then f32Nan else if f32Key a ≤ f32Key b then a else b
def fMax (a b : Word) : Word :=
  if f32IsNan a || f32IsNan b then f32Nan else if f32Key a ≤ f32Key b then b else a

/-- a < b as numbers; false with a NaN, and for −0 and +0. -/
def fLt (a b : Word) : Bool :=
  match numAdd (ofF32 a) (numNeg (ofF32 b)) with
  | .fin n m _ => n && m != 0
  | .inf n => n
  | .nan => !(f32IsNan a) && !(f32IsNan b) && bit a 31 && !(bit b 31)

/-- |a|. -/
def fAbs (a : Word) : Word := a &&& 0x7FFFFFFF

/-- An integer as FP32, rounded once. -/
def fOfInt (i : Int) : Word := (toF32 (.fin (decide (i < 0)) i.natAbs 0)).1

/-- floor of an FP32 value; 0 for a NaN or an infinity. -/
def fFloor (w : Word) : Int :=
  match ofF32 w with
  | .fin n m e => (intAt n (if 0 ≤ e then m * 2 ^ e.toNat else m) 0 0).fdiv
      (if 0 ≤ e then 1 else 2 ^ (-e).toNat)
  | _ => 0

/-- The OR of the flags of two records (R137, R171). -/
def NumFlags.or (a b : NumFlags) : NumFlags where
  kZero := a.kZero || b.kZero
  invalid := a.invalid || b.invalid
  overflow := a.overflow || b.overflow
  convSat := a.convSat || b.convSat
  accSat := a.accSat || b.accSat
  lateWait := a.lateWait || b.lateWait
  drypoint := a.drypoint || b.drypoint

end Sys2Proof.Machine
end

