-- ==== Sys2Proof/Machine/Mem.lean ====
section
/-!
DEFINITION. Memory operations: bytes, words and ranges over the canonical sparse form (R253, R466: bytes
never written read 0).
-/

namespace Sys2Proof.Machine

open Sys2Proof

/-- The canonical form: addresses strictly rising and no listed zero byte. -/
def Memory.wf : Memory → Bool
  | [] => true
  | [(_, b)] => b != 0
  | (a, b) :: (a', b') :: r => b != 0 && (decide (a < a') && Memory.wf ((a', b') :: r))

/-- Read one byte; an unlisted byte reads 0. -/
def Memory.read (m : Memory) (a : Nat) : Byte := (m.lookup a).getD 0

/-- Write one byte, keeping the canonical form. -/
def Memory.write : Memory → Nat → Byte → Memory
  | [], a, b => if b = 0 then [] else [(a, b)]
  | (x, y) :: r, a, b =>
    if a < x then (if b = 0 then (x, y) :: r else (a, b) :: (x, y) :: r)
    else if a = x then (if b = 0 then r else (a, b) :: r)
    else (x, y) :: Memory.write r a b

/-- Write bytes at rising addresses. -/
def Memory.writeBytes : Memory → Nat → List Byte → Memory
  | m, _, [] => m
  | m, a, b :: bs => Memory.writeBytes (Memory.write m a b) (a + 1) bs

/-- Read `n` bytes at rising addresses. -/
def Memory.readBytes (m : Memory) (a n : Nat) : List Byte :=
  (List.range n).map fun i => Memory.read m (a + i)

/-- Read a little-endian word (R7). -/
def Memory.readWord (m : Memory) (a : Nat) : Word := wd (leNat (Memory.readBytes m a 4))

/-- Read `n` little-endian words. -/
def Memory.readWords (m : Memory) (a n : Nat) : List Word :=
  (List.range n).map fun i => Memory.readWord m (a + 4 * i)

/-- The bytes below a length; the rest read 0. -/
def Memory.truncate (m : Memory) (n : Nat) : Memory := m.filter fun c => c.1 < n

/-- Clear the bytes of a range. -/
def Memory.clear (m : Memory) (a n : Nat) : Memory := m.filter fun c => c.1 < a || a + n ≤ c.1

/-- A memory that holds a list of bytes from address 0. -/
def Memory.ofBytes (bs : List Byte) : Memory := Memory.writeBytes [] 0 bs

end Sys2Proof.Machine
end

