-- ==== Sys2Proof/Machine/Operands.lean ====
section
/-!
DEFINITION. The operand forms: element formats, block scales, tensor layouts and output conversion
(R124 to R126, R135, R136).
-/

namespace Sys2Proof.Machine

open Sys2Proof

/-- A float of `eb` exponent bits, `mb` mantissa bits and a bias, without infinities or NaN. -/
def miniFloat (eb mb bias v : Nat) : Num :=
  let n := (v / 2 ^ (eb + mb)) % 2 = 1
  let ex := (v / 2 ^ mb) % 2 ^ eb
  let mt := v % 2 ^ mb
  if ex = 0 then .fin n mt (1 - (bias : Int) - mb)
  else .fin n (mt + 2 ^ mb) ((ex : Int) - bias - mb)

/-- Bits of an element (R124). -/
def fmtBits (f : Nat) : Nat :=
  match f with
  | 1 => 4 | 7 => 6 | 8 => 6 | 9 => 4 | 10 => 16 | 11 => 16 | 12 => 32 | 13 => 32 | _ => 8

/-- A block-scaled format, codes 0x4 to 0x9 (R124). -/
def fmtMx (f : Nat) : Bool := decide (4 ≤ f) && decide (f ≤ 9)
/-- INT8 and INT4. -/
def fmtInt (f : Nat) : Bool := f = 0 || f = 1

/-- The value of the raw bits of an element, without its block scale (R124). -/
def elemValue (f v : Nat) : Num :=
  let int (n : Nat) (e : Int) : Num := let x := sgn v n; .fin (decide (x < 0)) x.natAbs e
  match f with
  | 0 => int 8 0
  | 1 => int 4 0
  | 2 => if v % 128 = 127 then .nan else miniFloat 4 3 7 v
  | 3 => if v % 128 = 124 then .inf (decide (128 ≤ v)) else if 124 < v % 128 then .nan
         else miniFloat 5 2 15 v
  | 4 => int 8 (-6)
  | 5 => if v % 128 = 127 then .nan else miniFloat 4 3 7 v
  | 6 => if v % 128 = 124 then .inf (decide (128 ≤ v)) else if 124 < v % 128 then .nan
         else miniFloat 5 2 15 v
  | 7 => miniFloat 2 3 1 v
  | 8 => miniFloat 3 2 3 v
  | 9 => miniFloat 2 1 1 v
  | 10 => ofF32 (wd (v * 65536))
  | 11 => if (v / 1024) % 32 = 31 then (if v % 1024 = 0 then .inf (decide (32768 ≤ v)) else .nan)
          else miniFloat 5 10 15 v
  | 12 => ofF32 (wd v)
  | _ => int 32 0

/-- A value times a shared scale E8M0; 0xFF is NaN (R126). -/
def scaled (s : Nat) (x : Num) : Num :=
  if s = 255 then .nan else
  match x with
  | .fin n m e => .fin n m (e + s - 127)
  | y => y

/-- Bytes of one row of `k` elements, outside the block-scaled formats; INT4 rows start on a byte
boundary (R126). -/
def rowBytes (f k : Nat) : Nat := (k * fmtBits f + 7) / 8

/-- Blocks of a row of an MX tensor, and bytes of a block. -/
def rowBlocks (k : Nat) : Nat := (k + 31) / 32
def blockBytes (f : Nat) : Nat := 32 * fmtBits f / 8

/-- The offset of the scale plane of an MX tensor of `rows` rows (R126). -/
def scalePlane (f rows k : Nat) : Nat := (rows * rowBlocks k * blockBytes f + 63) / 64 * 64

/-- Bytes that a tensor of `rows` rows of `k` elements touches. -/
def tensorBytes (f rows k : Nat) : Nat :=
  if rows = 0 ∨ k = 0 then 0
  else if fmtMx f then scalePlane f rows k + rows * rowBlocks k
  else rows * rowBytes f k

/-- `n` bits at a bit position of a memory, little-endian. -/
def readBits (m : Memory) (byte bitPos n : Nat) : Nat :=
  leNat (Memory.readBytes m (byte + bitPos / 8) 5) / 2 ^ (bitPos % 8) % 2 ^ n

/-- Raw bits of element `j` of row `i` of a tensor at `off`. -/
def rawElem (m : Memory) (off f k i j : Nat) : Nat :=
  if fmtMx f then
    readBits m (off + (i * rowBlocks k + j / 32) * blockBytes f) ((j % 32) * fmtBits f) (fmtBits f)
  else readBits m (off + i * rowBytes f k) (j * fmtBits f) (fmtBits f)

/-- Element `j` of row `i` of a tensor of `rows` rows of `k` elements at byte offset `off`, any block
scale applied (R124, R126). -/
def readElem (m : Memory) (off f rows k i j : Nat) : Num :=
  let x := elemValue f (rawElem m off f k i j)
  if fmtMx f then
    scaled (Memory.read m (off + scalePlane f rows k + i * rowBlocks k + j / 32)).toNat x
  else x

/-- A row of elements. -/
def readRow (m : Memory) (off f rows k i : Nat) : List Num :=
  (List.range k).map fun j => readElem m off f rows k i j

/-- The flags of a list of results. -/
def allFlags {α : Type} (l : List (α × NumFlags)) : NumFlags := l.foldl (fun a x => a.or x.2) {}

/-- A row of elements in FP32 with the flags of the conversion: formats up to FP32 convert exactly, INT32 rounds once
(R165), and a scaled element can pass the FP32 range (R137). -/
def readRowPairs (m : Memory) (off f rows k i : Nat) : List (Word × NumFlags) := (readRow m off f rows k i).map toF32

/-- A row of elements in FP32, and the flags of reading it. -/
def readRowF32 (m : Memory) (off f rows k i : Nat) : List Word := (readRowPairs m off f rows k i).map (·.1)
def rowFlags (m : Memory) (off f rows k i : Nat) : NumFlags := allFlags (readRowPairs m off f rows k i)

/-! ## Output conversion (R135, R136) -/

/-- Round a value to an integer, ties to even. -/
def numToInt (x : Num) : Int :=
  match x with
  | .fin n m e => let r := roundNum (bitLen m + 1000) 0 m e; intAt n r.1 r.2 0
  | _ => 0

/-- A finite value into a float format of `p` significant bits, last bit at 2^emin, largest exponent
emax and largest finite significand lim x 2^(emax+1-p): the value rounded, or none on overflow. -/
def fitFloat (p : Nat) (emin emax : Int) (lim m : Nat) (e : Int) : Option (Nat × Int) :=
  let r := roundNum p emin m e
  if r.1 = 0 then some r
  else if emax < expOf r.1 r.2 then none
  else if expOf r.1 r.2 = emax ∧ lim < scaleTo r.1 r.2 (emax + 1 - p) then none
  else some r

/-- The bits of a representable magnitude in a float format of `mb` mantissa bits and a bias. -/
def packFloat (mb bias : Nat) (m : Nat) (e : Int) : Nat :=
  if m = 0 then 0
  else
    let x := expOf m e
    if x < 1 - (bias : Int) then scaleTo m e (1 - (bias : Int) - mb)
    else (x + bias).toNat * 2 ^ mb + (scaleTo m e (x - mb) - 2 ^ mb)

/-- mantissa bits, bias, exponent bits, largest exponent and largest significand of a float format. -/
def floatShape (f : Nat) : Nat × Nat × Nat × Int × Nat :=
  match f with
  | 2 => (3, 7, 4, 8, 14)
  | 5 => (3, 7, 4, 8, 14)
  | 3 => (2, 15, 5, 15, 7)
  | 6 => (2, 15, 5, 15, 7)
  | 7 => (3, 1, 2, 2, 15)
  | 8 => (2, 3, 3, 4, 7)
  | 9 => (1, 1, 2, 2, 3)
  | 10 => (7, 127, 8, 127, 255)
  | 11 => (10, 15, 5, 15, 2047)
  | _ => (23, 127, 8, 127, 2 ^ 24 - 1)

/-- The largest finite magnitude of a float format, in bits. -/
def floatMaxBits (f : Nat) : Nat :=
  let s := floatShape f
  packFloat s.1 s.2.1 s.2.2.2.2 (s.2.2.2.1 - s.1)

/-- A finite value converted to a float format: bits and whether it overflowed (then the largest finite
magnitude). -/
def toFloatBits (f : Nat) (n : Bool) (m : Nat) (e : Int) : Nat × Bool :=
  let s := floatShape f
  let sign := if n then 2 ^ (s.1 + s.2.2.1) else 0
  match fitFloat (s.1 + 1) (1 - (s.2.1 : Int) - s.1) s.2.2.2.1 s.2.2.2.2 m e with
  | some r => (sign + packFloat s.1 s.2.1 r.1 r.2, false)
  | none => (sign + floatMaxBits f, true)

/-- The limits of an integer format. -/
def intLimits (f : Nat) : Int × Int :=
  if f = 0 then (-128, 127) else if f = 1 then (-8, 7) else (-2147483648, 2147483647)

/-- One FP32 result converted to a format without a block scale, with its flags (R135, R137, R138). -/
def convertElem (f : Nat) (satFinite : Bool) (w : Word) : Nat × NumFlags :=
  let x := ofF32 w
  match f with
  | 12 => (w.toNat, {})
  | 0 | 1 | 13 =>
    let l := intLimits f
    let n := 2 ^ fmtBits f
    let put (i : Int) : Nat := (i % n).toNat
    match x with
    | .nan => (0, { invalid := true })
    | .inf s => (put (if s then l.1 else l.2), { convSat := true })
    | y =>
      let i := numToInt y
      let c := clampInt l.1 l.2 i
      (put c, { convSat := decide (c ≠ i) })
  | 2 =>
    match x with
    | .nan => (0x7F, {})
    | .inf s => ((if s then 128 else 0) + floatMaxBits 2, { convSat := true })
    | .fin n m e => let r := toFloatBits 2 n m e; (r.1, { convSat := r.2 })
  | _ =>
    let s := floatShape f
    let sign (n : Bool) : Nat := if n then 2 ^ (s.1 + s.2.2.1) else 0
    let infBits : Nat := (2 ^ s.2.2.1 - 1) * 2 ^ s.1
    match x with
    | .nan => (infBits + 2 ^ (s.1 - 1), {})
    | .inf n => if satFinite then (sign n + floatMaxBits f, { convSat := true })
                else (sign n + infBits, {})
    | .fin n m e =>
      let r := toFloatBits f n m e
      if r.2 then
        if satFinite then (r.1, { convSat := true }) else (sign n + infBits, { overflow := true })
      else (r.1, {})

/-- emax of an MX element format (R136). -/
def mxEmax (f : Nat) : Int :=
  match f with
  | 5 => 8 | 6 => 15 | 7 => 2 | 8 => 4 | 9 => 2 | _ => 0

/-- One element of an MX block at scale X (R135, R136). -/
def mxElem (f : Nat) (X : Nat) (w : Word) : Nat × NumFlags :=
  match ofF32 w with
  | .fin n m e =>
    let e' := e - X + 127
    if f = 4 then
      let i := numToInt (.fin n m (e' + 6))
      let c := clampInt (-127) 127 i
      ((c % 256).toNat, { convSat := decide (c ≠ i) })
    else let r := toFloatBits f n m e'; (r.1, { convSat := r.2 })
  | _ => (0, {})

/-- An MX block of up to 32 results: the scale byte, the raw elements, the flags (R136). DESIGN CHOICE: a block that
takes scale 0xFF for an infinity sets no flag; R137 does not say (log 12). -/
def mxBlock (f : Nat) (ws : List Word) : Nat × List Nat × NumFlags :=
  if ws.any fun w => match ofF32 w with
    | .fin _ _ _ => false
    | _ => true
  then (255, ws.map fun _ => 0, {})
  else
    let es := ws.filterMap fun w => match ofF32 w with
      | .fin _ m e => if m = 0 then none else some (expOf m e)
      | _ => none
    match es with
    | [] => (127, ws.map fun w => (mxElem f 127 w).1, {})
    | x :: r =>
      let X := (clampInt 0 254 (r.foldl max x - mxEmax f + 127)).toNat
      let els := ws.map (mxElem f X)
      (X, els.map (·.1), els.foldl (fun a b =>
        { a with convSat := a.convSat || b.2.convSat }) {})

/-- Raw elements of `n` bits packed little-endian into bytes; a pad nibble is 0 (R126). -/
def packBits (n : Nat) (vs : List Nat) : List Byte :=
  natBytes ((vs.length * n + 7) / 8) (vs.foldr (fun v a => v + a * 2 ^ n) 0)

/-- Split a list into groups of `n` (n > 0); `fuel` bounds the number of groups. -/
def chunksOf {α : Type} (n : Nat) : Nat → List α → List (List α)
  | 0, _ => []
  | _, [] => []
  | fuel + 1, l => l.take n :: chunksOf n fuel (l.drop n)

/-- Rows of FP32 results written at `off` as a tensor of a format, and the flags (R126, R135, R136). -/
def writeRows (m : Memory) (off f k : Nat) (satFinite : Bool) (rows : List (List Word)) :
    Memory × NumFlags :=
  if fmtMx f then
    let blocks := rows.flatMap fun r => (chunksOf 32 (rowBlocks k) r).map (mxBlock f)
    let elems := blocks.flatMap fun b =>
      packBits (fmtBits f) (b.2.1 ++ List.replicate (32 - b.2.1.length) 0)
    let m1 := Memory.writeBytes m off elems
    (Memory.writeBytes m1 (off + scalePlane f rows.length k) (blocks.map fun b => BitVec.ofNat 8 b.1),
     blocks.foldl (fun a b => a.or b.2.2) {})
  else
    let conv := rows.map fun r => r.map (convertElem f satFinite)
    (Memory.writeBytes m off (conv.flatMap fun r => packBits (fmtBits f) (r.map (·.1))),
     allFlags conv.flatten)

/-- Rows of INT32 results written exactly (R167). -/
def writeInts (m : Memory) (off : Nat) (rows : List (List Int)) : Memory :=
  Memory.writeBytes m off (rows.flatten.flatMap fun i => natBytes 4 (i % 4294967296).toNat)

end Sys2Proof.Machine
end

