-- ==== Sys2Proof/Machine/Precise.lean ====
section
/-!
DEFINITION. The precise functions of R139: the exact value to about 2^-150, the bound around it, and the free value of
the part held to that bound.
-/

namespace Sys2Proof.Machine

open Sys2Proof

/-- Codes of the precise functions, those of the epilogue (R167); 0x0D is the logarithm. -/
def fnExp : Nat := 8
def fnLogistic : Nat := 9
def fnTanh : Nat := 10
def fnRecip : Nat := 11
def fnRsqrt : Nat := 12
def fnLog : Nat := 13

/-! ## Exact values in fixed point: integers in units of 2^-160 -/

/-- One in fixed point. -/
def fxOne : Nat := 2 ^ 160

/-- The sum of z^(2k+1) / (2k+1) over `n` terms: the inverse hyperbolic tangent of a fixed-point z of at most 1/3. -/
def fxAtanh (z : Nat) (n : Nat) : Nat :=
  let zz := z * z / fxOne
  ((List.range n).foldl (fun (acc : Nat × Nat) k => (acc.1 + acc.2 / (2 * k + 1), acc.2 * zz / fxOne)) (0, z)).1

/-- ln 2. -/
def fxLn2 : Nat := 2 * fxAtanh (fxOne / 3) 64

/-- exp r for 0 <= r < 1, by its series. -/
def fxExp (r : Nat) : Nat :=
  ((List.range 48).foldl (fun (acc : Nat × Nat) k => (acc.1 + acc.2, acc.2 * r / fxOne / (k + 1))) (0, fxOne)).1

/-- A finite FP32 value in fixed point, exact. -/
def fxOf (neg : Bool) (m : Nat) (e : Int) : Int := intAt neg m e (-160)

/-- exp x; below x = -300, where nothing depends on it, that of -300. -/
def realExp (x0 : Int) : Num :=
  let x := max x0 (-(300 * fxOne : Int))
  let n := x.fdiv fxLn2
  .fin false (fxExp (x - n * fxLn2).toNat) (n - 160)

/-- exp (-x) in fixed point, for x >= 0. -/
def fxExpNeg (x : Int) : Nat := match realExp (-x) with
  | .fin _ m e => scaleTo m e (-160)
  | _ => 0

/-- ln (m x 2^e) for m > 0. -/
def realLog (m : Nat) (e : Int) : Num :=
  let x := expOf m e
  let t := scaleTo m e (x - 160)
  let l : Int := 2 * fxAtanh ((t - fxOne) * fxOne / (t + fxOne)) 64 + x * fxLn2
  .fin (decide (l < 0)) l.natAbs (-160)

/-- The exact result of a function at a finite value where it has one (R139); none at an edge. -/
def realFn (fn : Nat) (neg : Bool) (m : Nat) (e : Int) : Option Num :=
  let x := fxOf neg m e
  let t := fxExpNeg x.natAbs
  let u := fxExpNeg (2 * x.natAbs)
  if fn = fnExp then some (realExp x)
  else if fn = fnLogistic then
    some (.fin false ((if neg then t else fxOne) * fxOne / (fxOne + t)) (-160))
  else if fn = fnTanh then some (.fin neg ((fxOne - u) * fxOne / (fxOne + u)) (-160))
  else if m = 0 then none
  else if fn = fnRecip then some (.fin neg (2 ^ 400 / m) (-400 - e))
  else if neg then none
  else if fn = fnRsqrt then
    let f : Nat := (e % 2).toNat
    some (.fin false (Nat.sqrt (2 ^ 600 / (m * 2 ^ f))) (-300 - (e - f) / 2))
  else some (realLog m e)

/-! ## The bounds of R139 -/

/-- |a| is at most |b|, of finite values. -/
def absLe (a b : Num) : Bool := match a, b with
  | .fin _ m e, .fin _ k f =>
    let u := min e f
    decide (scaleTo m e u ≤ scaleTo k f u)
  | _, _ => false

/-- 2^k. -/
def pow2 (k : Int) : Num := .fin false 1 k

/-- An FP32 result lies within the bound of a function around the exact value `y` at a value of magnitude m x 2^e: an
absolute bound, a relative one, or that of R139 for results below the normal range. -/
def withinBound (fn m : Nat) (e : Int) (y : Num) (w : Word) : Bool :=
  let d := numAdd (ofF32 w) (numNeg y)
  let yNeg := match y with
    | .fin n _ _ => n
    | _ => false
  let absolute := fn = fnLogistic || fn = fnTanh ||
    (fn = fnLog && absLe (pow2 (-1)) (.fin false m e) && absLe (.fin false m e) (pow2 1))
  if fn = fnLogistic && bit w 31 then false
  else if absolute then absLe d (pow2 (-20)) && (fn = fnLog || absLe (ofF32 w) (pow2 0))
  else if absLe (pow2 (-126)) y then absLe d (numMul y (pow2 (-20)))
  else absLe d (pow2 (-146)) && (decide (fld w 30 0 = 0) || bit w 31 == yNeg)

/-- The free value of a function that R139 bounds: the part's own value where it is within the bound, and the nearest
FP32 number to the exact value where the free constant is not (log 9). -/
def heldTo (fn : Nat) (x : Word) (m : Nat) (e : Int) (y : Num) : Word :=
  let free := Config.preciseFn fn x
  if withinBound fn m e y free then free else (toF32 y).1

/-- Whether exp of a value lies above the FP32 range: beyond 88.72284 (R139). -/
def expOverflows (x : Word) : Bool := fLt 0x42B17217 x

/-- OVERFLOW of a result that is infinite from a finite operand (R137). -/
def finiteFlags (w : Word) : NumFlags := { overflow := decide (w &&& 0x7FFFFFFF = 0x7F800000) }

/-- A precise function (R139): its edge results, and elsewhere a value within its bound that the part fixes. A
reciprocal beyond the FP32 range, for which no bound holds, is free (log 9). -/
def precise (fn : Nat) (x : Word) : Word × NumFlags :=
  match ofF32 x with
  | .nan => (f32Nan, {})
  | .inf n =>
    if fn = fnExp then (if n then 0 else f32Inf false, {})
    else if fn = fnLogistic then (if n then 0 else 0x3F800000, {})
    else if fn = fnTanh then (if n then 0xBF800000 else 0x3F800000, {})
    else if fn = fnRecip then (f32Zero n, {})
    else if n then (f32Nan, { invalid := true })
    else if fn = fnRsqrt then (0, {})
    else (f32Inf false, {})
  | .fin n m e =>
    if fn = fnExp ∧ expOverflows x then (f32Inf false, { overflow := true })
    else match realFn fn n m e with
      | some y =>
        if fn = fnRecip ∧ (toF32 y).2.overflow then
          let w := Config.preciseFn fn x
          (w, finiteFlags w)
        else (heldTo fn x m e y, {})
      | none =>
        if fn = fnRecip ∨ (fn = fnRsqrt ∧ m = 0) then (f32Inf n, {})
        else if m = 0 then (f32Inf true, {})
        else (f32Nan, { invalid := true })

end Sys2Proof.Machine
end

