-- ==== Sys2Proof/Machine/Arith.lean ====
section
/-!
DEFINITION. The arithmetic of the units over rows of operands: matrix products with their windows, lane
reductions, PWL tables and normalisation (R117 to R119, R127 to R131, R138, R139).
-/

namespace Sys2Proof.Machine

open Sys2Proof

/-- The largest e(x) of the non-zero finite values of a list (R127). -/
def maxExp (l : List Num) : Option Int :=
  l.foldl (fun acc x => match x with
    | .fin _ m e => if m = 0 then acc else
        match acc with
        | none => some (expOf m e)
        | some a => some (max a (expOf m e))
    | _ => acc) none

/-- A product truncated toward zero to a multiple of 2^u, as a number of such units (R128). -/
def windowTerm (u : Int) (x : Num) : Int :=
  match x with
  | .fin n m e => if n then -(scaleTo m e u : Int) else scaleTo m e u
  | _ => 0

/-- The window of a block in units of 2^(E - 28), with E; none where it holds an exact zero (R127, R128). -/
def windowOf (a w : List Num) : Option (Int × Int) :=
  match maxExp a, maxExp w with
  | some x, some y => some (((List.zipWith numMul a w).map (windowTerm (x + y - 28))).foldl (· + ·) 0, x + y)
  | _, _ => none

/-- The special tag of a block of products (R129): none, or the value that replaces the window. -/
def blockTag (ps : List Num) : Option Num :=
  if ps.contains .nan then some .nan
  else if ps.contains (.inf false) then (if ps.contains (.inf true) then some .nan else some (.inf false))
  else if ps.contains (.inf true) then some (.inf true) else none

/-- One alignment block of one column: the window of R127 and R128, or its tag, converted to FP32
(R130). DESIGN CHOICE: a block with a NaN operand sets no INVALID, whatever its other products are (log 12). -/
def blockValue (a w : List Num) : Word × NumFlags :=
  let ps := List.zipWith numMul a w
  let nanIn := a.contains .nan || w.contains .nan
  match blockTag ps with
  | some .nan => (f32Nan, { invalid := !nanIn })
  | some t => toF32 t
  | none =>
    match windowOf a w with
    | some t => if t.1 = 0 then (0, {}) else toF32 (.fin (decide (t.1 < 0)) t.1.natAbs (t.2 - 28))
    | none => (0, {})

/-- One output of a floating or block-scaled product: blocks of 32 added in order (R127, R130). -/
def dotFloat (a w : List Num) : Word × NumFlags :=
  let n := rowBlocks (max a.length w.length)
  (List.zip (chunksOf 32 n a) (chunksOf 32 n w)).foldl (fun acc b =>
    let v := blockValue b.1 b.2
    let r := fAdd acc.1 v.1
    (r.1, (acc.2.or v.2).or r.2)) (0, {})

/-- One output of an INT8 or INT4 product: exact K steps of 64 added into INT32 with sticky saturation
(R131). -/
def dotInt (a w : List Int) : Int × Bool :=
  let n := (max a.length w.length + 63) / 64
  (List.zip (chunksOf 64 n a) (chunksOf 64 n w)).foldl (fun acc b =>
    if acc.2 then acc
    else
      let t := acc.1 + (List.zipWith (· * ·) b.1 b.2).foldl (· + ·) 0
      let c := clampInt (-2147483648) 2147483647 t
      (c, decide (c ≠ t))) (0, false)

/-! ## Lane reductions (R119) -/

/-- One level of the tree: adjacent pairs are combined. -/
def treeLevel {α : Type} (f : α → α → α) : List α → List α
  | x :: y :: r => f x y :: treeLevel f r
  | l => l

/-- The lanes in the order in which the fixed tree takes them: the manual does not state the pairing
(log 8). -/
def laneOrder {α : Type} [Inhabited α] (l : List α) : List α := orderBy (Config.treeOrder l.length) l

/-- Addition that carries flags. -/
def addF (a b : Word × NumFlags) : Word × NumFlags :=
  let r := fAdd a.1 b.1
  (r.1, (a.2.or b.2).or r.2)

/-- The sum of a row: each lane adds its elements in order, then the 64 lanes are added in the fixed tree
of 6 levels (R119). -/
def laneSum (xs : List Word) : Word × NumFlags :=
  let groups := chunksOf 64 ((xs.length + 63) / 64) xs
  let lanes := (List.range 64).map fun i =>
    (groups.filterMap fun g => g[i]?).foldl (fun acc x => match acc with
      | none => some (x, ({} : NumFlags))
      | some a => some (addF a (x, {}))) none
  let vals := lanes.map fun l => l.getD (0, {})
  if xs.isEmpty then (0, {})
  else
    let t := Nat.repeat (treeLevel addF) 6 (laneOrder vals)
    t.headD (0, {})

/-! ## PWL tables (R118) -/

/-- The segment that an input uses, counting from 0: the highest whose breakpoint it reaches. -/
def PwlTable.segment (t : PwlTable) (x : Word) : Nat :=
  (t.segments.filter fun s => !fLt x s.1).length - 1

/-- A PWL table at an input (R118, R138). -/
def PwlTable.eval (t : PwlTable) (x : Word) : Word × NumFlags :=
  let at_ (k : Nat) (x : Word) : Word × NumFlags :=
    let s := t.segments.getD k (0, 0, 0)
    if s.2.1 = 0 ∨ s.2.1 = 0x80000000 then (if f32IsNan s.2.2 then f32Nan else s.2.2, {}) else fFma s.2.1 x s.2.2
  let first := (t.segments.headD (0, 0, 0)).1
  if f32IsNan x then (f32Nan, {})
  else if t.clamp ∧ fLt x first then at_ 0 first
  else if t.clamp ∧ !fLt x t.tableEnd then at_ (t.segments.length - 1) t.tableEnd
  else at_ (t.segment x) x

/-- A PWL table object, or none where R118 fails the load: word 0, segments, END. -/
def parsePwl (m : Memory) (off : Nat) : Option PwlTable :=
  let w0 := Memory.readWord m off
  let n := fld w0 6 0
  let clamp := bit w0 8
  let seg (s : Nat) : Word × Word × Word :=
    (Memory.readWord m (off + 4 + 12 * s), Memory.readWord m (off + 8 + 12 * s),
     Memory.readWord m (off + 12 + 12 * s))
  let e := Memory.readWord m (off + 4 + 12 * n)
  let segs := (List.range n).map seg
  let rising := (List.zip segs (segs.drop 1)).all fun p => fLt p.1.1 p.2.1
  let last := (segs.getLastD (0, 0, 0)).1
  if n = 0 ∨ 64 < n ∨ bit w0 7 ∨ fld w0 31 9 ≠ 0 ∨ !rising then none
  else if clamp ∧ !fLt last e then none
  else if !clamp ∧ e ≠ 0 then none
  else some { clamp := clamp, segments := segs, tableEnd := e }

/-! ## Normalisation and softmax (R117, R139) -/

/-- The values of a list of results, and the OR of their flags. -/
def pairsF (r : List (Word × NumFlags)) : List Word × NumFlags := (r.map (·.1), allFlags r)

/-- Apply an operation with flags over a list. -/
def mapF (f : Word → Word × NumFlags) (l : List Word) : List Word × NumFlags := pairsF (l.map f)

/-- The mean of a row: the lane sum times the reciprocal of its length, rounded (log 10). -/
def laneMean (l : List Word) : Word × NumFlags :=
  let s := laneSum l
  let k := toF32 (.fin false 1 0)
  let r : Word × NumFlags := match ofF32 s.1 with
    | .fin n m e =>
      -- m x 2^e / L rounded to nearest
      let q : Int := m * 2 ^ 64 / max 1 l.length
      let rest := if m * 2 ^ 64 % max 1 l.length = 0 then 0 else 1
      toF32 (.fin n (q.natAbs * 2 + rest) (e - 65))
    | x => toF32 x
  (r.1, (s.2.or r.2).or k.2)

/-- NORM over one row (R165): SUB 0 RMS, SUB 1 layer; scale and bias by column, or none. -/
def normRow (layer : Bool) (eps : Word) (scale bias : Option (List Word)) (x : List Word) :
    List Word × NumFlags :=
  let mu := if layer then laneMean x else (0, {})
  let c := if layer then mapF (fun v => fSub v mu.1) x else (x, {})
  let sq := mapF (fun v => fMul v v) c.1
  let var := laneMean sq.1
  let ve := fAdd var.1 eps
  let r := precise fnRsqrt ve.1
  let y := mapF (fun v => fMul v r.1) c.1
  let z := match scale with
    | none => y
    | some g => pairsF (List.zipWith fMul y.1 g)
  let w := match bias with
    | none => z
    | some b => pairsF (List.zipWith fAdd z.1 b)
  (w.1, [mu.2, c.2, sq.2, var.2, ve.2, r.2, y.2, z.2, w.2].foldl NumFlags.or {})

/-- Softmax over one row: maximum, precise exponential and sum, then scale (R117, R139). -/
def softmaxRow (x : List Word) : List Word × NumFlags :=
  let m := match x with
    | [] => 0
    | a :: r => r.foldl fMax a
  let d := mapF (fun v => fSub v m) x
  let e := mapF (precise fnExp) d.1
  let s := laneSum e.1
  let r := precise fnRecip s.1
  let y := mapF (fun v => fMul v r.1) e.1
  (y.1, [d.2, e.2, s.2, r.2, y.2].foldl NumFlags.or {})

end Sys2Proof.Machine
end

