-- ==== Sys2Proof/Machine/ArrayUnit.lean ====
section
/-!
DEFINITION. The systolic arrays of a Graver core (R96 to R107, R115): check weights and the comparator (R98, R99, R133,
R134), the residue lane (R112), K steps into the accumulator store (R104, R105, R130, R131), and a product cut into
output tiles (R101, R106, R115).
-/

namespace Sys2Proof.Machine

open Sys2Proof

/-! ## Physical rows and columns (R96, R97) -/

/-- A physical row, or column, that a repair map retires. -/
def RepairMap.rowBad (m : RepairMap) (p : Nat) : Bool := m.rowA.toNat = p || m.rowB.toNat = p
def RepairMap.colBad (m : RepairMap) (p : Nat) : Bool := m.col.toNat = p

/-- The physical row of logical row `k`: the rows at and below a retired one move down, onto the spare rows. -/
def RepairMap.rowOf (m : RepairMap) (k : Nat) : Nat := ((List.range 66).filter fun p => !m.rowBad p).getD k 0

/-- The physical column of logical column `k`: the spare column, 64, takes the index of a retired one; the check column
is column 65, or the spare where column 65 is the retired one. -/
def RepairMap.colOf (m : RepairMap) (k : Nat) : Nat := if m.colBad k then 64 else k
def RepairMap.checkCol (m : RepairMap) : Nat := if m.colBad 65 then 64 else 65

/-! ## Check weights (R98, R133) -/

/-- A zero weight or activation, as the loader and the feeder write it into unused rows and columns (R115). -/
def numZero : Num := .fin false 0 0

/-- A value is finite. -/
def numFinite : Num → Bool
  | .fin _ _ _ => true
  | _ => false

/-- A list of values along K cut or filled with zeros to `n` (R115). -/
def padTo (n : Nat) (l : List Num) : List Num := l.take n ++ List.replicate (n - l.length) numZero

/-- Row `k` of a list of columns. -/
def rowOf (cols : List (List Num)) (k : Nat) : List Num := cols.map (·.getD k numZero)

/-- The integer nearest to a value in units of 2^u, ties to even. -/
def nearestUnit (u : Int) : Num → Int
  | .fin n m e => numToInt (.fin n m (e - u))
  | _ => 0

/-- The check weight of a row of an array in an integer mode: the exact sum (R98). -/
def checkInt (row : List Num) : BitVec 14 := BitVec.ofInt 14 ((row.map numToInt).foldl (· + ·) 0)

/-- The check weight C of a row under E_w: the exact sum in units of 2^(E_w - 6), rounded to nearest, ties to even, and
clamped (R133). -/
def checkFloat (ew : Option Int) (row : List Num) : BitVec 14 := match ew with
  | none => 0
  | some e => BitVec.ofInt 14 (clampInt (-8192) 8191 (nearestUnit (e - 6) (row.foldl numAdd numZero)))

/-- The check column of an array for the weight columns of one K step (R98, R133). -/
def checkColumn (int : Bool) (cols : List (List Num)) : CheckColumn :=
  if int then { weights := (List.range 64).map fun k => checkInt (rowOf cols k) }
  else
    let exps := (List.range 2).map fun b => maxExp (cols.flatMap fun c => (c.drop (32 * b)).take 32)
    { weights := (List.range 64).map fun k => checkFloat (exps.getD (k / 32) none) (rowOf cols k), exps := exps }

/-! ## The comparator (R99, R134) -/

/-- A value in units of 2^u as one in units of 2^v, truncated toward zero. -/
def alignTo (u v : Int) (x : Int) : Int :=
  if u ≤ v then x.tdiv (2 ^ (v - u).toNat) else x * 2 ^ (u - v).toNat

/-- The check window of a block: its exponent is E_a + E_w + 6 (R133). -/
def checkWindow (ea ew : Int) (a : List Num) (c : List (BitVec 14)) : Int :=
  ((List.zipWith (fun x k => numMul x (.fin (decide (k.toInt < 0)) k.toInt.natAbs (ew - 6))) a c).map
    (windowTerm (ea + ew + 6 - 28))).foldl (· + ·) 0

/-- The comparator on one alignment block (R134): no answer for a block with a special tag, and otherwise whether the
two sums differ by more than 2^(E* + 1). -/
def compareBlock (ew : Option Int) (c : List (BitVec 14)) (a : List Num) (cols : List (List Num)) : Option Bool :=
  if !a.all numFinite || !(cols.all fun w => w.all numFinite) then none
  else match maxExp a, ew with
    | some ea, some ew =>
      let u := ea + ew - 28
      let sum := (cols.map fun w => match windowOf a w with
        | some t => alignTo (t.2 - 28) u t.1
        | none => 0).foldl (· + ·) 0
      some (decide (2 ^ 29 < (sum - alignTo (u + 6) u (checkWindow ea ew a c)).natAbs))
    | _, _ => some false

/-- The comparator of an array on one activation row of a K step (R99): exact in an integer mode, block by block
otherwise. -/
def compareRow (int : Bool) (chk : CheckColumn) (a : List Num) (cols : List (List Num)) : Option Bool :=
  if int then
    let ai := a.map numToInt
    let dot (w : List Int) : Int := (List.zipWith (· * ·) ai w).foldl (· + ·) 0
    some (decide ((cols.map fun w => dot (w.map numToInt)).foldl (· + ·) 0 ≠ dot (chk.weights.map BitVec.toInt)))
  else
    let part (b : Nat) : Option Bool := compareBlock (chk.exps.getD b none) ((chk.weights.drop (32 * b)).take 32)
      ((a.drop (32 * b)).take 32) (cols.map fun w => (w.drop (32 * b)).take 32)
    match part 0, part 1 with
    | none, x => x
    | x, none => x
    | some x, some y => some (x || y)

/-- What a comparator answers over rows: whether it compared at all, and whether it found a mismatch. -/
def compareRows (int : Bool) (chk : CheckColumn) (rows cols : List (List Num)) : Bool × Bool :=
  let r := rows.filterMap fun a => compareRow int chk a cols
  (!r.isEmpty, r.any id)

/-- The residue lane of the Drypoint path (R112): whether any group of 64 output columns of a product was compared, and
whether one mismatched. The sum of the 64 weights of a K index has the encoding of a check weight (log 31). -/
def residueLane (int : Bool) (acts cols : List (List Num)) : Bool × Bool :=
  let k := (acts.map List.length).foldl max 0
  let steps := List.range ((k + 63) / 64)
  let groups := chunksOf 64 ((cols.length + 63) / 64) cols
  let r := steps.flatMap fun i => groups.map fun g =>
    let w := g.map fun c => padTo 64 (c.drop (64 * i))
    compareRows int (checkColumn int w) (acts.map fun a => padTo 64 (a.drop (64 * i))) w
  (r.any (·.1), r.any (·.2))

/-! ## Weight loads and K steps (R102 to R105, R115, R130, R131) -/

/-- The logical columns of array `n` of a weight set. -/
def WeightSet.array (w : WeightSet) (pack n : Nat) : List (List Num) := (w.cols.drop (pack * n)).take pack

/-- The weights that a load writes for K step `k` of a tile: unused rows are zero, and so are masked columns, which no
result is written for (R98, R115). -/
def ArrayTile.weights (t : ArrayTile) (int : Bool) (pack k : Nat) : WeightSet :=
  let cols := t.cols.map fun c => padTo 64 (c.drop (64 * k))
  let w : WeightSet := { cols := cols }
  { w with checks := (List.range 4).map fun n => checkColumn int (w.array pack n) }

/-- The activation rows of K step `k` of a tile. -/
def ArrayTile.rows (t : ArrayTile) (k : Nat) : List (List Num) := t.acts.map fun a => padTo 64 (a.drop (64 * k))

/-- K steps of a tile (R106). -/
def ArrayTile.ksteps (t : ArrayTile) : Nat := ((t.cols.map List.length).foldl max 0 + 63) / 64

/-- One K step added to a partial sum (R130, R131). -/
def Accum.add (int : Bool) (acc : Accum) (a w : List Num) : Accum :=
  if int then
    if acc.flags.accSat then acc
    else
      let t := acc.int + (List.zipWith (· * ·) (a.map numToInt) (w.map numToInt)).foldl (· + ·) 0
      let c := clampInt (-2147483648) 2147483647 t
      { acc with int := c, flags := { acc.flags with accSat := decide (c ≠ t) } }
  else
    (List.range 2).foldl (fun acc b =>
      let v := blockValue ((a.drop (32 * b)).take 32) ((w.drop (32 * b)).take 32)
      let r := fAdd acc.f32 v.1
      { acc with f32 := r.1, flags := (acc.flags.or v.2).or r.2 }) acc

/-- A K step into a bank: the first one writes it, later ones add (R105). -/
def AccBank.accumulate (int : Bool) (pack : Nat) (w : WeightSet) (rows : List (List Num)) (b : AccBank) : AccBank :=
  let cmp := (List.range 4).map fun n =>
    if (w.array pack n).isEmpty then (false, false)
    else compareRows int (w.checks.getD n {}) rows (w.array pack n)
  let mask (f : Bool × Bool → Bool) : BitVec 4 :=
    BitVec.ofNat 4 ((cmp.zipIdx.map fun x => flag (f x.1) x.2).foldl (· + ·) 0)
  { b with
    sums := rows.zipIdx.map fun r => w.cols.zipIdx.map fun c =>
      Accum.add int ((b.sums.getD r.2 []).getD c.2 {}) r.1 c.1
    compared := b.compared ||| mask (·.1)
    mismatch := b.mismatch ||| mask (·.2) }

/-- The K step that streams has entered: each cell has changed to its shadow weight, and the step's products are in its
bank (R102, R105). -/
def Core.flush (c : Core) : Core :=
  if c.feed.isEmpty then c
  else
    let w := if c.swapMark then c.shadow else c.working
    { c with
      working := w, swapMark := false, feed := []
      banks := c.banks.modify c.feedBank (AccBank.accumulate c.feedInt c.feedPack w c.feed) }

/-! ## Products cut into tiles (R101, R106) -/

/-- The output tiles of one product: column groups, and within each group M tiles. -/
def tilesOf (mt columns rt : Nat) (acts cols : List (List Num)) : List ArrayTile :=
  (chunksOf columns ((cols.length + columns - 1) / columns) cols).flatMap fun g =>
    (chunksOf mt ((acts.length + mt - 1) / mt) acts).map fun a => { acts := a, cols := g, rowTime := rt }

/-- The results of a product of `m` rows and `n` columns from those of its tiles. -/
def joinTiles (mt columns m n : Nat) (r : List (List (List Accum))) : List (List Accum) :=
  let t := (m + mt - 1) / mt
  (List.range m).map fun i => (List.range n).map fun k =>
    ((r.getD (k / columns * t + i / mt) []).getD (i % mt) []).getD (k % columns) {}

/-- The weight loads that a list of tiles takes (R104). -/
def loadsOf (ts : List ArrayTile) : Nat := (ts.map ArrayTile.ksteps).foldl (· + ·) 0

/-- The array compute time of R108. -/
def arrayCycles (ts : List ArrayTile) (drain : Nat) : Nat :=
  (ts.map fun t => t.ksteps * (64 + t.acts.length * t.rowTime)).foldl (· + ·) 0 + 131 + (ts.getLastD {}).rowTime + drain

end Sys2Proof.Machine
end

