-- ==== Sys2Proof/Machine/State.lean ====
section
/-!
DEFINITION. The state of the block as plain data, the reasons a step can stop, and the state after
reset: the state at P0 of a cold reset (R470, R475, R480). Each docstring names the rule that gives the
piece, its width and its reset value; the default of a field is that value.
-/

namespace Sys2Proof.Machine

open Sys2Proof

/-- The registers that the host writes and that nothing else changes but a reset (types RW and RWL). -/
structure HostRegs where
  /-- GLB_AVS_LIMIT.MIN (R490), 10 bits, reset 460. -/
  avsMin : BitVec 10 := 460
  /-- GLB_AVS_LIMIT.MAX (R490), 10 bits, reset 600. -/
  avsMax : BitVec 10 := 600
  /-- GLB_LOCK.LOCK (R489), 1 bit, reset 0. -/
  glbLock : Bool := false
  /-- TB_SYNC_THRESH (R491), 20 bits, reset 250. -/
  syncThresh : BitVec 20 := 250
  /-- TB_STEP_LIMIT (R46, R491), 30 bits, reset 1,000. -/
  stepLimit : BitVec 30 := 1000
  /-- TB_SET_SEC_HI (R491), 16 bits, reset 0. -/
  setSecHi : BitVec 16 := 0
  /-- TB_SET_SEC_LO (R491), 32 bits, reset 0. -/
  setSecLo : Word := 0
  /-- TB_SET_NS (R491), 30 bits, reset 0. -/
  setNs : BitVec 30 := 0
  /-- TB_PPS_CTRL.OUT_EN (R66), reset 0. -/
  ppsOutEn : Bool := false
  /-- TB_PPS_CTRL.IN_MODE (R67), reset 0. -/
  ppsInMode : Bool := false
  /-- TB_PPS_WIDTH (R66), 19 bits, reset 100,000. -/
  ppsWidth : BitVec 19 := 100000
  /-- TB_GPIO_FILTER (R68), 8 bits, reset 2. -/
  gpioFilter : Byte := 2
  /-- TB_GPIO_OUT (R491), 16 bits, reset 0. -/
  gpioOut : BitVec 16 := 0
  /-- TB_LOCK.LOCK (R489), reset 0. -/
  tbLock : Bool := false
  /-- OTL_COMMIT_TIME (R495), a compact stamp, reset 0. -/
  commitTime : Compact := {}
  /-- TIR_READAHEAD_Pp (R280), 5 bits each, reset 1. -/
  readahead : List (BitVec 5) := List.replicate 8 1
  /-- TIR_DIR_PART (R280), 3 bits, reset 0. -/
  dirPart : BitVec 3 := 0
  /-- LNW_SEL (R303), 3 bits, reset 0. -/
  sel : BitVec 3 := 0
  /-- ETH_IP_ADDR (R404), reset 0. -/
  ipAddr : Word := 0
  /-- ETH_LIM_RTO (R404), 17 bits, us, reset 1,000. -/
  limRto : BitVec 17 := 1000
  /-- ETH_BYPASS_CTRL.LEAD (R404), 4 bits, reset 1. -/
  lead : BitVec 4 := 1
  /-- SEC_MACSEC_CAK (R464), reset 0xFF. -/
  cak : Byte := 0xFF
deriving DecidableEq, Repr, Inhabited

/-- The GLB block: resets, start-up, supplies, the PLLs and the slot map (R35, R36, R481, R490). -/
structure Glb where
  /-- How far bring-up is (R475). Reset: the PLL step. -/
  stage : BootStage := .plls
  /-- GLB_STATUS.LAST_RESET (R481), 2 bits, set at P0. -/
  lastReset : ResetKind := .coldPower
  /-- GLB_STATUS.UPLINK_LATE (R477), 1 bit, reset 0. -/
  uplinkLate : Bool := false
  /-- GLB_STATUS.PLL_ON_STANDBY (R35), 1 bit, reset 0. -/
  pllOnStandby : Bool := false
  /-- GLB_STATUS.PLL_SPARE (R481), 1 bit, reset 1. -/
  pllSpare : Bool := true
  /-- GLB_PART_RESET in progress (R472): the partitions named, 8 bits, and none when no reset runs. -/
  partReset : Option (BitVec 8) := none
  /-- GLB_PD_STATE (R466, R481), 24 bits: every domain is powered during bring-up. -/
  pdState : BitVec 24 := 0xFFFFFF
  /-- GLB_BOOT_MS [15:0] (R481), reset 0. -/
  bootMs : BitVec 16 := 0
  /-- GLB_BOOT_MS [31:16] (R481), reset 0. -/
  readyMs : BitVec 16 := 0
  /-- Edge at which the Outline that bring-up awaits took effect (R477). Reset: 0. -/
  bootEdge : Nat := 0
  /-- A register-caused reset that has been accepted: the edge at which it takes effect (R471). Reset: none. -/
  resetDue : Option (Nat × ResetKind) := none
  /-- Edge of jobs-ready (R20). Reset: 0. -/
  readyEdge : Nat := 0
  /-- GLB_TEMP.NOW (R490), 16 bits signed, reset 0x0000. -/
  tempNow : BitVec 16 := 0
  /-- GLB_TEMP.MAX (R490), 16 bits signed, reset 0x8000. -/
  tempMax : BitVec 16 := 0x8000
  /-- GLB_AVS.TARGET (R490), 10 bits, mV, reset 500. -/
  avsTarget : BitVec 10 := 500
  /-- GLB_AVS.PMBUS_FAIL (R490), 1 bit, reset 0. -/
  pmbusFail : Bool := false
  /-- Edge of the last voltage step (R469). Reset: none. -/
  avsEdge : Option Nat := none
  /-- The VOUT_COMMAND that was not acknowledged, and its edge (R469). Reset: none. -/
  pmbusRetry : Option (Nat × Nat) := none
  /-- The slot map of R18: partition, logical slot, physical core. Reset: empty. -/
  slotMap : List (Nat × Nat × Nat) := []
deriving DecidableEq, Repr, Inhabited

/-- The TB block and the pins it serves (R37 to R70, R491, R492, R519). -/
structure Tb where
  /-- Local time (R37), 48 + 30 + 32 bits. Reset: 0, DESIGN CHOICE (log 3). -/
  time : BaseTime := {}
  /-- The rate trim without slew (R38, R519), units of 2^-32 ns per CTRL edge, reset 0 (R40). -/
  trim : Int := 0
  /-- What is left to slew (R45), units of 2^-32 ns, reset 0. -/
  slewLeft : Int := 0
  /-- Units slewed per edge, before the clamp of R38; reset 0. -/
  slewRate : Int := 0
  /-- TB_STATUS.STATE (R40, R41), 3 bits, reset FREE_RUN. -/
  state : SyncState := .freeRun
  /-- TB_STATUS.EVER_LOCKED (R41), reset 0. -/
  everLocked : Bool := false
  /-- TB_STATUS.TIME_JUMP_REFUSED (R41), reset 0. -/
  timeJumpRefused : Bool := false
  /-- TB_STATUS.STEP_PENDING (R41), reset 0. -/
  stepPending : Bool := false
  /-- TB_STATUS.PPS_LOST (R41), reset 0. -/
  ppsLost : Bool := false
  /-- TB_STATUS.TRIM_CLAMPED (R41), reset 0. -/
  trimClamped : Bool := false
  /-- TB_CAP_SEC_HI, _SEC_LO, _NS, _FRAC (R39). Reset: 0, DESIGN CHOICE (log 3). -/
  cap : BaseTime := {}
  /-- TB_OFFSET (R491), signed 32 bits. Reset: 0, DESIGN CHOICE (log 3). -/
  offset : BitVec 32 := 0
  /-- TB_STEP_OFFSET (R46), signed 64 bits. Reset: 0, DESIGN CHOICE (log 3). -/
  stepOffset : BitVec 64 := 0
  /-- A refused step is accepted and waits for the next Sync (R48). Reset: false. -/
  stepAccepted : Bool := false
  /-- The step of R44 has been made in this entry into ACQUIRING. Reset: false. -/
  stepped : Bool := false
  /-- Consecutive Syncs within TB_SYNC_THRESH (R40), reset 0. -/
  within : Nat := 0
  /-- Consecutive Syncs beyond TB_SYNC_THRESH and within TB_STEP_LIMIT (R40), reset 0. -/
  beyond : Nat := 0
  /-- Consecutive Syncs beyond TB_STEP_LIMIT (R46), reset 0. -/
  outliers : Nat := 0
  /-- Consecutive Syncs within TB_STEP_LIMIT in HOLDOVER (R47), reset 0. -/
  rejoin : Nat := 0
  /-- A backward step holds launches until local time passes this time; the edge at which the hold
  began (R49). Reset: none. -/
  stepHold : Option (Int × Nat) := none
  /-- Edge at which PPS_OUT falls; none while it is low (R66). Reset: none. -/
  ppsHighUntil : Option Nat := none
  /-- TB_PPS_CAP (R491), a compact stamp. Reset: 0, DESIGN CHOICE (log 3). -/
  ppsCap : Compact := {}
  /-- Local time and edge of the last valid PPS_IN edge, or of the last edge at all while none was
  valid (R67). Reset: none. -/
  ppsLast : Option (Int × Nat) := none
  /-- Edge from which the 3 s of R67 count. Reset: 0. -/
  ppsWatch : Nat := 0
  /-- The 16 GPIO pins (R68 to R70, TB_GPIO_DIR, TB_GPIO_IN, TB_GCAP). Reset: inputs, low (R471, R508). -/
  pins : List GpioPin := List.replicate 16 {}
  /-- The HI word latched by a read of TB_STEP_OFFSET_LO (R487). Reset: none. -/
  stepOffsetHi : Option Word := none
  /-- The HI word latched by a read of TB_PPS_CAP_LO (R487). Reset: none. -/
  ppsCapHi : Option Word := none
  /-- The gPTP state of the four ports (R42, R491). -/
  ports : List GptpPort := List.replicate 4 {}
  /-- The port that the best master clock algorithm or NET_PORT makes SLAVE (R42). Reset: none. -/
  slave : Option Port := none
  /-- The selected grandmaster's Announce (TB_GM_ID, R491). Reset: none. -/
  gm : Option AnnounceMsg := none
  /-- The time that the selected master's last Sync carried, for the relay (R42). Reset: none. -/
  relay : Option SyncSource := none
deriving DecidableEq, Repr, Inhabited

/-- The RGN block: the Registration engine (R53 to R62, R493, R494, R520). -/
structure Rgn where
  /-- RGN_STATUS.FIRING (R493), reset 0. -/
  firing : Bool := false
  /-- RGN_STATUS.SHADOW_LOADED (R493), reset 0. -/
  shadowLoaded : Bool := false
  /-- RGN_EPOCH_TIME (R62, R493), reset 0. -/
  epochTime : Compact := {}
  /-- Disabled entries (R61), one bit per entry of 4,096, reset 0. -/
  disabled : List Nat := []
  /-- Disables and enables that wait for their edge E + 16: edge, entry, disable (R61). Reset: empty. -/
  changes : List (Nat × Nat × Bool) := []
  /-- Firings carried over an edge: instant and entry (R520). Reset: empty. -/
  carried : List (Int × Nat) := []
  /-- Entries with a deferred firing (R59). Reset: empty. -/
  deferred : List Nat := []
  /-- Launches issued on this edge (R57), 0 to 4, reset 0. -/
  launches : Nat := 0
  /-- A forward step passed the armed boundary: the tick up to which it skips firings of the new table (R49).
  Reset: none. -/
  stepSkip : Option Nat := none
  /-- Prefetch launches that wait for the next common TIER/CTRL edge: entry, partition, object (R34). Reset: empty. -/
  tierWait : List (Nat × Nat × Word) := []
deriving DecidableEq, Repr, Inhabited

/-- OTL_STATUS.STATE (R495). -/
inductive OtlState where
  | idle | staging | validating | valid | rejected | armed
deriving DecidableEq, Repr, Inhabited

/-- The OTL block (R72 to R95, R495, R496). -/
structure Otl where
  /-- OTL_STATUS.STATE, 3 bits, reset IDLE. -/
  state : OtlState := .idle
  /-- OTL_STATUS.CODE, 8 bits, reset 0x00. -/
  code : Byte := 0
  /-- OTL_ERR_WORD (R495), reset 0. -/
  errWord : Nat := 0
  /-- The staging area (R81): the words received since OTL_STAGE_BEGIN. Reset: empty (R93). -/
  staging : Memory := []
  /-- OTL_STAGED_WORDS (R495), 21 bits, reset 0. -/
  stagedWords : Nat := 0
  /-- OTL_EPOCH (R495), reset 0. -/
  epoch : Word := 0
  /-- OTL_RUN_INFO.IS_BOOT (R495): no commit since the last reset. -/
  isBoot : Bool := true
  /-- The words of the running Outline (R456). Reset: none. -/
  image : List Word := []
  /-- The running Outline; the empty one before the boot Outline takes effect and in outline recovery. -/
  running : Outline := {}
  /-- The VALID or ARMED image as its records say it. Reset: none (R93). -/
  staged : Option Outline := none
  /-- The version of the network table that validation bound with the staged Outline (R379). Reset: none. -/
  stagedNet : Option NetTable := none
deriving DecidableEq, Repr, Inhabited

/-- Jobs, descriptors and the shared Margin engine (R146 to R171, R190 to R192). -/
structure Jobs where
  /-- Every job that is not yet forgotten, oldest first. Reset: empty. -/
  list : List Job := []
  /-- The job ID that the next accepted job takes (R146). -/
  nextId : Word := 1
  /-- The completion queue of each partition, oldest first, 1,024 records (R400). Reset: empty. -/
  queues : List (List CompRecord) := List.replicate 8 []
  /-- The Margin engine's running descriptor: job and slot (R191). Reset: none. -/
  marginRun : Option (Word × Nat) := none
  /-- The Margin engine's queue: job, slot and the index of the descriptor (R190). Reset: empty. -/
  marginQueue : List (Word × Nat) := []
  /-- The Margin engine is retired (R432). Reset: false. -/
  marginRetired : Bool := false
deriving DecidableEq, Repr, Inhabited

/-- The context manager (R197 to R249). -/
structure CtxMgr where
  /-- CTX_STATUS.ENABLED (R224), reset 0. -/
  enabled : Bool := false
  /-- CTX_STATUS.NO_FRAMES (R224), W1C, reset 0. -/
  noFrames : Bool := false
  /-- CTX_STATUS.NO_RECORDS (R224), W1C, reset 0. -/
  noRecords : Bool := false
  /-- The context table (R199): the entries that are not FREE. Reset: empty. -/
  table : List Context := []
  /-- The page records that are not free, with their pages (R202). Reset: empty. -/
  pages : List PageRecord := []
  /-- GEN of records that are free and have been used: index, GEN (R202). Reset: empty. -/
  gens : List (Nat × Nat) := []
  /-- Exports that are not complete (R245). Reset: empty. -/
  exports_ : List ExportOp := []
  /-- Swaps that are not complete (R243). Reset: empty. -/
  swaps : List SwapOp := []
  /-- Commands that wait for regions on their way out (R242). Reset: empty. -/
  waits : List CtxWait := []
deriving DecidableEq, Repr, Inhabited

/-- The tier manager and the Tier Writer (R250 to R280). -/
structure Tir where
  /-- The object directory with each version's bytes (R256). Reset: empty. -/
  objs : List ObjVersion := []
  /-- Requests that are not complete (R268). Reset: empty. -/
  requests : List TierRequest := []
  /-- The tag that the next request takes (R268), 16 bits. Reset: 0, DESIGN CHOICE (log 3). -/
  nextTag : BitVec 16 := 0
  /-- Tags held out of use after a timeout (R448). Reset: empty. -/
  held : List HeldTag := []
  /-- Allocations that wait for T2 space, oldest first (R269). Reset: empty. -/
  waits : List AllocWait := []
  /-- Writes into T3 and T4 in the order taken up; the head is the one running (R252). Reset: empty. -/
  writer : List TierWrite := []
  /-- The two directory mirror slots A and B (R276). Reset: neither valid. -/
  mirror : List MirrorSlot := [{}, {}]
  /-- TIR_MIRROR_SEQ (R280), reset 0. -/
  mirrorSeq : Word := 0
  /-- The directory changed since the last image (R277). Reset: false. -/
  mirrorDirty : Bool := false
  /-- Edge of the last image written (R277). Reset: 0. -/
  mirrorEdge : Nat := 0
  /-- TIR_STATUS.DIR_FULL, W1C, reset 0. -/
  dirFull : Bool := false
  /-- TIR_STATUS.T2_SHORT, W1C, reset 0. -/
  t2Short : Bool := false
  /-- TIR_STATUS.T3_SHORT, W1C, reset 0. -/
  t3Short : Bool := false
  /-- TIR_STATUS.MIRROR_INVALID, W1C, reset 0. -/
  mirrorInvalid : Bool := false
  /-- TIR_DIR_RESULT_w (R280), 16 words. Reset: 0, DESIGN CHOICE (log 3). -/
  dirResult : List Word := List.replicate 16 0
  /-- Object loads in progress (R401). Reset: empty. -/
  loads : List LoadOp := []
  /-- Tier references of prefetches and MOVE descriptors (R264, R273). Reset: empty. -/
  tierRefs : List TierRef := []
  /-- Units that a copy gave up and that may not yet be written (R252). Reset: empty. -/
  freed : List FreedUnits := []
  /-- The order number that the next entry made ABSENT takes (R255). -/
  absentNext : Nat := 0
  /-- The last version number of each sequence: partition, 0 for a device object, ID, number (R256). Reset: empty. -/
  seqs : List ((Nat × Word) × Nat) := []
  /-- Commands that wait for the check of a version (R257). Reset: empty. -/
  checkWaits : List CheckWait := []
deriving DecidableEq, Repr, Inhabited

/-- The memory channels (R281 to R293, R302). -/
structure Chn where
  /-- The 66 physical Golent channels. -/
  golent : List MemChannel := List.replicate 66 {}
  /-- The 16 board-store channels. -/
  board : List MemChannel := List.replicate 16 {}
  /-- CHN_STATUS.T4_AVAILABLE, reset 0. -/
  t4Available : Bool := false
  /-- CHN_STATUS.T3_LOST, reset 0. -/
  t3Lost : Bool := false
  /-- CHN_STATUS.T3_CLOSED, reset 0. -/
  t3Closed : Bool := false
  /-- CHN_STATUS.T4_CLOSED, reset 0. -/
  t4Closed : Bool := false
deriving DecidableEq, Repr, Inhabited

/-- Linework and the line-weight regulator (R294 to R304). -/
structure Lnw where
  /-- The 16 routers (R439). -/
  routers : List Router := List.replicate 16 {}
  /-- Transactions that are not complete (R297). Reset: empty. -/
  txs : List LineworkTx := []
  /-- Tags held out of use (R448). Reset: empty. -/
  held : List HeldTag := []
  /-- LNW_BUDGET of each partition and master that is not at MIN 0, SHARE 1 (R303). Reset: empty. -/
  budgets : List Budget := []
  /-- Budget writes that wait for the next window boundary (R304). Reset: empty. -/
  pending : List Budget := []
  /-- Edge at which the window in progress began (R298). Reset: 0. -/
  windowEdge : Nat := 0
  /-- Units of 64 B that a master of a partition has used in this window, class 2 to 4 (R298). Reset: empty. -/
  charged : List ((Nat × Nat) × Nat) := []
  /-- Fetches that wait at a limit of R301, oldest first. Reset: empty. -/
  waiting : List PortWait := []
deriving DecidableEq, Repr, Inhabited

/-- Sensor ingress (R305 to R326, R336). -/
structure Ing where
  /-- The 48 ingress stream contexts. -/
  streams : List IngStream := List.replicate 48 {}
  /-- The 12 CSI-2 ports. -/
  ports : List CsiPort := List.replicate 12 {}
deriving DecidableEq, Repr, Inhabited

/-- The Tracing unit (R327 to R337). -/
structure Trc where
  /-- TRC_HOLDER (R337), 32 bits, reset 0 (no job). -/
  holder : Word := 0
  /-- FUSE descriptors that wait for the unit: job, slot (R330). Reset: empty. -/
  queue : List (Word × Nat) := []
  /-- The track table (R331, R332). Reset: empty. -/
  table : TrackTable := {}
  /-- The track table as the holder's journal has it (R330). Reset: none. -/
  shadow : Option TrackTable := none
  /-- TRC_STATUS.TABLE_FULL, W1C, reset 0. -/
  tableFull : Bool := false
  /-- The unit is retired (R432). Reset: false. -/
  retired : Bool := false
  /-- The unit takes no new work and is to be retired (R433). Reset: false. -/
  leaving : Bool := false
  /-- The ego filter (R327). -/
  ego : EgoFilter := {}
  /-- The newest ego pose published (R327), in the words of TRC_EGO. Reset: the pose at reset, time 0. -/
  pose : List Word := [0, 0, 0, 0, 0, 0x3F800000, 0, 0, 0]
  /-- TRC_EGO_w (R337), 9 words. Reset: 0, DESIGN CHOICE (log 3). -/
  egoCap : List Word := List.replicate 9 0
  /-- The calibration state of the FUSION entries (R333), by entry. -/
  cal : List Calibration := []
  /-- The newest escalation of each pair of sensors, and its edge (R334). Reset: none. -/
  escalated : List (Nat × Nat × Nat) := []
deriving DecidableEq, Repr, Inhabited

/-- The Crosshatch planner (R338 to R357). -/
structure Xh where
  /-- The unit is retired (R356, R432). Reset: false. -/
  retired : Bool := false
  /-- The unit takes no new work and is to be retired (R433). Reset: false. -/
  leaving : Bool := false
  /-- The map buffers A and B (R342). -/
  buffers : List MapBuffer := [{}, {}]
  /-- Index of the current buffer (R342). -/
  current : Nat := 0
  /-- XH_GEN (R342), 32 bits, reset 0. -/
  gen : Word := 0
  /-- The running query (R347). Reset: none. -/
  run : Option Query := none
  /-- Queries that wait, in the order of issue (R347). Reset: empty. -/
  queue : List Query := []
  /-- The PUBLISH that holds the inactive buffer, and whether its copy runs (R344). Reset: none. -/
  publish : Option (Query × Bool) := none
  /-- Publishes that wait for the inactive buffer (R344). Reset: empty. -/
  publishQueue : List Query := []
  /-- The 16 current plans (R353). -/
  plans : List Plan := List.replicate 16 {}
  /-- The lattice loaded from TABLE_OBJECT (R340). Reset: none. -/
  lattice : Option Lattice := none
deriving DecidableEq, Repr, Inhabited

/-- The Stylus engines (R358 to R375). -/
structure Sty where
  /-- The 5 physical engines (R359). -/
  engines : List StyEngine := List.replicate 5 {}
  /-- The engines of the assignment in force: 4, or as many as the commit found (R359, R372). -/
  lanes : Nat := 4
  /-- The 128 channels (R375). -/
  channels : List StyChannel := List.replicate 128 {}
  /-- The 16 channel groups. -/
  groups : List StyGroup := List.replicate 16 {}
deriving DecidableEq, Repr, Inhabited

/-- The Ethernet ports, the ring and by-pass, and the Limian protocol (R376 to R404). -/
structure Eth where
  /-- The four ports. -/
  ports : List EthPort := List.replicate 4 {}
  /-- The partner table (R388), 64 entries. Reset: no entry. -/
  partners : List (Option Partner) := List.replicate 64 none
  /-- The network table in force (R380). Reset: the empty table. -/
  table : NetTable := {}
  /-- FRER recovery by stream and egress sequence numbers (R385). Reset: empty. -/
  frer : List FrerState := []
  /-- Flow meters by stream (R382). Reset: empty. -/
  meters : List Meter := []
  /-- ETH_BYPASS_STATUS.STATE (R404), reset CLOSED. -/
  bypass : BypassState := .closed
  /-- ETH_BYPASS_STATUS.ATTEMPTS (R404), 2 bits, reset 0. -/
  attempts : BitVec 2 := 0
  /-- ETH_BYPASS_STATUS.OPEN_FAIL, W1C, reset 0. -/
  openFail : Bool := false
  /-- ETH_BYPASS_TIME (R404), a compact stamp. Reset: 0, DESIGN CHOICE (log 3). -/
  bypassTime : Compact := {}
  /-- The pending or last opening (true) or closing (false) instant in local time (R391, R393). Reset: none. -/
  instant : Option (Int × Bool) := none
  /-- The switches opened and a ring link is not up yet (R392). Reset: false. -/
  opening : Bool := false
  /-- A CLOSE_REQ keeps the by-pass closed until RETRY (R393). Reset: false. -/
  noReopen : Bool := false
  /-- Edge before which no opening instant is chosen: 10 s after a failed opening (R392). Reset: 0. -/
  retryEdge : Nat := 0
  /-- Edge of the last announcement of the pending instant (R391). Reset: 0. -/
  announceEdge : Nat := 0
  /-- The identifier that the next queued frame takes (model's own). -/
  nextFrame : Nat := 0
  /-- The 16 Limian sessions (R395). Reset: closed (R480). -/
  sessions : List Session := List.replicate 16 {}
deriving DecidableEq, Repr, Inhabited

/-- Proof (R405 to R430). -/
structure Prf where
  /-- PRF_STATUS.STATE (R430), reset STOPPED. -/
  state : ProofState := .stopped
  /-- SAFE_STOP_A_N is driven low (asserted) (R424, R471). Reset: true. -/
  stopA : Bool := true
  /-- SAFE_STOP_B_N is driven low (asserted) (R424, R471). Reset: true. -/
  stopB : Bool := true
  /-- Levels read back from the stop lines: PRF_STATUS.STOP_A and STOP_B (R430), reset 0. -/
  readA : Bool := false
  readB : Bool := false
  /-- The SAFE_STATE pin (R471). Reset: low. -/
  safePin : Bool := false
  /-- FAULT_N is asserted (R471). Reset: true. -/
  faultN : Bool := true
  /-- The WDO level (R471). Reset: low. -/
  wdo : Bool := false
  /-- Edges at which WDO toggled last and WDI rose last (R414, R424). -/
  wdoEdge : Nat := 0
  wdiEdge : Option Nat := none
  /-- PRF_SAFE_CAUSE (R430), 8 bits, latched, reset 0. -/
  safeCause : Byte := 0
  /-- A cause of STOPPED stands that PRF_RELEASE has not ended (R422, R423). Reset: true. -/
  stopped : Bool := true
  /-- PRF_STOP_SEQ (R430), reset 1. -/
  stopSeq : Word := 1
  /-- The 16 rule sets (R416). -/
  sets : List RuleSetState := List.replicate 16 {}
  /-- PRF_CLK_COUNT (R430), two 16-bit counts. Reset: 0, DESIGN CHOICE (log 3). -/
  clkCtrl : BitVec 16 := 0
  clkAon : BitVec 16 := 0
  /-- The latest window lay beyond 12 % (R410). Reset: false. -/
  clkBad : Bool := false
  /-- PRF_TIME_HOLD_MAX (R430), us. Reset: 0, DESIGN CHOICE (log 3). -/
  timeHoldMax : Nat := 0
  /-- The 64 conflict boxes (R417). Reset: empty. -/
  boxes : List (Option ConflictBox) := List.replicate 64 none
  /-- The mailbox: messages of CHECK and GATE descriptors, oldest first (R170, R241). Reset: empty. -/
  mailbox : List ProofMsg := []
  /-- What the taps tell of each of the 48 streams (R414). -/
  streams : List ProofStream := List.replicate 48 {}
  /-- The last passed CHECK of each set and tag, and its edge (JOB_ALIVE of R414). Reset: empty. -/
  alive : List (Nat × BitVec 16 × Nat) := []
  /-- The test slices of the units 1 to 7 (R426). -/
  slices : List SliceState := List.replicate 8 {}
  /-- Cores whose self-test passed the coverage interval (R24, R429). Reset: empty. -/
  diagCores : List Nat := []
  /-- Edge of the last sensor-fault report while the cause SENSOR_FAULT holds (R425). Reset: none. -/
  sensorFault : Option Nat := none
  /-- While the cause GATE_TABLE holds: samples within bound in a row (R425). Reset: none. -/
  gateTable : Option Nat := none
  /-- Edge from which the coverage interval of units counts: jobs-ready (R429). Reset: 0. -/
  coverFrom : Nat := 0
deriving DecidableEq, Repr, Inhabited

/-- The Burnisher and the error log (R431 to R450). -/
structure Brn where
  /-- Error records on their way to the Burnisher, oldest first (R446). Reset: empty. -/
  inbox : List ErrorRecord := []
  /-- Unread records, oldest first, at most 1,024 (R446). Reset: empty (cold). -/
  log : List ErrorRecord := []
  /-- BRN_LOG_SEQ (R450). Reset: 0, DESIGN CHOICE (log 3). -/
  seq : Word := 0
  /-- The newest records, newest first, at most 16, that VDD_AON keeps (R449). Reset: empty. -/
  kept : List ErrorRecord := []
  /-- BRN_STATUS.LOG_OVERRUN, W1C, reset 0. -/
  overrun : Bool := false
  /-- BRN_STATUS.PRE_RESET, W1C, reset 0. -/
  preReset : Bool := false
  /-- BRN_STATUS.ROUTER_ON_SHADOW is a router's onShadow. Control cores retired (R438), by number. -/
  ctrlRetired : List Nat := []
  /-- Control cores that failed MBIST or are the spare are not active; the active set (R476). -/
  ctrlActive : List Nat := []
  /-- The causes of R440 that hold for each partition, in the bits of BELOW_FLOOR (R445). Reset: none. -/
  causes : List Nat := List.replicate 8 0
  /-- BRN_PART_DEGRADED (R440), 8 bits, reset 0. -/
  degraded : BitVec 8 := 0
  /-- Permanently retired Graver cores (R432, R449), a bit each, reset: fuses. -/
  coreRetired : BitVec 36 := 0
  /-- The event count of each unit and code, the COUNT of R443: kind, index, code, count. Reset: empty. -/
  events : List (Nat × Nat × Nat × Nat) := []
deriving DecidableEq, Repr, Inhabited

/-- The security block and the boot store (R451 to R464, R473, R474). -/
structure Sec where
  /-- SEC_STATUS.LOCK (R462), 2 bits, from OTP. -/
  lock : LockState := .open_
  /-- LOCK in OTP (R462), which takes effect at the next cold reset. -/
  lockOtp : LockState := .open_
  /-- The first of the two writes of R462: the target code, and its edge. Reset: none. -/
  lockWrite : Option (BitVec 2 × Nat) := none
  /-- SEC_STATUS.BOOT_WRITE_BUSY: the kind of the write in progress, firmware = true (R456). Reset: none. -/
  bootWrite : Option Bool := none
  /-- SEC_STATUS.BOOT_REFUSED, W1C, reset 0. -/
  bootRefused : Bool := false
  /-- SEC_STATUS.KEY_REFUSED, W1C, reset 0. -/
  keyRefused : Bool := false
  /-- SEC_STATUS.REVOKED, 4 bits, from OTP. -/
  revoked : BitVec 4 := 0
  /-- SEC_ROLLBACK.ROLLBACK (R455), 7 bits, from OTP. -/
  rollback : BitVec 7 := 0
  /-- SECURITY_VERSION running (R464), 7 bits. -/
  version : BitVec 7 := 0
  /-- The key table of the running firmware: keys 0 to 4 of 96 bytes, none where a key is unusable
  (R452, R453). Reset: empty, no firmware runs. -/
  keys : List (Option (List Byte)) := []
  /-- Key slots 0 to 15 (R457). Reset: slot 0 serves MODEL and STATE with the key that never leaves the
  device (Config.deviceKey); 1 to 14 cleared (R480); 15 as in OTP, not provisioned (log 3). -/
  slots : List KeySlot := { valid := true, model := true, state := true } :: List.replicate 15 {}
  /-- The firmware image of the boot store (R473), as bytes. -/
  firmware : List Byte := []
  /-- The image being written, and what it says. -/
  pendingImage : List Byte := []
  /-- The two boot-Outline copies of the boot store (R474). -/
  copies : List BootCopy := [{}, {}]
  /-- Which copy the running boot Outline came from (R456). Reset: none. -/
  copyInUse : Option Nat := none
deriving DecidableEq, Repr, Inhabited

/-- The whole state of the block. -/
structure State where
  /-- The commands that are waiting, first in, first out. Model's own; reset: empty. -/
  pending : List Instr
  /-- CTRL edges since P0 (R475). Model's own count; reset 0. -/
  edge : Nat
  /-- Free values drawn so far. Model's own, DESIGN CHOICE (log 2); reset 0. -/
  fresh : Nat
  /-- Every saturating counter of the control space that is not 0 (R10, R447). Reset: all 0 (R480). -/
  counts : List (Counter × Word)
  /-- The host-written registers. -/
  regs : HostRegs
  /-- The GLB block. -/
  glb : Glb
  /-- The TB block. -/
  tb : Tb
  /-- The RGN block. -/
  rgn : Rgn
  /-- The OTL block. -/
  otl : Otl
  /-- The 36 Graver cores by physical number (R18, R123). -/
  cores : List Core
  /-- The 4 clusters (R19). -/
  clusters : List Cluster
  /-- Jobs and the Margin engine. -/
  jobs : Jobs
  /-- The context manager. -/
  ctx : CtxMgr
  /-- The tier manager. -/
  tir : Tir
  /-- The memory channels. -/
  chn : Chn
  /-- Linework. -/
  lnw : Lnw
  /-- Sensor ingress. -/
  ing : Ing
  /-- The Tracing unit. -/
  trc : Trc
  /-- The Crosshatch planner. -/
  xh : Xh
  /-- The Stylus engines. -/
  sty : Sty
  /-- Ethernet and Limian. -/
  eth : Eth
  /-- Proof. -/
  prf : Prf
  /-- The Burnisher. -/
  brn : Brn
  /-- The security block and the boot store. -/
  sec : Sec
  /-- The four Plate slices (R437, R497). -/
  plt : List PlateSlice
deriving DecidableEq, Repr, Inhabited

/-- Why the machine stops with a fault. -/
inductive Fault where
  /-- A rail passed the absolute limits of R507: the manual says the device may be damaged and gives no
  further behaviour. Raised by VOLTAGE_TRIP. Safe: the machine stops. -/
  | beyondAbsoluteMaximum
deriving DecidableEq, Repr, Inhabited

/-- Why a command is refused. -/
inductive Refusal where
  /-- No meaning yet for the row of this mnemonic. Raised only by an arm of exec. Safe. -/
  | notModelled (mnemonic : String)
deriving DecidableEq, Repr, Inhabited

/-- The machine right after reset: P0 of a cold reset by power (R470, R480), no command waiting. -/
def State.reset : State where
  pending := []
  edge := 0
  fresh := 0
  counts := []
  regs := {}
  glb := {}
  tb := {}
  rgn := {}
  otl := {}
  cores := List.replicate 36 {}
  clusters := List.replicate 4 {}
  jobs := {}
  ctx := {}
  tir := {}
  chn := {}
  lnw := {}
  ing := {}
  trc := {}
  xh := {}
  sty := {}
  eth := {}
  prf := {}
  brn := {}
  sec := {}
  plt := List.replicate 4 {}

end Sys2Proof.Machine
end

