-- ==== Sys2Proof/Machine/Ports.lean ====
section
/-!
DEFINITION. The Ethernet ports as every block that sends a frame meets them: gates, shaper credit and the
transmit queues (R382, R383), and the Limian frames of the T7 with their sequence numbers and credits
(R395 to R399).
-/

namespace Sys2Proof.Machine

open Sys2Proof

/-! ## Ports -/

/-- The number of a port (R376). -/
def portNum : Port → Nat
  | .ringA => 0 | .ringB => 1 | .peer => 2 | .uplink => 3

/-- All ports, in the order of R376. -/
def allPorts : List Port := [.ringA, .ringB, .peer, .uplink]

/-- The port of a number. -/
def portOf (n : Nat) : Port := allPorts.getD n .uplink

/-- RING_A and RING_B (R376). -/
def isRing (p : Port) : Bool := p = .ringA || p = .ringB

/-- The MAC side of a port. -/
def State.ethPort (s : State) (p : Port) : EthPort := s.eth.ports.getD (portNum p) {}

def State.updPort (p : Port) (f : EthPort → EthPort) (s : State) : State :=
  { s with eth := { s.eth with ports := s.eth.ports.modify (portNum p) f } }

/-- The MAC address of a port: BASE + p (R376). -/
def macOf (p : Port) : BitVec 48 := Config.macBase + BitVec.ofNat 48 (portNum p)

/-! ## Gates (R383) -/

/-- The gate control list of a port; none keeps every gate open (R383). -/
def State.gateRec (s : State) (p : Port) : Option TsnGateRec := s.otl.running.gates.find? (·.port = portNum p)

/-- The gate of class `c` in entry `i` of a list. -/
def gateIn (l : List GateEntry) (i c : Nat) : Bool := (l.getD i {}).gates.getLsbD c

/-- The gate of class `c` on a port is open now. -/
def State.gateOpen (s : State) (p : Port) (c : Nat) : Bool := match s.gateRec p with
  | none => true
  | some g => gateIn g.entries (s.ethPort p).gateIndex c

/-- Ticks for which the gate of class `c` stays open from the start of entry `i`, over at most `n` entries. -/
def openRun (l : List GateEntry) (c : Nat) : Nat → Nat → Nat
  | 0, _ => 0
  | n + 1, i => if gateIn l i c then (l.getD i {}).interval + openRun l c n ((i + 1) % l.length) else 0

/-- Ticks until the gate of class `c` closes; none where it never closes (R383). -/
def State.gateLeft (s : State) (p : Port) (c : Nat) : Option Nat := match s.gateRec p with
  | none => none
  | some g =>
    if (List.range g.entries.length).all fun i => gateIn g.entries i c then none
    else
      let x := s.ethPort p
      some (openRun g.entries c g.entries.length x.gateIndex - (s.edge - x.gateEdge))

/-! ## The credit-based shaper (R382) -/

/-- A class that the network table marks for the credit-based shaper. -/
def State.shaped (s : State) (p : Port) (c : Nat) : Bool := (s.eth.table.shaped.getD (portNum p) 0).getLsbD c

/-- A class that the network table marks express. -/
def State.express (s : State) (p : Port) (c : Nat) : Bool := (s.eth.table.express.getD (portNum p) 0).getLsbD c

/-- Credit up to this edge: it rises by idleSlope, is frozen while the gate is closed, and does not stay above 0
with no frame waiting (R382). 1 Mbit/s is 1/160 bit per edge. -/
def State.accrue (p : Port) (s : State) : State :=
  let x := s.ethPort p
  let credit := (List.range 8).map fun c =>
    let k := x.credit.getD c 0
    let up := k + ((s.edge - x.creditEdge) * s.eth.table.idleSlope.getD c 0 : Nat)
    if !s.shaped p c then 0
    else if !s.gateOpen p c then k
    else if x.txq.any (·.tc = c) then up
    else min 0 up
  s.updPort p fun x => { x with credit := credit, creditEdge := s.edge }

/-- A frame joins a port's transmit queue; it gets the next identifier. -/
def State.queueFrame (p : Port) (f : TxFrame) (s : State) : State :=
  let id := s.eth.nextFrame
  ({ s.accrue p with eth := { (s.accrue p).eth with nextFrame := id + 1 } }).updPort p fun x =>
    { x with txq := x.txq ++ [{ f with id := id, queuedEdge := s.edge }] }

/-! ## Limian frames of the T7 (R394 to R402) -/

/-- Session `i` (R395). -/
def State.session (s : State) (i : Nat) : Session := s.eth.sessions.getD i {}

def State.updSession (i : Nat) (f : Session → Session) (s : State) : State :=
  { s with eth := { s.eth with sessions := s.eth.sessions.modify i f } }

/-- The big-endian bytes of words. -/
def wordsBE (ws : List Word) : List Byte := ws.flatMap fun w => natBytesBE 4 w.toNat

/-- The words that big-endian bytes spell. -/
def bytesWordsBE : Nat → List Byte → List Word
  | 0, _ => []
  | n + 1, bs => wd (beNat (bs.take 4)) :: bytesWordsBE n (bs.drop 4)

/-- The words of a completion record, in its little-endian memory form (R171, R400). -/
def recordBits (f : NumFlags) : Nat :=
  flag f.kZero 16 + flag f.invalid 17 + flag f.overflow 18 + flag f.convSat 19 + flag f.accSat 20 +
  flag f.lateWait 21 + flag f.drypoint 22

/-- The eight words of a completion record (R171). -/
def CompRecord.words (r : CompRecord) : List Word :=
  [wd (r.status.toNat + 256 * r.opcode.toNat + recordBits r.flags), r.job,
   wd (r.index.toNat + 2 ^ 16 * r.slot + 2 ^ 21 * r.part + 2 ^ 24 * r.attempt), r.result,
   r.endTime.w0, r.endTime.w1, r.elapsed, r.detail]

/-- TYPE of a frame (R399). -/
def limType : LimBody → Nat
  | .openReply .. => 0x03 | .close => 0x04 | .regData .. => 0x11 | .regAck .. => 0x13 | .jobReply .. => 0x21
  | .jobDone .. => 0x23 | .objData .. => 0x31 | .objReply .. => 0x33 | .ctxReply .. => 0x41
  | .hintReply .. => 0x43 | .event .. => 0x50

/-- The body of a frame: one big-endian word for each item that the manual names, in its order (log 22); records
and timestamps byte for byte (R400, R402). -/
def limBody : LimBody → List Byte
  | .openReply st sess token credits => wordsBE [wd st.toNat, wd sess, token, wd credits]
  | .regData tag st ws => wordsBE ([tag, wd st.toNat] ++ ws)
  | .regAck tag st n => wordsBE [tag, wd st.toNat, wd n]
  | .jobReply tag st job => wordsBE [tag, wd st.toNat, job]
  | .jobDone tag r => wordsBE [tag] ++ wordsBytes r.words
  | .objData off data => wordsBE [wd off] ++ data
  | .objReply tag st => wordsBE [tag, wd st.toNat]
  | .ctxReply tag st ctx => wordsBE [tag, wd st.toNat, wd ctx]
  | .hintReply tag st => wordsBE [tag, wd st.toNat]
  | .event code ws => wordsBE [wd code] ++ (if code = 4 then wordsBytes ws else wordsBE ws)
  | .close => []

/-- Sessions open on a port. -/
def State.sessionsOn (s : State) (p : Port) : Nat := (s.eth.sessions.filter fun x => x.open_ && x.port = p).length

/-- CREDITS that the T7 advertises on a port: floor(256 / sessions open on it) (R396). -/
def State.creditsOn (s : State) (p : Port) : Nat := 256 / max 1 (s.sessionsOn p)

/-- A Limian frame of the T7 over Ethernet: 20-byte header and body (R394, R395); class 2 (R378). The host's MAC
address is the medium's. -/
def State.limFrame (s : State) (p : Port) (sess : Nat) (type flags : Nat) (seq ack token : Word) (body : List Byte) :
    TxFrame :=
  { tc := 2, bytes := natBytesBE 6 0 ++ natBytesBE 6 (macOf p).toNat ++ natBytesBE 2 0x88B5 ++
      wordsBE [wd (0x01000000 + type * 2 ^ 16 + flags * 2 ^ 8 + sess), seq, ack,
        wd (body.length * 2 ^ 16 + s.creditsOn p), token] ++ body }

/-- The frames of session `i` that its peer's credits allow and that have not been sent are sent (R396); they carry
the acknowledgement of every delivery so far. -/
def State.flush (i : Nat) (s : State) : State :=
  let x := s.session i
  let ready := (x.unacked.take x.peerCredits).drop x.sent
  if ready.isEmpty then s
  else
    (ready.foldl (fun s f => s.queueFrame x.port
      (s.limFrame x.port i (limType f.body) 1 f.seq x.rxNext x.token (limBody f.body))) s).updSession i fun y =>
      { y with sent := y.sent + ready.length, undelivered := 0,
               oldestEdge := if y.sent = 0 then s.edge else y.oldestEdge }

/-- The T7 sends a reliable frame in an open session (R396). -/
def State.sendTo (i : Nat) (b : LimBody) (s : State) : State :=
  if (s.session i).open_ then
    (s.updSession i fun x => { x with
      unacked := x.unacked ++ [{ seq := x.txSeq, body := b }], txSeq := x.txSeq + 1 }).flush i
  else s

/-- An ACK frame of session `i` (R396). -/
def State.sendAck (i : Nat) (s : State) : State :=
  let x := s.session i
  (s.queueFrame x.port (s.limFrame x.port i 0x01 1 0 x.rxNext x.token [])).updSession i fun y =>
    { y with undelivered := 0 }

/-- A reliable frame of session `i` is delivered in order: it leaves its receive slot, is acknowledged within 20 us
or after 8 deliveries, and is a valid frame of the session (R386, R396, R398). -/
def State.delivered (i : Nat) (s : State) : State :=
  let x := s.session i
  let s1 := (s.updPort x.port fun y => { y with rxq := y.rxq.eraseP (·.session = some i) }).updSession i fun y =>
    { y with
      rxNext := y.rxNext + 1
      lastValid := s.edge
      undelivered := y.undelivered + 1
      ackEdge := if y.undelivered = 0 then s.edge else y.ackEdge }
  if 8 ≤ x.undelivered + 1 then s1.sendAck i else s1

/-- The T7 sends a frame in every open session that passes a test. -/
def State.sendWhere (p : Session → Bool) (b : LimBody) (s : State) : State :=
  (List.range 16).foldl (fun s i => if p (s.session i) then s.sendTo i b else s) s

end Sys2Proof.Machine
end

