-- ==== Sys2Proof/Machine/Ops.lean ====
section
/-!
DEFINITION. The named operations over the state that more than one command uses: updates of one block,
counters, time, error records, events and replies, and the state of Proof.
-/

namespace Sys2Proof.Machine

open Sys2Proof

/-! ## Updates of one block -/

def State.updRegs (f : HostRegs → HostRegs) (s : State) : State := { s with regs := f s.regs }
def State.updGlb (f : Glb → Glb) (s : State) : State := { s with glb := f s.glb }
def State.updTb (f : Tb → Tb) (s : State) : State := { s with tb := f s.tb }
def State.updRgn (f : Rgn → Rgn) (s : State) : State := { s with rgn := f s.rgn }
def State.updOtl (f : Otl → Otl) (s : State) : State := { s with otl := f s.otl }
def State.updCores (f : List Core → List Core) (s : State) : State := { s with cores := f s.cores }
def State.updClusters (f : List Cluster → List Cluster) (s : State) : State :=
  { s with clusters := f s.clusters }
def State.updJobs (f : Jobs → Jobs) (s : State) : State := { s with jobs := f s.jobs }
def State.updCtx (f : CtxMgr → CtxMgr) (s : State) : State := { s with ctx := f s.ctx }
def State.updTir (f : Tir → Tir) (s : State) : State := { s with tir := f s.tir }
def State.updChn (f : Chn → Chn) (s : State) : State := { s with chn := f s.chn }
def State.updLnw (f : Lnw → Lnw) (s : State) : State := { s with lnw := f s.lnw }
def State.updIng (f : Ing → Ing) (s : State) : State := { s with ing := f s.ing }
def State.updTrc (f : Trc → Trc) (s : State) : State := { s with trc := f s.trc }
def State.updXh (f : Xh → Xh) (s : State) : State := { s with xh := f s.xh }
def State.updSty (f : Sty → Sty) (s : State) : State := { s with sty := f s.sty }
def State.updEth (f : Eth → Eth) (s : State) : State := { s with eth := f s.eth }
def State.updPrf (f : Prf → Prf) (s : State) : State := { s with prf := f s.prf }
def State.updBrn (f : Brn → Brn) (s : State) : State := { s with brn := f s.brn }
def State.updSec (f : Sec → Sec) (s : State) : State := { s with sec := f s.sec }
def State.updPlt (f : List PlateSlice → List PlateSlice) (s : State) : State :=
  { s with plt := f s.plt }
/-- Commands that are now due join the end of the queue. -/
def State.enqueue (cs : List Instr) (s : State) : State := { s with pending := s.pending ++ cs }

/-- Update core `n`. -/
def State.updCore (n : Nat) (f : Core → Core) (s : State) : State := s.updCores (·.modify n f)
/-- Update cluster `c`. -/
def State.updCluster (c : Nat) (f : Cluster → Cluster) (s : State) : State :=
  s.updClusters (·.modify c f)
/-- Core `n` (R18). -/
def State.core (s : State) (n : Nat) : Core := s.cores.getD n {}
/-- Cluster `c` (R18). -/
def State.cluster (s : State) (c : Nat) : Cluster := s.clusters.getD c {}

/-! ## Free values (log 2) -/

/-- The next free word, and the state that has drawn it. -/
def State.draw (s : State) : Word × State := (Config.freeWord s.fresh, { s with fresh := s.fresh + 1 })

/-- A free choice among `n` alternatives, and the state that has drawn it. -/
def State.choose (s : State) (n : Nat) : Nat × State :=
  (Config.freeChoice s.fresh % n, { s with fresh := s.fresh + 1 })

/-! ## Counters (R10, R71, R447) -/

/-- The value of a counter. -/
def State.count (s : State) (c : Counter) : Word := (s.counts.lookup c).getD 0

/-- The list of counters with one of them set. -/
def setCount (l : List (Counter × Word)) (c : Counter) (w : Word) : List (Counter × Word) :=
  if w = 0 then l.filter (·.1 != c) else (c, w) :: l.filter (·.1 != c)

/-- A counter rises by `n` and stops at all ones (R447). -/
def State.bumpBy (c : Counter) (n : Nat) (s : State) : State :=
  { s with counts := setCount s.counts c (wd (min 0xFFFFFFFF ((s.count c).toNat + n))) }

/-- A counter rises by 1 and stops at all ones (R447). -/
def State.bump (c : Counter) (s : State) : State := s.bumpBy c 1

/-- The block whose register table holds a counter (R482). -/
def Counter.block : Counter → Block
  | .tbOutlier | .tbJumpRefused | .tbForeignDomain | .tbPpsBad | .tbGcapOvf _ => .tb
  | .rgnLateDrop | .rgnLateDefer | .rgnLateReport | .rgnStepSkipped | .rgnProtectedWrite => .rgn
  | .otlCommitCount | .otlRefused | .otlCommitDiscard => .otl
  | .coreCheckFail n _ | .coreCheckFailDp n | .coreWashResidue n | .coreWeightLoads n
  | .coreLoadWait n | .coreAccWait n | .coreT1Conflict n | .coreLateWeights n | .coreDescCount n =>
    .core n
  | .pltCorr _ | .pltUncorr _ => .plt
  | .tirReadopted | .tirReadoptFail | .tirLateWeights | .tirPromotions | .tirEvictions
  | .tirDemotions | .tirDropped | .tirMirrorReads | .tirAllocWait | .tirSticky | .tirTimeouts
  | .tirLateDiscard => .tir
  | .chnGCrcRetry _ | .chnGEccCorr _ | .chnGEccUncorr _ | .chnGRetrains _ | .chnBCrcRetry _
  | .chnBEccCorr _ | .chnBEccUncorr _ | .chnBRetrains _ => .chn
  | .lnwCorr | .lnwUncorr | .lnwTimeouts | .lnwLateDiscard | .lnwLowered | .lnwRejected => .lnw
  | .ingPortErr _ | .ingFrames _ | .ingDrops _ | .ingRepeats _ | .ingDrifts _ | .ingOutliers _ => .ing
  | .trcBirthRefused | .trcConflicts | .trcDemotions | .trcSensorFaults | .trcLateLists
  | .trcCalViol _ => .trc
  | .xhQueries | .xhNoPath | .xhTimeouts | .xhRepairs | .xhRepairFailed | .xhTruncated
  | .xhPlanStale | .xhCacheMiss => .xh
  | .styLaunches | .styMissed | .styChFaults | .styHolds | .styEngineFaults | .styRefBad
  | .styOutSat | .styIClamp => .sty
  | .ethGateMiss | .ethFwdDiscard | .ethPartnerFull | .ethLimBad | .ethLimOoo | .ethLimRetx
  | .ethLimLost | .ethCqOverwrite | .ethRxFrames _ | .ethRxDrop _ | .ethPsfpDrop _ | .ethFrerDup _
  | .ethFrerRogue _ | .ethMacsecDrop _ | .ethLinkDown _ | .ethTxFrames _ => .eth
  | .prfDisagree | .prfReruns | .prfMissedLaunch | .prfFrozenEvents | .prfSliceAbort | .prfSliceSkip
  | .prfSliceFail | .prfDiagMissed | .prfGateFail | .prfEccCorr | .prfReleaseRefused => .prf
  | .brnRotationLate | .brnRestarts | .brnSpared | .brnRetired | .brnTransient | .brnLogLost
  | .brnPllSwitch | .brnPlateCorr => .brn
  | .ctxCowCopies | .ctxSticky | .ctxEvicted | .ctxLimitHits | .ctxDamaged | .ctxRecSwapIn
  | .ctxRecSwapOut | .ctxRecGateSamples | .ctxRecImportReject => .ctx

/-- The SAT bit of a block: some counter of it stands at all ones (R447). -/
def State.sat (s : State) (b : Block) : Bool :=
  s.counts.any fun c => c.1.block = b && c.2 = 0xFFFFFFFF

/-- CNT_CLEAR of a block: its counters start again from 0, and its SAT bit falls (R447). -/
def State.clearCounts (b : Block) (s : State) : State :=
  { s with counts := s.counts.filter fun c => c.1.block != b }

/-! ## Time (R37, R52) -/

/-- Units of 2^-32 ns in a nanosecond, a second and a CTRL period (R37, R38). -/
def unitsNs : Int := 4294967296
def unitsSec : Int := 1000000000 * 4294967296
def unitsEdge : Int := 26843545600
/-- CTRL edges in a microsecond, a millisecond and a second of nominal clock (R32). -/
def edgesUs : Nat := 160
def edgesMs : Nat := 160000
def edgesSec : Nat := 160000000

/-- Local time in units. -/
def BaseTime.units (t : BaseTime) : Int :=
  ((t.sec.toNat : Int) * 1000000000 + t.ns.toNat) * unitsNs + t.frac.toNat

/-- Local time from units; seconds wrap at 2^48 (R37). -/
def timeOfUnits (u : Int) : BaseTime where
  sec := BitVec.ofInt 48 (u.fdiv unitsSec)
  ns := BitVec.ofInt 30 ((u.fmod unitsSec).fdiv unitsNs)
  frac := BitVec.ofInt 32 (u.fmod unitsNs)

/-- Local time now. -/
def State.now (s : State) : Int := s.tb.time.units

/-- The compact stamp of a time: the low 34 bits of seconds, rounded down to a nanosecond (R52). -/
def compactOf (u : Int) : Compact :=
  let t := timeOfUnits u
  { w0 := wd (t.ns.toNat + 2 ^ 30 * (t.sec.toNat % 4)), w1 := wd (t.sec.toNat / 4) }

/-- A compact stamp is well formed when NS is below 10^9 (R52). -/
def compactOk (c : Compact) : Bool := decide (fld c.w0 29 0 < 1000000000)

/-- The time that a compact stamp names within its 2^34 s. -/
def compactRaw (c : Compact) : Int :=
  (((c.w1.toNat * 4 + fld c.w0 31 30 : Nat) : Int)) * unitsSec + (fld c.w0 29 0 : Nat) * unitsNs

/-- The time a compact stamp names nearest to a local time: the difference is taken modulo 2^34 s as a
signed value (R52). -/
def compactNear (c : Compact) (now : Int) : Int :=
  let m := 2 ^ 34 * unitsSec
  let d := (compactRaw c - now).fmod m
  if d < m / 2 then now + d else now + d - m

/-- The 10-byte IEEE 1588 timestamp of a time, big-endian, rounded down (R63). -/
def ptpBytes (u : Int) : List Byte :=
  let t := timeOfUnits u
  natBytesBE 6 t.sec.toNat ++ natBytesBE 4 t.ns.toNat

/-- A clamped signed number of nanoseconds, within +-(2^31 - 1) (TB_OFFSET, R491). -/
def nsClamped (u : Int) : BitVec 32 :=
  BitVec.ofInt 32 (clampInt (-2147483647) 2147483647 (u.tdiv unitsNs))

/-- The addend's trim in force: the rate trim comes first, and the slew is reduced so that the sum stays
within +-200 ppm (R38, R45). -/
def trimClamp (x : Int) : Int := clampInt (-5368709) 5368709 x

/-! ## The running Outline -/

/-- The running Outline. -/
def State.otlNow (s : State) : Outline := s.otl.running
/-- The PARTITION record of partition p in the running Outline. -/
def State.partRec (s : State) (p : Nat) : Option PartitionRec :=
  s.otl.running.partitions.find? (·.part = p)
/-- Partition p exists and is SUPERVISED (R77). -/
def State.supervised (s : State) (p : Nat) : Bool := (s.partRec p).any (·.supervised)
/-- A partition reset of p runs (R472). -/
def State.resetting (s : State) (p : Nat) : Bool := s.glb.partReset.any fun m => m.getLsbD p

/-! ## Limian frames of the T7 (R396 to R402) -/

/-- A request in session `i`: outside an open session its frame is discarded and counted (R395). -/
def State.request (i : Nat) (go : Session → State → State) (s : State) : State :=
  let x := s.session i
  if x.open_ then go x (s.delivered i) else s.bump .ethLimBad

/-- An event for a partition, or device-wide (R402). -/
def State.event (part : Option Nat) (code : Nat) (words : List Word) (s : State) : State :=
  s.sendWhere (fun x => match part with
    | none => true
    | some p => x.part = some p) (.event code words)

/-! ## Error records (R443 to R446) -/

/-- The level of a unit kind (R13, R443). -/
def kindLevel (kind : Nat) : Nat :=
  if kind = 1 then 1 else if kind = 2 then 2 else if kind = 3 then 3
  else if kind = 4 ∨ kind = 5 then 5 else 4

/-- The unit's count for a code after the event (R443). -/
def Brn.eventCount (b : Brn) (kind inst code : Nat) : Nat :=
  min 0xFFFFFFFF (((b.events.find? fun e => e.1 = kind && e.2.1 = inst && e.2.2.1 = code).map
    (·.2.2.2)).getD 0 + 1)

/-- A unit reports: a record leaves for the Burnisher (R443, R446). -/
def State.report (kind unit cls action code : Nat) (part : Option Nat) (job : Word) (detail : Nat)
    (s : State) : State :=
  let n := s.brn.eventCount kind unit code
  s.updBrn fun b =>
    { b with
      inbox := b.inbox ++ [
        { time := compactOf s.now, kind := kind, inst := unit, level := kindLevel kind, cls := cls,
          action := action, part := part, code := code, job := job, count := wd n,
          detail := wd detail }]
      events := (kind, unit, code, n) ::
        b.events.filter fun e => !(e.1 = kind && e.2.1 = unit && e.2.2.1 = code) }

/-- The eight words of an error record (R443). -/
def ErrorRecord.words (r : ErrorRecord) : List Word :=
  [r.time.w0, r.time.w1,
   wd (r.kind * 2 ^ 10 + r.inst + r.level * 2 ^ 16 + r.cls * 2 ^ 19 + flag r.preReset 22 +
     flag r.part.isSome 23 + (r.part.getD 0) * 2 ^ 24),
   wd (r.code + r.action * 2 ^ 16), r.job, r.count, r.detail, r.seq]

/-! ## Proof's state and pins (R421 to R425) -/

/-- A rule set that has escalated with an action. -/
def RuleSetState.stops (r : RuleSetState) : Bool := r.escalated && decide (1 ≤ r.action)

/-- The causes in PRF_FAULT_CAUSE (R430). -/
def Prf.faultBits (p : Prf) : Nat :=
  flag (p.sets.any (·.escalated)) 0 + flag (p.slices.any (·.missed) || !p.diagCores.isEmpty) 1 +
  flag p.gateTable.isSome 2 + flag p.sensorFault.isSome 3 +
  flag (p.stopped && p.safeCause = 0) 4 + flag (p.safeCause != 0) 5

/-- The state of Proof is the most severe that a cause gives, and the pins follow it (R422, R425). -/
def Prf.settle (p : Prf) : Prf :=
  let st : ProofState := if p.safeCause ≠ 0 then .safeState else if p.stopped then .stopped
    else if p.sets.any (·.escalated) then .degraded else .run
  let stop := st = .stopped || st = .safeState
  { p with
    state := st
    stopA := stop
    stopB := stop
    readA := !stop
    readB := !stop
    safePin := st = .safeState
    faultN := decide (p.faultBits ≠ 0)
    wdo := p.wdo && st != .safeState }

/-- A stop sequence number wraps and skips 0 (R422). -/
def nextStopSeq (w : Word) : Word := if w + 1 = 0 then 1 else w + 1

/-- A cause of STOPPED arises (R422): PRF_STOP_SEQ rises, and the frames before it count no more. -/
def State.proofStop (s : State) : State :=
  s.updPrf fun p => Prf.settle { p with
    stopped := true
    stopSeq := nextStopSeq p.stopSeq
    sets := p.sets.map fun r => { r with goodSinceStop := 0 } }

/-- A cause of SAFE_STATE arises, bit `n` of PRF_SAFE_CAUSE; the record is 0x0073 (R422, R445). -/
def State.proofSafe (n : Nat) (s : State) : State :=
  let c := s.prf.safeCause ||| BitVec.ofNat 8 (2 ^ n)
  (s.updPrf fun p => Prf.settle { p with safeCause := c }).report 0x0E 0 4 9 0x0073 none 0 c.toNat

/-- The SAFETY_RULE record of rule set `n`. -/
def State.ruleSet (s : State) (n : Nat) : Option RuleSetRec :=
  s.otl.running.ruleSets.find? (·.set = n)

/-- One frame of rule set `n` closes (R416, R421), with what its CHECK messages found: the window moves on, N of M disagreeing frames
escalate the set, and M frames that do not disagree in a row clear it. -/
def State.closeFrame (n : Nat) (fr : RuleFrame) (s : State) : State :=
  match s.ruleSet n with
  | none => s
  | some rec =>
    let r := s.prf.sets.getD n {}
    let fr : RuleFrame := { disagreed := fr.disagreed || r.open_.disagreed, action := max fr.action r.open_.action }
    let window := (fr :: r.window).take rec.m
    let bad := window.filter (·.disagreed)
    let goodRun := if fr.disagreed then 0 else r.goodRun + 1
    let good := if fr.disagreed then 0 else r.goodSinceStop + 1
    let hit := fr.disagreed && decide (rec.n ≤ bad.length)
    let act := (bad.map (·.action)).foldl max 0
    let newly := hit && (!r.escalated || decide (r.action < act))
    let esc := hit || (r.escalated && decide (goodRun < rec.m))
    let r' := { r with
      window, open_ := {}, openGates := 0, goodRun, goodSinceStop := good, escalated := esc
      action := if hit then max act (if r.escalated then r.action else 0) else r.action }
    let s1 := s.updPrf fun p => Prf.settle { p with sets := p.sets.set n r' }
    if newly then
      let s2 := s1.report 0x0E 0 (if act = 2 then 4 else 5)
        (if act = 0 then 6 else if act = 1 then 10 else 9) 0x0071 (some rec.part) 0 (n + 16 * act)
      if act = 1 then s2.proofStop else if act = 2 then s2.proofSafe 5 else s2
    else s1

/-- A firing that is reported to Proof as missed (R59, R416): a firing of rule set `set` counts as a
disagreeing frame of it. -/
def State.missedLaunch (set : Option Nat) (s : State) : State :=
  match set with
  | none => s.bump .prfMissedLaunch
  | some n => (s.bump .prfMissedLaunch).closeFrame n { disagreed := true, action := 0 }

end Sys2Proof.Machine
end

