-- ==== Sys2Proof/Machine/TierOps.lean ====
section
/-!
DEFINITION. Operations of the tier manager that several commands share: sizes and usage, allocation in
T2, T3 and T4, eviction, references and versions, fetches, and the Tier Writer's queue (R250 to R277).
-/

namespace Sys2Proof.Machine

open Sys2Proof

/-! ## Sizes (R256, R258, R259) -/

/-- 4 KiB units of a number of bytes. -/
def unitsOf (bytes : Nat) : Nat := (bytes + 4095) / 4096
def ObjVersion.size (o : ObjVersion) : Nat := max 1 (unitsOf o.len)
def ObjVersion.extents (o : ObjVersion) : Nat := (o.size + 63) / 64
/-- Units of T2 that an extent takes: one Plate bank, also where the last is partial (R258). -/
def extentUnits : Nat := 64
/-- Units of T2 that a number of bytes takes in whole extents. -/
def bankUnits (bytes : Nat) : Nat := extentUnits * ((bytes + 262143) / 262144)
/-- Every extent is PRESENT. -/
def ObjVersion.full (o : ObjVersion) : Bool := (List.range o.extents).all o.present.contains
/-- Bytes of an extent table, while the object has an extent in T2. -/
def ObjVersion.tableBytes (o : ObjVersion) : Nat :=
  if o.present.isEmpty && o.filling.isEmpty then 0 else (4 * o.extents + 63) / 64 * 64
/-- Bytes of T2 that a version's present extents and its table use (R269). -/
def ObjVersion.t2Bytes (o : ObjVersion) : Nat := 262144 * o.present.length + o.tableBytes
/-- Units that a version takes in T3, its mirror included. -/
def ObjVersion.t3Units (o : ObjVersion) : Nat := o.size * (toBit o.t3.isSome + toBit o.t3Mirror.isSome)

/-- T3 units of the snapshot of a state region. -/
def StateRegion.snapUnits (r : StateRegion) : Nat := max 1 (unitsOf (64 * r.units))

/-- The sum of a list. -/
def total (l : List Nat) : Nat := l.foldl (· + ·) 0

/-! ## Usage (R269) -/

/-- Bytes of T2 that a job's Plate-local area and OPEN outputs take. -/
def Job.plateBytes (j : Job) : Nat :=
  if j.slots.isEmpty then 0
  else 4096 * (j.chain.plateLocal + total (j.outs.map fun o => bankUnits (o.fixedLen.getD o.extent)))

/-- Usage of T2 of partition p, in units. -/
def State.useT2 (s : State) (p : Nat) : Nat :=
  unitsOf (total ((s.tir.objs.filter (·.part = p)).map ObjVersion.t2Bytes) +
    total ((s.jobs.list.filter (·.part = p)).map Job.plateBytes))

/-- Units of pages and snapshots of partition p in T3. -/
def State.kvT3 (s : State) (p : Nat) : Nat :=
  total ((s.ctx.pages.filter (·.part = p)).map fun g => toBit g.inT3 + toBit (g.inT3 && g.mirrorUnit.isSome)) +
  total ((s.ctx.table.filter (·.part = p)).map fun c => match c.rec_ with
    | some r => r.snapUnits * (toBit r.snapshot.isSome + toBit r.snapMirror.isSome)
    | none => 0)

/-- Usage of T3 of partition p, in units. -/
def State.useT3 (s : State) (p : Nat) : Nat :=
  total ((s.tir.objs.filter (·.part = p)).map ObjVersion.t3Units) + s.kvT3 p

/-- Usage of T4 of partition p, in units. -/
def State.useT4 (s : State) (p : Nat) : Nat :=
  total ((s.tir.objs.filter fun o => o.part = p && o.t4.isSome).map ObjVersion.size)

/-- Usage of a tier by a partition. -/
def State.usage (s : State) (tier p : Nat) : Nat :=
  if tier = 2 then s.useT2 p else if tier = 3 then s.useT3 p else s.useT4 p

/-- The floor of a partition in a tier, in units (R77). -/
def State.floor (s : State) (tier p : Nat) : Nat :=
  match s.otl.running.tierPools.find? (·.part = p) with
  | none => 0
  | some f => if tier = 2 then 64 * f.t2Floor else if tier = 3 then 256 * f.t3Floor else 256 * f.t4Floor

/-! ## Pools (R198, R231, R255, R342) -/

/-- Usable Plate in units: the banks of the powered slices (R250, R437). -/
def State.plateUnits (s : State) : Nat :=
  64 * total (s.plt.map fun x => if x.powered then 160 - (x.retired.length - 8) else 0)

/-- Sizes of one map buffer in units (R342). -/
def LatticeRec.mapUnits (l : LatticeRec) : Nat := 64 * ((l.mapX * l.mapY * 16 + 262143) / 262144)

/-- The T2 pool in units (R255): the main directory and the staging area take 32 banks. -/
def State.t2Pool (s : State) : Nat :=
  let o := s.otl.running
  let rec_ := total (o.pools.map (·.recStreams))
  s.plateUnits - (32 * 64 + (if o.pools.any (·.contexts != 0) then 64 * 68 else 0) +
    total (o.pools.map (·.kvPages)) + (2 * rec_ + 63) / 64 * 64 +
    (match o.lattice with
     | some l => 2 * l.mapUnits
     | none => 0))

/-- Units of T2 that a frame of a payload length takes, in whole extents (R308). -/
def frameUnits (bytes : Nat) : Nat := 64 * ((64 + bytes + 262143) / 262144)

/-- Units of T2 that landed frames and frames in progress take (R308). -/
def State.landedUnits (s : State) : Nat :=
  total (s.ing.streams.flatMap fun x => (x.versions.map fun f => frameUnits f.payload.length) ++
    x.open_.toList.map fun o => frameUnits o.payload.length)

/-- Units of extents that fetches fill: taken, though not yet used (R259, R269). -/
def State.fillingUnits (s : State) : Nat := extentUnits * total (s.tir.objs.map (·.filling.length))

/-- Free units of the T2 pool. -/
def State.t2Free (s : State) : Nat :=
  s.t2Pool - (total ((List.range 8).map s.useT2) + s.landedUnits + s.fillingUnits)

/-- Units of T3 that copies may use, and of T4 by the fitted devices (R258, R276, R281). -/
def t3Units : Nat := 4194304

/-- Raw bytes of a board-store channel: at most 4 GiB on its two devices (R281). -/
def boardRaw (b : Nat) : Nat := min (2 ^ 32) (Config.boardRaw b false + Config.boardRaw b true)
/-- Usable units of the smallest board-store channel (R281, R284). -/
def boardUnits : Nat := ((List.range 16).map fun b => boardRaw b * 8 / 9 / 4096).foldl min (2 ^ 32 * 8 / 9 / 4096)
def State.t4Units (s : State) : Nat := if s.chn.t4Available then 16 * boardUnits else 0

/-! ## Unit ranges (R252, R258) -/

/-- A comes before B modulo 2^32 (R71). -/
def seqBefore (a b : Word) : Bool := a != b && decide ((b - a).toNat < 2 ^ 31)

/-! ## The directory mirror as words (R276) -/

/-- The 8 words of an entry of an image. -/
def MirrorEntry.words (e : MirrorEntry) : List Word :=
  let size := max 1 (unitsOf e.len)
  [e.obj,
   wd (e.ver + 2 ^ 16 * e.home + flag e.pin 19 + flag e.mirror 20 + 2 ^ 21 * e.source + 2 ^ 23 * e.part),
   wd size, wd e.t3, wd e.t3Mirror, e.crc, wd e.order, wd (e.len - (size - 1) * 4096)]

/-- The entry that 8 words spell. -/
def mirrorEntryOf (ws : List Word) : MirrorEntry :=
  let w (n : Nat) : Word := ws.getD n 0
  { obj := w 0, ver := fld (w 1) 15 0, home := fld (w 1) 18 16, pin := bit (w 1) 19, mirror := bit (w 1) 20
    source := fld (w 1) 22 21, part := fld (w 1) 25 23, len := (fld (w 2) 23 0 - 1) * 4096 + fld (w 7) 12 0
    t3 := fld (w 3) 21 0, t3Mirror := fld (w 4) 21 0, crc := w 5, order := fld (w 6) 15 0 }

/-- The words of an image: its header, and its entries (R276). -/
def mirrorImage (seq : Word) (time : Compact) (es : List MirrorEntry) : List Word :=
  let body := es.flatMap MirrorEntry.words
  let head : List Word := [0x54444952, seq, wd es.length, crcWords body, time.w0, time.w1] ++ List.replicate 9 0
  head ++ [crcWords head] ++ body

/-- SEQ and COUNT of an image. -/
def MirrorSlot.seq (m : MirrorSlot) : Word := m.words.getD 1 0
def MirrorSlot.count (m : MirrorSlot) : Nat := (m.words.getD 2 0).toNat

/-- MAGIC, HEADER_CRC and ENTRY_CRC all check (R278). -/
def MirrorSlot.valid (m : MirrorSlot) : Bool :=
  m.words.getD 0 0 == 0x54444952 && m.words.getD 15 0 == crcWords (m.words.take 15) && decide (m.count ≤ 65536) &&
    m.words.getD 3 0 == crcWords ((m.words.drop 16).take (8 * m.count))

/-- The entries of an image. -/
def MirrorSlot.entries (m : MirrorSlot) : List MirrorEntry :=
  (List.range m.count).map fun k => mirrorEntryOf ((m.words.drop (16 + 8 * k)).take 8)

/-- The first unit of a slot and of its mirror, and the units that its image takes (R276). -/
def slotStart (k : Nat) : Nat := if k = 0 then 0 else 528
def MirrorSlot.units (m : MirrorSlot) : Nat := unitsOf (4 * m.words.length)

/-- A logical Golent channel is LOST: its units can be neither read nor written (R292). -/
def State.lostLogical (s : State) (c : Nat) : Bool :=
  s.chn.golent.any fun x => x.state = .lost && x.logical.toNat = c

/-- Every unit of a slot's image can be read, from its mirror unit where it is lost (R276, R278). -/
def State.slotReadable (s : State) (k : Nat) (m : MirrorSlot) : Bool :=
  (List.range m.units).all fun i =>
    !s.lostLogical ((slotStart k + i) % 64) || !s.lostLogical ((slotStart k + 1056 + i) % 64)

/-- A slot that counts: readable and valid (R278). -/
def State.slotGood (s : State) (k : Nat) (m : MirrorSlot) : Bool := s.slotReadable k m && m.valid

/-- The newest valid image of the directory mirror, and its slot (R276, R278). -/
def State.newestImage (s : State) : Option (Nat × MirrorSlot) :=
  match s.tir.mirror with
  | [a, b] =>
    if s.slotGood 0 a && s.slotGood 1 b then (if seqBefore a.seq b.seq then some (1, b) else some (0, a))
    else if s.slotGood 0 a then some (0, a) else if s.slotGood 1 b then some (1, b) else none
  | _ => none

/-- The T3 ranges that a mirror image lists; unit 0 belongs to a slot, so 0 names no mirror. -/
def MirrorSlot.ranges (m : MirrorSlot) : List (Nat × Nat) :=
  m.entries.flatMap fun e =>
    (e.t3, max 1 (unitsOf e.len)) :: (if e.t3Mirror = 0 then [] else [(e.t3Mirror, max 1 (unitsOf e.len))])

/-! ## Free units (R252, R258) -/

/-- Two ranges meet. -/
def overlaps (a b : Nat × Nat) : Bool := decide (a.1 < b.1 + b.2) && decide (b.1 < a.1 + a.2)

/-- A freed range is writable again: 200 us have passed, and the newest image does not list it (R252). -/
def State.writable (s : State) (f : FreedUnits) : Bool :=
  decide (f.edge + 200 * edgesUs ≤ s.edge) &&
    (match s.newestImage with
     | none => false
     | some m => f.tier != 3 || !(m.2.ranges.any (overlaps (f.start, f.len))))

/-- The version is on its way to T4, which frees its units in T3 (R271). -/
def State.demoting (s : State) (o : ObjVersion) (tier : Nat) : Bool :=
  s.tir.writer.any fun w => w.kind = .demote && decide (tier < w.tier) && w.part = o.part && w.obj = o.obj && w.ver = o.ver

/-- The ranges of a tier that no new copy may take; with `soon`, those that stay taken when all units given up are
writable and all demotions done. -/
def State.takenOf (soon : Bool) (s : State) (tier : Nat) : List (Nat × Nat) :=
  let held := if soon then []
    else (s.tir.freed.filter fun f => f.tier = tier && !s.writable f).map fun f => (f.start, f.len)
  let writes := (s.tir.writer.filter fun w => w.tier = tier && w.placed).flatMap fun w =>
    (w.start :: w.mirrorStart.toList).map fun u => (u, w.len)
  let stays := s.tir.objs.filter fun o => !(soon && s.demoting o tier)
  let copies := stays.flatMap fun o =>
    ((if tier = 3 then o.t3.toList ++ o.t3Mirror.toList else o.t4.toList).map fun u => (u, o.size))
  let kv := if tier = 3 then
      (s.ctx.pages.filter (·.inT3)).flatMap (fun g =>
        (g.unit, 1) :: (g.mirrorUnit.toList.map fun u => (u, 1))) ++
      s.ctx.table.flatMap (fun c => match c.rec_ with
        | some r => (r.snapshot.toList ++ r.snapMirror.toList).map fun u => (u, r.snapUnits)
        | none => [])
    else []
  copies ++ kv ++ writes ++ held

/-- The ranges that no new copy may take now. -/
def State.taken (s : State) (tier : Nat) : List (Nat × Nat) := s.takenOf false tier

/-- Insert by a key; equal keys keep their order. -/
def insertOn {α : Type} (key : α → Nat) (x : α) : List α → List α
  | [] => [x]
  | y :: r => if key x < key y then x :: y :: r else y :: insertOn key x r

/-- A list sorted by a key. -/
def sortOn {α : Type} (key : α → Nat) (l : List α) : List α := l.foldl (fun acc x => insertOn key x acc) []

/-- The free ranges from `lo` to `hi` beside sorted taken ranges. -/
def gaps (hi : Nat) : Nat → List (Nat × Nat) → List (Nat × Nat)
  | lo, [] => if lo < hi then [(lo, hi - lo)] else []
  | lo, x :: r => (if lo < x.1 then [(lo, x.1 - lo)] else []) ++ gaps hi (max lo (x.1 + x.2)) r

/-- The free ranges of a tier beside taken ones. -/
def State.rangesBeside (s : State) (tier : Nat) (taken : List (Nat × Nat)) : List (Nat × Nat) :=
  gaps (if tier = 3 then t3Units else s.t4Units) (if tier = 3 then 2112 else 0) (sortOn (·.1) taken)

/-- The free ranges of a tier. -/
def State.freeRanges (s : State) (tier : Nat) : List (Nat × Nat) := s.rangesBeside tier (s.taken tier)

/-- Free units of T3 or T4 (R280). -/
def State.unitsFree (s : State) (tier : Nat) : Nat := total ((s.freeRanges tier).map (·.2))

/-- The `k`-th start at which `n` units fit. -/
def nthStart (n : Nat) : List (Nat × Nat) → Nat → Nat
  | [], _ => 0
  | x :: r, k =>
    let c := x.2 + 1 - n
    if n ≤ x.2 ∧ k < c then x.1 + k else nthStart n r (k - (if n ≤ x.2 then c else 0))

/-- Starts at which `n` units fit. -/
def startCount (n : Nat) (g : List (Nat × Nat)) : Nat :=
  total (g.map fun x => if n ≤ x.2 then x.2 + 1 - n else 0)

/-- A tier takes new copies: T4 when it is available and open, T3 when it is open (R292, R293). -/
def State.tierOpen (s : State) (tier : Nat) : Bool :=
  if tier = 3 then !s.chn.t3Closed else s.chn.t4Available && !s.chn.t4Closed

/-- Units for a copy: any place where they fit, the manual does not say which (log 2). -/
def State.allocUnits (s : State) (tier n : Nat) : Option Nat × State :=
  let g := s.freeRanges tier
  let c := startCount n g
  if c = 0 ∨ !s.tierOpen tier then (none, s)
  else let r := s.choose c; (some (nthStart n g r.1), r.2)

/-- Starts in free ranges at which the mirror of a copy fits: 32 channels apart (R258). -/
def mirrorStarts (start n : Nat) (g : List (Nat × Nat)) : List Nat :=
  g.filterMap fun x =>
    let u := x.1 + (start + 32 + 64 - x.1 % 64) % 64
    if u + n ≤ x.1 + x.2 then some u else none

/-- Units for the mirror of a copy (R258). -/
def State.allocMirror (s : State) (start n : Nat) : Option Nat × State :=
  let starts := mirrorStarts start n (s.freeRanges 3)
  match starts with
  | [] => (none, s)
  | _ => let r := s.choose starts.length; (starts[r.1]?, r.2)

/-- New T3 copies are mirrored where they ask for it, and always once a channel is LOST (R258, R292). -/
def State.mirrors (s : State) (wanted : Bool) : Bool := wanted || s.chn.t3Lost

/-- Units for a mirrored copy, its mirror 32 channels apart; without a mirror wanted, units alone (R258,
R292). -/
def State.allocBoth (s : State) (mirrored : Bool) (n : Nat) : Option (Nat × Option Nat) × State :=
  let a := s.allocUnits 3 n
  match a.1 with
  | none => (none, s)
  | some u =>
    if !mirrored then (some (u, none), a.2)
    else
      let s1 := a.2.updTir fun t => { t with writer := t.writer ++ [{ tier := 3, start := u, len := n }] }
      let m := s1.allocMirror u n
      match m.1 with
      | none => (none, s)
      | some v => (some (u, some v), { m.2 with tir := a.2.tir })

/-- Room for a copy of `n` units that is there or comes when units given up become writable, beside the writes that wait
(R252, R269). -/
def State.roomSoon (s : State) (tier n : Nat) (mirrored : Bool) : Bool :=
  let g := s.rangesBeside tier (s.takenOf true tier)
  let waits := total ((s.tir.writer.filter fun w => w.tier = tier && !w.placed).map fun w =>
    w.len * (1 + toBit w.mirrored))
  s.tierOpen tier && startCount n g != 0 && decide (waits + n * (1 + toBit mirrored) ≤ total (g.map (·.2)))

/-- A place of a free pair of units 32 apart, from a unit on the lower 32 channels (R260). -/
def pairStart (u : Nat) : Nat := if u % 64 < 32 then u else u / 64 * 64 + 64

/-- Units for a mirrored page: UNIT on the lower 32 channels and its mirror at UNIT + 32 (R260). -/
def State.allocPair (s : State) : Option Nat × State :=
  let g := s.freeRanges 3
  let both := g.flatMap fun a => g.filterMap fun b =>
    let lo := max a.1 (b.1 - 32)
    let hi := min (a.1 + a.2) (b.1 + b.2 - 32)
    if pairStart lo < hi then some (lo, hi) else none
  if both.isEmpty ∨ !s.tierOpen 3 then (none, s)
  else
    let r := s.choose both.length
    let x := both.getD r.1 (0, 0)
    let q := r.2.choose (x.2 - x.1)
    let u := pairStart (x.1 + q.1)
    (some (if u < x.2 then u else pairStart x.1), q.2)

/-! ## Versions and their fetches -/

/-- Update the versions that a test names. -/
def State.updObj (p : ObjVersion → Bool) (f : ObjVersion → ObjVersion) (s : State) : State :=
  s.updTir fun t => { t with objs := t.objs.map fun o => if p o then f o else o }

/-- One version by partition, ID and version number. -/
def isVer (part : Nat) (obj : Word) (ver : Nat) (o : ObjVersion) : Bool :=
  o.part = part && o.obj = obj && o.ver = ver

def State.version? (s : State) (part : Nat) (obj : Word) (ver : Nat) : Option ObjVersion :=
  s.tir.objs.find? (isVer part obj ver)

/-- A Plate address in 64 B units, where firmware places a frame, a region or an extent (log 2). -/
def State.drawAddr (s : State) : BitVec 22 × State :=
  let r := s.draw
  (r.1.setWidth 22, r.2)

/-- An address for each of a list of frames or extents. -/
def State.drawAddrs : List Nat → State → List (Nat × BitVec 22) × State
  | [], s => ([], s)
  | n :: r, s =>
    let a := s.drawAddr
    let q := State.drawAddrs r a.2
    ((n, a.1) :: q.1, q.2)

/-- Extents of a version get places in Plate, and its extent table one that is not 0 (R256, R259). -/
def State.withExtents (es : List Nat) (o : ObjVersion) (s : State) : ObjVersion × State :=
  let a := s.drawAddrs es
  let t := a.2.choose (2 ^ 22 - 1)
  if o.table = 0 then ({ o with addrs := o.addrs ++ a.1, table := BitVec.ofNat 22 (t.1 + 1) }, t.2)
  else ({ o with addrs := o.addrs ++ a.1 }, a.2)

/-- A version keeps the extents that a test names; without one it has no extent table. -/
def ObjVersion.keepExtents (p : Nat → Bool) (o : ObjVersion) : ObjVersion :=
  let present := o.present.filter p
  let filling := o.filling.filter p
  { o with present := present, filling := filling, addrs := o.addrs.filter fun x => p x.1
           table := if present.isEmpty && filling.isEmpty then 0 else o.table }

/-- A read in progress needs an extent (R259). -/
def State.inUse (s : State) (o : ObjVersion) (e : Nat) : Bool :=
  s.jobs.list.any fun j => j.slots.any fun x => x.inFlight.any fun i => i.uses.any fun u =>
    u.part = o.part && u.obj = o.obj && u.ver = o.ver && decide (u.first ≤ e) && decide (e ≤ u.last)

/-- Requests end: their tags are held, and what they had at Linework and in the channels' queues is gone (R157, R268,
R289, R448). -/
def State.dropTags (ts : List (BitVec 16)) (s : State) : State :=
  let hold (t : BitVec 16) : HeldTag := { tag := t, edge := s.edge }
  let clear (c : MemChannel) : MemChannel := { c with queue := c.queue.filter fun q => !ts.contains q.tag }
  ((s.updTir fun t => { t with
    requests := t.requests.filter fun r => !ts.contains r.tag
    held := t.held ++ ts.map hold }).updLnw fun l => { l with
      txs := l.txs.filter fun x => !ts.contains x.tag
      held := l.held ++ ((l.txs.filter fun x => ts.contains x.tag).map (·.tag)).map hold }).updChn fun c => { c with
        golent := c.golent.map clear, board := c.board.map clear }

/-- A job's slot waits for an extent: its request is in flight, or waits for room or at a limit. -/
def State.awaits (s : State) (job : Word) (slot : Nat) : Bool :=
  (s.tir.requests.any fun r => r.askers.contains (job, slot)) ||
    (s.tir.waits.any fun w => w.obj != 0 && w.job = job && w.slot = slot) ||
    s.lnw.waiting.any fun w => w.job = job && w.slot = slot

/-- The core of a slot of a job. -/
def State.askerCore (s : State) (a : Word × Nat) : Option Nat :=
  (s.jobs.list.find? (·.id = a.1)).bind fun j => (j.slots[a.2]?).map (·.core)

/-- Cores that waited for an extent go on, where they wait for no other (R266). -/
def State.wake (as : List (Word × Nat)) (s : State) : State :=
  as.foldl (fun s a =>
    if s.awaits a.1 a.2 then s
    else match s.askerCore a with
      | none => s
      | some n => s.updCore n fun c => if c.state = .waitWeights then { c with state := .running } else c) s

/-- Every fetch of a version ends without its extent; the slots that waited go on, and their reads find what the version
has become. -/
def State.endFetches (o : ObjVersion) (s : State) : State :=
  let mine (part : Nat) (obj : Word) (ver : Nat) : Bool := isVer part obj ver o
  let rs := s.tir.requests.filter fun r => mine r.part r.obj r.ver
  let ws := s.tir.waits.filter fun w => mine w.part w.obj w.ver
  let ps := s.lnw.waiting.filter fun w => mine w.part w.obj w.ver
  let as := rs.flatMap (·.askers) ++ ws.map (fun w => (w.job, w.slot)) ++ ps.map fun w => (w.job, w.slot)
  ((((s.dropTags (rs.map (·.tag))).updTir fun t => { t with
    waits := t.waits.filter fun w => !mine w.part w.obj w.ver }).updLnw fun l => { l with
      waiting := l.waiting.filter fun w => !mine w.part w.obj w.ver }).updObj (isVer o.part o.obj o.ver) fun x =>
        x.keepExtents fun e => x.present.contains e).wake as

/-- A command waits for the check of a version, which moves to the front (R257, R278). -/
def State.awaitCheck (o : ObjVersion) (w : CheckWait) (s : State) : State :=
  (s.updObj (isVer o.part o.obj o.ver) fun x => { x with raised := true }).updTir fun t => { t with
    checkWaits := t.checkWaits ++ [{ w with part := o.part, obj := o.obj, ver := o.ver }] }

/-! ## Freeing copies (R252, R270, R271) -/

/-- Units of a tier become free, but not yet writable. -/
def State.giveUp (tier start len : Nat) (s : State) : State :=
  s.updTir fun t => { t with freed := t.freed ++ [{ tier := tier, start := start, len := len, edge := s.edge }] }

/-- The units of a write are given up unread. -/
def State.giveBack (w : TierWrite) (s : State) : State :=
  if w.placed ∧ w.kind ≠ .rebuild then (w.start :: w.mirrorStart.toList).foldl (fun s u => s.giveUp w.tier u w.len) s else s

/-- Writes that a test names are withdrawn from the Tier Writer. -/
def State.dropWrites (p : TierWrite → Bool) (s : State) : State :=
  let gone := s.tir.writer.filter p
  gone.foldl (fun s w => s.giveBack w) (s.updTir fun t => { t with writer := t.writer.filter fun w => !p w })

/-- Loads that a test names end without a version (R401). -/
def State.dropLoads (p : LoadOp → Bool) (s : State) : State :=
  let mine := s.tir.loads.filter p
  let of (part : Nat) (obj : Word) : Bool := mine.any fun l => l.obj = obj && l.part = part
  (s.dropWrites fun w => w.kind = .load && of w.part w.obj).updTir fun t => { t with
    loads := t.loads.filter fun l => !p l
    objs := t.objs.filter fun o => !(o.state = .writing && of o.part o.obj) }

/-- The copy of a version in T3 or T4 is freed; the listed set of the mirror changes with a T3 copy. -/
def State.freeCopy (tier : Nat) (o : ObjVersion) (s : State) : State :=
  if tier = 3 then
    let s1 := (o.t3.toList ++ o.t3Mirror.toList).foldl (fun s u => s.giveUp 3 u o.size) s
    (s1.updObj (isVer o.part o.obj o.ver) fun x => { x with t3 := none, t3Mirror := none, gone := [] }).updTir
      fun t => { t with mirrorDirty := t.mirrorDirty || o.t3.isSome }
  else
    let s1 := o.t4.toList.foldl (fun s u => s.giveUp 4 u o.size) s
    s1.updObj (isVer o.part o.obj o.ver) fun x => { x with t4 := none }

/-- A version is freed in every tier and its entry becomes free. -/
def State.freeVersion (o : ObjVersion) (s : State) : State :=
  let s1 := ((s.endFetches o).freeCopy 3 o).freeCopy 4 o
  s1.updTir fun t => { t with objs := t.objs.filter fun x => !isVer o.part o.obj o.ver x }

/-- An older version is freed once it has no VREFs and no tier references (R253). -/
def ObjVersion.dead (o : ObjVersion) : Bool :=
  !o.newest && o.vrefs = 0 && o.refsT2 = 0 && o.refsT3 = 0 && o.state != .open_ && o.state != .writing

/-- Every such version is freed. -/
def State.reap (s : State) : State :=
  (s.tir.objs.filter ObjVersion.dead).foldl (fun s o => s.freeVersion o) s

/-- Jobs that have bound a version read it no more (R257). -/
def State.markGone (o : ObjVersion) (s : State) : State :=
  s.updJobs fun q => { q with list := q.list.map fun j => { j with
    bound := j.bound.map fun b => if isVer b.part b.obj b.ver o then { b with gone := true } else b } }

/-- A version has no copy left: its state says why, and its binds and fetches end (R257). -/
def State.loseCopies (st : DirState) (o : ObjVersion) (s : State) : State :=
  ((s.updObj (isVer o.part o.obj o.ver) fun x =>
    { (x.keepExtents fun _ => false) with state := st, promoT2 := false, promoT3 := false }).markGone o).endFetches o

/-- A version loses its last copy: ABSENT where the host or T4 can supply it again (R257, R271). -/
def State.makeAbsent (o : ObjVersion) (s : State) : State :=
  (((s.loseCopies .absent o).updObj (isVer o.part o.obj o.ver) fun x => { x with absentSeq := s.tir.absentNext })).updTir
    fun t => { t with absentNext := t.absentNext + 1 }

/-- Another tier holds a whole copy. -/
def ObjVersion.otherCopy (o : ObjVersion) (tier : Nat) : Bool :=
  (tier != 2 && o.full) || (tier != 3 && o.t3.isSome) || (tier != 4 && o.t4.isSome)

/-- A copy is a candidate for eviction from its tier (R270, R271, R278). -/
def ObjVersion.candidate (o : ObjVersion) (tier : Nat) : Bool :=
  (o.state = .sealed || o.state = .rebuilding || o.state = .verifying) && !o.promoting &&
    !(o.home = tier && (o.pin || o.hpin)) &&
    (if tier = 2 then !o.present.isEmpty && o.refsT2 = 0
     else if tier = 3 then o.t3.isSome && o.refsT3 = 0 else o.t4.isSome && o.source != 1)

/-- The order of candidates: partitions that the Outline lacks first, then LAST_USE, the lower ID, the
older version (R270, R278). -/
def State.candBefore (s : State) (a b : ObjVersion) : Bool :=
  let orphan (o : ObjVersion) : Nat := toBit (s.partRec o.part).isSome
  if orphan a ≠ orphan b then orphan a < orphan b
  else if a.lastUse ≠ b.lastUse then a.lastUse < b.lastUse
  else if a.obj ≠ b.obj then a.obj.toNat < b.obj.toNat
  else a.ver < b.ver

/-- Insert by an order. -/
def insertBy {α : Type} (lt : α → α → Bool) (x : α) : List α → List α
  | [] => [x]
  | y :: r => if lt x y then x :: y :: r else y :: insertBy lt x r

def State.candidates (s : State) (tier : Nat) : List ObjVersion :=
  (s.tir.objs.filter (·.candidate tier)).foldl (fun acc o => insertBy s.candBefore o acc) []

/-! ## The Tier Writer's queue (R252, R261, R269) -/

/-- A write joins the Tier Writer's queue (R252). -/
def State.queueWrite (w : TierWrite) (s : State) : State := s.updTir fun t => { t with writer := t.writer ++ [w] }

/-- The Tier Writer is already to write this version into a tier. -/
def State.writing (s : State) (o : ObjVersion) (tier : Nat) : Bool :=
  s.tir.writer.any fun w => w.kind != .kvPage && w.kind != .swap && w.kind != .rebuild && w.part = o.part && w.obj = o.obj &&
    w.ver = o.ver && w.tier = tier

/-- Units for a write: in T3 with those of its mirror, where it has one. -/
def State.alloc (w : TierWrite) (s : State) : Option (Nat × Option Nat) × State :=
  if w.tier = 3 then s.allocBoth w.mirrored w.len
  else let r := s.allocUnits w.tier w.len; (r.1.map fun u => (u, none), r.2)

/-- A write is queued where it has units, or will have them when units given up are writable. -/
def State.queueIf (w : TierWrite) (s : State) : Bool × State :=
  let a := s.alloc w
  match a.1 with
  | some u => (true, a.2.queueWrite { w with start := u.1, mirrorStart := u.2, placed := true })
  | none =>
    if s.roomSoon w.tier w.len w.mirrored then (true, s.queueWrite { w with placed := false }) else (false, s)

/-- The write of a copy of a version into a tier; new T3 copies are mirrored where they ask for it (R258, R292). -/
def State.copyWrite (s : State) (kind : TierWriteKind) (o : ObjVersion) (tier : Nat) : TierWrite :=
  { kind := kind, part := o.part, obj := o.obj, ver := o.ver, tier := tier, len := o.size
    mirrored := tier = 3 && s.mirrors o.mirror }

/-- T3_SHORT: a demotion or load found no T3 room (R280). -/
def State.shortT3 (s : State) : State := s.updTir fun t => { t with t3Short := true }

/-- A demotion of a version into a tier, where that has room (R271). -/
def State.startDemotion (o : ObjVersion) (tier : Nat) (s : State) : Bool × State :=
  if s.writing o tier then (true, s)
  else
    let r := s.queueIf (s.copyWrite .demote o tier)
    if r.1 ∨ tier ≠ 3 then r else (false, r.2.shortT3)

/-- A last copy that was produced on the device is demoted: from T2 to T3, or to T4 where T3 has no room; where neither
has room it is passed over (R271). -/
def State.demoteLast (tier : Nat) (o : ObjVersion) (s : State) : State :=
  if tier = 2 then
    let r := s.startDemotion o 3
    if r.1 then r.2 else (r.2.startDemotion o 4).2
  else if tier = 3 then (s.startDemotion o 4).2 else s

/-! ## Eviction (R269 to R271) -/

/-- Units of T2 that demotions in progress will free. -/
def State.comingT2 (s : State) : Nat :=
  total ((s.tir.objs.filter fun o => s.demoting o 2 && !o.otherCopy 2).map fun o => extentUnits * o.present.length)

/-- A tier has room for `need` units, what is on its way out included. -/
def State.fits (s : State) (tier need : Nat) (mirrored : Bool) : Bool :=
  if tier = 2 then decide (need ≤ s.t2Free + s.comingT2) else s.roomSoon tier need mirrored

/-- Units by which the usage of a version's partition may fall for partition q: all of it is q's own or a partition's that
the Outline lacks, and down to its floor any other's (R269, R278). -/
def State.slack (s : State) (tier q : Nat) (o : ObjVersion) : Nat :=
  let use_ := s.usage tier o.part
  if o.part = q ∨ (s.partRec o.part).isNone then use_ else use_ - s.floor tier o.part

/-- A candidate of T2 is evicted, as its copies and its SOURCE say: extents in ascending index, skipping those in use, or
the whole last copy (R270, R271). -/
def State.evictT2 (q need : Nat) (o : ObjVersion) (s : State) : State :=
  let idle := (sortOn id o.present).filter fun e => !s.inUse o e
  let room := s.slack 2 q o
  if o.otherCopy 2 then
    let short := need - (s.t2Free + s.comingT2)
    let es := (idle.take ((short + extentUnits - 1) / extentUnits)).take (room / extentUnits)
    (s.updObj (isVer o.part o.obj o.ver) fun x => x.keepExtents fun e => !es.contains e).bumpBy .tirEvictions es.length
  else if idle.length ≠ o.present.length ∨ room < unitsOf o.t2Bytes then s
  else if o.source = 2 then s.demoteLast 2 o
  else ((s.bumpBy .tirEvictions o.present.length).makeAbsent o).bump .tirDropped

/-- A candidate of T3 or T4 is evicted, as its copies and its SOURCE say (R270, R271). -/
def State.evictBelow (tier q : Nat) (o : ObjVersion) (s : State) : State :=
  if s.slack tier q o < (if tier = 3 then o.t3Units else o.size) then s
  else if o.otherCopy tier then (s.freeCopy tier o).bump .tirEvictions
  else if o.source = 2 then s.demoteLast tier o
  else (((s.freeCopy tier o).bump .tirEvictions).makeAbsent o).bump .tirDropped

/-- Candidates are evicted for partition q until `need` units fit (R269). -/
def State.evictFor (tier q need : Nat) (mirrored : Bool) : List ObjVersion → State → State
  | [], s => s
  | o :: r, s =>
    if s.fits tier need mirrored then s
    else State.evictFor tier q need mirrored r (if tier = 2 then s.evictT2 q need o else s.evictBelow tier q o)

/-- Room for `need` units in T2 for partition q, after eviction. -/
def State.roomT2 (q need : Nat) (s : State) : Bool × State :=
  if need ≤ s.t2Free then (true, s)
  else
    let s1 := s.evictFor 2 q need false (s.candidates 2)
    (decide (need ≤ s1.t2Free), s1)

/-- Room for `n` units of a copy in T3 or T4 for partition q, now or when units given up are writable, after eviction. -/
def State.roomBelow (tier q n : Nat) (mirrored : Bool) (s : State) : Bool × State :=
  if s.roomSoon tier n mirrored then (true, s)
  else
    let s1 := s.evictFor tier q n mirrored (s.candidates tier)
    (s1.roomSoon tier n mirrored, s1)

/-- The Tier Writer takes up a copy of a version in a tier, after eviction; without room the write waits (R261, R263,
R269, R273). A closed tier takes none (R292, R293). -/
def State.startCopy (kind : TierWriteKind) (o : ObjVersion) (tier : Nat) (s : State) : State :=
  if s.writing o tier || !s.tierOpen tier then s
  else
    let w := s.copyWrite kind o tier
    let r := (s.roomBelow tier o.part o.size w.mirrored).2
    let q := r.queueIf w
    if q.1 then q.2 else q.2.queueWrite { w with placed := false }

/-- The oldest write that waits gets its units, where it can (R269). -/
def State.placeWaiting (s : State) : State :=
  match s.tir.writer.findIdx? (fun w => !w.placed) with
  | none => s
  | some k =>
    let w := s.tir.writer.getD k {}
    let a := (s.roomBelow w.tier w.part w.len w.mirrored).2.alloc w
    match a.1 with
    | none => a.2
    | some u => a.2.updTir fun t => { t with
        writer := t.writer.modify k fun x => { x with start := u.1, mirrorStart := u.2, placed := true } }

/-- An allocation waits for T2 (R269). -/
def State.waitT2 (w : AllocWait) (s : State) : State :=
  (s.updTir fun t => { t with waits := t.waits ++ [w], t2Short := true }).bump .tirAllocWait

/-! ## References (R274) -/

/-- A count that reaches 65,535 sticks, and the case is counted. -/
def dropRef (n : Nat) : Nat := if n = 65535 then n else n - 1
def addRef (n : Nat) : Nat := min 65535 (n + 1)

/-- A tier reference on a version in T2 or T3. -/
def State.takeRef (tier part : Nat) (obj : Word) (ver : Nat) (s : State) : State :=
  let sticks := (s.version? part obj ver).any fun o => (if tier = 2 then o.refsT2 else o.refsT3) = 65534
  let s1 := s.updObj (isVer part obj ver) fun o =>
    if tier = 2 then { o with refsT2 := addRef o.refsT2 } else { o with refsT3 := addRef o.refsT3 }
  if sticks then s1.bump .tirSticky else s1

/-- A tier reference is released; LAST_USE takes the time (R256). -/
def State.freeRef (tier part : Nat) (obj : Word) (ver : Nat) (s : State) : State :=
  (s.updObj (isVer part obj ver) fun o =>
    if tier = 2 then { o with refsT2 := dropRef o.refsT2, lastUse := s.now }
    else { o with refsT3 := dropRef o.refsT3, lastUse := s.now }).reap

/-- A version reference (R149, R253). -/
def State.takeVref (part : Nat) (obj : Word) (ver : Nat) (s : State) : State :=
  let sticks := (s.version? part obj ver).any fun o => o.vrefs = 65534
  let s1 := s.updObj (isVer part obj ver) fun o => { o with vrefs := addRef o.vrefs }
  if sticks then s1.bump .tirSticky else s1

def State.freeVref (part : Nat) (obj : Word) (ver : Nat) (s : State) : State :=
  (s.updObj (isVer part obj ver) fun o => { o with vrefs := dropRef o.vrefs, lastUse := s.now }).reap

/-- The tier references that a test names are released. -/
def State.releaseRefs (p : TierRef → Bool) (s : State) : State :=
  let gone := s.tir.tierRefs.filter p
  let s1 := s.updTir fun t => { t with tierRefs := t.tierRefs.filter fun r => !p r }
  gone.foldl (fun s r => s.freeRef r.tier r.part r.obj r.ver) s1

/-! ## Versions (R253, R254, R256, R261) -/

/-- A device object ID (R254). -/
def isDevice (id : Word) : Bool := decide (0xFB000000 ≤ id.toNat) && decide (id.toNat ≤ 0xFBFFFFFF)

/-- The OBJECT_PLACE entry of an ID in a partition, or of a device object in any (R254, R261). -/
def State.placeOf (s : State) (part : Nat) (obj : Word) : Option PlaceEntry :=
  s.otl.running.places.find? fun e => (e.part = part || isDevice obj) && e.obj = obj

/-- Whether a version belongs to the sequence of an ID: of its partition, or of a device object. -/
def inSequence (part : Nat) (obj : Word) (o : ObjVersion) : Bool :=
  o.obj = obj && (o.part = part || isDevice obj)

/-- The newest version of an ID. -/
def State.newestOf (s : State) (part : Nat) (obj : Word) : Option ObjVersion :=
  s.tir.objs.find? fun o => inSequence part obj o && o.newest

/-- The key of a version sequence: device objects have one each (R253, R254). -/
def seqKey (part : Nat) (obj : Word) : Nat × Word := (if isDevice obj then 0 else part, obj)

/-- The version number after the last of the sequence, skipping 0 (R256). -/
def State.nextVer (s : State) (part : Nat) (obj : Word) : Nat :=
  match s.tir.seqs.lookup (seqKey part obj) with
  | none => 1
  | some v => if 65535 ≤ v then 1 else v + 1

/-- The last number of a sequence. -/
def State.setSeq (part : Nat) (obj : Word) (ver : Nat) (s : State) : State :=
  s.updTir fun t => { t with seqs := (seqKey part obj, ver) :: t.seqs.filter fun x => x.1 != seqKey part obj }

/-- A new version with the placement of its entry or the defaults of R261. -/
def State.newVersion (s : State) (part : Nat) (obj : Word) (produced : Bool) (len : Nat) (data : Memory) :
    ObjVersion :=
  let base : ObjVersion :=
    { obj := obj, part := part, ver := s.nextVer part obj, len := len, data := data, lastUse := s.now,
      crc := crc32c (Memory.readBytes data 0 len) }
  match s.placeOf part obj with
  | some e => { base with home := e.home, pin := e.pin, mirror := e.mirror, source := e.source, order := e.order }
  | none => { base with source := if produced then 2 else 0 }

/-- A version takes another number, with all that names it. -/
def State.renumber (part : Nat) (obj : Word) (ver new : Nat) (s : State) : State :=
  let f (p : Nat) (o : Word) (v : Nat) : Nat := if p = part ∧ o = obj ∧ v = ver then new else v
  ((s.updTir fun t => { t with
    objs := t.objs.map fun x => { x with ver := f x.part x.obj x.ver }
    tierRefs := t.tierRefs.map fun x => { x with ver := f x.part x.obj x.ver }
    requests := t.requests.map fun x => { x with ver := f x.part x.obj x.ver }
    waits := t.waits.map fun x => { x with ver := f x.part x.obj x.ver }
    writer := t.writer.map fun x => { x with ver := f x.part x.obj x.ver }
    checkWaits := t.checkWaits.map fun x => { x with ver := f x.part x.obj x.ver } }).updLnw fun l => { l with
      waiting := l.waiting.map fun x => { x with ver := f x.part x.obj x.ver } }).updJobs fun q => { q with
        list := q.list.map fun j => { j with
          bound := j.bound.map fun x => { x with ver := f x.part x.obj x.ver }
          slots := j.slots.map fun y => { y with inFlight := y.inFlight.map fun i => { i with
            uses := i.uses.map fun x => { x with ver := f x.part x.obj x.ver } } } } }

/-- A seal comes after another of the same edge: the higher partition number, then the later job ID (R254). -/
def ObjVersion.sealsAfter (x o : ObjVersion) : Bool :=
  if x.part ≠ o.part then decide (o.part < x.part) else seqBefore o.sealJob x.sealJob

/-- The versions of a device object that the same edge sealed and that come after `o`, the last first (R254). -/
def State.sealedAfter (o : ObjVersion) (s : State) : List ObjVersion :=
  if isDevice o.obj ∧ o.sealJob ≠ 0 then
    (s.tir.objs.filter fun x => x.obj = o.obj && x.sealJob != 0 && x.sealEdge = s.edge && x.sealsAfter o).foldl
      (fun acc x => insertBy (fun a b => a.sealsAfter b) x acc) []
  else []

/-- A version becomes the newest of its sequence; the older one stays while it is referenced (R253). One that comes
before others sealed on this edge takes its number below theirs (R254). -/
def State.publish (o : ObjVersion) (s : State) : State :=
  let after := s.sealedAfter o
  let r := after.foldl (fun (a : Nat × State) x => (x.ver, a.2.renumber x.part x.obj x.ver a.1)) (o.ver, s)
  let o1 := { o with ver := r.1, sealEdge := s.edge, newest := after.isEmpty }
  let s1 := r.2.setSeq o.part o.obj o.ver
  (s1.updTir fun t => { t with objs := (t.objs.map fun x =>
    if after.isEmpty && inSequence o.part o.obj x then { x with newest := false } else x) ++ [o1] }).reap

/-- After a seal, the Tier Writer places a copy at a home of T3 or T4 (R261). -/
def State.placeHome (o : ObjVersion) (s : State) : State :=
  if o.home = 2 then s else s.startCopy .place o o.home

/-- A job's output is sealed as a new version, whole in T2 (R253, R261). -/
def State.sealOutput (part : Nat) (obj : Word) (job : Word) (len : Nat) (data : Memory) (s : State) : State :=
  let o := s.newVersion part obj true len data
  let o := { o with sealJob := job, present := List.range o.extents }
  let r := s.withExtents (List.range o.extents) o
  let s1 := r.2.publish r.1
  match (s1.tir.objs.filter fun x => inSequence part obj x && x.part = part && x.sealJob = job && x.sealEdge = s.edge).getLast? with
  | some x => s1.placeHome x
  | none => s1

/-- Entries of the main directory in use, with those that jobs have reserved (R255). -/
def State.dirUsed (s : State) : Nat :=
  s.tir.objs.length +
    total (s.jobs.list.map fun j => if j.slots.isEmpty then 0 else j.chain.outputs + toBit j.chain.log)

/-- Entries of ABSENT objects are freed, oldest first, until `n` entries are free. -/
def State.freeAbsent (n : Nat) : List ObjVersion → State → State
  | [], s => s
  | o :: r, s => if s.dirUsed + n ≤ 65536 then s else State.freeAbsent n r (s.freeVersion o)

/-- Reserve `n` entries of the main directory (R255). -/
def State.reserveEntries (n : Nat) (s : State) : Bool × State :=
  if s.dirUsed + n ≤ 65536 then (true, s)
  else
    let s1 := s.freeAbsent n (sortOn (·.absentSeq) (s.tir.objs.filter fun o => o.state = .absent && o.vrefs = 0))
    (decide (s1.dirUsed + n ≤ 65536), s1.updTir fun t => { t with dirFull := true })

end Sys2Proof.Machine
end

