-- ==== Sys2Proof/Machine/TierFetch.lean ====
section
/-!
DEFINITION. How a fetch travels: the budgets of the line-weight regulator, the limits of outstanding transactions, the
queues of the memory channels, and the fetches and promotions of the tier manager (R27, R263 to R269, R272, R291,
R294 to R301).
-/

namespace Sys2Proof.Machine

open Sys2Proof

/-! ## Channels (R281, R284, R291, R302) -/

def State.memChan (s : State) (ch : Channel) : MemChannel :=
  match ch with
  | .golent c => s.chn.golent.getD c {}
  | .board b => s.chn.board.getD b {}

def State.updChan (ch : Channel) (f : MemChannel → MemChannel) (s : State) : State :=
  match ch with
  | .golent c => s.updChn fun x => { x with golent := x.golent.modify c f }
  | .board b => s.updChn fun x => { x with board := x.board.modify b f }

/-- The raw address of a data offset within a channel (R284). -/
def rawAddress (d : Nat) : Nat := d / 64 * 72 + d % 64

/-- The raw address of a burst of a unit on its channel: unit u lies at slot floor(u / 64) on T3, floor(u / 16) on T4
(R258, R284). -/
def burstAddress (ch : Channel) (unit burst : Nat) : Nat :=
  rawAddress (4096 * (match ch with
    | .golent _ => unit / 64
    | .board _ => unit / 16) + 64 * burst)

/-- The chip select of a burst and its address on that device: on T4, addresses beyond the CS0 device continue on CS1
(R284). -/
def burstDevice (ch : Channel) (unit burst : Nat) : Bool × Nat :=
  let a := burstAddress ch unit burst
  match ch with
  | .golent _ => (false, a)
  | .board b => if a < Config.boardRaw b false then (false, a) else (true, a - Config.boardRaw b false)

/-- The channel that a unit of a tier lies on (R258). -/
def State.channelOf (s : State) (tier unit : Nat) : Option Channel :=
  if tier = 3 then
    ((List.finRange 66).find? fun (c : Fin 66) => decide ((s.chn.golent.getD c {}).logical.toNat = unit % 64)).map Channel.golent
  else some (.board (Fin.ofNat 16 unit))

/-! ## The line-weight regulator (R298, R299) -/

/-- The budget of a partition and master: MIN 0 and SHARE 1 without an entry (R298). -/
def budgetOf (l : List Budget) (part m : Nat) : Budget :=
  (l.find? fun b => b.part = part && b.master = m).getD { part := part, master := m }

/-- The entries at the regulation point of a master, and the point's capacity in units of 64 B per window: a core's port
takes its partition's entries, an edge unit's port one of each partition (R298). -/
def pointBudgets (l : List Budget) (part m : Nat) : List Budget × Nat :=
  if m < 0x10 then (l.filter fun b => b.part = part && decide (b.master < 0x10), 2048)
  else (l.filter (·.master = m), 1024)

/-- The budget of a master at its point (R298). -/
def budgetUnits (l : List Budget) (part m : Nat) : Nat :=
  let p := pointBudgets l part m
  let b := budgetOf l part m
  b.min.toNat + (p.2 - total (p.1.map (·.min.toNat))) * b.share.toNat / max 1 (total (p.1.map (·.share.toNat)))

/-- The units that a master of a partition has used in the window. -/
def Lnw.chargedTo (l : Lnw) (part m : Nat) : Nat := (l.charged.lookup (part, m)).getD 0

/-- The class of bytes that bring a master to `used` units in the window (R299). -/
def weightClass (l : List Budget) (part m used : Nat) : Nat :=
  if used ≤ (budgetOf l part m).min.toNat then 2 else if used ≤ budgetUnits l part m then 3 else 4

/-- A transfer of a master is charged to its budget; the first bytes beyond it in a window count as one lowering
(R17, R298, R299). -/
def State.charge (part m units : Nat) (s : State) : Nat × State :=
  let old := s.lnw.chargedTo part m
  let used := old + units
  let limit := budgetUnits s.lnw.budgets part m
  let s1 := s.updLnw fun l => { l with charged := ((part, m), used) :: l.charged.filter fun x => x.1 != (part, m) }
  (weightClass s.lnw.budgets part m used, if old ≤ limit ∧ limit < used then s1.bump .lnwLowered else s1)

/-! ## The queues of the channels (R291, R299) -/

/-- A queue takes one more request: one of its 32 entries is for class 0 and 1 (R291). -/
def queueTakes (n cls : Nat) : Bool := decide (n < if cls ≤ 1 then 32 else 31)

/-- The request that a channel serves next: the lowest class, the oldest within it (R299). -/
def MemChannel.nextRequest (c : MemChannel) : Option ChanRequest :=
  c.queue.foldl (fun acc q => match acc with
    | none => some q
    | some b => if q.cls < b.cls then some q else some b) none

/-- One unit of a request joins the queue of its channel; where the queue is full it waits in the tier manager (R291).
Raised requests are class 1 and not charged; the others are charged to the tier prefetch (R299, R300). -/
def State.queueUnit (r : TierRequest) (unit : Nat) (s : State) : State :=
  match s.channelOf r.tier unit with
  | none => s
  | some ch =>
    let c := s.memChan ch
    if c.queue.any fun q => q.tag = r.tag && q.unit = unit then s
    else if r.raised then
      if queueTakes c.queue.length 1 then s.updChan ch fun x => { x with queue := x.queue ++ [{ tag := r.tag, unit := unit }] } else s
    else if queueTakes c.queue.length 2 then
      let k := s.charge r.part 0x13 64
      k.2.updChan ch fun x => { x with queue := x.queue ++ [{ tag := r.tag, unit := unit, cls := k.1 }] }
    else s

/-- The units of every request that wait in the tier manager join the queues with room, raised requests first (R267,
R291). -/
def State.feedQueues (s : State) : State :=
  let rs := (s.tir.requests.filter (·.raised)) ++ s.tir.requests.filter (!·.raised)
  rs.foldl (fun s r => r.left.foldl (fun s u => s.queueUnit r u) s) s

/-- A request is raised: so are its entries in the queues (R267). -/
def State.raiseTag (tag : BitVec 16) (s : State) : State :=
  let up (c : MemChannel) : MemChannel := { c with
    queue := c.queue.map fun q => if q.tag = tag then { q with cls := min q.cls 1 } else q }
  ((s.updTir fun t => { t with requests := t.requests.map fun r => if r.tag = tag then { r with raised := true } else r }).updChn
    fun c => { c with golent := c.golent.map up, board := c.board.map up }).feedQueues

/-! ## Limits of outstanding transactions (R27, R301) -/

/-- The cluster port of a core may issue for a master: 64 outstanding for the master, 256 for the port. -/
def State.portFree (s : State) (core master : Nat) : Bool :=
  decide ((s.lnw.txs.filter fun x => x.core = core && x.master = master).length < 64) &&
    decide ((s.lnw.txs.filter fun x => x.core / 9 = core / 9).length < 256)

/-- The tier prefetch may issue: 64 outstanding for it, 256 at the tier manager's port. -/
def State.prefetchFree (s : State) : Bool :=
  decide ((s.tir.requests.filter (·.askers.isEmpty)).length < 64) && decide (s.tir.requests.length < 256)

/-- The node of a core's cluster switch (R294). -/
def clusterNode (core : Nat) : Nat := match core / 9 with
  | 0 => 0 | 1 => 3 | 2 => 12 | _ => 15

/-- The virtual channel of a request: 0 for class 0, 1 for the others (R296). -/
def LineworkTx.vc (x : LineworkTx) : Nat := if x.cls = 0 then 0 else 1

/-! ## Fetches (R263 to R268) -/

/-- A tag that no request uses and that is not held (R268, R448). -/
def State.freeTag (s : State) : BitVec 16 :=
  let busy (t : BitVec 16) : Bool := s.tir.requests.any (·.tag = t) || s.lnw.txs.any (·.tag = t) ||
    s.tir.held.any (·.tag = t) || s.lnw.held.any (·.tag = t)
  let start := s.tir.nextTag
  match firstIdx 65536 fun i => !busy (start + BitVec.ofNat 16 i) with
  | some i => start + BitVec.ofNat 16 i
  | none => start

/-- A unit of a T3 copy that cannot be read there: its channel took it. -/
def State.unitGone (s : State) (o : ObjVersion) (unit : Nat) : Bool :=
  o.gone.contains (unit % 64) || s.lostLogical (unit % 64)

/-- The units that a fetch of an extent reads: of the T3 copy, or else of the T4 copy; a unit that is gone is read from its
mirror unit (R258, R275, R292). -/
def State.sourceUnits (s : State) (o : ObjVersion) (e : Nat) : Nat × List Nat :=
  let offs := (List.range (min 64 (o.size - 64 * e))).map fun k => 64 * e + k
  match o.t3 with
  | some a => (3, offs.map fun k => match o.t3Mirror with
      | some m => if s.unitGone o (a + k) then m + k else a + k
      | none => a + k)
  | none => (4, offs.map fun k => o.t4.getD 0 + k)

/-- A job's slot asks for an extent that a request already fetches (R267, R268). -/
def State.joinFetch (job : Word) (slot : Nat) (r : TierRequest) (s : State) : State :=
  if job = 0 then s.updTir fun t => { t with requests := t.requests.map fun x => if x.tag = r.tag then { x with shared := true } else x }
  else (s.updTir fun t => { t with requests := t.requests.map fun x =>
    if x.tag = r.tag ∧ !x.askers.contains (job, slot) then { x with askers := x.askers ++ [(job, slot)] } else x }).raiseTag r.tag

/-- The request of an extent that is in flight. -/
def State.fetchOf (s : State) (o : ObjVersion) (e : Nat) : Option TierRequest :=
  s.tir.requests.find? fun r => isVer r.part r.obj r.ver o && r.extent = e

/-- The tier manager fetches one extent of a version, for a slot of a job or, with job 0, for a promotion or the
read-ahead; where T2 has no room, or the prefetch is at its limit, the fetch waits (R265, R267, R269, R301). -/
def State.fetchExtent (job : Word) (slot : Nat) (e : Nat) (o : ObjVersion) (s : State) : State :=
  if o.present.contains e then s
  else match s.fetchOf o e with
    | some r => s.joinFetch job slot r
    | none =>
      if job = 0 ∧ !s.prefetchFree then
        s.updLnw fun l => { l with waiting := l.waiting ++ [{ part := o.part, obj := o.obj, ver := o.ver, extent := e }] }
      else
        let r := s.roomT2 o.part extentUnits
        if r.1 then
          let tag := r.2.freeTag
          let src := r.2.sourceUnits o e
          let q : TierRequest :=
            { tag := tag, askers := if job = 0 then [] else [(job, slot)], shared := job = 0, part := o.part, obj := o.obj,
              ver := o.ver, extent := e, raised := job != 0, issueEdge := s.edge, tier := src.1, left := src.2 }
          match r.2.version? o.part o.obj o.ver with
          | none => r.2
          | some x =>
            let y := r.2.withExtents [e] { x with filling := x.filling ++ [e] }
            ((y.2.updObj (isVer o.part o.obj o.ver) fun _ => y.1).updTir fun t => { t with
              nextTag := tag + 1, requests := t.requests ++ [q] }).feedQueues
        else r.2.waitT2 { job := job, slot := slot, part := o.part, units := extentUnits, obj := o.obj, ver := o.ver, extent := e }

/-- A slot's read misses an extent: the tier request is a Linework transaction of the core to the tier manager's node, at
class 1; at a limit of R301 it waits (R27, R265, R267, R294, R301). -/
def State.missExtent (job : Word) (slot core master : Nat) (e : Nat) (o : ObjVersion) (s : State) : State :=
  if !s.portFree core master then
    s.updLnw fun l => { l with waiting := l.waiting ++
      [{ job := job, slot := slot, part := o.part, obj := o.obj, ver := o.ver, extent := e }] }
  else
    let s1 := s.fetchExtent job slot e o
    match s1.fetchOf o e with
    | none => s1
    | some r =>
      if s1.lnw.txs.any fun x => x.tag = r.tag && x.core = core then s1
      else
        let tx : LineworkTx := { tag := r.tag, job := job, node := 5, source := clusterNode core, core := core,
                                 master := master, part := o.part, issueEdge := s.edge }
        s1.updLnw fun l => { l with txs := l.txs ++ [tx] }

/-- The master that reads a slot's operands: the Drypoint stream of a Drypoint job, else the weight loader (R300). -/
def readMaster (dry : Bool) : Nat := if dry then 0x03 else 0x02

/-- Fetches that waited at a limit go on, where it now allows them (R301). -/
def State.issueWaiting (s : State) : State :=
  s.lnw.waiting.foldl (fun (s : State) (w : PortWait) =>
    let ready := if w.job = 0 then s.prefetchFree
      else match s.askerCore (w.job, w.slot) with
        | none => true
        | some core => s.portFree core (readMaster ((s.jobs.list.find? (·.id = w.job)).any (·.chain.drypoint)))
    if !ready then s
    else
      let s1 := s.updLnw fun l => { l with waiting := l.waiting.erase w }
      match s1.version? w.part w.obj w.ver with
      | none => s1
      | some o =>
        if w.job = 0 then s1.fetchExtent 0 32 w.extent o
        else match s1.askerCore (w.job, w.slot) with
          | none => s1
          | some core => s1.missExtent w.job w.slot core
              (readMaster ((s.jobs.list.find? (·.id = w.job)).any (·.chain.drypoint))) w.extent o) s

/-! ## Promotions (R263, R264, R272, R273) -/

/-- A promotion of the whole object to T2: it is in flight until the last extent is PRESENT (R263, R264, R272). -/
def State.promoteT2 (part : Nat) (obj : Word) (ver : Nat) (s : State) : State :=
  match s.version? part obj ver with
  | none => s
  | some o =>
    if o.full ∨ (o.state ≠ .sealed ∧ o.state ≠ .rebuilding) then s
    else
      let s1 := s.updObj (isVer part obj ver) fun x => { x with promoT2 := true }
      (List.range o.extents).foldl (fun s e => match s.version? part obj ver with
        | some x => s.fetchExtent 0 32 e x
        | none => s) s1

/-- Extents of a version are lost from T2; a promotion in flight fetches them again (R272, R437). -/
def State.loseExtents (lost : Nat → Bool) (o : ObjVersion) (s : State) : State :=
  let s1 := s.updObj (isVer o.part o.obj o.ver) fun x => x.keepExtents fun e => x.filling.contains e || !lost e
  if o.promoT2 then s1.promoteT2 o.part o.obj o.ver else s1

/-- A promotion to T3: the Tier Writer places a copy there, at once or when there is room; a closed T3 takes none (R263,
R269, R273, R292). -/
def State.promoteT3 (part : Nat) (obj : Word) (ver : Nat) (s : State) : State :=
  match s.version? part obj ver with
  | none => s
  | some o =>
    if o.t3.isSome || !s.tierOpen 3 then s
    else (s.updObj (isVer part obj ver) fun x => { x with promoT3 := true }).startCopy .place o 3

end Sys2Proof.Machine
end

