-- ==== Sys2Proof/Machine/KvPages.lean ====
section
/-!
DEFINITION. KV pages and the frames of a partition's KV pool (R197, R198, R202, R207, R208, R210).
-/

namespace Sys2Proof.Machine

open Sys2Proof

/-- The CONTEXT_POOL record of a partition. -/
def State.poolOf (s : State) (p : Nat) : Option PoolRec := s.otl.running.pools.find? (·.part = p)

/-- First ID and count of the contexts of a partition under an Outline (R197). -/
def Outline.ctxRange (o : Outline) (p : Nat) : Nat × Nat :=
  (total ((o.pools.filter (·.part < p)).map (·.contexts)),
   ((o.pools.find? (·.part = p)).map (·.contexts)).getD 0)

/-- Frames of the page tables of a context (R203). -/
def Context.frames (c : Context) : Nat :=
  if c.kv then 1 + c.recFrames.length + total (c.lgs.map (·.blocks.length)) else 0

/-- Frames of a partition that are taken: resident pages, and page tables, those of attempts included
(R198, R206). -/
def State.usedFrames (s : State) (p : Nat) : Nat :=
  let tables := s.ctx.table.filter (·.part = p)
  let extra := (s.jobs.list.filter (·.part = p)).flatMap fun j => j.journal.ctxs.map fun c =>
    c.frames - ((s.ctx.table.find? (·.id = c.id)).map Context.frames).getD 0
  (s.ctx.pages.filter fun g => g.part = p && g.inPlate).length + total (tables.map Context.frames) +
    total extra

/-- Free frames of the KV pool of a partition (CTX_FRAMES_FREE_Pp). -/
def State.freeFrames (s : State) (p : Nat) : Nat := ((s.poolOf p).map (·.kvPages)).getD 0 - s.usedFrames p

/-- Page records of the device. -/
def pageRecords : Nat := 2097152

/-- Free page records (CTX_RECORDS_FREE). -/
def State.freeRecords (s : State) : Nat := pageRecords - s.ctx.pages.length

/-- A page by its record. -/
def State.page? (s : State) (i : Nat) : Option PageRecord := s.ctx.pages.find? (·.index = i)
def State.updPage (i : Nat) (f : PageRecord → PageRecord) (s : State) : State :=
  s.updCtx fun c => { c with pages := c.pages.map fun g => if g.index = i then f g else g }

/-- The GEN that a reused record takes: it increases and skips 0 on wrap (R202). -/
def nextPageGen (n : Nat) : Nat := if 2047 ≤ n then 1 else n + 1

/-- A free record: any; the manual does not say which (log 2). -/
def State.freeRecord (s : State) : Nat × State :=
  let r := s.choose pageRecords
  let used := s.ctx.pages.map (·.index)
  (((firstIdx (used.length + 1) fun k => !used.contains ((r.1 + k) % pageRecords)).map fun k =>
    (r.1 + k) % pageRecords).getD r.1, r.2)

/-- A page opens: a frame and a record are taken; where one cannot be had, CTX_STATUS says which (R207,
R224). -/
def State.openPage (p : Nat) (data : Memory) (s : State) : Option Nat × State :=
  if s.freeFrames p = 0 then (none, s.updCtx fun c => { c with noFrames := true })
  else if s.freeRecords = 0 then (none, s.updCtx fun c => { c with noRecords := true })
  else
    let r := s.freeRecord
    let g := nextPageGen ((s.ctx.gens.lookup r.1).getD 0)
    (some r.1, r.2.updCtx fun c => { c with
      pages := c.pages ++ [{ index := r.1, part := p, gen := g, data := data }]
      gens := c.gens.filter (·.1 != r.1) })

/-- A frame for a page table. -/
def State.noFrame (s : State) : State := s.updCtx fun c => { c with noFrames := true }

/-- A page record becomes free; T3 units are given up, and the directory entry goes with it (R210). -/
def State.freePage (g : PageRecord) (s : State) : State :=
  let s1 := if g.inT3 then
      g.mirrorUnit.toList.foldl (fun s u => s.giveUp 3 u 1) (s.giveUp 3 g.unit 1)
    else s
  (s1.dropWrites fun w => (w.kind = .kvPage || w.kind = .rebuild) && w.obj = wd (0xFD000000 + g.index)).updCtx fun c => { c with
    pages := c.pages.filter (·.index != g.index)
    gens := (g.index, g.gen) :: c.gens.filter (·.1 != g.index) }

/-- A page loses a reference; at 0 it is freed, at 65,535 the count sticks (R210). -/
def State.dropPage (i : Nat) (s : State) : State :=
  match s.page? i with
  | none => s
  | some g =>
    if g.refs = 65535 then s
    else if g.refs ≤ 1 then s.freePage g
    else s.updPage i fun x => { x with refs := x.refs - 1 }

/-- The attempt of a job is discarded: every page that it opened or copied is released (R206). -/
def State.discardJournal (j : Job) (s : State) : State :=
  j.journal.opened.foldl (fun s i => match s.page? i with
    | some g => s.freePage g
    | none => s) s

/-- The swaps of a context end unfinished, and what the Tier Writer has of them is given up. -/
def State.dropSwaps (n : Nat) (s : State) : State :=
  (s.dropWrites fun w => w.kind = .swap && w.obj = wd (0xFC000000 + n)).updCtx fun x => { x with
    swaps := x.swaps.filter (·.ctx != n) }

/-- Every page and the snapshot of a context are released; sticky pages too when all contexts of the
partition go (R210, R222, R223), and then its exports end without a version (R245). -/
def State.releaseContext (all : Bool) (c : Context) (s : State) : State :=
  let idx := c.lgs.flatMap fun l => (l.ptes.filter (·.valid)).map (·.page)
  let s1 := idx.foldl (fun s i =>
    if all then (match s.page? i with
      | some g => s.freePage g
      | none => s)
    else s.dropPage i) s
  let s2 := match c.rec_ with
    | none => s1
    | some r => (r.snapshot.toList ++ r.snapMirror.toList).foldl (fun s u => s.giveUp 3 u r.snapUnits) s1
  (s2.dropSwaps c.id).updCtx fun x => { x with
    table := x.table.filter (·.id != c.id)
    exports_ := if all then x.exports_.filter (·.part != c.part) else x.exports_
    waits := x.waits.filter fun w => fld w.body.w0 29 16 != c.id }

end Sys2Proof.Machine
end

