-- ==== Sys2Proof/Machine/Schedule.lean ====
section
/-!
DEFINITION. The arithmetic of the Registration table: ticks, firings and look-ahead (R53 to R57, R521),
and a step of the Timebase as the engine sees it (R49).
-/

namespace Sys2Proof.Machine

open Sys2Proof

/-- The tick of the 6.25 ns grid at or before a time (R12, R54). -/
def tickOf (u : Int) : Nat := (u.fdiv unitsEdge).toNat

/-- The time of a tick. -/
def timeOfTick (t : Nat) : Int := (t : Int) * unitsEdge

/-- How many firings an entry has in one hyperperiod (R55). -/
def RegEntry.perH (h : Nat) (e : RegEntry) : Nat :=
  if e.repeatTicks = 0 then 1 else (h - e.offset + e.repeatTicks - 1) / e.repeatTicks

/-- Whether an entry fires at a tick (R54, R55). -/
def RegEntry.firesAt (h : Nat) (e : RegEntry) (t : Nat) : Bool :=
  let q := t % h
  e.valid && (if e.repeatTicks = 0 then q = e.offset
    else decide (e.offset ≤ q) && (q - e.offset) % e.repeatTicks = 0)

/-- How many firings an entry has at ticks 0 to `t`. -/
def RegEntry.countTo (h : Nat) (e : RegEntry) (t : Nat) : Nat :=
  let q := t % h
  let n := e.perH h
  (t / h) * n + (if q < e.offset then 0 else if e.repeatTicks = 0 then 1
    else min n ((q - e.offset) / e.repeatTicks + 1))

/-- How many firings an entry has in the ticks after `a` up to `b`. -/
def RegEntry.countIn (h : Nat) (e : RegEntry) (a b : Nat) : Nat :=
  if e.valid then e.countTo h b - e.countTo h a else 0

/-- The first tick at or after `t` at which an entry fires. -/
def RegEntry.nextFrom (h : Nat) (e : RegEntry) (t : Nat) : Nat :=
  let b := t / h * h
  let q := t % h
  if q ≤ e.offset then b + e.offset
  else if e.repeatTicks = 0 then b + h + e.offset
  else
    let o := e.offset + ((q - e.offset + e.repeatTicks - 1) / e.repeatTicks) * e.repeatTicks
    if o < h then b + o else b + h + e.offset

/-- The last tick at or before `t` at which an entry fired. -/
def RegEntry.lastAt (h : Nat) (e : RegEntry) (t : Nat) : Nat :=
  let b := t / h * h
  let q := t % h
  let lastOff := if e.repeatTicks = 0 then e.offset
    else e.offset + (e.perH h - 1) * e.repeatTicks
  if e.offset ≤ q then
    b + (if e.repeatTicks = 0 then e.offset
      else e.offset + min (e.perH h - 1) ((q - e.offset) / e.repeatTicks) * e.repeatTicks)
  else b - h + lastOff

/-- Entry `i` of the running table. -/
def State.regEntry (s : State) (i : Nat) : Option RegEntry := s.otl.running.table[i]?

/-- An entry whose firings the rules for SUPERVISED partitions govern: entries of ETH_GATE and SELFTEST
carry PARTITION 0, which is ignored (R78). -/
def State.entrySupervised (s : State) (e : RegEntry) : Bool :=
  e.target != 6 && e.target != 9 && s.supervised e.part

/-- The firings of the running table at the ticks after `a` up to `b`: tick and entry index, in the
order of launch (R57, R520). Disabled entries do not fire (R494). -/
def State.firingsIn (s : State) (a b : Nat) : List (Nat × Nat) :=
  ((List.range (b - a)).map (· + a + 1)).flatMap fun t =>
    (s.otl.running.table.zipIdx.filter fun e =>
      e.1.firesAt s.otl.running.h t && !s.rgn.disabled.contains e.2).map fun e => (t, e.2)

/-- The armed boundary, when one is armed. -/
def State.boundary (s : State) : Option Int :=
  if s.otl.state = .armed then some (compactNear s.rgn.epochTime s.now) else none

/-- The first tick at or after `t` of a firing of an Outline's table that passes a test, disabled entries apart. -/
def Outline.leastFiring (o : Outline) (disabled : List Nat) (p : RegEntry → Bool) (t : Nat) : Option Nat :=
  (o.table.zipIdx.filter fun e => e.1.valid && p e.1 && !disabled.contains e.2).foldl (fun acc e =>
    let n := e.1.nextFrom o.h t
    match acc with
    | none => some n
    | some m => some (min m n)) none

/-- The first tick at or after `t` of a firing that passes a test, taken from the table that will launch
it: the running table, without its disabled entries, before an armed boundary, the new table from it on (R521). No
firing falls due while a backward step holds launches (R49). -/
def State.nextFiring (s : State) (p : Outline → RegEntry → Bool) (t : Nat) : Option Nat :=
  let t := match s.tb.stepHold with
    | some h => max t (tickOf h.1 + 1)
    | none => t
  let o := s.otl.running
  match s.boundary, s.otl.staged with
  | some b, some new =>
    let bt := tickOf b
    match o.leastFiring s.rgn.disabled (p o) t with
    | some n => if n < bt then some n else new.leastFiring [] (p new) (max t bt)
    | none => new.leastFiring [] (p new) (max t bt)
  | _, _ => o.leastFiring s.rgn.disabled (p o) t

/-- A safety launch of an Outline: a STYLUS or PROOF firing, or one of a SUPERVISED partition (R428). -/
def Outline.isSafety (o : Outline) (e : RegEntry) : Bool :=
  e.target = 4 || e.target = 5 || (e.target != 6 && e.target != 9 &&
    o.partitions.any fun q => q.part = e.part && q.supervised)

/-- The first tick at or after `t` of a safety launch from the table that will launch it, or the armed boundary
(R428, R521). -/
def State.nextSafety (s : State) (t : Nat) : Option Nat :=
  let a := s.nextFiring Outline.isSafety t
  match s.boundary with
  | none => a
  | some b => some (min (tickOf b) (a.getD (tickOf b)))

/-- The channels of a group in an Outline. -/
def Outline.groupChannels (o : Outline) (g : Nat) : List ChanEntry := o.channels.filter (·.group = g)

/-- The PERIOD of a group in CTRL ticks; all its channels have one (R358). -/
def Outline.groupPeriod (o : Outline) (g : Nat) : Nat :=
  ((o.groupChannels g).head?.map (·.period)).getD 5000

/-- PPS_OUT rises for TB_PPS_WIDTH x 160 CTRL periods; a high time in progress is neither shortened nor lengthened
(R66). Clearing OUT_EN stops the next rise and leaves a high time in progress to its end (DESIGN CHOICE, log 6). -/
def State.ppsRise (s : State) : State :=
  if s.regs.ppsOutEn && !(s.tb.ppsHighUntil.any fun e => decide (s.edge < e)) then
    s.updTb fun t => { t with ppsHighUntil := some (s.edge + s.regs.ppsWidth.toNat * edgesUs) }
  else s

/-- The length of a hold, in CTRL edges, goes to Proof (R49, R414, PRF_TIME_HOLD_MAX of R430). -/
def State.reportHold (n : Nat) (s : State) : State :=
  s.updPrf fun p => { p with
    timeHoldMax := max p.timeHoldMax (n / edgesUs)
    sets := p.sets.map fun r => { r with holdEdges := max r.holdEdges n } }

/-- What a forward step skips: the firings in the ticks after `a` up to `b` (R49). Each entry of a SUPERVISED partition
is one missed launch; the PROOF firings of a rule set, whatever their partition, are one together (R416). -/
def State.skipFirings (a b : Nat) (s : State) : State :=
  let o := s.otl.running
  let hit := (o.table.zipIdx.filter fun e => !s.rgn.disabled.contains e.2).filterMap fun e =>
    let n := e.1.countIn o.h a b
    if n = 0 then none else some (e.1, n)
  let s1 := hit.foldl (fun s x => s.bumpBy .rgnStepSkipped x.2) s
  let other := (hit.filter fun x => s.entrySupervised x.1 && x.1.target != 5).length
  let sets := (hit.filterMap fun x =>
    if x.1.target = 5 then some x.1.arg.toNat else none).dedup
  let s2 := (List.replicate other ()).foldl (fun s _ => s.missedLaunch none) s1
  let s3 := sets.foldl (fun s n => s.missedLaunch (some n)) s2
  (hit.filter fun x => x.1.target = 4).foldl (fun s x =>
    let g := x.1.arg.toNat
    let last := x.1.lastAt o.h b
    let form := last + o.groupPeriod g - 320
    s.updSty fun y => { y with groups := y.groups.modify g fun gr =>
      let gr := { gr with seq := gr.seq + BitVec.ofNat 16 x.2 }
      if b < form then
        { gr with firing := true, instant := timeOfTick last, delivered := false, skipHold := true, judged := [] }
      else gr }) s3

/-- A step of local time by `d` (R49). A forward step skips the firings it passes and the output frames
whose form instant it passes; what it skips of the new table waits for the commit that it passes. A backward step holds launches until local time passes t again; a step
clears the slew in progress (R492). -/
def State.stepTime (d : Int) (s : State) : State :=
  let t := s.now
  let s1 := s.updTb fun b => { b with
    time := timeOfUnits (t + d), slewLeft := 0, slewRate := 0
    relay := b.relay.map fun x => { x with upstream := x.upstream + d } }
  if 0 < d then
    let from_ := match s.tb.stepHold with
      | some h => max t h.1
      | none => t
    let a := tickOf from_
    let z := tickOf (t + d)
    let s2 := if !s.rgn.firing then s1
      else match s.boundary with
        | some b =>
          if tickOf b ≤ z then
            (s1.skipFirings a (max a (tickOf b - 1))).updRgn fun r => { r with stepSkip := some z }
          else s1.skipFirings a z
        | none => s1.skipFirings a z
    let s3 := s2.updSty fun y => { y with
      groups := y.groups.zipIdx.map fun g =>
        let form := g.1.instant + ((s.otl.running.groupPeriod g.2 : Int) - 320) * unitsEdge
        if g.1.firing && decide (t < form) && decide (form ≤ t + d) then
          { g.1 with firing := false, delivered := false } else g.1 }
    if t.fdiv unitsSec < (t + d).fdiv unitsSec then s3.ppsRise else s3
  else if d < 0 then
    s1.updTb fun b => { b with
      stepHold := match s.tb.stepHold with
        | some h => some (max t h.1, h.2)
        | none => some (t, s.edge) }
  else s1

end Sys2Proof.Machine
end

