-- ==== Sys2Proof/Machine/JobOps.lean ====
section
/-!
DEFINITION. Operations on jobs that several commands share: launch, ending with its completion record, the
restart of R157 and R158, and a core's fault as R434, R436 and R522 treat it.
-/

namespace Sys2Proof.Machine

open Sys2Proof

/-- Status codes of R162. -/
def stOk : Byte := 0x00
def stEmpty : Byte := 0x01
def stBadDescriptor : Byte := 0x10
def stBadHandle : Byte := 0x11
def stBadRange : Byte := 0x12
def stNoRights : Byte := 0x13
def stNoObject : Byte := 0x14
def stNoResources : Byte := 0x15
def stDeadline : Byte := 0x20
def stFaultExhausted : Byte := 0x21
def stNoSlack : Byte := 0x22
def stEpochAbort : Byte := 0x23
def stPartitionReset : Byte := 0x24
def stCancelled : Byte := 0x25
def stContextLimit : Byte := 0x30
def stContextDamaged : Byte := 0x31

/-- The statuses that end the job in FAILED without a restart (R159, R162). -/
def deterministicFailure (b : Byte) : Bool :=
  b = 0x10 || b = 0x11 || b = 0x12 || b = 0x13 || b = 0x14 || b = 0x15

/-- A job by its ID. -/
def State.job? (s : State) (id : Word) : Option Job := s.jobs.list.find? (·.id = id)

def State.updJob (id : Word) (f : Job → Job) (s : State) : State :=
  s.updJobs fun j => { j with list := j.list.map fun x => if x.id = id then f x else x }

/-- The next job ID: increases by 1, wraps and skips 0 (R154). -/
def nextJobId (w : Word) : Word := if w + 1 = 0 then 1 else w + 1

/-- Microseconds from the launch instant of a job to an edge, saturating (R171). -/
def Job.elapsedUs (j : Job) (edge : Nat) : Nat := min 0xFFFFFFFF ((edge - j.launchEdge) / edgesUs)

/-- The job completion record (R171): its flags are the OR over the final attempt's descriptors. -/
def Job.record (j : Job) (s : State) (status : Byte) (detail : Word) : CompRecord where
  status := status
  opcode := 0
  flags := (j.slots.flatMap (·.records)).foldl (fun f r => f.or r.flags) {}
  job := j.id
  index := 0xFFFF
  slot := 0
  part := j.part
  attempt := j.attempt
  endTime := compactOf s.now
  elapsed := wd (j.elapsedUs s.edge)
  detail := detail

/-- A record joins the completion queue of its partition: it goes to every SUBSCRIBE session of the
partition, and with none the queue holds it, the oldest of 1,024 records being overwritten and counted
(R400). -/
def State.toQueue (p : Nat) (r : CompRecord) (s : State) : State :=
  if s.eth.sessions.any fun x => x.open_ && x.subscribe && x.part = some p then
    s.sendWhere (fun x => x.subscribe && x.part = some p) (.jobDone 0 r)
  else
    let q := s.jobs.queues.getD p []
    if q.length < 1024 then s.updJobs fun j => { j with queues := j.queues.set p (q ++ [r]) }
    else (s.updJobs fun j => { j with queues := j.queues.set p (q.drop 1 ++ [r]) }).bump
      .ethCqOverwrite

/-- JOB_DONE goes to the submitting session while it is open, and otherwise to the queue (R400). -/
def State.sendDone (j : Job) (r : CompRecord) (s : State) : State :=
  match j.origin with
  | .submitted sess tag =>
    let x := s.session sess
    if x.open_ && x.part = some j.part then s.sendTo sess (.jobDone tag r) else s.toQueue j.part r
  | _ => s.toQueue j.part r

/-! ## Leaving RUNNING and ending -/

/-- A request of its extent is withdrawn: it is FILLING no more (R259). -/
def State.withdraw (r : TierRequest) (s : State) : State :=
  (s.dropTags [r.tag]).updObj (isVer r.part r.obj r.ver) fun o =>
    o.keepExtents fun e => e != r.extent || o.present.contains e

/-- The outstanding transactions of a job end: their tags are held, and their completions will be discarded (R157, R448).
A fetch that another job, a promotion or the read-ahead wants goes on. -/
def State.dropRequests (id : Word) (s : State) : State :=
  let alone (r : TierRequest) : Bool := !r.shared && !r.askers.isEmpty && r.askers.all (·.1 = id)
  let txs := s.lnw.txs.filter (·.job = id)
  let s1 := (s.tir.requests.filter alone).foldl (fun s r => s.withdraw r) s
  ((s1.updTir fun t => { t with
    requests := t.requests.map fun r => { r with askers := r.askers.filter (·.1 != id) }
    waits := t.waits.filter (·.job != id) }).updLnw fun l => { l with
      txs := l.txs.filter (·.job != id)
      waiting := l.waiting.filter (·.job != id)
      held := l.held ++ (txs.filter fun x => l.txs.contains x).map fun x => { tag := x.tag, edge := s.edge } }).issueWaiting

/-- A message of an attempt that is over: Proof judges it, and no verdict goes to a later attempt (R157, R419). -/
def ProofMsg.orphan (id : Word) : ProofMsg → ProofMsg
  | .residue job a b c d e => .residue (if job = id then 0 else job) a b c d e
  | .stats job a b c d e f g h => .stats (if job = id then 0 else job) a b c d e f g h
  | .gateSample job a b => .gateSample job a b

/-- A job that leaves RUNNING withdraws its entries at the shared units, and a running one is abandoned
(R192, R330, R344, R356). -/
def State.leaveUnits (id : Word) (s : State) : State :=
  let s1 := s.updJobs fun j => { j with
    marginQueue := j.marginQueue.filter (·.1 != id)
    marginRun := j.marginRun.filter (·.1 != id) }
  let s2 := s1.updXh fun x => { x with
    queue := x.queue.filter (·.job != id)
    publishQueue := x.publishQueue.filter (·.job != id)
    run := x.run.filter (·.job != id)
    publish := x.publish.filter (·.1.job != id)
    buffers := if x.publish.any (·.1.job = id) then
        x.buffers.modify (1 - x.current) fun b => { b with valid := false }
      else x.buffers }
  let s3 := s2.updPrf fun p => { p with mailbox := p.mailbox.map (ProofMsg.orphan id) }
  (s3.updTrc fun t => { t with
    queue := t.queue.filter (·.1 != id)
    shadow := if t.holder = id then none else t.shadow }).dropRequests id

/-- A slot of a fresh attempt (R157): T1 region, record log and digest start empty. -/
def SlotState.fresh (x : SlotState) : SlotState := { core := x.core, logical := x.logical }

/-- What an abandoned attempt leaves: nothing but the bound inputs (R157, R168). -/
def Job.fresh (j : Job) : Job :=
  { j with
    slots := j.slots.map SlotState.fresh
    counters := List.replicate 16 0
    local_ := []
    outs := j.outs.map fun o => { o with data := [], extent := 0 }
    journal := {} }

/-- The arrays, staging buffers and banks of a core without work. -/
def Core.clearArrays (c : Core) : Core :=
  { c with
    bufFull := [false, false], loadWaits := false, loading := false, nextBuf := 0
    swapMark := false, feed := [], banks := [{}, {}], nextBank := 0, bankWait := none }

/-- A core without work: its arrays, buffers and banks are idle. A core that is to leave service starts
its diagnosis at this job boundary (R433, R434). -/
def Core.vacate (c : Core) : Core :=
  let c1 := c.clearArrays
  if c.state = .retired ∨ c.state = .off then c1
  else if c.leaving then { c1 with state := .selfTest, diagnosing := true } else { c1 with state := .idle }

/-- A job leaves a core. -/
def Core.leave (id : Word) (c : Core) : Core :=
  if c.job = some id ∨ c.dryJob = some id then
    let c1 := { c with job := c.job.filter (· != id), dryJob := c.dryJob.filter (· != id) }
    if c1.job.isNone ∧ c1.dryJob.isNone then c1.vacate
    else if c.job = some id then c1.clearArrays
    else c1
  else c

/-- The bound versions of a job are released (R149, R274, R325). -/
def State.unbind (j : Job) (s : State) : State :=
  j.bound.foldl (fun s b =>
    if 0xFE000000 ≤ b.obj.toNat ∧ b.obj.toNat ≤ 0xFE00002F then
      s.updIng fun g => { g with streams := g.streams.modify (b.obj.toNat - 0xFE000000) fun x =>
        let vs := x.versions.map fun f => if f.index = b.ver then { f with binds := f.binds - 1 } else f
        { x with versions := vs.filter fun f => f.current || decide (0 < f.binds) } }
    else s.freeVref b.part b.obj b.ver) s

/-- The contexts that a job holds are released; one that lost data while held becomes DAMAGED (R205,
R222). -/
def State.releaseContexts (id : Word) (s : State) : State :=
  s.updCtx fun c => { c with table := c.table.map fun x =>
    if x.holder = id then
      { x with holder := 0, state := if x.damagePending then .damaged else x.state,
               damagePending := false }
    else x }

/-- A job gives up all that it holds and is forgotten. -/
def State.releaseJob (j : Job) (s : State) : State :=
  let s1 := ((((s.leaveUnits j.id).discardJournal j).unbind j).releaseContexts j.id).releaseRefs fun r =>
    r.job = some j.id
  let s2 := s1.updTrc fun t => if t.holder = j.id then { t with holder := 0, shadow := none } else t
  (s2.updCores fun cs => cs.map (Core.leave j.id)).updJobs fun x =>
    { x with list := x.list.filter (·.id != j.id) }

/-- Whether an ending writes a JOB_FAILED record: the watchdog and a refused restart (R155, R158,
R445). -/
def writesFailed (b : Byte) : Bool := b = stDeadline || b = stFaultExhausted || b = stNoSlack

/-- A job ends with a status: DONE for OK, FAILED otherwise. Its record is sent once (R171, R400), and it
holds nothing any more. -/
def State.finishJob (id : Word) (status : Byte) (detail : Word) (s : State) : State :=
  match s.job? id with
  | none => s
  | some j =>
    let s1 := (s.releaseJob j).sendDone j (j.record s status detail)
    if writesFailed status then
      s1.report 0x12 j.part 5 7 0x0050 (some j.part) id status.toNat
    else s1

/-! ## Timeouts (R268, R297, R448) -/

/-- The jobs that wait for a request. -/
def TierRequest.jobs (r : TierRequest) : List Word := (r.askers.map (·.1)).eraseDups

/-- A fetch that a promotion still needs is made again under a new tag (log 16). -/
def State.refetchExtent (r : TierRequest) (s : State) : State :=
  match s.version? r.part r.obj r.ver with
  | some o => if o.promoT2 then s.fetchExtent 0 32 r.extent o else s
  | none => s

/-- A tier request is cancelled by invalidating its tag, which is held; the fault of each requesting job is recorded
(R268, R445, R448). -/
def State.cancelRequest (r : TierRequest) (s : State) : State :=
  let s1 := (s.withdraw r).bump .tirTimeouts
  let s2 := r.jobs.foldl (fun s id => match s.job? id with
    | none => s
    | some j => s.report 0x13 0 1 2 0x0022 (some j.part) id r.obj.toNat) s1
  (s2.refetchExtent r).issueWaiting

/-- A Linework transaction is cancelled in the same way (R297). -/
def State.cancelTx (x : LineworkTx) (s : State) : State :=
  let s1 := ((s.updLnw fun l => { l with
    txs := l.txs.filter (· != x)
    held := l.held ++ [{ tag := x.tag, edge := s.edge }] }).bump .lnwTimeouts).issueWaiting
  match s1.job? x.job with
  | none => s1
  | some j => s1.report 6 x.node 1 2 0x0030 (some j.part) x.job x.node

/-- A tier request, and a Linework transaction, that does not complete within its timeout (R268, R297). -/
def State.requestLate (s : State) (r : TierRequest) : Bool := decide (r.issueEdge + 200 * edgesUs ≤ s.edge)
def State.txLate (s : State) (x : LineworkTx) : Bool := decide (x.issueEdge + 500 * edgesUs ≤ s.edge)

/-- The deadline of a job has passed: it counts from the launch instant (R150). -/
def State.pastDeadline (s : State) (j : Job) : Bool :=
  decide (j.launchEdge + j.deadlineUs * edgesUs ≤ s.edge)

/-- A tile of a job that a core still works on (R122). -/
def Core.tailOf (j : Job) (c : Core) : Option TileTail :=
  (c.flush.banks.find? fun b => b.state = .computing && b.owner.any (·.1 = j.id)).map fun b =>
    { job := j.id, part := j.part, compared := b.compared, mismatch := b.mismatch }

/-- The deadline ends a job (R155): a tile in progress ends nevertheless, and its faults are recorded (R122). -/
def State.overrun (j : Job) (s : State) : State :=
  let tails := s.cores.map (Core.tailOf j)
  (s.finishJob j.id stDeadline 0).updCores fun cs => cs.zipIdx.map fun x => match tails.getD x.2 none with
    | some t => { x.1 with tail := some t }
    | none => x.1

/-- An uncorrected fault of a job (R156 to R158): it goes to RESTARTING, or ends FAILED with FAULT_EXHAUSTED or
NO_SLACK; on the edge of its deadline the deadline decides (R155). Every slot abandons its work (R157). `wait` is the
core whose rejoin the new attempt waits for (R522). -/
def State.faultJob (id : Word) (wait : Option Nat) (s : State) : State :=
  match s.job? id with
  | none => s
  | some j =>
    if j.state ≠ .running then s
    else
      let need := (j.chain.wcet + (if wait.isSome then 7200 else 200)) * edgesUs
      if s.pastDeadline j then s.overrun j
      else if j.budget ≤ j.attempt then s.finishJob id stFaultExhausted 0
      else if j.launchEdge + j.deadlineUs * edgesUs < s.edge + need then s.finishJob id stNoSlack 0
      else
        ((((s.leaveUnits id).discardJournal j).updCores fun cs => cs.map fun c =>
          if c.job = some id then c.clearArrays else c).updJob id fun x =>
            { x.fresh with state := .restarting, attempt := x.attempt + 1,
                           waitsForCore := wait }).bump .brnRestarts

/-- A late request is cancelled, and each requesting job has its fault (R268). -/
def State.timeOutRequest (r : TierRequest) (s : State) : State :=
  r.jobs.foldl (fun s id => s.faultJob id none) (s.cancelRequest r)

/-- The timeouts of a job's requests that are due on this edge: their error records are written although the job's
deadline falls on it too, and other jobs that waited have their fault (R155). -/
def State.dueTimeouts (job : Word) (s : State) : State :=
  let rs := s.tir.requests.filter fun r => r.jobs.contains job && s.requestLate r
  let xs := s.lnw.txs.filter fun x => x.job = job && s.txLate x
  let s1 := rs.foldl (fun s r => (r.jobs.filter (· != job)).foldl (fun s id => s.faultJob id none) (s.cancelRequest r)) s
  xs.foldl (fun s x => s.cancelTx x) s1

/-! ## Slots -/

/-- The cluster and position of a physical core (R18). -/
def clusterOf (core : Nat) : Nat := core / 9
def posOf (core : Nat) : Nat := core % 9

/-- The physical core of a logical slot (R18). -/
def State.slotCore (s : State) (p slot : Nat) : Option Nat :=
  (s.glb.slotMap.find? fun x => x.1 = p && x.2.1 = slot).map (·.2.2)

/-- The partition and the slot that a core serves. -/
def State.coreSlot (s : State) (core : Nat) : Option (Nat × Nat) :=
  (s.glb.slotMap.find? (·.2.2 = core)).map fun x => (x.1, x.2.1)

/-- The live slots of a partition: mapped to a core that is not retired (R440). -/
def State.liveSlots (s : State) (p : Nat) : List (Nat × Nat) :=
  (s.glb.slotMap.filter fun x => x.1 = p && (s.core x.2.2).state != .retired).map (·.2)

/-- A core may take a new job: powered, in service and free for that kind (R21, R151, R434). -/
def State.coreFree (s : State) (core : Nat) (drypoint : Bool) : Bool :=
  let c := s.core core
  c.state != .off && c.state != .retired && c.state != .selfTest && !c.leaving &&
    (if drypoint then c.dryJob.isNone else c.job.isNone)

/-- The free slots of a partition, lowest first. -/
def State.freeSlots (s : State) (p : Nat) (drypoint : Bool) : List (Nat × Nat) :=
  (s.liveSlots p).filter fun x => s.coreFree x.2 drypoint

/-! ## A core's fault (R122, R434, R436, R522) -/

/-- A faulty core leaves service. Where its cluster has a rolling spare, the spare takes its slot, the
spare's self-test is abandoned and rotation is suspended. The result says whether a spare took over. -/
def State.coreLeaves (core : Nat) (s : State) : Bool × State :=
  let c := clusterOf core
  let cl := s.cluster c
  let mark (s : State) : State := s.updCore core fun x => { x with leaving := true }
  match cl.spare with
  | some sp =>
    if sp.val ≠ posOf core ∧ s.coreSlot core ≠ none then
      let spare := 9 * c + sp.val
      let s1 := (mark s).updGlb fun g => { g with
        slotMap := g.slotMap.map fun x => if x.2.2 = core then (x.1, x.2.1, spare) else x }
      let s2 := s1.updCluster c fun x => { x with
        spare := none, testing := false, handover := false, suspended := true, abandoned := some sp }
      let s3 := s2.updCore spare fun x => { x with state := .idle }
      (true, s3.report 0x02 (9 * c) 5 0 0x000A none 0 c)
    else (false, mark s)
  | none => (false, mark s)

/-- The jobs that hold a core. -/
def State.coreJobs (s : State) (core : Nat) : List Word :=
  ((s.core core).job.toList ++ (s.core core).dryJob.toList)

/-- A fault of a core (R122): a job whose slot no spare takes waits for the core's rejoin, also where the core was
leaving already (R522). The record of code `code` for the unit `kind`, `inst` states whether a
spare takes the slot; the named jobs restart or end; the core leaves service. -/
def State.coreFault (core kind inst code detail : Nat) (ids : List Word) (s : State) : State :=
  let r := if (s.core core).leaving then (false, s) else s.coreLeaves core
  let part := (s.coreSlot core).map (·.1)
  let s1 := r.2.report kind inst (if r.1 then 2 else 1) (if r.1 then 3 else 2) code part
    (ids.headD 0) detail
  let wait := if r.1 ∨ (s.coreSlot core).isNone then none else some core
  let s2 := ids.foldl (fun s id => s.faultJob id wait) s1
  -- the faulted attempt is a job boundary for the core (R433)
  let s3 := ids.foldl (fun s id => s.updCore core (Core.leave id)) s2
  let spare := s3.glb.slotMap.find? fun x => some (x.1, x.2.1) = s.coreSlot core
  match spare with
  | some x =>
    if r.1 then ids.foldl (fun s id =>
      s.updJob id fun j => { j with slots := j.slots.map fun y =>
        if y.core = core then { y with core := x.2.2 } else y }) s3
    else s3
  | none => s3

/-- Faults that a core found in one tile (R122): a record each, and one restart of the jobs that they meet. -/
def State.coreFaults (core : Nat) (fs : List PendingFault) (s : State) : State :=
  match fs with
  | [] => s
  | f :: rest =>
    let spared := !(s.core core).leaving && (s.coreLeaves core).1
    let part := (s.coreSlot core).map (·.1)
    let s1 := rest.foldl (fun s x => s.report x.kind x.inst (if spared then 2 else 1) (if spared then 3 else 2) x.code part
      (x.jobs.headD 0) x.detail) s
    s1.coreFault core f.kind f.inst f.code f.detail (fs.flatMap (·.jobs)).eraseDups

/-- A tile is in progress on a core, be it of a job that its deadline has ended. -/
def Core.inTile (c : Core) : Bool := c.tail.isSome || c.banks.any (·.state = .computing)

/-- A fault that a core finds outside its arrays: the core finishes the current output tile first (R122). -/
def State.coreFaultAtTileEnd (core : Nat) (f : PendingFault) (s : State) : State :=
  if (s.core core).inTile then s.updCore core fun c => { c with pendingFaults := c.pendingFaults ++ [f] }
  else s.coreFaults core [f]

end Sys2Proof.Machine
end

