-- ==== Sys2Proof/Machine/Descriptor.lean ====
section
/-!
DEFINITION. Descriptors: their fields (R163), the checks of R164 to R166, R173 and R179 to R189 that the
words alone decide, object handles (R148, R149, R253) and the bytes that a descriptor touches.
-/

namespace Sys2Proof.Machine

open Sys2Proof

/-! ## Fields (R163, R166) -/

def Descriptor.word (d : Descriptor) (n : Nat) : Word := d.w.getD n 0
def Descriptor.op (d : Descriptor) : Nat := fld (d.word 0) 7 0
def Descriptor.flag (d : Descriptor) (n : Nat) : Bool := bit (d.word 0) n
def Descriptor.m (d : Descriptor) : Nat := fld (d.word 1) 23 0
def Descriptor.fmtA (d : Descriptor) : Nat := fld (d.word 1) 27 24
def Descriptor.fmtB (d : Descriptor) : Nat := fld (d.word 1) 31 28
def Descriptor.n (d : Descriptor) : Nat := fld (d.word 2) 23 0
def Descriptor.fmtC (d : Descriptor) : Nat := fld (d.word 2) 27 24
def Descriptor.sub (d : Descriptor) : Nat := fld (d.word 2) 31 28
def Descriptor.k (d : Descriptor) : Nat := fld (d.word 3) 23 0
def Descriptor.mvThresh (d : Descriptor) : Nat := fld (d.word 3) 28 24
def Descriptor.aObj (d : Descriptor) : Word := d.word 4
def Descriptor.aOff (d : Descriptor) : Nat := (d.word 5).toNat
def Descriptor.bObj (d : Descriptor) : Word := d.word 6
def Descriptor.bOff (d : Descriptor) : Nat := (d.word 7).toNat
def Descriptor.cObj (d : Descriptor) : Word := d.word 8
def Descriptor.cOff (d : Descriptor) : Nat := (d.word 9).toNat
def Descriptor.batch (d : Descriptor) : Nat := fld (d.word 10) 15 0
def Descriptor.param0 (d : Descriptor) : Nat := fld (d.word 10) 31 16
def Descriptor.epilogue (d : Descriptor) : Word := d.word 14
def Descriptor.param1 (d : Descriptor) : BitVec 16 := (d.word 15).extractLsb' 0 16
def Descriptor.param2 (d : Descriptor) : BitVec 16 := (d.word 15).extractLsb' 16 16
/-- SATFINITE (R135, R164). -/
def Descriptor.satFinite (d : Descriptor) : Bool := d.flag 8

/-- The geometry of CONV and POOL (R166). -/
structure Geometry where
  inW : Nat := 1
  inH : Nat := 1
  kw : Nat := 1
  kh : Nat := 1
  strideW : Nat := 1
  strideH : Nat := 1
  dilW : Nat := 1
  dilH : Nat := 1
  padMode : Nat := 0
  padL : Nat := 0
  padR : Nat := 0
  padT : Nat := 0
  padB : Nat := 0
  depthwise : Bool := false
  layout : Nat := 0
deriving DecidableEq, Repr, Inhabited

def Descriptor.geo (d : Descriptor) : Geometry :=
  let a := d.word 11
  let b := d.word 12
  { inW := fld a 12 0, inH := fld a 25 13, kw := fld a 28 26 + 1, kh := fld a 31 29 + 1,
    strideW := fld b 1 0 + 1, strideH := fld b 3 2 + 1, dilW := fld b 6 4 + 1, dilH := fld b 9 7 + 1,
    padMode := fld b 11 10, padL := fld b 14 12, padR := fld b 17 15, padT := fld b 20 18,
    padB := fld b 23 21, depthwise := bit b 24, layout := fld b 26 25 }

/-- One dimension of the output, where the kernel fits (R166). -/
def outDim (n lo hi dil kern stride : Nat) : Nat :=
  if n + lo + hi < dil * (kern - 1) + 1 then 0 else (n + lo + hi - dil * (kern - 1) - 1) / stride + 1
def Geometry.outW (g : Geometry) : Nat := outDim g.inW g.padL g.padR g.dilW g.kw g.strideW
def Geometry.outH (g : Geometry) : Nat := outDim g.inH g.padT g.padB g.dilH g.kh g.strideH

/-! ## Map layouts (R172, R173) -/

/-- Channels of a map as it is stored, pad channels included (R172). -/
def padChannels (layout c : Nat) : Nat :=
  if c = 1 then 1 else if layout = 0 then (c + 15) / 16 * 16 else if layout = 1 then (c + 31) / 32 * 32 else c

/-- The element address of (c, p) in an image of `c` channels and `hw` pixels (R172). -/
def mapAddr (layout chans hw c p : Nat) : Nat :=
  if chans = 1 then p
  else if layout = 0 then (c / 16 * hw + p) * 16 + c % 16
  else if layout = 1 then (c / 32 * hw + p) * 32 + c % 32
  else p * chans + c

/-- Elements of an image, and the bytes from one image of a batch to the next (R172). -/
def mapElems (layout chans hw : Nat) : Nat := padChannels layout chans * hw
def mapStride (f layout chans hw : Nat) : Nat := (tensorBytes f 1 (mapElems layout chans hw) + 63) / 64 * 64

/-- Bytes of a batch of images. -/
def mapsBytes (f layout chans hw batch : Nat) : Nat :=
  if batch = 0 then 0
  else (batch - 1) * mapStride f layout chans hw + tensorBytes f 1 (mapElems layout chans hw)

/-- Bits of a raw sample by SUB, and whether the samples are interleaved (R188). -/
def rawBits (sub : Nat) : Nat := if sub % 4 = 1 then 8 else if sub % 4 = 2 then 10 else 12
def rawInterleaved (sub : Nat) : Bool := decide (4 < sub)
/-- The row pitch of a raw plane (R188). -/
def rawPitch (sub k w : Nat) : Nat :=
  let samples := if rawInterleaved sub then w * k else w
  ((samples * rawBits sub + 7) / 8 + 15) / 16 * 16
/-- Bytes of a raw image. -/
def rawBytes (sub k w h : Nat) : Nat := rawPitch sub k w * h * (if rawInterleaved sub then 1 else k)

/-! ## What the words alone decide -/

/-- The bits of words 1 to 15 that an opcode uses; every other bit must be 0 (R163, R165). -/
def usedBits (op sub : Nat) : List Nat :=
  let all := 0xFFFFFFFF
  match op with
  | 0x01 => [all, 0x0FFFFFFF, 0x1FFFFFFF, all, all, all, all, all, all, 0xFFFF, all, all, all, all, 0]
  | 0x02 => [all, all, 0x00FFFFFF, all, all, all, all, all, all, 0xFFFF, all, 0x07FFFFFF, all, all, all]
  | 0x03 => [0x0FFFFFFF, all, 0, all, all, 0, 0, all, all, 0xFFFF, all, 0x06FFFFFF, all, all, 0]
  | 0x04 => if sub = 1 then [all, all, 0, all, all, 0, 0, 0, 0, 0x001F0000, 0, 0, 0, 0, 0]
      else [all, all, 0, all, all, all, all, all, all, 0xFFFF, all, all, all, all, 0]
  | 0x05 => [all, all, 0, all, all, all, all, all, all, 0xFFFF, all, 0, all, all, 0]
  | 0x06 => [all, all, 0, all, all, all, all, all, all, all, all, all, all, 0, 0]
  | 0x07 => [all, 0x0FFFFFFF, 0, all, all, all, all, all, all, 0xFFFF, all, all, 0, 0, 0]
  | 0x08 => [0x0FFFFFFF, all, 0, all, all, 0, 0, all, all, 0x001F0000, 0, 0, 0, 0, 0]
  | 0x09 => [0x0FFFFFFF, 0xF0FFFFFF, 0, all, all, 0, 0, all, all, 0, 0, 0, all, 0, 0]
  | 0x0A =>
      if sub = 1 then [0x0FFFFFFF, all, 0, all, all, 0, 0, all, all, all, 0, 0, 0, 0, 0xFFFF]
      else if sub = 2 then [0x0FFFFFFF, all, 0, all, all, 0, 0, 0, 0, 0xFFFF0000, 0, 0, 0, 0, 0]
      else [0x0FFFFFFF, all, 0, all, all, 0, 0, all, all, 0, all, 0, all, 0, 0]
  | 0x0B => [0, 0xF0000000, 0, 0, 0, 0, 0, 0, 0, 0, if sub = 1 then 0x0FFFFFFF else all,
      if sub = 1 then 0 else all, 0, 0, 0]
  | 0x0C => [0, 0, 0, 0, 0, 0, 0, 0, 0, 0x000F0000, 0xFFFF, 0, 0, 0, 0]
  | 0x0D => [0, 0, 0, 0, 0, 0, 0, 0, 0, 0x000F0000, all, 0, 0, 0, 0]
  | 0x0E => if sub = 1 then [0x0FFFFFFF, 0xF0FFFFFF, 0, all, all, 0, 0, 0, 0, 0x000F0000, 0, 0, 0, 0, 0xFFFF]
      else [0, 0xF0000000, 0, 0, 0, 0, 0, 0, 0, 0x000F0000, 0, 0, 0, 0, 0xFFFF]
  | 0x0F => [0, 0, 0, all, all, 0, 0, all, all, 0, 0, 0, 0, 0, 0]
  | 0x10 => [0, 0, 0, all, all, 0, 0, all, all, 0x00FF0000, 0, 0, 0, 0, 0]
  | _ => []

/-- The flag bits 8 to 14 that an opcode uses (R164). -/
def usedFlags (op sub : Nat) : Nat :=
  let sat := if op = 1 ∨ op = 2 ∨ op = 3 ∨ (op = 4 ∧ sub = 0) ∨ op = 5 ∨ op = 6 ∨ op = 7 ∨ op = 8 then 256 else 0
  sat + (if op = 2 then 512 + 2048 else 0) + (if op = 4 then 1024 else 0) +
    (if op = 7 ∨ op = 8 then 4096 else 0) + (if op = 2 ∨ op = 3 then 8192 else 0) + 16384

/-- The largest SUB of an opcode (R165, R188). -/
def maxSub (op : Nat) : Nat :=
  match op with
  | 0x02 => 7 | 0x03 => 2 | 0x04 => 1 | 0x05 => 1 | 0x06 => 1 | 0x08 => 2 | 0x09 => 1 | 0x0A => 3
  | 0x0B => 1 | 0x0E => 1 | _ => 0

/-- A word index where a condition is broken. -/
def bad (c : Bool) (i : Nat) : List Nat := if c then [i] else []

/-- The rows of the GEMM that a batch of weight stride 0 makes, or of one item (R116). -/
def Descriptor.rowsM (d : Descriptor) : Nat := if d.word 12 = 0 then d.batch * d.m else d.m

/-- The pairing of matrix formats (R125). -/
def pairs (a b : Nat) : Bool :=
  decide (a ≤ 0xB) && decide (b ≤ 0xB) && fmtInt a == fmtInt b

/-- The bytes of one transformed Winograd activation, times 32 (R181). -/
def winogradBytes (f : Nat) : Nat := if f = 0xA ∨ f = 0xB then 64 else 33

/-- The faults of a CONV or POOL descriptor's geometry and limits (R166, R173, R179 to R181, R185 to
R189). -/
def mapFaults (d : Descriptor) (dry : Bool) (width plateLocal : Nat) : List Nat :=
  let g := d.geo
  let conv := d.op = 2
  let margin := d.flag 13
  let raw := conv && d.sub != 0
  let inCh := if conv then d.k else d.n
  let wino := d.flag 11
  bad (g.inW = 0 || g.inH = 0) 11 ++ bad (g.layout = 3) 12 ++
  bad (g.outW = 0 || g.outH = 0 || d.m != g.outW * g.outH) 1 ++
  bad (g.depthwise && d.n != d.k) 12 ++
  bad ((fmtMx d.fmtA && !raw && (inCh % 32 != 0 || g.layout = 0)) ||
    (fmtMx d.fmtC && (d.n % 32 != 0 || g.layout = 0))) 1 ++
  bad (g.padMode = 2 && (decide (g.inW ≤ g.padL) || decide (g.inW ≤ g.padR) || decide (g.inH ≤ g.padT) ||
    decide (g.inH ≤ g.padB))) 12 ++
  bad (g.padMode != 1 && d.word 13 != 0) 13 ++
  (if wino then
    bad (g.kw != 3 || g.kh != 3 || g.strideW != 1 || g.strideH != 1 || g.dilW != 1 || g.dilH != 1 ||
      g.depthwise || margin || !(d.fmtA = 0xA || d.fmtA = 0xB || d.fmtA = 5 || d.fmtA = 6 ||
        (d.fmtA = 0 && d.flag 9)) || decide (1024 * 32 < d.k * winogradBytes d.fmtA) ||
      decide (plateLocal < width * 2048)) 0
   else bad (d.flag 9) 0) ++
  bad (d.flag 9 && (d.fmtA != 0 || d.fmtB != 4)) 0 ++
  (if margin then
    bad (decide (7 < g.kw) || decide (7 < g.kh)) 11 ++
    bad (if conv then (if g.depthwise then decide (8 < d.k) else decide (8 < d.k) && decide (8 < d.n))
      else decide (8 < d.n)) 2 ++
    bad (raw && (decide (8 < d.k) || d.sub = 4)) 2
   else bad raw 2 ++ bad (conv && d.word 15 != 0) 15) ++
  bad (dry && (conv || margin)) 0

/-- The word of a descriptor that R162 to R166 and the chapters refuse with BAD_DESCRIPTOR, the lowest
first; `dry` is set in a Drypoint job (R151). -/
def Descriptor.fault (d : Descriptor) (dry : Bool) (width plateLocal : Nat) : Option Nat :=
  let op := d.op
  let sub := d.sub
  let masks := usedBits op sub
  let fa := d.fmtA
  let fc := d.fmtC
  let l := bad (op = 0 || decide (0x10 < op) || fld (d.word 0) 31 15 != 0) 0 ++
    bad (fld (d.word 0) 14 8 &&& (127 - usedFlags op sub / 256) != 0) 0 ++
    (masks.zipIdx.flatMap fun x => bad (d.word (x.2 + 1) &&& ~~~ (wd x.1) != 0) (x.2 + 1)) ++
    bad (decide (13 < fa) || decide (13 < d.fmtB)) 1 ++
    bad (decide (13 < fc) || decide (maxSub op < sub)) 2 ++
    (match op with
     | 0x01 => bad (decide (16 < d.mvThresh)) 3 ++ bad (!pairs fa d.fmtB) 1 ++
        bad (fc = 13 && !(fmtInt fa && fmtInt d.fmtB)) 2 ++
        bad (dry && d.m != 0 && d.n != 0 && d.batch != 0 && d.k != 0 && d.n != 1 && decide (16 < d.rowsM)) 1
     | 0x02 => mapFaults d dry width plateLocal ++ bad (!pairs fa d.fmtB && !d.flag 9) 1 ++
        bad (fc = 13 && !(fmtInt fa && fmtInt d.fmtB)) 2
     | 0x03 => mapFaults d dry width plateLocal
     | 0x04 => bad (dry && d.flag 10) 0
     | 0x06 => bad (dry && sub = 1) 2 ++ bad (decide (fa < 2) || decide (0xB < fa)) 1 ++
        bad (decide (fc < 2) || decide (0xC < fc)) 2 ++
        bad (!(((d.fmtB = 2 || d.fmtB = 3) && d.n = 128) || ((d.fmtB = 0xA || d.fmtB = 0xB) && d.n = 64))) 1 ++
        bad (d.batch = 0 || decide (64 < d.batch)) 10 ++ bad (d.word 11 = 0) 11 ++
        bad (d.m = 0 || decide (131072 < d.m) || (sub = 0 && decide (16 < d.m))) 1
     | 0x07 => bad (d.n = 0) 2 ++ bad (d.batch = 0 || decide (64 < d.batch)) 10 ++ bad (d.word 11 = 0) 11
     | 0x08 => bad (sub = 2 && d.flag 12) 0
     | 0x09 => bad (!(fa = 0xC || fa = 0xA || fa = 0xB || fa = 0 || fa = 0xD) || d.m = 0 ||
          decide (262144 < d.m)) 1 ++ bad (d.n = 0 || decide (1024 < d.n)) 2 ++
        bad (f32IsNan (d.word 13)) 13
     | 0x0A => bad (fc != fa) 2 ++
        bad (sub = 1 && decide (2 < d.param0)) 10 ++
        bad (sub = 2 && (decide (d.param0 < 2) || decide (4 < d.param0))) 10 ++
        bad (sub = 1 && (decide (2 < d.param1.toNat) || (fmtMx fa && d.param1 = 0))) 15
     | 0x0B => bad (sub = 0 && !compactOk { w0 := d.word 11, w1 := d.word 12 }) 11
     | 0x0C => bad (fld (d.word 11) 15 0 = 0) 11
     | _ => [])
  l.foldl (fun acc x => match acc with
    | none => some x
    | some y => some (min x y)) none

/-! ## Object handles (R148, R149, R253) -/

/-- Why a descriptor or a job fails: a status of R162 and its DETAIL. -/
abbrev Failure := Byte × Word

/-- What a handle names for a slot of a job. -/
inductive Handle where
  | t1 | plateLocal
  | out (k : Nat)
  | bound (k : Nat)
  | missing | invalid
deriving DecidableEq, Repr, Inhabited

/-- The stream alias of an ID (R148). -/
def isAlias (id : Word) : Bool := decide (0xFE000000 ≤ id.toNat) && decide (id.toNat ≤ 0xFE00002F)
/-- A reference object of a Stylus channel group (R254). -/
def isReference (id : Word) : Bool := decide (0xFB000000 ≤ id.toNat) && decide (id.toNat ≤ 0xFB00000F)
/-- A directory ID that a job may bind: outside the ranges of R202, R230 and R254, but for reference
objects. -/
def isDirectory (id : Word) : Bool :=
  id != 0 && (decide (id.toNat < 0xFB000000) || isReference id)

/-- Resolve an object ID in a job (R148). -/
def Job.handle (j : Job) (id : Word) : Handle :=
  if id = 0xFFFFFFFE then (match j.origin with
    | .move _ => .invalid
    | _ => .t1)
  else if id = 0xFFFFFFFF then .plateLocal
  else if isAlias id || isDirectory id then
    match j.outs.findIdx? (·.obj = id) with
    | some k => .out k
    | none =>
      match j.bound.findIdx? (·.obj = id) with
      | some k => .bound k
      | none => .missing
  else .invalid

/-- The bytes that a handle reads. -/
def Job.bytes (j : Job) (slot : Nat) (id : Word) : Memory :=
  match j.handle id with
  | .t1 => (j.slots.getD slot {}).t1
  | .plateLocal => j.local_
  | .out k => (j.outs.getD k {}).data
  | .bound k => (j.bound.getD k {}).data
  | _ => []

/-- The size of the slot's T1 region: the core's scratch (R109). -/
def t1Bytes : Nat := 1048576

/-- The end of an object for a read: an output without an OBJECT_PLACE entry ends at the highest byte
written so far (R148, R253). -/
def Job.readEnd (j : Job) (id : Word) : Nat :=
  match j.handle id with
  | .t1 => t1Bytes
  | .plateLocal => j.chain.plateLocal * 4096
  | .out k => let o := j.outs.getD k {}; o.fixedLen.getD o.extent
  | .bound k => (j.bound.getD k {}).len
  | _ => 0

/-- The end of an object for a write; none where it has none (R148). -/
def Job.writeEnd (j : Job) (id : Word) : Option Nat :=
  match j.handle id with
  | .t1 => some t1Bytes
  | .plateLocal => some (j.chain.plateLocal * 4096)
  | .out k => (j.outs.getD k {}).fixedLen
  | _ => some 0

/-- Why a read of bytes fails, if it does (R148, R149, R257). -/
def Job.readFault (j : Job) (id : Word) (off n : Nat) : Option Failure :=
  match j.handle id with
  | .invalid => some (stBadHandle, 0)
  | .missing => some (stNoObject, id)
  | .bound k =>
    if (j.bound.getD k {}).gone then some (stNoObject, id)
    else if n ≠ 0 ∧ j.readEnd id < off + n then some (stBadRange, id) else none
  | _ => if n ≠ 0 ∧ j.readEnd id < off + n then some (stBadRange, id) else none

/-- Why a write of bytes fails, if it does (R148, R254). -/
def Job.writeFault (j : Job) (id : Word) (off n : Nat) : Option Failure :=
  match j.handle id with
  | .t1 | .plateLocal | .out _ =>
    match j.writeEnd id with
    | none => none
    | some e => if n ≠ 0 ∧ e < off + n then some (stBadRange, id) else none
  | _ => some (stBadHandle, 0)

/-- A write through a handle: `f` changes the bytes, and `hi` is one past the highest byte written. -/
def Job.put (j : Job) (slot : Nat) (id : Word) (hi : Nat) (f : Memory → Memory) : Job :=
  match j.handle id with
  | .t1 => { j with slots := j.slots.modify slot fun x => { x with t1 := f x.t1 } }
  | .plateLocal => { j with local_ := f j.local_ }
  | .out k => { j with outs := j.outs.modify k fun o => { o with data := f o.data, extent := max o.extent hi } }
  | _ => j

/-! ## The bytes that a descriptor touches -/

/-- One operand: object, byte offset, bytes, and whether it is written. -/
structure Touch where
  obj : Word := 0
  off : Nat := 0
  len : Nat := 0
  write : Bool := false
deriving DecidableEq, Repr, Inhabited

/-- Operands of a batch with a stride. -/
def strided (obj : Word) (off stride len batch : Nat) (write : Bool) : List Touch :=
  (List.range batch).map fun b => { obj := obj, off := off + b * stride, len := len, write := write }

/-- Bytes of `m` rows at a pitch; a pitch of 0 packs the rows (log 12). -/
def pitchedBytes (f m n pitch : Nat) : Nat :=
  if pitch = 0 ∨ fmtMx f then tensorBytes f m n
  else if m = 0 then 0 else (m - 1) * pitch + rowBytes f n

/-- The degenerate shapes that write nothing (R114, R177). -/
def Descriptor.empty (d : Descriptor) : Bool :=
  match d.op with
  | 0x01 => d.m = 0 || d.n = 0 || d.batch = 0
  | 0x02 => d.n = 0 || d.batch = 0
  | 0x03 => d.n = 0 || d.batch = 0
  | _ => false

/-- Filters of a CONV: rows and weights per row; a Winograd filter set holds 16 positions (log 12). -/
def Descriptor.filterShape (d : Descriptor) : Nat × Nat :=
  let g := d.geo
  if d.flag 11 then (16 * d.n, d.k)
  else if g.depthwise then (d.n, g.kh * g.kw) else (d.n, d.k * g.kh * g.kw)

/-- Bytes of the input images of a CONV or POOL. -/
def Descriptor.inBytes (d : Descriptor) : Nat :=
  let g := d.geo
  if d.op = 2 ∧ d.sub ≠ 0 then
    (d.batch - 1) * ((rawBytes d.sub d.k g.inW g.inH + 63) / 64 * 64) + rawBytes d.sub d.k g.inW g.inH
  else mapsBytes d.fmtA g.layout (if d.op = 2 then d.k else d.n) (g.inW * g.inH) d.batch

/-- What a descriptor touches, as far as its words say it. -/
def Descriptor.touches (d : Descriptor) : List Touch :=
  let st (n : Nat) : Nat := (d.word n).toNat
  if d.empty then []
  else match d.op with
  | 0x01 =>
    strided d.aObj d.aOff (st 11) (tensorBytes d.fmtA d.m d.k) (if d.k = 0 then 0 else d.batch) false ++
    strided d.bObj d.bOff (st 12) (tensorBytes d.fmtB d.n d.k) (if d.k = 0 then 0 else d.batch) false ++
    strided d.cObj d.cOff (st 13) (tensorBytes d.fmtC d.m d.n) d.batch true
  | 0x02 =>
    (if d.k = 0 then [] else
      [{ obj := d.aObj, off := d.aOff, len := d.inBytes },
       { obj := d.bObj, off := d.bOff, len := tensorBytes d.fmtB d.filterShape.1 d.filterShape.2 }] ++
      (if d.word 15 = 0 then [] else [{ obj := d.word 15, off := 0, len := 4 + 8 * d.k }])) ++
    [{ obj := d.cObj, off := d.cOff, len := mapsBytes d.fmtC d.geo.layout d.n d.m d.batch, write := true }]
  | 0x03 =>
    [{ obj := d.aObj, off := d.aOff, len := d.inBytes },
     { obj := d.cObj, off := d.cOff, len := mapsBytes d.fmtC d.geo.layout d.n d.m d.batch, write := true }]
  | 0x04 =>
    if d.sub = 1 then [{ obj := d.aObj, off := d.aOff, len := 4 }]
    else
      strided d.aObj d.aOff (st 11) (tensorBytes d.fmtA d.m d.n) d.batch false ++
      (if d.bObj = 0 then [] else strided d.bObj d.bOff (st 12) (tensorBytes d.fmtB d.m d.n) d.batch false) ++
      strided d.cObj d.cOff (st 13) (tensorBytes d.fmtC d.m d.n) d.batch true
  | 0x05 =>
    strided d.aObj d.aOff (st 11) (tensorBytes d.fmtA d.m d.n) (max 1 d.batch) false ++
    (if d.bObj = 0 then [] else
      [{ obj := d.bObj, off := d.bOff, len := 4 * d.n * (d.sub + 1) }]) ++
    [{ obj := d.cObj, off := d.cOff, len := tensorBytes d.fmtC (max 1 d.batch * d.m) d.n, write := true }]
  | 0x06 => [{ obj := d.bObj, off := d.bOff, len := 4 * d.batch }]
  | 0x07 => [{ obj := d.word 11, off := 0, len := 16 + 8 * d.batch }]
  | 0x08 =>
    [{ obj := d.aObj, off := d.aOff, len := tensorBytes d.fmtA d.m d.n },
     { obj := d.cObj, off := d.cOff, len := tensorBytes d.fmtC d.m d.n, write := true }]
  | 0x09 =>
    [{ obj := d.aObj, off := d.aOff, len := tensorBytes d.fmtA 1 d.m },
     { obj := d.cObj, off := d.cOff, len := 8 * d.n, write := true }]
  | 0x0A =>
    if d.sub = 0 then
      [{ obj := d.aObj, off := d.aOff, len := pitchedBytes d.fmtA d.m d.n (st 11) },
       { obj := d.cObj, off := d.cOff, len := pitchedBytes d.fmtC d.m d.n (st 13), write := true }]
    else if d.sub = 1 then
      [{ obj := d.aObj, off := d.aOff, len := mapsBytes d.fmtA d.param0 d.n d.m d.batch },
       { obj := d.cObj, off := d.cOff, len := mapsBytes d.fmtC d.param1.toNat d.n d.m d.batch, write := true }]
    else if d.sub = 3 then
      [{ obj := d.aObj, off := d.aOff, len := pitchedBytes d.fmtA d.m d.n (st 11) },
       { obj := d.cObj, off := d.cOff, len := pitchedBytes d.fmtC d.n d.m (st 13), write := true }]
    else []
  | 0x0F => [{ obj := d.aObj, off := d.aOff, len := 64 }]
  | 0x10 => [{ obj := d.aObj, off := d.aOff, len := 16 }]
  | 0x0E => if d.sub = 1 then [{ obj := d.aObj, off := d.aOff, len := tensorBytes d.fmtA d.m d.n }] else []
  | _ => []

/-- The first failure of a list of operands. -/
def Job.touchFault (j : Job) (ts : List Touch) : Option Failure :=
  ts.findSome? fun t =>
    if t.write then j.writeFault t.obj t.off t.len else j.readFault t.obj t.off t.len

/-- The object IDs that a descriptor reads and writes (R120). -/
def Descriptor.reads (d : Descriptor) : List Word :=
  [d.aObj, d.bObj, d.epilogue] ++ (if d.op = 6 then [d.word 11] else if d.op = 7 then [d.word 11, d.word 12] else []) ++
    (if d.op = 2 then [d.word 15] else [])
def Descriptor.writes (d : Descriptor) : List Word := [d.cObj].filter (· != 0)

/-- A tensor field names an ID that no descriptor may name, whether or not a byte is touched (R148, R202, R230). -/
def Job.namesInvalid (j : Job) (d : Descriptor) : Bool :=
  (d.reads ++ d.writes).any fun id => id != 0 && j.handle id = .invalid

/-! ## In-flight descriptors -/

def State.updSlot (id : Word) (slot : Nat) (f : SlotState → SlotState) (s : State) : State :=
  s.updJob id fun j => { j with slots := j.slots.modify slot f }

def State.updFlight (id : Word) (slot index : Nat) (f : InFlight → InFlight) (s : State) : State :=
  s.updSlot id slot fun x => { x with
    inFlight := x.inFlight.map fun i => if i.index = index then f i else i }

/-- The oldest descriptor of a slot that is issued and has not acted, of an opcode and a form. -/
def Job.ready (j : Job) (slot op : Nat) (p : Descriptor → Bool) : Option InFlight :=
  if j.state = .running then
    (j.slots.getD slot {}).inFlight.find? fun i => i.stage = .issued && i.desc.op = op && p i.desc
  else none

/-- An operation acts for the oldest issued descriptor of its opcode and form in a slot; where there is
none, or while its core waits for weights (R103, R267), the event does not take place (log 1). -/
def State.act (id : Word) (slot op : Nat) (p : Descriptor → Bool) (f : Job → InFlight → State → State)
    (s : State) : State :=
  match s.job? id with
  | none => s
  | some j =>
    if (s.core ((j.slots.getD slot {}).core)).state = .waitWeights then s
    else match j.ready slot op p with
      | none => s
      | some i => f j i s

/-- A descriptor has acted: it carries its status, flags, RESULT and DETAIL to its record. -/
def State.acted (j : Job) (slot : Nat) (i : InFlight) (status : Byte) (flags : NumFlags) (result detail : Word)
    (cycles : Nat) (s : State) : State :=
  s.updFlight j.id slot i.index fun x =>
    { x with stage := .acted, status := status, flags := x.flags.or flags, result := result, detail := detail,
             cycles := cycles }

/-- The physical core of a slot of a job. -/
def Job.coreOf (j : Job) (slot : Nat) : Nat := (j.slots.getD slot {}).core

/-- A write of an operand of a job. -/
def State.store (j : Job) (slot : Nat) (id : Word) (hi : Nat) (f : Memory → Memory) (s : State) : State :=
  s.updJob j.id fun x => x.put slot id hi f

/-! ## Epilogues (R167) -/

/-- One step of an epilogue program with its operand ready. -/
structure EpiStep where
  op : Nat := 0
  src : Nat := 0
  table : PwlTable := {}
  vec : List Word := []
  imm : Word := 0
deriving DecidableEq, Repr, Inhabited

/-- One step of the program in an object: its operand vector and table, or why the descriptor fails. -/
def epiStep (j : Job) (slot : Nat) (pwl : List (Nat × PwlTable)) (m : Memory) (rows cols : Nat) (ew : Bool)
    (k : Nat) : Except Failure EpiStep :=
  let w (n : Nat) : Word := Memory.readWord m (4 + 16 * k + 4 * n)
  let op := fld (w 0) 5 0
  let src := fld (w 0) 9 8
  let tbl := pwl.lookup (fld (w 0) 20 16)
  if op = 0 ∨ 0x0C < op ∨ fld (w 0) 31 21 ≠ 0 ∨ fld (w 0) 15 10 ≠ 0 ∨ fld (w 0) 7 6 ≠ 0 ∨
      (src = 3 ∧ !ew) ∨ (op = 7 ∧ tbl.isNone) ∨ ((src = 0 ∨ src = 3) ∧ w 1 ≠ 0) then
    .error (stBadDescriptor, 14)
  else
    let n := if src = 1 then cols else if src = 2 then rows else 0
    let off := (w 2).toNat
    let fault := if n = 0 then none else j.readFault (w 1) off (4 * n)
    match fault with
    | some f => .error f
    | none => .ok { op := op, src := src, table := tbl.getD {}, imm := w 3,
                    vec := Memory.readWords (j.bytes slot (w 1)) off n }

/-- The steps of a list, or the first failure. -/
def collect {α : Type} : List (Except Failure α) → Except Failure (List α)
  | [] => .ok []
  | .error e :: _ => .error e
  | .ok x :: r => match collect r with
    | .error e => .error e
    | .ok xs => .ok (x :: xs)

/-- The program that EPILOGUE names for `rows` x `cols` results (R167). -/
def State.epilogue (s : State) (j : Job) (slot : Nat) (obj : Word) (rows cols : Nat) (ew : Bool) :
    Except Failure (List EpiStep) :=
  if obj = 0 then .ok []
  else
    match j.readFault obj 0 4 with
    | some f => .error f
    | none =>
      let m := j.bytes slot obj
      let n := fld (Memory.readWord m 0) 2 0
      if 4 < n ∨ fld (Memory.readWord m 0) 31 3 ≠ 0 then .error (stBadDescriptor, 14)
      else
        match j.readFault obj 0 (4 + 16 * n) with
        | some f => .error f
        | none =>
          match collect ((List.range n).map
              (epiStep j slot (s.core (j.coreOf slot)).pwl m rows cols ew)) with
          | .error e => .error e
          | .ok steps =>
            if 1 < (steps.filter fun x => decide (8 ≤ x.op)).length then .error (stBadDescriptor, 14)
            else .ok steps

/-- One step of a program at one result (R138, R139, R167). -/
def EpiStep.apply (e : EpiStep) (row col : Nat) (b x : Word) : Word × NumFlags :=
  let v := if e.src = 0 then e.imm else if e.src = 1 then e.vec.getD col 0
    else if e.src = 2 then e.vec.getD row 0 else b
  match e.op with
  | 1 => fAdd x v
  | 2 => fSub x v
  | 3 => fMul x v
  | 4 => fFma x v e.imm
  | 5 => (fMin x v, {})
  | 6 => (fMax x v, {})
  | 7 => e.table.eval x
  | op => precise op x

/-- A program at one result, in step order. -/
def runSteps (steps : List EpiStep) (row col : Nat) (b : Word) (x : Word × NumFlags) : Word × NumFlags :=
  steps.foldl (fun a e => let r := e.apply row col b a.1; (r.1, a.2.or r.2)) x

end Sys2Proof.Machine
end

