-- ==== Sys2Proof/Machine/ContextOps.lean ====
section
/-!
DEFINITION. Contexts as a job meets them: holds, working copies, the state budget and swaps (R205, R206,
R230, R231, R233, R242, R243).
-/

namespace Sys2Proof.Machine

open Sys2Proof

def State.context? (s : State) (n : Nat) : Option Context := s.ctx.table.find? (·.id = n)
def State.updContext (n : Nat) (f : Context → Context) (s : State) : State :=
  s.updCtx fun c => { c with table := c.table.map fun x => if x.id = n then f x else x }

/-- A context ID lies in the range of a partition (R197). -/
def State.inRange (s : State) (p n : Nat) : Bool :=
  let r := s.otl.running.ctxRange p
  decide (r.1 ≤ n) && decide (n < r.1 + r.2)

/-- A context as the attempt of a job sees it (R206). -/
def State.seenBy (s : State) (j : Job) (n : Nat) : Option Context :=
  (j.journal.ctxs.find? (·.id = n)).or (s.context? n)

/-- The attempt of a job changes its copy of a context. -/
def Journal.put (c : Context) (x : Journal) : Journal :=
  { x with ctxs := x.ctxs.filter (·.id != c.id) ++ [c] }

/-! ## What descriptors name (R217, R232) -/

/-- The context list of an ATTN descriptor. -/
def Descriptor.attnCtxs (d : Descriptor) (m : Memory) : List Nat :=
  (Memory.readWords m d.bOff d.batch).map fun w => fld w 13 0

/-- The header of a state-list object, and its streams with their slices (R232). -/
structure StateList where
  count : Nat := 0
  gates : Bool := false
  group : Nat := 1
  lookahead : Nat := 0
  aPitch : Nat := 0
  bPitch : Nat := 0
  reserved : Bool := false
  streams : List (Nat × Nat) := []
deriving DecidableEq, Repr, Inhabited

def parseStateList (m : Memory) (batch : Nat) : StateList :=
  let w (n : Nat) : Word := Memory.readWord m (4 * n)
  { count := fld (w 0) 6 0, gates := bit (w 0) 8, group := 2 ^ fld (w 0) 15 12, lookahead := fld (w 0) 23 16,
    aPitch := (w 1).toNat, bPitch := (w 2).toNat,
    reserved := fld (w 0) 31 24 != 0 || fld (w 0) 11 9 != 0 || bit (w 0) 7 || w 3 != 0 ||
      (List.range batch).any fun k => fld (w (4 + 2 * k)) 31 14 != 0,
    streams := (List.range batch).map fun k => (fld (w (4 + 2 * k)) 13 0, (w (5 + 2 * k)).toNat) }

/-- The contexts that a descriptor names. -/
def Descriptor.contexts (d : Descriptor) (j : Job) (slot : Nat) : List Nat :=
  if d.op = 6 then d.attnCtxs (j.bytes slot d.bObj)
  else if d.op = 7 then ((parseStateList (j.bytes slot (d.word 11)) d.batch).streams).map (·.1)
  else []

/-! ## The state budget and swaps (R231, R242, R243) -/

/-- Bytes of a partition that count against its state budget: resident regions, regions on their way in or out,
and working copies (R231). -/
def State.regionBytes (s : State) (p : Nat) : Nat :=
  total ((s.ctx.table.filter (·.part = p)).map fun c => match c.rec_ with
    | some r => if r.resident || (s.ctx.swaps.any fun w => w.ctx = c.id && w.swapIn) then 64 * r.units else 0
    | none => 0) +
  total ((s.jobs.list.filter (·.part = p)).flatMap fun j => j.journal.regions.map fun n =>
    match (s.context? n).bind (·.rec_) with
    | some r => 64 * r.units
    | none => 0)

/-- The state budget of a partition (R231). -/
def State.budgetBytes (s : State) (p : Nat) : Nat := ((s.poolOf p).map (·.recStreams)).getD 0 * 8192

/-- An unchanged region with a snapshot can be dropped (R242). -/
def StateRegion.droppable (r : StateRegion) : Bool := r.clean && r.snapshot.isSome

/-- A context's region leaves Plate: an unchanged one is dropped, any other starts to be sealed in T3 through the Tier
Writer, mirrored with MIRROR, and leaves Plate at the fence; false where T3 has no room (R242, R252). `reply` is what to
answer when the swap is done. -/
def State.swapOutNow (c : Context) (r : StateRegion) (reply : Option (Nat × Word)) (s : State) : Bool × State :=
  if r.droppable then
    (true, s.updContext c.id fun x => { x with rec_ := x.rec_.map fun y => { y with resident := false } })
  else
    let w : TierWrite := { kind := .swap, part := c.part, obj := wd (0xFC000000 + c.id), tier := 3, len := r.snapUnits
                           mirrored := s.mirrors c.mirror }
    let q := (s.roomBelow 3 c.part r.snapUnits w.mirrored).2.queueIf w
    if q.1 then
      (true, (q.2.updContext c.id fun x => { x with rec_ := x.rec_.map fun y => { y with swapBusy := true } }).updCtx
        fun x => { x with swaps := x.swaps ++ [{ ctx := c.id, swapIn := false, reply := reply }] })
    else (false, s)

/-- Bytes of a partition's regions on their way out. -/
def State.leavingBytes (s : State) (p : Nat) : Nat :=
  total ((s.ctx.table.filter (·.part = p)).map fun c => match c.rec_ with
    | some r => if r.resident && (s.ctx.swaps.any fun w => w.ctx = c.id && !w.swapIn) then 64 * r.units else 0
    | none => 0)

/-- `need` bytes fit the budget once the regions on their way out have left. -/
def State.roomComes (s : State) (p need : Nat) : Bool :=
  decide (s.regionBytes p + need ≤ s.budgetBytes p + s.leavingBytes p)

/-- Unheld resident contexts of a partition, least recently sealed first (R242). -/
def State.swapVictims (s : State) (p : Nat) : List (Context × StateRegion) :=
  sortOn (fun x => x.2.lastSeal) ((s.ctx.table.filter fun c => c.part = p && c.holder = 0).filterMap fun c =>
    match c.rec_ with
    | some r => if r.resident && !r.swapBusy then some (c, r) else none
    | none => none)

/-- Regions are swapped out until `need` bytes fit the budget. -/
def State.swapFor (p need : Nat) : List (Context × StateRegion) → State → State
  | [], s => s
  | x :: r, s =>
    if s.roomComes p need then s else State.swapFor p need r (s.swapOutNow x.1 x.2 none).2

/-- Room for `need` bytes in a partition's state budget (R242), now, or to come where `roomComes` says so; `keep` names
contexts that stay. -/
def State.stateRoom (p need : Nat) (keep : List Nat) (s : State) : Bool × State :=
  if s.regionBytes p + need ≤ s.budgetBytes p then (true, s)
  else
    let s1 := s.swapFor p need ((s.swapVictims p).filter fun x => !keep.contains x.1.id)
    (decide (s1.regionBytes p + need ≤ s1.budgetBytes p), s1)

/-- A swap-in begins (R243). -/
def State.beginSwapIn (n : Nat) (reply : Option (Nat × Word)) (s : State) : State :=
  (s.updContext n fun x => { x with rec_ := x.rec_.map fun r => { r with swapBusy := true } }).updCtx fun c =>
    { c with swaps := c.swaps ++ [{ ctx := n, swapIn := true, reply := reply }] }

/-! ## Taking contexts for a descriptor (R205, R206, R233, R243) -/

/-- Another job holds one of the contexts. -/
def State.heldElsewhere (s : State) (id : Word) (ns : List Nat) : Bool :=
  ns.any fun n => (s.context? n).any fun c => c.holder != 0 && c.holder != id

/-- A job takes every context that a descriptor names. -/
def State.hold (id : Word) (ns : List Nat) (s : State) : State :=
  s.updCtx fun c => { c with table := c.table.map fun x => if ns.contains x.id then { x with holder := id } else x }

/-- The attempt's copies of the named contexts; the state regions `rs` become working copies, at addresses of their own
(R233). -/
def State.workCopies (j : Job) (rs ns : List Nat) (s : State) : State :=
  let a := s.drawAddrs rs
  a.2.updJob j.id fun x =>
    let cs := ns.filterMap fun n => if x.journal.ctxs.any (·.id = n) then none else s.context? n
    let all := (x.journal.ctxs ++ cs).map fun c => match a.1.lookup c.id with
      | some u => { c with rec_ := c.rec_.map fun r => { r with addr := u } }
      | none => c
    { x with journal := { x.journal with ctxs := all, regions := x.journal.regions ++ rs } }

/-- Whether an ATTN or SCAN descriptor has its contexts: it waits for a hold, for a region to come back and
for room for its working copies (R205, R242, R243). -/
def State.takeContexts (j : Job) (slot : Nat) (d : Descriptor) (s : State) : Bool × State :=
  let ns := (d.contexts j slot).filter (s.inRange j.part)
  if ns.isEmpty then (true, s)
  else if s.heldElsewhere j.id ns then (false, s)
  else
    let scan := d.op = 7
    let recs := if scan then ns.filterMap fun n => (s.context? n).bind fun c => c.rec_.map fun r => (c, r) else []
    let s1 := s.hold j.id ns
    let live := recs.filter fun x => x.1.state = .active
    let away := live.filter fun x => !x.2.resident || x.2.swapBusy
    -- an EMPTY SCAN, and a stream that is skipped, change no state (R234)
    let fresh := if d.m = 0 then [] else live.filter fun x => !j.journal.regions.contains x.1.id
    -- R234 fails a SCAN that can never fit; it need not wait
    if s1.budgetBytes j.part < 2 * total (recs.map fun x => 64 * x.2.units) then (true, s1)
    else if !away.isEmpty then
      let idle := away.filter fun x => !x.2.swapBusy
      let r := s1.stateRoom j.part (total (idle.map fun x => 64 * x.2.units)) ns
      if r.1 then (false, idle.foldl (fun s x => s.beginSwapIn x.1.id none) r.2) else (false, r.2)
    else
      let need := total (fresh.map fun x => 64 * x.2.units)
      let r := s1.stateRoom j.part need ns
      if r.1 then (true, r.2.workCopies j (fresh.map (·.1.id)) ns) else (false, r.2)

end Sys2Proof.Machine
end

