-- ==== Sys2Proof/Machine/Datapath.lean ====
section
/-!
DEFINITION. The matrix product, the element-wise, normalising and sorting operations of the Wash unit, and
the Move path inside a job (R101 to R119, R165, R167, R174, R194 to R196).
-/

namespace Sys2Proof.Machine

open Sys2Proof

/-! ## Shared -/

/-- A descriptor fails with a status that ends its job (R159, R162). -/
def State.failDesc (j : Job) (f : Failure) (s : State) : State := s.finishJob j.id f.1 f.2

/-- Run `go` with the epilogue program of a descriptor, or fail the job (R167). -/
def State.withEpilogue (j : Job) (slot : Nat) (d : Descriptor) (rows cols : Nat) (ew : Bool)
    (go : List EpiStep → State) (s : State) : State :=
  match s.epilogue j slot d.epilogue rows cols ew with
  | .error f => s.failDesc j f
  | .ok steps => go steps

/-- A program over rows of results; `b` gives the element of B for SRC 3 (R167). -/
def epiRows (steps : List EpiStep) (b : Nat → Nat → Word) (rows : List (List (Word × NumFlags))) :
    List (List Word) × NumFlags :=
  let out := rows.zipIdx.map fun r => r.1.zipIdx.map fun x => runSteps steps r.2 x.2 (b r.2 x.2) x.1
  (out.map (·.map (·.1)), allFlags out.flatten)

/-- No element of B. -/
def noB (_ _ : Nat) : Word := 0

/-- Wash cycles of an epilogue over `n` results (R107, R117). -/
def epiCycles (steps : List EpiStep) (n : Nat) : Nat :=
  (n + 63) / 64 * (if steps.any fun e => decide (8 ≤ e.op) then 4 else 1)

/-- `n` free bytes, four from each draw. -/
def State.drawBytes : Nat → State → List Byte × State
  | 0, s => ([], s)
  | n + 1, s =>
    let r := s.draw
    let q := State.drawBytes n r.2
    (wordBytes r.1 ++ q.1, q.2)

/-! ## GEMM (R101, R105 to R116) -/

/-- ARITH cycles for which one activation row occupies the feeder, and the output columns of a core
(R101). -/
def rowTime (a b : Nat) : Nat := if a = 11 ∨ b = 11 then 4 else if a = 10 ∨ b = 10 then 2 else 1
def packed4 (f : Nat) : Bool := f = 1 || f = 9
def outColumns (a b : Nat) : Nat := if packed4 a && packed4 b then 512 else 256
/-- Rows of an output tile (R105). -/
def tileRows (a b : Nat) : Nat := if packed4 a && packed4 b then 128 else 256

/-- Eight times the rate factor f of the Drypoint path, by activation and weight format (R110). -/
def dryRate8 (a w : Nat) : Nat :=
  if a = 11 ∨ w = 11 then 2 else if a = 10 ∨ w = 10 then 4 else if packed4 w then 16 else 8

/-- The smallest power of two no less than M, up to 16 (R110). -/
def drySlots (m : Nat) : Nat := if m ≤ 1 then 1 else if m ≤ 2 then 2 else if m ≤ 4 then 4 else if m ≤ 8 then 8 else 16

/-- The routes of R114. -/
inductive GemmRoute where
  | empty | kZero | swapped | drypoint | arrays
deriving DecidableEq, Repr, Inhabited

/-- R114, with the M that R116 gives a batch of weight stride 0, and rule 4 of a Drypoint job as R151 has
it. -/
def Descriptor.route (d : Descriptor) (dry : Bool) : GemmRoute :=
  let m := d.rowsM
  if d.m = 0 ∨ d.n = 0 ∨ d.batch = 0 then .empty
  else if d.k = 0 then .kZero
  else if d.n = 1 then .swapped
  else if m ≤ d.mvThresh ∨ (dry ∧ m ≤ 16) then .drypoint
  else .arrays

/-- The exact results of an integer product, and its rows of FP32 results with their flags. -/
structure Product where
  exact : List (List Int) := []
  rows : List (List (Word × NumFlags)) := []
deriving DecidableEq, Repr, Inhabited

/-- A product of rows of A with rows of B (R127 to R131). -/
def productOf (int : Bool) (a b : List (List Num)) : Product :=
  if int then
    let ai := a.map (·.map numToInt)
    let bi := b.map (·.map numToInt)
    let r := ai.map fun x => bi.map fun y => dotInt x y
    { exact := r.map (·.map (·.1))
      rows := r.map (·.map fun v => (fOfInt v.1, { accSat := v.2 })) }
  else { rows := a.map fun x => b.map fun y => dotFloat x y }

/-- The rows of a product converted and written: INT32 accumulators without an epilogue are written
exactly as INT32 (R167). -/
def writeProduct (m : Memory) (off f : Nat) (sat : Bool) (steps : List EpiStep) (p : Product) :
    Memory × NumFlags :=
  if steps.isEmpty ∧ f = 13 ∧ !p.exact.isEmpty then (writeInts m off p.exact, allFlags p.rows.flatten)
  else
    let r := epiRows steps noB p.rows
    let w := writeRows m off f (p.rows.headD []).length sat r.1
    (w.1, r.2.or w.2)

/-- The rows of A, and the rows of B, of item `b` of a GEMM. -/
def Descriptor.rowsA (d : Descriptor) (ma : Memory) (b : Nat) : List (List Num) :=
  (List.range d.m).map fun i => readRow ma (d.aOff + b * (d.word 11).toNat) d.fmtA d.m d.k i
def Descriptor.rowsB (d : Descriptor) (mb : Memory) (b : Nat) : List (List Num) :=
  (List.range d.n).map fun i => readRow mb (d.bOff + b * (d.word 12).toNat) d.fmtB d.n d.k i

/-- The descriptor multiplies integers (R125, R131). -/
def Descriptor.int (d : Descriptor) : Bool := fmtInt d.fmtA && fmtInt d.fmtB

/-- One item of a batch of a GEMM: its operands, its product. -/
def Descriptor.item (d : Descriptor) (ma mb : Memory) (b : Nat) : Product :=
  if d.k = 0 then
    { exact := if d.int then List.replicate d.m (List.replicate d.n 0) else []
      rows := List.replicate d.m (List.replicate d.n (0, {})) }
  else productOf d.int (d.rowsA ma b) (d.rowsB mb b)

/-- All items of a GEMM written into C. -/
def Descriptor.gemmWrite (d : Descriptor) (ma mb mc : Memory) (steps : List EpiStep) : Memory × NumFlags :=
  (List.range d.batch).foldl (fun acc b =>
    let w := writeProduct acc.1 (d.cOff + b * (d.word 13).toNat) d.fmtC d.satFinite steps (d.item ma mb b)
    (w.1, acc.2.or w.2)) (mc, {})

/-- The comparator results of a product join the residue digest: an exact comparison adds 0, and a
windowed one a value that the manual does not state (R134, R170; log 13). -/
def State.addDigest (j : Job) (slot : Nat) (exact : Bool) (s : State) : State :=
  if exact then s
  else
    let r := s.draw
    r.2.updSlot j.id slot fun x => { x with digest := r.1 }

/-! ### Products on the arrays (R99 to R107) -/

/-- The next load of the arrays' work, the first K step of a tile or not (R103, R104, R107): it waits for the rows of
the K step before it, for a free bank where a tile begins, and for its staging buffer. -/
def Core.nextLoad (edge : Nat) (next : Option Bool) (c : Core) : Core :=
  let from_ := max edge c.enterEdge
  let idle := { c with loading := false, loadWaits := false, bankWait := none }
  match next with
  | none => idle
  | some first =>
    if first && (c.banks.getD c.nextBank {}).state != .free then
      { idle with bankWait := some c.nextBank, bankWaitEdge := from_ }
    else if c.bufFull.getD c.nextBuf false then { idle with loading := true, loadStart := from_ }
    else { idle with loadWaits := true, loadWaitEdge := from_ }

/-- The descriptor of a list that has weight loads left: the oldest. -/
def loadFlight (l : List InFlight) : Option InFlight :=
  l.find? fun i => i.stage = .waiting && decide (i.work.tile < i.work.tiles.length)

/-- The job, slot and descriptor whose weights the loader of a core loads next (R104). -/
def State.loadOf (s : State) (core : Nat) : Option (Job × Nat × InFlight) :=
  match (s.core core).job.bind s.job? with
  | none => none
  | some j =>
    match j.slots.findIdx? fun x => x.core = core with
    | none => none
    | some k => if j.state = .running then (loadFlight (j.slots.getD k {}).inFlight).map fun i => (j, k, i) else none

/-- Whether the loader has work, and whether that begins a tile. -/
def State.nextStep (s : State) (core : Nat) : Option Bool := (s.loadOf core).map fun x => decide (x.2.2.work.step = 0)

/-- The loader takes up the work that it does not do already. -/
def State.wakeLoader (core : Nat) (s : State) : State :=
  let c := s.core core
  if c.loading ∨ c.loadWaits ∨ c.bankWait.isSome then s
  else s.updCore core (Core.nextLoad s.edge (s.nextStep core))

/-- A product is given to the arrays: the descriptor acts when its last bank has drained (R107). -/
def State.onArrays (j : Job) (slot : Nat) (i : InFlight) (flags : NumFlags) (work : ArrayWork) (cycles : Nat)
    (s : State) : State :=
  (s.updFlight j.id slot i.index fun x =>
    { x with stage := .waiting, flags := x.flags.or flags, cycles := cycles, work := work }).wakeLoader (j.coreOf slot)

/-- The work of the arrays for a list of products (R101, R105, R106). -/
def arrayWork (fa fb rowTime drain : Nat) (ps : List (List (List Num) × List (List Num))) : ArrayWork where
  int := fmtInt fa && fmtInt fb
  pack := outColumns fa fb / 4
  drain := drain
  tiles := ps.flatMap fun p => tilesOf (tileRows fa fb) (outColumns fa fb) rowTime p.1 p.2

/-- The results of products of given rows and columns from the drained banks. -/
def resultsOf (fa fb : Nat) : List (Nat × Nat) → List (List (List Accum)) → List (List (List Accum))
  | [], _ => []
  | (m, n) :: rest, r =>
    let mt := tileRows fa fb
    let c := outColumns fa fb
    let k := (m + mt - 1) / mt * ((n + c - 1) / c)
    joinTiles mt c m n (r.take k) :: resultsOf fa fb rest (r.drop k)

/-- Accumulators as a product (R130, R131). -/
def productFrom (int : Bool) (rows : List (List Accum)) : Product where
  exact := if int then rows.map (·.map Accum.int) else []
  rows := rows.map (·.map fun a => (if int then fOfInt a.int else a.f32, a.flags))

/-- Whether R116 makes one GEMM of the batch, and the products that the arrays form. -/
def Descriptor.one (d : Descriptor) : Bool := d.word 12 = 0
def Descriptor.products (d : Descriptor) (ma mb : Memory) : List (List (List Num) × List (List Num)) :=
  if d.one then [((List.range d.batch).flatMap (d.rowsA ma), d.rowsB mb 0)]
  else (List.range d.batch).map fun b => (d.rowsA ma b, d.rowsB mb b)

/-- The drain of 64 elements under an epilogue (R107, R117). -/
def drainOf (steps : List EpiStep) : Nat := if steps.any fun e => decide (8 ≤ e.op) then 4 else 1

/-- The residue lane of a Drypoint product (R112): whether its comparator, or the fault named from outside, finds a
mismatch; a fault shows only where some block is compared (R134). -/
def Descriptor.laneFaulty (d : Descriptor) (ma mb : Memory) (fault : Bool) : Bool :=
  let r := (d.products ma mb).map fun p => residueLane d.int p.1 p.2
  r.any (·.2) || (fault && r.any (·.1))

/-- A residue-lane mismatch: a fault of the core, whose descriptor goes no further (R112, R122). -/
def State.laneFails (j : Job) (slot : Nat) (i : InFlight) (s : State) : State :=
  let core := j.coreOf slot
  ((s.bump (.coreCheckFailDp (Fin.ofNat 36 core))).updFlight j.id slot i.index fun x =>
    { x with stage := .waiting }).coreFaultAtTileEnd core { kind := 2, inst := core, code := 2, jobs := [j.id] }

/-- A GEMM descriptor by its route, with its epilogue (R114 to R116). On the arrays its results are written when its
last bank has drained. -/
def State.gemmGo (j : Job) (slot : Nat) (i : InFlight) (steps : List EpiStep) (s : State) : State :=
  let d := i.desc
  let ma := j.bytes slot d.aObj
  let mb := j.bytes slot d.bObj
  let r := d.route j.chain.drypoint
  let hi := d.cOff + (d.batch - 1) * (d.word 13).toNat + tensorBytes d.fmtC d.m d.n
  let w := d.gemmWrite ma mb (j.bytes slot d.cObj) steps
  let s1 := s.store j slot d.cObj hi fun _ => w.1
  let m := d.rowsM
  let count := if d.one then 1 else d.batch
  let wash := epiCycles steps (d.batch * d.m * d.n)
  match r with
  | .empty => s.acted j slot i stEmpty {} 0 0 0
  | .kZero => s1.acted j slot i stOk (w.2.or { kZero := true }) 0 0 wash
  | .swapped =>
    (s1.addDigest j slot d.int).acted j slot i stOk (w.2.or { drypoint := true }) 0 0
      (count * ((d.k * m * 8 + 512 * dryRate8 d.fmtB d.fmtA - 1) / (512 * dryRate8 d.fmtB d.fmtA)) + wash)
  | .drypoint =>
    (s1.addDigest j slot d.int).acted j slot i stOk (w.2.or { drypoint := true }) 0 0
      (count * ((d.k * d.n * drySlots m * 8 + 512 * dryRate8 d.fmtA d.fmtB - 1) /
        (512 * dryRate8 d.fmtA d.fmtB)) + wash)
  | .arrays =>
    let rt := rowTime d.fmtA d.fmtB
    let work := arrayWork d.fmtA d.fmtB rt (drainOf steps) (d.products ma mb)
    (s.addDigest j slot d.int).onArrays j slot i {} work
      (arrayCycles work.tiles (epiCycles steps (min m (tileRows d.fmtA d.fmtB) * min d.n (outColumns d.fmtA d.fmtB))))

/-- The last bank of a GEMM has drained: its results are written (R106, R107). -/
def State.gemmDone (j : Job) (slot : Nat) (i : InFlight) (s : State) : State :=
  let d := i.desc
  s.withEpilogue j slot d d.m d.n false (fun steps =>
    let shapes := if d.one then [(d.batch * d.m, d.n)] else List.replicate d.batch (d.m, d.n)
    let items := chunksOf d.m d.batch (resultsOf d.fmtA d.fmtB shapes i.work.results).flatten
    let w := items.zipIdx.foldl (fun acc x =>
      let w := writeProduct acc.1 (d.cOff + x.2 * (d.word 13).toNat) d.fmtC d.satFinite steps (productFrom d.int x.1)
      (w.1, acc.2.or w.2)) (j.bytes slot d.cObj, ({} : NumFlags))
    let hi := d.cOff + (d.batch - 1) * (d.word 13).toNat + tensorBytes d.fmtC d.m d.n
    (s.store j slot d.cObj hi fun _ => w.1).acted j slot i stOk w.2 0 0 i.cycles)

/-- GEMM (R114): a residue-lane mismatch of the Drypoint path is a fault of the core (R112, R122). -/
def execGemm (job : Word) (slot : Fin 32) (laneFault : Bool) (s : State) : Host.Outcome State Fault Refusal :=
  .next (s.act job slot 0x01 (fun _ => true) (fun j i s =>
    s.withEpilogue j slot i.desc i.desc.m i.desc.n false (fun steps =>
      let d := i.desc
      let r := d.route j.chain.drypoint
      if (r = .swapped || r = .drypoint) && d.laneFaulty (j.bytes slot d.aObj) (j.bytes slot d.bObj) laneFault then
        s.laneFails j slot i
      else s.gemmGo j slot i steps)))

/-! ## EW (R118, R119, R165) -/

/-- The tensor of an EW descriptor: rows of each item through its program. -/
def Descriptor.ewWrite (d : Descriptor) (ma mb mc : Memory) (steps : List EpiStep) : Memory × NumFlags :=
  (List.range d.batch).foldl (fun acc b =>
    let rows := (List.range d.m).map fun i => readRowPairs ma (d.aOff + b * (d.word 11).toNat) d.fmtA d.m d.n i
    let offB := d.bOff + b * (d.word 12).toNat
    let elemB (i k : Nat) : Word := if d.bObj = 0 then 0 else (toF32 (readElem mb offB d.fmtB d.m d.n i k)).1
    let flagsB := if d.bObj = 0 ∨ !steps.any (·.src = 3) then {}
      else (List.range d.m).foldl (fun f i => f.or (rowFlags mb offB d.fmtB d.m d.n i)) ({} : NumFlags)
    let r := epiRows steps elemB rows
    let w := writeRows acc.1 (d.cOff + b * (d.word 13).toNat) d.fmtC d.n d.satFinite r.1
    (w.1, ((acc.2.or flagsB).or r.2).or w.2)) (mc, {})

/-- Rows of an identity tile of `n` columns, as weight columns. -/
def identityCols (n : Nat) : List (List Num) :=
  (List.range n).map fun c => (List.range n).map fun k => if k = c then .fin false 1 0 else numZero

/-- The tiles of an EW descriptor on the arrays (R119, log 12): each group of 64 columns through an identity tile, and
with a second operand two stacked ones, in two K steps. -/
def Descriptor.ewTiles (d : Descriptor) (ma mb : Memory) : List ArrayTile :=
  (List.range d.batch).flatMap fun b => (List.range ((d.n + 63) / 64)).flatMap fun g =>
    let n := min 64 (d.n - 64 * g)
    let part (m : Memory) (off f i : Nat) : List Num := padTo 64 (((readRow m off f d.m d.n i).drop (64 * g)).take n)
    let acts := (List.range d.m).map fun i =>
      part ma (d.aOff + b * (d.word 11).toNat) d.fmtA i ++
        (if d.bObj = 0 then [] else part mb (d.bOff + b * (d.word 12).toNat) d.fmtB i)
    tilesOf 256 256 (rowTime d.fmtA (if d.bObj = 0 then d.fmtA else d.fmtB)) acts ((identityCols n).map fun c => if d.bObj = 0 then c else padTo 64 c ++ c)

/-- EW_APPLY (R119, R165): on the Wash unit, or on the arrays at 1/64 of their rate. DESIGN CHOICE: its results are those
of the program in FP32 there too; the manual does not say that ON_ARRAY changes a value (log 12). -/
def execEwApply (job : Word) (slot : Fin 32) (s : State) : Host.Outcome State Fault Refusal :=
  .next (s.act job slot 0x04 (fun d => d.sub = 0) (fun j i s =>
    let d := i.desc
    s.withEpilogue j slot d d.m d.n true (fun steps =>
      if d.bObj = 0 ∧ steps.any (·.src = 3) then s.failDesc j (stBadHandle, 0)
      else
        let w := d.ewWrite (j.bytes slot d.aObj) (j.bytes slot d.bObj) (j.bytes slot d.cObj) steps
        let hi := d.cOff + (d.batch - 1) * (d.word 13).toNat + tensorBytes d.fmtC d.m d.n
        let s1 := if d.batch = 0 then s else s.store j slot d.cObj hi fun _ => w.1
        let n := d.batch * d.m * d.n
        if d.flag 10 ∧ n ≠ 0 then
          let tiles := d.ewTiles (j.bytes slot d.aObj) (j.bytes slot d.bObj)
          (s1.addDigest j slot false).onArrays j slot i w.2 { tiles := tiles, drain := drainOf steps }
            (arrayCycles tiles (epiCycles steps n))
        else s1.acted j slot i stOk w.2 0 0 (epiCycles steps n))))

/-- PWL_LOAD (R118, R165): a table goes into its slot, or the descriptor fails with BAD_DESCRIPTOR. -/
def execPwlLoad (job : Word) (slot : Fin 32) (s : State) : Host.Outcome State Fault Refusal :=
  .next (s.act job slot 0x04 (fun d => d.sub = 1) (fun j i s =>
    let d := i.desc
    let m := j.bytes slot d.aObj
    let n := fld (Memory.readWord m d.aOff) 6 0
    match j.readFault d.aObj d.aOff (4 * (2 + 3 * n)) with
    | some f => s.failDesc j f
    | none =>
      match parsePwl m d.aOff with
      | none => s.failDesc j (stBadDescriptor, 4)
      | some t =>
        let k := d.param0 % 32
        (s.updCore (j.coreOf slot) fun c =>
          { c with pwl := (k, t) :: c.pwl.filter (·.1 != k) }).acted j slot i stOk {} 0 0 t.segments.length))

/-! ## NORM (R117, R165) -/

/-- NORM (R165): each row is normalised, goes through the epilogue and is converted. -/
def execNorm (job : Word) (slot : Fin 32) (s : State) : Host.Outcome State Fault Refusal :=
  .next (s.act job slot 0x05 (fun _ => true) (fun j i s =>
    let d := i.desc
    s.withEpilogue j slot d d.m d.n false (fun steps =>
      let items := max 1 d.batch
      let ma := j.bytes slot d.aObj
      let mb := j.bytes slot d.bObj
      let vec (k : Nat) : Option (List Word) :=
        if d.bObj = 0 then none else some (Memory.readWords mb (d.bOff + 4 * d.n * k) d.n)
      let out := (List.range items).flatMap fun b =>
        let rows := (List.range d.m).map fun r =>
          let x := readRowF32 ma (d.aOff + b * (d.word 11).toNat) d.fmtA d.m d.n r
          let y := normRow (d.sub = 1) (d.word 13) (vec 0) (if d.sub = 1 then vec 1 else none) x
          (y.1, y.2.or (rowFlags ma (d.aOff + b * (d.word 11).toNat) d.fmtA d.m d.n r))
        let e := epiRows steps noB (rows.map fun r => r.1.map fun x => (x, r.2))
        e.1.map fun r => (r, e.2)
      let flags := allFlags out
      let w := writeRows (j.bytes slot d.cObj) d.cOff d.fmtC d.n d.satFinite (out.map (·.1))
      let hi := d.cOff + tensorBytes d.fmtC (items * d.m) d.n
      (s.store j slot d.cObj hi fun _ => w.1).acted j slot i stOk (flags.or w.2) 0 0
        (items * d.m * (2 * ((d.n + 63) / 64) + 4) + epiCycles steps (items * d.m * d.n)))))

/-! ## SORT (R165, R194 to R196) -/

/-- A score with -0 taken as +0, and its order key (R194). -/
def sortScore (w : Word) : Word := if w = 0x80000000 then 0 else w
def sortKey (smallest : Bool) (w : Word) : Nat :=
  let k := if bit w 31 then ~~~w else w ||| 0x80000000
  (if smallest then ~~~k else k).toNat

/-- Insert a scored index where its key ranks; equal keys keep index order. -/
def sortInsert (k : Nat) (x : Nat × Word) : List (Nat × Nat × Word) → List (Nat × Nat × Word)
  | [] => [(k, x)]
  | y :: r => if y.1 < k then (k, x) :: y :: r else y :: sortInsert k x r

/-- The best `n` of the scores that the threshold keeps, best first (R194). -/
def sortSelect (smallest : Bool) (threshold : Word) (n : Nat) (scores : List Word) : List (Nat × Word) :=
  let kept := (scores.zipIdx.map fun x => (x.2, sortScore x.1)).filter fun x =>
    !f32IsNan x.2 && !(if smallest then fLt threshold x.2 else fLt x.2 threshold)
  ((kept.foldl (fun acc x => sortInsert (sortKey smallest x.2) x acc) []).map (·.2)).take n

/-- SORT (R165, R194 to R196): RESULT entries are written, the rest of C is left. -/
def execSort (job : Word) (slot : Fin 32) (s : State) : Host.Outcome State Fault Refusal :=
  .next (s.act job slot 0x09 (fun _ => true) (fun j i s =>
    let d := i.desc
    let best := sortSelect (d.sub = 1) (d.word 13) d.n
      (readRowF32 (j.bytes slot d.aObj) d.aOff d.fmtA 1 d.m 0)
    let bytes := best.flatMap fun x => wordBytes (wd x.1) ++ wordBytes x.2
    (s.store j slot d.cObj (d.cOff + bytes.length) fun m => Memory.writeBytes m d.cOff bytes).acted j slot i
      stOk (rowFlags (j.bytes slot d.aObj) d.aOff d.fmtA 1 d.m 0) (wd best.length) 0 (5 * ((d.m + 63) / 64) + 12)))

/-! ## MOVE (R165, R174) -/

/-- The bytes of a row of `n` elements as a unit writes them: the pad nibble of INT4 is 0 (R126). -/
def rowClean (f n : Nat) (bs : List Byte) : List Byte :=
  if f = 1 ∧ n % 2 = 1 then bs.modify (n / 2) fun b => b &&& 0x0F else bs

/-- Rows of `n` elements of a format copied from one pitch to another. -/
def copyRows (f n : Nat) (src dst : Memory) (srcOff dstOff srcPitch dstPitch rows : Nat) : Memory :=
  (List.range rows).foldl (fun m r =>
    Memory.writeBytes m (dstOff + r * dstPitch)
      (rowClean f n (Memory.readBytes src (srcOff + r * srcPitch) (rowBytes f n)))) dst

/-- The row pitch that a word of a MOVE gives; 0 packs the rows (log 12). -/
def pitchOf (f n : Nat) (w : Word) : Nat := if w = 0 then rowBytes f n else w.toNat

/-- MOVE_COPY (R165): rows of elements, unchanged. -/
def execMoveCopy (job : Word) (slot : Fin 32) (s : State) : Host.Outcome State Fault Refusal :=
  .next (s.act job slot 0x0A (fun d => d.sub = 0) (fun j i s =>
    let d := i.desc
    let src := j.bytes slot d.aObj
    let go (m : Memory) : Memory :=
      if fmtMx d.fmtA then
        Memory.writeBytes m d.cOff (Memory.readBytes src d.aOff (tensorBytes d.fmtA d.m d.n))
      else copyRows d.fmtA d.n src m d.aOff d.cOff (pitchOf d.fmtA d.n (d.word 11)) (pitchOf d.fmtA d.n (d.word 13)) d.m
    (s.store j slot d.cObj (d.cOff + pitchedBytes d.fmtC d.m d.n (d.word 13).toNat) go).acted j slot i stOk {} 0 0
      0))

/-- Raw elements written at their places: packed little-endian from a byte offset, other bits kept. -/
def putElems (bits : Nat) (m : Memory) (off : Nat) (es : List (Nat × Nat)) : Memory :=
  es.foldl (fun m e =>
    if bits = 4 then
      let a := off + e.1 / 2
      let b := (Memory.read m a).toNat
      Memory.write m a (BitVec.ofNat 8 (if e.1 % 2 = 0 then b / 16 * 16 + e.2 else b % 16 + 16 * e.2))
    else Memory.writeBytes m (off + e.1 * (bits / 8)) (natBytes (bits / 8) e.2)) m

/-- The pad nibble that ends `n` packed elements of 4 bits, written as 0 (R126). -/
def padNibble (bits n : Nat) : List (Nat × Nat) := if bits = 4 ∧ n % 2 = 1 then [(n, 0)] else []

/-- One image converted between layouts: elements move, pad channels are zeros, and an MX block keeps its
scale (R172, R174). -/
def convertLayout (f src dst n hw : Nat) (a c : Memory) (aOff cOff : Nat) : Memory :=
  let pcS := padChannels src n
  let pcD := padChannels dst n
  let bits := fmtBits f
  let els := (List.range hw).flatMap fun p => (List.range pcD).map fun ch =>
    (mapAddr dst pcD hw ch p,
     if ch < n then
       let e := mapAddr src pcS hw ch p
       readBits a (aOff + e * bits / 8) (e * bits % 8) bits
     else 0)
  if fmtMx f then
    let blocks := (List.range hw).flatMap fun p => (List.range (pcD / 32)).map fun b =>
      (mapAddr dst pcD hw (32 * b) p / 32, mapAddr src pcS hw (32 * b) p / 32)
    let c1 := blocks.foldl (fun m x =>
      Memory.writeBytes m (cOff + x.1 * blockBytes f)
        (Memory.readBytes a (aOff + x.2 * blockBytes f) (blockBytes f))) c
    blocks.foldl (fun m x =>
      Memory.write m (cOff + scalePlane f 1 (pcD * hw) + x.1)
        (Memory.read a (aOff + scalePlane f 1 (pcS * hw) + x.2))) c1
  else putElems bits c cOff (els ++ padNibble bits (pcD * hw))

/-- MOVE_LAYOUT (R174). -/
def execMoveLayout (job : Word) (slot : Fin 32) (s : State) : Host.Outcome State Fault Refusal :=
  .next (s.act job slot 0x0A (fun d => d.sub = 1) (fun j i s =>
    let d := i.desc
    let src := j.bytes slot d.aObj
    let ls := d.param0
    let ld := d.param1.toNat
    let go (m : Memory) : Memory :=
      (List.range d.batch).foldl (fun m b =>
        convertLayout d.fmtA ls ld d.n d.m src m (d.aOff + b * mapStride d.fmtA ls d.n d.m)
          (d.cOff + b * mapStride d.fmtA ld d.n d.m)) m
    (s.store j slot d.cObj (d.cOff + mapsBytes d.fmtC ld d.n d.m d.batch) go).acted j slot i stOk {} 0 0 0))

/-- The transpose of an M x N tensor of plain elements. -/
def transposeElems (f m n pitchA pitchC : Nat) (a c : Memory) (aOff cOff : Nat) : Memory :=
  (List.range n).foldl (fun mem r =>
    putElems (fmtBits f) mem (cOff + r * pitchC)
      ((List.range m).map (fun k => (k, readBits a (aOff + k * pitchA + r * fmtBits f / 8) (r * fmtBits f % 8)
        (fmtBits f))) ++ padNibble (fmtBits f) m)) c

/-- MOVE_TRANSPOSE (R165): N rows of M elements. The blocks that a transposed MX tensor forms are not
stated: its bytes are free (log 12). -/
def execMoveTranspose (job : Word) (slot : Fin 32) (s : State) : Host.Outcome State Fault Refusal :=
  .next (s.act job slot 0x0A (fun d => d.sub = 3) (fun j i s =>
    let d := i.desc
    let src := j.bytes slot d.aObj
    let size := pitchedBytes d.fmtC d.n d.m (d.word 13).toNat
    if fmtMx d.fmtA then
      let r := s.drawBytes ((size + 3) / 4)
      (r.2.store j slot d.cObj (d.cOff + size) fun m => Memory.writeBytes m d.cOff (r.1.take size)).acted j slot
        i stOk {} 0 0 0
    else
      (s.store j slot d.cObj (d.cOff + size) fun m =>
        transposeElems d.fmtA d.m d.n (pitchOf d.fmtA d.n (d.word 11)) (pitchOf d.fmtA d.m (d.word 13)) src m
          d.aOff d.cOff).acted j slot i stOk {} 0 0 0))

end Sys2Proof.Machine
end

