-- ==== Sys2Proof/Machine/Crypto.lean ====
section
/-!
DEFINITION. The cryptographic standards that the manual names: SHA-384 (FIPS 180-4), ECDSA over NIST P-384 (FIPS 186)
and AES-256-GCM (FIPS 197, SP 800-38D), for R80, R226, R244, R401 and R451 to R461. Their constants and steps are those
of the standards (log 24).
-/

namespace Sys2Proof.Machine

open Sys2Proof

/-! ## SHA-384 -/

/-- The 80 round constants of SHA-512 and SHA-384. -/
def shaConstants : List (BitVec 64) :=
  [0x428a2f98d728ae22, 0x7137449123ef65cd, 0xb5c0fbcfec4d3b2f, 0xe9b5dba58189dbbc, 0x3956c25bf348b538,
   0x59f111f1b605d019, 0x923f82a4af194f9b, 0xab1c5ed5da6d8118, 0xd807aa98a3030242, 0x12835b0145706fbe,
   0x243185be4ee4b28c, 0x550c7dc3d5ffb4e2, 0x72be5d74f27b896f, 0x80deb1fe3b1696b1, 0x9bdc06a725c71235,
   0xc19bf174cf692694, 0xe49b69c19ef14ad2, 0xefbe4786384f25e3, 0x0fc19dc68b8cd5b5, 0x240ca1cc77ac9c65] ++
  [0x2de92c6f592b0275, 0x4a7484aa6ea6e483, 0x5cb0a9dcbd41fbd4, 0x76f988da831153b5, 0x983e5152ee66dfab,
   0xa831c66d2db43210, 0xb00327c898fb213f, 0xbf597fc7beef0ee4, 0xc6e00bf33da88fc2, 0xd5a79147930aa725,
   0x06ca6351e003826f, 0x142929670a0e6e70, 0x27b70a8546d22ffc, 0x2e1b21385c26c926, 0x4d2c6dfc5ac42aed,
   0x53380d139d95b3df, 0x650a73548baf63de, 0x766a0abb3c77b2a8, 0x81c2c92e47edaee6, 0x92722c851482353b] ++
  [0xa2bfe8a14cf10364, 0xa81a664bbc423001, 0xc24b8b70d0f89791, 0xc76c51a30654be30, 0xd192e819d6ef5218,
   0xd69906245565a910, 0xf40e35855771202a, 0x106aa07032bbd1b8, 0x19a4c116b8d2d0c8, 0x1e376c085141ab53,
   0x2748774cdf8eeb99, 0x34b0bcb5e19b48a8, 0x391c0cb3c5c95a63, 0x4ed8aa4ae3418acb, 0x5b9cca4f7763e373,
   0x682e6ff3d6b2b8a3, 0x748f82ee5defb2fc, 0x78a5636f43172f60, 0x84c87814a1f0ab72, 0x8cc702081a6439ec] ++
  [0x90befffa23631e28, 0xa4506cebde82bde9, 0xbef9a3f7b2c67915, 0xc67178f2e372532b, 0xca273eceea26619c,
   0xd186b8c721c0c207, 0xeada7dd6cde0eb1e, 0xf57d4f7fee6ed178, 0x06f067aa72176fba, 0x0a637dc5a2c898a6,
   0x113f9804bef90dae, 0x1b710b35131c471b, 0x28db77f523047d84, 0x32caab7b40c72493, 0x3c9ebe0a15c9bebc,
   0x431d67c49c100d4c, 0x4cc5d4becb3e42b6, 0x597f299cfc657e2a, 0x5fcb6fab3ad6faec, 0x6c44198c4a475817]

/-- The initial hash value of SHA-384. -/
def shaInitial : List (BitVec 64) :=
  [0xcbbb9d5dc1059ed8, 0x629a292a367cd507, 0x9159015a3070dd17, 0x152fecd8f70e5939, 0x67332667ffc00b31,
   0x8eb44a8768581511, 0xdb0c2e0d64f98fa7, 0x47b5481dbefa4fa4]

/-- The two rotations and the third term, a shift or a rotation, of a sigma function. -/
def shaSigma (a b : Nat) (x third : BitVec 64) : BitVec 64 := x.rotateRight a ^^^ x.rotateRight b ^^^ third

/-- The next word of the message schedule from the sixteen before it, the latest first. -/
def shaNext (w : List (BitVec 64)) : BitVec 64 :=
  let x := w.getD 1 0
  let y := w.getD 14 0
  shaSigma 19 61 x (x >>> 6) + w.getD 6 0 + shaSigma 1 8 y (y >>> 7) + w.getD 15 0

/-- The message schedule, the latest word first. -/
def shaSchedule (block : List (BitVec 64)) : List (BitVec 64) :=
  Nat.repeat (fun w => shaNext w :: w) 64 block.reverse

/-- One round over the eight working variables. -/
def shaRound (v : List (BitVec 64)) (kw : BitVec 64) : List (BitVec 64) :=
  match v with
  | [a, b, c, d, e, f, g, h] =>
    let t := h + shaSigma 14 18 e (e.rotateRight 41) + ((e &&& f) ^^^ (~~~e &&& g)) + kw
    let u := shaSigma 28 34 a (a.rotateRight 39) + ((a &&& b) ^^^ (a &&& c) ^^^ (b &&& c))
    [t + u, a, b, c, d + t, e, f, g]
  | _ => v

/-- One block of 16 words into the hash value. -/
def shaBlock (h block : List (BitVec 64)) : List (BitVec 64) :=
  List.zipWith (· + ·) h
    ((List.zipWith (· + ·) shaConstants (shaSchedule block).reverse).foldl shaRound h)

/-- A padded message, block by block. -/
def shaBlocks : Nat → List (BitVec 64) → List Byte → List (BitVec 64)
  | 0, h, _ => h
  | n + 1, h, bs =>
    shaBlocks n (shaBlock h ((List.range 16).map fun k => BitVec.ofNat 64 (beNat ((bs.drop (8 * k)).take 8))))
      (bs.drop 128)

/-- SHA-384, 48 bytes (R80, R452). -/
@[irreducible] def sha384 (msg : List Byte) : List Byte :=
  let blocks := (msg.length + 17 + 127) / 128
  let padded := msg ++ (0x80 :: List.replicate (128 * blocks - msg.length - 17) 0) ++ natBytesBE 16 (8 * msg.length)
  ((shaBlocks blocks shaInitial padded).take 6).flatMap fun w => natBytesBE 8 w.toNat

/-! ## ECDSA over P-384 -/

/-- The prime of the field. -/
def p384 : Nat := 2 ^ 384 - 2 ^ 128 - 2 ^ 96 + 2 ^ 32 - 1

/-- The coefficient b of y^2 = x^3 - 3x + b. -/
def p384B : Nat :=
  0xb3312fa7e23ee7e4988e056be3f82d19181d9c6efe8141120314088f5013875ac656398d8a2ed19d2a85c8edd3ec2aef

/-- The order of the base point. -/
def p384Order : Nat :=
  0xffffffffffffffffffffffffffffffffffffffffffffffffc7634d81f4372ddf581a0db248b0a77aecec196accc52973

/-- A point in Jacobian coordinates: (x / z^2, y / z^3); z = 0 is the point at infinity. -/
structure EcPoint where
  x : Nat := 1
  y : Nat := 1
  z : Nat := 0
deriving DecidableEq, Repr, Inhabited

/-- The base point. -/
def p384Base : EcPoint where
  x := 0xaa87ca22be8b05378eb1c71ef320ad746e1d3b628ba79b9859f741e082542a385502f25dbf55296c3a545e3872760ab7
  y := 0x3617de4a96262c6f5d9e98bf9292dc29f8f41dbd289a147ce9da3113b5f0b8c00a60b1ce1d7e819d7a431d7c90ea0e5f
  z := 1

/-- The difference of two field elements. -/
def ecSub (a b : Nat) : Nat := (a + (p384 - b)) % p384

/-- A point doubled. -/
def EcPoint.double (q : EcPoint) : EcPoint :=
  let zz := q.z * q.z % p384
  let yy := q.y * q.y % p384
  let s := 4 * q.x * yy % p384
  let m := 3 * ecSub q.x zz * (q.x + zz) % p384
  let x := ecSub (m * m % p384) (2 * s % p384)
  { x := x, y := ecSub (m * ecSub s x % p384) (8 * yy * yy % p384), z := 2 * q.y * q.z % p384 }

/-- The sum of two points. -/
def EcPoint.add (q r : EcPoint) : EcPoint :=
  if q.z = 0 then r
  else if r.z = 0 then q
  else
    let qz := q.z * q.z % p384
    let rz := r.z * r.z % p384
    let u := q.x * rz % p384
    let s := q.y * rz * r.z % p384
    let h := ecSub (r.x * qz % p384) u
    let d := ecSub (r.y * qz * q.z % p384) s
    if h = 0 then (if d = 0 then q.double else {})
    else
      let hh := h * h % p384
      let hhh := h * hh % p384
      let v := u * hh % p384
      let x := ecSub (ecSub (d * d % p384) hhh) (2 * v % p384)
      { x := x, y := ecSub (d * ecSub v x % p384) (s * hhh % p384), z := h * q.z * r.z % p384 }

/-- The sum of `a` times `q` and `b` times `r`, over the lowest `n` bits of the factors. -/
def EcPoint.combine (q r qr : EcPoint) (a b : Nat) : Nat → EcPoint
  | 0 => {}
  | n + 1 =>
    let t := (EcPoint.combine q r qr (a / 2) (b / 2) n).double
    match a % 2, b % 2 with
    | 0, 0 => t
    | _, 0 => t.add q
    | 0, _ => t.add r
    | _, _ => t.add qr

/-- A power modulo `m`, over the lowest `n` bits of the exponent. -/
def powMod (m b e : Nat) : Nat → Nat
  | 0 => 1
  | n + 1 =>
    let t := powMod m b (e / 2) n
    if e % 2 = 0 then t * t % m else t * t % m * b % m

/-- A public key is a point of the curve other than infinity. -/
def ecKeyGood (x y : Nat) : Bool :=
  decide (x < p384) && decide (y < p384) && decide (y * y % p384 = ecSub ((x * x * x + p384B) % p384) (3 * x % p384))

/-- An ECDSA P-384 signature (r, then s) over a SHA-384 digest under a public key (X, then Y), all big-endian
(R80, R452). -/
@[irreducible] def ecdsaVerify (key digest sig : List Byte) : Bool :=
  let x := beNat (key.take 48)
  let y := beNat (key.drop 48)
  let r := beNat (sig.take 48)
  let s := beNat (sig.drop 48)
  let w := powMod p384Order s (p384Order - 2) 384
  let q : EcPoint := { x := x, y := y, z := 1 }
  let t := p384Base.combine q (p384Base.add q) (beNat digest * w % p384Order) (r * w % p384Order) 384
  let zz := t.z * t.z % p384
  decide (key.length = 96) && decide (sig.length = 96) && ecKeyGood x y && decide (0 < r) && decide (r < p384Order) &&
    decide (0 < s) && decide (s < p384Order) && decide (t.z ≠ 0) &&
    (decide (r * zz % p384 = t.x) || (decide (r + p384Order < p384) && decide ((r + p384Order) * zz % p384 = t.x)))

/-! ## AES-256 -/

/-- The S-box of AES: byte `i` at bits [8i+7:8i] of a quarter of 64 bytes. -/
def aesBox : List Nat :=
  [0x75b227ebe28012079a059618c323c7041531d871f1e5a534ccf73f362693fdb7c072a49cafa2d4adf04759fa7dc982ca76abd7fe2b670130c56f6bf27b777c63,
   0xd2f3ff1021dab6bcf5389d928f40a351a89f3c507f02f94585334d43fbaaefd0cf584c4a39becb6a5bb1fc20ed00d153842fe329b3d63b52a05a6e1b1a2c8309,
   0x08ae7a65eaf4566ca94ed58d6d37c8e779e4959162acd3c25c2406490a3a32e0db0b5ede14b8ee4688902a22dc4f816073195d643d7ea7c41744975fec130ccd,
   0x16bb54b00f2d99416842e6bf0d89a18cdf2855cee9871e9b948ed9691198f8e19e1dc186b95735610ef6034866b53e708a8bbd4b1f74dde8c6b4a61c2e2578ba]

/-- A byte through the S-box. -/
def aesSub (b : Byte) : Byte := BitVec.ofNat 8 (aesBox.getD (b.toNat / 64) 0 >>> (8 * (b.toNat % 64)))

/-- A byte times x in GF(2^8) of AES. -/
def aesDouble (b : Byte) : Byte := (b <<< 1) ^^^ (if b.msb then 0x1b else 0)

/-- Word `n` of the key schedule from the words before it, the latest first. -/
def aesNext (n : Nat) (w : List (List Byte)) : List Byte :=
  let t := w.getD 0 []
  let u :=
    if n % 8 = 0 then
      List.zipWith (· ^^^ ·) ((t.drop 1 ++ t.take 1).map aesSub) [BitVec.ofNat 8 (2 ^ (n / 8 - 1)), 0, 0, 0]
    else if n % 8 = 4 then t.map aesSub else t
  List.zipWith (· ^^^ ·) u (w.getD 7 [])

/-- The key schedule of AES-256 up to word `8 + n`, the latest first. -/
def aesExpand (key : List Byte) : Nat → List (List Byte)
  | 0 => ((List.range 8).map fun k => (key.drop (4 * k)).take 4).reverse
  | n + 1 =>
    let w := aesExpand key n
    aesNext (8 + n) w :: w

/-- The 15 round keys of 16 bytes. -/
def aesRoundKeys (key : List Byte) : List (List Byte) :=
  let w := (aesExpand key 52).reverse
  (List.range 15).map fun k => ((w.drop (4 * k)).take 4).flatten

/-- The row shift on 16 bytes in column order. -/
def aesShift (b : List Byte) : List Byte := (List.range 16).map fun i => b.getD ((5 * i) % 16) 0

/-- One column mixed. -/
def aesMixColumn (c : List Byte) : List Byte :=
  (List.range 4).map fun i =>
    let a := c.getD i 0
    let b := c.getD ((i + 1) % 4) 0
    aesDouble a ^^^ aesDouble b ^^^ b ^^^ c.getD ((i + 2) % 4) 0 ^^^ c.getD ((i + 3) % 4) 0

/-- All four columns mixed. -/
def aesMix (b : List Byte) : List Byte := (List.range 4).flatMap fun k => aesMixColumn ((b.drop (4 * k)).take 4)

/-- One block of 16 bytes under the round keys. -/
def aesBlock (keys : List (List Byte)) (block : List Byte) : List Byte :=
  let x := (List.range 14).foldl (fun b r =>
      let t := aesShift ((List.zipWith (· ^^^ ·) b (keys.getD r [])).map aesSub)
      if r = 13 then t else aesMix t) block
  List.zipWith (· ^^^ ·) x (keys.getD 14 [])

/-! ## GCM -/

/-- A product in GF(2^128) of GHASH: bit 127 of a block is its first bit. -/
def ghashMul (x y : BitVec 128) : BitVec 128 :=
  ((List.range 128).foldl (fun (s : BitVec 128 × BitVec 128) i =>
    (if x.getMsbD i then s.1 ^^^ s.2 else s.1,
     (s.2 >>> 1) ^^^ (if s.2.getLsbD 0 then 0xe1000000000000000000000000000000 else 0))) (0, y)).1

/-- `n` blocks of bytes into GHASH, a short last block filled with zeros. -/
def ghashBlocks (h : BitVec 128) : Nat → BitVec 128 → List Byte → BitVec 128
  | 0, y, _ => y
  | n + 1, y, bs =>
    let b := bs.take 16
    ghashBlocks h n (ghashMul (y ^^^ BitVec.ofNat 128 (beNat (b ++ List.replicate (16 - b.length) 0))) h) (bs.drop 16)

/-- `n` blocks of bytes under the key stream from counter block `iv`, `ctr`. -/
def gcmStream (keys : List (List Byte)) (iv : BitVec 96) : Nat → Nat → List Byte → List Byte
  | 0, _, _ => []
  | n + 1, ctr, bs =>
    List.zipWith (· ^^^ ·) (bs.take 16) (aesBlock keys (natBytesBE 12 iv.toNat ++ natBytesBE 4 ctr)) ++
      gcmStream keys iv n (ctr + 1) (bs.drop 16)

/-- The GCM tag over additional data and cipher bytes. -/
def gcmTagOf (keys : List (List Byte)) (iv : BitVec 96) (aad cipher : List Byte) : BitVec 128 :=
  let h := BitVec.ofNat 128 (beNat (aesBlock keys (List.replicate 16 0)))
  let y := ghashBlocks h ((cipher.length + 15) / 16) (ghashBlocks h ((aad.length + 15) / 16) 0 aad) cipher
  let z := ghashMul (y ^^^ BitVec.ofNat 128 (8 * aad.length * 2 ^ 64 + 8 * cipher.length)) h
  z ^^^ BitVec.ofNat 128 (beNat (aesBlock keys (natBytesBE 12 iv.toNat ++ [0, 0, 0, 1])))

/-- The round keys of a key given as a 256-bit number, big-endian. -/
def gcmKeys (key : BitVec 256) : List (List Byte) := aesRoundKeys (natBytesBE 32 key.toNat)

/-- AES-256-GCM: key, IV, additional data, plain bytes; the cipher bytes and the tag (R244, R461). -/
@[irreducible] def gcmSeal (key : BitVec 256) (iv : BitVec 96) (aad plain : List Byte) : List Byte × BitVec 128 :=
  let keys := gcmKeys key
  let cipher := gcmStream keys iv ((plain.length + 15) / 16) 2 plain
  (cipher, gcmTagOf keys iv aad cipher)

/-- AES-256-GCM: key, IV, additional data, cipher bytes, tag; the plain bytes where the tag is good (R246, R401,
R461). -/
@[irreducible] def gcmOpen (key : BitVec 256) (iv : BitVec 96) (aad cipher : List Byte) (tag : BitVec 128) :
    Option (List Byte) :=
  let keys := gcmKeys key
  if gcmTagOf keys iv aad cipher = tag then some (gcmStream keys iv ((cipher.length + 15) / 16) 2 cipher) else none

end Sys2Proof.Machine
end

