-- ==== Sys2Proof/Machine/OutlineParse.lean ====
section
/-!
DEFINITION. The Outline as words: records (R75, R76), their layouts (R77, R78) and the checks of R82 that
need nothing but the words: 1 to 4, 6, 8 and 9. Each check gives the indices of the words that break it;
the first of them is OTL_ERR_WORD.
-/

namespace Sys2Proof.Machine

open Sys2Proof

/-- A record as it lies in the image: the index of its header word, TYPE, SCOPE, ENTRIES, and the words
after the header, the scope word first (R75). -/
structure RawRec where
  at_ : Nat := 0
  typ : Nat := 0
  scope : Nat := 0
  entries : Nat := 0
  body : List Word := []
deriving DecidableEq, Repr, Inhabited

/-- The record types of R76. -/
def tPartition : Nat := 0x01
def tPower : Nat := 0x02
def tClockGate : Nat := 0x03
def tRegulation : Nat := 0x04
def tTierPool : Nat := 0x05
def tObjectPlace : Nat := 0x06
def tStream : Nat := 0x07
def tNetPort : Nat := 0x08
def tTsnGate : Nat := 0x09
def tFrer : Nat := 0x0A
def tStylusChan : Nat := 0x0B
def tPlanLattice : Nat := 0x0C
def tFusion : Nat := 0x0D
def tSafetyRule : Nat := 0x0E
def tRegistration : Nat := 0x0F
def tSparePolicy : Nat := 0x10
def tSelftest : Nat := 0x11
def tContextPool : Nat := 0x12
def tEnd : Nat := 0x7F

/-- Fixed words of a type, beside the scope word (R77). -/
def fixedWords (t : Nat) : Nat :=
  match t with
  | 0x01 => 2 | 0x02 => 2 | 0x03 => 3 | 0x05 => 4 | 0x09 => 2 | 0x0C => 5 | 0x0D => 3 | 0x0E => 1
  | 0x0F => 3 | 0x10 => 1 | 0x12 => 4 | _ => 0

/-- Words of one entry of a type (R77). -/
def entryWords (t : Nat) : Nat :=
  match t with
  | 0x04 => 1 | 0x06 => 4 | 0x07 => 4 | 0x08 => 2 | 0x09 => 1 | 0x0A => 1 | 0x0B => 24 | 0x0D => 2
  | 0x0E => 8 | 0x0F => 4 | 0x11 => 1 | _ => 0

/-- Partition-scoped types; the others are device-wide (R76). -/
def partitionScoped (t : Nat) : Bool :=
  t = 1 || (decide (4 ≤ t) && decide (t ≤ 7)) || (decide (0x0B ≤ t) && decide (t ≤ 0x0E)) || t = 0x12

/-- Body word `i` of a record, the scope word being 0. -/
def RawRec.w (r : RawRec) (i : Nat) : Word := r.body.getD i 0
/-- The index in the image of body word `i`. -/
def RawRec.idx (r : RawRec) (i : Nat) : Nat := r.at_ + 1 + i

/-- The entries of a record: image index and words of each. -/
def RawRec.entryList (r : RawRec) : List (Nat × List Word) :=
  let n := entryWords r.typ
  (List.range r.entries).map fun k =>
    let o := 1 + fixedWords r.typ + k * n
    (r.idx o, (r.body.drop o).take n)

/-- TEMPLATES and MOVES of REGISTRATION (R78). -/
def RawRec.templates (r : RawRec) : List (Nat × List Word) :=
  (List.range (fld (r.w 2) 11 0)).map fun k =>
    let o := 4 + 4 * r.entries + 4 * k
    (r.idx o, (r.body.drop o).take 4)
def RawRec.moves (r : RawRec) : List (Nat × List Word) :=
  (List.range (fld (r.w 3) 11 0)).map fun k =>
    let o := 4 + 4 * r.entries + 4 * fld (r.w 2) 11 0 + 16 * k
    (r.idx o, (r.body.drop o).take 16)

/-- LEN_WORDS that a record must have (R75, R78). -/
def RawRec.wantLen (r : RawRec) : Nat :=
  1 + fixedWords r.typ + r.entries * entryWords r.typ +
    (if r.typ = tRegistration then 4 * fld (r.w 2) 11 0 + 16 * fld (r.w 3) 11 0 else 0)

/-- The largest ENTRIES of a type (R75, R78). DESIGN CHOICE: a TSN_GATE of more than 1,024 entries (R382) and a
SAFETY_RULE of more than 1,023 (R412) fail here, at check 8 with BAD_RECORD; the manual gives no code (log 26). -/
def maxEntries (t : Nat) : Nat :=
  if entryWords t = 0 then 0
  else if t = tRegistration then 4096 else if t = tTsnGate then 1024
  else if t = tSafetyRule then 1023 else 65535

/-- The records from word `pos` up to the signature block, and the word at which the walk fails (R75,
R76). -/
def walkRecords : Nat → List Word → Nat → Nat → List RawRec × Option Nat
  | 0, _, pos, _ => ([], some pos)
  | _, [], pos, _ => ([], some pos)
  | fuel + 1, h :: rest, pos, sig =>
    let typ := fld h 31 24
    let len := fld h 19 0
    if fld h 23 20 ≠ 1 then ([], some pos)
    else if typ = tEnd then
      if len = 0 ∧ pos + 1 = sig then ([{ at_ := pos, typ := tEnd }], none) else ([], some pos)
    else if typ = 0 ∨ 0x12 < typ ∨ rest.length < len ∨ len = 0 then ([], some pos)
    else
      let body := rest.take len
      let sw := body.headD 0
      let r : RawRec :=
        { at_ := pos, typ := typ, scope := fld sw 3 0, entries := fld sw 31 16, body := body }
      if fld sw 15 4 ≠ 0 then ([], some (pos + 1))
      else if maxEntries typ < r.entries then ([], some (pos + 1))
      else if r.wantLen ≠ len then ([], some pos)
      else
        let t := walkRecords fuel (rest.drop len) (pos + 1 + len) sig
        (r :: t.1, t.2)

/-- The smallest of a list of word indices. -/
def leastWord (l : List Nat) : Option Nat :=
  l.foldl (fun acc x => match acc with
    | none => some x
    | some y => some (min x y)) none

/-- A word index where a condition is broken. -/
def broken (bad : Bool) (i : Nat) : List Nat := if bad then [i] else []

/-- A number outside a range breaks its word. -/
def outside (x lo hi i : Nat) : List Nat := broken (decide (x < lo) || decide (hi < x)) i

/-- A word with a bit outside a mask breaks. -/
def offMask (w : Word) (mask : Nat) (i : Nat) : List Nat := broken (w &&& ~~~ (wd mask) != 0) i

/-! ## Check 8 of R82 -/

/-- Masks of the defined bits of the fixed words of a type (R77). -/
def fixedMasks (t : Nat) : List Nat :=
  match t with
  | 0x01 => [0x0F3F3F01, 0x73]
  | 0x02 => [0x00FFFFFF, 0x3FF]
  | 0x03 => [0xFFFFFFFF, 0xFFFF000F, 0xFFFF7FFF]
  | 0x05 => [0x3FF, 0x7FFF, 0x1FFFF, 0x1]
  | 0x09 => [0x3, 0x0FFFFFFF]
  | 0x0C => [0x3FFF, 0x3FFFFFFF, 0xFFFF, 0xFFFFFFFF, 0x7FF]
  | 0x0D => [0x0FFF0FFF, 0xFFFFFFFF, 0xFFFF]
  | 0x0E => [0x00FFFF0F]
  | 0x0F => [0x0FFFFFFF, 0xFFF, 0xFFF]
  | 0x10 => [0x1]
  | 0x12 => [0x7FFF, 0xFFFFFFFF, 0x1FFF, 0x3FFFF]
  | _ => []

/-- Masks of the defined bits of the entry words of a type (R55, R77). -/
def entryMasks (t : Nat) : List Nat :=
  match t with
  | 0x04 => [0x0FFFFFFF]
  | 0x06 => [0xFFFFFFFF, 0x7F, 0xFFFFFFFF, 0xFFFF]
  | 0x07 => [0x3F03F3FF, 0x0FFF0FFF, 0xFFFFFF, 0xF]
  | 0x08 => [0xF1FF, 0xFFFFFF]
  | 0x0A => [0x1FFFFF]
  | 0x0B => [0xFFFF, 0x0FFFFFFF, 0x0FFFFFFF, 0xFFFF]
  | 0x0D => [0xFFFF, 0xFFFFFFFF]
  | 0x0F => [0xBFFFFFFF, 0x007FFFFF, 0xFFFFFFFF, 0x0FFFFFFF]
  | _ => []

/-- Words of a list that leave their masks. -/
def offMasks (ws : List Word) (masks : List Nat) (i : Nat) : List Nat :=
  (List.zip ws masks).zipIdx.flatMap fun x => offMask x.1.1 x.1.2 (i + x.2)

/-- The 40 coefficient halfwords of a STYLUS_CHAN entry (R363, R365). -/
def coeffOf (e : List Word) : List (BitVec 16) :=
  (e.drop 4).flatMap fun w => [w.extractLsb' 0 16, w.extractLsb' 16 16]

/-- Reserved halfwords of a STYLUS_CHAN entry that are not 0 (R363, R365). -/
def reservedCoeff (e : Nat × List Word) : List Nat :=
  let w0 := e.2.headD 0
  let c := coeffOf e.2
  let first := if bit w0 7 then 5 * fld w0 11 8 else 9
  ((List.range 40).filter fun n =>
    (decide (first ≤ n) && c.getD n 0 != 0) ||
      (!bit w0 7 && n = 8 && decide (16 ≤ (c.getD 8 0).toNat))).map fun n => e.1 + 4 + n / 2

/-- Reserved and unused fields of a Move descriptor (R78, R163, R165). -/
def reservedMove (e : Nat × List Word) : List Nat :=
  let w (n : Nat) : Word := e.2.getD n 0
  let i := e.1
  let sub := fld (w 2) 31 28
  broken (fld (w 0) 7 0 != 0x0A || fld (w 0) 31 15 != 0) i ++
  broken (fld (w 1) 31 28 != 0) (i + 1) ++ broken (w 3 != 0) (i + 3) ++
  broken (w 6 != 0) (i + 6) ++ broken (w 7 != 0) (i + 7) ++
  broken (sub = 2 && w 8 != 0) (i + 8) ++ broken (sub = 2 && w 9 != 0) (i + 9) ++
  broken ((sub != 1 && fld (w 10) 15 0 != 0) || (sub != 1 && sub != 2 && fld (w 10) 31 16 != 0)) (i + 10) ++
  broken ((sub = 1 || sub = 2) && w 11 != 0) (i + 11) ++ broken (w 12 != 0) (i + 12) ++
  broken ((sub = 1 || sub = 2) && w 13 != 0) (i + 13) ++ broken (w 14 != 0) (i + 14) ++
  broken ((sub != 1 && fld (w 15) 15 0 != 0) || fld (w 15) 31 16 != 0) (i + 15)

/-- Reserved fields of one record (R77, R78). -/
def RawRec.reserved (r : RawRec) : List Nat :=
  offMasks (r.body.drop 1) (fixedMasks r.typ) (r.idx 1) ++
  r.entryList.flatMap (fun e => offMasks e.2 (entryMasks r.typ) e.1) ++
  (if r.typ = tStylusChan then r.entryList.flatMap reservedCoeff else []) ++
  (if r.typ = tRegistration then
    r.templates.flatMap (fun e => offMasks e.2 [0xFFFFFFFF, 0x37, 0xFFFFFF, 0xFFFFFFFF] e.1) ++
    r.moves.flatMap reservedMove
  else [])

/-- The order of records: TYPE, SCOPE, and PORT or RULE_SET (R76). -/
def RawRec.key (r : RawRec) : Nat :=
  (r.typ * 16 + r.scope) * 16 +
    (if r.typ = tTsnGate then fld (r.w 1) 1 0 else if r.typ = tSafetyRule then fld (r.w 1) 3 0 else 0)

/-- Types that R76 asks for once, or at least once. -/
def requiredTypes : List Nat := [1, 2, 3, 8, 0x0F, 0x10, 0x11]

/-- Records of a list by type. -/
def recsOf (rs : List RawRec) (t : Nat) : List RawRec := rs.filter (·.typ = t)

/-- Order, multiplicity, scope and the rule sets of R76. -/
def structureFaults (rs : List RawRec) : List Nat :=
  let parts := (recsOf rs tPartition)
  ((List.zip rs (rs.drop 1)).flatMap fun p => broken (decide (p.2.key ≤ p.1.key) && p.2.typ != tEnd) p.2.at_) ++
  (rs.flatMap fun r =>
    if r.typ = tEnd then []
    else if partitionScoped r.typ then
      broken (decide (7 < r.scope) || !(parts.any fun p => p.scope = r.scope &&
        (r.typ != tSafetyRule || bit (p.w 1) 0))) (r.idx 0)
    else broken (r.scope != 0xF) (r.idx 0)) ++
  ([tPlanLattice, tFusion].flatMap fun t => ((recsOf rs t).drop 1).map (·.at_)) ++
  ((recsOf rs tSafetyRule).zipIdx.flatMap fun r =>
    broken (((recsOf rs tSafetyRule).take r.2).any fun q => fld (q.w 1) 3 0 = fld (r.1.w 1) 3 0) (r.1.idx 1)) ++
  (requiredTypes.flatMap fun t =>
    if (recsOf rs t).isEmpty then ((rs.find? fun r => decide (t < r.typ)).map (·.at_)).toList else [])

/-- Check 8: the words that break the structure of an image (R73, R75, R76, R82). -/
def check8 (ws : List Word) (walk : List RawRec × Option Nat) : List Nat :=
  offMask (ws.getD 1 0) 0xFFFF 1 ++ offMask (ws.getD 5 0) 3 5 ++
  broken (walk.2.isNone && (ws.getD 9 0).toNat != walk.1.length) 9 ++
  ((List.range 6).flatMap fun k => broken (ws.getD (10 + k) 0 != 0) (10 + k)) ++
  walk.2.toList ++ structureFaults walk.1 ++ walk.1.flatMap RawRec.reserved

/-! ## Check 9 of R82 -/

/-- The master codes of R300. -/
def masterCodes : List Nat := [1, 2, 3, 4, 5, 6, 0x10, 0x11, 0x12, 0x13, 0x14, 0x15]

/-- Masks of words E2 to E5 of a rule by TYPE (R414). -/
def ruleMasks (t : Nat) : List Nat :=
  match t with
  | 1 => [0xFFFFFFFF] | 2 => [0xFFFF] | 3 => [0x00FFFFFF, 0xFFFFFFFF, 0xFFFFFFFF, 0xFFFF]
  | 4 => [0xFFFFFFFF, 0xFFFFFFFF, 0xFFFFFFFF] | 5 => [0xFFFF00FF, 0xFFFFFFFF]
  | 6 => [0xFFFFFFFF, 0xFFFFFFFF, 0xFFFFFFFF, 0xFFFFFFFF]
  | 7 => [0xFFFFFFFF] | 8 => [0xFFFFFFFF] | 9 => [0xFF] | 10 => [0xFFFFFFFF]
  | 11 => [0xFFFFFFFF, 0xFFFFFFFF] | _ => []

/-- The range faults of one plausibility rule of a set with N (R412 to R414). -/
def ruleRange (n : Nat) (e : Nat × List Word) : List Nat :=
  let w (k : Nat) : Word := e.2.getD k 0
  let t := fld (w 0) 7 0
  let act := fld (w 0) 9 8
  let chan := t = 1 || t = 2 || t = 3
  let str := t = 4 || t = 9
  broken (t = 0 || decide (11 < t) || act = 3 || fld (w 0) 15 10 != 0 || (n = 1 && act != 0)) e.1 ++
  (if chan then
    offMask (w 1) 0x7F7F (e.1 + 1) ++ broken (decide (fld (w 1) 14 8 < fld (w 1) 6 0)) (e.1 + 1)
   else if str then offMask (w 1) 0xFF (e.1 + 1) ++ outside (fld (w 1) 7 0) 0 47 (e.1 + 1)
   else if decide (5 ≤ t) && decide (t ≤ 8) then offMask (w 1) 0xFFFF (e.1 + 1)
   else offMask (w 1) 0 (e.1 + 1)) ++
  offMasks (e.2.drop 2) (ruleMasks t ++ List.replicate (6 - (ruleMasks t).length) 0) (e.1 + 2)

/-- The range faults of one Registration entry under hyperperiod `h` (R55, R56). -/
def entryRange (h : Nat) (e : Nat × List Word) : List Nat :=
  let w (k : Nat) : Word := e.2.getD k 0
  let target := fld (w 1) 7 0
  let unit := fld (w 1) 15 8
  let action := fld (w 1) 19 16
  let arg := (w 2).toNat
  let rep := fld (w 3) 27 0
  let unitBad :=
    if target = 6 then decide (3 < unit)
    else if target = 8 then decide (15 < unit)
    else if target = 9 then
      (if action = 0 then unit = 0 || decide (7 < unit) else decide (3 < unit))
    else unit != 0
  let actionBad :=
    if target = 8 then decide (3 < action) else if target = 9 then decide (1 < action)
    else action != 0
  let argBad :=
    if target = 4 || target = 5 then decide (15 < arg)
    else if target = 6 then arg != 0
    else if target = 8 then (if action = 3 then arg = 0 || decide (2 ^ 24 < arg) else arg != 0)
    else if target = 9 then action = 1 && arg != 0 else false
  broken (decide (h ≤ fld (w 0) 27 0) || fld (w 0) 29 28 = 3) e.1 ++
  broken (target = 0 || decide (9 < target) || unitBad || actionBad) (e.1 + 1) ++
  broken argBad (e.1 + 2) ++ broken (rep != 0 && decide (rep < 16)) (e.1 + 3)

/-- The range faults of a Move descriptor (R78, R164, R165, R174). -/
def moveRange (e : Nat × List Word) : List Nat :=
  let w (n : Nat) : Word := e.2.getD n 0
  let sub := fld (w 2) 31 28
  let fa := fld (w 1) 27 24
  broken (fld (w 0) 13 8 != 0) e.1 ++ broken (decide (13 < fa)) (e.1 + 1) ++
  broken (decide (3 < sub) || fld (w 2) 27 24 != fa) (e.1 + 2) ++
  broken ((sub = 1 && decide (2 < fld (w 10) 31 16)) ||
    (sub = 2 && (decide (fld (w 10) 31 16 < 2) || decide (4 < fld (w 10) 31 16)))) (e.1 + 10) ++
  broken (sub = 1 && decide (2 < fld (w 15) 15 0)) (e.1 + 15)

/-- A halfword as a Q15 number. -/
def q15 (x : BitVec 16) : Int := x.toInt

/-- The range faults of a STYLUS_CHAN entry (R77, R363). -/
def chanRange (e : Nat × List Word) : List Nat :=
  let w (k : Nat) : Word := e.2.getD k 0
  let law := bit (w 0) 7
  let sec := fld (w 0) 11 8
  let c := coeffOf e.2
  let h (n : Nat) : BitVec 16 := c.getD n 0
  broken (if law then sec = 0 || decide (8 < sec) else sec != 0) e.1 ++
  outside (fld (w 1) 27 0) 5000 (2 ^ 28 - 1) (e.1 + 1) ++
  broken (decide (47 < fld (w 3) 7 0) || decide (fld (w 3) 15 8 < 64) || decide (191 < fld (w 3) 15 8))
    (e.1 + 3) ++
  (if law then []
   else
    broken (decide (q15 (h 3) < 0)) (e.1 + 5) ++ broken (decide (q15 (h 4) < q15 (h 5))) (e.1 + 6) ++
    broken (decide (q15 (h 6) < q15 (h 7))) (e.1 + 7) ++
    broken (decide (8 < (h 8).toNat % 16)) (e.1 + 8))

/-- The range faults of one STREAM entry; `chans` channels name it as OUT_STREAM (R77, R370). -/
def streamRange (chans : Nat) (e : Nat × List Word) : List Nat :=
  let w (k : Nat) : Word := e.2.getD k 0
  let id := fld (w 0) 7 0
  let out := bit (w 0) 8
  broken ((if out then decide (id < 64) || decide (191 < id) else decide (47 < id)) ||
    decide ((if bit (w 0) 9 || out then 3 else 11) < fld (w 0) 15 12)) e.1 ++
  broken (decide (1490 < fld (w 1) 27 16) ||
    (out && chans != 0 && decide (1500 < fld (w 1) 27 16 + 12 + 4 * chans))) (e.1 + 1) ++
  broken (fld (w 2) 23 0 = 0) (e.1 + 2) ++ broken (fld (w 3) 3 0 = 0) (e.1 + 3)

/-- Check 9: the range faults of one record (R77, R78). `rs` are all records, `h` is H. -/
def RawRec.range (rs : List RawRec) (h : Nat) (r : RawRec) : List Nat :=
  let w := r.w
  let es := r.entryList
  match r.typ with
  | 0x01 => broken (decide (32 < fld (w 1) 13 8) || decide (fld (w 1) 13 8 < fld (w 1) 21 16)) (r.idx 1)
  | 0x02 => broken (w 1 &&& 0x00800047 != 0x00800047) (r.idx 1) ++
      outside (fld (w 2) 9 0) 1 700 (r.idx 2)
  | 0x03 => broken (fld (w 3) 31 16 &&& (65535 - fld (w 2) 31 16) != 0) (r.idx 3)
  | 0x04 => es.flatMap fun e => broken (!masterCodes.contains (fld (e.2.headD 0) 7 0)) e.1
  | 0x05 => outside (fld (w 1) 9 0) 0 640 (r.idx 1) ++ outside (fld (w 2) 14 0) 0 16384 (r.idx 2) ++
      outside (fld (w 3) 16 0) 0 65536 (r.idx 3)
  | 0x06 => es.flatMap fun e =>
      broken (e.2.headD 0 = 0) e.1 ++
      broken (decide (fld (e.2.getD 1 0) 2 0 < 2) || decide (4 < fld (e.2.getD 1 0) 2 0) ||
        fld (e.2.getD 1 0) 6 5 = 3) (e.1 + 1) ++
      broken (e.2.getD 2 0 = 0) (e.1 + 2)
  | 0x07 => es.flatMap fun e => streamRange
      (((recsOf rs tStylusChan).flatMap RawRec.entryList).filter fun c =>
        fld (c.2.getD 3 0) 15 8 = fld (e.2.headD 0) 7 0 && bit (e.2.headD 0) 8).length e
  | 0x08 => es.flatMap fun e =>
      let w0 := e.2.headD 0
      broken (fld w0 4 3 = 3 || fld w0 7 6 = 3 || (bit w0 8 && decide (fld w0 1 0 < 2)) ||
        (fld w0 15 12 != 0 && decide (fld w0 15 12 < 9))) e.1
  | 0x09 => es.flatMap fun e => broken (fld (e.2.headD 0) 31 8 = 0) e.1
  | 0x0A => es.flatMap fun e => broken (fld (e.2.headD 0) 20 16 = 0) e.1
  | 0x0B => es.flatMap chanRange
  | 0x0C => outside (fld (w 1) 13 0) 1 8192 (r.idx 1) ++
      broken (fld (w 2) 10 0 = 0 || decide (1024 < fld (w 2) 10 0) || fld (w 2) 21 11 = 0 ||
        decide (1024 < fld (w 2) 21 11) || fld (w 2) 29 22 = 0 || decide (128 < fld (w 2) 29 22)) (r.idx 2) ++
      outside (fld (w 3) 15 0) 1 1000 (r.idx 3) ++ outside (fld (w 5) 10 0) 1 1024 (r.idx 5)
  | 0x0D => broken (fld (w 1) 11 0 = 0 || decide (2048 < fld (w 1) 11 0) ||
        decide (2000 < fld (w 1) 27 16)) (r.idx 1)
  | 0x0E => broken (fld (w 1) 23 16 = 0 || decide (64 < fld (w 1) 23 16) || fld (w 1) 15 8 = 0 ||
        decide (fld (w 1) 23 16 < fld (w 1) 15 8)) (r.idx 1) ++
      es.flatMap (ruleRange (fld (w 1) 15 8))
  | 0x0F => es.flatMap (entryRange h) ++
      (r.templates.flatMap fun e => broken (decide (fld (e.2.getD 2 0) 23 0 < 1000)) (e.1 + 2)) ++
      r.moves.flatMap moveRange
  | 0x11 => es.flatMap fun e =>
      let w0 := e.2.headD 0
      broken (fld w0 7 0 = 0 || decide (7 < fld w0 7 0) || decide (fld w0 19 8 < 16) ||
        decide (3200 < fld w0 19 8) || fld w0 31 20 = 0) e.1
  | 0x12 => outside (fld (w 1) 14 0) 0 16384 (r.idx 1) ++ outside (fld (w 3) 12 0) 0 4096 (r.idx 3) ++
      outside (fld (w 4) 17 0) 16 131072 (r.idx 4)
  | _ => []

/-! ## The Outline that the records say -/

def parsePartition (r : RawRec) : PartitionRec where
  part := r.scope
  supervised := bit (r.w 1) 0
  slots := fld (r.w 1) 13 8
  floor := fld (r.w 1) 21 16
  clusters := BitVec.ofNat 4 (fld (r.w 1) 27 24)
  restart := fld (r.w 2) 1 0
  rights := BitVec.ofNat 3 (fld (r.w 2) 6 4)

def parseStream (p : Nat) (e : List Word) : StreamEntry :=
  let w (k : Nat) : Word := e.getD k 0
  { part := p, id := fld (w 0) 7 0, egress := bit (w 0) 8, ethernet := bit (w 0) 9,
    port := fld (w 0) 15 12, vc := fld (w 0) 17 16, dataType := fld (w 0) 29 24,
    tsn := fld (w 1) 11 0, applyAtPos := fld (w 1) 27 16, period := fld (w 2) 23 0,
    frozenK := fld (w 3) 3 0 }

def parseNetPort (e : List Word) : NetPortEntry :=
  let w (k : Nat) : Word := e.getD k 0
  { port := fld (w 0) 1 0, enable := bit (w 0) 2, speedMax := fld (w 0) 4 3, gptp := bit (w 0) 5,
    role := fld (w 0) 7 6, macsec := bit (w 0) 8, logSync := sgn (fld (w 0) 15 12) 4,
    priority1 := BitVec.ofNat 8 (fld (w 1) 7 0), priority2 := BitVec.ofNat 8 (fld (w 1) 15 8),
    clockClass := BitVec.ofNat 8 (fld (w 1) 23 16) }

def parseChan (p : Nat) (e : List Word) : ChanEntry :=
  let w (k : Nat) : Word := e.getD k 0
  { part := p, channel := fld (w 0) 6 0, cascade := bit (w 0) 7, sections := fld (w 0) 11 8,
    group := fld (w 0) 15 12, period := fld (w 1) 27 0, applyLead := fld (w 2) 27 0,
    inStream := fld (w 3) 7 0, outStream := fld (w 3) 15 8, coeff := coeffOf e }

def parseRule (e : List Word) : RuleWords :=
  let w (k : Nat) : Word := e.getD k 0
  { e0 := w 0, e1 := w 1, e2 := w 2, e3 := w 3, e4 := w 4, e5 := w 5, e6 := w 6, e7 := w 7 }

def parseEntry (e : List Word) : RegEntry :=
  let w (k : Nat) : Word := e.getD k 0
  { offset := fld (w 0) 27 0, late := fld (w 0) 29 28, valid := bit (w 0) 31, target := fld (w 1) 7 0,
    unit := fld (w 1) 15 8, action := fld (w 1) 19 16, part := fld (w 1) 22 20, arg := w 2,
    repeatTicks := fld (w 3) 27 0 }

def parseTemplate (e : List Word) : TemplateRec :=
  let w (k : Nat) : Word := e.getD k 0
  { chain := w 0, part := fld (w 1) 2 0, restart := fld (w 1) 5 4, deadline := fld (w 2) 23 0,
    outBase := w 3 }

/-- The Outline that an image's records say (R77, R78). -/
def parseOutline (ws : List Word) (rs : List RawRec) : Outline :=
  let one (t : Nat) : RawRec := (recsOf rs t).headD {}
  let words (t : Nat) : List (Nat × List Word) :=
    (recsOf rs t).flatMap fun r => r.entryList.map fun e => (r.scope, e.2)
  let pw := one tPower
  let cg := one tClockGate
  let rg := one tRegistration
  let h (k : Nat) : Word := ws.getD k 0
  { header :=
      { totalWords := (h 2).toNat, epoch := h 3, boot := bit (h 5) 0, debugOnly := bit (h 5) 1,
        bodyCrc := h 6, recordCount := (h 9).toNat, keyIndex := fld (h (h 7).toNat) 3 0 }
    records := rs.map fun r => (r.typ, r.scope, r.entries)
    partitions := (recsOf rs tPartition).map parsePartition
    domainOn := BitVec.ofNat 24 (fld (pw.w 1) 23 0)
    powerCap := fld (pw.w 2) 9 0
    coreRun := BitVec.ofNat 36 ((cg.w 1).toNat + 2 ^ 32 * fld (cg.w 2) 3 0)
    gpioOut := BitVec.ofNat 16 (fld (cg.w 2) 31 16)
    gpioHost := BitVec.ofNat 16 (fld (cg.w 3) 31 16)
    unitRun := BitVec.ofNat 15 (fld (cg.w 3) 14 0)
    regulation := (words tRegulation).map fun e =>
      let w := e.2.headD 0
      { part := e.1, master := fld w 7 0, min := fld w 19 8, share := fld w 27 20 }
    tierPools := (recsOf rs tTierPool).map fun r =>
      { part := r.scope, t2Floor := fld (r.w 1) 9 0, t3Floor := fld (r.w 2) 14 0,
        t4Floor := fld (r.w 3) 16 0, onDemand := bit (r.w 4) 0 }
    places := (words tObjectPlace).map fun e =>
      let w (k : Nat) : Word := e.2.getD k 0
      { part := e.1, obj := w 0, home := fld (w 1) 2 0, pin := bit (w 1) 3, mirror := bit (w 1) 4,
        source := fld (w 1) 6 5, size := (w 2).toNat, order := fld (w 3) 15 0 }
    streams := (words tStream).map fun e => parseStream e.1 e.2
    ports := (words tNetPort).map fun e => parseNetPort e.2
    gates := (recsOf rs tTsnGate).map fun r =>
      { port := fld (r.w 1) 1 0, cycle := fld (r.w 2) 27 0
        entries := r.entryList.map fun e =>
          { gates := BitVec.ofNat 8 (fld (e.2.headD 0) 7 0), interval := fld (e.2.headD 0) 31 8 } }
    frer := (words tFrer).map fun e =>
      let w := e.2.headD 0
      { tsn := fld w 11 0, ports := BitVec.ofNat 4 (fld w 15 12), history := fld w 20 16 }
    channels := (words tStylusChan).map fun e => parseChan e.1 e.2
    lattice := (recsOf rs tPlanLattice).head?.map fun r =>
      { part := r.scope, primitives := fld (r.w 1) 13 0, mapX := fld (r.w 2) 10 0,
        mapY := fld (r.w 2) 21 11, mapZ := fld (r.w 2) 29 22, voxelMm := fld (r.w 3) 15 0,
        tableObj := r.w 4, maxPlan := fld (r.w 5) 10 0 }
    fusion := (recsOf rs tFusion).head?.map fun r =>
      { part := r.scope, maxTracks := fld (r.w 1) 11 0, egoHz := fld (r.w 1) 27 16,
        modelObj := r.w 2, wheelStream := fld (r.w 3) 7 0, inertialStream := fld (r.w 3) 15 8
        entries := r.entryList.map fun e =>
          { stream := fld (e.2.headD 0) 7 0, sensorType := fld (e.2.headD 0) 15 8,
            extrinsicObj := e.2.getD 1 0 } }
    ruleSets := (recsOf rs tSafetyRule).map fun r =>
      { part := r.scope, set := fld (r.w 1) 3 0, n := fld (r.w 1) 15 8, m := fld (r.w 1) 23 16
        rules := r.entryList.map fun e => parseRule e.2 }
    h := fld (rg.w 1) 27 0
    table := rg.entryList.map fun e => parseEntry e.2
    templates := rg.templates.map fun e => parseTemplate e.2
    moves := rg.moves.map (·.2)
    rotate := bit ((one tSparePolicy).w 1) 0
    selftest := (words tSelftest).map fun e =>
      let w := e.2.headD 0
      { unit := fld w 7 0, sliceTicks := fld w 19 8, slices := fld w 31 20 }
    pools := (recsOf rs tContextPool).map fun r =>
      { part := r.scope, contexts := fld (r.w 1) 14 0, kvPages := (r.w 2).toNat,
        recStreams := fld (r.w 3) 12 0, maxPositions := fld (r.w 4) 17 0 } }

end Sys2Proof.Machine
end

