-- ==== Sys2Proof/Machine/Validator.lean ====
section
/-!
DEFINITION. The validator's checks that need the device: signatures (R452), the network table (R379,
R380), references, resources, schedule, coverage and power (checks 5 and 10 to 14 of R82), the Stylus
assignment of R359 and the slot mapping of R18.
-/

namespace Sys2Proof.Machine

open Sys2Proof

/-! ## Signatures (R80, R452) -/

/-- What a verification answers (R452). -/
inductive SigResult where
  | good | bad | revoked
deriving DecidableEq, Repr, Inhabited

/-- A 25-word signature block over bytes (R80, R452). -/
def State.sigCheck (s : State) (msg : List Byte) (blk : List Word) : SigResult :=
  let k := fld (blk.headD 0) 3 0
  if 4 < k ∨ fld (blk.headD 0) 31 4 ≠ 0 then .bad
  else
    match s.sec.keys.getD k none with
    | none => .bad
    | some key =>
      if ecdsaVerify key (sha384 msg) (wordsBytes ((blk.drop 1).take 24)) then
        (if k ≠ 0 ∧ s.sec.revoked.getLsbD (k - 1) then .revoked else .good)
      else .bad

/-! ## The network table (R379, R380) -/

/-- Words of a network table before its signature block. -/
def netWords (m : Memory) : Nat := 16 + 4096 * 8 + (fld (Memory.readWord m 4) 15 0 + 3) / 4

/-- Entry `n` of a network table, with its template. -/
def netEntry (m : Memory) (n : Nat) : NetEntry :=
  let w (k : Nat) : Word := Memory.readWord m (64 + 32 * n + 4 * k)
  { mac := BitVec.ofNat 48 ((w 0).toNat * 65536 + fld (w 1) 15 0), vid := BitVec.ofNat 12 (fld (w 1) 27 16),
    tc := fld (w 1) 30 28, bySource := bit (w 2) 0, rtag := bit (w 2) 1, fwd := bit (w 2) 2,
    egress := bit (w 2) 3, maxSdu := fld (w 2) 31 16, cir := fld (w 3) 23 0, cbsBytes := fld (w 4) 23 0,
    template := Memory.readBytes m (64 + 131072 + fld (w 5) 15 0) (fld (w 5) 26 16) }

/-- The reserved fields of entry `n` are 0. -/
def netEntryOk (m : Memory) (n : Nat) : Bool :=
  let w (k : Nat) : Word := Memory.readWord m (64 + 32 * n + 4 * k)
  (offMasks [w 1, w 2, w 3, w 4, w 5, w 6, w 7]
    [0xFFFFFFFF, 0xFFFF000F, 0xFFFFFF, 0xFFFFFF, 0x07FFFFFF, 0, 0] 0).isEmpty

/-- VID, TEMPLATE_LEN and the template's place of a valid entry lie in their ranges (R380). -/
def netEntryRange (m : Memory) (n : Nat) : Bool :=
  let w (k : Nat) : Word := Memory.readWord m (64 + 32 * n + 4 * k)
  decide (1 ≤ fld (w 1) 27 16) && decide (fld (w 1) 27 16 ≤ 4094) && decide (fld (w 5) 26 16 ≤ 1490) &&
    decide (fld (w 5) 15 0 + fld (w 5) 26 16 ≤ fld (Memory.readWord m 4) 15 0)

/-- A network table object, where it is well formed (R9, R380). A table with a field outside its layout is none
(log 26). -/
def parseNet (o : ObjVersion) : Option NetTable :=
  let m := o.data
  let h (k : Nat) : Word := Memory.readWord m (4 * k)
  let hdr := offMasks ((List.range 16).map h)
    ([0xFFFFFFFF, 0xFFFF] ++ List.replicate 4 0xFFFF ++ List.replicate 8 0x3FFF ++ [0xFFFFFFFF, 0xFFFF]) 0
  let valid := (List.range 4096).filter fun n => bit (Memory.readWord m (64 + 32 * n + 4)) 31
  let slopes := (List.range 8).all fun c => decide (fld (h (6 + c)) 13 0 ≤ 10000)
  if h 0 ≠ 0x4E544254 ∨ o.len ≠ 4 * (netWords m + 25) ∨ fld (h 1) 1 0 ≠ 0 ∨ !hdr.isEmpty ∨ !slopes ∨
      !(List.range 4096).all (netEntryOk m) ∨ !valid.all (netEntryRange m) then none
  else some
    { version := o.ver
      entries := valid.map fun n => (n, netEntry m n)
      express := (List.range 4).map fun p => BitVec.ofNat 8 (fld (h (2 + p)) 7 0)
      shaped := (List.range 4).map fun p => BitVec.ofNat 8 (fld (h (2 + p)) 15 8)
      idleSlope := (List.range 8).map fun c => fld (h (6 + c)) 13 0
      ringLldp := BitVec.ofNat 48 ((h 14).toNat * 65536 + fld (h 15) 15 0) }

/-- The newest sealed version of a device object. -/
def State.deviceObj (s : State) (id : Word) : Option ObjVersion :=
  s.tir.objs.find? fun o => o.obj = id && o.newest && o.state = .sealed

/-- The network table that an Outline under key `k` may use: the newest version, signed under that key,
the key not revoked (R379). -/
def State.netFor (s : State) (k : Nat) : Option NetTable :=
  match s.deviceObj 0xFB000100 with
  | none => none
  | some o =>
    let n := netWords o.data
    let blk := Memory.readWords o.data (4 * n) 25
    if fld (blk.headD 0) 3 0 = k ∧ s.sigCheck (Memory.readBytes o.data 0 (4 * n)) blk = .good then parseNet o
    else none

def NetTable.entry (t : NetTable) (n : Nat) : Option NetEntry := t.entries.lookup n

/-! ## What an Outline powers (R25, R77, R79, R465) -/

def Outline.domain (o : Outline) (d : Nat) : Bool := o.domainOn.getLsbD d
/-- The domain bit of a core's half (R465). -/
def coreDomain (p : Nat) : Nat := 12 + 2 * (p / 9) + (if 5 ≤ p % 9 then 1 else 0)
/-- A core is powered and clocked under an Outline. -/
def Outline.coreOn (o : Outline) (p : Nat) : Bool := o.domain (coreDomain p) && o.coreRun.getLsbD p
/-- A core that is retired (R432, R449). -/
def State.coreRetiredNow (s : State) (p : Nat) : Bool :=
  s.brn.coreRetired.getLsbD p || (s.core p).state = .retired
/-- Cores of cluster `c` in rotation under an Outline (R25). -/
def State.rotationSet (s : State) (o : Outline) (c : Nat) : List Nat :=
  ((List.range 9).map (9 * c + ·)).filter fun p => o.coreOn p && !s.coreRetiredNow p
/-- Cores of a cluster that slots can use: all but the rolling spare, which a suspended cluster under
KEEP_ACTIVE does not hold (R19, R26). -/
def State.clusterCap (s : State) (o : Outline) (c : Nat) : Nat :=
  let n := (s.rotationSet o c).length
  if (s.cluster c).suspended && !o.rotate then n else n - 1
/-- A unit of R426 is powered and clocked. -/
def Outline.unitOn (o : Outline) (u : Nat) : Bool :=
  if u = 1 then o.domain 3
  else if u = 5 then o.domain 20 && o.unitRun.getLsbD 1
  else if u = 6 then o.domain 21 && o.unitRun.getLsbD 2
  else true
/-- A port is enabled in NET_PORT. -/
def Outline.portOn (o : Outline) (p : Nat) : Bool := o.ports.any fun e => e.port = p && e.enable

/-! ## Check 10: references -/

/-- A stream entry of an Outline by ID. -/
def Outline.stream? (o : Outline) (id : Nat) : Option StreamEntry := o.streams.find? (·.id = id)

/-- The newest sealed version of an object in a partition (device objects: of any, R254). -/
def State.newest? (s : State) (part : Nat) (id : Word) : Option ObjVersion :=
  s.tir.objs.find? fun o => o.obj = id && (o.part = part || id.toNat / 2 ^ 24 = 0xFB) && o.newest &&
    o.state = .sealed

/-- A TABLE_OBJECT has no set bit outside the fields of R339 (R9). -/
def latticeOk (m : Memory) : Bool :=
  let w (k : Nat) : Word := Memory.readWord m (4 * k)
  let groups := (fld (w 1) 21 16 + 1) * (fld (w 1) 27 24 + 1)
  let prims := fld (w 1) 13 0
  let first := 16 + groups
  (offMasks ((List.range 16).map w) ([0xFFFFFFFF, 0x0F3F3FFF, 0xFFFFFFFF, 0xFFFF, 0xFFFFF] ++ List.replicate 11 0) 0).isEmpty &&
    ((List.range groups).all fun g => (offMask (w (16 + g)) 0x3FFF3FFF 0).isEmpty) &&
    ((List.range prims).all fun p =>
      (offMasks [w (first + 4 * p + 1), w (first + 4 * p + 2), w (first + 4 * p + 3)] [0xFFFFFF, 0xFFFF07FF, 0xFFFFF] 0).isEmpty) &&
    (List.range (fld (w 4) 19 0)).all fun v => (offMask (w (first + 4 * prims + v)) 0x1FFFFFFF 0).isEmpty

/-- A sensor-model object for `n` FUSION entries has no set bit outside the fields of R328 (R9). -/
def modelOk (m : Memory) (n : Nat) : Bool :=
  let w (k : Nat) : Word := Memory.readWord m (4 * k)
  (offMask (w 3) 0xFFFF00FF 0).isEmpty && ((List.range 11).all fun k => w (5 + k) = 0) &&
    (List.range n).all fun e =>
      (offMask (w (16 + 16 * e)) 0xFFFFFF 0).isEmpty && (List.range 5).all fun k => w (16 + 16 * e + 11 + k) = 0

/-- The references of one record that do not resolve (R9, R56, R78, R82, R314, R340, R366, R379, R414). An absent network
table is found at the first word that names an entry, else at NET_PORT. DESIGN CHOICE: a table or sensor-model object
with a reserved field that is not 0, and a template whose chain has the DRYPOINT bit of the other target (R151), fail
here with REFERENCE; the manual gives no code (log 26). A boot Outline is not held to the presence of the objects of the
directory, which R279 leaves empty (log 26). -/
def RawRec.references (s : State) (o : Outline) (net : Option NetTable) (boot : Bool) (r : RawRec) : List Nat :=
  let es := r.entryList
  let hasPart (p : Nat) : Bool := o.partitions.any (·.part = p)
  let valid (n : Nat) : Option NetEntry := net.bind (·.entry n)
  match r.typ with
  | 0x07 => es.flatMap fun e =>
      let x := parseStream r.scope e.2
      if x.onPort then
        broken (!boot && (match valid x.tsn with
          | none => true
          | some t => x.egress && t.template.length != x.applyAtPos)) (e.1 + 1) ++
        broken (!x.egress && (o.frer.any fun f => f.tsn = x.tsn && !f.ports.getLsbD x.port)) e.1
      else []
  | 0x08 => broken (!boot && net.isNone && o.frer.isEmpty &&
      !o.streams.any StreamEntry.onPort) r.at_
  | 0x0A => es.flatMap fun e => broken (!boot && (valid (fld (e.2.headD 0) 11 0)).isNone) e.1
  | 0x0B => es.flatMap fun e =>
      let c := parseChan r.scope e.2
      broken (!(o.streams.any fun t => t.id = c.inStream && t.part = c.part && !t.egress && t.ethernet) ||
        !(o.streams.any fun t => t.id = c.outStream && t.part = c.part && t.egress)) (e.1 + 3)
  | 0x0C =>
      match s.newest? r.scope (r.w 4) with
      | none => broken (!boot) (r.idx 4)
      | some t => broken (Memory.readWord t.data 0 != 0x4C544358 ||
          fld (Memory.readWord t.data 4) 13 0 != fld (r.w 1) 13 0 ||
          fld (Memory.readWord t.data 12) 15 0 != fld (r.w 3) 15 0 || !latticeOk t.data) (r.idx 4)
  | 0x0D =>
      let ingress (id : Nat) : Bool := o.streams.any fun t => t.id = id && !t.egress
      (match s.newest? r.scope (r.w 2) with
        | none => broken (!boot) (r.idx 2)
        | some t => broken (!modelOk t.data r.entries) (r.idx 2)) ++
      broken (fld (r.w 1) 27 16 != 0 && (!ingress (fld (r.w 3) 7 0) || !ingress (fld (r.w 3) 15 8))) (r.idx 3) ++
      es.flatMap fun e => broken (!ingress (fld (e.2.headD 0) 7 0)) e.1 ++
        broken (!boot && (s.newest? r.scope (e.2.getD 1 0)).isNone) (e.1 + 1)
  | 0x0E => es.flatMap fun e =>
      let t := fld (e.2.headD 0) 7 0
      let tap := if t = 3 then some (fld (e.2.getD 2 0) 23 16)
        else if t = 5 then some (fld (e.2.getD 2 0) 7 0) else none
      broken ((t = 4 || t = 9) && !(o.streams.any fun x => x.id = fld (e.2.getD 1 0) 7 0 && !x.egress &&
        (t = 9 || x.ethernet))) (e.1 + 1) ++
      broken (tap.any fun k => !(es[k]?.any fun q => fld (q.2.headD 0) 7 0 = 4)) (e.1 + 2)
  | 0x0F =>
      (es.flatMap fun e =>
        let x := parseEntry e.2
        let a := x.arg.toNat
        let chain (dry : Bool) : Bool := match o.templates[a]? with
          | none => true
          | some t => match s.newest? t.part t.chain with
            | none => false
            | some v => bit (Memory.readWord v.data 0) 8 != dry
        if !x.valid then []
        else
          broken (x.target != 6 && x.target != 9 && !hasPart x.part) (e.1 + 1) ++
          broken (x.target = 8 && !(o.gpioOut.getLsbD x.unit && !o.gpioHost.getLsbD x.unit)) (e.1 + 1) ++
          broken ((x.target = 1 && chain false) || (x.target = 2 && chain true) ||
            (x.target = 3 && decide (o.moves.length ≤ a)) ||
            (x.target = 5 && !(o.ruleSets.any (·.set = a))) ||
            (x.target = 7 && decide (o.places.length ≤ a))) (e.1 + 2)) ++
      r.templates.flatMap fun e => broken (!hasPart (fld (e.2.getD 1 0) 2 0)) (e.1 + 1)
  | _ => []

/-! ## Check 11: resources -/

/-- The first places at which running sums pass a limit. -/
def overLimit (limit : Nat) : Nat → List (Nat × Nat) → List Nat
  | _, [] => []
  | acc, x :: r => if limit < acc + x.2 then [x.1] else overLimit limit (acc + x.2) r

/-- A partition's slots against every set of clusters: the slots of partitions that may use only clusters of
a set fit that set's cores. -/
def slotsFit (cap : Nat → Nat) (ps : List PartitionRec) : Bool :=
  (List.range 16).all fun t =>
    let need := (ps.filter fun p => (List.range 4).all fun c =>
      !p.clusters.getLsbD c || t.testBit c).map (·.slots)
    let have_ := ((List.range 4).filter t.testBit).map cap
    decide (need.foldl (· + ·) 0 ≤ have_.foldl (· + ·) 0)

/-- Usable banks of the Plate slices that an Outline powers (R250, R437). -/
def State.plateBanks (s : State) (o : Outline) : Nat :=
  (s.plt.zipIdx.map fun x =>
    if o.domain (8 + x.2) then 160 - (x.1.retired.length - 8) else 0).foldl (· + ·) 0

/-- What the records take from Plate, in units of 4 KiB, in image order (R198, R231, R255, R342). -/
def plateNeeds (rs : List RawRec) : List (Nat × Nat) :=
  (recsOf rs tTierPool).map (fun r => (r.idx 1, 64 * fld (r.w 1) 9 0)) ++
  (recsOf rs tPlanLattice).map (fun r =>
    (r.idx 2, 2 * 64 * ((fld (r.w 2) 10 0 * fld (r.w 2) 21 11 * 16 + 262143) / 262144))) ++
  (recsOf rs tContextPool).zipIdx.flatMap fun x =>
    let r := x.1
    let before := (recsOf rs tContextPool).take x.2
    let first := fld (r.w 1) 14 0 != 0 && before.all fun q => fld (q.w 1) 14 0 = 0
    let sum := (before.map fun q => fld (q.w 3) 12 0).foldl (· + ·) 0
    let area (n : Nat) : Nat := (2 * n + 63) / 64 * 64
    [(r.idx 1, if first then 64 * 68 else 0), (r.idx 2, (r.w 2).toNat),
     (r.idx 3, area (sum + fld (r.w 3) 12 0) - area sum)]

/-- Logical Golent channels that are LOST. -/
def State.lostChannels (s : State) : Nat := (s.chn.golent.filter (·.state = .lost)).length

/-- COST of a channel per update (R359). -/
def ChanEntry.cost (c : ChanEntry) : Nat := if c.cascade then 5 * c.sections + 4 else 12

/-- The load of an engine that serves some channels: busy cycles per second (R359). -/
def engineLoad (cs : List ChanEntry) : Rat :=
  ((List.range 16).map fun g =>
    let mine := cs.filter (·.group = g)
    if mine.isEmpty then (0 : Rat)
    else (((40 + (mine.map ChanEntry.cost).foldl (· + ·) 0) * 160000000 : Nat) : Rat) /
      ((mine.headD {}).period : Rat)).foldl (· + ·) 0

/-- The assignment of channels to `n` engines, in ascending order, each to the engine with the lowest load, ties to the
lower number (R359). -/
def assignEngines (n : Nat) (cs : List ChanEntry) : List (List ChanEntry) :=
  (cs.mergeSort fun a b => decide (a.channel ≤ b.channel)).foldl (fun es c =>
    let best := (List.range n).foldl (fun b e =>
      if engineLoad (es.getD e []) < engineLoad (es.getD b []) then e else b) 0
    es.modify best (· ++ [c])) (List.replicate n [])

/-- An assignment puts some engine above its budget (R359). -/
def overBudgetEngines (n : Nat) (cs : List ChanEntry) : Bool :=
  (assignEngines n cs).any fun l => decide ((160000000 : Rat) < engineLoad l)

/-- The engines that a commit can assign: four, or as many as are not retired (R359, R372). -/
def State.liveEngines (s : State) : Nat := min 4 ((s.sty.engines.filter (·.state != .retired)).length)

/-- Words of check 11 that break: slots, floors, pools, contexts and streams against the units that are
not retired, and use of units that are not powered and clocked (R56, R82, R197, R231, R311, R340, R372, R412). With
fewer than four Stylus engines left, channels that they cannot carry are found at the first STYLUS_CHAN entry; no
Plate slice at all is found at DOMAIN_ON (log 26). -/
def resourceFaults (s : State) (o : Outline) (rs : List RawRec) : List Nat :=
  let parts := recsOf rs tPartition
  let streams := (recsOf rs tStream).flatMap fun r => r.entryList.map fun e => (e.1, parseStream r.scope e.2)
  let pools := recsOf rs tContextPool
  let rules := (recsOf rs tSafetyRule).flatMap RawRec.entryList
  let entries := (recsOf rs tRegistration).flatMap fun r => r.entryList.map fun e => (e.1, parseEntry e.2)
  let tiers := recsOf rs tTierPool
  (parts.zipIdx.flatMap fun x =>
    broken (!slotsFit (s.clusterCap o) ((parts.take (x.2 + 1)).map parsePartition)) (x.1.idx 1)) ++
  broken (decide (s.plateBanks o < 32)) (((recsOf rs tPower).headD {}).idx 1) ++
  overLimit (64 * (s.plateBanks o - 32)) 0 (plateNeeds rs) ++
  overLimit ((4194304 - 2112) / 64 * (64 - s.lostChannels)) 0
    (tiers.map fun r => (r.idx 2, 256 * fld (r.w 2) 14 0)) ++
  overLimit (if s.chn.t4Available && o.domain 7 then 16 * boardUnits / 256 else 0) 0
    (tiers.map fun r => (r.idx 3, fld (r.w 3) 16 0)) ++
  ((recsOf rs tObjectPlace).flatMap fun r => r.entryList.flatMap fun e =>
    broken (fld (e.2.getD 1 0) 2 0 = 4 && !(s.chn.t4Available && o.domain 7)) (e.1 + 1)) ++
  (streams.zipIdx.flatMap fun x =>
    let before := (streams.take x.2).map (·.2)
    let y := x.1.2
    broken ((before.any fun z => z.id = y.id || (!z.egress && !z.ethernet && !y.egress && !y.ethernet &&
        z.port = y.port && z.vc = y.vc)) ||
      (if y.onPort then !(o.domain 4 && o.portOn y.port)
       else !(o.domain 5 && o.unitRun.getLsbD (3 + y.port)))) x.1.1) ++
  ((recsOf rs tNetPort).flatMap fun r => r.entryList.flatMap fun e =>
    broken (bit (e.2.headD 0) 2 && !o.domain 4) e.1) ++
  ((recsOf rs tStylusChan).flatMap fun r => r.entryList.flatMap fun e => broken (!o.domain 3) e.1) ++
  broken (decide (s.liveEngines < 4) && (decide (s.liveEngines = 0) || overBudgetEngines s.liveEngines o.channels) &&
      !o.channels.isEmpty)
    ((((recsOf rs tStylusChan).headD {}).entryList.headD (0, [])).1) ++
  ((recsOf rs tPlanLattice).flatMap fun r =>
    broken (!o.unitOn 6 || s.xh.retired) r.at_ ++
    broken ((s.newest? r.scope (r.w 4)).any fun t => decide (524288 < fld (Memory.readWord t.data 16) 19 0))
      (r.idx 4)) ++
  ((recsOf rs tFusion).flatMap fun r => broken (!o.unitOn 5 || s.trc.retired) r.at_) ++
  (rules.drop 1024).map (·.1) ++ ((rules.filter fun e => fld (e.2.headD 0) 7 0 = 4).drop 4).map (·.1) ++
  (entries.flatMap fun e =>
    let t := e.2.target
    broken (e.2.valid && (((t = 1 || t = 2) && !(o.partitions.any fun p => p.part = e.2.part &&
        (List.range 4).any fun c => p.clusters.getLsbD c && !(s.rotationSet o c).isEmpty)) || (t = 4 && !o.domain 3) || (t = 6 && !(o.domain 4 && o.portOn e.2.unit)) ||
      (t = 9 && (if e.2.action = 0 then !o.unitOn e.2.unit
        else (s.rotationSet o e.2.unit).isEmpty)))) (e.1 + 1)) ++
  ((recsOf rs tSelftest).flatMap fun r => r.entryList.flatMap fun e =>
    broken (!o.unitOn (fld (e.2.headD 0) 7 0)) e.1) ++
  overLimit 16384 0 (pools.map fun r => (r.idx 1, fld (r.w 1) 14 0)) ++
  overLimit 4096 0 (pools.map fun r => (r.idx 3, fld (r.w 3) 12 0))

/-! ## Stylus assignment (R359) -/

/-- The cycles from a STYLUS firing of a group to its engine-done edge: the longest of the engines that
serve it (R369), of the `n` of the assignment. -/
def Outline.doneTicks (o : Outline) (n g : Nat) : Nat :=
  ((assignEngines n o.channels).map fun cs =>
    let mine := cs.filter (·.group = g)
    if mine.isEmpty then 0 else 40 + (mine.map ChanEntry.cost).foldl (· + ·) 0).foldl max 0

/-! ## Check 12: the schedule -/

/-- All firing offsets of an entry in one hyperperiod (R55). -/
def RegEntry.offsets (h : Nat) (e : RegEntry) : List Nat :=
  if e.valid then (List.range (e.perH h)).map fun n => e.offset + n * e.repeatTicks else []

/-- Entries that fire exactly `period` apart over the hyperperiod (R358). -/
def spaced (h period : Nat) (es : List RegEntry) : Bool :=
  let all := es.flatMap (RegEntry.offsets h)
  decide (0 < period) && all.length * period = h && all.all fun t => all.contains ((t + period) % h)

/-- The rule sets that gate a group. -/
def Outline.gating (o : Outline) (g : Nat) : List RuleSetRec :=
  o.ruleSets.filter fun r => r.rules.any fun w => bit w.e0 (16 + g)

/-- The channels that a rule covers; 0 for other rules (R413). -/
def RuleWords.channels (w : RuleWords) : Nat :=
  let t := fld w.e0 7 0
  if t = 1 ∨ t = 2 ∨ t = 3 then fld w.e1 14 8 + 1 - fld w.e1 6 0 else 0

/-- The bound on the evaluation of a rule set, in CTRL cycles (R418). -/
def RuleSetRec.bound (r : RuleSetRec) : Nat :=
  128 + 16 * r.rules.length + 2 * (r.rules.map RuleWords.channels).foldl (· + ·) 0

/-- Words of check 12 that break (R53, R57, R60, R82, R300, R358, R359, R383, R418, R424). -/
def scheduleFaults (engines : Nat) (o : Outline) (rs : List RawRec) : List Nat :=
  let reg := (recsOf rs tRegistration).headD {}
  let entries := reg.entryList.map fun e => (e.1, parseEntry e.2)
  let valid := entries.filter (·.2.valid)
  let chans := (recsOf rs tStylusChan).flatMap fun r => r.entryList.map fun e => (e.1, parseChan r.scope e.2)
  let sup (p : Nat) : Bool := o.partitions.any fun q => q.part = p && q.supervised
  let firings (t a : Nat) : List RegEntry :=
    (valid.filter fun e => e.2.target = t && e.2.arg = wd a).map (·.2)
  broken (decide (o.h < 16) || decide (160000000 < o.h) || 160000000 % o.h != 0) (reg.idx 1) ++
  (valid.zipIdx.flatMap fun x =>
    broken ((x.1.2.offsets o.h).any fun t =>
      decide (4 < ((valid.take (x.2 + 1)).filter fun y => y.2.firesAt o.h t).length)) x.1.1) ++
  (valid.flatMap fun e => broken (e.2.target != 6 && e.2.target != 9 && sup e.2.part && e.2.late != 2) e.1) ++
  (valid.flatMap fun e => broken (e.2.target = 6 && e.2.repeatTicks != 0 &&
    (o.gates.any fun g => g.port = e.2.unit && e.2.repeatTicks % g.cycle != 0)) (e.1 + 3)) ++
  ((recsOf rs tTsnGate).flatMap fun r =>
    let cycle := fld (r.w 2) 27 0
    let sum := (r.entryList.map fun e => fld (e.2.headD 0) 31 8).foldl (· + ·) 0
    broken (cycle != sum || cycle = 0 || o.h % cycle != 0) (r.idx 2)) ++
  (chans.flatMap fun c => broken (c.2.period != o.groupPeriod c.2.group) (c.1 + 1)) ++
  ((List.range 16).flatMap fun g =>
    match chans.find? (·.2.group = g) with
    | none => []
    | some c =>
      let fs := firings 4 g
      let p := o.groupPeriod g
      broken (!spaced o.h p fs) (c.1 + 1) ++
      broken (sup c.2.part && (o.gating g).isEmpty) c.1 ++
      broken ((fs.flatMap (RegEntry.offsets o.h)).any fun k => (o.gating g).any fun r =>
        !(((firings 5 r.set).flatMap (RegEntry.offsets o.h)).any fun t =>
          let late := (t + o.h - k % o.h) % o.h
          decide (o.doneTicks engines g ≤ late) && decide (late + r.bound + 320 ≤ p))) c.1) ++
  (if overBudgetEngines engines o.channels then (chans.map (·.1)).take 1 else []) ++
  ((recsOf rs tRegulation).flatMap fun r =>
    overLimit 2048 0 ((r.entryList.filter fun e => decide (fld (e.2.headD 0) 7 0 < 0x10)).map fun e =>
      (e.1, fld (e.2.headD 0) 19 8))) ++
  ((List.range 6).flatMap fun m =>
    overLimit 1024 0 (((recsOf rs tRegulation).flatMap RawRec.entryList).filter (fun e =>
      fld (e.2.headD 0) 7 0 = 0x10 + m) |>.map fun e => (e.1, fld (e.2.headD 0) 19 8))) ++
  (let load := (o.ruleSets.map fun r =>
      ((firings 5 r.set).map fun e => e.perH o.h).foldl (· + ·) 0 * r.bound).foldl (· + ·) 0
   broken (decide (o.h < 2 * load)) (((recsOf rs tSafetyRule).headD {}).at_))

/-! ## Check 13: coverage (R20, R24, R426, R428, R429) -/

/-- The tick of the first safety launch of a table after tick `t` (R428). -/
def Outline.safetyAfter (o : Outline) (t : Nat) : Option Nat :=
  (o.table.filter fun e => e.valid && (e.target = 4 || e.target = 5 ||
    (e.target != 6 && e.target != 9 && o.partitions.any fun q => q.part = e.part && q.supervised))).foldl
    (fun acc e =>
      let n := e.nextFrom o.h (t + 1)
      match acc with
      | none => some n
      | some m => some (min m n)) none

/-- The slice firings of a unit that R428 lets start, in one hyperperiod. -/
def Outline.startable (o : Outline) (x : SelftestEntry) : List Nat :=
  ((o.table.filter fun e => e.target = 9 && e.action = 0 && e.unit = x.unit).flatMap
    (RegEntry.offsets o.h)).filter fun t =>
      (o.safetyAfter t).all fun n => decide (t + x.sliceTicks ≤ n)

/-- How many of a list of offsets, repeated every `h`, lie after `a` and up to `b`. -/
def periodicCount (h : Nat) (l : List Nat) (a b : Nat) : Nat :=
  (l.map fun o => ((b : Int) - o).fdiv h - ((a : Int) - o).fdiv h).foldl (· + ·) 0 |>.toNat

/-- Every 80 ms hold at least SLICES startable firings of the unit (R429). -/
def Outline.covered (o : Outline) (x : SelftestEntry) : Bool :=
  let l := o.startable x
  !l.isEmpty && l.all fun t => decide (x.slices ≤ periodicCount o.h l t (t + 12800000))

/-- Words of check 13 that break. An entry that a record lacks is found at the word of its ENTRIES (log 26). -/
def coverageFaults (s : State) (o : Outline) (rs : List RawRec) : List Nat :=
  let r := (recsOf rs tSelftest).headD {}
  broken ((List.range 8).any fun u => decide (1 ≤ u) && o.unitOn u && !(o.selftest.any (·.unit = u))) (r.idx 0) ++
  (r.entryList.flatMap fun e =>
    let w := e.2.headD 0
    broken (!o.covered { unit := fld w 7 0, sliceTicks := fld w 19 8, slices := fld w 31 20 }) e.1) ++
  broken ((List.range 4).any fun c => decide (2 ≤ (s.rotationSet o c).length) &&
    !spaced o.h 1600000 (o.table.filter fun e => e.target = 9 && e.action = 1 && e.unit = c))
    (((recsOf rs tRegistration).headD {}).idx 0)

/-! ## Check 14: the peak estimate (R5, R513) -/

/-- The peak estimate in microwatts (R513): the fixed lines of R5 are 3 + 3.5 + 4 + 9 + 1 W. -/
def Outline.peak (o : Outline) : Nat :=
  let clocked (c : Nat) : Nat := (((List.range 9).map (9 * c + ·)).filter o.coreOn).length
  let a := ((List.range 4).map fun c => clocked c - 1).foldl (· + ·) 0
  let count (n lo : Nat) : Nat := ((List.range n).filter fun k => o.domainOn.getLsbD (lo + k)).length
  1031250 * a + 1500000 * count 4 8 + (if o.domain 7 then 1500000 else 0) +
    900000 * (o.ports.filter (·.enable)).length +
    150000 * ((List.range 12).filter fun k => o.unitRun.getLsbD (3 + k)).length + 20500000

/-! ## The validator (R82) -/

/-- What validation answers: a code and the word of OTL_ERR_WORD, or the Outline with the network table
that it binds. -/
inductive Verification where
  | fail (code word : Nat)
  | pass (o : Outline) (net : Option NetTable)
deriving DecidableEq, Repr, Inhabited

/-- Checks 9 to 14 of R82 over the records of an image. -/
def State.checkRecords (s : State) (o : Outline) (boot : Bool) (rs : List RawRec) : Verification :=
  let net := s.netFor o.header.keyIndex
  match leastWord (rs.flatMap (RawRec.range rs o.h)) with
  | some i => .fail 0x0B i
  | none =>
    match leastWord (rs.flatMap (RawRec.references s o net boot)) with
    | some i => .fail 0x13 i
    | none =>
      match leastWord (resourceFaults s o rs) with
      | some i => .fail 0x0C i
      | none =>
        match leastWord (scheduleFaults s.liveEngines o rs) with
        | some i => .fail 0x0D i
        | none =>
          match leastWord (coverageFaults s o rs) with
          | some i => .fail 0x0E i
          | none =>
            if o.powerCap * 100000 < o.peak ∨ 70000000 < o.peak then
              .fail 0x0F (((recsOf rs tPower).headD {}).idx 2)
            else .pass o net

/-- The checks of R82 in order over an image of `n` staged words. For a boot Outline, step 6 asks only for
an EPOCH that is not 0 (R94). -/
def State.validate (s : State) (ws : List Word) (n : Nat) (boot : Bool) : Verification :=
  let w (k : Nat) : Word := ws.getD k 0
  let total := (w 2).toNat
  let sig := total - 25
  if w 0 ≠ 0x4E4C544F then .fail 0x01 0
  else if fld (w 1) 7 0 ≠ 0 ∨ fld (w 1) 15 8 ≠ 1 then .fail 0x02 1
  else if total < 42 ∨ n < total ∨ 1048576 < total then .fail 0x03 2
  else if (w 7).toNat ≠ sig then .fail 0x03 7
  else if !bit (w 4) 0 then .fail 0x04 4
  else if crcWords ((ws.take sig).drop 16) ≠ w 6 then .fail 0x05 6
  else
    match s.sigCheck (wordsBytes (ws.take sig)) ((ws.drop sig).take 25) with
    | .bad => .fail 0x06 sig
    | .revoked => .fail 0x07 sig
    | .good =>
      if w 3 = 0 ∨ (!boot ∧ (w 3).toNat ≤ s.otl.epoch.toNat) then .fail 0x08 3
      else if bit (w 5) 1 ∧ s.sec.lock ≠ .open_ then .fail 0x09 5
      else
        let walk := walkRecords (total + 1) ((ws.take sig).drop 16) 16 sig
        match leastWord (check8 ws walk) with
        | some i => .fail 0x0A i
        | none => s.checkRecords (parseOutline ws walk.1) boot walk.1

/-! ## Slots (R18, R88, R89) -/

/-- The cores that slots may use, in an order that the manual leaves to firmware (log 11): the rolling
spare of each cluster is left out. -/
def State.slotPool (s : State) (o : Outline) : List Nat :=
  let free := (List.range 4).flatMap fun c =>
    (s.rotationSet o c).filter fun p => (s.cluster c).spare.all fun sp => sp.val != p % 9
  orderBy (Config.slotOrder free.length) free

/-- Map the slots of partitions to cores: each slot takes the first core that leaves the rest a mapping
(log 11). -/
def mapSlots : List (PartitionRec × Nat) → List Nat → List (Nat × Nat × Nat)
  | [], _ => []
  | (p, k) :: rest, pool =>
    let fits (core : Nat) : Bool :=
      p.clusters.getLsbD (core / 9) &&
      let left := pool.erase core
      slotsFit (fun c => (left.filter fun q => q / 9 = c).length)
        (rest.map fun x => { x.1 with slots := 1 })
    match (pool.find? fits).or (pool.find? fun q => p.clusters.getLsbD (q / 9)) with
    | none => mapSlots rest pool
    | some core => (p.part, k, core) :: mapSlots rest (pool.erase core)

/-- One item for each slot of each partition. -/
def slotList (ps : List PartitionRec) : List (PartitionRec × Nat) :=
  ps.flatMap fun p => (List.range p.slots).map fun k => (p, k)

end Sys2Proof.Machine
end

