-- ==== Sys2Proof/Machine/Sequencer.lean ====
section
/-!
DEFINITION. The sequencer of a slot: issue and completion of descriptors, and the operations that it runs
itself: SIGNAL, WAITS, WAITT and CHECK (R119 to R121, R148, R159, R162, R165, R168 to R171, R419).
-/

namespace Sys2Proof.Machine

open Sys2Proof

/-! ## Engines (R120, R165) -/

inductive Engine where
  | arrays | drypoint | wash | margin | move | sequencer | planner | tracing
deriving DecidableEq, Repr, Inhabited

/-- The engine of a descriptor (R114, R165). -/
def Descriptor.engine (d : Descriptor) (dry : Bool) : Engine :=
  match d.op with
  | 0x01 => match d.route dry with
    | .arrays => .arrays
    | .drypoint => .drypoint
    | .swapped => .drypoint
    | .kZero => .wash
    | .empty => .wash
  | 0x02 => if d.flag 13 then .margin else if d.geo.depthwise || d.k = 0 then .wash else .arrays
  | 0x03 => if d.flag 13 then .margin else .wash
  | 0x04 => if d.flag 10 then .arrays else .wash
  | 0x06 => if d.sub = 0 then .drypoint else .arrays
  | 0x0A => .move
  | 0x0B => .sequencer
  | 0x0C => .sequencer
  | 0x0D => .sequencer
  | 0x0E => if d.sub = 1 then .wash else .sequencer
  | 0x0F => .planner
  | 0x10 => .tracing
  | _ => .wash

/-- SIGNAL, WAITS, WAITT and CHECK do not overlap their neighbours (R120, R168). -/
def Descriptor.alone (d : Descriptor) : Bool := decide (0x0B ≤ d.op) && decide (d.op ≤ 0x0E)

/-- A slot does not issue past a descriptor that waits at a shared unit (R165). -/
def Engine.shared (e : Engine) : Bool := e = .margin || e = .planner || e = .tracing

/-- The vectors that an epilogue program reads (R167). -/
def epilogueReads (m : Memory) : List Word :=
  (List.range (min 4 (fld (Memory.readWord m 0) 2 0))).map fun k => Memory.readWord m (8 + 16 * k)

/-- Descriptor n + 1 may issue beside descriptor n (R120). -/
def State.beside (s : State) (j : Job) (slot : Nat) (d : Descriptor) (i : InFlight) : Bool :=
  let reads := d.reads ++ (if d.epilogue = 0 then [] else epilogueReads (j.bytes slot d.epilogue))
  let e := d.engine j.chain.drypoint
  let f := i.desc.engine j.chain.drypoint
  let c := s.core (j.coreOf slot)
  !d.flag 14 && !d.alone && !i.desc.alone && !f.shared &&
    !(reads.any fun o => o != 0 && i.desc.writes.contains o) &&
    (e != f || (e = .arrays && i.stage != .issued && decide (i.work.tiles.length ≤ i.work.tile) && decide (c.enterEdge ≤ s.edge)))

/-- A descriptor may issue now: at most 8 are prefetched, and R120 holds against each that is not
complete. -/
def State.mayIssue (s : State) (j : Job) (slot : Nat) (x : SlotState) (d : Descriptor) : Bool :=
  decide (x.inFlight.length < 8) && x.inFlight.all (s.beside j slot d) &&
    !(s.tir.waits.any fun w => w.job = j.id && w.slot = slot && w.obj = 0)

/-! ## What an issue checks (R148, R149, R159, R162, R192, R356, R432) -/

/-- The partition's RIGHTS bit and the unit that a descriptor needs (R77, R164, R165, R192). -/
def State.rightsFault (s : State) (j : Job) (d : Descriptor) : Option Failure :=
  let o := s.otl.running
  let rights := ((s.partRec j.part).map (·.rights)).getD 0
  let need (n : Nat) (unit : Bool) : Option Failure :=
    if !rights.getLsbD n then some (stNoRights, 0) else if !unit then some (stNoResources, 0) else none
  match d.engine j.chain.drypoint with
  | .margin => need 0 (!s.jobs.marginRetired && o.domain 22 && o.unitRun.getLsbD 0)
  | .planner => need 1 (!s.xh.retired && !s.xh.leaving && o.domain 21 && o.unitRun.getLsbD 2)
  | .tracing => need 2 (!s.trc.retired && !s.trc.leaving && o.domain 20 && o.unitRun.getLsbD 1)
  | _ => none

/-- The failure of a descriptor at its issue, in this order: its words, its rights, its handles. -/
def State.issueFault (s : State) (j : Job) (d : Descriptor) : Option Failure :=
  match d.fault j.chain.drypoint j.chain.width j.chain.plateLocal with
  | some w => some (stBadDescriptor, wd w)
  | none =>
    match s.rightsFault j d with
    | some f => some f
    | none => if j.namesInvalid d then some (stBadHandle, 0) else j.touchFault d.touches

/-- Units by which the OPEN outputs grow with the writes of a descriptor (R253, R269). -/
def Job.growth (j : Job) (ts : List Touch) : Nat :=
  total (j.outs.map fun o =>
    if o.fixedLen.isSome then 0
    else
      let hi := (ts.filter fun t => t.write && t.obj = o.obj).foldl (fun m t => max m (t.off + t.len)) 0
      bankUnits (max hi o.extent) - bankUnits o.extent)

/-- What a descriptor touches: PLANQ and FUSE write as much as the planner's and the track table's records
say (R331, R345). -/
def State.touchesOf (s : State) (d : Descriptor) : List Touch :=
  let plan := ((s.otl.running.lattice).map (·.maxPlan)).getD 0
  let w (n : Nat) : List Touch := [{ obj := d.cObj, off := d.cOff, len := n, write := true }]
  d.touches ++ (if d.op = 0x0F then w (64 + 8 * plan)
    else if d.op = 0x10 ∧ d.cObj ≠ 0 then w (64 + 48 * (s.trc.shadow.getD s.trc.table).tracks.length) else [])

/-- The layer-order chain (R264): a job's first read of an object of ORDER o promotes the partition's object of
ORDER o + 1 while the partition prefetches. -/
def State.layerChain (j : Job) (d : Descriptor) (s : State) : State :=
  if (s.otl.running.tierPools.find? (·.part = j.part)).any (·.onDemand) then s
  else
    d.reads.foldl (fun s id =>
      match (j.bound.find? (·.obj = id)).bind fun b => s.version? b.part b.obj b.ver with
      | none => s
      | some o =>
        if o.order = 0 ∨ (s.job? j.id).any (·.chained.contains id) then s
        else
          let s1 := s.updJob j.id fun x => { x with chained := x.chained ++ [id] }
          match s1.tir.objs.find? fun x => x.part = j.part && x.newest && x.order = o.order + 1 with
          | none => s1
          | some n =>
            ((s1.takeRef 2 n.part n.obj n.ver).updTir fun t => { t with
              tierRefs := t.tierRefs ++ [{ part := n.part, obj := n.obj, ver := n.ver }] }).promoteT2
              n.part n.obj n.ver) s

/-- The extents of bound versions that a descriptor reads (R259); of an object that its words give no range of, all. -/
def State.usesOf (s : State) (j : Job) (d : Descriptor) : List ExtentUse :=
  let ts := (s.touchesOf d).filter fun t => !t.write && t.len != 0
  let whole := (d.reads.filter fun id => !(ts.any (·.obj = id))).map fun id => ({ obj := id, len := j.readEnd id } : Touch)
  (ts ++ whole).filterMap fun t =>
    (j.bound.find? fun b => b.obj = t.obj && !isAlias b.obj).map fun b =>
      { part := b.part, obj := b.obj, ver := b.ver, first := t.off / 262144, last := (t.off + t.len - 1) / 262144 }

/-- A descriptor issues: the slot moves on, and a Margin descriptor joins that engine's queue. -/
def State.issue (j : Job) (slot : Nat) (x : SlotState) (d : Descriptor) (s : State) : State :=
  let margin := d.engine j.chain.drypoint = .margin
  let s1 := s.updSlot j.id slot fun y => { y with
    next := x.next + 1
    inFlight := y.inFlight ++ [{ index := x.next, desc := d, issueEdge := s.edge, uses := s.usesOf j d,
                                 stage := if margin then .waiting else .issued }] }
  let s2 := if margin then s1.updJobs fun q => { q with marginQueue := q.marginQueue ++ [(j.id, slot)] } else s1
  s2.layerChain j d

/-- DESCRIPTOR_ISSUE (R120, R148, R159): the next descriptor of a slot issues, waits, or ends the job. -/
def execDescriptorIssue (job : Word) (slot : Fin 32) (s : State) : Host.Outcome State Fault Refusal :=
  .next (match s.job? job with
    | none => s
    | some j =>
      let x := j.slots.getD slot {}
      match (j.chain.slots.getD slot [])[x.next]? with
      | none => s
      | some d =>
        if j.state ≠ .running ∨ j.slots.length ≤ slot ∨ !s.mayIssue j slot x d then s
        else
          match s.issueFault j d with
          | some f => s.failDesc j f
          | none =>
            let r := s.takeContexts j slot d
            if !r.1 then r.2
            else
              let need := j.growth (s.touchesOf d)
              let q := r.2.roomT2 j.part need
              if need = 0 ∨ q.1 then q.2.issue j slot x d
              else q.2.waitT2 { job := job, slot := slot, part := j.part, units := need })

/-! ## Completion (R120, R153, R171) -/

/-- A slot chain is complete: every descriptor has its record, and every CHECK its verdict (R150, R419). -/
def Job.slotDone (j : Job) (k : Nat) : Bool :=
  let x := j.slots.getD k {}
  decide ((j.chain.slots.getD k []).length ≤ x.next) && x.inFlight.isEmpty && x.verdicts = 0

/-- When every slot chain has completed, the job is SEALING (R150). -/
def State.maybeSeal (id : Word) (s : State) : State :=
  match s.job? id with
  | none => s
  | some j =>
    if j.state = .running ∧ (List.range j.slots.length).all j.slotDone then
      s.updJob id fun x => { x with state := .sealing }
    else s

/-- The completion record of a descriptor (R171): ELAPSED counts ARITH cycles, two to a CTRL period. -/
def State.descRecord (s : State) (j : Job) (slot : Nat) (i : InFlight) : CompRecord where
  status := i.status
  opcode := BitVec.ofNat 8 i.desc.op
  flags := i.flags
  job := j.id
  index := BitVec.ofNat 16 i.index
  slot := slot
  part := j.part
  attempt := j.attempt
  result := i.result
  endTime := compactOf s.now
  elapsed := wd (min 0xFFFFFFFF (2 * (s.edge - i.issueEdge)))
  detail := i.detail

/-- A descriptor reads or writes the T1 scratch of its core. -/
def Descriptor.inT1 (d : Descriptor) : Bool := (d.reads ++ d.writes).contains 0xFFFFFFFE

/-- The bank conflicts of a descriptor's T1 accesses are counted (R109). Which bank and which cycle an access takes is
not stated: their number is free (log 31). -/
def State.t1Conflicts (core : Nat) (d : Descriptor) (s : State) : State :=
  if h : core < 36 then
    if d.inT1 then s.draw.2.bumpBy (.coreT1Conflict ⟨core, h⟩) s.draw.1.toNat else s
  else s

/-- The reads of a descriptor are complete: LAST_USE of what it read (R256). -/
def State.readsDone (i : InFlight) (s : State) : State :=
  s.updObj (fun o => i.uses.any fun u => isVer u.part u.obj u.ver o) fun o => { o with lastUse := s.now }

/-- DESCRIPTOR_COMPLETE (R120, R171): records are written in chain order. -/
def execDescriptorComplete (job : Word) (slot : Fin 32) (s : State) : Host.Outcome State Fault Refusal :=
  .next (match s.job? job with
    | none => s
    | some j =>
      let x := j.slots.getD slot {}
      match x.inFlight with
      | [] => s
      | i :: rest =>
        if j.state = .running ∧ i.stage = .acted then
          let s1 := s.updSlot job slot fun y => { y with
            inFlight := rest, records := y.records ++ [s.descRecord j slot i] }
          let s2 := if h : x.core < 36 then s1.bump (.coreDescCount ⟨x.core, h⟩) else s1
          ((s2.t1Conflicts x.core i.desc).readsDone i).maybeSeal job
        else s)

/-! ## SIGNAL, WAITS and WAITT (R168, R169) -/

/-- SIGNAL (R168): the counter rises by W11 and saturates. -/
def execSignal (job : Word) (slot : Fin 32) (s : State) : Host.Outcome State Fault Refusal :=
  .next (s.act job slot 0x0C (fun _ => true) (fun j i s =>
    let add (c : Word) : Word := wd (min 0xFFFFFFFF (c.toNat + fld (i.desc.word 11) 15 0))
    (s.updJob job fun x => { x with counters := x.counters.modify (i.desc.param0 % 16) add }).acted j slot i
      stOk {} 0 0 2))

/-- The counter of a WAITS is at least its target, compared unsigned. -/
def Job.satisfied (j : Job) (d : Descriptor) : Bool :=
  decide ((d.word 11).toNat ≤ (j.counters.getD (d.param0 % 16) 0).toNat)

/-- A descriptor waits. -/
def State.holdDesc (j : Job) (slot : Nat) (i : InFlight) (s : State) : State :=
  s.updFlight j.id slot i.index fun x => { x with stage := .waiting }

/-- WAITS (R168). -/
def execWaits (job : Word) (slot : Fin 32) (s : State) : Host.Outcome State Fault Refusal :=
  .next (s.act job slot 0x0D (fun _ => true) (fun j i s =>
    if j.satisfied i.desc then s.acted j slot i stOk {} 0 0 0 else s.holdDesc j slot i))

/-- The descriptor of an opcode that waits in a slot. -/
def Job.waiting (j : Job) (slot op : Nat) : Option InFlight :=
  if j.state = .running then
    (j.slots.getD slot {}).inFlight.find? fun i => i.stage = .waiting && i.desc.op = op
  else none

/-- A waiting descriptor of an opcode goes on. -/
def State.resume (id : Word) (slot op : Nat) (f : Job → InFlight → State → State) (s : State) : State :=
  match s.job? id with
  | none => s
  | some j =>
    match j.waiting slot op with
    | none => s
    | some i => f j i s

/-- WAITS_SATISFIED (R168): the counter reaches the target. -/
def execWaitsSatisfied (job : Word) (slot : Fin 32) (s : State) : Host.Outcome State Fault Refusal :=
  .next (s.resume job slot 0x0D (fun j i s =>
    if j.satisfied i.desc then s.acted j slot i stOk {} 0 0 0 else s))

/-- The instant of a WAITT: its compact stamp, or ticks after the launch instant (R165, R169). -/
def State.waitInstant (s : State) (j : Job) (d : Descriptor) : Int :=
  if d.sub = 0 then compactNear { w0 := d.word 11, w1 := d.word 12 } s.now
  else j.launch + (fld (d.word 11) 27 0 : Int) * unitsEdge

/-- A WAITT completes at once with LATE_WAIT when its instant has passed, and otherwise waits (R169). -/
def State.waitT (j : Job) (slot : Nat) (i : InFlight) (s : State) : State :=
  if s.waitInstant j i.desc ≤ s.now then s.acted j slot i stOk { lateWait := true } 0 0 0
  else s.holdDesc j slot i

/-- WAITT_ABSOLUTE (R169). -/
def execWaittAbsolute (job : Word) (slot : Fin 32) (s : State) : Host.Outcome State Fault Refusal :=
  .next (s.act job slot 0x0B (fun d => d.sub = 0) (fun j i s => s.waitT j slot i))
/-- WAITT_RELATIVE (R169). -/
def execWaittRelative (job : Word) (slot : Fin 32) (s : State) : Host.Outcome State Fault Refusal :=
  .next (s.act job slot 0x0B (fun d => d.sub = 1) (fun j i s => s.waitT j slot i))

/-- WAITT_COMPLETE (R121, R169): the slot resumes on the edge of its instant. -/
def execWaittComplete (job : Word) (slot : Fin 32) (s : State) : Host.Outcome State Fault Refusal :=
  .next (s.resume job slot 0x0B (fun j i s =>
    if s.waitInstant j i.desc ≤ s.now then s.acted j slot i stOk {} 0 0 0 else s))

/-! ## CHECK (R170, R419) -/

/-- A message joins Proof's mailbox. -/
def State.tellProof (m : ProofMsg) (s : State) : State := s.updPrf fun p => { p with mailbox := p.mailbox ++ [m] }

/-- A CHECK has sent its message: its slot waits for the verdict. -/
def State.checkSent (j : Job) (slot : Nat) (i : InFlight) (m : ProofMsg) (flags : NumFlags) (cycles : Nat) (s : State) :
    State :=
  ((s.tellProof m).updSlot j.id slot fun x => { x with verdicts := x.verdicts + 1 }).acted j slot i stOk flags 0 0
    cycles

/-- CHECK_RESIDUE (R170): the message carries the slot's residue digest. -/
def execCheckResidue (job : Word) (slot : Fin 32) (s : State) : Host.Outcome State Fault Refusal :=
  .next (s.act job slot 0x0E (fun d => d.sub = 0) (fun j i s =>
    s.checkSent j slot i (.residue job slot i.index (i.desc.param0 % 16) i.desc.param1
      (j.slots.getD slot {}).digest) {} 8))

/-- The sum of the elements that are not NaN, with its flags: each lane in element order, then the tree (R119, R170). -/
def statsSum (xs : List Word) : Word × NumFlags :=
  let groups := chunksOf 64 ((xs.length + 63) / 64) xs
  let lanes := (List.range 64).map fun i =>
    ((groups.filterMap fun g => g[i]?).filter fun x => !f32IsNan x).foldl (fun acc x => match acc with
      | none => some (x, ({} : NumFlags))
      | some a => some (addF a (x, {}))) none
  if xs.all f32IsNan then (0, {})
  else (Nat.repeat (treeLevel addF) 6 (laneOrder (lanes.map fun l => l.getD (0, {})))).headD (0, {})

/-- CHECK_STATS (R170): minimum, maximum, sum and the number of NaN elements. -/
def execCheckStats (job : Word) (slot : Fin 32) (s : State) : Host.Outcome State Fault Refusal :=
  .next (s.act job slot 0x0E (fun d => d.sub = 1) (fun j i s =>
    let d := i.desc
    let m := j.bytes slot d.aObj
    let read := (List.range d.m).flatMap fun r => readRowPairs m d.aOff d.fmtA d.m d.n r
    let xs := read.map (·.1)
    let sum := statsSum xs
    let nums := xs.filter fun x => !f32IsNan x
    s.checkSent j slot i (.stats job slot i.index (d.param0 % 16) d.param1
      (nums.foldl fMin (f32Inf false)) (nums.foldl fMax (f32Inf true)) sum.1 (xs.length - nums.length))
      ((allFlags read).or sum.2) ((d.m * d.n + 63) / 64)))

end Sys2Proof.Machine
end

