-- ==== Sys2Proof/Machine/Attention.lean ====
section
/-!
DEFINITION. Attention over KV pages (R199 to R221): appends with page opens, copies and evictions, and the
descriptors ATTN_DECODE and ATTN_PREFILL.
-/

namespace Sys2Proof.Machine

open Sys2Proof

/-! ## Page tables (R203, R204, R213) -/

/-- The entry slot of page n (R204, R213). -/
def Context.pteSlot (c : Context) (n : Nat) : Nat :=
  if c.window = 0 then n else if n < c.sink then c.window + 1 + n else n % (c.window + 1)

def LayerGroup.pte? (l : LayerGroup) (n : Nat) : Option Pte := l.ptes.find? fun e => e.index = n && e.valid
/-- LIVE: pages that the layer-group references. -/
def LayerGroup.live (l : LayerGroup) : Nat := (l.ptes.filter (·.valid)).length
/-- LENGTH: the smallest FILLED. -/
def Context.length (c : Context) : Nat :=
  match c.lgs with
  | [] => 0
  | l :: r => r.foldl (fun m x => min m x.filled) l.filled

def Context.updLg (c : Context) (lg : Nat) (f : LayerGroup → LayerGroup) : Context := { c with lgs := c.lgs.modify lg f }

/-- A page may be written in place: open, owned by one entry, and its position 15 not committed (R207 to
R209). -/
def PageRecord.writable (g : PageRecord) : Bool := g.open_ && g.refs = 1 && !g.sealed && !g.awaits

/-! ## The journal (R206) -/

def State.updJournal (id : Word) (f : Journal → Journal) (s : State) : State :=
  s.updJob id fun j => { j with journal := f j.journal }

/-- The attempt's copy of a context. -/
def State.journalCtx (s : State) (id : Word) (n : Nat) : Option Context :=
  (s.job? id).bind fun j => j.journal.ctxs.find? (·.id = n)

/-! ## Appends (R206 to R209, R213, R215) -/

/-- The frames of an entry's tables, taken where they do not exist yet (R203). -/
def State.tableFrames (id : Word) (c : Context) (lg n : Nat) (s : State) : Option Context × State :=
  let rf := lg / 32
  let b := c.pteSlot n / 512
  let needR := !c.recFrames.any (·.1 = rf)
  let needB := !(c.lgs.getD lg {}).blocks.any (·.1 = b)
  if s.freeFrames c.part < toBit needR + toBit needB then (none, s.noFrame)
  else
    let r := s.drawAddrs (if needR then [rf] else [])
    let q := r.2.drawAddrs (if needB then [b] else [])
    let c1 := { c with recFrames := c.recFrames ++ r.1 }
    let c2 := c1.updLg lg fun l => { l with blocks := l.blocks ++ q.1 }
    (some c2, q.2.updJournal id (Journal.put c2))

/-- The candidate that score eviction takes when page n opens: the lowest SCORE, then the lowest page
number (R215). The last RECENT pages are those before the page that opens. -/
def State.victim (s : State) (c : Context) (l : LayerGroup) (n : Nat) : Option Pte :=
  (l.ptes.filter fun e => e.valid && !e.evicted && decide (c.sink ≤ e.index) && decide (e.index + c.recent < n) &&
    (s.page? e.page).any (·.sealed)).foldl (fun acc e => match acc with
      | none => some e
      | some a =>
        let x := f32Key (e.score.setWidth 32 <<< 16)
        let y := f32Key (a.score.setWidth 32 <<< 16)
        if x < y ∨ (x = y ∧ e.index < a.index) then some e else some a) none

/-- A page opens at entry n of a layer-group: a frame and a record, the entry, score eviction and the
release of the window page whose slot it takes (R207, R213, R215). `old` is the page it copies (R209). -/
def State.openAt (id : Word) (c : Context) (lg n : Nat) (old : Option Pte) (s : State) : Option Context × State :=
  let t := s.tableFrames id c lg n
  match t.1 with
  | none => (none, t.2)
  | some c1 =>
    let l := c1.lgs.getD lg {}
    let kept := (l.filled - 16 * n) * 128
    let data : Memory := match old.bind fun e => t.2.page? e.page with
      | none => []
      | some g => Memory.writeBytes (Memory.ofBytes (Memory.readBytes g.data 0 kept)) 2048
          (Memory.readBytes g.data 2048 kept)
    let r := t.2.openPage c.part data
    match r.1 with
    | none => (none, r.2)
    | some i =>
      let evict := if c1.budget ≠ 0 ∧ old.isNone ∧ c1.budget < l.live + 1 then r.2.victim c1 l n else none
      let ring := if c1.window ≠ 0 ∧ old.isNone then
          l.ptes.filter fun e => e.valid && e.index != n && c1.pteSlot e.index = c1.pteSlot n
        else []
      let gone := old.toList ++ evict.toList ++ ring
      let masked := l.ptes.any fun e => e.index = n && e.evicted
      let ptes := (l.ptes.filter fun e => e.index != n && !ring.contains e).map fun e =>
        if some e = evict then { e with evicted := true, valid := false } else e
      let entry : Pte :=
        { page := i, index := n, evicted := masked, score := (old.map (·.score)).getD 0 }
      let c2 := c1.updLg lg fun x => { x with ptes := ptes ++ [entry] }
      let s1 := r.2.updJournal id fun x => Journal.put c2
        { x with opened := x.opened ++ [i], drops := x.drops ++ gone.map (·.page) }
      let s2 := if old.isSome then s1.bump .ctxCowCopies else s1
      (some c2, if evict.isSome then s2.bump .ctxEvicted else s2)

/-- One position is appended to a layer-group: key and value rows into its page (R201, R207, R209). -/
def State.appendRow (id : Word) (c : Context) (lg : Nat) (k v : List Byte) (s : State) : Option Context × State :=
  let l := c.lgs.getD lg {}
  let q := l.filled
  let n := q / 16
  let e := l.pte? n
  let inPlace := (e.bind fun e => s.page? e.page).any PageRecord.writable
  let r := if inPlace then (some c, s) else s.openAt id c lg n e
  match r.1 with
  | none => (none, r.2)
  | some c1 =>
    let c2 := c1.updLg lg fun x => { x with filled := q + 1 }
    let s1 := match (c1.lgs.getD lg {}).pte? n with
      | none => r.2
      | some e => r.2.updPage e.page fun g => { g with
          data := Memory.writeBytes (Memory.writeBytes g.data (q % 16 * 128) k) (2048 + q % 16 * 128) v }
    (some c2, s1.updJournal id (Journal.put c2))

/-! ## The attention of one query (R213, R214, R219) -/

/-- A position that a query at q attends, with its page (R213, R215, R219). -/
def Context.attended (c : Context) (l : LayerGroup) (q : Nat) : List (Nat × Pte) :=
  (List.range (q + 1)).filterMap fun p =>
    if c.window = 0 ∨ q < p + 16 * c.window ∨ p < 16 * c.sink then
      match l.pte? (p / 16) with
      | some e => if e.evicted then none else some (p, e)
      | none => none
    else none

/-- N elements of a page row: the keys, or the values at 2,048 (R201). -/
def pageRow (m : Memory) (base f n p : Nat) : List Num := readRow m (base + p % 16 * 128) f 1 n 0

/-- The exponential of a score below a maximum. -/
def expBelow (v m : Word) : Word × NumFlags :=
  let d := fSub v m
  let e := precise fnExp d.1
  (e.1, d.2.or e.2)

/-- The running maximum and sum of blocks of 64 scores (R219). -/
def runningSoftmax (blocks : List (List Word)) : Word × (Word × NumFlags) :=
  blocks.foldl (fun acc b =>
    let m := b.foldl fMax acc.1
    let back := fSub acc.1 m
    let corr := precise fnExp back.1
    let old := fMul acc.2.1 corr.1
    let e := mapF (fun v => expBelow v m) b
    let t := laneSum e.1
    let n := fAdd old.1 t.1
    let first := acc.1 = f32Inf true
    (m, n.1, [acc.2.2, if first then {} else (back.2.or corr.2).or old.2, e.2, t.2, n.2].foldl NumFlags.or {}))
    (f32Inf true, 0, {})

/-- The probabilities of one row of scores, each rounded once to BF16 (R219). -/
def attnProbs (scores : List Word) : List (Nat × Word) × NumFlags :=
  let r := runningSoftmax (chunksOf 64 ((scores.length + 63) / 64) scores)
  let inv := precise fnRecip r.2.1
  let ps := mapF (fun v =>
    let e := expBelow v r.1
    let p := fMul e.1 inv.1
    (p.1, e.2.or p.2)) scores
  let out := ps.1.map fun p => (convertElem 10 false p, p)
  (out.map fun x => (x.1.1, x.2), ((r.2.2.or inv.2).or ps.2).or (allFlags (out.map (·.1))))

/-- What one query row gives: its output, the mass that it puts on each page, its probabilities by position, and what the
residue lane of the Drypoint path finds in its two products (R112). -/
structure AttnRow where
  out : List (Word × NumFlags) := []
  mass : List (Nat × Word) := []
  query : List Num := []
  probs : List (Nat × Num) := []
  lane : Bool × Bool := (false, false)

/-- The bytes of the page of an entry. -/
def State.pageData (s : State) (e : Pte) : Memory := ((s.page? e.page).map (·.data)).getD []

/-- One query row (R219). -/
def State.attnRow (s : State) (f n : Nat) (scale : Word) (keys : List (Nat × Pte)) (query : List Num) : AttnRow :=
  let ks := keys.map fun x => pageRow (s.pageData x.2) 0 f n x.1
  let scores := ks.map fun k =>
    let d := dotFloat query k
    let r := fMul scale d.1
    (r.1, d.2.or r.2)
  let p := attnProbs (scores.map (·.1))
  let probs := p.1.map fun x => elemValue 10 x.1
  let vals := keys.map fun x => pageRow (s.pageData x.2) 2048 f n x.1
  let cols := (List.range n).map fun k => vals.map fun v => v.getD k .nan
  let flags := (allFlags scores).or p.2
  let a := residueLane false [query] ks
  let b := residueLane false [probs] cols
  { out := cols.map fun c =>
      let o := dotFloat probs c
      (o.1, o.2.or flags)
    mass := List.zipWith (fun x y => (x.2.index, y.2)) keys p.1
    query := query
    probs := List.zipWith (fun x y => (x.1, y)) keys probs
    lane := (a.1 || b.1, a.2 || b.2) }

/-- The mass that query rows put on each page (R214). -/
def addMass (mass : List (Nat × Word)) (l : List (Nat × Word)) : List (Nat × Word) :=
  l.foldl (fun m x =>
    if m.any (·.1 = x.1) then m.map fun y => if y.1 = x.1 then (y.1, (fAdd y.2 x.2).1) else y
    else m ++ [x]) mass

/-- SCORE after an ATTN (R214). -/
def newScore (shift : Nat) (old : BitVec 16) (mass : Word) : BitVec 16 :=
  let o := old.setWidth 32 <<< 16
  let base := if shift = 0 then o
    else (fSub o (fMul o (wd ((127 - shift) * 2 ^ 23))).1).1
  BitVec.ofNat 16 (convertElem 10 false (fAdd base mass).1).1

/-! ## The descriptor (R216 to R220) -/

/-- One row written into a tensor of `rows` rows of `k` elements (R126, R135, R136). -/
def writeRowAt (m : Memory) (off f rows k i : Nat) (sat : Bool) (ws : List Word) : Memory × NumFlags :=
  if fmtMx f then
    let blocks := (chunksOf 32 (rowBlocks k) ws).map (mxBlock f)
    let m1 := Memory.writeBytes m (off + i * rowBlocks k * blockBytes f) (blocks.flatMap fun b =>
      packBits (fmtBits f) (b.2.1 ++ List.replicate (32 - b.2.1.length) 0))
    (Memory.writeBytes m1 (off + scalePlane f rows k + i * rowBlocks k) (blocks.map fun b => BitVec.ofNat 8 b.1),
     blocks.foldl (fun a b => a.or b.2.2) {})
  else
    let conv := ws.map (convertElem f sat)
    (Memory.writeBytes m (off + i * rowBytes f k) (packBits (fmtBits f) (conv.map (·.1))), allFlags conv)

/-- What an ATTN has done so far. -/
structure AttnRun where
  state : State
  /-- Rows of C that are written. -/
  out : Memory := []
  flags : NumFlags := {}
  appended : Nat := 0
  limit : Option Nat := none
  damaged : Option Nat := none
  cycles : Nat := 0
  /-- The rows of the context in hand, the tiles of the arrays, and the residue lane so far. -/
  rows : List AttnRow := []
  tiles : List ArrayTile := []
  lane : Bool × Bool := (false, false)
  failed : Bool := false

/-- The first breach of R217, in the order of the context list. -/
def State.attnFault (s : State) (j : Job) (d : Descriptor) (ns : List Nat) : Option Failure :=
  if !ns.Nodup then some (stBadDescriptor, 6)
  else ns.findSome? fun n =>
    if !s.inRange j.part n then some (stNoRights, 0)
    else match s.seenBy j n with
      | none => some (stNoObject, wd n)
      | some c =>
        if !c.kv ∨ c.fmt ≠ d.fmtB then some (stBadDescriptor, 1)
        else if c.layers ≤ d.param0 % 256 ∨ c.groups ≤ d.param0 / 256 then some (stBadDescriptor, 10)
        else if d.sub = 0 ∧ 16 < d.m * c.heads then some (stBadDescriptor, 1)
        else none

/-- One new position of a context: it is appended, and its HEADS queries attend (R207, R219). -/
def State.attnPosition (id : Word) (d : Descriptor) (lg n row rows : Nat) (ma mkv : Memory) (kvOff : Nat)
    (acc : AttnRun × List (Nat × Word)) : AttnRun × List (Nat × Word) :=
  let r := acc.1
  match if r.failed then none else r.state.journalCtx id n with
  | none => acc
  | some c =>
    let a := r.state.appendRow id c lg (Memory.readBytes mkv kvOff 128) (Memory.readBytes mkv (kvOff + 128) 128)
    match a.1 with
    | none => ({ r with state := a.2, failed := true }, acc.2)
    | some c1 =>
      let l := c1.lgs.getD lg {}
      let keys := c1.attended l (l.filled - 1)
      (List.range c1.heads).foldl (fun x h =>
        let o := a.2.attnRow d.fmtB d.n (d.word 13) keys (readRow ma d.aOff d.fmtA rows d.n (row + h))
        let w := writeRowAt x.1.out d.cOff d.fmtC rows d.n (row + h) d.satFinite (o.out.map (·.1))
        ({ x.1 with out := w.1, flags := (x.1.flags.or (allFlags o.out)).or w.2, rows := x.1.rows ++ [o]
                    lane := (x.1.lane.1 || o.lane.1, x.1.lane.2 || o.lane.2) }, addMass x.2 o.mass))
        ({ r with state := a.2, appended := r.appended + 1 }, acc.2)

/-- The time of one context on the Drypoint path, for `lk` attended keys (R220). -/
def attnCycles (d : Descriptor) (heads lk : Nat) : Nat :=
  let c := (d.n * lk * drySlots (d.m * heads) + 511) / 512
  c * rowTime d.fmtA d.fmtB + 2 * c

/-- The products of one context on the arrays (R220): for each tile of 256 query rows the blocks of 256 positions up to the
tile's last position, each with two K steps for the scores and four for the values. A position that holds no page
enters as zeros. -/
def State.attnTiles (s : State) (d : Descriptor) (c : Context) (l : LayerGroup) (filled : Nat) (rows : List AttnRow) :
    List ArrayTile :=
  let at_ (base p : Nat) : List Num := match l.pte? (p / 16) with
    | some e => if e.evicted then [] else pageRow (s.pageData e) base d.fmtB d.n p
    | none => []
  ((chunksOf 256 ((rows.length + 255) / 256) rows).zipIdx).flatMap fun g =>
    let last := filled + (256 * g.2 + g.1.length - 1) / max 1 c.heads
    (List.range (last / 256 + 1)).flatMap fun b =>
      let ps := (List.range (min 256 (filled + d.m - 256 * b))).map (256 * b + ·)
      [{ acts := g.1.map fun r => padTo 128 r.query
         cols := ps.map fun p => padTo 128 (at_ 0 p), rowTime := rowTime d.fmtA d.fmtB },
       { acts := g.1.map fun r => padTo 256 (ps.map fun p => (r.probs.lookup p).getD numZero)
         cols := (List.range d.n).map fun k => padTo 256 (ps.map fun p => (at_ 2048 p).getD k numZero), rowTime := 2 }]

/-- One context of the descriptor: limits, its positions, its scores (R214, R216). -/
def AttnRun.context (j : Job) (d : Descriptor) (ma mkv : Memory) (rows : Nat) (r : AttnRun) (x : Nat × Nat × Nat) :
    AttnRun :=
  let n := x.1
  match if r.failed then none else r.state.journalCtx j.id n with
  | none => r
  | some c =>
    let lg := d.param0 % 256 * c.groups + d.param0 / 256
    let filled := (c.lgs.getD lg {}).filled
    let most := min 131072 (((r.state.poolOf j.part).map (·.maxPositions)).getD 0)
    if c.state = .damaged then { r with damaged := some (min n (r.damaged.getD n)) }
    else if most < filled + d.m then
      { r with state := r.state.bump .ctxLimitHits, limit := some (min n (r.limit.getD n)) }
    else
      let a := (List.range d.m).foldl (fun acc p =>
        State.attnPosition j.id d lg n (x.2.2 + p * c.heads) rows ma mkv
          ((d.word 12).toNat + ((x.2.1 * d.m) + p) * 256) acc) ({ r with rows := [] }, [])
      let c' := (a.1.state.journalCtx j.id n).getD c
      let l := c'.lgs.getD lg {}
      let done := { a.1 with
        cycles := a.1.cycles + attnCycles d c.heads (c'.attended l (filled + d.m - 1)).length
        tiles := a.1.tiles ++ (if d.sub = 0 then [] else a.1.state.attnTiles d c' l filled a.1.rows) }
      let scored := if done.failed ∨ c.budget = 0 then none else done.state.journalCtx j.id n
      match scored with
      | none => done
      | some c1 =>
        let rescore (e : Pte) : Pte := match a.2.lookup e.index with
          | some m => if e.valid then { e with score := newScore c.shift e.score m } else e
          | none => e
        let c2 := c1.updLg lg fun l => { l with ptes := l.ptes.map rescore }
        { done with state := done.state.updJournal j.id (Journal.put c2) }

/-- The contexts of a list with their place and the first row of each in A and C. -/
def attnPlaces (m : Nat) : Nat → Nat → List (Nat × Nat) → List (Nat × Nat × Nat)
  | _, _, [] => []
  | k, row, x :: r => (x.1, k, row) :: attnPlaces m (k + 1) (row + m * x.2) r

/-- An ATTN descriptor (R207, R216 to R219); `laneFault` is a mismatch that the residue lane finds (R112). -/
def State.attnGo (j : Job) (slot : Nat) (i : InFlight) (laneFault : Bool) (s : State) : State :=
  let d := i.desc
  let ns := d.attnCtxs (j.bytes slot d.bObj)
  match s.attnFault j d ns with
  | some f => s.failDesc j f
  | none =>
    let heads := ns.map fun n => (n, ((s.seenBy j n).map (·.heads)).getD 0)
    let rows := d.m * total (heads.map (·.2))
    let ts : List Touch :=
      [{ obj := d.aObj, off := d.aOff, len := tensorBytes d.fmtA rows d.n },
       { obj := d.word 11, off := (d.word 12).toNat, len := ns.length * d.m * 256 },
       { obj := d.cObj, off := d.cOff, len := tensorBytes d.fmtC rows d.n, write := true }]
    match j.touchFault ts with
    | some f => s.failDesc j f
    | none =>
      let ma := j.bytes slot d.aObj
      let mkv := j.bytes slot (d.word 11)
      let run := (attnPlaces d.m 0 0 heads).foldl (AttnRun.context j d ma mkv rows)
        { state := s, out := j.bytes slot d.cObj }
      if run.failed then run.state.failDesc j (stNoResources, 0)
      else if d.sub = 0 ∧ (run.lane.2 ∨ (laneFault ∧ run.lane.1)) then s.laneFails j slot i
      else
        let status : Byte := if run.damaged.isSome then stContextDamaged
          else if run.limit.isSome then stContextLimit else stOk
        let detail := wd (run.damaged.getD (run.limit.getD 0))
        let s1 := (run.state.store j slot d.cObj (d.cOff + tensorBytes d.fmtC rows d.n) fun _ => run.out)
        let s2 := s1.addDigest j slot (decide (run.appended = 0))
        if d.sub = 0 ∨ run.tiles.isEmpty then
          s2.acted j slot i status (run.flags.or { drypoint := d.sub = 0 }) (wd run.appended) detail run.cycles
        else
          (s2.onArrays j slot i run.flags { tiles := run.tiles } (arrayCycles run.tiles 0)).updFlight j.id slot i.index
            fun x => { x with status := status, result := wd run.appended, detail := detail }

/-- ATTN_DECODE (R217, R220): SUB 0, on the Drypoint path. -/
def execAttnDecode (job : Word) (run : LaneSlot) (s : State) : Host.Outcome State Fault Refusal :=
  .next (s.act job run.slot 0x06 (fun d => d.sub = 0) (fun j i s => s.attnGo j run.slot i run.laneFault))

/-- ATTN_PREFILL (R217, R220): SUB 1, on the arrays. -/
def execAttnPrefill (job : Word) (slot : Fin 32) (s : State) : Host.Outcome State Fault Refusal :=
  .next (s.act job slot 0x06 (fun d => d.sub = 1) (fun j i s => s.attnGo j slot i false))

end Sys2Proof.Machine
end

