-- ==== Sys2Proof/Machine/Contexts.lean ====
section
/-!
DEFINITION. The context commands of Limian and the events of KV pages (R197 to R212, R221, R225 to R231,
R242 to R247).
-/

namespace Sys2Proof.Machine

open Sys2Proof

/-! ## Statuses (R212, R228) -/

def cxOk : Byte := 0x00
def cxBusy : Byte := 0x01
def cxNoContext : Byte := 0x02
def cxNotOwner : Byte := 0x03
def cxRange : Byte := 0x04
def cxNoFrames : Byte := 0x05
def cxInUse : Byte := 0x06
def cxDamaged : Byte := 0x07
def cxIncomplete : Byte := 0x08
def cxBadSnapshot : Byte := 0x09
def cxAuthFail : Byte := 0x0A
def cxModelMismatch : Byte := 0x0B
/-- A key slot that does not allow the use (R457). -/
def cxNoRights : Byte := 0x10

/-! ## The frame of a command (R211, R228) -/

/-- CTX of a body. -/
def bodyCtx (b : CtxBody) : Nat := fld b.w0 29 16

/-- A field that the command does not use is not 0; the masks are of words 1 to 5 (R211, R228). -/
def bodyUnused (b : CtxBody) (m1 m2 m3 m4 m5 : Nat) : Bool :=
  b.w0 &&& ~~~ (0x3FFF00FF#32) != 0 || b.w1 &&& ~~~ (wd m1) != 0 || b.w2 &&& ~~~ (wd m2) != 0 ||
    b.w3 &&& ~~~ (wd m3) != 0 || b.w4 &&& ~~~ (wd m4) != 0 || b.w5 &&& ~~~ (wd m5) != 0

/-- A context command of a partition session: a device session has no right, and a context outside the
partition's range is not the session's; an unknown CMD is out of range. `go` answers a status, or none where the reply follows later. -/
def State.ctxCommand (sess : Nat) (tag : Word) (b : CtxBody)
    (go : Nat → Nat → State → Option Byte × State) (s : State) : State :=
  s.request sess (fun x s =>
    let n := bodyCtx b
    match x.part with
    | none => s.sendTo sess (.ctxReply tag cxNoRights n)
    | some p =>
      if !s.inRange p n then s.sendTo sess (.ctxReply tag cxNotOwner n)
      else if fld b.w0 7 0 = 0 ∨ 10 < fld b.w0 7 0 then s.sendTo sess (.ctxReply tag cxRange n)
      else
        let r := go p n s
        match r.1 with
        | some st => r.2.sendTo sess (.ctxReply tag st n)
        | none => r.2)

/-- A command on an ACTIVE context, or with `damaged` also on a DAMAGED one; a held context is BUSY. -/
def State.onContext (n : Nat) (damaged held : Bool) (go : Context → Option Byte × State) (s : State) :
    Option Byte × State :=
  match s.context? n with
  | none => (some cxNoContext, s)
  | some c =>
    if c.state = .damaged ∧ !damaged then (some cxDamaged, s)
    else if c.holder ≠ 0 ∧ !held then (some cxBusy, s)
    else go c

/-- The partition's state budget takes `need` bytes more: the command goes on, waits for regions on their way out, or finds
no room and changes nothing (R242). -/
def State.withRoom (sess : Nat) (tag : Word) (b : CtxBody) (p need : Nat) (keep : List Nat)
    (go : State → Option Byte × State) (s : State) : Option Byte × State :=
  let q := s.stateRoom p need keep
  if q.1 then go q.2
  else if q.2.roomComes p need then
    (none, q.2.updCtx fun x => { x with waits := x.waits ++ [{ sess := sess, tag := tag, body := b }] })
  else (some cxNoFrames, s)

/-- A change of a context counts in GEN (R199). -/
def Context.change (c : Context) : Context := { c with gen := c.gen + 1 }

/-! ## OPEN (R199, R200, R211 to R213) -/

/-- The context that an OPEN asks for, or none where a field is out of range. -/
def openFields (b : CtxBody) (n part : Nat) : Option Context :=
  let layers := fld b.w3 7 0
  let groups := fld b.w3 15 8
  let fmt := fld b.w3 19 16
  let heads := fld b.w3 24 20
  let window := fld b.w4 9 0
  let sink := fld b.w4 23 16
  let recent := fld b.w4 31 24
  let budget := fld b.w5 13 0
  let shift := fld b.w5 19 16
  let base : Context := { id := n, part := part, state := .active, gen := 1, mirror := bit b.w3 25 }
  if bodyUnused b 0 0 0x03FFFFFF 0xFFFF03FF 0x000F3FFF then none
  else if layers = 0 then
    if groups = 0 ∧ fmt = 0 ∧ heads = 0 ∧ b.w4 = 0 ∧ b.w5 = 0 then some base else none
  else if groups = 0 ∨ 4096 < layers * groups ∨ !(fmt = 2 || fmt = 3 || fmt = 10 || fmt = 11) ∨ heads = 0 ∨
      16 < heads ∨ 512 < window ∨ (window ≠ 0 ∧ (1024 < window + 1 + sink ∨ budget ≠ 0)) ∨
      (budget = 0 ∧ recent ≠ 0) ∨ (budget ≠ 0 ∧ (recent = 0 ∨ budget ≤ sink + recent)) then none
  else some { base with
    kv := true, layers := layers, groups := groups, fmt := fmt, heads := heads, window := window, sink := sink,
    recent := recent, budget := budget, shift := shift, lgs := List.replicate (layers * groups) {} }

/-- A context joins the table; the root frame lies where firmware places it (log 2). -/
def State.addContext (c : Context) (s : State) : State :=
  let r := s.draw
  r.2.updCtx fun x => { x with table := x.table ++ [{ c with root := r.1.setWidth 22 }] }

/-- CTX_OPEN (R212). -/
def execCtxOpen (sess : Fin 16) (tag : Word) (b : CtxBody) (s : State) : Host.Outcome State Fault Refusal :=
  .next (s.ctxCommand sess tag b (fun p n s =>
    if (s.context? n).isSome then (some cxInUse, s)
    else match openFields b n p with
      | none => (some cxRange, s)
      | some c =>
        if c.kv ∧ s.freeFrames p = 0 then (some cxNoFrames, s.noFrame) else (some cxOk, s.addContext c)))

/-! ## FORK (R210, R212, R229) -/

/-- A copied entry gains a reference, or names a copy where the count stands at 65,535 (R210); none where a
frame or record cannot be had. -/
def State.shareEntry (part : Nat) (e : Pte) (s : State) : Option Pte × State :=
  if !e.valid then (some e, s)
  else match s.page? e.page with
    | none => (some e, s)
    | some g =>
      if g.refs < 65535 then (some e, s.updPage e.page fun x => { x with refs := x.refs + 1 })
      else
        let r := s.openPage part g.data
        match r.1 with
        | none => (none, r.2)
        | some i =>
          (some { e with page := i },
            (r.2.updPage i fun x => { x with sealed := g.sealed, open_ := !g.sealed, awaits := g.awaits,
                                             crc := g.crc, sealEdge := s.edge }).bump .ctxSticky)

/-- Every entry of a list, in order. -/
def State.shareEntries (part : Nat) : List Pte → State → Option (List Pte) × State
  | [], s => (some [], s)
  | e :: r, s =>
    let a := s.shareEntry part e
    match a.1 with
    | none => (none, a.2)
    | some x =>
      let q := State.shareEntries part r a.2
      (q.1.map (x :: ·), q.2)

/-- The layer-groups of a fork of a given length. -/
def State.forkGroups (part length : Nat) (c : Context) : List LayerGroup → State → Option (List LayerGroup) × State
  | [], s => (some [], s)
  | l :: r, s =>
    let a := s.shareEntries part (l.ptes.filter fun e => decide (16 * e.index < length))
    match a.1 with
    | none => (none, a.2)
    | some ptes =>
      let b := a.2.drawAddrs (ptes.map fun e => c.pteSlot e.index / 512).dedup
      let q := State.forkGroups part length c r b.2
      (q.1.map ({ filled := length, ptes := ptes, blocks := b.1 } :: ·), q.2)

/-- The fork of a context with its KV pages; its frames are counted before it joins (R203, R210), and room for its region
is made before (R242). -/
def State.forkContext (p n length : Nat) (c : Context) (s : State) : Option Byte × State :=
  let g := s.forkGroups p length c c.lgs
  match g.1 with
  | none => (some cxNoFrames, { s with ctx := { s.ctx with noFrames := g.2.ctx.noFrames, noRecords := g.2.ctx.noRecords } })
  | some lgs =>
    let f := g.2.drawAddrs (if length = 0 then [] else c.recFrames.map (·.1))
    let a := f.2.drawAddr
    let region := c.rec_.map fun r =>
      { r with addr := a.1, resident := true, swapBusy := false, clean := false, snapshot := none, snapMirror := none,
               lastSeal := s.edge }
    let fork : Context :=
      { c with id := n, lgs := lgs, recFrames := f.1, holder := 0, gen := 1,
               lastCommit := {}, rec_ := region, damagePending := false }
    if g.2.freeFrames p < fork.frames then (some cxNoFrames, s.noFrame)
    else (some cxOk, (if c.rec_.isSome then a.2 else f.2).addContext fork)

/-- What a CTX_FORK does in its partition. -/
def State.forkCmd (sess : Nat) (tag : Word) (b : CtxBody) (p n : Nat) (s : State) : Option Byte × State :=
  let src := fld b.w2 13 0
  let length := fld b.w1 17 0
  if (s.context? n).isSome then (some cxInUse, s)
  else if !s.inRange p src then (some cxNotOwner, s)
  else s.onContext src false false (fun c =>
    if bodyUnused b 0x3FFFF 0x3FFF 0 0 0 ∨ c.length < length then (some cxRange, s)
    else match c.rec_ with
      | none => s.forkContext p n length c
      | some r => s.withRoom sess tag b p (64 * r.units) [c.id] (State.forkContext p n length c))

/-- CTX_FORK (R210, R212). -/
def execCtxFork (sess : Fin 16) (tag : Word) (b : CtxBody) (s : State) : Host.Outcome State Fault Refusal :=
  .next (s.ctxCommand sess tag b (State.forkCmd sess tag b))

/-! ## TRUNCATE, RESET and CLOSE (R212, R229) -/

/-- CTX_TRUNCATE (R212, R229). -/
def execCtxTruncate (sess : Fin 16) (tag : Word) (b : CtxBody) (s : State) : Host.Outcome State Fault Refusal :=
  .next (s.ctxCommand sess tag b (fun _ n s =>
    s.onContext n false false (fun c =>
      let length := fld b.w1 17 0
      if bodyUnused b 0x3FFFF 0 0 0 0 ∨ c.length < length ∨ c.rec_.isSome then (some cxRange, s)
      else
        let gone := c.lgs.flatMap fun l => (l.ptes.filter fun e => e.valid && decide (length ≤ 16 * e.index)).map (·.page)
        let s1 := gone.foldl (fun s i => s.dropPage i) s
        (some cxOk, s1.updContext n fun x => { x.change with
          lgs := x.lgs.map fun l => { l with
            filled := min l.filled length, ptes := l.ptes.filter fun e => decide (16 * e.index < length) } }))))

/-- A region of zeros: RESET, ATTACH (R226, R229). -/
def StateRegion.zero (r : StateRegion) : StateRegion :=
  { r with steps := 0, data := [], slices := [], unlisted := 0, resident := true, swapBusy := false, clean := false, snapshot := none,
           snapMirror := none, snapGone := [] }

/-- The snapshot of a region is given up. -/
def State.dropSnapshot (r : StateRegion) (s : State) : State :=
  (r.snapshot.toList ++ r.snapMirror.toList).foldl (fun s u => s.giveUp 3 u r.snapUnits) s

/-- A context is reset; `fresh` says that its region takes a new place in Plate. -/
def State.resetContext (n : Nat) (c : Context) (fresh : Bool) (s : State) : State :=
  let gone := c.lgs.flatMap fun l => (l.ptes.filter (·.valid)).map (·.page)
  let s1 := gone.foldl (fun s i => s.dropPage i) s
  let s2 := match c.rec_ with
    | some r => s1.dropSnapshot r
    | none => s1
  let a := s2.drawAddr
  let s3 := if fresh then a.2 else s2
  (s3.updContext n fun x => { x.change with
    state := .active, lgs := x.lgs.map fun l => { l with filled := 0, ptes := [] }
    rec_ := x.rec_.map fun r => { r.zero with addr := if fresh then a.1 else r.addr } }).dropSwaps n

/-- What a CTX_RESET does in its partition. -/
def State.resetCmd (sess : Nat) (tag : Word) (b : CtxBody) (p n : Nat) (s : State) : Option Byte × State :=
  s.onContext n true false (fun c =>
    if bodyUnused b 0 0 0 0 0 then (some cxRange, s)
    else match c.rec_ with
      | some r =>
        if r.resident then (some cxOk, s.resetContext n c false)
        else s.withRoom sess tag b p (64 * r.units) [n] (fun s => (some cxOk, s.resetContext n c true))
      | none => (some cxOk, s.resetContext n c false))

/-- CTX_RESET (R212, R229). -/
def execCtxReset (sess : Fin 16) (tag : Word) (b : CtxBody) (s : State) : Host.Outcome State Fault Refusal :=
  .next (s.ctxCommand sess tag b (State.resetCmd sess tag b))

/-- CTX_CLOSE (R212, R229). -/
def execCtxClose (sess : Fin 16) (tag : Word) (b : CtxBody) (s : State) : Host.Outcome State Fault Refusal :=
  .next (s.ctxCommand sess tag b (fun _ n s =>
    s.onContext n true false (fun c =>
      if bodyUnused b 0 0 0 0 0 then (some cxRange, s) else (some cxOk, s.releaseContext false c))))

/-! ## ATTACH (R225, R226, R229) -/

/-- What a CTX_ATTACH does in its partition; the check of a VERIFYING model object comes first (R257). -/
def State.attachCmd (sess : Nat) (tag : Word) (b : CtxBody) (p n : Nat) (s : State) : Option Byte × State :=
  match s.context? n with
  | none => (some cxInUse, s)
  | some c =>
    let units := fld b.w1 17 0
    let look := fld b.w3 23 16
    if c.state ≠ .active ∨ c.rec_.isSome then (some cxInUse, s)
    else if c.holder ≠ 0 then (some cxBusy, s)
    else if bodyUnused b 0x3FFFF 0xFFFFFFFF 0x00FFFFFF 0 0 ∨ units < 2 ∨ 131072 < units ∨ 128 < look ∨
        s.budgetBytes p < 128 * units then (some cxRange, s)
    else match s.newestOf p b.w2 with
      | none => (some cxRange, s)
      | some o =>
        if o.part ≠ p ∨ isDevice o.obj then (some cxRange, s)
        else if o.state = .verifying then
          (none, s.awaitCheck o { sess := sess, tag := tag, attach := some b })
        else if o.state ≠ .sealed ∧ o.state ≠ .rebuilding then (some cxRange, s)
        else
          s.withRoom sess tag b p (64 * units) [] (fun s =>
            let a := s.drawAddr
            let r : StateRegion :=
              { addr := a.1, units := units, lookahead := look, model := b.w2, warm := BitVec.ofNat 16 (fld b.w3 15 0)
                hash := sha384 (Memory.readBytes o.data 0 o.len), lastSeal := s.edge }
            (some cxOk, a.2.updContext n fun x => { x.change with rec_ := some r }))

/-- CTX_ATTACH (R229). -/
def execCtxAttach (sess : Fin 16) (tag : Word) (b : CtxBody) (s : State) : Host.Outcome State Fault Refusal :=
  .next (s.ctxCommand sess tag b (State.attachCmd sess tag b))

/-! ## Snapshots (R226, R244 to R246, R457, R461) -/

/-- The bytes of a state region: the 64 B header, then the slices (R225, R226). -/
def StateRegion.bytes (r : StateRegion) : List Byte :=
  wordsBytes [r.steps.setWidth 32, (r.steps >>> 32).setWidth 32, r.model, r.warm.setWidth 32] ++
    (r.hash ++ List.replicate (48 - r.hash.length) 0).take 48 ++ Memory.readBytes r.data 64 (64 * r.units - 64)

/-- The key of a slot for a use, if the slot allows it (R457). -/
def State.slotKey (s : State) (k : Nat) (use_ : KeySlot → Bool) : Option (BitVec 256) :=
  let x := s.sec.slots.getD k {}
  if x.valid && use_ x then some (if k = 0 then Config.deviceKey else x.key) else none

/-- The header of a snapshot (R244). -/
def snapshotHeader (r : StateRegion) (iv : BitVec 96) (slot : Nat) (time : Compact) : List Byte :=
  wordsBytes [0x53544E53, 1, wd (144 + 64 * r.units), wd (r.units + 2 ^ 18 * r.lookahead)] ++
    (r.hash ++ List.replicate (48 - r.hash.length) 0).take 48 ++
    wordsBytes ([iv.setWidth 32, (iv >>> 32).setWidth 32, (iv >>> 64).setWidth 32, wd slot, time.w0, time.w1] ++
      List.replicate 10 0)

/-- Bytes of a 128-bit tag, first byte first. -/
def tagBytes (t : BitVec 128) : List Byte := natBytesBE 16 t.toNat
def tagOf (bs : List Byte) : BitVec 128 := BitVec.ofNat 128 (beNat bs)

/-- Three free words: an IV of the DRBG (R461; log 2). -/
def State.drawIv (s : State) : BitVec 96 × State :=
  let a := s.draw
  let b := a.2.draw
  let c := b.2.draw
  (BitVec.ofNat 96 (a.1.toNat + 2 ^ 32 * b.1.toNat + 2 ^ 64 * c.1.toNat), c.2)

/-- CTX_EXPORT (R245, R457, R461): the committed state is taken, and the snapshot is sealed when the export
completes. -/
def execCtxExport (sess : Fin 16) (tag : Word) (b : CtxBody) (s : State) : Host.Outcome State Fault Refusal :=
  .next (s.ctxCommand sess tag b (fun _ n s =>
    s.onContext n false true (fun c =>
      match c.rec_ with
      | none => (some cxRange, s)
      | some r =>
        let k := fld b.w3 3 0
        if bodyUnused b 0 0xFFFFFFFF 0xF 0 0 ∨ b.w2 = 0 ∨ 0xFB000000 ≤ b.w2.toNat then (some cxRange, s)
        else if (s.slotKey k (·.state)).isNone ∨ (s.sec.slots.getD k {}).exports_ = 0xFFFFFFFF then
          (some cxNoRights, s)
        else
          let s1 := s.updSec fun x => { x with slots := x.slots.modify k fun y => { y with exports_ := y.exports_ + 1 } }
          (none, s1.updCtx fun x => { x with
            exports_ := x.exports_ ++ [{ ctx := n, part := c.part, obj := b.w2, keySlot := k, key := (s.slotKey k (·.state)).getD 0, sess := sess, tag := tag, region := r }] }))))

/-- EXPORT_DONE (R244, R245): the snapshot is sealed as a new version of its object, and the reply leaves, also where
the context was closed meanwhile. While T2 or the directory has no room the export is not complete (R255, R269). -/
def execExportDone (ctx : BitVec 14) (s : State) : Host.Outcome State Fault Refusal :=
  .next (match s.ctx.exports_.find? (·.ctx = ctx.toNat) with
    | some e =>
      let q := s.roomT2 e.part (bankUnits (144 + 64 * e.region.units))
      let d := q.2.reserveEntries 1
      if !q.1 || !d.1 then d.2
      else
        let iv := d.2.drawIv
        let head := snapshotHeader e.region iv.1 e.keySlot (compactOf s.now)
        let g := gcmSeal e.key iv.1 head e.region.bytes
        let bytes := head ++ g.1 ++ tagBytes g.2
        ((iv.2.sealOutput e.part e.obj 0 (144 + 64 * e.region.units) (Memory.ofBytes bytes)).updCtx fun x =>
          { x with exports_ := x.exports_.erase e }).sendTo e.sess (.ctxReply e.tag cxOk e.ctx)
    | none => s)

/-- What an IMPORT reads from a snapshot: the region's STEPS and slices, or the status of the first check
that fails from step 2 on (R246). -/
def State.readSnapshot (s : State) (p : Nat) (obj : Word) (slot : Nat) (r : StateRegion) :
    Except Byte (BitVec 64 × Memory) :=
  match s.newestOf p obj with
  | none => .error cxIncomplete
  | some o =>
    let w (n : Nat) : Word := Memory.readWord o.data (4 * n)
    let head := Memory.readBytes o.data 0 128
    if (o.state ≠ .sealed ∧ o.state ≠ .rebuilding) ∨ o.len ≠ (w 2).toNat ∨ o.len < 144 then .error cxIncomplete
    else if w 0 ≠ 0x53544E53 ∨ w 1 ≠ 1 ∨ fld (w 3) 31 26 ≠ 0 ∨ fld (w 19) 31 4 ≠ 0 ∨
        (List.range 10).any (fun k => w (22 + k) != 0) then .error cxBadSnapshot
    else
      match s.slotKey slot (·.state) with
      | none => .error cxNoRights
      | some key =>
        let iv := BitVec.ofNat 96 ((w 16).toNat + 2 ^ 32 * (w 17).toNat + 2 ^ 64 * (w 18).toNat)
        match gcmOpen key iv head (Memory.readBytes o.data 128 (o.len - 144))
            (tagOf (Memory.readBytes o.data (o.len - 16) 16)) with
        | none => .error cxAuthFail
        | some plain =>
          let hash := (r.hash ++ List.replicate (48 - r.hash.length) 0).take 48
          let m := Memory.ofBytes plain
          if (head.drop 16).take 48 ≠ hash ∨ Memory.readBytes m 16 48 ≠ hash then .error cxModelMismatch
          else if fld (w 3) 17 0 ≠ r.units ∨ fld (w 3) 25 18 ≠ r.lookahead then .error cxRange
          else .ok (BitVec.ofNat 64 (leNat (Memory.readBytes m 0 8)), Memory.clear m 0 64)

/-- The import of a snapshot into a context (R246). -/
def State.importInto (n : Nat) (r : StateRegion) (x : BitVec 64 × Memory) (s : State) : State :=
  let s1 := s.dropSnapshot r
  let a := s1.drawAddr
  (if r.resident then s1 else a.2).updContext n fun y => { y.change with
    rec_ := some { r with addr := if r.resident then r.addr else a.1, steps := x.1, data := x.2, slices := [],
                          unlisted := x.1.toNat, resident := true, clean := false,
                          snapshot := none, snapMirror := none, snapGone := [] } }

/-- What a CTX_IMPORT does in its partition (R246): each rejection leaves the context unchanged and is counted. -/
def State.importCmd (sess : Nat) (tag : Word) (b : CtxBody) (p n : Nat) (s : State) : Option Byte × State :=
  let reject (st : Byte) : Option Byte × State := (some st, s.bump .ctxRecImportReject)
  match s.context? n with
  | none => reject cxNoContext
  | some c =>
    if c.state ≠ .active then reject cxNoContext
    else match c.rec_ with
      | none => reject cxRange
      | some r =>
        if c.holder ≠ 0 ∨ r.swapBusy then reject cxBusy
        else if bodyUnused b 0 0xFFFFFFFF 0xF 0 0 then reject cxRange
        else match s.readSnapshot p b.w2 (fld b.w3 3 0) r with
          | .error st => reject st
          | .ok x =>
            if r.resident then (some cxOk, s.importInto n r x)
            else
              let q := s.withRoom sess tag b p (64 * r.units) [n] (fun s => (some cxOk, s.importInto n r x))
              if q.1 = some cxNoFrames then reject cxNoFrames else q

/-- CTX_IMPORT (R246). -/
def execCtxImport (sess : Fin 16) (tag : Word) (b : CtxBody) (s : State) : Host.Outcome State Fault Refusal :=
  .next (s.ctxCommand sess tag b (State.importCmd sess tag b))

/-! ## Swaps (R242, R243) -/

/-- CTX_SWAP_OUT (R243): an unchanged region is dropped at once; any other is out at the fence of the Tier Writer. -/
def execCtxSwapOut (sess : Fin 16) (tag : Word) (b : CtxBody) (s : State) : Host.Outcome State Fault Refusal :=
  .next (s.ctxCommand sess tag b (fun _ n s =>
    s.onContext n false false (fun c =>
      match c.rec_ with
      | none => (some cxRange, s)
      | some r =>
        if bodyUnused b 0 0 0 0 0 then (some cxRange, s)
        else if r.swapBusy then (some cxBusy, s)
        else if !r.resident then (some cxOk, s)
        else
          let q := s.swapOutNow c r (some (sess.val, tag))
          if !q.1 then (some cxNoFrames, s)
          else if r.droppable then (some cxOk, q.2) else (none, q.2))))

/-- What a CTX_SWAP_IN does in its partition. -/
def State.swapInCmd (sess : Nat) (tag : Word) (b : CtxBody) (p n : Nat) (s : State) : Option Byte × State :=
  s.onContext n false true (fun c =>
    match c.rec_ with
    | none => (some cxRange, s)
    | some r =>
      if bodyUnused b 0 0 0 0 0 then (some cxRange, s)
      else if r.swapBusy then (some cxBusy, s)
      else if r.resident then (some cxOk, s)
      else s.withRoom sess tag b p (64 * r.units) [n] (fun s => (none, s.beginSwapIn n (some (sess, tag)))))

/-- CTX_SWAP_IN (R242, R243). -/
def execCtxSwapIn (sess : Fin 16) (tag : Word) (b : CtxBody) (s : State) : Host.Outcome State Fault Refusal :=
  .next (s.ctxCommand sess tag b (State.swapInCmd sess tag b))

/-- A context command that waited for room runs again (R242). -/
def State.retryCommand (w : CtxWait) (s : State) : State :=
  let n := bodyCtx w.body
  let p := ((s.otl.running.pools.map (·.part)).find? fun p => s.inRange p n).getD 0
  let s1 := s.updCtx fun x => { x with waits := x.waits.erase w }
  let r := match fld w.body.w0 7 0 with
    | 0x02 => s1.forkCmd w.sess w.tag w.body p n
    | 0x04 => s1.resetCmd w.sess w.tag w.body p n
    | 0x06 => s1.attachCmd w.sess w.tag w.body p n
    | 0x08 => s1.importCmd w.sess w.tag w.body p n
    | _ => s1.swapInCmd w.sess w.tag w.body p n
  match r.1 with
  | some st => r.2.sendTo w.sess (.ctxReply w.tag st n)
  | none => r.2

/-- SWAP_DONE (R243): a swap-in makes the region resident and unchanged; a swap-out is done once its snapshot is readable
(R252), and commands that waited for the room run again (R242). -/
def execSwapDone (ctx : BitVec 14) (s : State) : Host.Outcome State Fault Refusal :=
  .next (match s.ctx.swaps.find? (·.ctx = ctx.toNat), s.context? ctx.toNat with
    | some w, some c =>
      let s1 := s.updCtx fun x => { x with swaps := x.swaps.filter (· != w) }
      let answer (s : State) : State := match w.reply with
        | some r => s.sendTo r.1 (.ctxReply r.2 cxOk w.ctx)
        | none => s
      if w.swapIn then
        let a := s1.drawAddr
        answer ((a.2.updContext c.id fun x => { x with rec_ := x.rec_.map fun r =>
          { r with addr := a.1, resident := true, swapBusy := false, clean := true } }).bump .ctxRecSwapIn)
      else if c.rec_.any (·.resident) then s
      else
        let s2 := answer (s1.updContext c.id fun x => { x with rec_ := x.rec_.map fun r => { r with swapBusy := false } })
        s2.ctx.waits.foldl (fun s w => s.retryCommand w) s2
    | _, _ => s)

/-! ## Pages (R208) -/

/-- PAGE_SEAL (R202, R208): a page whose position 15 is committed is sealed, with its CRC. -/
def execPageSeal (index : BitVec 21) (s : State) : Host.Outcome State Fault Refusal :=
  .next (match s.page? index.toNat with
    | none => s
    | some g =>
      if g.awaits then
        s.updPage g.index fun x => { x with
          sealed := true, open_ := false, awaits := false, crc := crc32c (Memory.readBytes x.data 0 4096),
          sealEdge := s.edge }
      else s)

/-- A page of a partition whose contexts ask for mirrors. -/
def State.pageMirrored (s : State) (g : PageRecord) : Bool :=
  s.ctx.table.any fun c => c.mirror && c.lgs.any fun l => l.ptes.any fun e => e.valid && e.page = g.index

/-- KV_PAGE_DEMOTE (R208): while a partition's free frames lie below KV_PAGES / 16, its oldest sealed page in
Plate moves to T3 through the Tier Writer, mirrored with MIRROR. -/
def execKvPageDemote (part : Fin 8) (s : State) : Host.Outcome State Fault Refusal :=
  let pool := ((s.poolOf part).map (·.kvPages)).getD 0
  .next (if pool ≤ 16 * s.freeFrames part then s
    else
      let moving (g : PageRecord) : Bool := s.tir.writer.any fun w => w.kind = .kvPage && w.obj = wd (0xFD000000 + g.index)
      match sortOn (·.sealEdge) (s.ctx.pages.filter fun g => g.part = part.val && g.sealed && g.inPlate && !moving g) with
      | [] => s
      | g :: _ =>
        let both := s.mirrors (s.pageMirrored g)
        let r := (s.roomBelow 3 part 1 both).2
        let a := if both then r.allocPair else r.allocUnits 3 1
        match a.1 with
        | none => a.2.shortT3
        | some u =>
          a.2.queueWrite { kind := .kvPage, part := part, obj := wd (0xFD000000 + g.index), tier := 3, start := u,
                           mirrorStart := if both then some (u + 32) else none })

end Sys2Proof.Machine
end

