-- ==== Sys2Proof/Machine/Timebase.lean ====
section
/-!
DEFINITION. The Timebase, PPS and the GPIO captures: the commands of R35 to R50, R66 to R68, R487, R492
and R519 that are not gPTP messages.
-/

namespace Sys2Proof.Machine

open Sys2Proof

/-- The largest slew: 50 ppm of the addend, in units per edge (R45). -/
def slewMax : Int := 1342177

/-- A rate trim reaches the clamp of R38. -/
def atClamp (x : Int) : Bool := decide (5368709 ≤ x.natAbs)

/-- The new slew replaces any remainder: `o` units at a rate within the limit of R45. The rate trim includes the slew,
so TRIM_CLAMPED is set when the two together reach the clamp (R38). -/
def State.startSlew (o : Int) (rate : Nat) (s : State) : State :=
  let r : Int := min slewMax (max 1 (rate : Int))
  let slew : Int := if o = 0 then 0 else if 0 < o then min r o else max (-r) o
  s.updTb fun t => { t with
    slewLeft := o
    slewRate := if o = 0 then 0 else if 0 < o then r else -r
    trimClamped := t.trimClamped || (slew != 0 && atClamp (t.trim + slew)) }

/-- The rate trim is replaced, and TRIM_CLAMPED is set when it reaches the clamp (R38). -/
def State.setTrim (x : Int) (s : State) : State :=
  s.updTb fun t => { t with
    trim := trimClamp x
    trimClamped := t.trimClamped || atClamp x }

/-- The slew in force on one edge, in units: at most what is left, and at most what the clamp leaves
beside the trim (R38, R45). -/
def Tb.slewNow (t : Tb) : Int :=
  let want := if 0 ≤ t.slewLeft then min t.slewRate t.slewLeft else max t.slewRate t.slewLeft
  trimClamp (t.trim + want) - t.trim

/-- TB_RATE_TRIM (R491): the effective trim, slew included. -/
def Tb.effTrim (t : Tb) : Int := t.trim + t.slewNow

/-- The Timebase enters ACQUIRING: counts start again, and before the ring-synchronised point the next
Sync steps (R40, R44). -/
def State.enterAcquiring (s : State) : State :=
  s.updTb fun t => { t with
    state := .acquiring, stepped := t.everLocked, within := 0, beyond := 0, outliers := 0, rejoin := 0 }

/-- The ring-synchronised point (R40): EVER_LOCKED is set. -/
def State.ringSync (s : State) : State := s.updTb fun t => { t with everLocked := true }

/-- What a Sync's offset does before or in HOLDOVER's end, ACQUIRING and LOCKED when no step is due: the
rate, the slew and the counts of R40 and R519. -/
def State.followSync (o : Int) (trim : Int) (intervalEdges : Nat) (s : State) : State :=
  let inThresh := decide (o.natAbs ≤ s.regs.syncThresh.toNat * 4294967296)
  let s1 := (s.setTrim trim).startSlew o (o.natAbs / max 1 intervalEdges)
  let s2 := s1.updTb fun t => { t with
    outliers := 0
    within := if inThresh then t.within + 1 else 0
    beyond := if inThresh then 0 else t.beyond + 1 }
  if s.tb.state = .acquiring ∧ 8 ≤ s2.tb.within then
    (s2.updTb fun t => { t with state := .locked }).ringSync
  else if s.tb.state = .locked ∧ 4 ≤ s2.tb.beyond then s2.enterAcquiring
  else s2

/-- The 3 s of PPS_LOST count from the entry into a state in which DISCIPLINE is honoured (R67). -/
def State.watchPps (s : State) : State := s.updTb fun t => { t with ppsWatch := s.edge }

/-- An offset beyond TB_STEP_LIMIT after the ring-synchronised point: two outliers, then the refusal of
the step (R46). It breaks the runs of R40 and R47. While a refused step is pending, TB_STEP_OFFSET follows the latest
offset, and no further refusal counts (DEDUCED, log 5). -/
def State.refuseSync (o : Int) (s : State) : State :=
  let s1 := s.updTb fun t => { t with within := 0, beyond := 0, rejoin := 0, outliers := t.outliers + 1 }
  let latest : BitVec 64 := BitVec.ofInt 64 (o.tdiv unitsNs)
  if s.tb.stepPending then s1.updTb fun t => { t with outliers := 0, stepOffset := latest }
  else if s1.tb.outliers < 3 then s1.bump .tbOutlier
  else
    ((s1.bump .tbJumpRefused).updTb fun t => { t with
      outliers := 0, timeJumpRefused := true, stepPending := true
      stepOffset := latest, state := .holdover }).watchPps

/-- The law of R519 with the steps of R44 and R48 and the refusal of R46, for one Sync of the selected
master with offset `o` (master minus local). -/
def State.syncLaw (o : Int) (trim : Int) (intervalEdges : Nat) (s : State) : State :=
  let s0 := s.updTb fun t => { t with offset := nsClamped o }
  let beyondLimit := decide (s.regs.stepLimit.toNat * 4294967296 < o.natAbs)
  if s.tb.stepAccepted then
    ((s0.stepTime o).updTb fun t => { t with stepAccepted := false, stepPending := false }).enterAcquiring
  else
    match s.tb.state with
    | .acquiring =>
      if !s.tb.stepped then (s0.stepTime o).updTb fun t => { t with stepped := true }
      else if s.tb.everLocked && beyondLimit then s0.refuseSync o
      else s0.followSync o trim intervalEdges
    | .locked => if beyondLimit then s0.refuseSync o else s0.followSync o trim intervalEdges
    | .holdover =>
      if beyondLimit then s0.refuseSync o
      else
        let s1 := s0.updTb fun t => { t with rejoin := t.rejoin + 1, outliers := 0 }
        if 3 ≤ s1.tb.rejoin then (s1.updTb fun t => { t with stepPending := false }).enterAcquiring
        else s1
    | .freeRun => s0
    | .grandmaster => s0

/-! ## Commands -/

/-- PLL_LOSS_OF_LOCK (R35, R36): the root moves to the standby PLL, a CORRECTED event; with no standby
left, Proof's clock monitor finds the loss and Proof enters SAFE_STATE. -/
def execPllLossOfLock (s : State) : Host.Outcome State Fault Refusal :=
  .next (if s.glb.pllSpare then
      (s.updGlb fun g => { g with pllOnStandby := true, pllSpare := false }).bump .brnPllSwitch
    else s.proofSafe 2)

/-- TB_CAPTURE (R39, R492): a write with bit 0 set latches local time. -/
def execTbCapture (v : Word) (s : State) : Host.Outcome State Fault Refusal :=
  .next (if bit v 0 then s.updTb fun t => { t with cap := t.time } else s)

/-- TB_STEP_ACCEPT (R48): a refused step is accepted and waits for the next Sync. -/
def execTbStepAccept (v : Word) (s : State) : Host.Outcome State Fault Refusal :=
  .next (if bit v 0 && s.tb.stepPending then s.updTb fun t => { t with stepAccepted := true } else s)

/-- The time in TB_SET_SEC_HI, TB_SET_SEC_LO and TB_SET_NS (R491). -/
def HostRegs.setTime (r : HostRegs) : Int :=
  ((r.setSecHi.toNat * 2 ^ 32 + r.setSecLo.toNat : Nat) : Int) * unitsSec + r.setNs.toNat * unitsNs

/-- TB_SET_GO (R44): in FREE_RUN the time is set; in any other state the write is ignored. -/
def execTbSetGo (v : Word) (s : State) : Host.Outcome State Fault Refusal :=
  .next (if bit v 0 && s.tb.state = .freeRun then s.stepTime (s.regs.setTime - s.now) else s)

/-- TB_ADJ (R47, R492): a signed offset in ns is slewed in FREE_RUN, HOLDOVER and GRANDMASTER; the rate,
at most 50 ppm, is free (log 5). -/
def execTbAdj (v : Word) (s : State) : Host.Outcome State Fault Refusal :=
  .next (if s.tb.state = .freeRun ∨ s.tb.state = .holdover ∨ s.tb.state = .grandmaster then
      let r := s.draw
      r.2.startSlew (v.toInt * unitsNs) (1 + r.1.toNat % slewMax.toNat)
    else s)

/-- SLEW_COMPLETE (R45, R492): nothing is left to slew, and the slew part of the trim ends. -/
def execSlewComplete (s : State) : Host.Outcome State Fault Refusal :=
  .next (s.updTb fun t => { t with slewLeft := 0, slewRate := 0 })

/-- STEP_HOLD_END (R49): local time has passed the time before the backward step, launches resume, and
the length of the hold goes to Proof. -/
def execStepHoldEnd (s : State) : Host.Outcome State Fault Refusal :=
  .next (match s.tb.stepHold with
    | some h =>
      if h.1 < s.now then
        (s.updTb fun t => { t with stepHold := none }).reportHold (s.edge - h.2)
      else s
    | none => s)

/-- Which pins a TB_GPIO_OUT bit reaches: HOST outputs take their bits, other bits are ignored
(R491). -/
def driveHostPins (bits : BitVec 16) (pins : List GpioPin) : List GpioPin :=
  pins.zipIdx.map fun p => if p.1.dir = .host then { p.1 with level := bits.getLsbD p.2 } else p.1

/-- The bits of HOST output pins. -/
def hostMask (pins : List GpioPin) : BitVec 16 :=
  (List.range 16).foldl (fun m i => if (pins.getD i {}).dir = .host then m ||| (1#16 <<< i) else m) 0

/-- TB_GPIO_OUT (R69, R491): the bits of HOST output pins are written and drive the pads. -/
def execTbGpioOut (v : Word) (s : State) : Host.Outcome State Fault Refusal :=
  let m := hostMask s.tb.pins
  .next ((s.updRegs fun r =>
      { r with gpioOut := (r.gpioOut &&& ~~~m) ||| (v.setWidth 16 &&& m) }).updTb fun t =>
      { t with pins := driveHostPins (v.setWidth 16) t.pins })

/-- PPS_OUT_RISE (R66): at a whole second PPS_OUT rises, if enabled; while it is high, it stays so to its end. -/
def execPpsOutRise (s : State) : Host.Outcome State Fault Refusal := .next s.ppsRise

/-- PPS_OUT_FALL (R66): the high time, counted in nominal periods, is over. -/
def execPpsOutFall (s : State) : Host.Outcome State Fault Refusal :=
  .next (match s.tb.ppsHighUntil with
    | some e => if e ≤ s.edge then s.updTb fun t => { t with ppsHighUntil := none } else s
    | none => s)

/-- The signed distance of a time from the nearest whole second. -/
def secondPhase (u : Int) : Int :=
  let m := u.fmod unitsSec
  if m ≤ unitsSec / 2 then m else m - unitsSec

/-- DISCIPLINE is honoured in FREE_RUN, HOLDOVER and GRANDMASTER (R67). -/
def State.disciplines (s : State) : Bool :=
  s.regs.ppsInMode && (s.tb.state = .freeRun || s.tb.state = .holdover || s.tb.state = .grandmaster)

/-- DISCIPLINE is set or kept by a write: its 3 s count from the edge that sets it (R67). -/
def State.setInMode (on : Bool) (s : State) : State :=
  let s1 := s.updRegs fun r => { r with ppsInMode := on }
  if on && !s.regs.ppsInMode then s1.watchPps else s1

/-- 100 us in units of 2^-32 ns, how far a PPS edge may be from a second after the last (R67). -/
def ppsTolerance : Nat := 429496729600000

/-- PPS_IN_EDGE (R67): an edge 1 s +- 100 us of local time after the previous valid one is valid and stamped, and in
DISCIPLINE steers phase by a slew to the whole second and rate by a trim that the manual does not state
(log 5). Any other edge is counted. With no valid edge left to follow, because none was or the last lies more than
1 s + 100 us back, it is the one that the next is judged by (DESIGN CHOICE, log 6). -/
def execPpsInEdge (s : State) : Host.Outcome State Fault Refusal :=
  let now := s.now
  let gap := s.tb.ppsLast.map fun l => now - l.1
  let valid := gap.any fun g => decide ((g - unitsSec).natAbs ≤ ppsTolerance)
  let stale := gap.all fun g => decide (unitsSec + ppsTolerance < g)
  let s1 := if valid || stale then s.updTb fun t => { t with ppsLast := some (now, s.edge) } else s
  .next (if valid then
      let s2 := s1.updTb fun t => { t with ppsCap := compactOf now, ppsWatch := s.edge }
      if s.disciplines then
        let r := s2.draw
        let q := r.2.draw
        (q.2.setTrim (trimClamp r.1.toInt)).startSlew (-(secondPhase now)) (1 + q.1.toNat % slewMax.toNat)
      else s2
    else s1.bump .tbPpsBad)

/-- PPS_LOST (R67): 3 s without a valid edge in DISCIPLINE set PPS_LOST; the last rate is kept. -/
def execPpsLost (s : State) : Host.Outcome State Fault Refusal :=
  .next (if s.disciplines && decide (s.tb.ppsWatch + 3 * edgesSec ≤ s.edge) then
      s.updTb fun t => { t with ppsLost := true, ppsWatch := s.edge }
    else s)

/-- An edge passes the glitch filter: it changes the filtered level, which stays for TB_GPIO_FILTER CTRL periods at
least (R68). -/
def State.filtered (s : State) (p : GpioPin) (rising : Bool) : Bool :=
  p.level != rising && p.lastEdge.all fun e => decide (e + s.regs.gpioFilter.toNat ≤ s.edge)

/-- GPIO_EDGE_CAPTURE (R68): a filtered edge on an input pin is stamped into its FIFO, or discarded and
counted when 16 entries wait. An edge that the glitch filter holds back does nothing. -/
def execGpioEdgeCapture (pin : Fin 16) (rising : Bool) (s : State) : Host.Outcome State Fault Refusal :=
  let p := s.tb.pins.getD pin {}
  .next (if p.dir = .input ∧ s.filtered p rising then
      let s1 := s.updTb fun t => { t with pins := t.pins.modify pin fun q =>
        { q with level := rising, lastEdge := some s.edge } }
      if p.fifo.length < 16 then
        s1.updTb fun t => { t with
          pins := t.pins.modify pin fun q => { q with fifo := q.fifo ++ [(compactOf s.now, rising)] } }
      else s1.bump (.tbGcapOvf pin)
    else s)

/-- GCAP_POP (R68, R492): the read of TB_GCAP_HI_n removes the head entry; on an empty FIFO nothing. -/
def execGcapPop (pin : Fin 16) (s : State) : Host.Outcome State Fault Refusal :=
  .next (s.updTb fun t => { t with
    pins := t.pins.modify pin fun q => { q with fifo := q.fifo.drop 1 } })

/-- LATCHED_HI_READ (R487): a read of the LO word latches the HI word for the next read. -/
def execLatchedHiRead (q : HiLatch) (s : State) : Host.Outcome State Fault Refusal :=
  .next (match q with
    | .stepOffset => s.updTb fun t => { t with stepOffsetHi := some (t.stepOffset.extractLsb' 32 32) }
    | .ppsCap => s.updTb fun t => { t with ppsCapHi := some t.ppsCap.w1 })

end Sys2Proof.Machine
end

