-- ==== Sys2Proof/Machine/Gptp.lean ====
section
/-!
DEFINITION. The IEEE 802.1AS-2020 profile: the messages and intervals of R42 and R43, best master
selection, link delay, and how the messages reach the law of R519. The forms of the messages and the
vector compared are the standard's (PRESUMED, log 7).
-/

namespace Sys2Proof.Machine

open Sys2Proof

/-- The NET_PORT entry of a port (R77). In the recoveries UPLINK alone runs (R95, R454); a ring port stays in
operation while the by-pass is open (R393). -/
def State.netPort (s : State) (p : Port) : NetPortEntry :=
  let e := (s.otl.running.ports.find? (·.port = portNum p)).getD
    { port := portNum p, speedMax := 2
      enable := p = .uplink && (s.glb.stage = .outlineRecovery || s.glb.stage = .firmwareRecovery) }
  { e with enable := e.enable || (isRing p && s.eth.bypass = .open_) }

/-- The gPTP side of a port. -/
def State.gptpPort (s : State) (p : Port) : GptpPort := s.tb.ports.getD (portNum p) {}

def State.updGptp (p : Port) (f : GptpPort → GptpPort) (s : State) : State :=
  s.updTb fun t => { t with ports := t.ports.modify (portNum p) f }

/-- gPTP runs on a port that is enabled with its GPTP bit and has link (R42, TB_PORT). -/
def State.gptpOn (s : State) (p : Port) : Bool :=
  (s.netPort p).enable && (s.netPort p).gptp && (s.ethPort p).link

/-- A port is asCapable: gPTP runs on it, and its last Pdelay exchange found a link delay within neighborPropDelayThresh
(R42). Without it no Sync and no Announce is sent or used there (PRESUMED, log 7). -/
def State.gptpCapable (s : State) (p : Port) : Bool := s.gptpOn p && (s.gptpPort p).asCapable

/-- CTRL edges of an interval of 2^`log` seconds. -/
def intervalEdges (log : Int) : Nat := if log < 0 then edgesSec / 2 ^ log.natAbs else edgesSec * 2 ^ log.natAbs

/-- The clock identity: the EUI-64 formed from the UPLINK MAC address (R43). -/
def clockIdentity : BitVec 64 :=
  let m := macOf .uplink
  (m.extractLsb' 24 24 ++ 0xFFFE#16 ++ m.extractLsb' 0 24 : BitVec 64)

/-- The flags of a message: ptpTimescale in each, twoStepFlag in Sync and Pdelay_Resp (PRESUMED, log 7). -/
def gptpFlags (msgType : Nat) : Nat := if msgType = 0 ∨ msgType = 3 then 0x0208 else 0x0008

/-- A gPTP message on a port: Ethernet header, the standard's 34-byte header with its correctionField in 2^-16 ns, and a
body (PRESUMED, log 7). -/
def gptpFrame (p : Port) (msgType seq : Nat) (logInterval correction : Int) (body : List Byte) : List Byte :=
  natBytesBE 6 0x0180C200000E ++ natBytesBE 6 (macOf p).toNat ++ natBytesBE 2 0x88F7 ++
  natBytesBE 1 (16 + msgType) ++ natBytesBE 1 0x12 ++ natBytesBE 2 (34 + body.length) ++
  natBytesBE 2 0 ++ natBytesBE 2 (gptpFlags msgType) ++ natBytesBE 8 (BitVec.ofInt 64 correction).toNat ++
  natBytesBE 4 0 ++ natBytesBE 8 clockIdentity.toNat ++
  natBytesBE 2 (portNum p + 1) ++ natBytesBE 2 seq ++ natBytesBE 1 0 ++
  [BitVec.ofInt 8 logInterval] ++ body

/-- A message of a port, and what its send stamp is for. An untagged gPTP frame uses class 6 (R378). -/
def State.sendGptp (p : Port) (msgType seq : Nat) (logInterval correction : Int) (body : List Byte) (use_ : StampUse)
    (s : State) : State :=
  s.queueFrame p { tc := 6, bytes := gptpFrame p msgType seq logInterval correction body, stampUse := use_ }

/-- The part of a time below a nanosecond, in 2^-16 ns. -/
def subNs (u : Int) : Int := (u.fmod unitsNs).fdiv 65536

/-- A port sends a Pdelay_Req with the next number (R42). -/
def State.sendPdelayReq (p : Port) (s : State) : State :=
  let seq := (s.gptpPort p).pdelaySeq + 1
  (s.sendGptp p 2 seq.toNat 0 0 (natBytesBE 20 0) .pdelayReq).updGptp p fun g => { g with
    pdelaySeq := seq, pdelaySent := none, txPdelayEdge := s.edge }

/-- A port sends a two-step Sync; its Follow_Up goes out with the Sync's send stamp (R42, R50). -/
def State.sendSync (p : Port) (source : Option SyncSource) (s : State) : State :=
  let seq := (s.gptpPort p).syncSeq
  (s.sendGptp p 0 seq.toNat (s.netPort p).logSync 0 (natBytesBE 10 0) (.sync seq source)).updGptp p fun g => { g with
    syncSeq := g.syncSeq + 1, txSyncEdge := s.edge }

/-- The Follow_Up information TLV with a rate ratio less one in units of 2^-41 (PRESUMED, log 7). -/
def followUpTlv (rate : Int) : List Byte :=
  natBytesBE 2 3 ++ natBytesBE 2 28 ++ natBytesBE 3 0x0080C2 ++ natBytesBE 3 1 ++
  natBytesBE 4 (BitVec.ofInt 32 rate).toNat ++ natBytesBE 18 0

/-- The Follow_Up of a Sync that left with stamp `t`: the T7's own time as grandmaster; else the time that the master's
Sync carried, with the link delay and the residence time added to its correction, in the grandmaster's seconds
(R42; PRESUMED, log 7). -/
def State.sendFollowUp (p : Port) (seq : BitVec 16) (source : Option SyncSource) (t : Int) (s : State) : State :=
  let log := (s.netPort p).logSync
  match source with
  | none => s.sendGptp p 8 seq.toNat log (subNs t) (ptpBytes t ++ followUpTlv 0) .none_
  | some x =>
    let d := t - x.upstream
    let correction := x.correction + (d + (d * x.rate).fdiv (2 ^ 41)).fdiv 65536
    s.sendGptp p 8 seq.toNat log correction (natBytesBE 6 x.sec.toNat ++ natBytesBE 4 x.ns ++ followUpTlv x.rate) .none_

/-- A gPTP frame has left with its corrected stamp: what the stamp is for (R42, R50). -/
def State.stampSent (p : Port) (use_ : StampUse) (t : Int) (s : State) : State :=
  match use_ with
  | .none_ => s
  | .pdelayReq => s.updGptp p fun g => { g with pdelaySent := some t }
  | .pdelayResp seq requester =>
    s.sendGptp p 10 seq.toNat 0x7F (subNs t) (ptpBytes t ++ natBytesBE 10 requester.toNat) .none_
  | .sync seq source => s.sendFollowUp p seq source t

/-- The receive correction of R50 by the negotiated speed, in units; it is subtracted. -/
def rxCorrection (speed : Nat) : Int :=
  (if speed = 2 then 1184 else if speed = 1 then 2368 else 4736) * unitsNs / 10
/-- The transmit correction of R50; it is added. -/
def txCorrection (speed : Nat) : Int :=
  (if speed = 2 then 864 else if speed = 1 then 1728 else 3456) * unitsNs / 10

/-- The corrected receive stamp of a frame on a port (R50). -/
def State.rxStamp (s : State) (p : Port) (raw : Int) : Int := raw - rxCorrection (s.ethPort p).speed

/-! ## Best master selection (R42, R43) -/

/-- The vector of the best master clock algorithm, compared lexicographically: smaller is better. -/
def announceVector (a : AnnounceMsg) : List Nat :=
  [a.priority1.toNat, a.clockClass.toNat, a.clockAccuracy.toNat, a.variance.toNat,
   a.priority2.toNat, a.identity.toNat, a.stepsRemoved.toNat, a.sender.toNat, a.senderPort.toNat]

/-- Lexicographic order of vectors. -/
def vecLt : List Nat → List Nat → Bool
  | a :: r, b :: q => decide (a < b) || (a = b && vecLt r q)
  | _, _ => false

/-- The first gPTP port of NET_PORT: it gives the clock's own priorities (R43, log 7). -/
def State.ownPort (s : State) : NetPortEntry :=
  (s.otl.running.ports.find? fun e => e.enable && e.gptp).getD {}

/-- The T7's own vector; accuracy 0xFE and variance 0x436A are the standard's defaults (log 7). -/
def State.ownAnnounce (s : State) : AnnounceMsg where
  priority1 := s.ownPort.priority1
  clockClass := s.ownPort.clockClass
  clockAccuracy := 0xFE
  variance := 0x436A
  priority2 := s.ownPort.priority2
  identity := clockIdentity
  sender := clockIdentity

/-- The T7 may be grandmaster: priority1 is not 255 (R43). -/
def State.gmCapable (s : State) : Bool := s.ownPort.priority1 != 255

/-- The best Announce heard on a port that may be a slave: ROLE best master or SLAVE (R42); a port in
ROLE best master competes with the T7's own vector. -/
def State.bestMaster (s : State) : Option (Port × AnnounceMsg) :=
  let cand := allPorts.filterMap fun p =>
    let e := s.netPort p
    match (s.gptpPort p).foreign with
    | none => none
    | some a =>
      if s.gptpCapable p && e.role != 1 &&
        (e.role = 2 || !s.gmCapable || vecLt (announceVector a) (announceVector s.ownAnnounce))
      then some (p, a) else none
  cand.foldl (fun acc x => match acc with
    | none => some x
    | some y => if vecLt (announceVector x.2) (announceVector y.2) then some x else acc) none

/-- Every gPTP port is in ROLE MASTER: the T7 is grandmaster without selection (R478). -/
def State.allMaster (s : State) : Bool :=
  let on := allPorts.filter s.gptpOn
  !on.isEmpty && on.all fun p => (s.netPort p).role = 1

/-- The T7 becomes grandmaster: its Syncs are counted from here (R40). -/
def State.enterGrandmaster (s : State) : State :=
  (s.updTb fun t => { t with
    state := .grandmaster
    ports := t.ports.map fun p => { p with syncsSent := 0 } }).watchPps

/-- The selected master is lost: a syntonised clock enters HOLDOVER, another one FREE_RUN with trim zero
and no slew (R40). -/
def State.loseMaster (s : State) : State :=
  if s.tb.state = .freeRun ∨ s.tb.state = .holdover then s
  else if s.tb.everLocked then (s.updTb fun t => { t with state := .holdover, rejoin := 0 }).watchPps
  else (s.updTb fun t => { t with state := .freeRun, trim := 0, slewLeft := 0, slewRate := 0 }).watchPps

/-- Selection runs again (R40, R42 to R44). `timeout` says that an announce receipt timeout has passed,
after which a capable T7 without a better master becomes grandmaster (R478). -/
def State.reselect (timeout : Bool) (s : State) : State :=
  match s.bestMaster with
  | some (p, a) =>
    let same := s.tb.slave = some p && (s.tb.gm.map (·.identity)) = some a.identity
    let s1 := s.updTb fun t => { t with slave := some p, gm := some a }
    if same then s1
    else
    let s1 := (s1.updTb fun t => { t with relay := none }).updGptp p fun g => { g with rxSyncEdge := s.edge }
    if s.tb.state = .holdover then s1.updTb fun t => { t with rejoin := 0 }
    else s1.enterAcquiring
  | none =>
    let s1 := s.updTb fun t => { t with slave := none, gm := none, relay := none }
    if s.tb.state = .grandmaster then
      if s.allMaster || s.gmCapable then s1 else s1.loseMaster
    else if s.allMaster || (timeout && s.gmCapable) then s1.enterGrandmaster
    else if s.tb.slave.isSome then s1.loseMaster else s1

/-- TB_PORT_p.ROLE (R491): 0 DISABLED, 1 MASTER, 2 SLAVE, 3 PASSIVE; DISABLED also while the port is not asCapable
(PRESUMED, log 7). -/
def State.portRole (s : State) (p : Port) : Nat :=
  if !s.gptpCapable p then 0
  else if s.tb.slave = some p then 2
  else if (s.netPort p).role = 0 &&
    ((s.gptpPort p).foreign.any fun a => s.tb.gm.any fun g => a.identity = g.identity &&
      decide (a.stepsRemoved.toNat ≤ g.stepsRemoved.toNat)) then 3
  else 1

/-! ## Messages -/

/-- The offset, the trim and the interval that a completed Sync gives, and the law of R519. -/
def State.syncComplete (p : Port) (m : SyncMsg) (sec : BitVec 48) (ns : Nat) (correction rate : Int)
    (s : State) : State :=
  let g := s.gptpPort p
  let stamp := s.rxStamp p m.rawStamp
  let master := (sec.toNat : Int) * unitsSec + (ns : Int) * unitsNs + correction * 65536 + g.meanDelay
  let n := g.neighborRate.getD 0
  let r := (rate + n) * 2 ^ 41 + rate * n
  let trim := roundDiv (r * unitsEdge) (2 ^ 82)
  let source : SyncSource := { sec := sec, ns := ns, correction := correction, upstream := stamp - g.meanDelay,
                               rate := roundDiv r (2 ^ 41), logInterval := m.logInterval }
  let s1 := s.updGptp p fun g => { g with pendingSync := none, logInterval := m.logInterval, rxSyncEdge := s.edge }
  (s1.updTb fun t => { t with relay := some source }).syncLaw (master - stamp) trim (intervalEdges m.logInterval)

/-- A Sync is relayed at once to every other master port whose LOG_SYNC is the interval that the master states; a port
with another LOG_SYNC sends the master's time on at its own interval (R42; PRESUMED, log 7). -/
def State.relaySync (p : Port) (s : State) : State :=
  match s.tb.relay with
  | none => s
  | some x =>
    (allPorts.filter fun q => q != p && s.portRole q = 1 && (s.netPort q).logSync = x.logInterval).foldl
      (fun s q => s.sendSync q (some x)) s

/-- SYNC_RECEIVED (R42, R519): a one-step Sync of the selected master acts at once, a two-step Sync waits
for its Follow_Up; a frame of another domain is discarded and counted. -/
def execSyncReceived (p : Port) (m : SyncMsg) (s : State) : Host.Outcome State Fault Refusal :=
  .next (if !s.gptpOn p then s
    else if m.domain ≠ 0 then s.bump .tbForeignDomain
    else if !(s.gptpPort p).asCapable ∨ s.tb.slave ≠ some p then s
    else if m.twoStep then s.updGptp p fun g => { g with pendingSync := some m }
    else (s.syncComplete p m m.originSec m.originNs m.correction m.rateOffset).relaySync p)

/-- FOLLOW_UP_RECEIVED (R42, R519): the Follow_Up of the waiting Sync completes it. -/
def execFollowUpReceived (p : Port) (m : FollowUpMsg) (s : State) : Host.Outcome State Fault Refusal :=
  .next (if !s.gptpOn p then s
    else if m.domain ≠ 0 then s.bump .tbForeignDomain
    else match (s.gptpPort p).pendingSync with
      | some y =>
        if y.seq = m.seq ∧ s.tb.slave = some p ∧ (s.gptpPort p).asCapable then
          (s.syncComplete p y m.originSec m.originNs (y.correction + m.correction)
            m.rateOffset).relaySync p
        else s
      | none => s)

/-- Three of the intervals that the master states have passed without a Sync of it (R42). -/
def State.syncLate (s : State) (p : Port) : Bool :=
  s.tb.slave = some p && decide ((s.gptpPort p).rxSyncEdge + 3 * intervalEdges (s.gptpPort p).logInterval ≤ s.edge)

/-- SYNC_RECEIPT_TIMEOUT (R40, R42): three intervals without a Sync of the selected master lose it. -/
def execSyncReceiptTimeout (p : Port) (s : State) : Host.Outcome State Fault Refusal :=
  .next (if s.syncLate p then
      (s.updGptp p fun g => { g with foreign := none, pendingSync := none }).reselect false
    else s)

/-- ANNOUNCE_RECEIVED (R42, R43): the Announce is kept for its port and selection runs. An Announce of
the T7 itself or 255 steps away does not qualify (PRESUMED, log 7). -/
def execAnnounceReceived (p : Port) (m : AnnounceMsg) (s : State) : Host.Outcome State Fault Refusal :=
  .next (if !s.gptpOn p then s
    else if m.domain ≠ 0 then s.bump .tbForeignDomain
    else if !(s.gptpPort p).asCapable ∨ m.identity = clockIdentity ∨ m.stepsRemoved = 255 then s
    else (s.updGptp p fun g => { g with foreign := some m, rxAnnounceEdge := s.edge }).reselect false)

/-- Three Announce intervals of 1 s have passed without an Announce on a port where gPTP runs (R42). -/
def State.announceLate (s : State) (p : Port) : Bool :=
  s.gptpOn p && decide ((s.gptpPort p).rxAnnounceEdge + 3 * edgesSec ≤ s.edge)

/-- ANNOUNCE_RECEIPT_TIMEOUT (R40, R42): three Announce intervals without an Announce on the port; the next three are
counted from here. -/
def execAnnounceReceiptTimeout (p : Port) (s : State) : Host.Outcome State Fault Refusal :=
  .next (if s.announceLate p then
      (s.updGptp p fun g => { g with foreign := none, rxAnnounceEdge := s.edge }).reselect true
    else s)

/-- PDELAY_REQ_RECEIVED (R42): a Pdelay_Resp with the receipt stamp goes back to the requester; its follow-up goes out
with the send stamp of the response. -/
def execPdelayReqReceived (p : Port) (seq : BitVec 16) (m : PdelayReq) (s : State) : Host.Outcome State Fault Refusal :=
  let t := s.rxStamp p m.rawStamp
  .next (if s.gptpOn p then
      s.sendGptp p 3 seq.toNat 0x7F (subNs t) (ptpBytes t ++ natBytesBE 10 m.requester.toNat) (.pdelayResp seq m.requester)
    else s)

/-- PDELAY_RESP_RECEIVED (R42, R519): the exchange gives neighborRateRatio from the second on, the mean
link delay, and whether the port is asCapable: at most 800 ns (neighborPropDelayThresh). -/
def execPdelayRespReceived (p : Port) (m : PdelayResp) (s : State) : Host.Outcome State Fault Refusal :=
  let g := s.gptpPort p
  .next (match g.pdelaySent with
    | none => s
    | some t1 =>
      if s.gptpOn p ∧ m.seq = g.pdelaySeq then
        let t4 := s.rxStamp p m.rawStamp
        let rate : Option Int := match g.lastPdelay with
          | none => g.neighborRate
          | some (t3', t4') =>
            let dt := t4 - t4'
            if 0 < dt then some (roundDiv (((m.responseOrigin - t3') - dt) * 2 ^ 41) dt.toNat)
            else g.neighborRate
        let turn := t4 - t1
        let scaled := turn + (turn * rate.getD 0).fdiv (2 ^ 41)
        let delay := max 0 ((scaled - (m.responseOrigin - m.requestReceipt)) / 2)
        let s1 := s.updGptp p fun g => { g with
          pdelaySent := none, exchanges := g.exchanges + 1, neighborRate := rate, lost := 0
          lastPdelay := some (m.responseOrigin, t4), meanDelay := delay.toNat
          asCapable := decide (delay ≤ 800 * unitsNs) }
        if g.asCapable ∧ 800 * unitsNs < delay then s1.reselect false else s1
      else s)

/-- The interval of the port's last Pdelay_Req has passed (R42). -/
def State.pdelayDue (s : State) (p : Port) : Bool :=
  s.gptpOn p && decide ((s.gptpPort p).txPdelayEdge + edgesSec ≤ s.edge)

/-- A Pdelay_Req went without a response; more than 9 in a row end asCapable (PRESUMED, log 7). -/
def GptpPort.unanswered (g : GptpPort) : GptpPort :=
  if g.pdelaySent.isSome then { g with lost := g.lost + 1, asCapable := g.asCapable && decide (g.lost < 9) } else g

/-- PDELAY_INTERVAL (R42): 1 s after its last the port sends a Pdelay_Req; its send stamp is the medium's (R50). -/
def execPdelayInterval (p : Port) (s : State) : Host.Outcome State Fault Refusal :=
  .next (if s.pdelayDue p then
      let s1 := (s.updGptp p GptpPort.unanswered).sendPdelayReq p
      if (s.gptpPort p).asCapable && !(s1.gptpPort p).asCapable then s1.reselect false else s1
    else s)

/-- A master port sends its Sync at its own interval: as grandmaster, or with a master's time that is not relayed at once
(R42). -/
def State.sendsSync (s : State) (p : Port) : Bool :=
  s.portRole p = 1 && (s.tb.state = .grandmaster || s.tb.relay.any fun x => x.logInterval != (s.netPort p).logSync)

/-- The interval LOG_SYNC of such a port has passed since its last Sync (R42). -/
def State.syncDue (s : State) (p : Port) : Bool :=
  s.sendsSync p && decide ((s.gptpPort p).txSyncEdge + intervalEdges (s.netPort p).logSync ≤ s.edge)

/-- SYNC_INTERVAL (R40, R42, R491): a master port sends Sync and Follow_Up, as grandmaster with its own time, else with
the master's where it does not relay each Sync at once; the 8th Sync of one port as GRANDMASTER is the
ring-synchronised point. -/
def execSyncInterval (p : Port) (s : State) : Host.Outcome State Fault Refusal :=
  .next (if !s.syncDue p then s
    else if s.tb.state = .grandmaster then
      let s1 := (s.sendSync p none).updGptp p fun g => { g with syncsSent := g.syncsSent + 1 }
      if !s.tb.everLocked ∧ 8 ≤ (s1.gptpPort p).syncsSent then s1.ringSync else s1
    else s.sendSync p s.tb.relay)

/-- The Announce interval of a master port has passed since its last (R42). -/
def State.announceDue (s : State) (p : Port) : Bool :=
  s.portRole p = 1 && decide ((s.gptpPort p).txAnnounceEdge + edgesSec ≤ s.edge)

/-- ANNOUNCE_INTERVAL (R42, R43): a master port sends Announce with the grandmaster's vector; time source 0xA0, an
internal oscillator (log 7). -/
def execAnnounceInterval (p : Port) (s : State) : Host.Outcome State Fault Refusal :=
  .next (if s.announceDue p then
      let a := s.tb.gm.getD s.ownAnnounce
      let seq := (s.gptpPort p).announceSeq.toNat
      (s.sendGptp p 11 seq 0 0 (natBytesBE 13 0 ++ natBytesBE 1 a.priority1.toNat ++
        natBytesBE 1 a.clockClass.toNat ++ natBytesBE 1 a.clockAccuracy.toNat ++
        natBytesBE 2 a.variance.toNat ++ natBytesBE 1 a.priority2.toNat ++
        natBytesBE 8 a.identity.toNat ++
        natBytesBE 2 (if s.tb.gm.isSome then a.stepsRemoved.toNat + 1 else 0) ++
        natBytesBE 1 0xA0) .none_).updGptp p fun g =>
          { g with announceSeq := g.announceSeq + 1, txAnnounceEdge := s.edge }
    else s)

end Sys2Proof.Machine
end

