-- ==== Sys2Proof/Machine/Registration.lean ====
section
/-!
DEFINITION. The Registration engine: how a firing becomes a launch (R54 to R61, R472, R520), the job and
GPIO targets, and the writes that disable and enable entries.
-/

namespace Sys2Proof.Machine

open Sys2Proof

/-- Launches are held: the engine does not fire before jobs-ready, nor while a backward step holds it
(R49, R477). -/
def State.launching (s : State) : Bool := s.rgn.firing && s.tb.stepHold.isNone

/-- The rule set that a PROOF entry fires, for Proof's count of missed firings (R416). -/
def RegEntry.proofSet (e : RegEntry) : Option Nat := if e.target = 5 then some e.arg.toNat else none

/-- A firing of entry `i` whose target is busy follows the entry's LATE policy (R59). -/
def State.lateFiring (i : Nat) (e : RegEntry) (s : State) : State :=
  if e.late = 0 then s.bump .rgnLateDrop
  else if e.late = 1 then
    (s.bump .rgnLateDefer).updRgn fun r => { r with deferred := r.deferred.filter (· != i) ++ [i] }
  else
    let s1 := (s.bump .rgnLateReport).report 0x0F 0 5 7 0x0060 (some e.part) 0 i
    if s.entrySupervised e then s1.missedLaunch e.proofSet else s1

/-- The registration instant of a firing of an entry on this edge: the last one at or before now (R54). -/
def State.instantOf (s : State) (e : RegEntry) : Int :=
  timeOfTick (e.lastAt s.otl.running.h (tickOf s.now))

/-- When an entry fires next, a deferred firing of it that still waits is dropped and counted (R59). -/
def State.dropDeferred (i : Nat) (s : State) : State :=
  if s.rgn.deferred.contains i then
    (s.bump .rgnLateDrop).updRgn fun r => { r with deferred := r.deferred.filter (· != i) }
  else s

/-- One firing of entry `i` of a target: nothing where the entry cannot fire; a deferred firing still waiting is dropped
(R59); not launched in a partition reset (R472); carried where the edge has its 4 launches (R520); late where the
target is busy (R59); launched otherwise. -/
def State.fire (target : Nat) (i : Nat) (busy : RegEntry → Bool) (go : RegEntry → State → State)
    (s : State) : State :=
  match s.regEntry i with
  | none => s
  | some e =>
    if !s.launching || !e.valid || e.target != target || s.rgn.disabled.contains i then s
    else
      let s1 := s.dropDeferred i
      if e.target != 6 && e.target != 9 && s.resetting e.part then
        if s.entrySupervised e then s1.missedLaunch e.proofSet else s1
      else if 4 ≤ s.rgn.launches then
        s1.updRgn fun r => { r with carried := r.carried ++ [(s.instantOf e, i)] }
      else if busy e then s1.lateFiring i e
      else go e (s1.updRgn fun r => { r with launches := r.launches + 1 })

/-! ## Jobs -/

/-- A new job joins the list with the next job ID (R154). -/
def State.addJob (j : Job) (s : State) : State :=
  s.updJobs fun x => { x with list := x.list ++ [{ j with id := x.nextId }], nextId := nextJobId x.nextId }

/-- The previous firing of an entry is outstanding while its job has not ended (R58). -/
def State.entryJob (s : State) (i : Nat) : Bool :=
  s.jobs.list.any fun j => j.origin = .fired i || j.origin = .move i

/-- A job template starts a job in LAUNCHED, its instant the registration instant (R56, R150). -/
def State.launchTemplate (i : Nat) (instant : Int) (e : RegEntry) (s : State) : State :=
  match s.otl.running.templates[e.arg.toNat]? with
  | none => s
  | some t =>
    s.addJob { part := t.part, origin := .fired i, chainObj := t.chain, deadlineUs := t.deadline,
               budget := t.restart, outBase := t.outBase, state := .launched,
               launch := instant, launchEdge := s.edge }

/-- CORE_JOB_LAUNCH (R56, R58, R59). -/
def execCoreJobLaunch (e : BitVec 12) (s : State) : Host.Outcome State Fault Refusal :=
  .next (s.fire 1 e.toNat (fun _ => s.entryJob e.toNat) fun r s =>
    s.launchTemplate e.toNat (s.instantOf r) r)

/-- DRYPOINT_JOB_LAUNCH (R56, R58, R59, R151). -/
def execDrypointJobLaunch (e : BitVec 12) (s : State) : Host.Outcome State Fault Refusal :=
  .next (s.fire 2 e.toNat (fun _ => s.entryJob e.toNat) fun r s =>
    s.launchTemplate e.toNat (s.instantOf r) r)

/-- A registered Move descriptor runs as a job of one descriptor that holds no core: it binds its source
at launch and is judged there (R78, R159). -/
def State.launchMove (i : Nat) (instant : Int) (e : RegEntry) (s : State) : State :=
  match s.otl.running.moves[e.arg.toNat]? with
  | none => s
  | some w =>
    let src := w.getD 4 0
    let j : Job :=
      { part := e.part, origin := .move i, state := .running, deadlineUs := 16777215,
        launch := instant, launchEdge := s.edge, counters := List.replicate 16 0,
        chain := { width := 1, slots := [[{ w := w }]] }, slots := [{ core := 36 }] }
    let id := s.jobs.nextId
    let s1 := s.addJob j
    match s.tir.objs.find? fun o => o.obj = src && o.part = e.part && o.newest && o.state = .sealed with
    | none => s1.finishJob id stNoObject src
    | some o =>
      (s1.updJob id fun x => { x with
        bound := [{ obj := src, part := e.part, ver := o.ver, len := o.len, data := o.data }] }).takeVref
        e.part src o.ver

/-- MOVE_LAUNCH (R56, R58, R78). -/
def execMoveLaunch (e : BitVec 12) (s : State) : Host.Outcome State Fault Refusal :=
  .next (s.fire 3 e.toNat (fun _ => s.entryJob e.toNat) fun r s =>
    s.launchMove e.toNat (s.instantOf r) r)

/-! ## GPIO (R69) -/

def State.updPin (n : Nat) (f : GpioPin → GpioPin) (s : State) : State :=
  s.updTb fun t => { t with pins := t.pins.modify n f }

/-- A high or low launch ends a pulse and sets the level. -/
def GpioPin.drive (level : Bool) (p : GpioPin) : GpioPin := { p with level := level, pulseEnd := none }

/-- A toggle inverts the level; while a pulse holds the pin high it ends the pulse and drives it low. -/
def GpioPin.toggle (p : GpioPin) : GpioPin :=
  { p with level := if p.pulseEnd.isSome then false else !p.level, pulseEnd := none }

/-- A pulse drives the pin high until the later of its own end and an earlier pulse's end. -/
def GpioPin.pulse (until_ : Nat) (p : GpioPin) : GpioPin :=
  { p with level := true, pulseEnd := some (max until_ (p.pulseEnd.getD 0)) }

/-- A GPIO firing of one action on a pin that is a registered output. -/
def State.fireGpio (i action : Nat) (f : RegEntry → GpioPin → GpioPin) (s : State) : State :=
  match s.regEntry i with
  | none => s
  | some e =>
    if e.action = action then
      s.fire 8 i (fun _ => false) fun e s =>
        s.updPin e.unit fun p => if p.dir = .registered then f e p else p
    else s

/-- GPIO_HIGH (R69). -/
def execGpioHigh (e : BitVec 12) (s : State) : Host.Outcome State Fault Refusal :=
  .next (s.fireGpio e.toNat 0 fun _ => GpioPin.drive true)
/-- GPIO_LOW (R69). -/
def execGpioLow (e : BitVec 12) (s : State) : Host.Outcome State Fault Refusal :=
  .next (s.fireGpio e.toNat 1 fun _ => GpioPin.drive false)
/-- GPIO_TOGGLE (R69). -/
def execGpioToggle (e : BitVec 12) (s : State) : Host.Outcome State Fault Refusal :=
  .next (s.fireGpio e.toNat 2 fun _ => GpioPin.toggle)
/-- GPIO_PULSE (R56, R69): the width is ARG CTRL ticks. -/
def execGpioPulse (e : BitVec 12) (s : State) : Host.Outcome State Fault Refusal :=
  .next (s.fireGpio e.toNat 3 fun r => GpioPin.pulse (s.edge + r.arg.toNat))

/-- GPIO_PULSE_END (R69): the scheduled end of the pulse in progress drives the pin low. -/
def execGpioPulseEnd (pin : Fin 16) (s : State) : Host.Outcome State Fault Refusal :=
  .next (s.updPin pin fun p =>
    if p.pulseEnd.any fun e => decide (e ≤ s.edge) then { p with level := false, pulseEnd := none } else p)

/-! ## Disabling and enabling (R61, R494) -/

/-- Entries that host software may not disable: those of a SUPERVISED partition, and those of ETH_GATE
and SELFTEST (R61, R78). -/
def State.entryProtected (s : State) (e : RegEntry) : Bool :=
  e.target = 6 || e.target = 9 || s.supervised e.part

/-- A write to RGN_ENTRY_DISABLE or RGN_ENTRY_ENABLE: it takes effect for firings at or after edge
E + 16 (R61); an entry that is not VALID is ignored (R494). -/
def State.entryWrite (v : Word) (disable : Bool) (s : State) : State :=
  let i := fld v 11 0
  match s.regEntry i with
  | none => s
  | some e =>
    if !e.valid then s
    else if s.entryProtected e then s.bump .rgnProtectedWrite
    else s.updRgn fun r => { r with changes := r.changes ++ [(s.edge + 16, i, disable)] }

/-- RGN_ENTRY_DISABLE (R61, R494). -/
def execRgnEntryDisable (v : Word) (s : State) : Host.Outcome State Fault Refusal :=
  .next (s.entryWrite v true)
/-- RGN_ENTRY_ENABLE (R61, R494). -/
def execRgnEntryEnable (v : Word) (s : State) : Host.Outcome State Fault Refusal :=
  .next (s.entryWrite v false)

end Sys2Proof.Machine
end

