-- ==== Sys2Proof/Machine/Jobs.lean ====
section
/-!
DEFINITION. Jobs from their submission to their end (R146 to R162, R400), but for the seal edge: submission,
cancellation, launch, the start with its bindings, the deadline and the restart.
-/

namespace Sys2Proof.Machine

open Sys2Proof

/-! ## Submission and cancellation (R150 to R152, R161, R400) -/

/-- Jobs of a partition that a session submitted and that are ARMED or LAUNCHED (R152). -/
def State.submitted (s : State) (p : Nat) : Nat :=
  (s.jobs.list.filter fun j => j.part = p && (j.state = .armed || j.state = .launched) &&
    (match j.origin with
     | .submitted _ _ => true
     | _ => false)).length

/-- The launch instant of a JOB_SUBMIT: rounded up to the registration grid (R150). -/
def gridUp (u : Int) : Int := -(((-u).fdiv unitsEdge) * unitsEdge)

/-- A JOB_SUBMIT body is out of range, or its launch instant malformed (R52, R146, R400). -/
def jobBodyBad (b : JobBody) : Bool :=
  decide (fld b.w2 23 0 < 1000) || fld b.w2 31 28 != 0 || (!bit b.w2 26 && fld b.w2 25 24 != 0) ||
    (bit b.w2 27 && !compactOk { w0 := b.w5, w1 := b.w4 })

/-- The job that a JOB_SUBMIT makes (R146, R150). -/
def State.jobOf (s : State) (sess p : Nat) (b : JobBody) : Job :=
  let at_ := gridUp (compactNear { w0 := b.w5, w1 := b.w4 } s.now)
  let future := bit b.w2 27 && decide (s.now < at_)
  { part := p, origin := .submitted sess b.w0, chainObj := b.w1, deadlineUs := fld b.w2 23 0,
    budget := if bit b.w2 26 then fld b.w2 25 24 else ((s.partRec p).map (·.restart)).getD 1,
    outBase := b.w3, state := if future then .armed else .launched,
    launch := if future then at_ else s.now, launchEdge := s.edge }

/-- JOB_SUBMIT (R150, R152, R400, R472, R477): a device session has no right; a partition in reset is
BUSY; before jobs-ready it is refused with a status that the manual does not state (log 2). -/
def execJobSubmit (sess : Fin 16) (b : JobBody) (s : State) : Host.Outcome State Fault Refusal :=
  .next (s.request sess (fun x s =>
    let reply (st : Byte) (id : Word) (s : State) : State := s.sendTo sess (.jobReply b.w0 st id)
    match x.part with
    | none => reply 0x10 0 s
    | some p =>
      if s.glb.stage ≠ .ready then let r := s.draw; reply (r.1.setWidth 8) 0 r.2
      else if s.resetting p then reply 0x19 0 s
      else if jobBodyBad b then reply 0x16 0 s
      else if 256 ≤ s.submitted p then reply 0x12 0 s
      else (s.addJob (s.jobOf sess p b)).sendTo sess (.jobReply b.w0 0 s.jobs.nextId)))

/-- JOB_CANCEL (R161, R400): a submitted job of the session's partition ends in any state before SEALING;
a job that has ended is TOO_LATE, an ID that no job has had is NOT_FOUND (log 14). -/
def execJobCancel (sess : Fin 16) (tag job : Word) (s : State) : Host.Outcome State Fault Refusal :=
  .next (s.request sess (fun x s =>
    let reply (st : Byte) (s : State) : State := s.sendTo sess (.jobReply tag st job)
    match x.part with
    | none => reply 0x10 s
    | some p =>
      match s.job? job with
      | none => reply (if job != 0 && seqBefore job s.jobs.nextId then 0x18 else 0x17) s
      | some j =>
        if j.part ≠ p then reply 0x17 s
        else
          match j.origin with
          | .submitted _ _ =>
            if j.state = .sealing then reply 0x18 s
            else (reply 0 s).finishJob job stCancelled 0
          | _ => reply 0x10 s))

/-- JOB_LAUNCH_INSTANT (R150): the launch instant of an ARMED job is reached. -/
def execJobLaunchInstant (job : Word) (s : State) : Host.Outcome State Fault Refusal :=
  .next (match s.job? job with
    | none => s
    | some j =>
      if j.state = .armed ∧ j.launch ≤ s.now then
        s.updJob job fun x => { x with state := .launched, launchEdge := s.edge }
      else s)

/-! ## The chain object (R147) -/

/-- The chain that an object holds, or none where R147 does not allow it. -/
def parseChain (m : Memory) (len : Nat) : Option Chain :=
  let w (n : Nat) : Word := Memory.readWord m (4 * n)
  let width := fld (w 0) 5 0
  let inputs := fld (w 1) 15 0
  let outputs := fld (w 1) 31 16
  let head := 64 + 8 * width + 4 * inputs
  let slot (k : Nat) : Nat × Nat := ((w (16 + 2 * k)).toNat, (w (17 + 2 * k)).toNat)
  let slots := (List.range width).map slot
  if width = 0 ∨ 32 < width ∨ fld (w 0) 7 6 ≠ 0 ∨ fld (w 0) 31 10 ≠ 0 ∨ 256 < inputs ∨ 256 < outputs ∨
      10240 < (w 2).toNat ∨ (w 3).toNat = 0 ∨ 4000 < (w 3).toNat ∨
      (List.range 12).any (fun k => w (4 + k) != 0) ∨ len < head ∨
      slots.any (fun x => x.2 = 0 || decide (65536 < x.2) || decide (64 * x.1 < head) ||
        decide (len < 64 * (x.1 + x.2))) then none
  else some
    { width := width, drypoint := bit (w 0) 8, log := bit (w 0) 9, outputs := outputs,
      plateLocal := (w 2).toNat, wcet := (w 3).toNat,
      inputs := Memory.readWords m (64 + 8 * width) inputs,
      slots := slots.map fun x => (List.range x.2).map fun k =>
        { w := Memory.readWords m (64 * (x.1 + k)) 16 } }

/-- The stream aliases that the descriptors of a chain name (R149). -/
def Chain.aliases (c : Chain) : List Word :=
  ((c.slots.flatMap fun l => l.flatMap fun d => d.reads ++ d.writes).filter isAlias).dedup

/-! ## Bindings (R149, R253, R306, R307, R325) -/

/-- The 64-byte header of a landed frame (R307). -/
def LandedFrame.header (f : LandedFrame) (n : Nat) (e : StreamEntry) : List Word :=
  let sig := f.signature
  [wd (n + flag e.ethernet 8 + flag f.repeat_ 16 + flag f.frozen 17 + flag f.unsync 18 + flag f.noTime 19 +
     flag f.timeBad 20 + flag f.gap 21),
   wd (f.counter % 65536), wd f.index, wd f.payload.length, (compactOf f.arrival).w0, (compactOf f.arrival).w1,
   (compactOf f.frameTime).w0, (compactOf f.frameTime).w1, wd f.sensorTime, wd (f.sensorTime / 2 ^ 32),
   sig.setWidth 32, (sig >>> 32).setWidth 32, wd (f.lines % 65536 + 65536 * f.rowPitch),
   wd (f.lineBytes % 65536 + 65536 * e.dataType + 2 ^ 22 * e.vc), 0, 0]

/-- The bytes of a landed frame: header, payload, padding up to 64 B (R306). -/
def LandedFrame.bytes (f : LandedFrame) (n : Nat) (e : StreamEntry) : List Byte :=
  let b := wordsBytes (f.header n e) ++ f.payload
  b ++ List.replicate ((64 - b.length % 64) % 64) 0

/-- The STREAM entry of an ID, or the empty one. -/
def State.streamEntry (s : State) (n : Nat) : StreamEntry := (s.otl.running.stream? n).getD { id := n }

/-- The number of a stream alias. -/
def aliasStream (id : Word) : Nat := id.toNat - 0xFE000000

/-- The versions of a stream that a bind may take: the current ones, newest last (R308). -/
def State.current (s : State) (n : Nat) : List LandedFrame :=
  (s.ing.streams.getD n {}).versions.filter (·.current)

/-- The version whose FRAME_TIME lies nearest to a time; a tie takes the newer (R325). -/
def nearestFrame (t : Int) (l : List LandedFrame) : Option LandedFrame :=
  l.foldl (fun acc f => match acc with
    | none => some f
    | some g => if (f.frameTime - t).natAbs ≤ (g.frameTime - t).natAbs then some f else some g) none

/-- The frame that an alias binds: the newest of the lead stream, the nearest in time of the others. -/
def State.frameFor (s : State) (aliases : List Word) (id : Word) : Option LandedFrame :=
  let lead := (aliases.map aliasStream).foldl min 47
  match (s.current lead).getLast? with
  | none => none
  | some f => if aliasStream id = lead then some f else nearestFrame f.frameTime (s.current (aliasStream id))

/-- A bind takes its version, waits for a check, or fails. -/
inductive BindResult where
  | bound (b : Binding)
  | waits (o : ObjVersion)
  | fails (f : Failure)
deriving DecidableEq, Repr, Inhabited

/-- The binding of one object of a job (R149, R253, R254, R257). -/
def State.bindOne (s : State) (j : Job) (aliases : List Word) (id : Word) : BindResult :=
  if isAlias id then
    let n := aliasStream id
    match s.otl.running.stream? n with
    | none => .fails (stNoObject, id)
    | some e =>
      if e.part ≠ j.part ∨ e.egress then .fails (stNoObject, id)
      else match s.frameFor aliases id with
        | none => .fails (stNoObject, id)
        | some f =>
          let bytes := f.bytes n e
          .bound { obj := id, part := j.part, ver := f.index, len := bytes.length, data := Memory.ofBytes bytes }
  else if !isDirectory id then .fails (stBadHandle, 0)
  else match s.newestOf j.part id with
    | none => .fails (stNoObject, id)
    | some o =>
      if o.state = .sealed ∨ o.state = .rebuilding then
        .bound { obj := id, part := o.part, ver := o.ver, len := o.len, data := o.data }
      else if o.state = .verifying then .waits o
      else .fails (stNoObject, id)

/-- The first failure, or the first wait, or every binding. -/
def bindAll (f : Word → BindResult) : List Word → Except (Sum ObjVersion Failure) (List Binding)
  | [] => .ok []
  | id :: r =>
    match f id with
    | .fails e => .error (.inr e)
    | .waits o => match bindAll f r with
      | .error (.inr e) => .error (.inr e)
      | _ => .error (.inl o)
    | .bound b => match bindAll f r with
      | .error e => .error e
      | .ok bs => .ok (b :: bs)

/-- A bind of a VERIFYING version moves it to the front of the check (R278). -/
def State.verifyFirst (o : ObjVersion) (s : State) : State :=
  s.updObj (isVer o.part o.obj o.ver) fun x => { x with raised := true }

/-- A binding takes its reference; a prefetch reference on it is released when this job ends (R149, R264,
R308). -/
def State.takeBinding (id : Word) (b : Binding) (s : State) : State :=
  if isAlias b.obj then
    s.updIng fun g => { g with streams := g.streams.modify (aliasStream b.obj) fun x =>
      { x with versions := x.versions.map fun f =>
          if f.index = b.ver then { f with binds := f.binds + 1 } else f } }
  else
    (s.takeVref b.part b.obj b.ver).updTir fun t => { t with tierRefs := t.tierRefs.map fun r =>
      if r.job.isNone ∧ r.obj = b.obj ∧ r.part = b.part then { r with job := some id } else r }

/-- A difference of frame times reduced into (−P/2, P/2] (R326). -/
def reducePhase (period d : Int) : Int :=
  let r := d.fmod (max 1 period)
  if period < 2 * r then r - period else r

/-- The frame time of a bound version of an alias. -/
def State.boundTime (s : State) (b : Binding) : Int :=
  (((s.ing.streams.getD (aliasStream b.obj) {}).versions.find? (·.index = b.ver)).map (·.frameTime)).getD 0

/-- The phase of a stream against its lead at a pairing (R326). -/
def IngStream.pair (period : Int) (lead : Nat) (d : Int) (x : IngStream) : IngStream :=
  if x.lead = some lead then
    let phase := x.phase + reducePhase period (d - x.prevDiff)
    let drift := decide (period ≤ (phase - x.phase0).natAbs)
    { x with phase := phase, prevDiff := d, drift := x.drift || drift
             phase0 := if drift then phase else x.phase0 }
  else { x with lead := some lead, phase := d, phase0 := d, prevDiff := d }

/-- A pairing of one stream with its lead, with its DRIFT count (R326). -/
def State.pairOne (lead : Nat) (leadTime : Int) (b : Binding) (s : State) : State :=
  let n := aliasStream b.obj
  let period : Int := ((s.streamEntry n).period : Int) * 1000 * unitsNs
  let x := s.ing.streams.getD n {}
  let y := x.pair period lead (reducePhase period (s.boundTime b - leadTime))
  let s1 := s.updIng fun g => { g with streams := g.streams.modify n fun _ => y }
  if h : n < 48 then
    if y.lead = x.lead && y.phase0 != x.phase0 then s1.bump (.ingDrifts ⟨n, h⟩) else s1
  else s1

/-- The bound streams of a job are paired with their lead, the lowest STREAM_ID (R325, R326). -/
def State.pairStreams (bs : List Binding) (s : State) : State :=
  match (bs.filter fun b => isAlias b.obj) with
  | [] => s
  | b :: r =>
    let lead := r.foldl (fun m x => if aliasStream x.obj < aliasStream m.obj then x else m) b
    (b :: r).foldl (fun s x => if x.obj = lead.obj then s else s.pairOne (aliasStream lead.obj) (s.boundTime lead) x) s

/-! ## The start (R18, R21, R147, R152, R255, R269) -/

/-- A logical slot is taken by a running job of the kind (R147, R151). -/
def State.slotTaken (s : State) (p k : Nat) (dry : Bool) : Bool :=
  s.jobs.list.any fun j => j.part = p && j.chain.drypoint = dry && j.slots.any fun x => x.logical = k

/-- The next core in ascending position order after the spare that is powered and not retired: the one
that a rotation makes the spare (R20). -/
def State.outgoing (s : State) (c : Nat) : Option Nat :=
  match (s.cluster c).spare with
  | none => none
  | some sp =>
    let pool := s.rotationSet s.otl.running c
    firstIdx 8 (fun k => pool.contains (9 * c + (sp.val + 1 + k) % 9)) |>.map fun k =>
      9 * c + (sp.val + 1 + k) % 9

/-- The core that becomes the spare next: after a suspension, the one whose self-test was abandoned (R20, R436). -/
def State.nextSpare (s : State) (c : Nat) : Option Nat :=
  let cl := s.cluster c
  match cl.abandoned with
  | some a =>
    if cl.suspended ∧ (s.rotationSet s.otl.running c).contains (9 * c + a.val) ∧ cl.spare ≠ some a then some (9 * c + a.val)
    else s.outgoing c
  | none => s.outgoing c

/-- The edge from which a rotation firing of a cluster is a rotation instant: 10 ms after jobs-ready (R20), and in a
suspension 4 ms after the diagnosed core rejoined (R436). -/
def State.rotatesFrom (s : State) (c : Nat) : Nat :=
  let cl := s.cluster c
  max (s.glb.readyEdge + 10 * edgesMs) (if cl.suspended then cl.rejoinEdge + 4 * edgesMs else 0)

/-- The tick of the cluster's next rotation instant, from whichever table will launch it (R20, R21, R521). Until then an
edge is taken as a tick. -/
def State.nextRotation (s : State) (c : Nat) : Option Nat :=
  s.nextFiring (fun _ e => e.target = 9 && e.action = 1 && e.unit = c) (tickOf s.now + (s.rotatesFrom c - s.edge))

/-- The core that a job of a worst case of `wcet` us takes in a slot (R21, R23): in the handover window, a job that
would cross the rotation instant goes to the incoming core, once its self-test has ended, and to none before; while a
handover waits, the outgoing core takes no job. -/
def State.dispatchCore (s : State) (core wcet : Nat) : Option Nat :=
  let c := clusterOf core
  let cl := s.cluster c
  let ends := tickOf s.now + wcet * edgesUs
  match s.nextSpare c, cl.spare with
  | some out, some sp =>
    if out ≠ core then some core
    else if cl.handover then none
    else if (s.nextRotation c).any fun t => decide (t ≤ tickOf s.now + 4 * edgesMs) && decide (t < ends) then
      (if cl.testing then none else some (9 * c + sp.val))
    else some core
  | _, _ => some core

/-- A job of the partition runs a logical slot on another core: no second core may serve it (R21). -/
def State.servedElsewhere (s : State) (p k core : Nat) : Bool :=
  s.jobs.list.any fun j => j.part = p && j.slots.any fun x => x.logical = k && x.core != core

/-- The slots that a job may take now, lowest first, each with its core. -/
def State.startSlots (s : State) (j : Job) (c : Chain) : List (Nat × Nat) :=
  (s.liveSlots j.part).filterMap fun x =>
    (s.dispatchCore x.2 c.wcet).bind fun core =>
      let k := s.core core
      if s.slotTaken j.part x.1 c.drypoint ∨ s.servedElsewhere j.part x.1 core ∨ k.state = .off ∨ k.state = .retired ∨
          k.leaving ∨ (k.state = .selfTest ∧ core = x.2) ∨ (if c.drypoint then k.dryJob.isSome else k.job.isSome) then none
      else some (x.1, core)

/-- A before b: the earlier deadline, then the lower job ID modulo 2^32 (R152). -/
def Job.before (a b : Job) : Bool :=
  let da := a.launch + (a.deadlineUs : Int) * 1000 * unitsNs
  let db := b.launch + (b.deadlineUs : Int) * 1000 * unitsNs
  if da ≠ db then decide (da < db) else seqBefore a.id b.id

/-- The LAUNCHED jobs of a partition in the order of R152. -/
def State.order (s : State) (p : Nat) : List Job :=
  (s.jobs.list.filter fun j => j.part = p && j.state = .launched).foldl
    (fun acc j => insertBy Job.before j acc) []

/-- A core takes up a job. -/
def Core.take (id : Word) (dry : Bool) (c : Core) : Core :=
  { c with
    state := if c.state = .selfTest then c.state else .running
    job := if dry then c.job else some id
    dryJob := if dry then some id else c.dryJob }

/-- The outputs of a job: OUTPUT_BASE onward, with the length of an OBJECT_PLACE entry (R146, R253). -/
def State.outputsOf (s : State) (j : Job) (c : Chain) : List OutputState :=
  (List.range c.outputs).map fun k =>
    let id := j.outBase + wd k
    { obj := id, fixedLen := (s.placeOf j.part id).map fun e => 4096 * e.size }

/-- The job runs: it holds its slots, bindings and outputs, its counters are 0 (R147, R149, R168). -/
def State.runJob (j : Job) (c : Chain) (bs : List Binding) (slots : List (Nat × Nat)) (s : State) : State :=
  let s1 := (bs.foldl (fun s b => s.takeBinding j.id b) s).pairStreams bs
  let s2 := slots.foldl (fun s x => s.updCore x.2 (Core.take j.id c.drypoint)) s1
  s2.updJob j.id fun x => { x with
    state := .running, chain := c, bound := bs, counters := List.replicate 16 0
    slots := slots.map fun y => { core := y.2, logical := y.1 }
    outs := s.outputsOf j c }

/-- The head of a partition's order leaves LAUNCHED if it can (R149, R152, R255, R269). -/
def State.startJob (j : Job) (s : State) : State :=
  match s.newestOf j.part j.chainObj with
  | none => s.finishJob j.id stNoObject j.chainObj
  | some o =>
    if o.state = .verifying then s.verifyFirst o
    else if o.state ≠ .sealed ∧ o.state ≠ .rebuilding then s.finishJob j.id stNoObject j.chainObj
    else
      match parseChain o.data o.len with
      | none => s.finishJob j.id stBadDescriptor 0
      | some c =>
        let slots := (s.startSlots j c).take c.width
        if (s.liveSlots j.part).length < c.width then s.finishJob j.id stNoResources 0
        else if slots.length < c.width then s
        else
          let al := ((c.inputs.filter isAlias) ++ c.aliases).dedup
          match bindAll (s.bindOne j al) (c.inputs ++ al.filter fun a => !c.inputs.contains a).dedup with
          | .error (.inr f) => s.finishJob j.id f.1 f.2
          | .error (.inl v) => s.verifyFirst v
          | .ok bs =>
            let r := s.reserveEntries (c.outputs + toBit c.log)
            if !r.1 then r.2
            else
              let outs := s.outputsOf j c
              let need := c.plateLocal + total (outs.map fun o => unitsOf (o.fixedLen.getD 0))
              let q := r.2.roomT2 j.part need
              if q.1 then q.2.runJob j c bs slots
              else if q.2.tir.waits.any (·.job = j.id) then q.2
              else q.2.waitT2 { job := j.id, part := j.part, units := need }

/-- Jobs that are too wide for the slots of their partition now fail at once (R152). -/
def State.tooWide (s : State) (j : Job) : Bool :=
  match s.newestOf j.part j.chainObj with
  | none => false
  | some o =>
    (o.state = .sealed || o.state = .rebuilding) &&
      (parseChain o.data o.len).any fun c => decide ((s.liveSlots j.part).length < c.width)

/-- JOB_START (R149, R152): the head of the partition's order starts, or holds the order. A partition in
reset starts nothing (R472). -/
def execJobStart (part : Fin 8) (s : State) : Host.Outcome State Fault Refusal :=
  let wide := (s.order part).filter s.tooWide
  let s1 := wide.foldl (fun s j => s.finishJob j.id stNoResources 0) s
  .next (if s.resetting part then s
    else match s1.order part with
      | [] => s1
      | j :: _ => if (s1.tir.waits.any fun w => w.job = j.id && w.slot = 32) then s1 else s1.startJob j)

/-! ## Deadline and restart (R155 to R158, R522) -/

/-- JOB_DEADLINE (R155): a job in LAUNCHED, RUNNING or RESTARTING ends with DEADLINE; a seal is not
interrupted. Timeouts of its requests that fall on this very edge are recorded too. -/
def execJobDeadline (job : Word) (s : State) : Host.Outcome State Fault Refusal :=
  .next (match s.job? job with
    | none => s
    | some j =>
      if s.pastDeadline j && (j.state = .launched || j.state = .running || j.state = .restarting) then
        (s.dueTimeouts job).overrun j
      else s)

/-- The core on which a slot of a restarted job runs: its own, or the one that its logical slot maps to
now (R157). -/
def State.restartCore (s : State) (j : Job) (x : SlotState) : Option Nat :=
  let c := s.core x.core
  if c.leaving ∨ c.diagnosing ∨ c.state = .selfTest ∨ c.state = .retired ∨ c.state = .off then
    s.slotCore j.part x.logical
  else some x.core

/-- RESTART_ISSUE (R157, R158, R522): the new attempt starts from the first descriptor of every slot
chain, after the rejoin of a core that it waits for; a slot that was unmapped meanwhile ends the job. -/
def execRestartIssue (job : Word) (s : State) : Host.Outcome State Fault Refusal :=
  .next (match s.job? job with
    | none => s
    | some j =>
      if j.state ≠ .restarting then s
      else
        let waiting := j.waitsForCore.any fun c => (s.core c).leaving || (s.core c).diagnosing
        if waiting then s
        else if j.slots.any fun x => (s.restartCore j x).isNone then s.finishJob job stNoResources 0
        else
          let s1 := j.slots.foldl (fun s x => match s.restartCore j x with
            | some c => s.updCore c (Core.take job j.chain.drypoint)
            | none => s) s
          s1.updJob job fun x => { x with
            state := .running, waitsForCore := none
            slots := x.slots.map fun y => { y with core := (s.restartCore j y).getD y.core } })

end Sys2Proof.Machine
end

