-- ==== Sys2Proof/Machine/Ingress.lean ====
section
/-!
DEFINITION. Sensor ingress (R305 to R326): the CSI-2 ports, the assembly of Ethernet sensor frames, the
seal of a frame with its sequence check, signature and clock model, and what the event path tells Proof.
-/

namespace Sys2Proof.Machine

open Sys2Proof

def State.stream (s : State) (n : Nat) : IngStream := s.ing.streams.getD n {}
def State.updStream (n : Nat) (f : IngStream → IngStream) (s : State) : State :=
  s.updIng fun g => { g with streams := g.streams.modify n f }

/-- Saturating counters by a number that R336 bounds. -/
def State.portErr (p : Nat) (s : State) : State := if h : p < 16 then s.bump (.ingPortErr ⟨p, h⟩) else s
def State.bumpStream (f : Fin 48 → Counter) (n k : Nat) (s : State) : State :=
  if h : n < 48 then s.bumpBy (f ⟨n, h⟩) k else s

/-- PERIOD of a stream in units and in CTRL edges (R77). -/
def StreamEntry.periodUnits (e : StreamEntry) : Int := (e.period : Int) * 1000 * unitsNs
def StreamEntry.periodEdges (e : StreamEntry) : Nat := e.period * edgesUs

/-- Ingress lies in PD_CSI (R465). -/
def State.ingressOn (s : State) : Bool := s.glb.pdState.getLsbD 5

/-! ## The event path and the raw-sensor tap (R320, R415) -/

def State.updProofStream (n : Nat) (f : ProofStream → ProofStream) (s : State) : State :=
  s.updPrf fun p => { p with streams := p.streams.modify n f }

/-- The MISSING event of a stream, `k` times (R320): it counts in the frame in progress of each rule set. -/
def State.tellMissing (n k : Nat) (s : State) : State :=
  s.updProofStream n fun x => { x with missing := x.missing.map (· + k) }

/-- One record of a tapped frame: its range and azimuth, where it is not skipped (R415). -/
def tapRecord (r : RuleWords) (data : List Byte) (k : Nat) : Option (Nat × Nat) :=
  let at_ := fld r.e2 31 16 + k * fld r.e2 15 0
  let range := beNat ((data.drop (at_ + fld r.e3 15 0)).take 2)
  let az := beNat ((data.drop (at_ + fld r.e3 31 16)).take 2)
  if range = 0 ∨ 36000 ≤ az then none else some (range, az / 2250)

/-- Whole records of a tapped frame (R415). -/
def tapCount (r : RuleWords) (len : Nat) : Nat :=
  let first := fld r.e2 31 16
  let size := fld r.e2 15 0
  let reach := max (fld r.e3 15 0) (fld r.e3 31 16) + 2
  if size = 0 then 0 else if len < first + reach then 0 else (len - first - reach) / size + 1

/-- The minimum range of each of the 16 sectors, in mm; 65,535 where nothing returned (R415). -/
def tapSectors (r : RuleWords) (data : List Byte) : List Nat :=
  (List.range (tapCount r data.length)).foldl (fun acc k => match tapRecord r data k with
    | none => acc
    | some x => acc.modify x.2 (min x.1)) (List.replicate 16 65535)

/-- The RAW_TAP rules of a stream: rule set, rule index, rule (R413, R414). -/
def Outline.taps (o : Outline) (n : Nat) : List (Nat × Nat × RuleWords) :=
  o.ruleSets.flatMap fun t => t.rules.zipIdx.filterMap fun x =>
    if fld x.1.e0 7 0 = 4 ∧ fld x.1.e1 7 0 = n then some (t.set, x.2, x.1) else none

/-- The FRAME event of a seal, with the raw-sensor tap of an Ethernet stream (R320, R415). -/
def State.tellFrame (n : Nat) (e : StreamEntry) (frozen : Bool) (data : List Byte) (s : State) : State :=
  s.updProofStream n fun x => { x with
    frozen := frozen
    stale := false
    lastFrame := some s.edge
    taps := if e.ethernet then (s.otl.running.taps n).map fun t => (t.1, t.2.1, tapSectors t.2.2 data)
      else x.taps }

/-! ## Space and drops (R308, R309) -/

/-- A frame in progress is dropped: counted, reported MISSING, and the next sealed frame has GAP (R309). -/
def State.dropFrame (n : Nat) (s : State) : State :=
  ((s.updStream n fun x => { x with
    open_ := none
    dead := x.open_.map (·.counter)
    gapNext := true
    droppedSince := x.droppedSince + 1 }).bumpStream .ingDrops n 1).tellMissing n 1

/-- The oldest version of a stream that no job has bound, other than the newest (R308). -/
def IngStream.reusable (x : IngStream) : Option LandedFrame := x.versions.dropLast.find? (·.binds = 0)

/-- Reuse the oldest unbound versions while `need` units are not free (R308). -/
def State.reuse (n need : Nat) : Nat → State → State
  | 0, s => s
  | k + 1, s =>
    if need ≤ s.t2Free then s
    else match (s.stream n).reusable with
      | none => s
      | some f => State.reuse n need k (s.updStream n fun x => { x with versions := x.versions.filter (· != f) })

/-- The payload of the frame in progress grows: it takes its space, or the frame is dropped for its length or
for want of space (R306, R308, R309). -/
def State.land (n : Nat) (f : OpenFrame) (s : State) : State :=
  let old := ((s.stream n).open_.map fun o => frameUnits o.payload.length).getD 0
  let need := frameUnits f.payload.length - old
  let s1 := s.reuse n need (s.stream n).versions.length
  if 32 * 2 ^ 20 < f.payload.length ∨ s1.t2Free < need then s1.dropFrame n
  else s1.updStream n fun x => { x with open_ := some f }

/-- A frame begins (R306, R308). -/
def State.openFrame (n : Nat) (f : OpenFrame) (s : State) : State :=
  let s1 := s.reuse n (frameUnits 0) (s.stream n).versions.length
  if s1.t2Free < frameUnits 0 then
    (s1.updStream n fun x => { x with open_ := some f }).dropFrame n
  else s1.updStream n fun x => { x with open_ := some f, dead := none }

/-! ## Signature and sequence checks (R316 to R319) -/

/-- The CRC-64 of R318. -/
def crc64 (bs : List Byte) : BitVec 64 :=
  (bs.foldl (crcByte 0xC96C5795D7870F42#64) 0xFFFFFFFFFFFFFFFF#64) ^^^ 0xFFFFFFFFFFFFFFFF#64

/-- What the sequence check finds: out of order, or the gap and the further frames it counts, and whether
COUNTER repeats. -/
structure SeqCheck where
  outOfOrder : Bool := false
  gap : Bool := false
  missing : Nat := 0
  same : Bool := false
deriving DecidableEq, Repr, Inhabited

/-- The check between sealed frames (R316 for Ethernet, R317 for CSI-2). -/
def seqCheck (ethernet : Bool) (x : IngStream) (c : Nat) : SeqCheck :=
  if !x.hasPrev then {}
  else if ethernet then
    let d := (c + 65536 - x.lastCounter) % 65536
    if 32769 ≤ d then { outOfOrder := true }
    else { gap := decide (2 ≤ d), missing := d - 1 - x.droppedSince, same := d = 0 }
  else if c = 0 ∨ x.lastCounter = 0 ∨ c < x.lastCounter then {}
  else
    let d := c - x.lastCounter
    { gap := decide (2 ≤ d), missing := d - 1 - x.droppedSince, same := d = 0 }

/-! ## The clock model (R321 to R324) -/

/-- The common time of a sensor time (R321). -/
def ClockModel.at_ (c : ClockModel) (sensor : Nat) : Int :=
  c.refT + ((sensor : Int) - c.refS) * (unitsNs + c.rate)

/-- A quotient whose rounding the manual does not state: the floor, or one above it where the division is
not exact (log 2). -/
def freeDiv (a b : Int) (k : Nat) : Int :=
  if b = 0 then 0 else a.fdiv b + (if a.fmod b = 0 then 0 else (k % 2 : Nat))

/-- What one update makes of a clock model: FRAME_TIME and whether the frame is an outlier (R322). -/
structure ClockStep where
  model : ClockModel := {}
  time : Int := 0
  outlier : Bool := false
deriving DecidableEq, Repr, Inhabited

/-- The clock model after a frame of sensor time `t` and arrival stamp `a`; `k1` and `k2` choose the rounding
of the two quotients (R322, R324). -/
def ClockModel.step (c : ClockModel) (period a : Int) (t k1 k2 : Nat) : ClockStep :=
  if !c.valid ∨ 8 ≤ c.outlierRun then
    { model := { refS := t, refT := a, rate := 0, valid := true, resid := c.resid }, time := a }
  else
    let ds := (t : Int) - c.refS
    let p := c.at_ t
    let e := a - p
    let resid := clampInt (-2147483647) 2147483647 (e.tdiv unitsNs)
    if ds ≤ 0 ∨ period < 2 * e.natAbs then
      { model := { c with outlierRun := c.outlierRun + 1, lockRun := 0, locked := false, resid := resid }
        time := p, outlier := true }
    else
      let refT := p + freeDiv e 16 k1
      let rate := clampInt (-8589935) 8589935 (c.rate + freeDiv e (256 * ds) k2)
      let lockRun := if e.natAbs < 5000 * unitsNs.natAbs then c.lockRun + 1 else 0
      let calm := if rate.natAbs < 1717987 then c.calmRun + 1 else 0
      let updates := c.updates + 1
      let unsync := if c.unsync then decide (calm < 64) else decide (64 ≤ updates) && decide (2147484 < rate.natAbs)
      { model := { c with
          refS := t, refT := refT, rate := rate, updates := updates, lockRun := lockRun
          locked := c.locked || decide (64 ≤ lockRun), unsync := unsync, calmRun := calm, outlierRun := 0
          resid := resid }
        time := refT }

/-! ## The seal (R306 to R308, R318 to R323) -/

/-- At most 4 versions stay current; one that is neither current nor bound is freed (R308). -/
def keepVersions (l : List LandedFrame) : List LandedFrame :=
  let extra := (l.filter (·.current)).length - 4
  let l1 := (l.foldl (fun (acc : Nat × List LandedFrame) f =>
    if f.current ∧ 0 < acc.1 then (acc.1 - 1, acc.2 ++ [{ f with current := false }])
    else (acc.1, acc.2 ++ [f])) (extra, [])).2
  l1.filter fun f => f.current || decide (0 < f.binds)

/-- FRAME_TIME of a frame with what it says of TIME_BAD, and the clock model after it (R322, R323). -/
def State.frameClock (x : IngStream) (e : StreamEntry) (f : OpenFrame) (s : State) :
    ClockStep × Bool × State :=
  match f.sensorTime with
  | none => ({ model := x.clock, time := f.arrival }, false, s)
  | some t =>
    if f.gptp then
      let u := (t : Int) * unitsNs
      if 10 * 1000000 * unitsNs < (u - f.arrival).natAbs then ({ model := x.clock, time := f.arrival }, true, s)
      else ({ model := x.clock, time := u }, false, s)
    else
      let a := s.choose 2
      let b := a.2.choose 2
      (x.clock.step e.periodUnits f.arrival t a.1 b.1, false, b.2)

/-- A landed frame is sealed, or discarded as out of order (R306, R316). -/
def State.sealFrame (n : Nat) (f : OpenFrame) (s : State) : State :=
  let x := s.stream n
  let e := s.streamEntry n
  let q := seqCheck e.ethernet x f.counter
  if q.outOfOrder then (s.updStream n fun y => { y with open_ := none }).bumpStream .ingDrops n 1
  else
    let sig := crc64 f.raw
    let rep := x.hasPrev && (q.same || sig = x.lastSignature)
    let run := if rep then x.repeatRun + 1 else 0
    let frozen := rep && decide (e.frozenK ≤ run)
    let c := s.frameClock x e f
    let v : LandedFrame :=
      { index := x.framesSealed.toNat, repeat_ := rep, frozen := frozen, unsync := c.1.model.unsync,
        noTime := f.sensorTime.isNone, timeBad := c.2.1, gap := x.gapNext || q.gap, counter := f.counter,
        arrival := f.arrival, frameTime := c.1.time, sensorTime := f.sensorTime.getD 0, signature := sig,
        lines := f.lines, rowPitch := if e.ethernet then 0 else (f.lineBytes + 15) / 16 * 16,
        lineBytes := if e.ethernet then 0 else f.lineBytes, payload := f.payload, sealEdge := s.edge }
    let s1 := c.2.2.updStream n fun y => { y with
      state := .active, frozen := frozen, repeatRun := run, framesSealed := y.framesSealed + 1
      versions := keepVersions (y.versions ++ [v]), open_ := none, clock := c.1.model, droppedSince := 0
      gapNext := false, hasPrev := true, lastCounter := f.counter, lastSignature := sig, lastSealEdge := s.edge }
    let s2 := ((s1.bumpStream .ingFrames n 1).bumpStream .ingRepeats n (toBit rep)).bumpStream .ingOutliers n
      (toBit c.1.outlier)
    let s3 := ((s2.bumpStream .ingDrops n q.missing).tellMissing n q.missing).tellFrame n e frozen f.raw
    if frozen && !x.frozen then s3.bump .prfFrozenEvents else s3

/-- FRAME_SEAL (R306): the frame that has ended is sealed. -/
def execFrameSeal (stream : Fin 48) (s : State) : Host.Outcome State Fault Refusal :=
  .next (match (s.stream stream).open_ with
    | none => s
    | some f => if f.ended then s.sealFrame stream f else s)

/-- STREAM_STALE (R319, R320): no frame was sealed for 2 × PERIOD. -/
def execStreamStale (stream : Fin 48) (s : State) : Host.Outcome State Fault Refusal :=
  let x := s.stream stream
  let late := decide (x.lastSealEdge + 2 * (s.streamEntry stream).periodEdges ≤ s.edge)
  .next (if late && (x.state = .active || x.state = .waiting) then
      (s.updStream stream fun y => { y with state := .stale }).updProofStream stream fun y => { y with stale := true }
    else s)

/-! ## CSI-2 (R310 to R313) -/

/-- The stream of a (PORT, VC) pair (R311). -/
def State.csiStream (s : State) (port vc : Nat) : Option Nat :=
  if s.ingressOn then
    (s.otl.running.streams.find? fun e => !e.egress && !e.ethernet && e.port = port && e.vc = vc).map (·.id)
  else none

/-- A frame that ended and is not yet sealed is sealed before another begins (R306). -/
def State.sealEnded (n : Nat) (s : State) : State :=
  match (s.stream n).open_ with
  | some f => if f.ended then s.sealFrame n f else s
  | none => s

/-- The correction of R51: 40.0 ns and 48 UI, with the lane rate in units of 10 Mbit/s. -/
def csiCorrection (rate : Nat) : Int := 40 * unitsNs + (if rate = 0 then 0 else 4800 * unitsNs / (rate : Int))

/-- The frame of a virtual channel that another Frame Start finds open has lost its Frame End: it is dropped (log 20). -/
def State.cutFrame (n : Nat) (s : State) : State := if (s.stream n).open_.isSome then s.dropFrame n else s

/-- CSI_FRAME_START (R51, R310, R311): the port counts its lanes and measures its rate, and a frame of the stream of
the virtual channel opens. A port without a clock takes nothing. -/
def execCsiFrameStart (port : Fin 12) (vc : Fin 4) (counter : BitVec 16) (lanes rate : Nat) (stamp : Int)
    (s : State) : Host.Outcome State Fault Refusal :=
  let s1 := s.updIng fun g => { g with ports := g.ports.modify port fun _ => { lanes := lanes, rate := rate } }
  .next (match s.csiStream port vc with
    | none => if s.ingressOn && s.otl.running.unitRun.getLsbD (3 + port.val) then s1 else s
    | some n => ((s1.sealEnded n).cutFrame n).openFrame n
        { counter := counter.toNat, arrival := stamp - csiCorrection rate, lastEdge := s.edge })

/-- A line joins the frame in progress (R311): it is padded to ROW_PITCH; a line longer than the first drops
the frame. -/
def State.landLine (n : Nat) (f : OpenFrame) (data : List Byte) (s : State) : State :=
  let first := if f.lines = 0 then data.length else f.lineBytes
  let pitch := (first + 15) / 16 * 16
  if first < data.length then s.dropFrame n
  else s.land n { f with
    payload := f.payload ++ data ++ List.replicate (pitch - data.length) 0
    raw := f.raw ++ data, lines := f.lines + 1, lineBytes := first, lastEdge := s.edge }

/-- The line buffer of a port overflows: every frame open on the port is dropped (R312). -/
def State.lineOverflow (port : Nat) (s : State) : State :=
  ((s.otl.running.streams.filter fun e => !e.egress && !e.ethernet && e.port = port).foldl (fun s e =>
    if (s.stream e.id).open_.any (!·.ended) then s.dropFrame e.id else s) s).portErr port

/-- CSI_LONG_PACKET (R309 to R312). `overflow` says that the port's line buffer overflowed at it. -/
def execCsiLongPacket (port : Fin 12) (vc : Fin 4) (dataType : BitVec 6) (headerGood crcGood overflow : Bool)
    (data : List Byte) (s : State) : Host.Outcome State Fault Refusal :=
  .next (if overflow then (if s.ingressOn then s.lineOverflow port else s)
    else match s.csiStream port vc with
    | none => s
    | some n =>
      match (s.stream n).open_ with
      | none => s
      | some f =>
        if f.ended then s
        else if !headerGood ∨ !crcGood then (s.dropFrame n).portErr port
        else if dataType.toNat ≠ (s.streamEntry n).dataType then s.portErr port
        else s.landLine n f data)

/-- CSI_EMBEDDED_DATA (R313): the first embedded line of a frame gives its sensor timestamp. -/
def execCsiEmbeddedData (port : Fin 12) (vc : Fin 4) (data : List Byte) (s : State) :
    Host.Outcome State Fault Refusal :=
  .next (match s.csiStream port vc with
    | none => s
    | some n => s.updStream n fun x => { x with open_ := x.open_.map fun f =>
        if f.ended ∨ f.sensorTime.isSome ∨ data.length < 8 then f
        else { f with sensorTime := some (beNat (data.take 8)) } })

/-- CSI_FRAME_END (R306): the frame is complete and waits for its seal edge. -/
def execCsiFrameEnd (port : Fin 12) (vc : Fin 4) (s : State) : Host.Outcome State Fault Refusal :=
  .next (match s.csiStream port vc with
    | none => s
    | some n => s.updStream n fun x => { x with open_ := x.open_.map fun f => { f with ended := true } })

/-! ## Ethernet sensor frames (R314, R315) -/

/-- The ingress stream of a stream-table entry. -/
def State.tsnStream (s : State) (tsn : Nat) : Option StreamEntry :=
  if s.ingressOn then s.otl.running.streams.find? fun e => !e.egress && e.ethernet && e.tsn = tsn else none

/-- The ports that a stream listens to (R314). -/
def State.listens (s : State) (e : StreamEntry) (p : Port) : Bool :=
  match s.otl.running.frer.find? (·.tsn = e.tsn) with
  | some f => f.ports.getLsbD (portNum p)
  | none => e.port = portNum p

/-- The fields of a sensor header, and its fragment's payload (R314). -/
structure SensorHeader where
  gptp : Bool := false
  last : Bool := false
  seq : Nat := 0
  frag : Nat := 0
  time : Nat := 0
  payload : List Byte := []
deriving DecidableEq, Repr, Inhabited

/-- The sensor header of a fragment; none where the fragment is discarded (R314). -/
def sensorHeader (data : List Byte) : Option SensorHeader :=
  let w (k : Nat) : Nat := beNat ((data.drop (4 * k)).take 4)
  let len := w 1 % 65536
  if data.length < 24 ∨ w 0 / 2 ^ 28 ≠ 1 ∨ w 0 / 65536 % 1024 ≠ 0 ∨ w 4 ≠ 0 ∨ w 5 ≠ 0 ∨ len = 0 ∨ 1476 < len ∨
      data.length - 24 < len then none
  else some
    { gptp := w 0 / 2 ^ 27 % 2 = 1, last := w 0 / 2 ^ 26 % 2 = 1, seq := w 0 % 65536, frag := w 1 / 65536,
      time := w 2 * 2 ^ 32 + w 3, payload := (data.drop 24).take len }

/-- A fragment joins the frame in progress; LAST ends it (R315). -/
def State.landFragment (n : Nat) (h : SensorHeader) (f : OpenFrame) (s : State) : State :=
  let s1 := s.land n { f with
    payload := f.payload ++ h.payload, raw := f.raw ++ h.payload, lines := f.lines + 1
    nextFrag := f.nextFrag + 1, lastEdge := s.edge }
  if h.last then s1.updStream n fun x => { x with open_ := x.open_.map fun y => { y with ended := true } } else s1

/-- A fragment whose frame is not in progress: fragment 0 opens one, another fragment is one that follows a
skipped index (R315). -/
def State.firstFragment (n : Nat) (h : SensorHeader) (stamp : Int) (s : State) : State :=
  let f : OpenFrame :=
    { counter := h.seq, arrival := stamp, sensorTime := some h.time, gptp := h.gptp, lastEdge := s.edge }
  if (s.stream n).dead = some h.seq ∧ h.frag ≠ 0 then s
  else if h.frag ≠ 0 then (s.updStream n fun x => { x with open_ := some f }).dropFrame n
  else
    let s1 := s.openFrame n f
    match (s1.stream n).open_ with
    | none => s1
    | some g => s1.landFragment n h g

/-- A checked fragment of a stream (R315). -/
def State.fragment (n : Nat) (h : SensorHeader) (stamp : Int) (s : State) : State :=
  let s1 := s.sealEnded n
  match (s1.stream n).open_ with
  | none => s1.firstFragment n h stamp
  | some f =>
    if f.counter ≠ h.seq then (s1.dropFrame n).firstFragment n h stamp
    else if f.nextFrag ≠ h.frag then s1.dropFrame n
    else s1.landFragment n h f

/-- SENSOR_FRAGMENT (R314, R315, R386): the fragment leaves the receive buffer. `stamp` is the PHY's raw receive
stamp, corrected by R50. -/
def execSensorFragment (p : Port) (tsn : BitVec 12) (stamp : Int) (data : List Byte) (s : State) :
    Host.Outcome State Fault Refusal :=
  .next (match s.tsnStream tsn.toNat with
    | none => s
    | some e =>
      let s1 := s.updPort p fun x => { x with rxq := x.rxq.eraseP (·.tsn = some tsn.toNat) }
      if !s.listens e p then s1.portErr (12 + portNum p)
      else match sensorHeader data with
        | none => s1.portErr (12 + portNum p)
        | some h => s1.fragment e.id h (s.rxStamp p stamp))

/-- FRAGMENT_TIMEOUT (R315): no fragment arrived for 2 × PERIOD. -/
def execFragmentTimeout (stream : Fin 48) (s : State) : Host.Outcome State Fault Refusal :=
  let e := s.streamEntry stream
  .next (match (s.stream stream).open_ with
    | none => s
    | some f =>
      if e.ethernet ∧ !f.ended ∧ f.lastEdge + 2 * e.periodEdges ≤ s.edge then s.dropFrame stream else s)

end Sys2Proof.Machine
end

