-- ==== Sys2Proof/Machine/Ethernet.lean ====
section
/-!
DEFINITION. The Ethernet ports and the ring (R376 to R394, R403): gate control lists, transmission, reception with
policing, FRER and forwarding, links, LLDP, ARP and the by-pass.
-/

namespace Sys2Proof.Machine

open Sys2Proof

/-! ## Gate control lists (R383, R64) -/

/-- The list of a port restarts at entry 0 on this edge (R383). -/
def State.restartGates (p : Port) (s : State) : State :=
  (s.accrue p).updPort p fun x => { x with gateIndex := 0, gateEdge := s.edge }

/-- ETH_GATE_ANCHOR (R56, R383): an ETH_GATE firing restarts the list of its port, which UNIT names. -/
def execEthGateAnchor (e : BitVec 12) (s : State) : Host.Outcome State Fault Refusal :=
  .next (s.fire 6 e.toNat (fun _ => false) fun r s => s.restartGates (portOf r.unit))

/-- GATE_LIST_ADVANCE (R383): INTERVAL ticks after the entry began, the next entry begins; the last wraps. -/
def execGateListAdvance (p : Port) (s : State) : Host.Outcome State Fault Refusal :=
  .next (match s.gateRec p with
    | none => s
    | some g =>
      let x := s.ethPort p
      let due := x.gateEdge + (g.entries.getD x.gateIndex {}).interval
      if g.entries.isEmpty ∨ s.edge < due then s
      else (s.accrue p).updPort p fun x => { x with
        gateIndex := (x.gateIndex + 1) % g.entries.length, gateEdge := due })

/-- Whether the window of a queued frame has closed: with a gate control list, the gate of its class has closed since
it was queued; without one, its apply-at time has come (R64). -/
def State.windowClosed (s : State) (p : Port) (f : TxFrame) : Bool := match s.gateRec p with
  | none => f.window.any fun w => decide (w.2 ≤ s.now)
  | some g =>
    let x := s.ethPort p
    let n := g.entries.length
    !gateIn g.entries x.gateIndex f.tc && gateIn g.entries ((x.gateIndex + n - 1) % n) f.tc &&
      decide (f.queuedEdge < x.gateEdge)

def State.dropQueued (p : Port) (id : Nat) (s : State) : State :=
  (s.accrue p).updPort p fun x => { x with txq := x.txq.filter (·.id != id) }

/-- GATE_WINDOW_CLOSE (R64, R377): an apply-at frame whose window closes is discarded and counted; so is a frame that
a down link holds behind a gate, uncounted. -/
def execGateWindowClose (p : Port) (id : Nat) (s : State) : Host.Outcome State Fault Refusal :=
  .next (match (s.ethPort p).txq.find? (·.id = id) with
    | none => s
    | some f =>
      if !s.windowClosed p f then s
      else if f.window.isSome then (s.dropQueued p id).bump .ethGateMiss
      else if (s.ethPort p).link then s
      else s.dropQueued p id)

/-- The gate of class `c` on a port opens and closes, so a frame of the class has a window that closes (R377). -/
def State.windows (s : State) (p : Port) (c : Nat) : Bool := (s.gateRec p).any fun g =>
  (List.range g.entries.length).any (fun i => gateIn g.entries i c) &&
    (List.range g.entries.length).any fun i => !gateIn g.entries i c

/-- A frame that a down link has held for 1 ms and whose gate has no window to close (R377). -/
def State.heldTooLong (s : State) (p : Port) (f : TxFrame) : Bool :=
  f.window.isNone && !s.windows p f.tc && decide (f.queuedEdge + edgesMs ≤ s.edge)

/-- DOWN_LINK_DISCARD (R377): a frame without a gate window or an apply-at window leaves a down link's queue after
1 ms. -/
def execDownLinkDiscard (p : Port) (s : State) : Host.Outcome State Fault Refusal :=
  .next (if (s.ethPort p).link then s
    else (s.accrue p).updPort p fun x => { x with txq := x.txq.filter fun f => !s.heldTooLong p f })

/-! ## Transmission (R378, R382, R383) -/

/-- Bits of a frame on the medium: at least 64 B with its FCS, preamble 8 B and inter-frame gap 12 B. -/
def wireBits (bytes : Nat) : Nat := 8 * (max 64 (bytes + 4) + 20)

/-- CTRL ticks that a number of bits takes at a speed (R376), rounded up. -/
def wireTicks (speed bits : Nat) : Nat :=
  let k := if speed = 2 then 2 else if speed = 1 then 4 else 8
  (bits * k + 124) / 125

/-- The EtherType of a frame's bytes, behind its VLAN tag. -/
def etherTypeOf (b : List Byte) : Nat :=
  let t := beNat ((b.drop 12).take 2)
  if t = 0x8100 then beNat ((b.drop 16).take 2) else t

/-- LLDP, gPTP and EAPOL are sent and accepted in the clear (R403). -/
def clearType (t : Nat) : Bool := t = 0x88CC || t = 0x88F7 || t = 0x888E

/-- MACsec protects a port (R403). -/
def State.macsecOn (s : State) (p : Port) : Bool := !isRing p && (s.netPort p).macsec

/-- A frame may start now: its window is open, its gate stays open until its last bit, its class has credit, the
medium is free for it, and MACsec can protect it (R64, R382, R383, R403). -/
def State.mayStart (s : State) (p : Port) (f : TxFrame) : Bool :=
  let x := s.ethPort p
  let t := wireTicks x.speed (wireBits f.bytes.length)
  let gate := s.gateOpen p f.tc && (s.gateLeft p f.tc).all (decide <| t ≤ ·)
  let window := f.window.all fun w => (s.gateRec p).isSome ||
    (decide (w.1 ≤ s.now) && decide (s.now + (t : Int) * unitsEdge ≤ w.2))
  let credit := !s.shaped p f.tc || decide (0 ≤ x.credit.getD f.tc 0)
  let free := decide (x.busyUntil ≤ s.edge) ||
    (s.express p f.tc && x.preemptVerified && decide (x.expressUntil ≤ s.edge))
  gate && window && credit && free && (!s.macsecOn p || x.macsecUp || clearType (etherTypeOf f.bytes))

/-- FRAME_TRANSMIT (R50, R383): the oldest frame of the highest class that may start leaves; class 7 is the highest. Its
send stamp, with the port's correction added, is kept for the port and serves what the frame needs it for. -/
def execFrameTransmit (p : Port) (s : State) : Host.Outcome State Fault Refusal :=
  let s0 := s.accrue p
  let x := s0.ethPort p
  let heads := [7, 6, 5, 4, 3, 2, 1, 0].filterMap fun c => x.txq.find? (·.tc = c)
  .next (if !x.link then s
    else match heads.find? (s0.mayStart p) with
      | none => s
      | some f =>
        let bits := wireBits f.bytes.length
        let t := wireTicks x.speed bits
        let stamp := s.now + (Config.egressDelay s.fresh : Int) + txCorrection x.speed
        ((({ s0 with fresh := s0.fresh + 1 }).updPort p fun x => { x with
          txq := x.txq.filter (·.id != f.id)
          txStamp := stamp
          busyUntil := max s.edge x.busyUntil + t
          expressUntil := if s0.express p f.tc then s.edge + t else x.expressUntil
          credit := if s0.shaped p f.tc then x.credit.modify f.tc (· - (160 * bits : Nat)) else x.credit }).bump
          (.ethTxFrames p)).stampSent p f.stampUse stamp)

/-! ## Egress streams (R381, R385) -/


def State.frerOf (s : State) (tsn : Nat) : FrerState := (s.eth.frer.find? (·.tsn = tsn)).getD { tsn := tsn }

def State.updFrer (tsn : Nat) (f : FrerState → FrerState) (s : State) : State :=
  let x := f (s.frerOf tsn)
  s.updEth fun e => { e with frer := x :: e.frer.filter (·.tsn != tsn) }

/-- The R-TAG behind the VLAN tag of a frame (R385). -/
def withRtag (seq : BitVec 16) (b : List Byte) : List Byte :=
  b.take 16 ++ natBytesBE 2 0xF1C1 ++ natBytesBE 2 0 ++ natBytesBE 2 seq.toNat ++ b.drop 16

/-- The ports that a frame of an egress stream leaves by: both ring ports where FRER replicates it, and else the
stream's port (R385). -/
def StreamEntry.sendPorts (e : StreamEntry) (r : Option FrerEntry) : List Port :=
  if r.any fun r => r.ports.getLsbD 0 && r.ports.getLsbD 1 then [.ringA, .ringB] else [portOf e.port]

/-- A frame of an egress stream is queued: its template and the bytes behind it (R381). Copies carry one R-TAG where
a FRER record or the table entry asks for it (R380, R385, log 21). -/
def State.sendStream (e : StreamEntry) (data : List Byte) (window : Option (Int × Int)) (s : State) : State :=
  let n := (s.eth.table.entry e.tsn).getD {}
  let r := s.otl.running.frer.find? (·.tsn = e.tsn)
  let tagged := r.isSome || n.rtag
  let bytes := n.template ++ data
  let f : TxFrame :=
    { tc := n.tc, window := window, stream := some e.id
      bytes := if tagged then withRtag (s.frerOf e.tsn).txSeq bytes else bytes }
  let s1 := (e.sendPorts r).foldl (fun s p => s.queueFrame p f) s
  if tagged then s1.updFrer e.tsn fun x => { x with txSeq := x.txSeq + 1 } else s1

/-! ## Reception (R378, R382 to R386, R394, R395) -/

/-- Bytes of a frame without its FCS. -/
def frameSize (f : Frame) : Nat := 14 + 4 * toBit f.vlan + 6 * toBit f.rtag.isSome + f.payload.length

/-- The bytes of a frame. -/
def frameBytes (f : Frame) : List Byte :=
  natBytesBE 6 f.dst.toNat ++ natBytesBE 6 f.src.toNat ++
  (if f.vlan then natBytesBE 2 0x8100 ++ natBytesBE 2 (f.pcp.toNat * 2 ^ 13 + f.vid.toNat) else []) ++
  (match f.rtag with
   | some q => natBytesBE 2 0xF1C1 ++ natBytesBE 2 0 ++ natBytesBE 2 q.toNat
   | none => []) ++
  natBytesBE 2 f.etherType.toNat ++ f.payload

/-- The class of a received frame (R378). -/
def frameCls (f : Frame) : Nat := if f.vlan then f.pcp.toNat else 0

/-- Stream identification: the first valid entry that the frame matches (R380, R382). -/
def NetTable.identify (t : NetTable) (f : Frame) : Option (Nat × NetEntry) :=
  if f.vlan then t.entries.find? fun e => e.2.vid = f.vid && e.2.mac = (if e.2.bySource then f.src else f.dst)
  else none

/-- The bytes of a share of the receive buffer of a port that hold a class (R386). -/
def rxShare (p : Port) (c : Nat) : Nat :=
  1024 * (if c = 7 then 32 else if c = 6 then 16 else if isRing p then 464 else 80)

/-- The bytes that frames of the share of class `c` take now. -/
def EthPort.rxUsed (x : EthPort) (c : Nat) : Nat :=
  ((x.rxq.filter fun r => !r.limian && (if c = 7 then r.tc = 7 else if c = 6 then r.tc = 6 else decide (r.tc < 6))).map
    (·.bytes)).foldl (· + ·) 0

/-- The flow meter of a stream, in tokens of 1/1600 bit: committed rate CIR, burst CBS_BYTES, colour-blind, no excess
rate (R382). The result says whether the frame conforms. -/
def State.meter (n : Nat) (e : NetEntry) (bytes : Nat) (s : State) : Bool × State :=
  if e.cir = 0 then (true, s)
  else
    let cap := e.cbsBytes * 8 * 1600
    let m := (s.eth.meters.find? (·.tsn = n)).getD { tsn := n, tokens := cap, edge := s.edge }
    let tokens := min cap (m.tokens + (s.edge - m.edge) * e.cir)
    let need := (bytes + 4) * 8 * 1600
    let ok := decide (need ≤ tokens)
    let new : Meter := { tsn := n, tokens := if ok then tokens - need else tokens, edge := s.edge }
    (ok, s.updEth fun x => { x with meters := new :: x.meters.filter (·.tsn != n) })

/-- What vector recovery finds (R385; IEEE 802.1CB-2017 7.4.3.4). -/
inductive Recovery where
  | accept | duplicate | rogue
deriving DecidableEq, Repr, Inhabited

/-- Vector recovery with a history of `h` numbers (R385). -/
def FrerState.recover (x : FrerState) (h : Nat) (seq : BitVec 16) (edge : Nat) : Recovery × FrerState :=
  match x.last with
  | none => (.accept, { x with last := some seq, seen := 1, lastEdge := edge })
  | some l =>
    let d := (seq - l).toInt
    if (h : Int) ≤ d.natAbs then (.rogue, x)
    else if d ≤ 0 then
      let k := d.natAbs
      if x.seen.getLsbD k then (.duplicate, { x with lastEdge := edge })
      else (.accept, { x with seen := x.seen ||| BitVec.ofNat 32 (2 ^ k), lastEdge := edge })
    else (.accept, { x with last := some seq, seen := (x.seen <<< d.natAbs) ||| 1, lastEdge := edge })

/-- A frame of a stream joins the receive buffer for ingress (R386). -/
def State.rxStream (p : Port) (n : Nat) (f : Frame) (s : State) : State :=
  let r : RxFrame := { tc := frameCls f, tsn := some n, bytes := frameSize f, stamp := (s.ethPort p).rxStamp }
  s.updPort p fun x => { x with rxq := x.rxq ++ [r] }

/-- Elimination of an ingress stream with a FRER entry (R385). -/
def State.eliminate (p : Port) (n : Nat) (r : FrerEntry) (f : Frame) (s : State) : State :=
  match f.rtag with
  | none => s.bump (.ethFrerRogue p)
  | some q =>
    if !r.ports.getLsbD (portNum p) then s.bump (.ethFrerRogue p)
    else
      let v := (s.frerOf n).recover r.history q s.edge
      match v.1 with
      | .accept => (s.updFrer n fun _ => v.2).rxStream p n f
      | .duplicate => (s.updFrer n fun _ => v.2).bump (.ethFrerDup p)
      | .rogue => s.bump (.ethFrerRogue p)

/-- A frame addressed to one of the ports of the T7 (R376). -/
def toDevice (f : Frame) : Bool := allPorts.any fun p => f.dst = macOf p

/-- A frame that no consumer takes is discarded; on a ring port it counts unless it is addressed to the T7 (R384). -/
def State.noTaker (p : Port) (f : Frame) (s : State) : State :=
  if isRing p ∧ !toDevice f then s.bump .ethFwdDiscard else s

/-- A frame of a table entry: forwarded, eliminated, delivered or discarded (R382, R384, R385). -/
def State.rxEntry (p : Port) (n : Nat) (e : NetEntry) (f : Frame) (s : State) : State :=
  let own := allPorts.any fun q => f.src = macOf q
  let fwd := e.fwd && isRing p && !own
  let s1 := if fwd then s.queueFrame (if p = .ringA then .ringB else .ringA) { tc := frameCls f, bytes := frameBytes f } else s
  match s.tsnStream n with
  | some st =>
    match s.otl.running.frer.find? (·.tsn = n) with
    | some r => if e.fwd then s1.rxStream p n f else s1.eliminate p n r f
    | none => if s.listens st p then s1.rxStream p n f else if fwd then s1 else s1.noTaker p f
  | none => if fwd then s1 else s1.noTaker p f

/-- The Limian frame that a received frame carries: over Ethernet, or as IPv4 UDP to port 47310 at ETH_IP_ADDR
(R394). Fragments are not supported. -/
def State.limianPayload (s : State) (f : Frame) : Option (List Byte) :=
  if f.etherType = 0x88B5 then some f.payload
  else if f.etherType = 0x0800 ∧ s.regs.ipAddr ≠ 0 then
    let b (k : Nat) : Nat := (f.payload.getD k 0).toNat
    let ihl := 4 * (b 0 % 16)
    if b 0 / 16 = 4 ∧ 20 ≤ ihl ∧ b 9 = 17 ∧ (b 6 * 256 + b 7) % 2 ^ 14 = 0 ∧
        beNat ((f.payload.drop 16).take 4) = s.regs.ipAddr.toNat ∧
        beNat ((f.payload.drop (ihl + 2)).take 2) = 47310 then
      some (f.payload.drop (ihl + 8))
    else none
  else none

/-- A Limian frame at a port: a bad header is counted; a number already delivered is acknowledged again; a number
beyond the next is counted; the next waits in a receive slot for its delivery (R386, R395, R396). -/
def State.rxLimian (p : Port) (b : List Byte) (s : State) : State :=
  let w (k : Nat) : Word := wd (beNat ((b.drop (4 * k)).take 4))
  let sess := fld (w 0) 7 0
  let type := fld (w 0) 23 16
  let x := s.session sess
  let slots := ((s.ethPort p).rxq.filter (·.limian)).length
  let hold (i : Option Nat) (s : State) : State :=
    if 256 ≤ slots then s.bump (.ethRxDrop p)
    else
      let r : RxFrame := { tc := 2, limian := true, session := i, bytes := b.length, stamp := (s.ethPort p).rxStamp }
      s.updPort p fun y => { y with rxq := y.rxq ++ [r] }
  let good := b.length ≥ 20 && fld (w 0) 31 24 = 1 && fld (w 0) 15 10 = 0 && fld (w 3) 31 16 + 20 ≤ b.length &&
    decide (fld (w 3) 31 16 ≤ 1452) && decide (fld (w 3) 15 0 ≤ 256) &&
    (if type = 2 then sess = 255 && w 4 = 0 else decide (sess < 16) && x.open_ && x.port = p && w 4 = x.token)
  if !good then s.bump .ethLimBad
  else if type = 1 then s
  else if type = 2 then hold none s
  else
    let queued := ((s.ethPort p).rxq.filter (·.session = some sess)).length
    let d := (w 1 - (x.rxNext + wd queued)).toInt
    if d = 0 then hold (some sess) s
    else if d < 0 then s.sendAck sess
    else s.bump .ethLimOoo

/-- A frame that matches no entry: gPTP, LLDP, EAPOL, ARP and Limian go by their type, any other is discarded
(R382, R394). -/
def State.rxByType (p : Port) (f : Frame) (s : State) : State :=
  if clearType f.etherType.toNat then s
  else if isRing p then s.noTaker p f
  else match s.limianPayload f with
    | some b => s.rxLimian p b
    | none => s

/-- A Limian frame takes a receive slot of its own, not a share of its class (R386). -/
def State.takesSlot (s : State) (p : Port) (f : Frame) : Bool :=
  !isRing p && (s.eth.table.identify f).isNone && !clearType f.etherType.toNat && (s.limianPayload f).isSome

/-- FRAME_RECEIVE (R376 to R386, R403): a received frame is counted, checked by MACsec, given its share of the
buffer, policed, and eliminated, forwarded or handed on by its stream or its type. Its stamp, less the port's
correction, is kept for the port and with the frame (R50). -/
def execFrameReceive (p : Port) (f : Frame) (stamp : Int) (s : State) : Host.Outcome State Fault Refusal :=
  .next (if !(s.ethPort p).link then s
    else
      let s1 := (s.updPort p fun x => { x with rxStamp := s.rxStamp p stamp }).bump (.ethRxFrames p)
      let clear := clearType f.etherType.toNat
      if s.macsecOn p && !clear && f.macsec != .valid then s1.bump (.ethMacsecDrop p)
      else if !s.macsecOn p && f.macsec != .clear then s1.noTaker p f
      else if rxShare p (frameCls f) < (s.ethPort p).rxUsed (frameCls f) + frameSize f ∧ !s.takesSlot p f then
        s1.bump (.ethRxDrop p)
      else match s.eth.table.identify f with
        | none => s1.rxByType p f
        | some e =>
          if e.2.maxSdu ≠ 0 ∧ e.2.maxSdu < f.payload.length + 6 * toBit f.rtag.isSome then s1.bump (.ethPsfpDrop p)
          else
            let m := s1.meter e.1 e.2 (frameSize f)
            if m.1 then m.2.rxEntry p e.1 e.2 f else m.2.bump (.ethPsfpDrop p))

/-- FRER_RECOVERY_RESET (R385): 100 ms with no copy. -/
def execFrerRecoveryReset (tsn : BitVec 12) (s : State) : Host.Outcome State Fault Refusal :=
  let x := s.frerOf tsn.toNat
  .next (if x.last.isSome ∧ x.lastEdge + 100 * edgesMs ≤ s.edge then
      s.updFrer tsn.toNat fun y => { y with last := none, seen := 0 }
    else s)

/-! ## Links (R377, R383, R479) -/

/-- gPTP of a port starts afresh; the numbers of its messages go on. -/
def GptpPort.down (g : GptpPort) : GptpPort :=
  { pdelaySeq := g.pdelaySeq, syncSeq := g.syncSeq, announceSeq := g.announceSeq, syncsSent := g.syncsSent
    txSyncEdge := g.txSyncEdge, txAnnounceEdge := g.txAnnounceEdge, txPdelayEdge := g.txPdelayEdge }

/-- A port loses its link (R377): its by-standing state falls, and gPTP on it ends. -/
def State.dropLink (p : Port) (s : State) : State :=
  if (s.ethPort p).link then
    ((((s.bump (.ethLinkDown p)).accrue p).updPort p fun x => { x with
      link := false, speed := 3, phyMaster := false, macsecUp := false, preemptVerified := false, verifyTries := 0
      busyUntil := 0, expressUntil := 0 }).updGptp p GptpPort.down).reselect false
  else s

/-- LINK_DOWN (R377). -/
def execLinkDown (p : Port) (s : State) : Host.Outcome State Fault Refusal := .next (s.dropLink p)

/-- The slot that SEC_MACSEC_CAK names for a port holds a CAK (R457, R464). -/
def State.cakReady (s : State) (p : Port) : Bool :=
  let n := if p = .peer then fld (s.regs.cak.setWidth 32) 3 0 else fld (s.regs.cak.setWidth 32) 7 4
  let k := s.sec.slots.getD n {}
  k.valid && k.cak

/-- LINK_UP (R377, R383, R392, R478): the negotiated speed is at most SPEED_MAX, a ring port needs the by-pass open,
the gate list starts at entry 0, and gPTP starts with a Pdelay_Req. `verified` says whether the partner answers the
verification of frame preemption, which runs where a class is express (R382). -/
def execLinkUp (p : Port) (speed : Fin 3) (master verified : Bool) (s : State) : Host.Outcome State Fault Refusal :=
  let e := s.netPort p
  .next (if !e.enable ∨ (s.ethPort p).link ∨ e.speedMax < speed.val ∨ (isRing p ∧ s.eth.bypass ≠ .open_) then s
    else
      let preempt := verified && s.eth.table.express.getD (portNum p) 0 != 0
      let s1 := (s.updPort p fun x => { x with
        link := true, speed := speed, phyMaster := master, macsecUp := s.macsecOn p && s.cakReady p
        preemptVerified := preempt, verifyTries := 0, busyUntil := 0, expressUntil := 0
        verifyEdge := s.edge, lldpEdge := s.edge }).restartGates p
      let s2 := s1.updEth fun x => { x with
        opening := x.opening && !((s1.ethPort .ringA).link && (s1.ethPort .ringB).link) }
      if s2.gptpOn p then
        ((s2.updGptp p fun g => { g with rxAnnounceEdge := s.edge }).sendPdelayReq p).reselect false
      else s2)

/-- A verification of frame preemption has gone 10 ms without a response (R382). -/
def State.verifyLate (s : State) (p : Port) : Bool :=
  let x := s.ethPort p
  x.link && !x.preemptVerified && s.eth.table.express.getD (portNum p) 0 != 0 && decide (x.verifyTries < 3) &&
    decide (x.verifyEdge + 10 * edgesMs ≤ s.edge)

/-- PREEMPTION_VERIFY_TIMEOUT (R382): 10 ms without a response; the third of them ends verification (IEEE 802.3br),
and PREEMPT_VERIFIED stays clear. -/
def execPreemptionVerifyTimeout (p : Port) (s : State) : Host.Outcome State Fault Refusal :=
  .next (if s.verifyLate p then
      s.updPort p fun x => { x with verifyTries := x.verifyTries + 1, verifyEdge := s.edge }
    else s)

/-! ## LLDP and ARP (R387, R388, R394) -/

/-- An LLDP TLV. -/
def tlv (type : Nat) (v : List Byte) : List Byte := natBytesBE 2 (type * 512 + v.length) ++ v

/-- The announcement TLV: pending, or less than 5 s past its instant (R387). -/
def State.announceTlv (s : State) : List Byte := match s.eth.instant with
  | some (t, open_) =>
    if s.now ≤ t + 5 * unitsSec then
      tlv 127 (natBytesBE 3 Config.oui.toNat ++ natBytesBE 1 1 ++ ptpBytes t ++ natBytesBE 1 (if open_ then 1 else 2))
    else []
  | none => []

/-- The LLDPDU of a port to a group address; class 6 (R378, R387). -/
def State.sendLldp (p : Port) (dst : BitVec 48) (s : State) : State :=
  let bytes := natBytesBE 6 dst.toNat ++ natBytesBE 6 (macOf p).toNat ++ natBytesBE 2 0x88CC ++
    tlv 1 (natBytesBE 1 4 ++ natBytesBE 6 (macOf .uplink).toNat) ++
    tlv 2 (natBytesBE 1 7 ++ natBytesBE 1 (portNum p)) ++ tlv 3 (natBytesBE 2 4) ++ s.announceTlv ++ tlv 0 []
  s.queueFrame p { tc := 6, bytes := bytes }

/-- The nearest-bridge address (R387). -/
def nearestBridge : BitVec 48 := 0x0180C200000E

/-- An LLDPDU of a port that is enabled and up: to the nearest bridge, and on a ring port to RING_LLDP where the
network table names it (R387). -/
def State.lldp (p : Port) (s : State) : State :=
  if (s.netPort p).enable ∧ (s.ethPort p).link then
    let s1 := s.sendLldp p nearestBridge
    if isRing p ∧ s.eth.table.ringLldp ≠ 0 then s1.sendLldp p s.eth.table.ringLldp else s1
  else s

/-- A second has passed since the newest LLDPDU of a port that is enabled and up, or since its link came up (R387). -/
def State.lldpDue (s : State) (p : Port) : Bool :=
  (s.netPort p).enable && (s.ethPort p).link && decide ((s.ethPort p).lldpEdge + edgesSec ≤ s.edge)

/-- LLDP_TRANSMIT (R387): every second. -/
def execLldpTransmit (p : Port) (s : State) : Host.Outcome State Fault Refusal :=
  .next (if s.lldpDue p then (s.lldp p).updPort p fun x => { x with lldpEdge := s.edge } else s)

/-- The partner was heard on a port (R388). -/
def Partner.heard (n until_ : Nat) (y : Partner) : Partner := { y with expiry := y.expiry.set n until_ }

/-- LLDP_RECEIVE (R388): a MAC-address chassis makes or refreshes its entry, TTL 0 removes it, and a new partner
that finds 64 entries is refused and counted. -/
def execLldpReceive (p : Port) (macSubtype : Bool) (chassis : BitVec 48) (ttl : BitVec 16) (s : State) :
    Host.Outcome State Fault Refusal :=
  let mine (x : Option Partner) : Bool := x.any (·.chassis = chassis)
  let until_ := s.edge + ttl.toNat * edgesSec
  .next (if !macSubtype ∨ !(s.ethPort p).link then s
    else if ttl = 0 then s.updEth fun e => { e with partners := e.partners.map fun x => if mine x then none else x }
    else if s.eth.partners.any mine then
      let f (x : Option Partner) : Option Partner := if mine x then x.map (Partner.heard (portNum p) until_) else x
      s.updEth fun e => { e with partners := e.partners.map f }
    else match s.eth.partners.findIdx? (·.isNone) with
      | some k =>
        let y : Partner := { chassis := chassis, expiry := ([0, 0, 0, 0] : List Nat).set (portNum p) until_ }
        s.updEth fun e => { e with partners := e.partners.set k (some y) }
      | none => s.bump .ethPartnerFull)

/-- PARTNER_EXPIRE (R388): the TTL has run out on every port. -/
def execPartnerExpire (n : Fin 64) (s : State) : Host.Outcome State Fault Refusal :=
  .next (match s.eth.partners.getD n none with
    | none => s
    | some y =>
      if y.expiry.all fun e => decide (e ≤ s.edge) then
        s.updEth fun e => { e with partners := e.partners.set n none }
      else s)

/-- ARP_REQUEST (R394): the T7 answers for ETH_IP_ADDR on PEER and UPLINK; 0 disables the routed form. -/
def execArpRequest (p : Port) (target : Word) (asker : BitVec 48) (askerIp : Word) (s : State) :
    Host.Outcome State Fault Refusal :=
  let bytes := natBytesBE 6 asker.toNat ++ natBytesBE 6 (macOf p).toNat ++ natBytesBE 2 0x0806 ++
    natBytesBE 2 1 ++ natBytesBE 2 0x0800 ++ natBytesBE 1 6 ++ natBytesBE 1 4 ++ natBytesBE 2 2 ++
    natBytesBE 6 (macOf p).toNat ++ natBytesBE 4 s.regs.ipAddr.toNat ++
    natBytesBE 6 asker.toNat ++ natBytesBE 4 askerIp.toNat
  .next (if isRing p ∨ !(s.ethPort p).link ∨ s.regs.ipAddr = 0 ∨ target ≠ s.regs.ipAddr then s
    else s.queueFrame p { tc := 0, bytes := bytes })

/-! ## The by-pass (R389 to R393) -/

/-- A boot or later Outline runs: neither bring-up nor a recovery (R391). -/
def State.outlineRuns (s : State) : Bool := s.glb.stage = .booted || s.glb.stage = .ready

/-- RING_A and RING_B are both enabled in NET_PORT (R391). -/
def State.ringEnabled (s : State) : Bool :=
  [0, 1].all fun n => s.otl.running.ports.any fun e => e.port = n && e.enable

/-- ETH_BYPASS_STATUS.NOT_IN_RING (R391, R393). -/
def State.notInRing (s : State) : Bool := s.outlineRuns && !s.ringEnabled && s.eth.bypass != .open_

/-- The first whole second that lies at least LEAD seconds ahead (R391). -/
def State.leadInstant (s : State) : Int :=
  let t := s.now + (s.regs.lead.toNat : Int) * unitsSec
  (t + unitsSec - 1).fdiv unitsSec * unitsSec

/-- The BYPASS event with an instant (R402). -/
def State.bypassEvent (action : Nat) (t : Int) (s : State) : State :=
  s.event none 5 (wd action :: bytesWordsBE 3 (ptpBytes t ++ [0, 0]))

/-- An opening or closing instant is chosen: it goes out as an event, and its announcements begin (R391 to R393). -/
def State.chooseInstant (open_ : Bool) (s : State) : State :=
  let t := s.leadInstant
  (((s.updEth fun e => { e with
    instant := some (t, open_), bypassTime := compactOf t, announceEdge := s.edge }).bypassEvent
    (if open_ then 1 else 2) t).lldp .uplink).lldp .peer

/-- The conditions of R391 hold, and no request or failure keeps the by-pass closed (R392, R393). -/
def State.mayArm (s : State) : Bool :=
  s.eth.bypass = .closed && !s.eth.noReopen && decide (s.eth.attempts.toNat < 3) && decide (s.eth.retryEdge ≤ s.edge) &&
    s.tb.everLocked && s.outlineRuns && s.ringEnabled

/-- An opening instant is chosen where the conditions of R391 hold. -/
def State.armBypass (s : State) : State :=
  if s.mayArm then
    (s.updEth fun e => { e with bypass := .armed }).chooseInstant true
  else s

/-- BYPASS_ARM (R391, R392). -/
def execBypassArm (s : State) : Host.Outcome State Fault Refusal := .next s.armBypass

/-- An announced instant is pending: an opening while ARMED, a closing while OPEN (R391, R393). -/
def State.bypassPending (s : State) : Bool := match s.eth.instant with
  | none => false
  | some (_, o) => if o then s.eth.bypass = .armed else s.eth.bypass = .open_

/-- BYPASS_ANNOUNCE (R391, R392): the pending instant goes out on UPLINK and PEER every 100 ms. -/
def execBypassAnnounce (s : State) : Host.Outcome State Fault Refusal :=
  .next (if s.bypassPending then
      (((s.lldp .uplink).lldp .peer)).updEth fun e => { e with announceEdge := s.edge }
    else s)

/-- BYPASS_OPEN (R392): at O the switches open and both ring ports begin training. -/
def execBypassOpen (s : State) : Host.Outcome State Fault Refusal :=
  .next (match s.eth.instant with
    | some (t, true) =>
      if s.eth.bypass = .armed ∧ t ≤ s.now then s.updEth fun e => { e with bypass := .open_, opening := true } else s
    | _ => s)

/-- The switches close: the ring PHYs are off the ring (R389). -/
def State.closeSwitches (st : BypassState) (s : State) : State :=
  ((s.dropLink .ringA).dropLink .ringB).updEth fun e => { e with bypass := st, opening := false }

/-- BYPASS_OPEN_FAIL (R392): a ring link is not up 2 s after O. The record's ACTION is RETRY, or NONE after the
third attempt. -/
def execBypassOpenFail (s : State) : Host.Outcome State Fault Refusal :=
  .next (match s.eth.instant with
    | some (t, _) =>
      if s.eth.bypass = .open_ ∧ s.eth.opening ∧ t + 2 * unitsSec ≤ s.now then
        let n := s.eth.attempts.toNat + 1
        let last := decide (3 ≤ n)
        (((s.closeSwitches (if last then .failed else .closed)).updEth fun e => { e with
          attempts := BitVec.ofNat 2 (min 3 n), openFail := true, retryEdge := s.edge + 10 * edgesSec }).report
          0x11 0 5 (if last then 0 else 1) 0x0062 none 0 n).bypassEvent 3 t
      else s
    | none => s)

/-- BYPASS_CLOSE (R393): at the announced closing instant the by-pass closes. -/
def execBypassClose (s : State) : Host.Outcome State Fault Refusal :=
  .next (match s.eth.instant with
    | some (t, false) => if s.eth.bypass = .open_ ∧ t ≤ s.now then s.closeSwitches .closed else s
    | _ => s)

/-- A write to ETH_BYPASS_CTRL (R391 to R393, R404): LEAD from 1 to 10; RETRY clears ATTEMPTS and opens again;
CLOSE_REQ while OPEN chooses a closing instant. -/
def State.bypassCtrl (v : Word) (s : State) : State :=
  let lead := fld v 3 0
  let s1 := if 1 ≤ lead ∧ lead ≤ 10 then s.updRegs fun r => { r with lead := BitVec.ofNat 4 lead } else s
  let s2 := if bit v 8 then
      (s1.updEth fun e => { e with
        attempts := 0, noReopen := false, retryEdge := 0
        bypass := if e.bypass = .failed then .closed else e.bypass }).armBypass
    else s1
  if bit v 9 ∧ s2.eth.bypass = .open_ ∧ !s2.bypassPending then
    (s2.updEth fun e => { e with noReopen := true }).chooseInstant false
  else s2

/-- BYPASS_CLOSE_REQ (R393, R404): a write of ETH_BYPASS_CTRL with CLOSE_REQ. -/
def execBypassCloseReq (v : Word) (s : State) : Host.Outcome State Fault Refusal :=
  .next (if bit v 9 then s.bypassCtrl v else s)

/-- BYPASS_RETRY (R393, R404): a write of ETH_BYPASS_CTRL with RETRY. -/
def execBypassRetry (v : Word) (s : State) : Host.Outcome State Fault Refusal :=
  .next (if bit v 8 then s.bypassCtrl v else s)

end Sys2Proof.Machine
end

