-- ==== Sys2Proof/Machine/Limian.lean ====
section
/-!
DEFINITION. Limian sessions (R395 to R398): opening, closing, acknowledgement, retransmission and time-outs.
-/

namespace Sys2Proof.Machine

open Sys2Proof

/-- A session that is gone: no reply of an operation that it started reaches a later session of its number. -/
def noSession : Nat := 16

/-- A job of a closed session reports to its partition's queue (R397, R400). -/
def JobOrigin.orphan (i : Nat) : JobOrigin → JobOrigin
  | .submitted sess tag => if sess = i then .submitted noSession tag else .submitted sess tag
  | o => o

/-- Session `i` closes (R398): loads in progress leave no version (R401); accepted jobs and commands go on (R397). -/
def State.closeSession (i : Nat) (s : State) : State :=
  let s0 := s.dropLoads (·.sess = i)
  let s1 := s0.updTir fun t => { t with
    checkWaits := t.checkWaits.map fun w => if w.sess = i then { w with sess := noSession } else w }
  let s2 := s1.updJobs fun j => { j with list := j.list.map fun x => { x with origin := x.origin.orphan i } }
  let s3 := s2.updCtx fun c => { c with
    exports_ := c.exports_.map fun x => if x.sess = i then { x with sess := noSession } else x
    swaps := c.swaps.map fun x => { x with reply := x.reply.filter (·.1 != i) }
    waits := c.waits.map fun x => if x.sess = i then { x with sess := noSession } else x }
  let port := (s.session i).port
  (s3.updPort port fun x => { x with rxq := x.rxq.filter (·.session != some i) }).updSession i fun _ => {}

/-- A reply to an OPEN that is refused: it belongs to no session (R398, log 22). -/
def State.refuseOpen (p : Port) (seq : Word) (st : Byte) (s : State) : State :=
  s.queueFrame p (s.limFrame p 255 0x03 1 0 (seq + 1) 0 (limBody (.openReply st 255 0 0)))

/-- The partitions that a session may name: those of the running Outline, or 0xF for a device session (R398). -/
def State.openable (s : State) (p : Nat) : Bool := p = 15 || (s.partRec p).isSome

/-- LIMIAN_OPEN (R394 to R398): on PEER or UPLINK. A partition that the running Outline lacks gives NO_RIGHTS; a
17th session or a third device session gives QUEUE_FULL. The number, the token and the first SEQ of the T7 are free.
In firmware recovery the boot ROM serves one device session (R454). -/
def execLimianOpen (p : Port) (seq w0 : Word) (credits : BitVec 16) (s : State) : Host.Outcome State Fault Refusal :=
  let part := fld w0 3 0
  let device := s.eth.sessions.filter fun x => x.open_ && x.part.isNone
  let free := (List.range 16).filter fun i => !(s.session i).open_
  let most := if s.glb.stage = .firmwareRecovery then 1 else 2
  .next (if isRing p ∨ !(s.ethPort p).link then s
    else
      let s0 := s.updPort p fun x => { x with rxq := x.rxq.eraseP fun r => r.limian && r.session.isNone }
      if fld w0 31 9 ≠ 0 ∨ fld w0 7 4 ≠ 0 ∨ 256 < credits.toNat then s0.bump .ethLimBad
      else if !s.openable part then s0.refuseOpen p seq 0x10
      else if free.isEmpty ∨ (part = 15 ∧ most ≤ device.length) then s0.refuseOpen p seq 0x12
      else
        let c := s0.choose free.length
        let i := free.getD c.1 0
        let tok := c.2.draw
        let first := tok.2.draw
        let x : Session :=
          { open_ := true, port := p, part := if part = 15 then none else some part, subscribe := bit w0 8
            token := tok.1, txSeq := first.1, rxNext := seq + 1, peerAck := first.1
            peerCredits := credits.toNat, lastValid := s.edge }
        let s1 := first.2.updSession i fun _ => x
        s1.sendTo i (.openReply 0 i tok.1 (s1.creditsOn p)))

/-- LIMIAN_CLOSE (R398). -/
def execLimianClose (sess : Fin 16) (s : State) : Host.Outcome State Fault Refusal :=
  .next (s.request sess fun _ s => s.closeSession sess)

/-- LIMIAN_ACK (R396, R397): the frames before ACK are acknowledged, the wait starts again, and what the credits now
allow is sent. An ACK beyond the frames sent changes nothing but that the frame is valid. -/
def execLimianAck (sess : Fin 16) (ack : Word) (credits : BitVec 16) (s : State) : Host.Outcome State Fault Refusal :=
  let x := s.session sess
  let n := (ack - x.peerAck).toNat
  .next (if !x.open_ ∨ 256 < credits.toNat then s.bump .ethLimBad
    else if x.sent < n then s.updSession sess fun y => { y with lastValid := s.edge }
    else
      (s.updSession sess fun y => { y with
        lastValid := s.edge, peerAck := ack, peerCredits := credits.toNat
        unacked := y.unacked.drop n, sent := y.sent - n
        timeouts := if n = 0 then y.timeouts else 0
        oldestEdge := if n = 0 then y.oldestEdge else s.edge }).flush sess)

/-- ACK_DELAY (R396): 20 us after the first delivery that is not yet acknowledged. -/
def execAckDelay (sess : Fin 16) (s : State) : Host.Outcome State Fault Refusal :=
  let x := s.session sess
  .next (if x.open_ ∧ 0 < x.undelivered ∧ x.ackEdge + 20 * edgesUs ≤ s.edge then s.sendAck sess else s)

/-- The sent frames of a session go out again with RETX set (R397). -/
def State.resend (i : Nat) (s : State) : State :=
  let x := s.session i
  let frames := x.unacked.take x.sent
  (frames.foldl (fun s f => s.queueFrame x.port
    (s.limFrame x.port i (limType f.body) 3 f.seq x.rxNext x.token (limBody f.body))) s).bumpBy .ethLimRetx
    frames.length

/-- RETRANSMIT_TIMEOUT (R397): the wait doubles with each consecutive time-out; the eighth closes the session. -/
def execRetransmitTimeout (sess : Fin 16) (s : State) : Host.Outcome State Fault Refusal :=
  let x := s.session sess
  let wait := s.regs.limRto.toNat * edgesUs * 2 ^ x.timeouts
  .next (if x.open_ ∧ 0 < x.sent ∧ x.oldestEdge + wait ≤ s.edge then
      if 8 ≤ x.timeouts + 1 then (s.closeSession sess).bump .ethLimLost
      else (s.resend sess).updSession sess fun y => { y with
        timeouts := y.timeouts + 1, oldestEdge := s.edge, undelivered := 0 }
    else s)

/-- SESSION_IDLE_TIMEOUT (R398): 10 s without a valid frame. -/
def execSessionIdleTimeout (sess : Fin 16) (s : State) : Host.Outcome State Fault Refusal :=
  let x := s.session sess
  .next (if x.open_ ∧ x.lastValid + 10 * edgesSec ≤ s.edge then s.closeSession sess else s)

end Sys2Proof.Machine
end

