-- ==== Sys2Proof/Machine/SparesOps.lean ====
section
/-!
DEFINITION. What several events of faults and spares share: the DEGRADED state (R440), and the copies that a
lost unit or channel of T3 or T4 takes with it (R222, R248, R275, R288, R293).
-/

namespace Sys2Proof.Machine

open Sys2Proof

/-! ## DEGRADED (R439, R440, R445) -/

/-- A node's units cannot be reached (R439). -/
def State.routerLost (s : State) (node : Nat) : Bool := (s.lnw.routers.getD node {}).lost

/-- A partition has a floor in a tier, and the pool cannot hold it together with the others' (R440). -/
def State.floorBroken (s : State) (tier p : Nat) : Bool :=
  let pool := if tier = 2 then s.t2Pool
    else if tier = 3 then (t3Units - 2112) / 64 * (64 - s.lostChannels)
    else if s.chn.t4Closed then 0 else s.t4Units
  s.floor tier p != 0 && decide (pool < total ((List.range 8).map (s.floor tier)))

/-- The causes of R440 that hold for a partition now, in the bits of BELOW_FLOOR (R445). -/
def State.degradedCauses (s : State) (p : Nat) : Nat :=
  match s.partRec p with
  | none => 0
  | some r =>
    let o := s.otl.running
    let margin := r.rights.getLsbD 0 && (s.jobs.marginRetired || s.routerLost 11)
    let planner := (r.rights.getLsbD 1 || o.lattice.any (·.part = p)) && (s.xh.retired || s.routerLost 11)
    let tracing := (r.rights.getLsbD 2 || o.fusion.any (·.part = p)) && (s.trc.retired || s.routerLost 11)
    let usesT4 := s.floor 4 p != 0 || o.places.any fun e => e.part = p && e.home = 4
    let t4 := usesT4 && (!s.chn.t4Available || s.chn.t4Closed || s.routerLost 8)
    let sty := o.channels.any fun c => c.part = p && (s.sty.channels.getD c.channel {}).stuck
    flag (decide ((s.liveSlots p).length < r.floor)) 0 + flag (s.floorBroken 2 p) 1 + flag (s.floorBroken 3 p) 2 +
      flag (s.floorBroken 4 p) 3 + flag (margin || planner || tracing || t4) 4 + flag sty 5

/-- Causes that come to hold put their partition in DEGRADED, with one record each; the state ends only at a
commit or a reset (R440). -/
def State.checkDegraded (s : State) : State :=
  (List.range 8).foldl (fun s p =>
    let now := s.degradedCauses p
    let old := s.brn.causes.getD p 0
    let new := (List.range 6).filter fun b => now.testBit b && !old.testBit b
    let s1 := new.foldl (fun s b => s.report 0x12 p 3 8 0x0063 (some p) 0 (2 ^ b)) s
    if new.isEmpty then s1
    else s1.updBrn fun x => { x with
      causes := x.causes.set p (old ||| now), degraded := x.degraded ||| BitVec.ofNat 8 (2 ^ p) }) s

/-! ## Lost copies (R222, R248, R257, R275, R288, R293) -/

/-- A refetch event lists an object that must be loaded again (R275, R402). -/
def State.refetch (o : ObjVersion) (s : State) : State :=
  (s.updObj (isVer o.part o.obj o.ver) fun x => { x with refetch := true }).event (some o.part) 1
    [o.obj, wd o.ver]

/-- A version without a complete copy left: ABSENT with a refetch event, or DAMAGED where the device produced
it (R275, R293). -/
def State.loseVersion (o : ObjVersion) (s : State) : State :=
  if o.source = 2 then s.loseCopies .damaged o else (s.makeAbsent o).refetch o

/-- The tier requests of a version that need a unit complete with an error: one record, and an uncorrected fault of each
requesting job (R156, R288, R292). -/
def State.failRequests (kind inst : Nat) (lost : Nat → Bool) (o : ObjVersion) (s : State) : State :=
  let rs := s.tir.requests.filter fun r => isVer r.part r.obj r.ver o && r.left.any lost
  if rs.isEmpty then s
  else
    let ids := (rs.flatMap TierRequest.jobs).eraseDups
    let s1 := rs.foldl (fun s r => s.withdraw r) s
    let s2 := s1.report kind inst 1 2 0x0023 (some o.part) (ids.headD 0) ((rs.flatMap (·.left)).find? lost |>.getD 0)
    ids.foldl (fun s id => s.faultJob id none) s2

/-- The tier requests of a mirrored version read lost units from their mirror units (R275, R292). -/
def State.mirrorRequests (lost : Nat → Bool) (o : ObjVersion) (s : State) : State :=
  match o.t3, o.t3Mirror with
  | some a, some m =>
    let mine (r : TierRequest) : Bool := isVer r.part r.obj r.ver o && r.tier = 3
    let hit (u : Nat) : Bool := lost u && decide (a ≤ u) && decide (u < a + o.size)
    let n := total ((s.tir.requests.filter mine).map fun r => (r.left.filter hit).length)
    let turn (r : TierRequest) : TierRequest :=
      if mine r then { r with left := r.left.map fun u => if hit u then m + (u - a) else u } else r
    ((s.updTir fun t => { t with requests := t.requests.map turn }).bumpBy .tirMirrorReads n).feedQueues
  | _, _ => s

/-- The mirror of a T3 copy holds what a logical channel took: the channel 32 apart has not gone too (R258, R275). -/
def ObjVersion.mirrorHolds (o : ObjVersion) (logical : Nat) : Bool :=
  o.t3Mirror.isSome && !o.gone.contains ((logical + 32) % 64)

/-- A T3 copy has lost the units of a logical channel. With a spare in its place they are rewritten from the mirror or from
another copy (R275). Without one they cannot be (R292): a mirrored copy is read from its mirror, and another one is freed
and placed anew where another copy is left. With no copy left the version is lost. -/
def State.loseT3 (kind inst logical : Nat) (spare : Bool) (o : ObjVersion) (s : State) : State :=
  let lost (u : Nat) : Bool := u % 64 = logical
  let held := o.mirrorHolds logical
  let s1 := if held then s.mirrorRequests lost o else s.failRequests kind inst lost o
  if held ∨ o.full ∨ o.t4.isSome then
    if spare then
      (s1.updObj (isVer o.part o.obj o.ver) fun x =>
        { x with gone := x.gone ++ [logical], state := if x.state = .sealed then .rebuilding else x.state }).queueWrite
        { kind := .rebuild, part := o.part, obj := o.obj, ver := o.ver, tier := 3, start := o.t3.getD 0, len := o.size }
    else if held then s1.updObj (isVer o.part o.obj o.ver) fun x => { x with gone := x.gone ++ [logical] }
    else
      let s2 := s1.freeCopy 3 o
      if o.home = 3 then s2.startCopy .place { o with t3 := none } 3 else s2
  else (s1.freeCopy 3 o).loseVersion o

/-- A T4 copy has lost units: it is freed (R288, R293). -/
def State.loseT4 (kind inst : Nat) (lost : Nat → Bool) (o : ObjVersion) (s : State) : State :=
  let s1 := (s.failRequests kind inst lost o).freeCopy 4 o
  if o.full ∨ o.t3.isSome then s1 else s1.loseVersion o

/-- A context has lost data: it is DAMAGED now, or at its holder's seal edge (R222). -/
def State.damageContext (n : Nat) (s : State) : State :=
  (s.updCtx fun c => { c with table := c.table.map fun x =>
    if x.id = n then (if x.holder = 0 then { x with state := .damaged } else { x with damagePending := true })
    else x }).bump .ctxDamaged

/-- A page that moved to T3 has lost a unit, and the pair holds it no more (R222). -/
def PageRecord.lostWith (g : PageRecord) (hit : Nat → Bool) : Bool :=
  g.inT3 && !g.inPlate && (g.unit :: g.mirrorUnit.toList).all fun u => hit u || g.gone.contains u

/-- The snapshot of a region has lost the units that pass a test, and its mirror does not hold them (R248). -/
def StateRegion.lostWith (r : StateRegion) (logical : Nat) : Bool :=
  r.snapshot.isSome && (r.snapMirror.isNone || r.snapGone.contains ((logical + 32) % 64))

/-- The rewriting of a page or a snapshot onto a spare (R222, R248, R275). -/
def kvRebuild (part : Nat) (obj : Word) (start len : Nat) : TierWrite :=
  { kind := .rebuild, part := part, obj := obj, tier := 3, start := start, len := len }

/-- Pages that a test of units names lose them: a page without a copy left is damaged, the others are rewritten onto the
spare (R222, R275). -/
def State.losePages (hit : Nat → Bool) (spare : Bool) (s : State) : State :=
  let hurt := s.ctx.pages.filter fun g => g.inT3 && (g.unit :: g.mirrorUnit.toList).any hit
  hurt.foldl (fun s g =>
    let s1 := s.updPage g.index fun x => { x with
      damaged := x.damaged || x.lostWith hit
      gone := x.gone ++ (x.unit :: x.mirrorUnit.toList).filter fun u => hit u && !x.gone.contains u }
    if spare ∧ !g.lostWith hit then s1.queueWrite (kvRebuild g.part (wd (0xFD000000 + g.index)) g.unit 1) else s1) s

/-- Snapshots with units on a logical channel lose them (R248): one that its mirror holds is rewritten, and a resident
region gives its lost snapshot up. -/
def State.loseSnapshots (logical : Nat) (hit : Nat → Nat → Bool) (spare : Bool) (s : State) : State :=
  let hurt := s.ctx.table.filter fun c => c.rec_.any fun r =>
    (r.snapshot.toList ++ r.snapMirror.toList).any fun u => hit u r.snapUnits
  hurt.foldl (fun s c => match c.rec_ with
    | none => s
    | some r =>
      if r.lostWith logical then
        if r.resident then
          ((r.snapshot.toList ++ r.snapMirror.toList).foldl (fun s u => s.giveUp 3 u r.snapUnits) s).updCtx fun x => { x with
            table := x.table.map fun y => if y.id = c.id then
                { y with rec_ := y.rec_.map fun z => { z with snapshot := none, snapMirror := none, snapGone := [], clean := false } }
              else y }
        else s
      else
        let s1 := s.updCtx fun x => { x with table := x.table.map fun y => if y.id = c.id then
          { y with rec_ := y.rec_.map fun z => { z with snapGone := z.snapGone ++ [logical] } } else y }
        if spare then s1.queueWrite (kvRebuild c.part (wd (0xFC000000 + c.id)) (r.snapshot.getD 0) r.snapUnits) else s1) s

/-- KV pages and snapshots lose the units of a logical channel, or one unit (R222, R248); contexts whose only copy had
one are DAMAGED. -/
def State.loseKv (logical : Nat) (hit : Nat → Nat → Bool) (spare : Bool) (s : State) : State :=
  let pages := s.ctx.pages.filter fun g => !g.damaged && g.lostWith fun u => hit u 1
  let byPage := s.ctx.table.filter fun c => c.state = .active && !c.damagePending && c.lgs.any fun l => l.ptes.any fun e =>
    e.valid && pages.any fun g => g.index = e.page
  let bySnap := s.ctx.table.filter fun c => c.state = .active && !c.damagePending && c.rec_.any fun r =>
    !r.resident && r.lostWith logical && (r.snapshot.any fun u => hit u r.snapUnits)
  let s1 := (s.losePages (hit · 1) spare).loseSnapshots logical hit spare
  ((byPage ++ bySnap).map (·.id)).dedup.foldl (fun s n => s.damageContext n) s1

/-- A range of units has one on a channel of `m` (R258). -/
def onChannel (m ch start len : Nat) : Bool := decide ((ch + m - start % m) % m < len)

/-- The T3 copies that have units, mirrors included, on a logical channel that is gone (R275, R292); `spare` has taken its
number, and `inst` was the channel. -/
def State.loseGolent (inst logical : Nat) (spare : Bool) (s : State) : State :=
  let hit (u n : Nat) : Bool := onChannel 64 logical u n
  let objs := s.tir.objs.filter fun o => o.t3.any (hit · o.size) || o.t3Mirror.any (hit · o.size)
  (objs.foldl (fun s o => s.loseT3 4 inst logical spare o) s).loseKv logical hit spare

end Sys2Proof.Machine
end

