-- ==== Sys2Proof/Machine/Channels.lean ====
section
/-!
DEFINITION. The memory channels of T3 and T4, and Linework with its regulator (R281 to R304, R439).
-/

namespace Sys2Proof.Machine

open Sys2Proof

/-! ## Channels -/

/-- The counters of a channel (R302). -/
def chRetries : Channel → Counter
  | .golent c => .chnGCrcRetry c
  | .board b => .chnBCrcRetry b
def chCorr : Channel → Counter
  | .golent c => .chnGEccCorr c
  | .board b => .chnBEccCorr b
def chUncorr : Channel → Counter
  | .golent c => .chnGEccUncorr c
  | .board b => .chnBEccUncorr b
def chRetrains : Channel → Counter
  | .golent c => .chnGRetrains c
  | .board b => .chnBRetrains b

/-- Unit kind and instance of a channel (R444). -/
def chUnit : Channel → Nat × Nat
  | .golent c => (4, c)
  | .board b => (5, b)

/-- The tier-controller group of a channel: 17, 16, 16 and 17 Golent channels, then the board store (R294). -/
def chGroup : Channel → Nat
  | .golent c => if c.val < 17 then 0 else if c.val < 33 then 1 else if c.val < 49 then 2 else 3
  | .board _ => 4

/-- Every channel. -/
def allChannels : List Channel :=
  (List.finRange 66).map Channel.golent ++ (List.finRange 16).map Channel.board

/-- A unit lies on an active channel, within its tier and on a device that is fitted (R258, R281, R284). -/
def State.serves (s : State) (ch : Channel) (unit : Nat) : Bool :=
  let c := s.memChan ch
  c.state = .active && (match ch with
    | .golent _ => decide (unit < t3Units) && c.logical.toNat = unit % 64
    | .board b => decide (unit < s.t4Units) && b.val = unit % 16 && (!(burstDevice ch unit 63).1 || c.cs1))

/-! ## Retrains (R288 to R290) -/

/-- A retrain starts at once (R290). -/
def State.retrainNow (ch : Channel) (s : State) : State := s.updChan ch fun c => { c with state := .retraining }

/-- A deferred retrain starts when no other channel of its group runs one (R290). -/
def State.startDeferred (ch : Channel) (s : State) : State :=
  let c := s.memChan ch
  let busy := allChannels.any fun o => o != ch && (chGroup o) = (chGroup ch) && (s.memChan o).deferred &&
    (s.memChan o).state = .retraining
  if c.deferred && (c.state = .active || c.state = .spare) && !busy then s.retrainNow ch else s

/-- A deferred trigger on a channel that works (R290). -/
def State.deferRetrain (ch : Channel) (s : State) : State :=
  let c := s.memChan ch
  if c.state = .active ∨ c.state = .spare then (s.updChan ch fun x => { x with deferred := true }).startDeferred ch
  else s

/-- One burst that the decoder corrected: at 16 within 1 ms the channel retrains at once (R284, R290). -/
def State.burstCorrected (ch : Channel) (s : State) : State :=
  let s1 := (s.updChan ch fun c => { c with
    corrEdges := s.edge :: c.corrEdges.filter fun e => decide (s.edge < e + edgesMs) }).bump (chCorr ch)
  if 16 ≤ (s1.memChan ch).corrEdges.length ∧ (s1.memChan ch).state = .active then s1.retrainNow ch else s1

/-- What the decoder makes of a burst (R284). -/
inductive EccResult where
  | clean | corrected | uncorrectable
deriving DecidableEq, Repr, Inhabited

/-- The decoder on a burst with `n` erroneous bytes: 1 to 3 are corrected, 4 or 5 always detected, and 6 or more detected
or miscorrected, which is open (R284, log 2). -/
def State.decodeBurst (n : Nat) (s : State) : EccResult × State :=
  if n = 0 then (.clean, s)
  else if n ≤ 3 then (.corrected, s)
  else if n ≤ 5 then (.uncorrectable, s)
  else let r := s.choose 2; (if r.1 = 0 then .uncorrectable else .corrected, r.2)

/-- A burst arrives intact over the link: on T3 its CRC-8 byte checks; T4 has no link CRC (R285). -/
def linkGood (ch : Channel) (t : BurstTry) : Bool :=
  match ch with
  | .golent _ => crc8 t.data == t.crc
  | .board _ => true

/-- A unit is uncorrectable (R288). -/
def State.unitBad (ch : Channel) (unit : Nat) (s : State) : State := s.updChan ch fun c => { c with bad := some unit }

/-- A burst that fails all its retries: the channel retrains at once and reads the burst once more (R288, R290). -/
def State.escalate (ch : Channel) (unit : Nat) (s : State) : State :=
  (s.updChan ch fun c => { c with reread := some unit }).retrainNow ch

/-- One burst of a read from its first reception, `k` being the retries so far (R284, R285, R287, R288): a T3 burst whose
CRC fails and a T4 burst that cannot be corrected are received again, at most 3 times, and a T3 burst that crossed the link
intact and cannot be corrected is uncorrectable at once. -/
def State.receive (ch : Channel) (unit : Nat) : Nat → List BurstTry → State → State
  | _, [], s => s.escalate ch unit
  | k, t :: r, s =>
    if 4 ≤ k then s.escalate ch unit
    else
      let s1 := if k = 0 then s else s.bump (chRetries ch)
      if !linkGood ch t then State.receive ch unit (k + 1) r s1
      else
        let d := s1.decodeBurst t.errors
        match d.1, ch with
        | .clean, _ => d.2
        | .corrected, _ => d.2.burstCorrected ch
        | .uncorrectable, .golent _ => d.2.unitBad ch unit
        | .uncorrectable, .board _ => State.receive ch unit (k + 1) r d.2

/-- The burst that is read once more after a retrain: if it fails again, its unit is uncorrectable (R288). -/
def State.receiveAgain (ch : Channel) (unit : Nat) (ts : List BurstTry) (s : State) : State :=
  let s1 := s.updChan ch fun c => { c with reread := none }
  match ts with
  | [] => s1.unitBad ch unit
  | t :: _ =>
    if !linkGood ch t then s1.unitBad ch unit
    else
      let d := s1.decodeBurst t.errors
      match d.1 with
      | .clean => d.2
      | .corrected => d.2.burstCorrected ch
      | .uncorrectable => d.2.unitBad ch unit

/-- The device's replay buffer takes a burst that it has sent: it holds the last 16 (R283). -/
def MemChannel.sent (unit burst : Nat) (c : MemChannel) : MemChannel :=
  let l := c.replay ++ [(unit, burst)]
  { c with replay := l.drop (l.length - 16) }

/-- One burst of a read. -/
def State.readBurst (ch : Channel) (unit burst : Nat) (ts : List BurstTry) (s : State) : State :=
  let s1 := match ch with
    | .golent _ => s.updChan ch (MemChannel.sent unit burst)
    | .board _ => s
  if (s.memChan ch).reread = some unit then s1.receiveAgain ch unit ts else s1.receive ch unit 0 ts

/-- The bursts of a transaction, from `k` on, up to the one that takes the channel out of use or that is uncorrectable. -/
def State.bursts {α : Type} (ch : Channel) (f : Nat → α → State → State) : Nat → List α → State → State
  | _, [], s => s
  | k, b :: r, s =>
    if (s.memChan ch).state = .active ∧ (s.memChan ch).bad = none then State.bursts ch f (k + 1) r (f k b s) else s

/-- A whole 1 KiB block of a unit was read: a request of it has one block less to wait for; a unit without a block left
has arrived (R286, R291). -/
def State.blockRead (ch : Channel) (unit block : Nat) (s : State) : State :=
  match (s.memChan ch).queue.find? (·.unit = unit) with
  | none => s
  | some q =>
    let left := q.blocks.filter (· != block)
    if left.isEmpty then
      ((s.updChan ch fun c => { c with queue := c.queue.erase q }).updTir fun t => { t with
        requests := t.requests.map fun r => if r.tag = q.tag then { r with left := r.left.filter (· != unit) } else r }).feedQueues
    else s.updChan ch fun c => { c with queue := c.queue.map fun x => if x = q then { q with blocks := left } else x }

/-- A channel may read a unit now: the one that its queue serves next, or one that waits in no queue (R299). -/
def MemChannel.mayRead (c : MemChannel) (unit : Nat) : Bool :=
  !(c.queue.any (·.unit = unit)) || c.nextRequest.any (·.unit = unit)

/-- TIER_READ_TRANSACTION (R284 to R287, R291, R299): up to 16 bursts of a unit; a channel in a retrain serves none. -/
def execTierReadTransaction (ch : Channel) (at_ : BurstPlace) (bursts : List (List BurstTry)) (s : State) :
    Host.Outcome State Fault Refusal :=
  .next (if s.serves ch at_.unit && (s.memChan ch).bad.isNone && (s.memChan ch).mayRead at_.unit then
      let s1 := State.bursts ch (fun k => State.readBurst ch at_.unit k) at_.first.val bursts s
      let c := s1.memChan ch
      if at_.first.val % 16 = 0 ∧ bursts.length = 16 ∧ c.state = .active ∧ c.bad = none then
        s1.blockRead ch at_.unit (at_.first.val / 16)
      else s1
    else s)

/-- One burst of a write, `k` being the rewrites so far: the write status says of each attempt whether the device stored
it; the old contents stay until it does, and after 3 rewrites the channel retrains (R283, R286 to R288). -/
def State.writeTry (ch : Channel) (unit burst : Nat) : Nat → List Bool → State → State
  | _, [], s => s.escalate ch unit
  | k, failed :: r, s =>
    if 4 ≤ k then s.escalate ch unit
    else
      let s1 := if k = 0 then s else s.bump (chRetries ch)
      if failed then
        State.writeTry ch unit burst (k + 1) r (s1.updChan ch fun c => { c with
          unstored := (unit, burst) :: c.unstored.filter (· != (unit, burst)) })
      else s1.updChan ch fun c => { c with unstored := c.unstored.filter (· != (unit, burst)) }

/-- One burst of a write; board devices report none (R281, R283). -/
def State.writeBurst (ch : Channel) (unit burst : Nat) (l : List Bool) (s : State) : State :=
  match ch with
  | .golent _ => s.writeTry ch unit burst 0 l
  | .board _ => s

/-- TIER_WRITE_TRANSACTION (R286, R287): up to 16 bursts of a unit, each with the write-status bits of its attempts. -/
def execTierWriteTransaction (ch : Channel) (at_ : BurstPlace) (bursts : List (List Bool)) (s : State) :
    Host.Outcome State Fault Refusal :=
  .next (if s.serves ch at_.unit then
      State.bursts ch (fun k => State.writeBurst ch at_.unit k) at_.first.val bursts s
    else s)

/-- The version whose copy in a tier holds a unit, as its primary. -/
def State.ownerOf (s : State) (tier unit : Nat) : Option ObjVersion :=
  s.tir.objs.find? fun o => (if tier = 3 then o.t3 else o.t4).any fun u => decide (u ≤ unit) && decide (unit < u + o.size)

/-- A T3 unit of a page or a snapshot whose mirror holds it. -/
def State.kvMirrored (s : State) (unit : Nat) : Bool :=
  (s.ctx.pages.any fun g => g.inT3 && g.unit = unit && g.mirrorUnit.any fun m => !g.gone.contains m) ||
    s.ctx.table.any fun c => c.rec_.any fun r => r.snapMirror.isSome && !r.snapGone.contains ((unit + 32) % 64) &&
      r.snapshot.any fun u => decide (u ≤ unit) && decide (unit < u + r.snapUnits)

/-- A unit of a mirrored version is read from its mirror unit (R275, R288). -/
def State.readMirror (unit : Nat) (o : ObjVersion) (s : State) : State :=
  let waits := s.tir.requests.any fun r => isVer r.part r.obj r.ver o && r.tier = 3 && r.left.contains unit
  if waits then s.mirrorRequests (· = unit) o else s.bump .tirMirrorReads

/-- The T3 copy of an unmirrored version has lost a unit: it is handled as one copy on a retired channel (R275, R288). -/
def State.loseUnit (kind inst unit : Nat) (o : ObjVersion) (s : State) : State :=
  let s1 := s.failRequests kind inst (· = unit) o
  if o.full ∨ o.t4.isSome then
    (s1.updObj (isVer o.part o.obj o.ver) fun x => if x.state = .sealed then { x with state := .rebuilding } else x).queueWrite
      { kind := .rebuild, part := o.part, obj := o.obj, ver := o.ver, tier := 3, start := o.t3.getD 0, len := o.size }
  else (s1.freeCopy 3 o).loseVersion o

/-- UNIT_UNCORRECTABLE (R275, R288): a mirror serves the read, or the requesting jobs fault and the copy is handled
as one on a retired channel. -/
def execUnitUncorrectable (ch : Channel) (unit : Nat) (s : State) : Host.Outcome State Fault Refusal :=
  .next (if (s.memChan ch).bad ≠ some unit then s
    else
      let drop (c : MemChannel) : MemChannel := { c with bad := none, queue := c.queue.filter (·.unit != unit) }
      let s1 := (s.updChan ch drop).bump (chUncorr ch)
      let k := (chUnit ch)
      match ch with
      | .golent _ =>
        (match s1.ownerOf 3 unit with
          | some o => if o.mirrorHolds (unit % 64) then s1.readMirror unit o else s1.loseUnit k.1 k.2 unit o
          | none =>
            if s1.kvMirrored unit then s1.bump .tirMirrorReads
            else s1.loseKv 64 (fun u n => decide (u ≤ unit) && decide (unit < u + n)) false)
      | .board _ =>
        (match s1.ownerOf 4 unit with
          | some o => s1.loseT4 k.1 k.2 (· = unit) o
          | none => s1))

/-! ## Ends of retrains (R30, R290, R292, R293) -/

/-- The latency that a training detects (R281, R302): of a Golent channel 48 TIER cycles, which are fixed. -/
def detected (ch : Channel) (train : BitVec 24) : BitVec 24 :=
  match ch with
  | .golent _ => (48#8 ++ train.setWidth 16 : BitVec 24)
  | .board _ => train

/-- A training meets the latency limit: a board device answers within 20 TIER cycles (R281, R282). -/
def latencyOk (ch : Channel) (train : BitVec 24) : Bool :=
  match ch with
  | .golent _ => true
  | .board _ => decide (train.toNat / 65536 ≤ 20)

/-- A retrain passed. -/
def State.trained (ch : Channel) (train : BitVec 24) (s : State) : State :=
  s.updChan ch fun c => { c with
    state := if c.logical = 0x7F then .spare else .active, train := detected ch train, lastTrain := s.edge,
    trainTemp := s.glb.tempNow.toInt, trainVdd := s.glb.avsTarget.toNat, deferred := false, corrEdges := [] }

/-- The lowest trained spare. -/
def State.golentSpare (s : State) : Option (Fin 66) :=
  (List.finRange 66).find? fun c => (s.chn.golent.getD c {}).state = .spare

/-- A Golent channel fails: it is retired, and a spare takes its number; without one its number is LOST, and
at the second loss T3 is closed (R292). -/
def State.golentFails (c : Fin 66) (s : State) : State :=
  let x := s.memChan (.golent c)
  let retire (s : State) : State := s.updChan (.golent c) fun y =>
    { y with state := .retired, logical := 0x7F, deferred := false, reread := none, bad := none, queue := [] }
  if x.logical = 0x7F then ((retire s).report 4 c 2 3 0x0020 none 0 0x7F).bump .brnRetired
  else match s.golentSpare with
    | some sp =>
      (((retire s).updChan (.golent sp) fun y => { y with state := .active, logical := x.logical }).report 4 c 2 3
        0x0020 none 0 sp).loseGolent c x.logical.toNat true |>.bump .brnSpared |>.bump .brnRetired
    | none =>
      let s1 := s.updChan (.golent c) fun y => { y with state := .lost, deferred := false, reread := none, bad := none, queue := [] }
      let s2 := s1.updChn fun y => { y with t3Closed := y.t3Closed || y.t3Lost, t3Lost := true }
      (((s2.report 4 c 2 5 0x0021 none 0 x.logical.toNat).loseGolent c x.logical.toNat false).checkDegraded).bump .brnRetired

/-- A board-store channel fails a retrain: it is LOST, T4 is closed, and the T4 copies on it are freed
(R293). -/
def State.boardFails (b : Fin 16) (s : State) : State :=
  let s1 := (s.updChan (.board b) fun y => { y with state := .lost, deferred := false, reread := none, bad := none, queue := [] }).updChn
    fun y => { y with t4Closed := true }
  let objs := s1.tir.objs.filter fun o => o.t4.any fun u => onChannel 16 b u o.size
  (objs.foldl (fun s o => s.loseT4 5 b (fun u => u % 16 = b.val) o) ((s1.report 5 b 2 5 0x0021 none 0 b).bump .brnRetired)).checkDegraded

/-- A group's next waiting deferred retrain starts. -/
def State.nextDeferred (g : Nat) (s : State) : State :=
  match allChannels.find? fun o => (chGroup o) = g && (s.memChan o).deferred && (s.memChan o).state != .retraining with
  | some o => s.startDeferred o
  | none => s

/-- RETRAIN_DONE (R288, R290, R292, R293). -/
def execRetrainDone (ch : Channel) (pass : Bool) (train : BitVec 24) (s : State) : Host.Outcome State Fault Refusal :=
  .next (if (s.memChan ch).state ≠ .retraining then s
    else
      let s1 := s.bump (chRetrains ch)
      let s2 := if pass && latencyOk ch train then s1.trained ch train
        else match ch with
          | .golent c => s1.golentFails c
          | .board b => s1.boardFails b
      s2.nextDeferred (chGroup ch))

/-- PERIODIC_RETRAIN (R290): 1 s since the last training. -/
def execPeriodicRetrain (ch : Channel) (s : State) : Host.Outcome State Fault Refusal :=
  .next (if (s.memChan ch).lastTrain + edgesSec ≤ s.edge then s.deferRetrain ch else s)

/-- DRIFT_RETRAIN (R290): 8 degrees C or 25 mV from the values at the last training. -/
def execDriftRetrain (ch : Channel) (s : State) : Host.Outcome State Fault Refusal :=
  let c := s.memChan ch
  .next (if 128 ≤ (s.glb.tempNow.toInt - c.trainTemp).natAbs ∨
      25 ≤ ((s.glb.avsTarget.toNat : Int) - c.trainVdd).natAbs then s.deferRetrain ch else s)

/-- The channel that a write of CHN_RETRAIN names (R302). -/
def retrainTarget (v : Word) : Option Channel :=
  if h : v.toNat < 66 then some (.golent ⟨v.toNat, h⟩)
  else if h : 0x80 ≤ v.toNat ∧ v.toNat < 0x90 then some (.board ⟨v.toNat - 0x80, by omega⟩) else none

/-- CHN_RETRAIN (R290, R302): other values are ignored. -/
def execChnRetrain (v : Word) (s : State) : Host.Outcome State Fault Refusal :=
  .next (match retrainTarget v with
    | some ch => s.deferRetrain ch
    | none => s)

/-! ## Linework (R295 to R304, R439) -/

/-- LINEWORK_PACKET_DELIVERED (R295 to R297, R448): SEC-DED on every lane; a dropped packet is recovered only
by the timeout; a response with a held tag is discarded. -/
def execLineworkPacketDelivered (node : Fin 16) (tag : BitVec 16) (err : LaneError) (s : State) :
    Host.Outcome State Fault Refusal :=
  .next (if s.routerLost node then s
    else
      let deliver (s : State) : State :=
        if s.lnw.txs.any (·.tag = tag) then
          (s.updLnw fun l => { l with txs := l.txs.eraseP (·.tag = tag) }).issueWaiting
        else if s.lnw.held.any (·.tag = tag) then s.bump .lnwLateDiscard else s
      match err with
      | .clean => deliver s
      | .single => deliver (s.bump .lnwCorr)
      | .double =>
        (s.bump .lnwUncorr).updLnw fun l => { l with routers := l.routers.modify node fun r =>
          { r with uncorrEdges := s.edge :: r.uncorrEdges.filter fun e => decide (s.edge < e + edgesMs) } })

/-- LINEWORK_TIMEOUT (R297): 500 us after its issue a transaction is cancelled, and the requesting job has an
uncorrected fault. -/
def execLineworkTimeout (tag : BitVec 16) (s : State) : Host.Outcome State Fault Refusal :=
  .next (match s.lnw.txs.find? fun x => x.tag = tag && s.txLate x with
    | none => s
    | some x => (s.cancelTx x).faultJob x.job none)

/-- The master codes of R300. -/
def budgetMaster (m : Nat) : Bool := masterCodes.contains m

/-- A budget takes the place of another of its partition and master. -/
def putBudget (b : Budget) (l : List Budget) : List Budget :=
  l.filter (fun x => !(x.part = b.part && x.master = b.master)) ++ [b]

/-- The MIN values at a regulation point of a partition exceed its capacity (R298, R304). -/
def overBudget (l : List Budget) (part m : Nat) : Bool :=
  let p := pointBudgets l part m
  decide (p.2 < total (p.1.map (·.min.toNat)))

/-- REGULATION_WINDOW (R298, R299, R304): a window of 1,024 LINE cycles begins; written budgets take effect. The tier
prefetch, the Tier Writer and Limian loads are charged as they issue; how many other masters the ended window lowered
follows from traffic whose timing the model does not hold: it is free (log 17). -/
def execRegulationWindow (s : State) : Host.Outcome State Fault Refusal :=
  .next (if s.edge < s.lnw.windowEdge + 256 then s
    else
      let r := s.choose (36 * 6 + 8 * 3 + 1)
      (r.2.updLnw fun l => { l with
        budgets := l.pending.foldl (fun acc b => putBudget b acc) l.budgets, pending := [], charged := []
        windowEdge := s.edge - s.edge % 256 }).bumpBy .lnwLowered r.1)

/-- LNW_BUDGET (R303, R304): a write for the partition in LNW_SEL; it waits for the next window boundary, and
one that would exceed a point's capacity is ignored and counted. -/
def execLnwBudget (m : Fin 32) (v : Word) (s : State) : Host.Outcome State Fault Refusal :=
  let p := s.regs.sel.toNat
  let b : Budget := { part := p, master := m, min := BitVec.ofNat 12 (fld v 11 0), share := BitVec.ofNat 8 (fld v 23 16) }
  .next (if !budgetMaster m then s
    else if overBudget (putBudget b (s.lnw.pending.foldl (fun acc x => putBudget x acc) s.lnw.budgets)) p m then
      s.bump .lnwRejected
    else s.updLnw fun l => { l with pending := putBudget b l.pending })

/-- ROUTER_LANE_SWITCH (R439): after 4 uncorrectable packets within 1 ms the router's traffic moves to its
shadow lane; a second failure loses the router. -/
def State.switchLane (node : Nat) (s : State) : State :=
  let r := s.lnw.routers.getD node {}
  if r.lost then s
  else if r.onShadow then
    ((s.updLnw fun l => { l with routers := l.routers.modify node fun x => { x with lost := true, uncorrEdges := [] } }).report
      6 node 3 8 0x0032 none 0 0).checkDegraded
  else
    (s.updLnw fun l => { l with routers := l.routers.modify node fun x => { x with onShadow := true, uncorrEdges := [] } }).report
      6 node 2 3 0x0031 none 0 0 |>.bump .brnSpared

def execRouterLaneSwitch (node : Fin 16) (s : State) : Host.Outcome State Fault Refusal :=
  .next (if 4 ≤ (s.lnw.routers.getD node {}).uncorrEdges.length then s.switchLane node else s)

end Sys2Proof.Machine
end

