-- ==== Sys2Proof/Machine/Vision.lean ====
section
/-!
DEFINITION. Convolution, pooling and the Margin engine (R172 to R192).
-/

namespace Sys2Proof.Machine

open Sys2Proof

/-! ## Edges (R178) -/

/-- The index that an index outside or inside `n` elements reads; none for the pad value (R178). -/
def padIndex (mode n : Nat) (i : Int) : Option Nat :=
  if 0 ≤ i ∧ i < n then some i.toNat
  else if mode = 2 then some (if i < 0 then (-i).toNat else (2 * ((n : Int) - 1) - i).toNat)
  else if mode = 3 then some (if i < 0 then 0 else n - 1)
  else none

/-- The input column and row of tap (kx, ky) of output pixel p. -/
def Geometry.tapX (g : Geometry) (p kx : Nat) : Int :=
  ((p % g.outW * g.strideW + kx * g.dilW : Nat) : Int) - g.padL
def Geometry.tapY (g : Geometry) (p ky : Nat) : Int :=
  ((p / g.outW * g.strideH + ky * g.dilH : Nat) : Int) - g.padT

/-- The input pixel of an input column and row: x is resolved, then y (R178). -/
def Geometry.resolve (g : Geometry) (ix iy : Int) : Option Nat :=
  match padIndex g.padMode g.inW ix, padIndex g.padMode g.inH iy with
  | some x, some y => some (y * g.inW + x)
  | _, _ => none

/-- The kernel taps in row-major order: (ky, kx). -/
def Geometry.taps (g : Geometry) : List (Nat × Nat) :=
  (List.range g.kh).flatMap fun y => (List.range g.kw).map fun x => (y, x)

/-- A tap lies inside the map. -/
def Geometry.inside (g : Geometry) (p : Nat) (t : Nat × Nat) : Bool :=
  let x := g.tapX p t.2
  let y := g.tapY p t.1
  decide (0 ≤ x) && decide (x < g.inW) && decide (0 ≤ y) && decide (y < g.inH)

/-- PAD_VALUE as a value of FMT_A, with the flags of its conversion (R180). -/
def Descriptor.padValue (d : Descriptor) : Num × NumFlags :=
  if d.geo.padMode ≠ 1 then (.fin false 0 0, {})
  else if fmtMx d.fmtA then
    let r := mxElem d.fmtA 127 (d.word 13)
    (elemValue d.fmtA r.1, r.2)
  else
    let r := convertElem d.fmtA d.satFinite (d.word 13)
    (elemValue d.fmtA r.1, r.2)

/-- Channels of the input map. -/
def Descriptor.inChannels (d : Descriptor) : Nat := if d.op = 2 then d.k else d.n

/-- Element (c, p) of image b of the input map (R172). -/
def Descriptor.inElem (d : Descriptor) (m : Memory) (b c p : Nat) : Num :=
  let g := d.geo
  let hw := g.inW * g.inH
  let ch := d.inChannels
  readElem m (d.aOff + b * mapStride d.fmtA g.layout ch hw) d.fmtA 1 (mapElems g.layout ch hw) 0
    (mapAddr g.layout (padChannels g.layout ch) hw c p)

/-- One activation of a tap: an element of the map, or the pad value. -/
def Descriptor.tapValue (d : Descriptor) (m : Memory) (pad : Num) (b c p : Nat) (t : Nat × Nat) : Num :=
  match d.geo.resolve (d.geo.tapX p t.2) (d.geo.tapY p t.1) with
  | some q => d.inElem m b c q
  | none => pad

/-- Row p of the unrolled input in r order (R175). -/
def Descriptor.unrolled (d : Descriptor) (m : Memory) (pad : Num) (b p : Nat) : List Num :=
  d.geo.taps.flatMap fun t => (List.range d.k).map fun c => d.tapValue m pad b c p t

/-! ## Output maps (R172) -/

/-- Results of one image written as a map: `hw` pixels of `n` channels; pad channels are zeros, MX blocks
run along channels (R172, R173). -/
def writeMap (m : Memory) (off f layout n hw : Nat) (sat : Bool) (vals : List (List Word)) : Memory × NumFlags :=
  let pc := padChannels layout n
  if fmtMx f then
    let blocks := vals.zipIdx.flatMap fun r => ((chunksOf 32 (n / 32) r.1).zipIdx).map fun b =>
      (mapAddr layout pc hw (32 * b.2) r.2 / 32, mxBlock f b.1)
    let m1 := blocks.foldl (fun m b =>
      Memory.writeBytes m (off + b.1 * blockBytes f) (packBits (fmtBits f) b.2.2.1)) m
    (blocks.foldl (fun m b =>
      Memory.write m (off + scalePlane f 1 (pc * hw) + b.1) (BitVec.ofNat 8 b.2.1)) m1,
     blocks.foldl (fun a b => a.or b.2.2.2) {})
  else
    let conv := vals.map fun r => r.map (convertElem f sat)
    let els := conv.zipIdx.flatMap fun r => (List.range pc).map fun c =>
      (mapAddr layout pc hw c r.2, (r.1.getD c (0, {})).1)
    (putElems (fmtBits f) m off (els ++ padNibble (fmtBits f) (pc * hw)), allFlags conv.flatten)

/-- INT32 accumulators written exactly as a map (R167). -/
def writeMapInts (m : Memory) (off layout n hw : Nat) (vals : List (List Int)) : Memory :=
  let pc := padChannels layout n
  putElems 32 m off (vals.zipIdx.flatMap fun r => (List.range pc).map fun c =>
    (mapAddr layout pc hw c r.2, (r.1.getD c 0 % 4294967296).toNat))

/-- The results of every image go through the epilogue and are written as maps of C. -/
def Descriptor.writeMaps (d : Descriptor) (mc : Memory) (steps : List EpiStep) (imgs : List Product) :
    Memory × NumFlags :=
  let g := d.geo
  imgs.zipIdx.foldl (fun acc x =>
    let off := d.cOff + x.2 * mapStride d.fmtC g.layout d.n d.m
    if steps.isEmpty ∧ d.fmtC = 13 ∧ !x.1.exact.isEmpty then
      (writeMapInts acc.1 off g.layout d.n d.m x.1.exact, acc.2.or (allFlags x.1.rows.flatten))
    else
      let r := epiRows steps noB x.1.rows
      let w := writeMap acc.1 off d.fmtC g.layout d.n d.m d.satFinite r.1
      (w.1, (acc.2.or r.2).or w.2)) (mc, {})

/-! ## CONV on the arrays and on the Wash unit (R175 to R185) -/

/-- The product that a direct convolution is: one GEMM of the rows of every image with the filters (R175). -/
def Descriptor.convRows (d : Descriptor) (ma : Memory) (pad : Num) : List (List Num) :=
  (List.range d.batch).flatMap fun b => (List.range d.m).map fun p => d.unrolled ma pad b p
def Descriptor.convCols (d : Descriptor) (mb : Memory) : List (List Num) :=
  (List.range d.n).map fun n => readRow mb d.bOff d.fmtB d.n (d.k * d.geo.kh * d.geo.kw) n

/-- A zero accumulator at every output (R177). -/
def Descriptor.zeroImage (d : Descriptor) : Product where
  exact := if d.int then List.replicate d.m (List.replicate d.n 0) else []
  rows := List.replicate d.m (List.replicate d.n (0, {}))

/-- A sum in order from its first term. -/
def sumOrder (l : List (Word × NumFlags)) : Word × NumFlags :=
  match l with
  | [] => (0, {})
  | x :: r => r.foldl addF x

/-- The depthwise convolution of one image: FP32 products and sums in tap order (R185). -/
def Descriptor.depthImage (d : Descriptor) (ma mb : Memory) (pad : Num) (b : Nat) : Product where
  rows := (List.range d.m).map fun p => (List.range d.n).map fun c =>
    let w := readRowPairs mb d.bOff d.fmtB d.n (d.geo.kh * d.geo.kw) c
    sumOrder (d.geo.taps.zipIdx.map fun t =>
      let x := toF32 (d.tapValue ma pad b c p t.1)
      let y := w.getD t.2 (0, {})
      let r := fMul x.1 y.1
      (r.1, (x.2.or y.2).or r.2))

/-! ### Winograd F(2x2, 3x3) (R141, R181 to R183; log 12) -/

/-- One dimension of the input transform, and of the output transform, in FP32. -/
def wino4 (x : Nat → Word) : List (Word × NumFlags) := [fSub (x 0) (x 2), fAdd (x 1) (x 2), fSub (x 2) (x 1), fSub (x 1) (x 3)]
def wino2 (x : Nat → Word) : List (Word × NumFlags) :=
  let a := fAdd (x 0) (x 1)
  let b := fAdd a.1 (x 2)
  let c := fSub (x 1) (x 2)
  let e := fSub c.1 (x 3)
  [(b.1, a.2.or b.2), (e.1, c.2.or e.2)]

/-- A transform of `rows` rows of 4 values: along the rows, then along the columns. -/
def winoBoth (f : (Nat → Word) → List (Word × NumFlags)) (out : Nat) (x : List (List Word)) :
    List (List Word) × NumFlags :=
  let a := x.map fun r => f fun k => r.getD k 0
  let cols := (List.range out).map fun c => f fun k => ((a.getD k []).getD c (0, {})).1
  ((List.range out).map fun r => cols.map fun c => (c.getD r (0, {})).1,
   (allFlags a.flatten).or (allFlags cols.flatten))

/-- The format of transformed activations (R141, R181). -/
def Descriptor.winoFormat (d : Descriptor) : Nat := if d.flag 9 then 4 else d.fmtA

/-- Tiles of 2 x 2 outputs: along a row, of an image, of the batch; and the tiles of strip `s` (R182). -/
def Descriptor.winoAcross (d : Descriptor) : Nat := (d.geo.outW + 1) / 2
def Descriptor.winoImage (d : Descriptor) : Nat := d.winoAcross * ((d.geo.outH + 1) / 2)
def Descriptor.winoTiles (d : Descriptor) : Nat := d.winoImage * d.batch
def Descriptor.winoStrips (d : Descriptor) : Nat := (d.winoTiles + 127) / 128
def Descriptor.winoIn (d : Descriptor) (s : Nat) : Nat := min 128 (d.winoTiles - 128 * s)

/-- Tile `t` transformed: a 4 x 4 block for each input channel, and the flags (R141). -/
def Descriptor.winoPatch (d : Descriptor) (ma : Memory) (pad : Num) (t : Nat) : List (List (List Word)) × NumFlags :=
  let g := d.geo
  let tx := t % d.winoImage % d.winoAcross
  let ty := t % d.winoImage / d.winoAcross
  let value (c y x : Nat) : Word × NumFlags :=
    toF32 (match g.resolve (((2 * tx + x : Nat) : Int) - g.padL) (((2 * ty + y : Nat) : Int) - g.padT) with
      | some q => d.inElem ma (t / d.winoImage) c q
      | none => pad)
  let r := (List.range d.k).map fun c =>
    let v := (List.range 4).map fun y => (List.range 4).map fun x => value c y x
    let o := winoBoth wino4 4 (v.map (·.map (·.1)))
    (o.1, (allFlags v.flatten).or o.2)
  (r.map (·.1), allFlags r)

/-- Phase 1 of a strip: sixteen position planes of transformed activations, each a tensor of the strip's tiles by K, and
the flags (R182). DESIGN CHOICE: the rounding into the activation format obeys SATFINITE and raises CONV_SAT as an
output conversion does (log 12). -/
def Descriptor.winoPlanes (d : Descriptor) (ma : Memory) (pad : Num) (s : Nat) : List Memory × NumFlags :=
  let ps := (List.range (d.winoIn s)).map fun i => d.winoPatch ma pad (128 * s + i)
  let ws := (List.range 16).map fun xi =>
    writeRows [] 0 d.winoFormat d.k d.satFinite (ps.map fun p => p.1.map fun c => (c.getD (xi / 4) []).getD (xi % 4) 0)
  (ws.map (·.1), (allFlags ps).or (allFlags ws))

/-- The planes of every strip. -/
def Descriptor.winoInput (d : Descriptor) (ma : Memory) (pad : Num) : List (List Memory × NumFlags) :=
  (List.range d.winoStrips).map (d.winoPlanes ma pad)

/-- The products of phase 2, in the order of R182: strip, position, column group. -/
def Descriptor.winoWork (d : Descriptor) (planes : List (List Memory × NumFlags)) (mb : Memory) : ArrayWork where
  pack := outColumns d.winoFormat d.fmtB / 4
  tiles := planes.zipIdx.flatMap fun st => st.1.1.zipIdx.flatMap fun pl =>
    tilesOf (tileRows d.winoFormat d.fmtB) (outColumns d.winoFormat d.fmtB) (rowTime d.winoFormat d.fmtB)
      ((List.range (d.winoIn st.2)).map fun i => readRow pl.1 0 d.winoFormat (d.winoIn st.2) d.k i)
      ((List.range d.n).map fun n => readRow mb d.bOff d.fmtB (16 * d.n) d.k (pl.2 * d.n + n))

/-- The results of phase 2 by strip and position: rows of a strip's tiles by output channels. -/
def Descriptor.winoSums (d : Descriptor) (r : List (List (List Accum))) : List (List (List Accum)) :=
  resultsOf d.winoFormat d.fmtB ((List.range d.winoStrips).flatMap fun s => List.replicate 16 (d.winoIn s, d.n)) r

/-- Phase 3 at one tile and output channel: the output transform of its sixteen position values (R182). -/
def Descriptor.winoOut (sums : List (List (List Accum))) (t n : Nat) : List (List Word) × NumFlags :=
  let ms := (List.range 16).map fun xi => ((sums.getD (t / 128 * 16 + xi) []).getD (t % 128) []).getD n {}
  let o := winoBoth wino2 2 ((List.range 4).map fun y => (List.range 4).map fun x => (ms.getD (4 * y + x) {}).f32)
  (o.1, (allFlags (ms.map fun m => (m.f32, m.flags))).or o.2)

/-- The results of one image; outputs beyond the map are not written (R182). -/
def Descriptor.winoProduct (d : Descriptor) (sums : List (List (List Accum))) (b : Nat) : Product where
  rows := (List.range d.m).map fun p =>
    let ox := p % d.geo.outW
    let oy := p / d.geo.outW
    (List.range d.n).map fun n =>
      let o := Descriptor.winoOut sums (b * d.winoImage + oy / 2 * d.winoAcross + ox / 2) n
      ((o.1.getD (oy % 2) []).getD (ox % 2) 0, o.2)

/-- The first byte of a slot's workspace (R183). -/
def workspaceBase (plateLocal slot : Nat) : Nat := plateLocal * 4096 - (slot + 1) * 8388608

/-- Bytes kept for one transformed plane of a strip. -/
def Descriptor.planeBytes (d : Descriptor) : Nat := tensorBytes d.winoFormat 128 d.k

/-- Phase 1 leaves its planes in the workspace: two strips, each of sixteen planes (R183). DESIGN CHOICE: strip s takes
half s mod 2, and position planes lie behind all transformed ones (log 12). -/
def Descriptor.winoKeepInput (d : Descriptor) (base : Nat) (planes : List (List Memory × NumFlags)) (m : Memory) : Memory :=
  planes.zipIdx.foldl (fun m st => st.1.1.zipIdx.foldl (fun m pl =>
    Memory.writeBytes m (base + (st.2 % 2 * 16 + pl.2) * d.planeBytes)
      (Memory.readBytes pl.1 0 (tensorBytes d.winoFormat (d.winoIn st.2) d.k))) m) m

/-- The raw drains of phase 2 leave the position values of each column group of 256 there, in FP32 (R182, R183). -/
def Descriptor.winoKeepSums (d : Descriptor) (base : Nat) (sums : List (List (List Accum))) (m : Memory) : Memory :=
  (List.range d.winoStrips).foldl (fun m s => (List.range 16).foldl (fun m xi =>
    (List.range ((d.n + 255) / 256)).foldl (fun m g =>
      Memory.writeBytes m (base + 32 * d.planeBytes + s % 2 * 2097152 + xi * 131072)
        ((sums.getD (s * 16 + xi) []).flatMap fun r => ((r.drop (256 * g)).take 256).flatMap fun a => wordBytes a.f32)) m) m) m

/-- The activation row time of a CONV: dense channels-last rows of other than whole K steps take two
(R176). -/
def Descriptor.convRow (d : Descriptor) : Nat :=
  rowTime d.fmtA d.fmtB * (if d.geo.layout = 2 ∧ d.k % 64 ≠ 0 then 2 else 1)

/-- One past the last byte of the output maps. -/
def Descriptor.mapsEnd (d : Descriptor) : Nat := d.cOff + mapsBytes d.fmtC d.geo.layout d.n d.m d.batch

/-- The time of a Winograd descriptor for its tiles in strips of 128 (R184). -/
def Descriptor.winoCycles (d : Descriptor) : Nat :=
  let tiles := d.winoTiles
  let groups := (d.n + 255) / 256
  let strip (t : Nat) : Nat :=
    let a := groups * 16 * ((d.k + 63) / 64) * (64 + t * rowTime d.winoFormat d.fmtB)
    let w := (16 * t * d.k + 63) / 64 + (16 * t * d.n + 63) / 64
    max a w
  let edge := (16 * min 128 tiles * (d.k + d.n) + 63) / 64
  total ((List.range ((tiles + 127) / 128)).map fun k => strip (min 128 (tiles - 128 * k))) + edge + 131

/-- CONV outside the Margin engine: on the arrays its results are written when its last bank has drained. -/
def State.convGo (j : Job) (slot : Nat) (i : InFlight) (steps : List EpiStep) (s : State) : State :=
  let d := i.desc
  let g := d.geo
  let ma := j.bytes slot d.aObj
  let mb := j.bytes slot d.bObj
  let pad := d.padValue
  let outs := d.batch * mapElems g.layout d.n d.m
  let writes (image : Nat → Product) : Memory × NumFlags :=
    d.writeMaps (j.bytes slot d.cObj) steps ((List.range d.batch).map image)
  if d.n = 0 ∨ d.batch = 0 then s.acted j slot i stEmpty {} 0 0 0
  else if d.k = 0 then
    let w := writes fun _ => d.zeroImage
    (s.store j slot d.cObj d.mapsEnd fun _ => w.1).acted j slot i stOk ((pad.2.or w.2).or { kZero := true }) 0 0
      (epiCycles steps outs)
  else if g.depthwise then
    let w := writes (d.depthImage ma mb pad.1)
    (s.store j slot d.cObj d.mapsEnd fun _ => w.1).acted j slot i stOk (pad.2.or w.2) 0 0
      ((outs + 63) / 64 * (g.kh * g.kw + (if steps.any fun e => decide (8 ≤ e.op) then 3 else 0)) + 12)
  else if d.flag 11 then
    let planes := d.winoInput ma pad.1
    let kept := s.updJob j.id fun x => { x with
      local_ := d.winoKeepInput (workspaceBase x.chain.plateLocal slot) planes x.local_ }
    (kept.addDigest j slot false).onArrays j slot i (pad.2.or (allFlags planes)) (d.winoWork planes mb)
      d.winoCycles
  else
    let work := { arrayWork d.fmtA d.fmtB d.convRow (drainOf steps) [(d.convRows ma pad.1, d.convCols mb)] with int := d.int }
    let mt := min (d.batch * d.m) (tileRows d.fmtA d.fmtB)
    (s.addDigest j slot d.int).onArrays j slot i pad.2 work
      (arrayCycles work.tiles (epiCycles steps (mt * min d.n (outColumns d.fmtA d.fmtB))))

/-- The last bank of a CONV has drained: the output maps are written (R106, R107, R182). -/
def State.convDone (j : Job) (slot : Nat) (i : InFlight) (s : State) : State :=
  let d := i.desc
  s.withEpilogue j slot d d.m d.n false (fun steps =>
    let sums := d.winoSums i.work.results
    let rows := chunksOf d.m d.batch (resultsOf d.fmtA d.fmtB [(d.batch * d.m, d.n)] i.work.results).flatten
    let images := if d.flag 11 then (List.range d.batch).map (d.winoProduct sums) else rows.map (productFrom d.int)
    let w := d.writeMaps (j.bytes slot d.cObj) steps images
    let s1 := if d.flag 11 then s.updJob j.id fun x =>
        { x with local_ := d.winoKeepSums (workspaceBase x.chain.plateLocal slot) sums x.local_ }
      else s
    (s1.store j slot d.cObj d.mapsEnd fun _ => w.1).acted j slot i stOk w.2 0 0 i.cycles)

/-! ## POOL (R186) -/

/-- The FP32 value of 1 / n. -/
def f32Recip (n : Nat) : Word :=
  (toF32 (.fin false (2 ^ 64 / max 1 n * 2 + (if 2 ^ 64 % max 1 n = 0 then 0 else 1)) (-65))).1

/-- The mean of pooled values: their sum in order times the reciprocal of their number (R186). -/
def poolMean (xs : List (Word × NumFlags)) : Word × NumFlags :=
  if xs.isEmpty then (0, {})
  else
    let t := sumOrder xs
    let r := fMul t.1 (f32Recip xs.length)
    (r.1, t.2.or r.2)

/-- One pooled result from its taps: values with pads, and whether each lies inside the map. -/
def poolValue (sub : Nat) (taps : List ((Word × NumFlags) × Bool)) : Word × NumFlags :=
  match sub with
  | 0 =>
    match taps with
    | [] => (0, {})
    | x :: r => ((r.map (·.1.1)).foldl fMax x.1.1, allFlags (taps.map (·.1)))
  | 1 => poolMean ((taps.filter (·.2)).map (·.1))
  | _ => poolMean (taps.map (·.1))

/-- The pool of one image; `value` gives a tap in FP32, with the flags of its conversion. -/
def Descriptor.poolImage (d : Descriptor) (value : Nat → Nat → Nat × Nat → Word × NumFlags) : Product where
  rows := (List.range d.m).map fun p => (List.range d.n).map fun c =>
    poolValue d.sub (d.geo.taps.map fun t => (value c p t, d.geo.inside p t))

/-- POOL on the Wash unit. -/
def State.poolGo (j : Job) (slot : Nat) (i : InFlight) (steps : List EpiStep) (s : State) : State :=
  let d := i.desc
  let ma := j.bytes slot d.aObj
  let pad := d.padValue
  if d.n = 0 ∨ d.batch = 0 then s.acted j slot i stEmpty {} 0 0 0
  else
    let w := d.writeMaps (j.bytes slot d.cObj) steps ((List.range d.batch).map fun b =>
      d.poolImage fun c p t => toF32 (d.tapValue ma pad.1 b c p t))
    let outs := d.batch * mapElems d.geo.layout d.n d.m
    (s.store j slot d.cObj d.mapsEnd fun _ => w.1).acted j slot i stOk (pad.2.or w.2) 0 0
      ((outs + 63) / 64 * (d.geo.kh * d.geo.kw + (if d.sub = 0 then 0 else 1)) + epiCycles steps outs)

/-! ## The Margin engine (R187 to R192) -/

/-- Sample `x` of a row of raw pixels of 8, 10 or 12 bits (R188). -/
def rawSample (m : Memory) (row bits x : Nat) : Nat :=
  let at_ (k : Nat) : Nat := (Memory.read m (row + k)).toNat
  if bits = 8 then at_ x
  else if bits = 10 then
    let q := 5 * (x / 4)
    4 * at_ (q + x % 4) + at_ (q + 4) / 2 ^ (2 * (x % 4)) % 4
  else
    let q := 3 * (x / 2)
    16 * at_ (q + x % 2) + at_ (q + 2) / 2 ^ (4 * (x % 2)) % 16

/-- Sample (c, p) of image b as the Margin engine reads it (R188, R190). -/
def Descriptor.marginSample (d : Descriptor) (m : Memory) (b c p : Nat) : Num :=
  let g := d.geo
  if d.op = 2 ∧ d.sub ≠ 0 then
    let pitch := rawPitch d.sub d.k g.inW
    let size := rawBytes d.sub d.k g.inW g.inH
    let base := d.aOff + b * ((size + 63) / 64 * 64)
    let x := p % g.inW
    let y := p / g.inW
    .fin false (if rawInterleaved d.sub then rawSample m (base + y * pitch) (rawBits d.sub) (x * d.k + c)
      else rawSample m (base + (c * g.inH + y) * pitch) (rawBits d.sub) x) 0
  else d.inElem m b c p

/-- (sample - OFFSET) x SCALE with one rounding (R189, R190). -/
def normalise (norm : Option Memory) (c : Nat) (x : Num) : Word × NumFlags :=
  match norm with
  | none => toF32 x
  | some m =>
    let o := ofF32 (Memory.readWord m (4 + 8 * c))
    let k := ofF32 (Memory.readWord m (8 + 8 * c))
    withInvalid [x, o, k] (numMul (numAdd x (numNeg o)) k)

/-- One tap on the Margin engine: padding applies to the normalised values. -/
def Descriptor.marginTap (d : Descriptor) (m : Memory) (norm : Option Memory) (b c p : Nat) (t : Nat × Nat) :
    Word × NumFlags :=
  match d.geo.resolve (d.geo.tapX p t.2) (d.geo.tapY p t.1) with
  | some q => normalise norm c (d.marginSample m b c q)
  | none => (d.word 13, {})

/-- The convolution of one image by fused multiply-add in r order (R190). -/
def Descriptor.marginImage (d : Descriptor) (ma mb : Memory) (norm : Option Memory) (b : Nat) : Product :=
  let g := d.geo
  let shape := d.filterShape
  { rows := (List.range d.m).map fun p => (List.range d.n).map fun n =>
      let xs := if g.depthwise then g.taps.map fun t => d.marginTap ma norm b n p t
        else g.taps.flatMap fun t => (List.range d.k).map fun c => d.marginTap ma norm b c p t
      let ws := readRowPairs mb d.bOff d.fmtB shape.1 shape.2 n
      (List.zip xs ws).foldl (fun acc x =>
        let r := fFma x.1.1 x.2.1 acc.1
        (r.1, ((acc.2.or x.1.2).or x.2.2).or r.2)) (0, {}) }

/-- The time of a Margin descriptor (R191). -/
def Descriptor.marginCycles (d : Descriptor) : Nat :=
  let g := d.geo
  let m := d.batch * d.m
  let taps := g.kh * g.kw
  let load := if d.op = 2 then (d.filterShape.1 * d.filterShape.2 + 63) / 64 else 0
  let work := (m + 127) / 128 * ((d.n + 7) / 8) * taps
  load + (if d.op = 2 ∧ d.word 15 ≠ 0 then d.k else 0) + (if d.op = 2 ∧ !g.depthwise then work * d.k else work) +
    (if d.op = 3 ∧ d.sub ≠ 0 then (m + 127) / 128 else 0) + 24

/-- A Margin descriptor has its result; it acts when the engine is done with it (R191). -/
def State.marginActs (j : Job) (slot : Nat) (i : InFlight) (status : Byte) (flags : NumFlags) (cycles : Nat)
    (s : State) : State :=
  s.updFlight j.id slot i.index fun x =>
    { x with stage := .waiting, status := status, flags := x.flags.or flags, cycles := cycles }

/-- CONV or POOL on the Margin engine, for the descriptor that it runs. -/
def State.marginGo (j : Job) (slot : Nat) (i : InFlight) (steps : List EpiStep) (s : State) : State :=
  let d := i.desc
  let ma := j.bytes slot d.aObj
  let mn := j.bytes slot (d.word 15)
  let norm := if d.op = 2 ∧ d.word 15 ≠ 0 then some mn else none
  if d.n = 0 ∨ d.batch = 0 then s.marginActs j slot i stEmpty {} 0
  else if norm.isSome ∧ (Memory.readWord mn 0 ≠ wd d.k ∨ d.k = 0 ∨ 8 < d.k) then s.failDesc j (stBadDescriptor, 15)
  else
    let image (b : Nat) : Product :=
      if d.op = 3 then d.poolImage fun c p t => d.marginTap ma none b c p t
      else if d.k = 0 then d.zeroImage
      else d.marginImage ma (j.bytes slot d.bObj) norm b
    let w := d.writeMaps (j.bytes slot d.cObj) steps ((List.range d.batch).map image)
    let flags := if d.op = 2 ∧ d.k = 0 then w.2.or { kZero := true } else w.2
    (s.store j slot d.cObj d.mapsEnd fun _ => w.1).marginActs j slot i stOk flags d.marginCycles

/-- CONV (R175 to R185, R187 to R190): on the arrays, on the Wash unit if depthwise, or on the Margin engine
once it has taken the descriptor from its queue. -/
def execConv (job : Word) (slot : Fin 32) (s : State) : Host.Outcome State Fault Refusal :=
  .next (s.act job slot 0x02 (fun _ => true) (fun j i s =>
    s.withEpilogue j slot i.desc i.desc.m i.desc.n false (fun steps =>
      if i.desc.flag 13 then s.marginGo j slot i steps else s.convGo j slot i steps)))

/-- POOL (R186 to R188). -/
def execPool (job : Word) (slot : Fin 32) (s : State) : Host.Outcome State Fault Refusal :=
  .next (s.act job slot 0x03 (fun _ => true) (fun j i s =>
    s.withEpilogue j slot i.desc i.desc.m i.desc.n false (fun steps =>
      if i.desc.flag 13 then s.marginGo j slot i steps else s.poolGo j slot i steps)))

/-- The place of a queue entry in the order of R192: by job deadline, then job ID, then slot. -/
def State.marginBefore (s : State) (a b : Word × Nat) : Bool :=
  match s.job? a.1, s.job? b.1 with
  | some x, some y => if a.1 = b.1 then decide (a.2 < b.2) else x.before y
  | _, _ => false

/-- The MARGIN descriptor in flight of a slot. -/
def Job.marginFlight (j : Job) (slot : Nat) : Option InFlight :=
  (j.slots.getD slot {}).inFlight.find? fun i => i.stage = .waiting && i.desc.flag 13 && (i.desc.op = 2 || i.desc.op = 3)

/-- MARGIN_QUEUE_START (R192): the idle engine takes the first waiting descriptor. -/
def execMarginQueueStart (s : State) : Host.Outcome State Fault Refusal :=
  .next (if s.jobs.marginRun.isSome then s
    else
      match s.jobs.marginQueue.foldl (fun acc e => insertBy s.marginBefore e acc) [] with
      | [] => s
      | e :: _ =>
        let s1 := s.updJobs fun q => { q with marginRun := some e, marginQueue := q.marginQueue.filter (· != e) }
        match (s.job? e.1).bind fun j => j.marginFlight e.2 with
        | none => s1
        | some i => s1.updFlight e.1 e.2 i.index fun x => { x with stage := .issued })

/-- MARGIN_DESCRIPTOR_DONE (R191): the running descriptor has run to its end. -/
def execMarginDescriptorDone (s : State) : Host.Outcome State Fault Refusal :=
  .next (match s.jobs.marginRun with
    | none => s
    | some e =>
      match (s.job? e.1).bind fun j => j.marginFlight e.2 with
      | none => s
      | some i =>
        (s.updJobs fun q => { q with marginRun := none }).updFlight e.1 e.2 i.index fun x =>
          { x with stage := .acted })

/-- MARGIN_RESIDUE_FAULT (R192): an uncorrected fault of the owning job. -/
def execMarginResidueFault (s : State) : Host.Outcome State Fault Refusal :=
  .next (match s.jobs.marginRun with
    | none => s
    | some e => (s.report 0x0B 0 1 2 4 ((s.job? e.1).map (·.part)) e.1 0).faultJob e.1 none)

end Sys2Proof.Machine
end

