-- ==== Sys2Proof/Machine/Tracing.lean ====
section
/-!
DEFINITION. The Tracing unit (R327 to R337): the ego filter, FUSE with association, births, misses and
contradictions in the holder's journal, what a seal applies of it, and calibration.
-/

namespace Sys2Proof.Machine

open Sys2Proof

/-! ## Sensors (R328) -/

/-- What FUSE knows of a sensor: the header and the entry of the model object, its corrected extrinsics, and
its type. -/
structure Sensor where
  entry : Nat := 0
  kind : Nat := 0
  header : List Word := []
  model : List Word := []
  extrinsics : List Word := []
deriving DecidableEq, Repr, Inhabited

/-- LATENCY in units, what lies below one cut off (R328, log 18). -/
def Sensor.latency (v : Sensor) : Int :=
  match ofF32 (v.model.getD 6 0) with
  | .fin n m e => intAt n (m * 1000000000 * 2 ^ 32) e 0
  | _ => 0

/-- All words of a sensor that the geometry depends on. -/
def Sensor.words (v : Sensor) : List Word := v.header ++ v.model ++ v.extrinsics

/-- The gate of a sensor (R328, R332). -/
def Sensor.gate (v : Sensor) : Word := v.header.getD (if v.kind = 1 then 0 else 1) 0
def Sensor.gate3 (v : Sensor) : Word := v.header.getD 1 0
def Sensor.confirmM (v : Sensor) : Nat := fld (v.header.getD 3 0) 3 0
def Sensor.confirmN (v : Sensor) : Nat := fld (v.header.getD 3 0) 7 4

/-- Calibration of a FUSION entry. -/
def State.calOf (s : State) (k : Nat) : Calibration := s.trc.cal.getD k {}

/-- A sensor of the running FUSION record (R328, R333). A model object with a reserved field that is not 0 is rejected
(R9), as if there were none (log 18). -/
def State.sensor (s : State) (f : FusionRec) (k : Nat) : Sensor :=
  let e := f.entries.getD k {}
  let m := (((s.newest? f.part f.modelObj).map (·.data)).filter fun m => modelOk m f.entries.length).getD []
  let x := ((s.newest? f.part e.extrinsicObj).map (·.data)).getD []
  { entry := k, kind := e.sensorType, header := Memory.readWords m 0 16
    model := Memory.readWords m (64 + 64 * k) 16
    extrinsics := (Memory.readWords x 0 6).zipWith (fun a b => (fAdd a b).1) (s.calOf k).correction }

/-- The Tracing unit is clocked, powered and in service (R329, R432). -/
def State.trcOn (s : State) : Bool := !s.trc.retired && s.otl.running.domain 20 && s.otl.running.unitRun.getLsbD 1

/-! ## Detections (R329) -/

/-- A detection: class, score, measured values and variances. -/
structure Detection where
  cls : Nat := 0
  score : Word := 0
  words : List Word := []
deriving DecidableEq, Repr, Inhabited

/-- The bytes of a detection list (R329). -/
def listBytes (m : Memory) (off : Nat) : Nat := 16 + 32 * fld (Memory.readWord m off) 10 0

/-- A detection list: its time and its detections; none where it is malformed (R9, R329). -/
def parseList (m : Memory) (off : Nat) (now : Int) : Option (Int × List Detection) :=
  let w (k : Nat) : Word := Memory.readWord m (off + 4 * k)
  let n := fld (w 0) 10 0
  let stamp : Compact := { w0 := w 2, w1 := w 3 }
  if 1024 < n ∨ fld (w 0) 31 11 ≠ 0 ∨ w 1 ≠ 0 ∨ !compactOk stamp ∨
      (List.range n).any (fun d => decide (15 < (w (4 + 8 * d)).toNat)) then none
  else some (compactNear stamp now, (List.range n).map fun d =>
    { cls := fld (w (4 + 8 * d)) 3 0, score := w (5 + 8 * d)
      words := (List.range 6).map fun k => w (6 + 8 * d + k) })

/-! ## Association (R332) -/

/-- The 9 words of a track's state. -/
def Track.words (t : Track) : List Word := t.pos ++ t.vel ++ t.var_
def Track.setWords (ws : List Word) (t : Track) : Track :=
  { t with pos := ws.take 3, vel := (ws.drop 3).take 3, var_ := (ws.drop 6).take 3 }

/-- A list as one application sees it: the sensor, FRAME_TIME, the time FRAME_TIME − LATENCY of its detections, the ego pose, the other sensors, and how many
violations each sensor has in its 60 seconds. -/
structure ListView where
  v : Sensor := {}
  time : Int := 0
  at_ : Int := 0
  ego : List Word := []
  maxTracks : Nat := 0
  sensors : List Sensor := []
  viols : List Nat := []
deriving DecidableEq, Repr, Inhabited

/-- The hypothesis of a track that a sensor gates against: sensor B's own in a conflict, else the first. -/
def Track.hypothesis (t : Track) (k : Nat) : List Word :=
  if t.conflicted ∧ k = t.sensorB then t.hypB.getD t.words else t.words

/-- The time to which that hypothesis was updated. -/
def Track.hypothesisTime (t : Track) (k : Nat) : Int :=
  if t.conflicted ∧ k = t.sensorB ∧ t.hypB.isSome then t.timeB else t.time

/-- A hypothesis predicted to a list, forwards or backwards (R330, R332). -/
def ListView.predict (l : ListView) (t : Track) : List Word :=
  Config.trackPredict (t.hypothesis l.v.entry) (l.at_ - t.hypothesisTime l.v.entry) l.v.words l.ego

/-- The pairs in the gate: distance, track, detection (R332). -/
def ListView.gated (l : ListView) (ts : List Track) (ds : List (Nat × Detection)) : List (Word × Track × Nat) :=
  ts.flatMap fun t => ds.filterMap fun d =>
    let x := Config.gateDistance (l.predict t) l.v.words l.ego d.2.words
    if f32IsNan x ∨ f32IsNan l.v.gate ∨ fLt l.v.gate x then none else some (x, t, d.1)

/-- Ascending distance; equal distances take the lower TRACK_ID, then the lower detection (R332). -/
def pairBefore (a b : Word × Track × Nat) : Bool :=
  if fLt a.1 b.1 then true else if fLt b.1 a.1 then false
  else if a.2.1.id ≠ b.2.1.id then decide (a.2.1.id < b.2.1.id) else decide (a.2.2 < b.2.2)

/-- The greedy assignment: track ID and detection (R332). -/
def assign (pairs : List (Word × Track × Nat)) : List (BitVec 16 × Nat) :=
  (pairs.foldl (fun acc p => insertBy pairBefore p acc) []).foldl (fun acc p =>
    if acc.any fun a => a.1 = p.2.1.id || a.2 = p.2.2 then acc else acc ++ [(p.2.1.id, p.2.2)]) []

/-! ## One track and one list (R332, R334) -/

/-- What one list makes of one track. -/
structure TrackStep where
  track : Option Track := none
  entered : Bool := false
  residual : Bool := false
  demote : Option (Nat × List Word) := none
  escalate : Option (Nat × Nat) := none
deriving DecidableEq, Repr, Inhabited

/-- 100 ms in units. -/
def ms100 : Int := 100 * 1000000 * unitsNs

/-- The associations of other sensors within 100 ms of a time (R333, R334). -/
def Track.others (t : Track) (k : Nat) (time : Int) : List (Nat × Int × List Word) :=
  t.assocs.filter fun a => a.1 != k && decide ((time - a.2.1).natAbs ≤ ms100.natAbs)

/-- TENTATIVE becomes CONFIRMED by M of N; COASTING returns on an association (R332). -/
def Track.confirm (v : Sensor) (t : Track) : Track :=
  if t.state = .coasting ∨ (t.state = .tentative ∧ v.confirmM ≤ (t.history.filter (· = true)).length) then
    { t with state := .confirmed }
  else t

/-- The box that encloses both hypotheses (R334). -/
def Track.conflictArea (t : Track) (ego : List Word) : List Word :=
  Config.conflictBox t.words (t.hypB.getD []) (t.time - t.timeB) ego

/-- After a conflicted update: the hypotheses meet again, or after 5 updates a sensor is demoted or the
conflict is escalated (R334). -/
def ListView.settle (l : ListView) (t : Track) (r : TrackStep) : TrackStep :=
  let n := t.conflictCount + 1
  let meet := t.hypB.any fun h => !fLt l.v.gate3 (Config.hypDistance t.words h (t.time - t.timeB))
  let box := t.conflictArea l.ego
  let va := l.viols.getD t.sensorA 0
  let vb := l.viols.getD t.sensorB 0
  let clear (x : Track) : Track := { x with conflicted := false, conflictCount := 0, hypB := none }
  if meet then { r with track := some (clear t) }
  else if n < 5 then { r with track := some { t with conflictCount := n } }
  else if va = vb then { r with track := some { t with conflictCount := n }, escalate := some (t.sensorA, t.sensorB) }
  else if vb < va then
    { r with track := t.hypB.map fun h => clear { t.setWords h with time := t.timeB }, demote := some (t.sensorA, box) }
  else { r with track := some (clear t), demote := some (t.sensorB, box) }

/-- A track becomes CONFLICTED between the sensor that associated it first and the list's (R334). -/
def Track.conflict (a b : Nat) (hypB : Option (List Word)) (time : Int) (t : Track) : Track :=
  { t with conflicted := true, sensorA := a, sensorB := b, hypB := hypB, timeB := time, conflictCount := 0, changed := true }

/-- A track takes an association (R332 to R334). -/
def ListView.associate (l : ListView) (d : Detection) (t : Track) : TrackStep :=
  let k := l.v.entry
  let new := Config.trackUpdate (l.predict t) l.v.words l.ego d.words
  let note (x : Track) : Track :=
    Track.confirm l.v { x with
      lastAssoc := max x.lastAssoc l.time, missRun := 0, changed := true
      history := (true :: x.history).take l.v.confirmN
      assocs := (k, l.at_, d.words) :: x.assocs.filter (·.1 != k) }
  let residual := t.state = .confirmed && !(t.others k l.at_).isEmpty
  if t.conflicted then
    if k = t.sensorA then l.settle (note { t.setWords new with time := l.at_ }) { residual := residual }
    else if k = t.sensorB then l.settle (note { t with hypB := some new, timeB := l.at_ }) { residual := residual }
    else { track := some t, residual := residual }
  else
    match (t.others k l.at_).find? fun a =>
        fLt l.v.gate3 (Config.assocDistance a.2.2 (l.sensors.getD a.1 {}).words d.words l.v.words (l.at_ - a.2.1)) with
    | some a => { track := some (note (t.conflict a.1 k (some new) l.at_)), entered := true, residual := residual }
    | none => { track := some (note { t.setWords new with time := l.at_ }), residual := residual }

/-- A track whose sensor sees its place yields a miss (R332, R334); elsewhere nothing changes. -/
def ListView.miss (l : ListView) (t : Track) : TrackStep :=
  let k := l.v.entry
  if !Config.inView (l.predict t) l.v.words l.ego then { track := some t }
  else
    let t1 := { t with
      missRun := t.missRun + 1, changed := true, history := (false :: t.history).take l.v.confirmN
      state := if t.state = .confirmed then .coasting else t.state }
    if t.state = .tentative ∧ 2 ≤ t1.missRun then {}
    else if t.conflicted then
      if k = t.sensorB ∧ t.hypB.isNone then l.settle t1 {} else { track := some t1 }
    else if bit (l.v.model.getD 0 0) (8 + t.cls) then
      match (t.others k l.at_).head? with
      | some a => { track := some (t1.conflict a.1 k none l.at_), entered := true }
      | none => { track := some t1 }
    else { track := some t1 }

/-! ## A list (R330, R332) -/

/-- What applying a list counts. -/
structure ListResult where
  table : TrackTable := {}
  associated : Nat := 0
  born : Nat := 0
  refused : Nat := 0
  entered : Nat := 0
deriving DecidableEq, Repr, Inhabited

/-- The next track ID: increases by 1, wraps and skips 0 (R332). -/
def nextTrackId (i : BitVec 16) : BitVec 16 := if i + 1 = 0 then 1 else i + 1

/-- A birth from an unassigned lidar or radar detection (R332). -/
def ListView.birth (l : ListView) (d : Detection) (r : ListResult) : ListResult :=
  if l.v.kind = 1 ∨ f32IsNan d.score ∨ f32IsNan (l.v.header.getD 2 0) ∨ fLt d.score (l.v.header.getD 2 0) then r
  else if l.maxTracks ≤ r.table.tracks.length then { r with refused := r.refused + 1 }
  else
    let t : Track :=
      { id := r.table.nextId, cls := d.cls, lastAssoc := l.time, time := l.at_, history := [true], changed := true
        assocs := [(l.v.entry, l.at_, d.words)] }
    let t1 := Track.confirm l.v (t.setWords (Config.trackBirth l.v.words l.ego d.words))
    { r with
      born := r.born + 1
      table := { r.table with tracks := r.table.tracks ++ [t1], nextId := nextTrackId r.table.nextId } }

/-- The detections that a demotion does not ignore (R334). -/
def ListView.heard (l : ListView) (boxes : List (List Word)) (ds : List Detection) : List (Nat × Detection) :=
  (ds.zipIdx.map fun x => (x.2, x.1)).filter fun d =>
    !boxes.any fun b => Config.detInside l.v.words l.ego d.2.words b

/-- A list is applied to the track table (R330 to R334). -/
def ListView.apply (l : ListView) (boxes : List (List Word)) (ds : List Detection) (t : TrackTable) : ListResult :=
  let heard := l.heard boxes ds
  let pairs := assign (l.gated t.tracks heard)
  let steps := t.tracks.map fun x => match (pairs.find? (·.1 = x.id)).bind fun p => heard.find? (·.1 = p.2) with
    | some d => l.associate d.2 x
    | none => l.miss x
  let r0 : ListResult :=
    { associated := pairs.length, entered := (steps.filter (·.entered)).length
      table := { t with
        tracks := steps.filterMap (·.track)
        newest := some (match t.newest with
          | none => l.time
          | some u => max u l.time)
        residuals := t.residuals ++ List.replicate (steps.filter (·.residual)).length l.v.entry
        demotes := t.demotes ++ steps.filterMap (·.demote)
        escalations := t.escalations ++ steps.filterMap (·.escalate) } }
  heard.foldl (fun r d => if pairs.any (·.2 = d.1) then r else l.birth d.2 r) r0

/-! ## The track list (R331) -/

def TrackState.code : TrackState → Nat
  | .tentative => 0 | .confirmed => 1 | .coasting => 2

/-- One entry of the track list (R331). -/
def Track.entry (t : Track) : List Word :=
  let c := compactOf t.lastAssoc
  [wd (t.id.toNat + 65536 * t.state.code + flag t.conflicted 19 + 2 ^ 20 * (t.cls % 16))] ++
    (t.words ++ List.replicate (9 - t.words.length) 0).take 9 ++ [c.w0, c.w1]

/-- The ego position and orientation of the filter (R331). -/
def EgoFilter.pose (e : EgoFilter) : List Word := e.state.take 3 ++ (e.state.drop 6).take 4

/-- The track list of an update (R331). -/
def trackList (ts : List Track) (time : Int) (ego : List Word) : List Word :=
  let c := compactOf time
  [wd ts.length, 0, c.w0, c.w1] ++ (ego ++ List.replicate (7 - ego.length) 0).take 7 ++ List.replicate 5 0 ++
    ts.flatMap Track.entry

/-! ## FUSE and the holder (R329 to R331) -/

/-- The track table as a job sees it. -/
def Trc.seen (t : Trc) : TrackTable := t.shadow.getD t.table

/-- The view of a list from a sensor. -/
def State.listView (s : State) (f : FusionRec) (k : Nat) (time : Int) : ListView :=
  { v := s.sensor f k, time := time, at_ := time - (s.sensor f k).latency, ego := s.trc.ego.pose, maxTracks := f.maxTracks
    sensors := (List.range f.entries.length).map (s.sensor f)
    viols := (List.range f.entries.length).map fun i =>
      ((List.range 60).filter fun b => (s.calOf i).history.getLsbD b).length }

/-- Boxes in which a sensor's detections are ignored (R334). -/
def State.ignored (s : State) (k : Nat) : List (List Word) :=
  ((s.calOf k).demotions.filter fun d => decide (s.edge < d.1)).map (·.2) ++
    (s.trc.seen.demotes.filter (·.1 = k)).map (·.2)

/-- A list is late: its stream is UNSYNC, or it is more than 50 ms older than the newest applied (R330). -/
def State.lateList (s : State) (stream : Nat) (time : Int) : Bool :=
  (s.stream stream).clock.unsync ||
    s.trc.seen.newest.any fun u => decide (time + 50 * 1000000 * unitsNs < u)

/-- FUSE acts in the holder's journal (R329 to R334). -/
def State.fuseGo (j : Job) (slot : Nat) (i : InFlight) (s : State) : State :=
  let d := i.desc
  let m := j.bytes slot d.aObj
  let bad := (stBadDescriptor, (10 : Word))
  match s.otl.running.fusion with
  | none => s.failDesc j bad
  | some f =>
    match firstIdx f.entries.length fun k => (f.entries.getD k {}).stream = d.param0 with
    | none => s.failDesc j bad
    | some k =>
      match parseList m d.aOff s.now with
      | none => s.failDesc j (stBadDescriptor, 4)
      | some (time, ds) =>
        let live := s.trc.seen.tracks.length
        let cells := ds.length
        let cycles := 2 * (64 + 6 * live + cells * ((live + 15) / 16) + 24 * cells +
          (if d.cObj = 0 then 0 else 12 * live))
        let late := s.lateList d.param0 time
        let r : ListResult := if late then { table := s.trc.seen }
          else (s.listView f k time).apply (s.ignored k) ds s.trc.seen
        let out := trackList r.table.tracks time s.trc.ego.pose
        match j.readFault d.aObj d.aOff (listBytes m d.aOff),
            (if d.cObj = 0 then none else j.writeFault d.cObj d.cOff (4 * out.length)) with
        | some e, _ => s.failDesc j e
        | none, some e => s.failDesc j e
        | none, none =>
          let s1 := s.updTrc fun t => { t with
            shadow := some r.table, tableFull := t.tableFull || decide (0 < r.refused) }
          let s2 := ((s1.bumpBy .trcLateLists (toBit late)).bumpBy .trcBirthRefused r.refused).bumpBy .trcConflicts
            r.entered
          let s3 := if d.cObj = 0 then s2
            else s2.store j slot d.cObj (d.cOff + 4 * out.length) fun c => Memory.writeBytes c d.cOff (wordsBytes out)
          s3.acted j slot i stOk {} (wd (r.associated + 65536 * r.born)) 0 cycles

/-- FUSE (R329, R330): the unit is held by one job from its first FUSE to its end; others wait. -/
def execFuse (job : Word) (slot : Fin 32) (s : State) : Host.Outcome State Fault Refusal :=
  .next (s.act job slot 0x10 (fun _ => true) fun j i s =>
    if s.trc.holder = job ∨ (s.trc.holder = 0 ∧ s.trc.queue.isEmpty) then
      (s.updTrc fun t => { t with holder := job }).fuseGo j slot i
    else
      (s.updFlight job slot i.index fun x => { x with stage := .waiting }).updTrc fun t => { t with
        queue := t.queue ++ [(job, slot.val)] })

/-- TRACING_QUEUE_START (R165, R330): the free unit takes the waiting FUSE of the earliest job deadline. -/
def execTracingQueueStart (s : State) : Host.Outcome State Fault Refusal :=
  .next (if s.trc.holder ≠ 0 then s
    else match s.trc.queue.foldl (fun acc e => insertBy s.marginBefore e acc) [] with
      | [] => s
      | e :: _ =>
        let s1 := s.updTrc fun t => { t with holder := e.1, queue := t.queue.filter (· != e) }
        match (s.job? e.1).bind fun j => (j.slots.getD e.2 {}).inFlight.find? fun i =>
            i.stage = .waiting && i.desc.op = 0x10 with
        | none => s1
        | some i => s1.updFlight e.1 e.2 i.index fun x => { x with stage := .issued })

/-! ## What a seal edge applies (R330, R334, R417, R425) -/

/-- Proof holds a conflict box: the box of the same track is refreshed, else a free place, else the one that
expires first (R417). -/
def placeBox (b : ConflictBox) (l : List (Option ConflictBox)) : List (Option ConflictBox) :=
  match firstIdx l.length (fun k => (l.getD k none).any (·.track = b.track)) with
  | some k => l.set k (some b)
  | none =>
    match firstIdx l.length (fun k => (l.getD k none).isNone) with
    | some k => l.set k (some b)
    | none =>
      let age (k : Nat) : Nat := ((l.getD k none).map (·.expires)).getD 0
      l.set ((List.range l.length).foldl (fun m k => if age k < age m then k else m) 0) (some b)

/-- A conflict report of the Tracing unit (R334, R417). -/
def State.conflictReport (ego : List Word) (t : Track) (s : State) : State :=
  let box := t.conflictArea ego
  let b : ConflictBox :=
    { track := t.id, lo := box.take 3, hi := box.drop 3, expires := s.edge + 200 * edgesMs }
  s.updPrf fun p => { p with boxes := placeBox b p.boxes }

/-- An escalation: an error record, the report to Proof and the count, at most once per second and pair
(R334, R425). -/
def State.sensorFaultReport (a b : Nat) (s : State) : State :=
  let same (x : Nat × Nat × Nat) : Bool := (x.1 = a && x.2.1 = b) || (x.1 = b && x.2.1 = a)
  if s.trc.escalated.any fun x => same x && decide (s.edge < x.2.2 + edgesSec) then s
  else
    let part := s.otl.running.fusion.map (·.part)
    let s1 := s.updTrc fun t => { t with
      escalated := (a, b, s.edge) :: t.escalated.filter fun x => !same x }
    ((s1.report 0x0C 0 5 0 0x0074 part 0 (a + 256 * b)).bump .trcSensorFaults).updPrf fun p =>
      Prf.settle { p with sensorFault := some s.edge }

/-- A sensor is demoted for 10 s within a box (R334). -/
def State.demoteSensor (k : Nat) (box : List Word) (s : State) : State :=
  let f (c : Calibration) : Calibration := { c with demotions := c.demotions ++ [(s.edge + 10 * edgesSec, box)] }
  (s.updTrc fun t => { t with cal := t.cal.modify k f }).bump .trcDemotions

/-- The journal of the holder is applied at its seal edge (R330, R334). -/
def State.sealTracks (id : Word) (s : State) : State :=
  match s.trc.shadow with
  | none => s
  | some t =>
    if s.trc.holder ≠ id then s
    else
      let s1 := (t.tracks.filter fun x => x.conflicted && x.changed).foldl
        (fun s x => s.conflictReport s.trc.ego.pose x) s
      let s2 := t.demotes.foldl (fun s x => s.demoteSensor x.1 x.2) s1
      let s3 := t.escalations.foldl (fun s x => s.sensorFaultReport x.1 x.2) s2
      let count (x : Calibration) : Calibration := { x with residuals := x.residuals + 1 }
      let s4 := t.residuals.foldl (fun s k => s.updTrc fun c => { c with cal := c.cal.modify k count }) s3
      s4.updTrc fun c => { c with
        shadow := none
        table := { t with
          tracks := t.tracks.map fun x => { x with changed := false }
          residuals := [], demotes := [], escalations := [] } }

/-! ## Track life and calibration (R332, R333) -/

/-- TRACK_COAST_EXPIRE (R332): a COASTING track ends COAST_MS after its last association. -/
def execTrackCoastExpire (track : BitVec 16) (s : State) : Host.Outcome State Fault Refusal :=
  let coast := match s.otl.running.fusion with
    | none => 0
    | some f => fld ((s.sensor f 0).header.getD 3 0) 31 16
  let gone (t : Track) : Bool :=
    t.id = track && t.state = .coasting && decide (t.lastAssoc + (coast : Int) * 1000000 * unitsNs ≤ s.now)
  let cut (t : TrackTable) : TrackTable := { t with tracks := t.tracks.filter fun x => !gone x }
  .next (s.updTrc fun t => { t with table := cut t.table, shadow := t.shadow.map cut })

/-- Clamp an FP32 value to ±b; a NaN stays as the minimum of R138 leaves it. -/
def fClamp (b x : Word) : Word := fMax (b ||| 0x80000000) (fMin b x)

/-- FP32 of 0.001 m and 0.05 degrees in radians: the bounds of one correction; of 0.02 m and 2 degrees: the bounds
of their sum (R333). -/
def calStep (k : Nat) : Word := if k < 3 then 0x3A83126F else 0x3A64C388
def calTotal (k : Nat) : Word := if k < 3 then 0x3CA3D70A else 0x3D0EFA35

/-- One correction of the six values: the sums after it, whether a component was clipped, and whether one is
held at the total bound (R333). -/
def calApply (sum solved : List Word) : List Word × Bool × Bool :=
  let step := (List.range 6).map fun k => fClamp (calStep k) (solved.getD k 0)
  let raw := (List.range 6).map fun k => (fAdd (sum.getD k 0) (step.getD k 0)).1
  let out := (List.range 6).map fun k => fClamp (calTotal k) (raw.getD k 0)
  (out, (List.range 6).any (fun k => step.getD k 0 != solved.getD k 0 || out.getD k 0 != raw.getD k 0),
    (List.range 6).any fun k => fAbs (out.getD k 0) = calTotal k)

/-- `n` free words. -/
def State.draws : Nat → State → List Word × State
  | 0, s => ([], s)
  | n + 1, s => let r := s.draw; let q := State.draws n r.2; (r.1 :: q.1, q.2)

/-- A second has passed since the newest refinement of a sensor (R333). -/
def State.refineDue (s : State) (k : Nat) : Bool :=
  s.trcOn && decide (k < s.trc.cal.length) && decide ((s.calOf k).refineEdge + edgesSec ≤ s.edge)

/-- CALIBRATION_REFINE (R333): once per second, with 32 residuals or more, the extrinsics are corrected within
bounds. The least-squares solution is free: the manual gives no formula (log 18). -/
def execCalibrationRefine (sensor : Fin 48) (s : State) : Host.Outcome State Fault Refusal :=
  let k : Nat := sensor
  .next (if !s.refineDue k then s
    else
      let c := s.calOf k
      let r := s.draws 6
      let a := calApply c.correction r.1
      let enough := decide (32 ≤ c.residuals)
      let viol := enough && (a.2.1 || a.2.2)
      let c1 : Calibration :=
        { c with
          correction := if enough then a.1 else c.correction
          limit := if enough then a.2.2 else c.limit
          history := (c.history <<< 1) ||| (if viol then 1 else 0)
          residuals := 0
          refineEdge := s.edge }
      (r.2.updTrc fun t => { t with cal := t.cal.set k c1 }).bumpBy (.trcCalViol sensor) (toBit viol))

/-- DEMOTION_EXPIRE (R334): a demotion ends after 10 s. -/
def execDemotionExpire (sensor : Fin 48) (s : State) : Host.Outcome State Fault Refusal :=
  let f (c : Calibration) : Calibration := { c with demotions := c.demotions.filter fun d => decide (s.edge < d.1) }
  .next (s.updTrc fun t => { t with cal := t.cal.modify sensor f })

/-! ## Ego-motion (R327, R337) -/

/-- The running FUSION record while the filter runs. -/
def State.egoOn (s : State) : Option FusionRec :=
  if s.trcOn then s.otl.running.fusion.filter fun f => f.egoHz != 0 else none

/-- A version of an ego stream that holds a sample: its frame time and its FP32 values (R327). -/
def State.egoFrame (s : State) (n : Nat) (x : EgoSample) (t : Int) : Bool :=
  let y := s.stream n
  !y.frozen && !y.clock.unsync &&
    y.versions.any fun f => f.frameTime = t && bytesWords x.values.length f.payload = x.values

/-- EGO_PROPAGATE (R327): an inertial frame propagates the filter to its FRAME_TIME; an UNSYNC or FROZEN stream
is not applied. -/
def execEgoPropagate (x : EgoSample) (frameTime : Int) (s : State) : Host.Outcome State Fault Refusal :=
  .next (match s.egoOn with
    | none => s
    | some f =>
      if x.values.length = 6 ∧ s.egoFrame f.inertialStream x frameTime then
        s.updTrc fun t => { t with ego :=
          { t.ego with
            state := Config.egoPropagate t.ego.state x.values (frameTime - t.ego.time)
            time := frameTime, valid := true, lastInertial := s.edge } }
      else s)

/-- EGO_MEASURE (R327): a wheel frame is applied as a measurement. -/
def execEgoMeasure (x : EgoSample) (frameTime : Int) (s : State) : Host.Outcome State Fault Refusal :=
  .next (match s.egoOn with
    | none => s
    | some f =>
      if x.values.length = 3 ∧ s.egoFrame f.wheelStream x frameTime then
        s.updTrc fun t => { t with ego := { t.ego with state := Config.egoMeasure t.ego.state x.values } }
      else s)

/-- The number of the newest instant of EGO_HZ: instant n is the first CTRL tick of local time at or after n / EGO_HZ
seconds (R12, R327). -/
def State.egoInstant (s : State) (f : FusionRec) : Nat := tickOf s.now * f.egoHz / edgesSec

/-- An instant of EGO_HZ has come (R327). -/
def State.egoDue (s : State) : Bool := s.egoOn.any fun f => s.trc.ego.published != s.egoInstant f

/-- EGO_PUBLISH (R327, R337): at EGO_HZ the pose is published. -/
def execEgoPublish (s : State) : Host.Outcome State Fault Refusal :=
  let c := compactOf s.now
  .next (match s.egoOn with
    | none => s
    | some f =>
      if s.trc.ego.published = s.egoInstant f then s
      else s.updTrc fun t => { t with
        ego := { t.ego with published := s.egoInstant f }
        pose := [c.w0, c.w1] ++ (t.ego.pose ++ List.replicate 7 0).take 7 })

/-- EGO_TIMEOUT (R327): 50 ms without an applied inertial frame clears EGO_VALID. -/
def execEgoTimeout (s : State) : Host.Outcome State Fault Refusal :=
  .next (if s.trc.ego.lastInertial + 50 * edgesMs ≤ s.edge then
      s.updTrc fun t => { t with ego := { t.ego with valid := false } }
    else s)

/-- TRC_EGO_CAPTURE (R337): a write of 1 latches the latest ego pose. -/
def execTrcEgoCapture (v : Word) (s : State) : Host.Outcome State Fault Refusal :=
  .next (if bit v 0 then s.updTrc fun t => { t with egoCap := t.pose } else s)

end Sys2Proof.Machine
end

