-- ==== Sys2Proof/Machine/Planner.lean ====
section
/-!
DEFINITION. The Crosshatch planner (R338 to R357): the lattice, the map buffers, the query object, the A* search
with its queue and node store, re-validation and repair of a path, the current plans, and PUBLISH.
-/

namespace Sys2Proof.Machine

open Sys2Proof

/-! ## The lattice (R338 to R340) -/

/-- A primitive entry with its swept voxels from the pool (R339). -/
def parsePrimitive (m : Memory) (at_ pool : Nat) : Primitive :=
  let w (k : Nat) : Word := Memory.readWord m (at_ + 4 * k)
  let v (k : Nat) : Word := Memory.readWord m (pool + 4 * (fld (w 3) 19 0 + k))
  { dx := sgn (fld (w 0) 10 0) 11, dy := sgn (fld (w 0) 21 11) 11, endHeading := fld (w 0) 27 22
    endMode := fld (w 0) 31 28, cost := fld (w 1) 23 0
    voxels := (List.range (fld (w 2) 10 0)).map fun k =>
      (sgn (fld (v k) 10 0) 11, sgn (fld (v k) 21 11) 11, fld (v k) 28 22) }

/-- The lattice of a TABLE_OBJECT (R339). -/
def parseLattice (m : Memory) : Lattice :=
  let w (k : Nat) : Word := Memory.readWord m (4 * k)
  let heads := fld (w 1) 21 16 + 1
  let modes := fld (w 1) 27 24 + 1
  let count := fld (w 1) 13 0
  let first := 64 + 4 * heads * modes
  { headings := heads, modes := modes, cellCost := (w 2).toNat
    groups := (List.range (heads * modes)).map fun g => (fld (w (16 + g)) 13 0, fld (w (16 + g)) 29 16)
    prims := (List.range count).map fun p => parsePrimitive m (first + 16 * p) (first + 16 * count) }

/-- A lattice state: cell, heading, mode (R338). -/
structure LatState where
  x : Int := 0
  y : Int := 0
  heading : Nat := 0
  mode : Nat := 0
deriving DecidableEq, Repr, Inhabited

/-- A state in the layout of word 1 (R345), and back. -/
def LatState.word (p : LatState) : Word :=
  wd (p.x.toNat % 1024 + 1024 * (p.y.toNat % 1024) + 2 ^ 20 * (p.heading % 64) + 2 ^ 26 * (p.mode % 16))
def latState (w : Word) : LatState where
  x := (fld w 9 0 : Nat)
  y := (fld w 19 10 : Nat)
  heading := fld w 25 20
  mode := fld w 29 26

/-- The state that a primitive leads to (R338). -/
def LatState.next (p : LatState) (q : Primitive) : LatState where
  x := p.x + q.dx
  y := p.y + q.dy
  heading := q.endHeading
  mode := q.endMode

/-! ## The map (R341 to R343) -/

/-- Bytes of a map buffer before rounding (R342). -/
def LatticeRec.mapBytes (r : LatticeRec) : Nat := r.mapX * r.mapY * 16

def Xh.buffer (x : Xh) (k : Nat) : MapBuffer := x.buffers.getD k {}

/-- The map of a generation; generation 0, and one that no valid buffer holds, is all occupied (R343). -/
def Xh.mapOf (x : Xh) (gen : Word) : Option Memory :=
  if gen = 0 then none else (x.buffers.find? fun b => b.valid && b.gen = gen).map (·.data)

/-- A voxel is occupied: outside the map, or its bit is 1 (R341). -/
def occupied (r : LatticeRec) (m : Option Memory) (x y : Int) (z : Nat) : Bool :=
  if x < 0 ∨ y < 0 ∨ (r.mapX : Int) ≤ x ∨ (r.mapY : Int) ≤ y ∨ r.mapZ ≤ z then true
  else match m with
    | none => true
    | some d => (Memory.read d (16 * (y.toNat * r.mapX + x.toNat) + z / 8)).getLsbD (z % 8)

/-- A primitive collides from a state (R348, R350): against generation 0 every primitive does. -/
def collides (r : LatticeRec) (m : Option Memory) (p : LatState) (q : Primitive) : Bool :=
  m.isNone || q.voxels.any fun v => occupied r m (p.x + v.1) (p.y + v.2.1) v.2.2

/-! ## The search (R348 to R350) -/

/-- A goal with its tolerance (R345). -/
structure Goal where
  at_ : LatState := {}
  tolXy : Nat := 0
  tolHeading : Nat := 0
  anyMode : Bool := false
deriving DecidableEq, Repr, Inhabited

/-- Headings between two headings, the shorter way round. -/
def headingGap (n a b : Nat) : Nat := min ((a + n - b) % n) ((b + n - a) % n)

/-- A state within the goal tolerance (R345, R348). -/
def Goal.met (g : Goal) (headings : Nat) (p : LatState) : Bool :=
  decide ((p.x - g.at_.x).natAbs ≤ g.tolXy) && decide ((p.y - g.at_.y).natAbs ≤ g.tolXy) &&
    decide (headingGap headings p.heading g.at_.heading ≤ g.tolHeading) && (g.anyMode || p.mode = g.at_.mode)

/-- h: CELL_COST times the octile distance to the nearest goal cell, rounded down (R348). -/
def Goal.h (g : Goal) (cellCost : Nat) (p : LatState) : Nat :=
  let dx := (p.x - g.at_.x).natAbs - g.tolXy
  let dy := (p.y - g.at_.y).natAbs - g.tolXy
  cellCost * (10000 * max dx dy + 4142 * min dx dy) / 10000

/-- A key: f with 8.8 weight, in 32 bits that saturate (R348). -/
def searchKey (g h weight : Nat) : Nat := min 0xFFFFFFFF (g + (weight * h + Config.heurRound % 256) / 256)

/-- A stored node: its state, best g, parent node and primitive. -/
structure SearchNode where
  st : LatState := {}
  g : Nat := 0
  parent : Option (Nat × Nat) := none
deriving DecidableEq, Repr, Inhabited

/-- A queue entry: key, g, order of the push, node. -/
structure QueueEntry where
  key : Nat := 0
  g : Nat := 0
  order : Nat := 0
  node : Nat := 0
deriving DecidableEq, Repr, Inhabited

/-- Equal keys pop the lower g first, then the earlier push (R348). -/
def QueueEntry.before (a b : QueueEntry) : Bool :=
  if a.key ≠ b.key then decide (a.key < b.key) else if a.g ≠ b.g then decide (a.g < b.g) else decide (a.order < b.order)

/-- What a search works on. -/
structure SearchIn where
  rec_ : LatticeRec := {}
  lat : Lattice := {}
  map : Option Memory := none
  goal : Goal := {}
  weight : Nat := 256
  maxNodes : Nat := 262144
deriving Inhabited

/-- A search in progress. `best` is the expanded node of lowest h: its h, g and node. -/
structure SearchState where
  nodes : List SearchNode := []
  queue : List QueueEntry := []
  expansions : Nat := 0
  pushes : Nat := 0
  truncated : Bool := false
  best : Option (Nat × Nat × Nat) := none
  found : Option Nat := none
  limit : Bool := false
deriving Inhabited

/-- A push: the queue holds 65,536 entries and discards the largest key (R349). -/
def SearchState.push (e : QueueEntry) (s : SearchState) : SearchState :=
  let q := insertBy QueueEntry.before e s.queue
  { s with queue := q.take 65536, pushes := s.pushes + 1, truncated := s.truncated || decide (65536 < q.length) }

/-- The node of a state, if it has been reached. -/
def SearchState.nodeOf (s : SearchState) (p : LatState) : Option Nat := s.nodes.findIdx? (·.st = p)

/-- One successor: skipped, discarded, or stored and pushed; a full node store ends the search (R348, R350). -/
def SearchIn.successor (i : SearchIn) (n : Nat) (prim : Nat) (s : SearchState) : SearchState :=
  let a := s.nodes.getD n {}
  let q := i.lat.prims.getD prim {}
  let p := a.st.next q
  let g := a.g + q.cost
  let old := s.nodeOf p
  if s.limit ∨ p.x < 0 ∨ p.y < 0 ∨ (i.rec_.mapX : Int) ≤ p.x ∨ (i.rec_.mapY : Int) ≤ p.y ∨
      (old.any fun k => decide ((s.nodes.getD k {}).g ≤ g)) ∨ collides i.rec_ i.map a.st q then s
  else
    let x : SearchNode := { st := p, g := g, parent := some (n, prim) }
    let k := old.getD s.nodes.length
    let nodes := if old.isSome then s.nodes.set k x else s.nodes ++ [x]
    let e : QueueEntry := { key := searchKey g (i.goal.h i.lat.cellCost p) i.weight, g := g, order := s.pushes, node := k }
    { s.push e with nodes := nodes, limit := decide (i.maxNodes ≤ nodes.length) }

/-- The primitives of a state's group (R339). -/
def Lattice.group (l : Lattice) (p : LatState) : List Nat :=
  let g := l.groups.getD (p.heading * l.modes + p.mode) (0, 0)
  (List.range g.2).map (g.1 + ·)

/-- One pop (R348). -/
def SearchIn.pop (i : SearchIn) (s : SearchState) : SearchState :=
  match s.queue with
  | [] => s
  | e :: r =>
    let s1 := { s with queue := r }
    let n := s.nodes.getD e.node {}
    if n.g < e.g then s1
    else if i.goal.met i.lat.headings n.st then { s1 with found := some e.node }
    else
      let h := i.goal.h i.lat.cellCost n.st
      let better := match s.best with
        | none => true
        | some b => decide (h < b.1) || (h = b.1 && decide (n.g < b.2.1))
      let s2 := { s1 with
        expansions := s.expansions + 1, best := if better then some (h, n.g, e.node) else s.best }
      (i.lat.group n.st).foldl (fun s p => i.successor e.node p s) s2

/-- The search runs until it ends, or for at most `stop` expansions; `fuel` bounds the pops. -/
def SearchIn.run (i : SearchIn) (stop : Option Nat) : Nat → SearchState → SearchState
  | 0, s => s
  | k + 1, s =>
    if s.found.isSome ∨ s.limit ∨ s.queue.isEmpty ∨ stop = some s.expansions then s
    else SearchIn.run i stop k (i.pop s)

/-- The search from a state. BUDGET_US is at most 4,000, and a pop takes a cycle at least (R345, R355), so no
search makes more than 640,000 pops. -/
def SearchIn.search (i : SearchIn) (start : LatState) (stop : Option Nat) : SearchState :=
  let e : QueueEntry := { key := searchKey 0 (i.goal.h i.lat.cellCost start) i.weight }
  i.run stop 640000
    { nodes := [{ st := start }], queue := [e], pushes := 1, limit := decide (i.maxNodes ≤ 1) }

/-- The path to a node, traced back through parent links: primitives with the state after each (R346, R350). -/
def trace (nodes : List SearchNode) : Nat → Nat → List (Nat × Word)
  | 0, _ => []
  | k + 1, n =>
    match (nodes.getD n {}).parent with
    | none => []
    | some p => trace nodes k p.1 ++ [(p.2, (nodes.getD n {}).st.word)]

/-! ## Paths (R350 to R352) -/

/-- The cost of a path. -/
def pathCost (l : Lattice) (p : List (Nat × Word)) : Nat := total (p.map fun x => (l.prims.getD x.1 {}).cost)

/-- The heading and mode whose group holds a primitive. -/
def Lattice.groupOf (l : Lattice) (prim : Nat) : Nat × Nat :=
  let g := (l.groups.findIdx? fun x => decide (x.1 ≤ prim) && decide (prim < x.1 + x.2)).getD 0
  (g / l.modes, g % l.modes)

/-- The state before primitive `i` of a path. -/
def Lattice.before (l : Lattice) (p : List (Nat × Word)) (i : Nat) : LatState :=
  let x := p.getD i (0, 0)
  let q := l.prims.getD x.1 {}
  let after := latState x.2
  let g := l.groupOf x.1
  { x := after.x - q.dx, y := after.y - q.dy, heading := g.1, mode := g.2 }

/-- The primitives of a path that collide with a map (R351). -/
def SearchIn.colliding (i : SearchIn) (p : List (Nat × Word)) : List Nat :=
  (List.range p.length).filter fun k =>
    collides i.rec_ i.map (i.lat.before p k) (i.lat.prims.getD (p.getD k (0, 0)).1 {})

/-- The windows of the colliding primitives, overlapping ones merged, ascending (R351). -/
def repairWindows (n : Nat) (cs : List Nat) : List (Nat × Nat) :=
  cs.foldl (fun acc c =>
    let w := (c - 16, min (c + 16) (n - 1))
    match acc.getLast? with
    | some l => if w.1 ≤ l.2 then acc.dropLast ++ [(l.1, w.2)] else acc ++ [w]
    | none => [w]) []

/-- The repaired path: each window is replaced by what its repair search finds; none where one finds nothing or
the path grows beyond MAX_PLAN (R351, R352). -/
def SearchIn.repair (i : SearchIn) (p : List (Nat × Word)) (maxPlan : Nat) :
    List (Nat × Nat) → Nat → Option (List (Nat × Word))
  | [], from_ => some (p.drop from_)
  | w :: r, from_ =>
    let goal : Goal := if w.2 + 1 = p.length then i.goal else { at_ := latState (p.getD w.2 (0, 0)).2 }
    let s := { i with goal := goal }.search (i.lat.before p w.1) none
    match s.found, SearchIn.repair i p maxPlan r (w.2 + 1) with
    | some n, some rest =>
      let q := (p.drop from_).take (w.1 - from_) ++ trace s.nodes s.nodes.length n ++ rest
      if q.length ≤ maxPlan then some q else none
    | _, _ => none

/-! ## The query object (R345) -/

/-- A word that names a state within the map and the lattice. -/
def stateOk (r : LatticeRec) (l : Lattice) (w : Word) : Bool :=
  decide (fld w 9 0 < r.mapX) && decide (fld w 19 10 < r.mapY) && decide (fld w 25 20 < l.headings) &&
    decide (fld w 29 26 < l.modes) && fld w 31 30 = 0

/-- The first word of a query object that is out of range (R345). -/
def queryFault (r : LatticeRec) (l : Lattice) (q : List Word) : Option Nat :=
  let w (k : Nat) : Word := q.getD k 0
  let kind := fld (w 0) 1 0
  firstIdx 16 fun k => match k with
    | 0 => fld (w 0) 3 2 != 0 || fld (w 0) 31 9 != 0
    | 1 => kind != 3 && !stateOk r l (w 1)
    | 2 => !stateOk r l (w 2)
    | 3 => decide (32 < fld (w 3) 13 8) || fld (w 3) 31 15 != 0
    | 4 => fld (w 4) 11 0 = 0 || decide (4000 < fld (w 4) 11 0) || decide (1000 < fld (w 4) 25 16) ||
        fld (w 4) 15 12 != 0 || fld (w 4) 31 26 != 0
    | 5 => decide (fld (w 5) 15 0 < 0x100) || decide (0xA00 < fld (w 5) 15 0) || fld (w 5) 31 16 != 0
    | 6 => decide (262144 < fld (w 6) 18 0) || fld (w 6) 31 19 != 0
    | _ => w k != 0

/-- KIND of the query object that a PLANQ names. -/
def Job.queryWords (j : Job) (slot : Nat) (d : Descriptor) : List Word :=
  Memory.readWords (j.bytes slot d.aObj) d.aOff 16

def QueryKind.code : QueryKind → Nat
  | .search => 0 | .revalidate => 1 | .readPlan => 2 | .publish => 3

def Query.w (q : Query) (k : Nat) : Word := q.words.getD k 0

/-- What makes a PLANQ fail (R345): its words in order, then the rights to publish, then the sizes. -/
def State.queryFail (s : State) (j : Job) (slot : Nat) (d : Descriptor) : Option Failure :=
  let r := (s.otl.running.lattice).getD { mapX := 0, mapY := 0 }
  let q := j.queryWords slot d
  match queryFault r (s.xh.lattice.getD {}) q with
  | some k => some (stBadDescriptor, wd k)
  | none =>
    let pub := fld (q.getD 0 0) 1 0 = 3
    let id := q.getD 1 0
    if pub ∧ r.part ≠ j.part then some (stNoRights, 0)
    else
      let map := if pub then
          (match j.readFault id 0 0 with
           | some f => some f
           | none => if j.readEnd id ≠ r.mapBytes then some (stBadRange, id) else none)
        else none
      match map with
      | some f => some f
      | none => j.writeFault d.cObj d.cOff (64 + 8 * r.maxPlan)

/-- A PLANQ of a kind is checked and joins the planner's queue, or the queue of publishes (R344, R345, R347). -/
def State.planq (kind : QueryKind) (job : Word) (slot : Nat) (s : State) : State :=
  match s.job? job with
  | none => s
  | some j0 =>
    s.act job slot 0x0F (fun d => fld ((j0.queryWords slot d).getD 0 0) 1 0 = kind.code) fun j i s =>
      match s.queryFail j slot i.desc with
      | some f => s.failDesc j f
      | none =>
        let ws := j.queryWords slot i.desc
        let q : Query :=
          { job := job, slot := slot, kind := kind, plan := fld (ws.getD 0 0) 7 4, install := bit (ws.getD 0 0) 8
            words := ws }
        (s.updFlight job slot i.index fun x => { x with stage := .waiting }).updXh fun x =>
          if kind = .publish then { x with publishQueue := x.publishQueue ++ [q] }
          else { x with queue := x.queue ++ [q] }

/-- PLANQ_SEARCH (R345, R348): a lattice search joins the queue. -/
def execPlanqSearch (job : Word) (slot : Fin 32) (s : State) : Host.Outcome State Fault Refusal :=
  .next (s.planq .search job slot)
/-- PLANQ_REVALIDATE (R345, R352). -/
def execPlanqRevalidate (job : Word) (slot : Fin 32) (s : State) : Host.Outcome State Fault Refusal :=
  .next (s.planq .revalidate job slot)
/-- PLANQ_READ_PLAN (R345, R352). -/
def execPlanqReadPlan (job : Word) (slot : Fin 32) (s : State) : Host.Outcome State Fault Refusal :=
  .next (s.planq .readPlan job slot)
/-- PLANQ_PUBLISH (R344, R345). -/
def execPlanqPublish (job : Word) (slot : Fin 32) (s : State) : Host.Outcome State Fault Refusal :=
  .next (s.planq .publish job slot)

/-! ## Results (R346) -/

/-- Planner status codes and flags of word 0 (R346). -/
def xFound : Nat := 0
def xNoPath : Nat := 1
def xTimeout : Nat := 2
def xRepairFailed : Nat := 3
def xPublished : Nat := 4
def xPartial : Nat := 256
def xRepaired : Nat := 512
def xTruncated : Nat := 1024
def xNodeLimit : Nat := 2048

/-- The 16 header words of a result (R346). -/
structure PlanResult where
  word0 : Nat := 0
  path : List (Nat × Word) := []
  genBound : Word := 0
  genChecked : Word := 0
  cost : Nat := 0
  toGo : Nat := 0
  expansions : Nat := 0
  pushes : Nat := 0
  planSeq : Nat := 0
deriving DecidableEq, Repr, Inhabited

/-- The waiting PLANQ descriptor of a query. -/
def Job.planFlight (j : Job) (slot : Nat) : Option InFlight :=
  (j.slots.getD slot {}).inFlight.find? fun i => i.stage = .waiting && i.desc.op = 0x0F

/-- A cost in 32 bits: it saturates as keys do (R348, log 19). -/
def cost32 (n : Nat) : Word := wd (min 0xFFFFFFFF n)

/-- The result of a query is written to C, and its descriptor has acted (R346). -/
def State.planResult (q : Query) (r : PlanResult) (s : State) : State :=
  match s.job? q.job with
  | none => s
  | some j =>
    match j.planFlight q.slot with
    | none => s
    | some i =>
      let elapsed := s.edge - q.startEdge
      let ws : List Word :=
        [wd r.word0, wd r.path.length, r.genBound, r.genChecked, cost32 r.cost, cost32 r.toGo, wd r.expansions, wd r.pushes,
         wd (min 0xFFFFFFFF elapsed), wd r.planSeq] ++ List.replicate 6 0 ++ r.path.flatMap fun x => [wd x.1, x.2]
      let d := i.desc
      let s1 := s.store j q.slot d.cObj (d.cOff + 4 * ws.length) fun c => Memory.writeBytes c d.cOff (wordsBytes ws)
      match s1.job? q.job with
      | none => s1
      | some j1 => s1.acted j1 q.slot i stOk {} (wd (r.word0 % 65536 + 65536 * r.path.length)) 0 (2 * elapsed)

/-- A query ends: its result is written and counted; a full FOUND with INSTALL joins the journal (R353, R357). -/
def State.planEnds (q : Query) (r : PlanResult) (s : State) : State :=
  let st := r.word0 % 8
  let s1 := ((s.updXh fun x => { x with run := none }).planResult q r).bump .xhQueries
  let s2 := ((s1.bumpBy .xhNoPath (toBit (st = xNoPath))).bumpBy .xhTimeouts (toBit (st = xTimeout))).bumpBy
    .xhRepairFailed (toBit (st = xRepairFailed))
  let s3 := s2.bumpBy .xhTruncated (toBit (r.word0 / 1024 % 2 = 1))
  if q.install ∧ st = xFound ∧ r.word0 / 256 % 2 = 0 ∧ (q.kind = .search ∨ q.kind = .revalidate) then
    s3.updJob q.job fun j => { j with journal := { j.journal with
      plans := j.journal.plans ++ [(q.plan, q.planSeq, r.genChecked.toNat, r.path)] } }
  else s3

/-! ## Query start and end (R347 to R352) -/

def State.planOf (s : State) (n : Nat) : Plan := s.xh.plans.getD n {}

/-- The search problem of a query on a generation. -/
def State.searchIn (s : State) (q : Query) (gen : Word) : SearchIn where
  rec_ := s.otl.running.lattice.getD {}
  lat := s.xh.lattice.getD {}
  map := s.xh.mapOf gen
  goal := { at_ := latState (q.w 2), tolXy := fld (q.w 3) 7 0, tolHeading := fld (q.w 3) 13 8, anyMode := bit (q.w 3) 14 }
  weight := fld (q.w 5) 15 0
  maxNodes := if fld (q.w 6) 18 0 = 0 then 262144 else fld (q.w 6) 18 0

/-- The result words of a path for a query. -/
def State.pathResult (s : State) (q : Query) (word0 : Nat) (path : List (Nat × Word)) (checked : Word) : PlanResult :=
  let i := s.searchIn q q.genBound
  let last := match path.getLast? with
    | some x => latState x.2
    | none => latState (q.w 1)
  { word0 := word0, path := path, genBound := q.genBound, genChecked := checked, cost := pathCost i.lat path
    toGo := i.goal.h i.lat.cellCost last, expansions := q.expansions, pushes := q.pushes, planSeq := q.planSeq }

/-- A path is checked against the newest generation; where it collides, its repair begins (R351, R352). -/
def State.checkPath (q : Query) (word0 : Nat) (path : List (Nat × Word)) (s : State) : State :=
  let gen := s.xh.gen
  if q.kind = .search ∧ q.genBound = gen then s.planEnds q (s.pathResult q word0 path gen)
  else
    let cs := (s.searchIn q gen).colliding path
    if cs.isEmpty then s.planEnds q (s.pathResult q word0 path gen)
    else s.updXh fun x => { x with run := some { q with
      repairStart := some s.edge, found := word0, path := path, repairGen := gen } }

/-- A search has ended: by goal, empty queue, node limit or budget (R349, R350). -/
def State.searchEnds (q : Query) (budget : Bool) (r : SearchState) (s : State) : State :=
  let maxPlan := (s.otl.running.lattice.map (·.maxPlan)).getD 0
  let q1 := { q with expansions := r.expansions, pushes := r.pushes }
  let more := if r.truncated then xTruncated else 0
  match r.found with
  | some n =>
    let p := trace r.nodes r.nodes.length n
    if p.length ≤ maxPlan then s.checkPath q1 (xFound + more) p
    else s.checkPath q1 (xTimeout + xPartial + more) (p.take maxPlan)
  | none =>
    if budget ∨ r.limit then
      let p := match r.best with
        | some b => trace r.nodes r.nodes.length b.2.2
        | none => []
      s.checkPath q1 (xTimeout + xPartial + more + (if r.limit then xNodeLimit else 0)) (p.take maxPlan)
    else s.planEnds q1 { s.pathResult q1 (xNoPath + more) [] q.genBound with cost := 0, toGo := 0 }

/-- The repair of a path ends (R351, R352). -/
def State.repairEnds (q : Query) (s : State) : State :=
  let i := s.searchIn q q.repairGen
  let ws := repairWindows q.path.length (i.colliding q.path)
  let gen := s.xh.gen
  let maxPlan := (s.otl.running.lattice.map (·.maxPlan)).getD 0
  let fail := s.planEnds q (s.pathResult q (q.found / 8 * 8 + xRepairFailed) q.path q.genBound)
  match i.repair q.path maxPlan ws 0 with
  | none => fail
  | some p =>
    if gen ≠ q.repairGen ∧ !((s.searchIn q gen).colliding p).isEmpty then fail
    else (s.planEnds q (s.pathResult q (q.found + xRepaired) p gen)).bumpBy .xhRepairs ws.length

/-- Misses of the column cache (R355): the manual gives no mapping of columns to sets, so their number is free
(log 19). -/
def State.cacheMisses (s : State) : State :=
  let r := s.draw
  r.2.bumpBy .xhCacheMiss r.1.toNat

/-- Entries of the planner in the order of R165: by job deadline. -/
def State.byDeadline (s : State) (qs : List Query) : List Query :=
  qs.foldl (fun acc q => insertBy (fun a b => s.marginBefore (a.job, a.slot) (b.job, b.slot)) q acc) []

/-- PLANNER_QUERY_START (R165, R347): the idle planner takes the query of the earliest job deadline and binds the
current generation. READ_PLAN copies its plan (R352); an empty plan re-validates to FOUND. -/
def execPlannerQueryStart (s : State) : Host.Outcome State Fault Refusal :=
  .next (if s.xh.run.isSome ∨ s.xh.retired then s
    else
      match s.byDeadline s.xh.queue with
      | [] => s
      | q :: _ =>
        let p := s.planOf q.plan
        let q1 := { q with genBound := s.xh.gen, planSeq := p.seq.toNat, startEdge := s.edge }
        let s1 := s.updXh fun x => { x with queue := x.queue.filter (· != q), run := some q1 }
        if q.kind = .readPlan then s1.planEnds q1 (s1.pathResult q1 xFound p.path p.gen)
        else if q.kind = .revalidate ∧ p.path.isEmpty then s1.planEnds q1 (s1.pathResult q1 xFound [] s.xh.gen)
        else s1)

/-- BUDGET_US or REPAIR_US has run out; paused time does not count (R350, R352, R356). -/
def Query.budgetOver (q : Query) (edge : Nat) : Bool := decide (q.startEdge + q.paused + fld (q.w 4) 11 0 * edgesUs ≤ edge)
def Query.repairOver (q : Query) (edge : Nat) : Bool :=
  q.repairStart.any fun e => decide (e + q.paused + fld (q.w 4) 25 16 * edgesUs ≤ edge)

/-- SEARCH_END (R348 to R352): a search ends and its path is checked; a second event ends the repair that a
collision began (log 19). REVALIDATE checks its plan. -/
def execSearchEnd (s : State) : Host.Outcome State Fault Refusal :=
  .next (match s.xh.run with
    | none => s
    | some q =>
      if q.repairStart.isSome then (if q.repairOver s.edge then s else s.cacheMisses.repairEnds q)
      else if q.kind = .revalidate then s.cacheMisses.checkPath q xFound (s.planOf q.plan).path
      else if q.budgetOver s.edge then s
      else
        let r := (s.searchIn q q.genBound).search (latState (q.w 1)) none
        if r.found.isNone ∧ !r.limit ∧ !r.queue.isEmpty then s else s.cacheMisses.searchEnds q false r)

/-- SEARCH_BUDGET_EXPIRE (R350): the search stops after as many expansions as it has made by then, a number that
the cache misses decide: free (log 19). -/
def execSearchBudgetExpire (s : State) : Host.Outcome State Fault Refusal :=
  .next (match s.xh.run with
    | none => s
    | some q =>
      if q.repairStart.isSome ∨ q.kind ≠ .search ∨ !q.budgetOver s.edge then s
      else
        let i := s.searchIn q q.genBound
        let c := s.choose (fld (q.w 4) 11 0 * edgesUs / 4 + 1)
        c.2.cacheMisses.searchEnds q true { i.search (latState (q.w 1)) (some c.1) with found := none })

/-- REPAIR_BUDGET_EXPIRE (R352): the result is REPAIR_FAILED with the path found on GEN_BOUND. -/
def execRepairBudgetExpire (s : State) : Host.Outcome State Fault Refusal :=
  .next (match s.xh.run with
    | none => s
    | some q =>
      if q.repairOver s.edge then
        s.cacheMisses.planEnds q (s.pathResult q (q.found / 8 * 8 + xRepairFailed) q.path q.genBound)
      else s)

/-- PLANNER_FAULT (R356, R445): the job whose query runs restarts. -/
def execPlannerFault (s : State) : Host.Outcome State Fault Refusal :=
  .next (match s.xh.run with
    | none => s
    | some q =>
      (s.report 0x0D 0 1 2 0x0005 ((s.job? q.job).map (·.part)) q.job 0).faultJob q.job none)

/-! ## PUBLISH (R344) -/

/-- The next generation; 0 is skipped on wrap (R343). -/
def nextGen (g : Word) : Word := if g + 1 = 0 then 1 else g + 1

/-- PUBLISH_COPY_START (R165, R344): the first PUBLISH by job deadline starts; it waits for the queries bound to the inactive buffer's generation and for another
PUBLISH that holds the buffer. -/
def execPublishCopyStart (s : State) : Host.Outcome State Fault Refusal :=
  let old := s.xh.buffer (1 - s.xh.current)
  let bound := s.xh.run.any fun q => old.valid && q.genBound = old.gen
  .next (if bound ∨ s.xh.publish.isSome ∨ s.xh.retired then s
    else match s.byDeadline s.xh.publishQueue with
      | [] => s
      | q :: r =>
        let q1 := { q with startEdge := s.edge }
        s.updXh fun x => { x with
          publishQueue := r, publish := some (q1, true)
          buffers := x.buffers.modify (1 - x.current) fun b => { b with valid := false } })

/-- PUBLISH_COPY_DONE (R344, R346): the inactive buffer holds the map, and the job holds the buffer to its end. -/
def execPublishCopyDone (s : State) : Host.Outcome State Fault Refusal :=
  .next (match s.xh.publish with
    | some (q, true) =>
      match s.job? q.job with
      | none => s
      | some j =>
        let data := j.bytes q.slot (q.w 1)
        let n := ((s.otl.running.lattice).map (·.mapBytes)).getD 0
        let gen := nextGen s.xh.gen
        let copy : MapBuffer := { gen := gen, valid := false, data := Memory.truncate data n }
        let s1 := s.updXh fun x => { x with
          publish := some (q, false), buffers := x.buffers.set (1 - x.current) copy }
        let r : PlanResult :=
          { word0 := xPublished, genBound := gen, genChecked := gen, planSeq := (s.planOf q.plan).seq.toNat }
        ((s1.planResult q r).bump .xhQueries).updJob q.job fun x =>
          { x with journal := { x.journal with published := true } }
    | _ => s)

/-! ## What a seal edge applies (R344, R353) -/

/-- The plans of a job's journal replace theirs where PLAN_SEQ still equals the value at query start (R353). -/
def State.sealPlans (j : Job) (s : State) : State :=
  j.journal.plans.foldl (fun s p =>
    if (s.planOf p.1).seq.toNat = p.2.1 then
      let new : Plan := { seq := BitVec.ofNat 16 (p.2.1 + 1), gen := wd p.2.2.1, path := p.2.2.2 }
      s.updXh fun x => { x with plans := x.plans.set p.1 new }
    else s.bump .xhPlanStale) s

/-- A published map becomes current with the next generation (R343, R344). -/
def State.sealMap (j : Job) (s : State) : State :=
  if j.journal.published ∧ s.xh.publish.any (fun p => p.1.job = j.id && !p.2) then
    let gen := nextGen s.xh.gen
    s.updXh fun x => { x with
      gen := gen, current := 1 - x.current, publish := none
      buffers := x.buffers.modify (1 - x.current) fun b => { b with gen := gen, valid := true } }
  else s

/-- Plans, generation and buffers are cleared (R343, R354). -/
def Xh.cleared (x : Xh) : Xh :=
  { x with
    buffers := [{}, {}], current := 0, gen := 0, run := none, queue := [], publish := none, publishQueue := []
    plans := List.replicate 16 {} }

end Sys2Proof.Machine
end

