-- ==== Sys2Proof/Machine/Stylus.lean ====
section
/-!
DEFINITION. The Stylus engines (R358 to R375): samples and references at the guard instant, the PID and cascade laws
in Q15, the engine-done edge with its residue check, and the output frames at the form instant.
-/

namespace Sys2Proof.Machine

open Sys2Proof

/-! ## Q15 arithmetic (R361 to R365) -/

def clampQ15 (x : Int) : Int := clampInt (-32768) 32767 x
def toQ15 (x : Int) : BitVec 16 := BitVec.ofInt 16 x

/-- An accumulator value with 31 fraction bits rounded to 15, ties toward plus infinity (R361). -/
def roundQ15 (acc : Int) : Int := (acc + 2 ^ 15).fdiv (2 ^ 16)

/-- The error of a channel (R362). -/
def lawError (ref x : BitVec 16) : Int := clampQ15 (ref.toInt - x.toInt)

/-- What one update of a law gives: the state after it, the output, whether the output saturated, and how many
anti-windup actions took place (R361, R364). -/
structure LawStep where
  law : LawState := {}
  out : BitVec 16 := 0
  outSat : Bool := false
  iClamps : Nat := 0
deriving DecidableEq, Repr, Inhabited

/-- One PID update (R363, R364). -/
def pidStep (c : List (BitVec 16)) (e : Int) (l : LawState) : LawStep :=
  let k (n : Nat) : Int := (c.getD n 0).toInt
  let kp := k 0; let ki := k 1; let kd := k 2; let alpha := k 3
  let iMax := k 4; let iMin := k 5; let uMax := k 6; let uMin := k 7
  let shift := (c.getD 8 0).toNat % 16
  let d := clampQ15 (roundQ15 ((alpha * l.d.toInt + kd * e - kd * l.ePrev.toInt) * 2))
  let acc := l.i.toInt * 2 ^ 16 + l.res.toNat + ki * e * 2
  let i1 := acc.fdiv (2 ^ 16)
  let res1 := acc.fmod (2 ^ 16)
  let beyond := iMax < i1 ∨ i1 < iMin
  let i2 := if beyond then clampInt iMin iMax i1 else i1
  let res2 := if beyond then 0 else res1
  let v := kp * e * 2 + (i2 + d) * 2 ^ 16
  let r := roundQ15 (v * 2 ^ shift)
  let u := clampInt uMin uMax r
  let hold := (uMax < r ∧ 0 < ki * e) ∨ (r < uMin ∧ ki * e < 0)
  { law := { l with
      i := if hold then l.i else toQ15 i2
      res := if hold then 0 else BitVec.ofInt 16 res2
      d := toQ15 d
      ePrev := toQ15 e }
    out := toQ15 u
    outSat := decide (u ≠ r)
    iClamps := toBit (decide beyond) + toBit (decide hold) }

/-- One section of a cascade in direct form I (R365): its input and the two before, its outputs before. -/
def sectionOut (c : List (BitVec 16)) (n : Nat) (x : Int) (xs ys : BitVec 16 × BitVec 16) : Int :=
  let k (i : Nat) : Int := (c.getD (5 * n + i) 0).toInt
  roundQ15 (k 0 * x * 2 + k 1 * xs.1.toInt * 4 + k 2 * xs.2.toInt * 2 - k 3 * ys.1.toInt * 4 - k 4 * ys.2.toInt * 2)

/-- The sections from number `n` on: the histories after them, the last output, and whether it saturated. -/
def runSections (c : List (BitVec 16)) : Nat → Nat → Int → BitVec 16 × BitVec 16 → List (BitVec 16 × BitVec 16) →
    List (BitVec 16 × BitVec 16) × Int × Bool
  | 0, _, x, _, _ => ([], x, false)
  | m + 1, n, x, xs, hist =>
    let ys := hist.headD (0, 0)
    let r := sectionOut c n x xs ys
    let y := clampQ15 r
    let rest := runSections c m (n + 1) y ys hist.tail
    ((toQ15 y, ys.1) :: rest.1, rest.2.1, if m = 0 then decide (y ≠ r) else rest.2.2)

/-- One cascade update (R365): adjacent sections share their history. -/
def cascadeStep (c : List (BitVec 16)) (sections : Nat) (e : Int) (l : LawState) : LawStep :=
  let h := l.hist.headD (0, 0)
  let r := runSections c sections 0 e h l.hist.tail
  { law := { l with hist := (toQ15 e, h.1) :: r.1 }, out := toQ15 r.2.1, outSat := r.2.2 }

/-- After a gap the previous error, and the previous inputs of section 0, are the error itself (R367). -/
def LawState.kick (e : Int) (l : LawState) : LawState :=
  { l with ePrev := toQ15 e, hist := (toQ15 e, toQ15 e) :: l.hist.tail }

/-- One update of a channel (R362 to R365). -/
def ChanEntry.update (c : ChanEntry) (x : StyChannel) : LawStep :=
  let e := lawError x.ref x.sample
  let l := if x.kick then x.law.kick e else x.law
  if c.cascade then cascadeStep c.coeff c.sections e l else pidStep c.coeff e l

/-! ## Channels and engines (R359, R360) -/

def State.styChannel (s : State) (c : Nat) : StyChannel := s.sty.channels.getD c {}
def State.updStyChannel (c : Nat) (f : StyChannel → StyChannel) (s : State) : State :=
  s.updSty fun y => { y with channels := y.channels.modify c f }
def State.styGroup (s : State) (g : Nat) : StyGroup := s.sty.groups.getD g {}
def State.updStyGroup (g : Nat) (f : StyGroup → StyGroup) (s : State) : State :=
  s.updSty fun y => { y with groups := y.groups.modify g f }

/-- PD_STYLUS is on (R465). -/
def State.stylusOn (s : State) : Bool := s.glb.pdState.getLsbD 3

/-- The channels of a group in ascending CHANNEL order. -/
def Outline.sortedGroup (o : Outline) (g : Nat) : List ChanEntry := sortOn (·.channel) (o.groupChannels g)

/-- The assignment that a channel belongs to, of `n` (R359). -/
def Outline.assignmentOf (o : Outline) (n c : Nat) : Option Nat :=
  (assignEngines n o.channels).findIdx? fun l => l.any (·.channel = c)

/-- The engine that serves a channel (R359, R372). -/
def State.engineOf (s : State) (c : Nat) : Option Nat := match s.otl.running.assignmentOf s.sty.lanes c with
  | none => none
  | some a => s.sty.engines.findIdx? fun e => e.state = .active && e.serves = a && decide (e.since ≤ s.edge)

/-! ## The guard instant (R366 to R368) -/

/-- A missed sample (R367): the third in a row puts the channel in CHANNEL_FAULT. -/
def State.missSample (c : ChanEntry) (s : State) : State :=
  let x := s.styChannel c.channel
  let n := x.missRun + 1
  let s1 := (s.updStyChannel c.channel fun y => { y with
    missRun := n, missed := true, fresh := false, run := if n = 3 then .fault else y.run }).bump .styMissed
  if n = 3 ∧ x.run ≠ .fault then
    (s1.bump .styChFaults).report 9 c.channel 5 6 0x0061 (some c.part) 0 0
  else s1

/-- A fresh sample (R367): it returns the channel to service, unless its engine is lost. -/
def StyChannel.freshSample (v : BitVec 16) (hasRef : Bool) (y : StyChannel) : StyChannel :=
  { y with
    sample := v, fresh := true, missed := false, missRun := 0
    kick := y.kick || (y.run = .fault && !y.stuck)
    run := if y.stuck then .fault else if hasRef then .running else .waitRef }

/-- A channel latches its sample (R366, R367): its index among the channels of its stream gives the halfword. -/
def State.latchSample (o : Outline) (g : Nat) (c : ChanEntry) (s : State) : State :=
  let i := (o.channels.filter fun d => d.inStream = c.inStream && decide (d.channel < c.channel)).length
  let gr := s.styGroup g
  match (s.stream c.inStream).versions.getLast? with
  | none => s.missSample c
  | some v =>
    if gr.latched.lookup c.inStream ≠ some v.index ∧ !v.repeat_ ∧ 2 * i + 2 ≤ v.payload.length then
      s.updStyChannel c.channel
        (StyChannel.freshSample (BitVec.ofNat 16 (beNat ((v.payload.drop (2 * i)).take 2))) gr.hasRef)
    else s.missSample c

/-- The length of a reference object of 256 B: a seal rounds it up to 4 KiB (R253, R368). DEDUCED: R368 uses no version of
another size, and no seal leaves 256 bytes (log 27). -/
def referenceBytes : Nat := 4096

/-- The group binds the newest sealed version of its reference object (R368). -/
def State.bindReference (o : Outline) (g : Nat) (s : State) : State :=
  match s.newestOf 0 (0xFB000000 + wd g) with
  | none => s
  | some v =>
    if v.state ≠ .sealed ∧ v.state ≠ .rebuilding then s
    else
      let s1 := s.updStyGroup g fun x => { x with refVer := some v.ver }
      if v.len ≠ referenceBytes then (if (s.styGroup g).refVer = some v.ver then s else s1.bump .styRefBad)
      else
        let s2 := s1.updStyGroup g fun x => { x with hasRef := true }
        (o.sortedGroup g).foldl (fun s c => s.updStyChannel c.channel fun y => { y with
          ref := BitVec.ofNat 16 (leNat (Memory.readBytes v.data (2 * c.channel) 2))
          run := if y.run = .waitRef then .running else y.run }) s2

/-- The Outline that launches the firing at a tick (R521). -/
def State.outlineAt (s : State) (tick : Nat) : Outline := match s.boundary, s.otl.staged with
  | some b, some new => if tickOf b ≤ tick then new else s.otl.running
  | _, _ => s.otl.running

/-- The next firing of a group (R367, R521). -/
def State.nextStylus (s : State) (g : Nat) : Option Nat :=
  s.nextFiring (fun _ e => e.target = 4 && e.arg.toNat = g) (tickOf s.now + 1)

/-- STYLUS_GUARD (R367, R368): at k - 800 ticks, once for each firing. -/
def execStylusGuard (group : Fin 16) (s : State) : Host.Outcome State Fault Refusal :=
  let g := group.val
  .next (match s.nextStylus g with
    | none => s
    | some k =>
      if tickOf s.now + 800 < k ∨ (s.styGroup g).guardTick = some k ∨ !s.stylusOn then s
      else
        let o := s.outlineAt k
        let cs := o.sortedGroup g
        let s1 := s.bindReference o g
        let s2 := cs.foldl (fun s c => s.latchSample o g c) s1
        let newest := (cs.map (·.inStream)).dedup.filterMap fun n =>
          (s.stream n).versions.getLast?.map fun v => (n, v.index)
        s2.updStyGroup g fun x => { x with guardTick := some k, latched := newest })

/-! ## Firing and the engine-done edge (R360, R369, R372) -/

/-- An engine updates one channel into shadow state (R360). A channel in CHANNEL_FAULT or without a reference does
not update. -/
def State.updateChannel (c : ChanEntry) (s : State) : State :=
  let x := s.styChannel c.channel
  if (s.engineOf c.channel).isNone then s.updStyChannel c.channel fun y => { y with ready := false, shadow := none }
  else if x.run = .running then
    let r := c.update x
    ((s.updStyChannel c.channel fun y => { y with
      ready := false, shadow := some (r.law, r.out), kick := false }).bumpBy .styOutSat (toBit r.outSat)).bumpBy
      .styIClamp r.iClamps
  else s.updStyChannel c.channel fun y => { y with ready := false, shadow := none }

/-- A STYLUS firing of group `g` (R360, R373): with PD_STYLUS off nothing updates, and the frames carry HOLD. -/
def State.launchStylus (k : Int) (e : RegEntry) (s : State) : State :=
  let g := e.arg.toNat
  let cs := s.otl.running.sortedGroup g
  let s1 := s.updStyGroup g fun x => { x with
    seq := x.seq + 1, firing := true, instant := k, delivered := false, skipHold := !s.stylusOn, judged := [] }
  if !s.stylusOn then s1
  else
    let s2 := s1.bump .styLaunches
    let s3 := if (s.styGroup g).guardTick = some (tickOf k) then s2
      else (cs.foldl (fun s c => s.missSample c) (s2.bindReference s.otl.running g)).updStyGroup g fun x =>
        { x with guardTick := some (tickOf k) }
    cs.foldl (fun s c => s.updateChannel c) s3

/-- STYLUS_LAUNCH (R56, R360). -/
def execStylusLaunch (e : BitVec 12) (s : State) : Host.Outcome State Fault Refusal :=
  .next (s.fire 4 e.toNat (fun _ => false) fun r s => s.launchStylus (s.instantOf r) r)

/-- What an engine that leaves has not finished has no result (R371, R372). -/
def State.dropUnfinished (serves : Nat) (s : State) : State :=
  ((assignEngines s.sty.lanes s.otl.running.channels).getD serves []).foldl (fun s c =>
    s.updStyChannel c.channel fun y => { y with shadow := none }) s

/-- An engine is retired (R372, R432): the spare takes its channels from the first firing at least 2 us later; with
none left they stay in CHANNEL_FAULT until the next commit. -/
def State.retireEngine (n : Nat) (s : State) : State :=
  let e := s.sty.engines.getD n {}
  let retire (s : State) : State :=
    (((s.dropUnfinished e.serves).updSty fun y => { y with
      engines := y.engines.modify n fun x => { x with state := .retired, serves := 7 } }).bump
      .styEngineFaults).bump .brnRetired
  if e.state = .retired ∨ e.state = .off then s
  else if e.state = .spare then (retire s).report 8 n 2 3 0x0006 none 0 0
  else match s.sty.engines.findIdx? (·.state = .spare) with
    | some sp =>
      (((retire s).updSty fun y => { y with engines := y.engines.modify sp fun x =>
        { x with state := .active, serves := e.serves, since := s.edge + 320 } }).report 8 n 2 3 0x0006 none 0 0).bump
        .brnSpared
    | none =>
      let lost := (assignEngines s.sty.lanes s.otl.running.channels).getD e.serves []
      ((lost.foldl (fun s c => s.updStyChannel c.channel fun y => { y with run := .fault, stuck := true })
        (retire s)).report 8 n 3 8 0x0006 none 0 0).checkDegraded

/-- The engine-done edge of one channel (R369): shadow state becomes its state; a channel that did not update repeats
its last output, or 0 without a reference; one that restarted since the firing has none. A residue mismatch of its engine discards both (R372). -/
def State.channelDone (fault : BitVec 5) (c : ChanEntry) (s : State) : State :=
  match s.engineOf c.channel with
  | none => s
  | some n =>
    if fault.getLsbD n then s.updStyChannel c.channel fun y => { y with shadow := none, ready := false }
    else s.updStyChannel c.channel fun y => match y.shadow with
      | some x => { y with shadow := none, ready := true, law := x.1, computed := x.2 }
      | none => { y with ready := y.run != .running }

/-- The engine-done edge of a group has come (R360, R369). -/
def State.engineDue (s : State) (g : Nat) : Bool :=
  let x := s.styGroup g
  x.firing && !x.delivered && !x.skipHold &&
    decide (x.instant + (s.otl.running.doneTicks s.sty.lanes g : Int) * unitsEdge ≤ s.now)

/-- STYLUS_ENGINE_DONE (R369, R372). `residueFault` names the engines whose residue codes mismatch. -/
def execStylusEngineDone (group : Fin 16) (residueFault : BitVec 5) (s : State) : Host.Outcome State Fault Refusal :=
  let g := group.val
  let cs := s.otl.running.sortedGroup g
  .next (if !s.engineDue g then s
    else
      let s1 := (cs.foldl (fun s c => s.channelDone residueFault c) s).updStyGroup g fun y => { y with delivered := true }
      let bad := (List.range 5).filter fun n => residueFault.getLsbD n && cs.any fun c => s.engineOf c.channel = some n
      bad.foldl (fun s n => s.retireEngine n) s1)

/-! ## Output frames (R63, R370, R371, R373, R418) -/

/-- Proof passes the outputs of a group (R371, R418): every rule set that gates it has judged the firing PASS by now;
a group of a QM partition that no set gates passes; STOPPED and SAFE_STATE withhold every verdict (R422). -/
def State.groupPasses (s : State) (g : Nat) : Bool :=
  let x := s.styGroup g
  (s.prf.state = .run || s.prf.state = .degraded) && !x.skipHold &&
    (s.otl.running.gating g).all fun r => x.judged.any fun j => j.1 = r.set && j.2.1 && decide (j.2.2 ≤ s.edge)

/-- The entry of a channel and its last passed output (R370, R371). -/
def State.formEntry (g : Nat) (c : ChanEntry) (s : State) : List Byte × State :=
  let x := s.styChannel c.channel
  let pass := s.groupPasses g && x.ready
  let out := if pass then x.computed else x.lastPassed
  let w := out.toNat * 2 ^ 16 + flag (!pass) 8 + flag (x.run = .fault || x.run = .waitRef) 9 + flag x.missed 10
  let s1 := s.updStyChannel c.channel fun y => { y with lastPassed := out, ready := false }
  (natBytesBE 4 w, if pass then s1 else s1.bump .styHolds)

/-- The entries of a list of channels. -/
def State.formEntries (g : Nat) : List ChanEntry → State → List Byte × State
  | [], s => ([], s)
  | c :: r, s =>
    let e := s.formEntry g c
    let q := State.formEntries g r e.2
    (e.1 ++ q.1, q.2)

/-- The output frame of one stream (R63, R64, R370): apply-at time, SEQ, and an entry for each channel. -/
def State.formFrame (g stream : Nat) (s : State) : State :=
  let o := s.otl.running
  let x := s.styGroup g
  let cs := (o.sortedGroup g).filter (·.outStream = stream)
  let opens := x.instant + (o.groupPeriod g : Int) * unitsEdge
  let apply := opens + (((cs.head?.map (·.applyLead)).getD 0 : Nat) : Int) * unitsEdge
  let r := s.formEntries g cs
  r.2.sendStream (s.streamEntry stream) (ptpBytes apply ++ natBytesBE 2 x.seq.toNat ++ r.1) (some (opens, apply))

/-- OUTPUT_FRAME_FORM (R369 to R371, R373): at k + P - 320 the frames of the group are built. -/
def execOutputFrameForm (group : Fin 16) (s : State) : Host.Outcome State Fault Refusal :=
  let g := group.val
  let x := s.styGroup g
  .next (if !x.firing ∨ s.now < x.instant + ((s.otl.running.groupPeriod g : Int) - 320) * unitsEdge then s
    else
      let streams := ((s.otl.running.sortedGroup g).map (·.outStream)).dedup
      (streams.foldl (fun s n => s.formFrame g n) s).updStyGroup g fun y => { y with
        firing := false, delivered := false, skipHold := false, judged := [] })

end Sys2Proof.Machine
end

