-- ==== Sys2Proof/Machine/Proof.lean ====
section
/-!
DEFINITION. Proof (R405 to R425): the rules of a rule set at a firing and on a CHECK message, channel verdicts,
gate samples, conflict boxes, the monitors, the heartbeat and the release.
-/

namespace Sys2Proof.Machine

open Sys2Proof

/-! ## Values of rules (R413, R414) -/

/-- The exact value of a finite FP32 word. -/
def f32Rat (w : Word) : Option Rat := match ofF32 w with
  | .fin n m e => some ((if n then -1 else 1) * (m : Rat) * (2 : Rat) ^ e)
  | _ => none

/-- A 16-bit field as a Q15 number. -/
def q15Field (w : Word) (hi lo : Nat) : Int := sgn (fld w hi lo) 16

def RuleWords.type (r : RuleWords) : Nat := fld r.e0 7 0
def RuleWords.action (r : RuleWords) : Nat := fld r.e0 9 8
def RuleWords.gates (r : RuleWords) : BitVec 16 := r.e0.extractLsb' 16 16
def RuleWords.tag (r : RuleWords) : BitVec 16 := r.e1.setWidth 16

/-- OUT_RANGE, OUT_RATE and SEPARATION judge channels (R414). -/
def RuleWords.onChannels (r : RuleWords) : Bool := decide (1 ≤ r.type) && decide (r.type ≤ 3)

/-! ## Distances (R415, R417) -/

/-- The sector of a bearing from +x toward +y, 22.5 degrees each: the boundaries are compared exactly (log 21). -/
def octant (x y : Rat) : Nat :=
  if (x + y) * (x + y) < 2 * x * x then 0
  else if y < x then 1
  else if (y - x) * (y - x) < 2 * x * x then 2 else 3

/-- The sector, 0 to 15, of a point other than the origin. -/
def sectorOf (x y : Rat) : Nat :=
  if 0 < x ∧ 0 ≤ y then octant x y
  else if x ≤ 0 ∧ 0 < y then 4 + octant y (-x)
  else if x < 0 ∧ y ≤ 0 then 8 + octant (-x) (-y)
  else 12 + octant (-y) x

/-- The coordinate of an interval that lies nearest to 0. -/
def nearZero (lo hi : Rat) : Rat := if 0 < lo then lo else if hi < 0 then hi else 0

/-- The square of the horizontal distance of a box whose bearing lies in a mask of sectors; a box over the origin
lies in every sector (R417, log 21). -/
def ConflictBox.distance2 (b : ConflictBox) (mask : Nat) : Option Rat :=
  let c (l : List Word) (k : Nat) : Rat := (f32Rat (l.getD k 0)).getD 0
  let x := nearZero (c b.lo 0) (c b.hi 0)
  let y := nearZero (c b.lo 1) (c b.hi 1)
  if (x = 0 ∧ y = 0) ∨ mask.testBit (sectorOf x y) then some (x * x + y * y) else none

/-- The raw minimum of a TAP over a mask of sectors, in mm; none before a tapped frame (R415). -/
def State.rawMin (s : State) (set tap mask : Nat) : Option Nat :=
  let hit := s.prf.streams.findSome? fun x => x.taps.find? fun t => t.1 = set && t.2.1 = tap
  hit.map fun t => (List.range 16).foldl (fun m k => if mask.testBit k then min m (t.2.2.getD k 65535) else m) 65535

/-- The raw minimum in metres; a free value before the first tapped frame, of which the manual says nothing. -/
def State.rawMetres (set tap mask : Nat) (s : State) : Rat × State := match s.rawMin set tap mask with
  | some n => ((n : Rat) / 1000, s)
  | none =>
    let d := s.choose 65536
    ((d.1 : Rat) / 1000, d.2)

/-- The smaller of the raw minimum and the nearest conflict box lies below a bound (R417). -/
def State.nearer (s : State) (mask : Nat) (raw bound : Rat) : Bool :=
  decide (raw < bound) || (decide (0 < bound) && s.prf.boxes.any fun b => match b with
    | none => false
    | some x => (x.distance2 mask).any fun q => decide (q < bound * bound))

/-! ## Rules at a firing (R414, R416) -/

/-- The computed outputs of covered channels in the firing in progress, each with the last passed output. -/
def State.ruleOutputs (s : State) (r : RuleWords) : List (BitVec 16 × BitVec 16) :=
  (List.range (fld r.e1 14 8 + 1 - fld r.e1 6 0)).filterMap fun k =>
    let x := s.styChannel (fld r.e1 6 0 + k)
    if x.ready then some (x.computed, x.lastPassed) else none

/-- SEPARATION of one output (R414): its magnitude lies above the ramp between D_STOP and D_FULL. A ramp that does
not rise gives a limit that the manual does not state; `free` stands for it. -/
def State.separated (s : State) (r : RuleWords) (raw : Rat) (free : Nat) (u : BitVec 16) : Bool :=
  let full := q15Field r.e5 15 0
  let a : Int := u.toInt.natAbs
  match f32Rat r.e3, f32Rat r.e4 with
  | some lo, some hi =>
    if lo < hi then
      if full ≤ 0 then decide (full < 0) && !s.nearer (fld r.e2 15 0) raw lo || decide (0 < a)
      else decide (full < a) || (decide (0 < a) && s.nearer (fld r.e2 15 0) raw (lo + a * (hi - lo) / full))
    else decide ((free % (full.natAbs + 1) : Nat) < a)
  | _, _ => decide ((free % (full.natAbs + 1) : Nat) < a)

/-- A stream's newest frame was sealed within MAX_AGE microseconds (R414). -/
def State.tapLive (s : State) (n maxAge : Nat) : Bool :=
  (s.prf.streams.getD n {}).lastFrame.any fun e => decide (s.edge ≤ e + maxAge * edgesUs)

/-- No rising edge of WDI has come within MAX_US, or two came too close (R414). -/
def State.wdiBad (s : State) (set : Nat) (r : RuleWords) : Bool :=
  ((s.prf.sets.getD set {}).wdiMin.any fun d => decide (d < r.e2.toNat * edgesUs)) ||
    s.prf.wdiEdge.all fun e => decide (e + r.e3.toNat * edgesUs < s.edge)

/-- Whether a rule disagrees at a firing of its set (R414, R416); rules on CHECK messages do not. -/
def State.ruleAt (set : Nat) (r : RuleWords) (s : State) : Bool × State :=
  let n := fld r.e1 7 0
  let outs := s.ruleOutputs r
  match r.type with
  | 1 => (outs.any fun x => decide (x.1.toInt < q15Field r.e2 15 0) || decide (q15Field r.e2 31 16 < x.1.toInt), s)
  | 2 => (outs.any fun x => decide ((fld r.e2 15 0 : Int) < (x.1.toInt - x.2.toInt).natAbs), s)
  | 3 =>
    let raw := s.rawMetres set (fld r.e2 23 16) (fld r.e2 15 0)
    let k := raw.2.choose 65536
    (outs.any fun x => s.separated r raw.1 k.1 x.1, k.2)
  | 4 => (!s.tapLive n r.e4.toNat, s)
  | 8 => (!(s.prf.alive.any fun a => a.1 = set && a.2.1 = r.tag && decide (s.edge ≤ a.2.2 + r.e2.toNat * edgesUs)), s)
  | 9 =>
    let x := s.prf.streams.getD n {}
    (x.frozen || x.stale || decide (fld r.e2 7 0 < x.missing.getD set 0), s)
  | 10 => ((s.tb.everLocked && (s.tb.state = .freeRun || s.tb.state = .acquiring)) ||
      decide (r.e2.toNat * edgesUs < (s.prf.sets.getD set {}).holdEdges), s)
  | 11 => (s.wdiBad set r, s)
  | _ => (false, s)

/-- What the rules of a set find: whether one disagreed, the largest ACTION and the groups held. -/
structure Finding where
  disagreed : Bool := false
  action : Nat := 0
  gates : BitVec 16 := 0
deriving DecidableEq, Repr, Inhabited

def Finding.add (r : RuleWords) (f : Finding) : Finding :=
  { disagreed := true, action := max f.action r.action, gates := f.gates ||| r.gates }

/-- Every channel, stream, TIME and WDI rule is evaluated; a channel rule that disagrees counts (R416, R430). -/
def State.evalRules (set : Nat) : List RuleWords → Finding → State → Finding × State
  | [], f, s => (f, s)
  | r :: rest, f, s =>
    let v := s.ruleAt set r
    if v.1 then State.evalRules set rest (f.add r) (if r.onChannels then v.2.bump .prfDisagree else v.2)
    else State.evalRules set rest f v.2

/-- The verdict of a set on the firing of a group that it gates (R418). -/
def StyGroup.judge (set : Nat) (held : Bool) (edge : Nat) (g : StyGroup) : StyGroup :=
  if g.firing then
    { g with judged := (set, !held && g.delivered, edge) :: g.judged.filter (·.1 != set) }
  else g

/-- A PROOF firing of a set (R416, R418, R421). -/
def State.proofFiring (n : Nat) (s : State) : State :=
  match s.ruleSet n with
  | none => s
  | some rec =>
    let held := (s.prf.sets.getD n {}).openGates
    let v := s.evalRules n rec.rules {}
    let f := v.1
    let gates := held ||| f.gates
    let done := s.edge + rec.bound
    let mine (g : Nat) : Bool := rec.rules.any fun r => r.gates.getLsbD g
    let s1 := v.2.updSty fun y => { y with
      groups := y.groups.zipIdx.map fun x => if mine x.2 then x.1.judge n (gates.getLsbD x.2) done else x.1 }
    (s1.closeFrame n { disagreed := f.disagreed, action := f.action }).updPrf fun p => { p with
      sets := p.sets.modify n fun r => { r with busyUntil := done, wdiMin := none, holdEdges := 0 }
      streams := p.streams.map fun x => { x with missing := x.missing.set n 0 } }

/-- PROOF_CHECK_LAUNCH (R56, R58, R416): busy while the previous check of the set runs. -/
def execProofCheckLaunch (e : BitVec 12) (s : State) : Host.Outcome State Fault Refusal :=
  .next (s.fire 5 e.toNat (fun r => decide (s.edge < (s.prf.sets.getD r.arg.toNat {}).busyUntil))
    fun r s => s.proofFiring r.arg.toNat)

/-! ## CHECK messages (R419, R420) -/

/-- A value is not in order: NaN, or beyond a bound. -/
def notBelow (a b : Word) : Bool := f32IsNan a || f32IsNan b || fLt b a

/-- Whether a rule disagrees with a CHECK message that it matches (R414). -/
def State.ruleOnCheck (set : Nat) (r : RuleWords) (m : ProofMsg) (s : State) : Bool × State :=
  match m with
  | .residue _ _ _ _ _ digest => (fLt r.e2 (fAbs digest), s)
  | .stats _ _ _ _ _ mn mx sum nans =>
    if r.type = 6 then
      (decide (0 < nans) || notBelow r.e2 mn || notBelow mx r.e3 || notBelow r.e4 sum || notBelow sum r.e5, s)
    else
      let raw := s.rawMetres set (fld r.e2 7 0) (fld r.e2 31 16)
      let beyond := match f32Rat mn, f32Rat r.e3 with
        | some x, some tol => decide (raw.1 + tol < x)
        | none, _ => mn = f32Inf false
        | _, none => false
      (decide (0 < nans) || beyond, raw.2)
  | .gateSample .. => (false, s)

/-- Whether a rule matches a CHECK message: RESIDUE for SUB 0, STATS and XRANGE for SUB 1, by TAG (R419). -/
def RuleWords.matches (r : RuleWords) : ProofMsg → Bool
  | .residue _ _ _ _ tag _ => r.type = 7 && r.tag = tag
  | .stats _ _ _ _ tag _ _ _ _ => (r.type = 5 || r.type = 6) && r.tag = tag
  | .gateSample .. => false

/-- The matching rules of a set judge a message. -/
def State.judgeCheck (set : Nat) (m : ProofMsg) : List RuleWords → Finding → State → Finding × State
  | [], f, s => (f, s)
  | r :: rest, f, s =>
    let v := s.ruleOnCheck set r m
    State.judgeCheck set m rest (if v.1 then f.add r else f) v.2

/-- A PASS verdict (R419): the slot chain waits no longer, and the tag is alive (R414). -/
def State.passCheck (job : Word) (slot set : Nat) (tag : BitVec 16) (s : State) : State :=
  let s1 := s.updPrf fun p => { p with
    alive := (set, tag, s.edge) :: p.alive.filter fun a => !(a.1 = set && a.2.1 = tag) }
  (s1.updSlot job slot fun x => { x with verdicts := x.verdicts - 1 }).maybeSeal job

/-- A DISAGREE verdict (R419): it counts in the frame of the set; the first asks for one re-run, the second ends the
job with FAULT_EXHAUSTED. -/
def State.disagreeCheck (job : Word) (set : Nat) (f : Finding) (s : State) : State :=
  let s1 := (s.updPrf fun p => { p with sets := p.sets.modify set fun r => { r with
    open_ := { disagreed := true, action := max r.open_.action f.action }
    openGates := r.openGates ||| f.gates } }).bump .prfDisagree
  let part := ((s.job? job).map (·.part)).orElse fun _ => (s.ruleSet set).map (·.part)
  let record (again : Bool) (s : State) : State :=
    s.report 0x0E 0 (if again then 1 else 5) (if again then 2 else 7) 0x0070 part job set
  match s.job? job with
  | none => record false s1
  | some j =>
    if j.disagrees = 0 then
      let s2 := (s1.updJob job fun x => { x with disagrees := 1 }).faultJob job none
      if (s2.job? job).any (·.state = .restarting) then (record true s2).bump .prfReruns else record false s2
    else record false (s1.finishJob job stFaultExhausted 0)

/-- A CHECK message of a job's slot is judged (R419). -/
def State.checkArrives (m : ProofMsg) (job : Word) (slot set : Nat) (tag : BitVec 16) (s : State) : State :=
  let rules := (((s.ruleSet set).map (·.rules)).getD []).filter (·.matches m)
  let v := s.judgeCheck set m rules {}
  if v.1.disagreed then v.2.disagreeCheck job set v.1 else v.2.passCheck job slot set tag

/-- The message that Proof serves next; during Proof's own test slice messages wait in its input buffer (R428). -/
def Prf.nextMessage (p : Prf) : Option ProofMsg := if (p.slices.getD 7 {}).running then none else p.mailbox.head?

/-- CHECK_MESSAGE (R419): Proof takes the oldest message of its mailbox, if it is one of a CHECK. -/
def execCheckMessage (s : State) : Host.Outcome State Fault Refusal :=
  let popped := s.updPrf fun p => { p with mailbox := p.mailbox.drop 1 }
  .next (match s.prf.nextMessage with
    | some (.residue job slot index set tag digest) =>
      popped.checkArrives (.residue job slot index set tag digest) job slot set tag
    | some (.stats job slot index set tag mn mx sum nans) =>
      popped.checkArrives (.stats job slot index set tag mn mx sum nans) job slot set tag
    | _ => s)

/-! ## Gate samples and sensor faults (R425) -/

/-- The bound of R140 with 2^-20 above it. -/
def gateBound (tanh : Bool) : Rat := (if tanh then 1 / 64 else 1 / 128) + 1 / 1048576

/-- GATE_SAMPLE_MESSAGE (R425): a difference beyond the bound sets GATE_TABLE; 1,024 samples in a row within it clear
the cause. -/
def execGateSampleMessage (s : State) : Host.Outcome State Fault Refusal :=
  .next (match s.prf.nextMessage with
    | some (.gateSample job tanh diff) =>
      let s1 := s.updPrf fun p => { p with mailbox := p.mailbox.drop 1 }
      let bad := (f32Rat (fAbs diff)).all fun x => decide (gateBound tanh < x)
      if bad then
        ((s1.bump .prfGateFail).report 0x0E 0 5 0 0x0075 ((s.job? job).map (·.part)) job diff.toNat).updPrf fun p =>
          Prf.settle { p with gateTable := some 0 }
      else s1.updPrf fun p => Prf.settle { p with
        gateTable := p.gateTable.bind fun n => if 1024 ≤ n + 1 then none else some (n + 1) }
    | _ => s)

/-- CONFLICT_BOX_EXPIRE (R417): 200 ms after its last report. -/
def execConflictBoxExpire (n : Fin 64) (s : State) : Host.Outcome State Fault Refusal :=
  .next (match s.prf.boxes.getD n none with
    | some b => if b.expires ≤ s.edge then s.updPrf fun p => { p with boxes := p.boxes.set n none } else s
    | none => s)

/-- SENSOR_FAULT_CLEAR (R425): 10 s after the last report. -/
def execSensorFaultClear (s : State) : Host.Outcome State Fault Refusal :=
  .next (match s.prf.sensorFault with
    | some e =>
      if e + 10 * edgesSec ≤ s.edge then s.updPrf fun p => Prf.settle { p with sensorFault := none } else s
    | none => s)

/-! ## Monitors, heartbeat and release (R407 to R411, R422 to R424) -/

/-- WDI_EDGE (R414): a rising edge, timed against the previous one. -/
def execWdiEdge (s : State) : Host.Outcome State Fault Refusal :=
  .next (s.updPrf fun p => { p with
    wdiEdge := some s.edge
    sets := match p.wdiEdge with
      | none => p.sets
      | some e => p.sets.map fun r => { r with wdiMin := some (min (s.edge - e) (r.wdiMin.getD (s.edge - e))) } })

/-- Proof's firmware runs: the bring-up step of R475 that verifies it has passed (R471). -/
def State.proofRuns (s : State) : Bool := match s.glb.stage with
  | .outline | .booted | .outlineRecovery | .ready => true
  | _ => false

/-- WDO_TOGGLE (R424): every 500 us. A stalled heartbeat puts Proof in SAFE_STATE, where WDO stays low (R422). -/
def execWdoToggle (heartbeat : Bool) (s : State) : Host.Outcome State Fault Refusal :=
  .next (if !s.proofRuns ∨ s.prf.state = .safeState ∨ s.edge < s.prf.wdoEdge + 490 * edgesUs then s
    else if !heartbeat then s.proofSafe 7
    else s.updPrf fun p => { p with wdo := !p.wdo, wdoEdge := s.edge })

/-- PRF_RELEASE (R423): the current stop sequence, with no set ESCALATED with ACTION 1 or 2 and M frames without a
disagreement in every set of every SUPERVISED partition, releases STOPPED; any other write is counted. In outline recovery
the stop lines stay asserted (R95). -/
def execPrfRelease (v : Word) (s : State) : Host.Outcome State Fault Refusal :=
  let clean := s.otl.running.ruleSets.all fun r =>
    !s.supervised r.part || decide (r.m ≤ (s.prf.sets.getD r.set {}).goodSinceStop)
  .next (if s.glb.stage ≠ .outlineRecovery ∧ s.prf.state = .stopped ∧ v = s.prf.stopSeq ∧ !(s.prf.sets.any (·.stops)) ∧ clean then
      s.updPrf fun p => Prf.settle { p with stopped := false }
    else s.bump .prfReleaseRefused)

/-- LOCKSTEP_MISMATCH (R407). -/
def execLockstepMismatch (s : State) : Host.Outcome State Fault Refusal := .next (s.proofSafe 0)

/-- PROOF_SRAM_UNCORRECTABLE (R408). -/
def execProofSramUncorrectable (s : State) : Host.Outcome State Fault Refusal := .next (s.proofSafe 1)

/-- PROOF_CLOCK_WINDOW (R410): two consecutive windows with a count more than 12 % from nominal. -/
def execProofClockWindow (ctrl aon : BitVec 16) (s : State) : Host.Outcome State Fault Refusal :=
  let off (n nominal : Nat) : Bool := decide (12 * nominal < 100 * ((n : Int) - nominal).natAbs)
  let bad := off ctrl.toNat 8192 || off aon.toNat 2048
  let s1 := s.updPrf fun p => { p with clkCtrl := ctrl, clkAon := aon, clkBad := bad }
  .next (if bad && s.prf.clkBad then s1.proofSafe 2 else s1)

/-- The absolute limit of a rail in microvolts (R507). -/
def railLimit : Rail → Nat
  | .core => 750000 | .sram => 850000 | .aon | .phy08 => 950000
  | .io12 | .csi | .golent12 => 1450000 | .io18 | .phy18 | .golent18 => 2100000

/-- The trip limits of a monitored rail in microvolts (R411). -/
def tripLimits : Rail → Option (Nat × Nat)
  | .core => some (440000, 640000)
  | .sram => some (644000, 756000)
  | .aon => some (690000, 810000)
  | .io18 => some (1656000, 1944000)
  | .io12 => some (1104000, 1296000)
  | _ => none

/-- VOLTAGE_TRIP (R411, R507): a filtered breach of a monitored rail; beyond the absolute limits the manual says only
that the part is damaged. -/
def execVoltageTrip (rail : Rail) (microvolts : Nat) (s : State) : Host.Outcome State Fault Refusal :=
  if railLimit rail < microvolts then .fault .beyondAbsoluteMaximum
  else .next (match tripLimits rail with
    | some l => if microvolts < l.1 ∨ l.2 < microvolts then s.proofSafe 3 else s
    | none => s)

/-- STOP_READBACK_MISMATCH (R424): a stop line read back at its pad differs from what drives it. -/
def execStopReadbackMismatch (line : StopLine) (s : State) : Host.Outcome State Fault Refusal :=
  let s1 := s.updPrf fun p => match line with
    | .a => { p with readA := !p.readA }
    | .b => { p with readB := !p.readB }
  .next (s1.proofSafe 4)

end Sys2Proof.Machine
end

