-- ==== Sys2Proof/Machine/Spares.lean ====
section
/-!
DEFINITION. Self-test slices and coverage (R426 to R429), rotation and diagnosis of the Graver cores (R19 to R26,
R433 to R436, R522), Plate banks (R437), control cores (R438), the error log (R446), and adaptive voltage (R469).
-/

namespace Sys2Proof.Machine

open Sys2Proof

/-- The interval in which every unit tests itself (R24, R429). -/
def coverage : Nat := 100 * edgesMs

/-! ## Test slices (R426 to R429) -/

def State.slice (s : State) (u : Nat) : SliceState := s.prf.slices.getD u {}
def State.updSlice (u : Nat) (f : SliceState → SliceState) (s : State) : State :=
  s.updPrf fun p => Prf.settle { p with slices := p.slices.modify u f }

/-- The SELFTEST entry of a unit that has slices: it is powered, clocked and not retired (R426). -/
def State.sliceEntry (s : State) (u : Nat) : Option SelftestEntry :=
  if !s.otl.running.unitOn u ∨ (u = 5 ∧ s.trc.retired) ∨ (u = 6 ∧ s.xh.retired) then none
  else s.otl.running.selftest.find? (·.unit = u)

/-- The slice entries of a unit in the Registration table (R429). -/
def State.sliceCount (s : State) (u : Nat) : Nat :=
  (s.otl.running.table.filter fun e => e.valid && e.target = 9 && e.action = 0 && e.unit = u).length

/-- A slice of a unit starts, unless it would reach past the next safety launch or one still runs (R428). The planner's
query is paused meanwhile (R356). -/
def State.startSlice (i : Nat) (e : RegEntry) (x : SelftestEntry) (s : State) : State :=
  let t := tickOf s.now
  let late := (s.nextSafety (t + 1)).any fun n => decide (n < t + x.sliceTicks)
  if late ∨ (s.slice e.unit).running then s.bump .prfSliceSkip
  else
    let s1 := s.updSlice e.unit fun y => { y with running := true, entry := i, endEdge := s.edge + x.sliceTicks }
    if e.unit = 6 then s1.updXh fun y => { y with run := y.run.map fun q => { q with paused := q.paused + x.sliceTicks } }
    else s1

/-- SELFTEST_SLICE (R426, R428). -/
def execSelftestSlice (e : BitVec 12) (s : State) : Host.Outcome State Fault Refusal :=
  .next (match s.regEntry e.toNat with
    | none => s
    | some r =>
      if r.action = 0 then
        s.fire 9 e.toNat (fun _ => false) fun r s => match s.sliceEntry r.unit with
          | none => s
          | some x => s.startSlice e.toNat r x
      else s)

/-- A slice of a unit passed: its entry goes on by the stride; when every slice has passed, the pass ends (R429). -/
def State.slicePassed (u : Nat) (s : State) : State :=
  match s.sliceEntry u with
  | none => s.updSlice u fun y => { y with running := false }
  | some x =>
    let y := s.slice u
    let n := max 1 x.slices
    let at_ := (y.next.lookup y.entry).getD (((s.regEntry y.entry).map (·.arg.toNat)).getD 0 % n)
    let passed := (at_ :: y.passed.filter (· != at_))
    let next := (y.entry, (at_ + s.sliceCount u) % n) :: y.next.filter (·.1 != y.entry)
    if (List.range n).all passed.contains then
      s.updSlice u fun z => { z with
        running := false, next := next, passed := [], passStart := s.edge,
        missed := z.missed && decide (z.passStart + coverage < s.edge) }
    else s.updSlice u fun z => { z with running := false, next := next, passed := passed }

/-- What a failed slice does (R426): `n` names the engine, router or channel tested. -/
def State.sliceFailed (u n : Nat) (s : State) : State :=
  let s1 := (s.updSlice u fun y => { y with running := false }).bump .prfSliceFail
  match u with
  | 1 => s1.retireEngine n
  | 3 => s1.switchLane n
  | 4 =>
    if h : n < 66 then
      let c := s1.memChan (.golent ⟨n, h⟩)
      if c.state = .retired ∨ c.state = .lost ∨ c.state = .off then s1 else s1.golentFails ⟨n, h⟩
    else if h : 66 ≤ n ∧ n < 82 then
      let c := s1.memChan (.board ⟨n - 66, by omega⟩)
      if c.state = .lost ∨ c.state = .off then s1 else s1.boardFails ⟨n - 66, by omega⟩
    else s1
  | 5 => s1.updTrc fun t => { t with leaving := true }
  | 6 => s1.updXh fun x => { x with leaving := true }
  | _ => s1.proofSafe 6

/-- SLICE_DONE (R426, R429). -/
def execSliceDone (unit : Fin 8) (pass : Bool) (instance_ : Nat) (s : State) : Host.Outcome State Fault Refusal :=
  let y := s.slice unit
  .next (if y.running ∧ y.endEdge ≤ s.edge then
      (if pass then s.slicePassed unit else s.sliceFailed unit instance_)
    else s)

/-- SLICE_ABORT (R428): every running slice ends, neither pass nor fail. -/
def execSliceAbort (s : State) : Host.Outcome State Fault Refusal :=
  let n := (s.prf.slices.filter (·.running)).length
  let rest := (s.slice 6).endEdge - s.edge
  let s1 := if (s.slice 6).running then
      s.updXh fun y => { y with run := y.run.map fun q => { q with paused := q.paused - rest } }
    else s
  .next ((s1.updPrf fun p => Prf.settle { p with slices := p.slices.map fun y => { y with running := false } }).bumpBy
    .prfSliceAbort n)

/-! ## Coverage (R24, R429) -/

/-- The edge from which the coverage interval of a core counts (R24, R429, R436). -/
def State.coreCovered (s : State) (core : Nat) : Nat :=
  max (max (s.core core).lastPass (s.cluster (clusterOf core)).coverFrom) s.prf.coverFrom

/-- The coverage interval of a unit, or of core `unit - 0x100`, has run out unreported; a suspended cluster is exempt
(R26). -/
def State.uncovered (s : State) (unit : Nat) : Bool :=
  if unit < 0x100 then
    (s.sliceEntry unit).isSome && !(s.slice unit).missed &&
      decide (max (s.slice unit).passStart s.prf.coverFrom + coverage ≤ s.edge)
  else
    let c := unit - 0x100
    let cl := s.cluster (clusterOf c)
    (s.rotationSet s.otl.running (clusterOf c)).contains c && !cl.suspended && !s.prf.diagCores.contains c &&
      decide (s.coreCovered c + coverage ≤ s.edge)

/-- DIAG_INTERVAL_MISSED (R24, R429): the cause asserts FAULT_N, with a record and a count. -/
def execDiagIntervalMissed (unit : Nat) (s : State) : Host.Outcome State Fault Refusal :=
  .next (if s.glb.stage = .ready ∧ s.uncovered unit then
      let s1 := if unit < 0x100 then s.updSlice unit fun y => { y with missed := true }
        else s.updPrf fun p => Prf.settle { p with diagCores := p.diagCores ++ [unit - 0x100] }
      (s1.report 0x0E 0 5 0 0x0072 none 0 (unit % 0x100)).bump .prfDiagMissed
    else s)

/-! ## Rotation (R19 to R25, R436) -/

/-- A core has no job (R23). -/
def Core.quiet (c : Core) : Bool := c.job.isNone && c.dryJob.isNone

/-- The cores of a cluster whose coverage was missed are covered afresh (R436). -/
def Prf.clearCluster (c : Nat) (p : Prf) : Prf :=
  Prf.settle { p with diagCores := p.diagCores.filter fun n => clusterOf n != c }

/-- A suspension ends, and the coverage interval of the cluster starts afresh (R436). -/
def State.endSuspension (c : Nat) (s : State) : State :=
  if (s.cluster c).suspended then
    (s.updCluster c fun x => { x with suspended := false, abandoned := none, coverFrom := s.edge }).updPrf
      (Prf.clearCluster c)
  else s

/-- Core `o` becomes the rolling spare and starts its self-test; the spare so far takes its slot (R20). Without
another core the spare tests itself again. -/
def State.rotate (c : Nat) (s : State) : State :=
  match (s.cluster c).spare with
  | none => s
  | some sp =>
    let old := 9 * c + sp.val
    let o := (s.nextSpare c).getD old
    let s1 := s.updGlb fun g => { g with
      slotMap := g.slotMap.map fun x => if x.2.2 = o then (x.1, x.2.1, old) else x }
    let s2 := (s1.updCore old fun x => if x.state = .selfTest then { x with state := .idle } else x).updCore o fun x =>
      { x with state := .selfTest }
    (s2.endSuspension c).updCluster c fun x => { x with
      spare := some (Fin.ofNat 9 (o % 9)), testing := true, testStart := s.edge, handover := false }

/-- Rotation now, or as soon as the outgoing core's job and the spare's test have ended (R23). An instant that passes
while a handover still waits makes no second rotation, and counts as late again where the core still has its job
(DESIGN CHOICE, log 23). -/
def State.rotateOrWait (c : Nat) (s : State) : State :=
  let busy := (s.nextSpare c).any fun o => !(s.core o).quiet
  let wait (s : State) : State := s.updCluster c fun x => { x with handover := true }
  if busy then (wait s).bump .brnRotationLate
  else if (s.cluster c).testing then wait s else s.rotate c

/-- A rotation instant of a cluster (R20, R436): none within 10 ms of jobs-ready; in a suspension only once the
diagnosed core has been the spare for 4 ms. -/
def State.rotationInstant (c : Nat) (s : State) : State :=
  let cl := s.cluster c
  if s.edge < s.rotatesFrom c ∨ cl.spare.isNone then s else s.rotateOrWait c

/-- ROTATION_INSTANT (R20, R23). -/
def execRotationInstant (e : BitVec 12) (s : State) : Host.Outcome State Fault Refusal :=
  .next (match s.regEntry e.toNat with
    | none => s
    | some r =>
      if r.action = 1 then s.fire 9 e.toNat (fun _ => false) fun r s => s.rotationInstant r.unit else s)

/-- ROTATION_HANDOVER_DONE (R23): the outgoing core is idle and the spare's test has ended. -/
def execRotationHandoverDone (cl : Fin 4) (s : State) : Host.Outcome State Fault Refusal :=
  let x := s.cluster cl
  .next (if x.handover ∧ !x.testing ∧ (s.nextSpare cl).all fun o => (s.core o).quiet then s.rotate cl else s)

/-- SPARE_SELFTEST_DONE (R19, R24, R435): after 6 ms. A failed core is diagnosed, and rotation is suspended. -/
def execSpareSelftestDone (cl : Fin 4) (pass : Bool) (s : State) : Host.Outcome State Fault Refusal :=
  let x := s.cluster cl
  .next (match x.spare with
    | none => s
    | some sp =>
      let n := 9 * cl.val + sp.val
      if !x.testing ∨ s.edge < x.testStart + 6 * edgesMs then s
      else if pass then
        let fresh := decide (s.edge ≤ s.coreCovered n + coverage)
        ((s.updCluster cl fun y => { y with testing := false }).updCore n fun y =>
          { y with state := .idle, lastPass := s.edge }).updPrf fun p =>
          if fresh then Prf.settle { p with diagCores := p.diagCores.filter (· != n) } else p
      else
        ((s.updCluster cl fun y => { y with
          spare := none, testing := false, handover := false, suspended := true, abandoned := none }).updCore n fun y =>
          { y with leaving := true, diagnosing := true }).report 2 (9 * cl.val) 5 0 0x000A none 0 cl)

/-! ## Diagnosis and retirement (R97, R433 to R436, R440, R522) -/

/-- A powered day in CTRL edges. -/
def edgesDay : Nat := 86400 * edgesSec

/-- A diagnosed core rejoins: as the active core of the slot that it kept, or as its cluster's spare (R434, R522). -/
def State.rejoin (n : Nat) (s : State) : State :=
  let c := clusterOf n
  let s1 := s.updCore n fun x => { x with leaving := false, diagnosing := false, state := .idle }
  if (s.coreSlot n).isSome then s1
  else
    (s1.updCore n fun x => { x with lastPass := s.edge }).updCluster c fun x =>
      { x with spare := some (Fin.ofNat 9 (posOf n)), testing := false, handover := false, rejoinEdge := s.edge }

/-- A localised row or column of the 66 goes into the array's repair map, where a spare of that kind remains (R13, R96,
R97). -/
def RepairMap.fix (col : Bool) (phys : BitVec 7) (m : RepairMap) : Option RepairMap :=
  if 65 < phys.toNat then none
  else if col then (if m.col = 0x7F then some { m with col := phys } else none)
  else if m.rowA = 0x7F then some { m with rowA := phys }
  else if m.rowB = 0x7F then some { m with rowB := phys } else none

/-- The core is to be retired at its job boundary (R433, R434). -/
def State.toRetire (n : Nat) (s : State) : State := s.updCore n fun x => { x with retiring := true }

/-- One row or column is localised (R434). -/
def State.repairArray (n : Nat) (a : Fin 4) (col : Bool) (phys : BitVec 7) (s : State) : State :=
  match ((s.core n).repair.getD a {}).fix col phys with
  | none => s.toRetire n
  | some m =>
    (((s.updCore n fun x => { x with repair := x.repair.set a m }).report 1 (4 * n + a) 2 4 0x0007 none 0
      (phys.toNat + flag col 8)).bump .brnSpared).rejoin n

/-- DIAGNOSIS_DONE (R434, R435). -/
def execDiagnosisDone (core : Fin 36) (result : DiagResult) (s : State) : Host.Outcome State Fault Refusal :=
  let n := core.val
  let x := s.core n
  .next (if !x.diagnosing ∨ x.retiring then s
    else match result with
      | .row a phys => s.repairArray n a false phys
      | .column a phys => s.repairArray n a true phys
      | .noFault =>
        let es := s.edge :: x.transients.filter fun e => decide (s.edge < e + edgesDay)
        let s1 := s.updCore n fun y => { y with transients := es }
        if 3 ≤ es.length then s1.toRetire n
        else ((s1.report 2 n 2 0 0x0008 none 0 es.length).bump .brnTransient).rejoin n
      | .notLocalised => s.toRetire n
      | .outsideArrays => s.toRetire n)

/-- Under ROTATE one remaining core is given up and becomes the spare; the manual does not say which (R26, log 2). One
that has a job is tested first at its next turn as the spare (DESIGN CHOICE, log 23). -/
def State.giveUpCore (c : Nat) (s : State) : State :=
  let l := (s.rotationSet s.otl.running c).filter fun n => !(s.core n).leaving
  if l.isEmpty then s
  else
    let r := s.choose l.length
    let n := l.getD r.1 0
    let idle := (s.core n).quiet
    let s1 := r.2.updGlb fun g => { g with slotMap := g.slotMap.filter fun x => x.2.2 != n }
    let s2 := if idle then s1.updCore n fun x => { x with state := .selfTest } else s1
    (s2.updCluster c fun x => { x with suspended := true }).endSuspension c |>.updCluster c fun x =>
      { x with spare := some (Fin.ofNat 9 (posOf n)), testing := idle, testStart := s.edge, handover := false }

/-- A core leaves its cluster for good (R26, R440): a slot that it still serves is unmapped, rotation stops, and
SPARE_POLICY says what follows. -/
def State.retireCore (n : Nat) (s : State) : State :=
  let c := clusterOf n
  let kept := (s.coreSlot n).isSome
  let spared := !kept && (s.cluster c).suspended && (s.cluster c).abandoned.isSome
  let s1 := (s.updCore n fun x => { x with state := .retired, leaving := false, diagnosing := false, retiring := false }).updBrn
    fun b => { b with coreRetired := b.coreRetired ||| BitVec.ofNat 36 (2 ^ n) }
  let s2 := s1.updGlb fun g => { g with slotMap := g.slotMap.filter fun x => x.2.2 != n }
  let s3 := (s2.report 2 n 2 5 0x0009 none 0 0).bump .brnRetired
  let s4 := if spared then s3.bump .brnSpared else s3
  let s5 := if (s.cluster c).suspended then s4
    else (s4.updCluster c fun x => { x with suspended := true }).report 2 (9 * c) 5 0 0x000A none 0 c
  let s6 := s5.updCluster c fun x => { x with
    spare := if x.spare = some (Fin.ofNat 9 (posOf n)) then none else x.spare, abandoned := none }
  (if s.otl.running.rotate then s6.giveUpCore c else s6).checkDegraded

/-- CORE_RETIRE (R26, R432, R433, R440): at a job boundary a unit is retired. A Graver core is retired after its
diagnosis, the Tracing unit and the planner after a failed slice. -/
def execCoreRetire (u : RetireUnit) (s : State) : Host.Outcome State Fault Refusal :=
  .next (match u with
    | .core n => if (s.core n).retiring ∧ (s.core n).quiet then s.retireCore n else s
    | .margin =>
      if s.jobs.marginRetired ∨ s.jobs.marginRun.isSome ∨ !s.jobs.marginQueue.isEmpty then s
      else ((s.updJobs fun j => { j with marginRetired := true }).bump .brnRetired).checkDegraded
    | .tracing =>
      if !s.trc.leaving ∨ s.trc.retired ∨ s.trc.holder ≠ 0 ∨ !s.trc.queue.isEmpty then s
      else ((s.updTrc fun t => { t with retired := true, leaving := false }).bump .brnRetired).checkDegraded
    | .planner =>
      if !s.xh.leaving ∨ s.xh.retired ∨ s.xh.run.isSome ∨ !s.xh.queue.isEmpty ∨ s.xh.publish.isSome ∨
          !s.xh.publishQueue.isEmpty then s
      else ((s.updXh fun x => { x with retired := true, leaving := false }).bump .brnRetired).checkDegraded)

/-! ## Plate banks (R437) -/

def State.plate (s : State) (k : Nat) : PlateSlice := s.plt.getD k {}
def State.updPlate (k : Nat) (f : PlateSlice → PlateSlice) (s : State) : State := s.updPlt fun l => l.modify k f

/-- PLATE_SCRUB (R437): every bank is scrubbed; `corrected` names the bank of each corrected word, those that reads
corrected since the last scrub included. -/
def execPlateScrub (slice : Fin 4) (corrected : List Nat) (s : State) : Host.Outcome State Fault Refusal :=
  .next (if (s.plate slice).powered then
      ((s.updPlate slice fun x => { x with
        lastScrub := s.edge
        corr := corrected.map (fun b => (b, s.edge)) ++ x.corr.filter fun e => decide (s.edge < e.2 + edgesSec) }).bumpBy
        (.pltCorr slice) corrected.length).bumpBy .brnPlateCorr corrected.length
    else s)

/-- A bank is retired; true where a spare bank of its slice takes the address, with the spare's number. -/
def State.retireBank (slice bank : Nat) (s : State) : Option Nat × State :=
  let x := s.plate slice
  let s1 := (s.updPlate slice fun y => { y with
    retired := y.retired ++ [bank], sparesLeft := y.sparesLeft - 1, corr := y.corr.filter (·.1 != bank) }).bump .brnRetired
  if 0 < x.sparesLeft then (some (168 - x.sparesLeft), s1.bump .brnSpared) else (none, s1)

/-- A landed frame is lost: its version goes and counts as a drop (R309, R437). -/
def State.loseFrame (n : Nat) (f : LandedFrame) (s : State) : State :=
  ((s.updStream n fun x => { x with
    versions := x.versions.filter (·.index != f.index), gapNext := true, droppedSince := x.droppedSince + 1 }).bumpStream
    .ingDrops n 1).tellMissing n 1

/-- An element of a list that nothing determines (log 2). -/
def State.pick {α : Type} (l : List α) (s : State) : Option α × State :=
  let r := s.choose l.length
  (l[r.1]?, r.2)

/-- What a bank held is lost (R437). Which bank holds what is not architecture: kind and item are free (log 2). -/
def State.loseBank (s : State) : State :=
  let k := s.choose 6
  let s1 := k.2
  match k.1 with
  | 0 =>
    let o := s1.pick (s1.tir.objs.filter fun o => !o.present.isEmpty)
    (match o.1 with
     | none => o.2
     | some v =>
       let e := o.2.pick v.present
       let s2 := e.2.loseExtents (fun i => some i == e.1) v
       if v.t3.isSome ∨ v.t4.isSome then s2 else s2.loseVersion v)
  | 1 =>
    let j := s1.pick (s1.jobs.list.filter (·.state = .running))
    (match j.1 with
     | none => j.2
     | some x => j.2.faultJob x.id none)
  | 2 =>
    let f := s1.pick ((List.range 48).flatMap fun n => (s1.ing.streams.getD n {}).versions.map fun f => (n, f))
    (match f.1 with
     | none => f.2
     | some x => f.2.loseFrame x.1 x.2)
  | 3 =>
    let c := s1.pick (s1.ctx.table.filter (·.state = .active))
    (match c.1 with
     | none => c.2
     | some x => c.2.damageContext x.id)
  | 4 =>
    let o := s1.pick s1.tir.objs
    (match o.1 with
     | none => o.2
     | some v => o.2.loseVersion v)
  | _ => s1

/-- PLATE_UNCORRECTABLE (R437, R440). -/
def execPlateUncorrectable (slice : Fin 4) (bank : Nat) (s : State) : Host.Outcome State Fault Refusal :=
  .next (if !(s.plate slice).powered ∨ 168 ≤ bank ∨ (s.plate slice).retired.contains bank then s
    else
      let r := (s.bump (.pltUncorr slice)).loseBank.retireBank slice bank
      (r.2.report 3 (168 * slice + bank) 2 (if r.1.isSome then 3 else 5) 0x0010 none 0 bank).checkDegraded)

/-- PLATE_CORRECTED_LIMIT (R437): 16 corrected errors within 1 s. The contents are copied to the spare. -/
def execPlateCorrectedLimit (slice : Fin 4) (bank : Nat) (s : State) : Host.Outcome State Fault Refusal :=
  let hits := ((s.plate slice).corr.filter fun e => e.1 = bank && decide (s.edge < e.2 + edgesSec)).length
  .next (if !(s.plate slice).powered ∨ 168 ≤ bank ∨ (s.plate slice).retired.contains bank ∨ hits < 16 then s
    else
      let r := s.retireBank slice bank
      (match r.1 with
        | some sp => r.2.report 3 (168 * slice + bank) 2 3 0x0011 none 0 sp
        | none => r.2).checkDegraded)

/-! ## Control cores (R438) -/

/-- The spare control core: not active and not retired. -/
def Brn.ctrlSpare (b : Brn) : Option Nat := firstIdx 5 fun k => !b.ctrlActive.contains k && !b.ctrlRetired.contains k

/-- The seals and restarts that a lost control core was handling restart; which these are nothing determines (log 2). -/
def State.restartHandled : List Job → State → State
  | [], s => s
  | j :: r, s =>
    let k := s.choose 2
    let s1 := if k.1 = 0 then k.2
      else (k.2.updJob j.id fun x => { x with state := .running }).faultJob j.id none
    State.restartHandled r s1

/-- CTRL_WATCHDOG_EXPIRE (R438, R440): the core is retired, and the spare takes its work. -/
def execCtrlWatchdogExpire (core : Fin 5) (s : State) : Host.Outcome State Fault Refusal :=
  .next (if !s.brn.ctrlActive.contains core then s
    else
      let s1 := (s.updBrn fun b => { b with
        ctrlActive := b.ctrlActive.filter (· != core.val), ctrlRetired := b.ctrlRetired ++ [core.val] }).bump .brnRetired
      let s2 := match s1.brn.ctrlSpare with
        | some k => ((s1.updBrn fun b => { b with ctrlActive := b.ctrlActive ++ [k] }).report 7 core 2 3 0x0040 none 0 0).bump
            .brnSpared
        | none => s1.report 7 core 3 8 0x0041 none 0 0
      State.restartHandled (s2.jobs.list.filter fun j => j.state = .sealing || j.state = .restarting) s2)

/-! ## The error log (R443, R446, R447) -/

/-- The Burnisher takes one report: it gets its SEQ and joins the ring, whose oldest record it may overwrite. -/
def Brn.append (r : ErrorRecord) (b : Brn) : Brn :=
  let r := { r with seq := b.seq }
  { b with
    log := if b.log.length < 1024 then b.log ++ [r] else b.log.drop 1 ++ [r]
    overrun := b.overrun || decide (1024 ≤ b.log.length)
    seq := b.seq + 1
    kept := (r :: b.kept).take 16 }

/-- ERROR_REPORT (R446, R402): the oldest report is logged, and sent to device sessions and SUBSCRIBE sessions. -/
def execErrorReport (s : State) : Host.Outcome State Fault Refusal :=
  .next (match s.brn.inbox with
    | [] => s
    | r :: rest =>
      let full := decide (1024 ≤ s.brn.log.length)
      let s1 := s.updBrn fun b => Brn.append r { b with inbox := rest }
      let s2 := if full then s1.bump .brnLogLost else s1
      s2.sendWhere (fun x => x.part.isNone || x.subscribe) (.event 4 ({ r with seq := s.brn.seq }).words))

/-- BRN_LOG_POP (R446, R450). -/
def execBrnLogPop (v : Word) (s : State) : Host.Outcome State Fault Refusal :=
  .next (if bit v 0 then s.updBrn fun b => { b with log := b.log.drop 1 } else s)

/-- CNT_CLEAR of a block (R447). PRF has no such register: its counters clear only at reset (R423). -/
def execCntClear (b : Block) (v : Word) (s : State) : Host.Outcome State Fault Refusal :=
  .next (if bit v 0 && b != .prf then s.clearCounts b else s)

/-- LOCK_SET (R489): GLB_LOCK or TB_LOCK; writing 0 has no effect. -/
def execLockSet (b : Block) (v : Word) (s : State) : Host.Outcome State Fault Refusal :=
  .next (if !bit v 0 then s
    else match b with
      | .glb => s.updRegs fun r => { r with glbLock := true }
      | .tb => s.updRegs fun r => { r with tbLock := true }
      | _ => s)

/-! ## Adaptive voltage (R469, R490) -/

/-- GLB_AVS_LIMIT (R489, R490). -/
def execGlbAvsLimit (v : Word) (s : State) : Host.Outcome State Fault Refusal :=
  let lo := fld v 9 0
  let hi := fld v 25 16
  .next (if s.regs.glbLock ∨ hi < lo ∨ lo < 460 ∨ 600 < hi then s
    else s.updRegs fun r => { r with avsMin := BitVec.ofNat 10 lo, avsMax := BitVec.ofNat 10 hi })

/-- A target that a step may take: at most 10 mV away, and within the limits or nearer to them than the last (R469,
R490). -/
def State.avsAllowed (s : State) (target : Nat) : Bool :=
  let now := s.glb.avsTarget.toNat
  let lo := s.regs.avsMin.toNat
  let hi := s.regs.avsMax.toNat
  decide (460 ≤ target) && decide (target ≤ 600) && decide (target ≤ now + 10) && decide (now ≤ target + 10) &&
    ((decide (lo ≤ target) && decide (target ≤ hi)) || (decide (now < target) && decide (target < lo)) ||
      (decide (target < now) && decide (hi < target)))

/-- The regulator's answer to VOUT_COMMAND (R469): unacknowledged, VDD_CORE stays and a retry follows. -/
def State.voutCommand (target : Nat) (ack : Bool) (s : State) : State :=
  s.updGlb fun g =>
    if ack then { g with avsTarget := BitVec.ofNat 10 target, pmbusFail := false, avsEdge := some s.edge, pmbusRetry := none }
    else { g with pmbusFail := true, avsEdge := some s.edge, pmbusRetry := some (target, s.edge) }

/-- AVS_STEP (R469): one step per 1 ms, once the control firmware runs. -/
def execAvsStep (target : Nat) (ack : Bool) (s : State) : Host.Outcome State Fault Refusal :=
  .next (if s.proofRuns ∧ s.glb.pmbusRetry.isNone ∧ s.avsAllowed target ∧
      s.glb.avsEdge.all (fun e => decide (e + edgesMs ≤ s.edge)) then s.voutCommand target ack
    else s)

/-- PMBUS_RETRY (R469): 100 ms after the write that was not acknowledged. -/
def execPmbusRetry (ack : Bool) (s : State) : Host.Outcome State Fault Refusal :=
  .next (match s.glb.pmbusRetry with
    | none => s
    | some r => if r.2 + 100 * edgesMs ≤ s.edge then s.voutCommand r.1 ack else s)

end Sys2Proof.Machine
end

