-- ==== Sys2Proof/Machine/Security.lean ====
section
/-!
DEFINITION. The security block and the boot store in service (R451 to R464, R473, R474): the firmware image and its
check, boot writes, key slots, revocation, rollback and the debug lock.
-/

namespace Sys2Proof.Machine

open Sys2Proof

/-! ## The firmware image (R453) -/

/-- The words of a firmware header before its signature block: two components (R453). -/
def firmwareHeader : Nat := 152

/-- Word `n` of an image, little-endian. -/
def imageWord (img : List Byte) (n : Nat) : Word := wd (leNat ((img.drop (4 * n)).take 4))

/-- Key `k` of a header's key table: X, then Y. -/
def imageKey (img : List Byte) (k : Nat) : List Byte := (img.drop (8 + 96 * k)).take 96

/-- Component `c` lies in the image with the digest that the header states (R453). -/
def componentOk (img : List Byte) (c : Nat) : Bool :=
  let w (n : Nat) : Word := imageWord img (122 + 15 * c + n)
  let off := (w 1).toNat
  let len := (w 2).toNat
  decide (fld (w 0) 7 0 = c + 1) && decide (len ≤ 8388608) && decide (off + len ≤ img.length) &&
    decide (sha384 ((img.drop off).take len) = (img.drop (4 * (125 + 15 * c))).take 48)

/-- A key is the one that its OTP hash names (R451, R453). -/
def keyUsable (key : List Byte) (n : Nat) : Bool := Config.otpKeyHash n = some (sha384 key)

/-- The steps of R453: the SECURITY_VERSION and the key table of an image that passes. A revoked key keeps its place:
a signature under it fails with KEY_REVOKED (R452). -/
def Sec.verify (x : Sec) (img : List Byte) : Option (Nat × List (Option (List Byte))) :=
  let head := img.take (4 * firmwareHeader)
  let blk := (List.range 25).map fun k => imageWord img (firmwareHeader + k)
  let w1 := imageWord img 1
  let key0 := imageKey img 0
  let version := fld w1 7 0
  if img.length < 4 * (firmwareHeader + 25) ∨ imageWord img 0 ≠ 0x4E465754 ∨ fld w1 11 8 ≠ 2 ∨ fld w1 31 12 ≠ 0 ∨
      64 < version then none
  else if !keyUsable key0 0 then none
  else if blk.headD 0 ≠ 0 ∨ !ecdsaVerify key0 (sha384 head) (wordsBytes (blk.drop 1)) then none
  else if version < x.rollback.toNat then none
  else if !componentOk img 0 ∨ !componentOk img 1 then none
  else some (version, (List.range 5).map fun k =>
    if keyUsable (imageKey img k) k then some (imageKey img k) else none)

/-! ## Security objects (R254) -/

/-- The newest version of a security object, as bytes. -/
def State.securityObj (s : State) (id : Word) : Option (List Byte) :=
  (s.deviceObj id).map fun o => Memory.readBytes o.data 0 o.len

/-- A signed request of `n` words: its words and its signature block, where the object has exactly that size. -/
def signedWords (n : Nat) (bs : List Byte) : Option (List Word × List Word) :=
  if bs.length = 4 * (n + 25) then some (bytesWords n bs, bytesWords 25 (bs.drop (4 * n))) else none

def State.refuseKey (s : State) : State := s.updSec fun x => { x with keyRefused := true }

/-! ## Boot writes (R455, R456, R474) -/

/-- SEC_BOOT_WRITE bit 0 (R455): the loaded image is verified and then overwrites the boot store, which holds no
image until the write is done. -/
def execSecBootWriteFirmware (v : Word) (s : State) : Host.Outcome State Fault Refusal :=
  .next (if !bit v 0 ∨ s.sec.bootWrite.isSome then s
    else match s.securityObj 0xFB000220 with
      | none => s
      | some img =>
        if (s.sec.verify img).isNone then s
        else s.updSec fun x => { x with bootWrite := some true, pendingImage := img, firmware := [] })

/-- The copy that a boot write takes: the one not in use, or the older one where none is (R456, R474). -/
def Sec.targetCopy (x : Sec) : Nat :=
  match x.copyInUse with
  | some k => 1 - k
  | none =>
    let a := x.copies.getD 0 {}
    let b := x.copies.getD 1 {}
    if !a.headerGood then 0 else if !b.headerGood then 1 else if seqBefore a.seq b.seq then 0 else 1

/-- SEC_BOOT_WRITE bit 1 (R456): the running Outline must have BOOT set; the copy written is in force only when the
write is done. -/
def execSecBootWriteOutline (v : Word) (s : State) : Host.Outcome State Fault Refusal :=
  .next (if !bit v 1 ∨ s.sec.bootWrite.isSome then s
    else if !s.otl.running.header.boot then s.updSec fun x => { x with bootRefused := true }
    else s.updSec fun x => { x with
      bootWrite := some false, pendingImage := wordsBytes s.otl.image
      copies := x.copies.modify x.targetCopy fun c => { c with headerGood := false } })

/-- SEQ of the next boot-Outline copy: 1 above the newer one (R474). -/
def Sec.nextSeq (x : Sec) : Word :=
  let a := x.copies.getD 0 {}
  let b := x.copies.getD 1 {}
  (if seqBefore a.seq b.seq then b.seq else a.seq) + 1

/-- BOOT_WRITE_DONE (R455, R456): the store is read back, and what was written counts when it reads back good. -/
def execBootWriteDone (readBackGood : Bool) (s : State) : Host.Outcome State Fault Refusal :=
  .next (match s.sec.bootWrite with
    | none => s
    | some true => s.updSec fun x => { x with
        bootWrite := none, firmware := if readBackGood then x.pendingImage else [], pendingImage := [] }
    | some false => s.updSec fun x =>
        let k := x.targetCopy
        { x with
          bootWrite := none, pendingImage := []
          copyInUse := if readBackGood then some k else x.copyInUse
          copies := if readBackGood then x.copies.set k
              { headerGood := true, seq := x.nextSeq, words := bytesWords (x.pendingImage.length / 4) x.pendingImage }
            else x.copies })

/-! ## Rollback, keys, revocation and lock (R455 to R462) -/

/-- SEC_ROLLBACK_COMMIT (R455): ROLLBACK rises to the running version and is never lowered. -/
def execSecRollbackCommit (v : Word) (s : State) : Host.Outcome State Fault Refusal :=
  .next (if bit v 0 then s.updSec fun x => { x with
      rollback := BitVec.ofNat 7 (max x.rollback.toNat x.version.toNat) } else s)

/-- The slot and the key that a key blob installs, where the blob is good for the slot (R458, R459). -/
def State.keyBlob (s : State) (slot : Nat) : Option KeySlot :=
  match (s.securityObj 0xFB000200).bind (signedWords 42) with
  | none => none
  | some x =>
    let w1 := x.1.getD 1 0
    if x.1.getD 0 0 ≠ 0x4B424C42 ∨ fld w1 3 0 ≠ slot ∨ slot = 0 ∨ fld w1 7 4 ≠ 0 ∨ fld w1 31 11 ≠ 0 then none
    else if s.sigCheck (wordsBytes x.1) x.2 ≠ .good then none
    else if slot = 15 ∧ (s.sec.slots.getD 15 {}).valid then none
    else (Config.unwrapKey (wordsBytes (x.1.take 38))).map fun k =>
      { valid := true, model := bit w1 8, state := bit w1 9, cak := bit w1 10, key := k, exports_ := 0,
        ckn := if bit w1 10 then (x.1.drop 38).take 4 else [] }

/-- SEC_KEY_INSTALL (R458, R459, R461): an install replaces the slot's key at once and clears its export count; slot
15 takes one install. -/
def execSecKeyInstall (v : Word) (s : State) : Host.Outcome State Fault Refusal :=
  let slot := fld v 3 0
  .next (match s.keyBlob slot with
    | none => s.refuseKey
    | some k => s.updSec fun x => { x with slots := x.slots.set slot k })

/-- The customer key that a good revocation request names (R460). -/
def State.revocation (s : State) : Option Nat :=
  match (s.securityObj 0xFB000210).bind (signedWords 2) with
  | none => none
  | some x =>
    let n := fld (x.1.getD 1 0) 2 0
    if x.1.getD 0 0 ≠ 0x52564B52 ∨ fld (x.1.getD 1 0) 31 3 ≠ 0 ∨ n = 0 ∨ 4 < n then none
    else if fld (x.2.headD 0) 3 0 = n ∨ s.sigCheck (wordsBytes x.1) x.2 ≠ .good then none
    else some n

/-- SEC_REVOKE (R460). -/
def execSecRevoke (v : Word) (s : State) : Host.Outcome State Fault Refusal :=
  .next (if !bit v 0 then s
    else match s.revocation with
      | none => s.refuseKey
      | some n => s.updSec fun x => { x with revoked := x.revoked ||| BitVec.ofNat 4 (2 ^ (n - 1)) })

/-- What the debug port can be used for (R462). -/
inductive DebugUse where
  | boundaryScan | controlCores | proof
deriving DecidableEq, Repr, Inhabited

/-- The debug access that a lock state grants; `challenge` says that a challenge signed by a customer key was answered
(R462). Debug access to Proof is never granted outside OPEN (R463). -/
def LockState.grants (l : LockState) (challenge : Bool) : DebugUse → Bool
  | .boundaryScan => true
  | .controlCores => l = .open_ || (l = .customer && challenge)
  | .proof => l = .open_

/-- The claims of R405 and R406 hold only in CUSTOMER or LOCKED (R463). -/
def LockState.claimsHold (l : LockState) : Bool := l = .customer || l = .locked

/-- The code of a lock state (R462). -/
def LockState.code : LockState → Nat
  | .open_ => 0
  | .customer => 1
  | .locked => 3

/-- The state that a target code names, if it advances the state in OTP (R462). -/
def lockTarget (now : LockState) (code : Nat) : Option LockState :=
  if code = 1 ∧ now = .open_ then some .customer
  else if code = 3 ∧ now ≠ .locked then some .locked else none

/-- SEC_LOCK_ADVANCE (R462): the target code, and within 1 s its complement, programs LOCK; it takes effect at the
next cold reset. A code that does not advance the state is ignored. -/
def execSecLockAdvance (v : Word) (s : State) : Host.Outcome State Fault Refusal :=
  let code := fld v 1 0
  let first : State := match lockTarget s.sec.lockOtp code with
    | some _ => s.updSec fun x => { x with lockWrite := some (BitVec.ofNat 2 code, s.edge) }
    | none => s
  .next (match s.sec.lockWrite with
    | none => first
    | some w =>
      if s.edge ≤ w.2 + edgesSec ∧ code = 3 - w.1.toNat then
        s.updSec fun x => { x with
          lockWrite := none, lockOtp := (lockTarget x.lockOtp w.1.toNat).getD x.lockOtp }
      else first)

end Sys2Proof.Machine
end

