-- ==== Sys2Proof/Machine/Tiers.lean ====
section
/-!
DEFINITION. The tier manager and the Tier Writer: prefetch, hints, misses and fetches, allocation waits,
writes, the directory mirror, re-adoption and tier moves (R250 to R280, R448).
-/

namespace Sys2Proof.Machine

open Sys2Proof

/-! ## Prefetch (R56, R264) -/

/-- A prefetch reference on the newest version of an object, and its promotion. -/
def State.prefetch (entry part : Nat) (obj : Word) (s : State) : State :=
  match s.newestOf part obj with
  | none => s
  | some o =>
    (((s.takeRef 2 o.part o.obj o.ver).updTir fun t => { t with
      tierRefs := t.tierRefs ++ [{ entry := some entry, part := o.part, obj := o.obj, ver := o.ver }] }).promoteT2
      o.part o.obj o.ver)

/-- A common TIER/CTRL edge: every fifth CTRL edge (R34). P0 is one (DESIGN CHOICE, log 30). -/
def State.commonEdge (s : State) : Bool := s.edge % 5 = 0

/-- A prefetch launch takes effect: the entry's previous reference is released, and a new one is taken (R264). -/
def State.prefetchNow (entry part : Nat) (obj : Word) (s : State) : State :=
  (s.releaseRefs fun x => x.entry = some entry).prefetch entry part obj

/-- A TIER_PREFETCH launch: it takes effect on the first common TIER/CTRL edge from now (R34, R264). -/
def State.launchPrefetch (i : Nat) (r : RegEntry) (s : State) : State :=
  match s.otl.running.places[r.arg.toNat]? with
  | none => s
  | some p =>
    if s.commonEdge then s.prefetchNow i p.part p.obj
    else s.updRgn fun g => { g with tierWait := g.tierWait ++ [(i, p.part, p.obj)] }

/-- TIER_PREFETCH (R34, R264): a launch of the entry that waits for a common edge takes effect on it; else the entry
fires. -/
def execTierPrefetch (e : BitVec 12) (s : State) : Host.Outcome State Fault Refusal :=
  .next (match s.rgn.tierWait.find? (·.1 = e.toNat) with
    | some x =>
      if s.commonEdge then (s.updRgn fun g => { g with tierWait := g.tierWait.erase x }).prefetchNow x.1 x.2.1 x.2.2
      else s.fire 7 e.toNat (fun _ => false) (State.launchPrefetch e.toNat)
    | none => s.fire 7 e.toNat (fun _ => false) (State.launchPrefetch e.toNat))

/-! ## Hints (R262, R263, R272) -/

def hintTier (b : HintBody) : Nat := fld b.w1 10 8
/-- A reserved field of a hint is not 0, or its ACTION is unknown (R262, R263): status RANGE. DESIGN CHOICE for the reserved
field: R9 refuses it, and no rule names its status (log 16). -/
def hintReserved (b : HintBody) : Bool :=
  fld b.w1 31 11 != 0 || fld b.w2 31 16 != 0 || b.w3 != 0 || fld b.w1 7 0 = 0 || decide (6 < fld b.w1 7 0)

/-- The version that a hint names in a partition: by number, or the newest. -/
def State.hinted (s : State) (p : Nat) (b : HintBody) : Option ObjVersion :=
  s.tir.objs.find? fun o => o.part = p && o.obj = b.w0 &&
    (if fld b.w2 15 0 = 0 then o.newest else o.ver = fld b.w2 15 0)

/-- A hint of a partition session; `go` answers the status. -/
def State.hint (sess : Nat) (tag : Word) (b : HintBody) (go : ObjVersion → State → Byte × State) (s : State) : State :=
  s.request sess (fun x s =>
    match x.part with
    | none => s.sendTo sess (.hintReply tag 0x10)
    | some p =>
      if hintReserved b then s.sendTo sess (.hintReply tag 0x04)
      else match s.hinted p b with
        | none => s.sendTo sess (.hintReply tag 0x02)
        | some o => let r := go o s; r.2.sendTo sess (.hintReply tag r.1))

/-- The version holds a host reference of its partition in a tier. -/
def ObjVersion.hostRef (o : ObjVersion) (tier : Nat) : Bool := if tier = 2 then o.hostT2 else o.hostT3

/-- Whether `units` of a tier could be had without taking another partition below its floor (R263, R269). -/
def State.fitsFloors (s : State) (tier p units : Nat) : Bool :=
  let pool := if tier = 2 then s.t2Pool - s.landedUnits else t3Units - 2112
  let kept := total (((List.range 8).filter (· != p)).map fun q => min (s.floor tier q) (s.usage tier q))
  decide (units + kept ≤ pool)

/-- The version that holds the host reference of its object in a tier: at most one (R263). -/
def State.hostHolder (s : State) (tier part : Nat) (obj : Word) : Option ObjVersion :=
  s.tir.objs.find? fun o => o.part = part && o.obj = obj && o.hostRef tier

/-- Set or clear a host reference. -/
def State.setHostRef (tier : Nat) (on : Bool) (o : ObjVersion) (s : State) : State :=
  let s1 := s.updObj (isVer o.part o.obj o.ver) fun x =>
    if tier = 2 then { x with hostT2 := on } else { x with hostT3 := on }
  if on then s1.takeRef tier o.part o.obj o.ver else s1.freeRef tier o.part o.obj o.ver

/-- The object's host reference in a tier is dropped, whichever version holds it. -/
def State.dropHost (tier : Nat) (o : ObjVersion) (s : State) : State :=
  match s.hostHolder tier o.part o.obj with
  | some x => s.setHostRef tier false x
  | none => s

/-- Units that a promotion of the whole object takes in a tier. -/
def State.promoUnits (s : State) (tier : Nat) (o : ObjVersion) : Nat :=
  if tier = 2 then unitsOf (262144 * o.extents + (4 * o.extents + 63) / 64 * 64)
  else o.size * (1 + toBit (s.mirrors o.mirror))

/-- Another version's host reference of the same object in a tier is dropped. -/
def State.dropOther (tier : Nat) (o : ObjVersion) (s : State) : State :=
  match s.tir.objs.find? fun x => x.part = o.part && x.obj = o.obj && x.ver != o.ver && x.hostRef tier with
  | some x => s.setHostRef tier false x
  | none => s

/-- PROMOTE (R263): the host reference moves to the version that the hint names. -/
def execPromote (sess : Fin 16) (tag : Word) (b : HintBody) (s : State) : Host.Outcome State Fault Refusal :=
  .next (s.hint sess tag b (fun o s =>
    let t := hintTier b
    if !(t = 2 || t = 3) ∨ o.home ≤ t then (0x04, s)
    else if o.state ≠ .sealed ∧ o.state ≠ .rebuilding then (0x02, s)
    else if !s.fitsFloors t o.part (s.promoUnits t o) then (0x05, s)
    else
      let s1 := if o.hostRef t then s else (s.setHostRef t true o).dropOther t o
      (0x00, if t = 2 then s1.promoteT2 o.part o.obj o.ver else s1.promoteT3 o.part o.obj o.ver)))

/-- The host reference in a hint's tier is dropped. -/
def State.dropHint (b : HintBody) (o : ObjVersion) (s : State) : Byte × State :=
  let t := hintTier b
  if !(t = 2 || t = 3) then (0x04, s)
  else (0x00, s.dropHost t o)

/-- RELEASE (R263). -/
def execRelease (sess : Fin 16) (tag : Word) (b : HintBody) (s : State) : Host.Outcome State Fault Refusal :=
  .next (s.hint sess tag b (State.dropHint b))

/-- PIN (R263). -/
def execPin (sess : Fin 16) (tag : Word) (b : HintBody) (s : State) : Host.Outcome State Fault Refusal :=
  .next (s.hint sess tag b (fun o s =>
    (0x00, s.updObj (isVer o.part o.obj o.ver) fun x => { x with hpin := true })))

/-- UNPIN (R263). -/
def execUnpin (sess : Fin 16) (tag : Word) (b : HintBody) (s : State) : Host.Outcome State Fault Refusal :=
  .next (s.hint sess tag b (fun o s =>
    (0x00, s.updObj (isVer o.part o.obj o.ver) fun x => { x with hpin := false })))

/-- DEMOTE (R263): as RELEASE; without a reference left in the tier, LAST_USE becomes 0. -/
def execDemote (sess : Fin 16) (tag : Word) (b : HintBody) (s : State) : Host.Outcome State Fault Refusal :=
  .next (s.hint sess tag b (fun o s =>
    let r := s.dropHint b o
    let t := hintTier b
    (r.1, r.2.updObj (isVer o.part o.obj o.ver) fun x =>
      if r.1 = 0 ∧ (if t = 2 then x.refsT2 else x.refsT3) = 0 then { x with lastUse := 0 } else x)))

/-- DROP (R263): the version is freed in every tier. -/
def execDrop (sess : Fin 16) (tag : Word) (b : HintBody) (s : State) : Host.Outcome State Fault Refusal :=
  .next (s.hint sess tag b (fun o s =>
    if o.vrefs ≠ 0 ∨ o.refsT2 ≠ 0 ∨ o.refsT3 ≠ 0 ∨ o.promoting then (0x06, s) else (0x00, s.freeVersion o)))

/-! ## Misses and fetches (R265 to R268, R448) -/

/-- The read-ahead of a miss in on-demand mode: the next extents at normal priority (R265). -/
def State.readAhead (part : Nat) (obj : Word) (ver extent : Nat) (s : State) : State :=
  let n := (s.regs.readahead.getD part 1).toNat
  if (s.otl.running.tierPools.find? (·.part = part)).any (·.onDemand) then
    (List.range n).foldl (fun s k => match s.version? part obj ver with
      | some o => if extent + 1 + k < o.extents then s.fetchExtent 0 32 (extent + 1 + k) o else s
      | none => s) s
  else s

/-- A slot already waits for this extent. -/
def State.asked (s : State) (job : Word) (slot e : Nat) (o : ObjVersion) : Bool :=
  (s.fetchOf o e).any (fun r => r.askers.contains (job, slot)) ||
    (s.tir.waits.any fun w => w.job = job && w.slot = slot && isVer w.part w.obj w.ver o && w.extent = e) ||
    s.lnw.waiting.any fun w => w.job = job && w.slot = slot && isVer w.part w.obj w.ver o && w.extent = e

/-- EXTENT_MISS (R265, R267): a read of a slot needs an extent that T2 does not hold. The core waits for weights, the
fetch is raised, and the miss is counted; a slot that already waits for it misses it once. -/
def execExtentMiss (job : Word) (slot : Fin 32) (obj : Word) (extent : Nat) (s : State) :
    Host.Outcome State Fault Refusal :=
  .next (match s.job? job with
    | none => s
    | some j =>
      match (j.bound.find? fun b => b.obj = obj && !b.gone).bind fun b => s.version? b.part b.obj b.ver with
      | none => s
      | some o =>
        if j.state ≠ .running ∨ j.slots.length ≤ slot ∨ o.extents ≤ extent ∨ o.present.contains extent ∨
            s.asked job slot extent o then s
        else
          let core := j.coreOf slot
          let s1 := (s.updCore core fun c =>
            if c.state = .running then { c with state := .waitWeights } else c).bump .tirLateWeights
          let s2 := if h : core < 36 then s1.bump (.coreLateWeights ⟨core, h⟩) else s1
          (s2.missExtent job slot core (readMaster j.chain.drypoint) extent o).readAhead o.part o.obj o.ver extent)

/-- EXTENT_FETCH_DONE (R266): every unit has arrived and the extent is PRESENT; a core that waited for it goes on. -/
def execExtentFetchDone (tag : BitVec 16) (s : State) : Host.Outcome State Fault Refusal :=
  .next (match s.tir.requests.find? (·.tag = tag) with
    | none => s
    | some r =>
      if !r.left.isEmpty then s
      else
        let arrive (o : ObjVersion) : ObjVersion :=
          let o1 := { o with present := o.present ++ [r.extent], filling := o.filling.filter (· != r.extent),
                             lastUse := s.now }
          if o1.full then { o1 with promoT2 := false } else o1
        let s1 := s.updTir fun t => { t with requests := t.requests.filter (·.tag != tag) }
        ((((s1.updObj (isVer r.part r.obj r.ver) arrive).bump .tirPromotions).wake r.askers)).issueWaiting)

/-- TIER_REQUEST_TIMEOUT (R268, R445): 200 us after its issue the request is cancelled, its tag is held, and
the requesting jobs have an uncorrected fault. -/
def execTierRequestTimeout (tag : BitVec 16) (s : State) : Host.Outcome State Fault Refusal :=
  .next (match s.tir.requests.find? (·.tag = tag) with
    | none => s
    | some r => if s.requestLate r then s.timeOutRequest r else s)

/-- LATE_COMPLETION (R268, R448): a completion that carries a held tag is discarded and counted. -/
def execLateCompletion (linework : Bool) (tag : BitVec 16) (s : State) : Host.Outcome State Fault Refusal :=
  .next (if linework then (if s.lnw.held.any (·.tag = tag) then s.bump .lnwLateDiscard else s)
    else if s.tir.held.any (·.tag = tag) then s.bump .tirLateDiscard else s)

/-- TAG_RELEASE (R448): a tag held for 1 ms returns to its pool. -/
def execTagRelease (tag : BitVec 16) (s : State) : Host.Outcome State Fault Refusal :=
  let stays (h : HeldTag) : Bool := h.tag != tag || decide (s.edge < h.edge + edgesMs)
  .next ((s.updTir fun t => { t with held := t.held.filter stays }).updLnw fun l =>
    { l with held := l.held.filter stays })

/-! ## Allocation waits (R269) -/

/-- A wait ends: a fetch is issued, for a slot as its miss, or a write or a launch goes on. -/
def State.endWait (w : AllocWait) (s : State) : State :=
  let s1 := s.updTir fun t => { t with waits := t.waits.filter (· != w) }
  if w.obj = 0 then s1
  else match s1.version? w.part w.obj w.ver with
    | none => s1.wake [(w.job, w.slot)]
    | some o =>
      if o.present.contains w.extent then s1.wake [(w.job, w.slot)]
      else match s1.askerCore (w.job, w.slot), s1.job? w.job with
        | some core, some j => s1.missExtent w.job w.slot core (readMaster j.chain.drypoint) w.extent o
        | _, _ => s1.fetchExtent 0 32 w.extent o

/-- The extent that a wait wants is there, or on its way: it needs no room of its own. -/
def State.served (s : State) (w : AllocWait) : Bool :=
  w.obj != 0 && (s.version? w.part w.obj w.ver).all fun o => o.present.contains w.extent || (s.fetchOf o w.extent).isSome

/-- The first wait for which room can be made now (R269 to R271). -/
def State.firstWait (s : State) : List AllocWait → State
  | [] => s
  | w :: r =>
    if s.served w then s.endWait w
    else
      let q := s.roomT2 w.part w.units
      if q.1 then q.2.endWait w else State.firstWait q.2 r

/-- The waits in the order in which they are served: raised fetches, then the rest, oldest first (R267, R299). -/
def State.waitOrder (s : State) : List AllocWait :=
  let raised (w : AllocWait) : Bool := w.obj != 0 && w.job != 0
  s.tir.waits.filter raised ++ s.tir.waits.filter (!raised ·)

/-- ALLOCATION_WAIT_END (R269 to R271): a wait for T2, and a copy that waits for T3 or T4. -/
def execAllocationWaitEnd (s : State) : Host.Outcome State Fault Refusal :=
  .next (s.firstWait s.waitOrder).placeWaiting

/-! ## The Tier Writer (R252, R261, R271) -/

/-- The logical channels that are LOST, whose units of a new copy are only in its mirror (R292). -/
def State.lostNumbers (s : State) : List Nat := (s.chn.golent.filter (·.state = .lost)).map (·.logical.toNat)

/-- A page's copy becomes readable (R208). -/
def State.pageReadable (w : TierWrite) (s : State) : State :=
  match s.page? (w.obj.toNat - 0xFD000000) with
  | some g =>
    if g.sealed ∧ g.part = w.part then
      s.updPage g.index fun x => { x with
        inT3 := true, inPlate := false, unit := w.start, mirrorUnit := w.mirrorStart
        gone := (w.start :: w.mirrorStart.toList).filter fun u => s.lostLogical (u % 64) }
    else s.giveBack w
  | none => s.giveBack w

/-- A snapshot becomes readable: its region leaves Plate, and is unchanged from now on (R242). -/
def State.snapshotReadable (w : TierWrite) (s : State) : State :=
  let n := w.obj.toNat - 0xFC000000
  match (s.context? n).bind (·.rec_) with
  | some r =>
    if r.swapBusy ∧ r.resident then
      (s.updContext n fun x => { x with rec_ := some { r with
        snapshot := some w.start, snapMirror := w.mirrorStart, snapGone := s.lostNumbers, clean := true, resident := false } }).bump
        .ctxRecSwapOut
    else s.giveBack w
  | none => s.giveBack w

/-- Rewritten units of a page or a snapshot hold its bytes again (R222, R248, R275); a version waits for REBUILD_DONE. -/
def State.rebuilt (w : TierWrite) (s : State) : State :=
  let s1 := s.updPage (w.obj.toNat - 0xFD000000) fun g =>
    if 0xFD000000 ≤ w.obj.toNat then { g with gone := g.gone.filter fun u => s.lostLogical (u % 64) } else g
  if 0xFC000000 ≤ w.obj.toNat ∧ w.obj.toNat < 0xFD000000 then
    s1.updContext (w.obj.toNat - 0xFC000000) fun x => { x with rec_ := x.rec_.map fun r =>
      { r with snapGone := r.snapGone.filter s.lostLogical } }
  else s1

/-- A host load's copy at its home becomes readable: the version is sealed as the newest, and the load ends (R252, R253,
R261, R401). -/
def State.loadReadable (w : TierWrite) (s : State) : State :=
  match s.version? w.part w.obj 0, s.tir.loads.find? fun l => l.obj = w.obj && l.part = w.part && l.ending.isSome with
  | some o, some l =>
    let s1 := s.updTir fun t => { t with
      objs := t.objs.filter fun x => !isVer w.part w.obj 0 x
      loads := t.loads.filter (· != l), mirrorDirty := t.mirrorDirty || w.tier = 3 }
    let o1 := { o with state := .sealed, ver := s.nextVer w.part w.obj, lastUse := s.now }
    let o2 := if w.tier = 3 then { o1 with t3 := some w.start, t3Mirror := w.mirrorStart, gone := s.lostNumbers }
      else { o1 with t4 := some w.start }
    (s1.publish o2).sendTo l.sess (.objReply (l.ending.getD 0) 0)
  | _, _ => s.giveBack w

/-- The mirror of a copy becomes readable (R258, R261). -/
def State.mirrorReadable (w : TierWrite) (s : State) : State :=
  match s.version? w.part w.obj w.ver with
  | some o =>
    if o.t3.isSome ∧ o.t3Mirror.isNone then
      (s.updObj (isVer o.part o.obj o.ver) fun x => { x with t3Mirror := some w.start }).updTir fun t => { t with mirrorDirty := true }
    else s.giveBack w
  | none => s.giveBack w

/-- A copy of a version becomes readable: it has it in the tier from now on. -/
def State.versionReadable (w : TierWrite) (s : State) : State :=
  match s.version? w.part w.obj w.ver with
  | none => s.giveBack w
  | some o =>
    let s1 := s.updObj (isVer o.part o.obj o.ver) fun x =>
      if w.tier = 3 then { x with t3 := some w.start, t3Mirror := w.mirrorStart, gone := s.lostNumbers, promoT3 := false }
      else { x with t4 := some w.start }
    let s2 := if w.tier = 3 then s1.updTir fun t => { t with mirrorDirty := true } else s1
    if w.kind = .demote then s2.bump .tirDemotions else s2

/-- A copy becomes readable (R252). -/
def State.copyReadable (w : TierWrite) (s : State) : State :=
  match w.kind with
  | .swap => s.snapshotReadable w
  | .rebuild => s.rebuilt w
  | .kvPage => s.pageReadable w
  | .load => s.loadReadable w
  | .mirror => s.mirrorReadable w
  | .place | .demote | .moveCopy => s.versionReadable w

/-- Every burst of a write is stored (R286, R287). -/
def State.allStored (s : State) (w : TierWrite) : Bool :=
  let mine (u : Nat) : Bool := (w.start :: w.mirrorStart.toList).any fun a => decide (a ≤ u) && decide (u < a + w.len)
  w.tier != 3 || s.chn.golent.all fun c => c.unstored.all fun x => !mine x.1

/-- TIER_WRITE_DONE (R252): the oldest write of the Tier Writer that has its units has ended. With a good CRC the copy
becomes readable; with a bad one nothing becomes readable, and the write stays to be made again (log 16). -/
def execTierWriteDone (crcGood : Bool) (s : State) : Host.Outcome State Fault Refusal :=
  .next (match s.tir.writer.find? (·.placed) with
    | none => s
    | some w =>
      if crcGood && s.allStored w then (s.updTir fun t => { t with writer := t.writer.erase w }).copyReadable w else s)

/-! ## The directory mirror and re-adoption (R276 to R278) -/

/-- The entry of a version in an image. -/
def mirrorEntry (o : ObjVersion) : MirrorEntry where
  obj := o.obj
  part := o.part
  ver := o.ver
  home := o.home
  pin := o.pin
  mirror := o.mirror
  source := o.source
  len := o.len
  t3 := o.t3.getD 0
  t3Mirror := o.t3Mirror.getD 0
  crc := o.crc
  order := o.order

/-- The versions that the mirror lists (R276). -/
def Tir.listed (t : Tir) : List ObjVersion :=
  t.objs.filter fun o => (o.state = .sealed || o.state = .rebuilding) && o.t3.isSome

/-- DIRECTORY_MIRROR_WRITE (R276, R277): a new image goes into the older slot, at most one in 10 ms. -/
def execDirectoryMirrorWrite (s : State) : Host.Outcome State Fault Refusal :=
  let t := s.tir
  .next (if !t.mirrorDirty || (t.mirrorEdge != 0 && decide (s.edge < t.mirrorEdge + 10 * edgesMs)) then s
    else
      let slot := match s.newestImage with
        | some x => 1 - x.1
        | none => 0
      let image : MirrorSlot :=
        { words := mirrorImage (t.mirrorSeq + 1) (compactOf s.now) (t.listed.map mirrorEntry)
          data := t.listed.map (·.data) }
      s.updTir fun t => { t with
        mirror := t.mirror.set slot image, mirrorSeq := t.mirrorSeq + 1, mirrorDirty := false, mirrorEdge := s.edge })

/-- A comes before B in the check: moved to the front by a bind or a read, then the lower ORDER, then the lower ID
(R278). -/
def verifyBefore (a b : ObjVersion) : Bool :=
  if a.raised ≠ b.raised then a.raised else if a.order ≠ b.order then decide (a.order < b.order)
  else decide (a.obj.toNat < b.obj.toNat)

/-- The version that the check takes next (R278). -/
def Tir.nextVerify (t : Tir) : Option ObjVersion :=
  ((t.objs.filter (·.state = .verifying)).foldl (fun acc o => insertBy verifyBefore o acc) []).head?

/-- An extent's word in the extent table (R259). -/
def ObjVersion.extentWord (o : ObjVersion) (e : Nat) : Word :=
  wd (((o.addrs.lookup e).getD 0).toNat + flag (o.filling.contains e) 30 + flag (o.present.contains e) 31)

/-- REBUILD_DONE (R275): the lost units of a version are rewritten. -/
def execRebuildDone (part : Fin 8) (obj : Word) (ver : BitVec 16) (s : State) : Host.Outcome State Fault Refusal :=
  let busy := s.tir.writer.any fun w => w.kind = .rebuild && w.part = part && w.obj = obj && w.ver = ver.toNat
  .next (if busy then s
    else s.updObj (isVer part obj ver.toNat) fun o =>
      { o with state := if o.state = .rebuilding then .sealed else o.state, gone := o.gone.filter s.lostLogical })

/-! ## The directory query (R256, R280) -/

def DirState.code : DirState → Nat
  | .open_ => 1 | .writing => 2 | .sealed => 3 | .absent => 4 | .damaged => 5 | .rebuilding => 6 | .verifying => 7

/-- The 16 words of a directory entry (R256). -/
def ObjVersion.words (o : ObjVersion) : List Word :=
  let use_ := compactOf o.lastUse
  [o.obj,
   wd (o.ver + o.state.code * 2 ^ 16 + flag o.newest 19 + o.part * 2 ^ 20 + o.home * 2 ^ 23 + flag o.pin 26 +
     flag o.hpin 27 + flag o.mirror 28 + o.source * 2 ^ 29),
   wd (o.size + flag o.full 24 + flag o.t3.isSome 25 + flag o.t4.isSome 26 + flag o.promoting 27),
   wd (o.refsT2 + 2 ^ 16 * o.refsT3), wd o.vrefs,
   o.table.setWidth 32, wd (o.t3.getD 0), wd (o.t3Mirror.getD 0), wd (o.t4.getD 0),
   o.crc, use_.w0, use_.w1, wd o.order, o.sealJob, wd (o.len - (o.size - 1) * 4096), 0]

/-- The entry of the newest version of an ID is latched; all zero if there is none (R280). -/
def State.dirQuery (part : Nat) (obj : Word) (s : State) : State :=
  match s.newestOf part obj with
  | none => s.updTir fun t => { t with dirResult := List.replicate 16 0 }
  | some o => s.updTir fun t => { t with dirResult := o.words }

/-- TIR_DIR_QUERY (R280): a partition session searches its own partition, a device session the one in
TIR_DIR_PART. -/
def execTirDirQuery (sess : Fin 16) (v : Word) (s : State) : Host.Outcome State Fault Refusal :=
  .next (s.request sess (fun x s => s.dirQuery (x.part.getD s.regs.dirPart.toNat) v))

/-! ## Tier moves (R165, R273) -/

/-- A tier move of a sealed version: above HOME it is promoted and referenced until the job ends, at or below
HOME the Tier Writer places a copy (R273). -/
def State.tierMove (j : Job) (target : Nat) (o : ObjVersion) (s : State) : State :=
  if target < o.home then
    let s1 := (s.takeRef target o.part o.obj o.ver).updTir fun t => { t with
      tierRefs := t.tierRefs ++ [{ job := some j.id, part := o.part, obj := o.obj, ver := o.ver, tier := target }] }
    if target = 2 then s1.promoteT2 o.part o.obj o.ver else s1.promoteT3 o.part o.obj o.ver
  else if target = 2 then s
  else if (if target = 3 then o.t3 else o.t4).isSome then s
  else s.startCopy .moveCopy o target

/-- MOVE_TIER (R273): an OPEN output fails with BAD_DESCRIPTOR. -/
def execMoveTier (job : Word) (slot : Fin 32) (s : State) : Host.Outcome State Fault Refusal :=
  .next (s.act job slot 0x0A (fun d => d.sub = 2) (fun j i s =>
    let d := i.desc
    match j.handle d.aObj with
    | .out _ => s.failDesc j (stBadDescriptor, 4)
    | .missing => s.failDesc j (stNoObject, d.aObj)
    | .bound k =>
      let b := j.bound.getD k {}
      match s.version? b.part b.obj b.ver with
      | none => s.failDesc j (stBadHandle, 0)
      | some o => (s.tierMove j d.param0 o).acted j slot i stOk {} 0 0 0
    | _ => s.failDesc j (stBadHandle, 0)))

end Sys2Proof.Machine
end

