-- ==== Sys2Proof/Machine/Objects.lean ====
section
/-!
DEFINITION. Object transfer over Limian sessions (R253, R254, R257, R261, R399, R401): loads into the tiers and into
the Outline staging area, reads, and pushes to the peer.
-/

namespace Sys2Proof.Machine

open Sys2Proof

/-- The IDs that a session may load (R254, R401). -/
def State.loadable (s : State) (x : Session) (obj : Word) : Bool :=
  if s.glb.stage = .firmwareRecovery then false
  else if obj = 0xFB000100 then true
  else match x.part with
    | some _ => obj != 0 && decide (obj.toNat < 0xFB000000)
    | none => obj = 0xFB000200 || obj = 0xFB000210 || obj = 0xFB000220 || (obj = 0 && s.otl.state = .staging)

/-- The partition of a load: the session's, or 0 for a device object (R254). -/
def loadPart (x : Session) (obj : Word) : Nat := if isDevice obj then 0 else x.part.getD 0

/-- Room for a host load of `n` units at its home, after eviction; T3_SHORT where T3 has none (R261, R269, R280). -/
def State.loadRoom (part home n : Nat) (mirrored : Bool) (s : State) : Bool × State :=
  if home = 2 then s.roomT2 part (bankUnits (4096 * n))
  else
    let r := s.roomBelow home part n (home = 3 && mirrored)
    if r.1 ∨ home ≠ 3 then r else (false, r.2.shortT3)

/-- The load that an OBJ_LOAD_BEGIN asks for, or the status that refuses it. -/
def State.beginLoad (i : Nat) (x : Session) (tag obj total w3 : Word) (iv : BitVec 96) (s : State) : Byte × State :=
  let part := loadPart x obj
  let n := total.toNat
  let key := s.slotKey (fld w3 7 4) (·.model)
  let place := if obj = 0 then none else s.placeOf part obj
  if !s.loadable x obj then (0x10, s)
  else if fld w3 31 8 ≠ 0 ∨ fld w3 3 1 ≠ 0 then (0x16, s)
  else if bit w3 0 ∧ key.isNone then (0x10, s)
  else if s.tir.loads.any fun l => l.sess = i || (l.obj = obj && (l.part = part || isDevice obj)) then (0x19, s)
  else if n = 0 ∨ place.any (fun e => e.size != unitsOf n) ∨ (obj = 0 ∧ (4194304 < n ∨ n % 4 ≠ 0)) then (0x13, s)
  else
    let l : LoadOp := { sess := i, obj := obj, part := part, total := n, encrypted := bit w3 0, key := key.getD 0,
                        iv := iv, tag := tag }
    let join (s : State) : State := s.updTir fun t => { t with loads := t.loads ++ [l] }
    if obj = 0 then (0, join s)
    else
      let d := s.reserveEntries 1
      let r := d.2.loadRoom part ((place.map (·.home)).getD 2) (unitsOf n) (d.2.mirrors ((place.map (·.mirror)).getD false))
      if !d.1 ∨ !r.1 then (0x14, r.2)
      else
        -- the version takes its number when the load is complete (R253, R256)
        let o : ObjVersion := { r.2.newVersion part obj false n [] with ver := 0, state := .writing, newest := false }
        (0, (join r.2).updTir fun t => { t with objs := t.objs ++ [o] })

/-- OBJ_LOAD_BEGIN (R254, R257, R261, R401, R457): refused, or a version in WRITING. -/
def execObjLoadBegin (sess : Fin 16) (tag obj totalBytes w3 : Word) (iv : BitVec 96) (s : State) :
    Host.Outcome State Fault Refusal :=
  .next (s.request sess fun x s =>
    let r := s.beginLoad sess x tag obj totalBytes w3 iv
    if r.1 = 0 then r.2 else r.2.sendTo sess (.objReply tag r.1))

/-- A load ends without a version (R401). -/
def State.dropLoad (l : LoadOp) (s : State) : State := s.dropLoads (·.sess = l.sess)

/-- The load of a session that takes data. -/
def State.sessionLoad (s : State) (sess : Nat) : Option LoadOp :=
  s.tir.loads.find? fun l => l.sess = sess && l.ending.isNone

/-- Bytes of the image reach the staging area (R81, R495). -/
def State.stageBytes (off : Nat) (data : List Byte) (s : State) : State :=
  if s.otl.state = .staging then s.updOtl fun o => { o with
      staging := Memory.writeBytes o.staging off data, stagedWords := max o.stagedWords ((off + data.length) / 4) }
  else s

/-- OBJ_DATA (R300, R401): the offset must equal the bytes received so far; the bytes are charged to the loads' budget. -/
def execObjData (sess : Fin 16) (offset : Word) (data : List Byte) (s : State) : Host.Outcome State Fault Refusal :=
  .next (s.request sess fun _ s =>
    match s.sessionLoad sess with
    | none => s
    | some l =>
      if offset.toNat ≠ l.received.length then (s.dropLoad l).sendTo sess (.objReply l.tag 0x16)
      else
        let more (x : LoadOp) : LoadOp := if x.sess = l.sess then { x with received := x.received ++ data } else x
        let s1 := (s.charge l.part 0x15 ((data.length + 63) / 64)).2.updTir fun t => { t with loads := t.loads.map more }
        if l.obj = 0 ∧ !l.encrypted then s1.stageBytes offset.toNat (data.take (l.total - offset.toNat)) else s1)

/-- A loaded version goes to its home (R252, R261): in T2 whole, sealed as the newest at once, or through the Tier Writer,
at whose fence it is sealed and the reply leaves; without room the load ends. -/
def State.placeLoad (l : LoadOp) (tag : Word) (p : List Byte) (s : State) : State :=
  let gone := s.dropLoad l
  let o := gone.newVersion l.part l.obj false l.total (Memory.ofBytes p)
  let r := gone.loadRoom l.part o.home o.size (gone.mirrors o.mirror)
  if !r.1 then r.2.sendTo l.sess (.objReply tag 0x14)
  else if o.home = 2 then
    let x := r.2.withExtents (List.range o.extents) { o with present := List.range o.extents }
    (x.2.publish x.1).sendTo l.sess (.objReply tag 0)
  else
    let w := { r.2.copyWrite .load o o.home with ver := 0 }
    let s1 := r.2.updTir fun t => { t with
      loads := t.loads ++ [{ l with ending := some tag, received := [] }]
      objs := t.objs ++ [{ o with ver := 0, state := .writing, newest := false }] }
    (s1.queueIf w).2

/-- What an OBJ_LOAD_END delivers: the plain bytes, or the status that discards the version (R401, R461). -/
def LoadOp.plain (l : LoadOp) (crc : Word) (gcmTag : BitVec 128) : Except Byte (List Byte) :=
  if l.received.length ≠ l.total then .error 0x13
  else
    let plain := if l.encrypted then
        gcmOpen l.key l.iv (natBytesBE 4 l.obj.toNat ++ natBytesBE 4 l.total) l.received gcmTag
      else some l.received
    match plain with
    | none => .error 0x15
    | some p => if crc32c p = crc then .ok p else .error 0x16

/-- OBJ_LOAD_END (R253, R257, R261, R401): the version is sealed as the newest, or discarded. -/
def execObjLoadEnd (sess : Fin 16) (tag crc : Word) (gcmTag : BitVec 128) (s : State) :
    Host.Outcome State Fault Refusal :=
  .next (s.request sess fun _ s =>
    match s.sessionLoad sess with
    | none => s.sendTo sess (.objReply tag 0x17)
    | some l =>
      match l.plain crc gcmTag with
      | .error st => (s.dropLoad l).sendTo sess (.objReply tag st)
      | .ok p =>
        if l.obj = 0 then
          let gone := s.dropLoad l
          if gone.otl.state = .staging then (gone.stageBytes 0 p).sendTo sess (.objReply tag 0)
          else gone.sendTo sess (.objReply tag 0x10)
        else s.placeLoad l tag p)

/-- Bytes cut into pieces of 1,448: an OBJ_DATA body of at most 1,452 bytes with its offset (R395, log 22). -/
def pieces : Nat → Nat → List Byte → List (Nat × List Byte)
  | 0, _, _ => []
  | n + 1, off, bs => if bs.isEmpty then [] else (off, bs.take 1448) :: pieces n (off + 1448) (bs.drop 1448)

/-- The bytes of a version. -/
def ObjVersion.bytes (o : ObjVersion) : List Byte := Memory.readBytes o.data 0 o.len

/-- The version that an OBJ_READ names. -/
def State.readNamed (s : State) (p : Nat) (obj : Word) (ver : Nat) : Option ObjVersion :=
  if isDevice obj ∨ 0xFB000000 ≤ obj.toNat ∨ obj = 0 then none
  else s.tir.objs.find? fun o => o.obj = obj && o.part = p && o.state != .writing && (if ver = 0 then o.newest else o.ver = ver)

/-- What an OBJ_READ does for its version: OBJ_DATA frames, then OBJ_REPLY; a read completion counts in LAST_USE (R256).
A version that cannot be read is NOT_FOUND (log 22). -/
def State.serveRead (sess : Nat) (tag : Word) (part : Nat) (obj : Word) (ver : Nat) (s : State) : State :=
  match s.version? part obj ver with
  | none => s.sendTo sess (.objReply tag 0x17)
  | some o =>
    if o.state ≠ .sealed ∧ o.state ≠ .rebuilding then s.sendTo sess (.objReply tag 0x17)
    else
      let ps := pieces (o.len / 1448 + 1) 0 o.bytes
      ((ps.foldl (fun s d => s.sendTo sess (.objData d.1 d.2)) s).updObj (isVer part obj ver) fun x =>
        { x with lastUse := s.now }).sendTo sess (.objReply tag 0)

/-- OBJ_READ (R257, R399): a read of a version under its check waits for it, and moves it to the front. -/
def execObjRead (sess : Fin 16) (tag obj : Word) (ver : BitVec 16) (s : State) : Host.Outcome State Fault Refusal :=
  .next (s.request sess fun x s =>
    match x.part with
    | none => s.sendTo sess (.objReply tag 0x10)
    | some p =>
      match s.readNamed p obj ver.toNat with
      | none => s.sendTo sess (.objReply tag 0x17)
      | some o =>
        if o.state = .verifying then
          s.awaitCheck o { sess := sess, tag := tag }
        else s.serveRead sess tag o.part o.obj o.ver)


/-- The frames of a client session of the T7 on PEER: OPEN, the load and CLOSE. Session, token and SEQ at the peer are
free (log 2). -/
def State.pushFrames (tag : Word) (part : Nat) (obj : Word) (o : ObjVersion) (s : State) : State :=
  let seq := s.draw
  let token := seq.2.draw
  let r := token.2.choose 16
  let bodies : List (Nat × List Byte) :=
    [(0x30, wordsBE [tag, obj, wd o.len, 0])] ++
    ((pieces (o.len / 1448 + 1) 0 o.bytes).map fun d => (0x31, wordsBE [wd d.1] ++ d.2)) ++
    [(0x32, wordsBE [tag, crc32c o.bytes]), (0x04, [])]
  let open_ := r.2.queueFrame .peer (r.2.limFrame .peer 255 0x02 0 seq.1 0 0 (wordsBE [wd part]))
  bodies.zipIdx.foldl (fun s b =>
    s.queueFrame .peer (s.limFrame .peer r.1 b.1.1 0 (seq.1 + 1 + wd b.2) 0 token.1 b.1.2)) open_

/-- What an OBJ_PUSH does for its version: NOT_FOUND when PEER is down or the local object cannot be read (R401). -/
def State.servePush (sess : Nat) (tag : Word) (part : Nat) (obj : Word) (ver : Nat) (to_ : Nat × Word × Byte) (s : State) : State :=
  match s.version? part obj ver with
  | none => s.sendTo sess (.objReply tag 0x17)
  | some o =>
    if (o.state ≠ .sealed ∧ o.state ≠ .rebuilding) ∨ !(s.ethPort .peer).link then s.sendTo sess (.objReply tag 0x17)
    else ((s.pushFrames tag to_.1 to_.2.1 o).updObj (isVer part obj ver) fun x => { x with lastUse := s.now }).sendTo sess
      (.objReply tag to_.2.2)

/-- OBJ_PUSH (R257, R401): the object is loaded at the peer, whose status `remoteStatus` goes to the requester; a version
under its check waits for it. -/
def execObjPush (sess : Fin 16) (tag obj : Word) (ver : BitVec 16) (remotePart : Fin 8) (remoteObj : Word)
    (remoteStatus : Byte) (s : State) : Host.Outcome State Fault Refusal :=
  .next (s.request sess fun x s =>
    match x.part with
    | none => s.sendTo sess (.objReply tag 0x10)
    | some p =>
      let to_ := (remotePart.val, remoteObj, remoteStatus)
      match s.readNamed p obj ver.toNat with
      | none => s.sendTo sess (.objReply tag 0x17)
      | some o =>
        if o.state = .verifying then s.awaitCheck o { sess := sess, tag := tag, push := some to_ }
        else s.servePush sess tag o.part o.obj o.ver to_)

/-! ## The check of re-adopted versions (R257, R261, R278) -/

/-- A command that waited for a check runs: a CTX_ATTACH again, an OBJ_READ or OBJ_PUSH for its version. -/
def State.afterCheck (w : CheckWait) (s : State) : State :=
  let s1 := s.updTir fun t => { t with checkWaits := t.checkWaits.erase w }
  match w.attach, w.push with
  | none, none => s1.serveRead w.sess w.tag w.part w.obj w.ver
  | none, some to_ => s1.servePush w.sess w.tag w.part w.obj w.ver to_
  | some b, _ =>
    let r := s1.attachCmd w.sess w.tag b w.part (bodyCtx b)
    match r.1 with
    | some st => r.2.sendTo w.sess (.ctxReply w.tag st (bodyCtx b))
    | none => r.2

/-- A version whose HOME changed while its check was to come moves now (R261). -/
def State.moveHome (o : ObjVersion) (s : State) : State :=
  if (o.home = 3 ∧ o.t3.isSome) ∨ (o.home = 4 ∧ o.t4.isSome) then s
  else if o.home = 2 then s.promoteT2 o.part o.obj o.ver else s.placeHome o

/-- READOPT_VERIFY_DONE (R278): the check of the version that is next ends; a match joins the listed set (R277). -/
def execReadoptVerifyDone (part : Fin 8) (obj : Word) (ver : BitVec 16) (crc : Word) (s : State) :
    Host.Outcome State Fault Refusal :=
  .next (match s.tir.nextVerify with
    | none => s
    | some o =>
      if o.part ≠ part ∨ o.obj ≠ obj ∨ o.ver ≠ ver.toNat then s
      else
        let s1 := if crc = o.crc then
            let s2 := (((s.updObj (isVer o.part o.obj o.ver) fun x => { x with
              state := if x.gone.all s.lostLogical then .sealed else .rebuilding, rehome := false }).updTir fun t =>
                { t with mirrorDirty := true }).bump .tirReadopted)
            if o.rehome then s2.moveHome o else s2
          else (s.freeVersion o).bump .tirReadoptFail
        (s1.tir.checkWaits.filter fun w => isVer w.part w.obj w.ver o).foldl (fun s w => s.afterCheck w) s1)

end Sys2Proof.Machine
end

