-- ==== Sys2Proof/Machine/OutlineCmd.lean ====
section
/-!
DEFINITION. Staging, validating, arming and cancelling an Outline (R81 to R84, R91, R496).
-/

namespace Sys2Proof.Machine

open Sys2Proof

/-- A write is refused: it is ignored and counted (R91, R496). -/
def State.otlRefuse (s : State) : State := s.bump .otlRefused

/-- The references on one version of the network table change (R274, R379). -/
def State.netRefs (f : Nat → Nat) (t : Option NetTable) (s : State) : State :=
  match t with
  | none => s
  | some n => s.updTir fun x => { x with objs := x.objs.map fun o =>
      if o.obj = 0xFB000100 ∧ o.ver = n.version then { o with vrefs := f o.vrefs } else o }

/-- A validated image is discarded, and the version of the network table that it bound is released
(R91, R379). -/
def State.dropStaged (s : State) : State :=
  (s.netRefs dropRef s.otl.stagedNet).updOtl fun o => { o with staged := none, stagedNet := none }

/-- The last 1 ms before an armed boundary (R91). -/
def State.lastMs (s : State) : Bool :=
  s.boundary.any fun b => decide (b - s.now < 1000000 * unitsNs)

/-- Staging begins again: the staging area is cleared (R81). -/
def State.stagingNow (code : Byte) (s : State) : State :=
  s.dropStaged.updOtl fun o => { o with state := .staging, code := code, staging := [], stagedWords := 0 }

/-- OTL_STAGE_BEGIN (R81, R91, R496). -/
def execOtlStageBegin (v : Word) (s : State) : Host.Outcome State Fault Refusal :=
  .next (if !bit v 0 then s
    else match s.otl.state with
      | .validating => s.otlRefuse
      | .armed => if s.lastMs then s.otlRefuse else s.stagingNow 0x12
      | _ => s.stagingNow 0)

/-- OTL_VALIDATE (R81, R496). -/
def execOtlValidate (v : Word) (s : State) : Host.Outcome State Fault Refusal :=
  .next (if !bit v 0 then s
    else if s.otl.state = .staging then s.updOtl fun o => { o with state := .validating }
    else s.otlRefuse)

/-- The words in the staging area. -/
def State.stagedImage (s : State) : List Word := Memory.readWords s.otl.staging 0 s.otl.stagedWords

/-- VALIDATION_DONE (R82, R379): STATE becomes VALID or REJECTED; a failure writes CODE and
OTL_ERR_WORD; a valid image holds its version of the network table. -/
def execValidationDone (s : State) : Host.Outcome State Fault Refusal :=
  .next (if s.otl.state ≠ .validating then s
    else match s.validate s.stagedImage s.otl.stagedWords false with
      | .fail code word => s.updOtl fun o =>
          { o with state := .rejected, code := BitVec.ofNat 8 code, errWord := word }
      | .pass out net => (s.netRefs addRef net).updOtl fun o =>
          { o with state := .valid, code := 0, staged := some out, stagedNet := net })

/-- A time is a whole multiple of a hyperperiod of `h` ticks (R62). -/
def wholeH (t : Int) (h : Nat) : Bool := decide (t.fmod (h * unitsEdge) = 0)

/-- OTL_COMMIT_ARM (R52, R62, R84, R496): the boundary is well formed, a multiple of the running and the
new H, and at least 1 ms ahead. In outline recovery no Outline runs, and only the new H counts. -/
def execOtlCommitArm (v : Word) (s : State) : Host.Outcome State Fault Refusal :=
  .next (if !bit v 0 then s
    else match s.otl.state, s.otl.staged with
      | .valid, some new =>
        let b := compactNear s.regs.commitTime s.now
        if compactOk s.regs.commitTime && wholeH b new.h &&
            (s.glb.stage = .outlineRecovery || wholeH b s.otl.running.h) &&
            decide (s.now + 1000000 * unitsNs ≤ b) then
          (s.updOtl fun o => { o with state := .armed, code := 0 }).updRgn fun r =>
            { r with epochTime := s.regs.commitTime, shadowLoaded := false }
        else s.updOtl fun o => { o with code := 0x10 }
      | _, _ => s.otlRefuse)

/-- OTL_CANCEL (R91, R496). -/
def execOtlCancel (v : Word) (s : State) : Host.Outcome State Fault Refusal :=
  .next (if !bit v 0 ∨ s.otl.state = .idle then s
    else if s.otl.state = .validating ∨ s.lastMs then s.otlRefuse
    else (s.dropStaged.updOtl fun o => { o with state := .idle, code := 0x12, staging := [] }).updRgn
      fun r => { r with shadowLoaded := false })

end Sys2Proof.Machine
end

