-- ==== Sys2Proof/Machine/Commit.lean ====
section
/-!
DEFINITION. How an Outline takes effect, at bring-up and at a boundary, and what a partition reset or an epoch reset
takes from a partition (R18, R20, R87 to R90, R223, R261, R304, R335, R354, R359, R374, R465, R466, R472).
-/

namespace Sys2Proof.Machine

open Sys2Proof

/-! ## Continuing partitions (R87) -/

/-- The records that PARTITION or another record scopes to a partition (R77, R87). -/
structure Scoped where
  records : List (Nat × Nat) := []
  partition : Option PartitionRec := none
  regulation : List RegulationEntry := []
  pool : Option TierPoolRec := none
  places : List PlaceEntry := []
  streams : List StreamEntry := []
  channels : List ChanEntry := []
  lattice : Option LatticeRec := none
  fusion : Option FusionRec := none
  rules : List RuleSetRec := []
  contexts : Option PoolRec := none
deriving DecidableEq, Repr, Inhabited

def Outline.scoped (o : Outline) (p : Nat) : Scoped where
  records := (o.records.filter fun r => partitionScoped r.1 && r.2.1 = p).map fun r => (r.1, r.2.2)
  partition := o.partitions.find? (·.part = p)
  regulation := o.regulation.filter (·.part = p)
  pool := o.tierPools.find? (·.part = p)
  places := o.places.filter (·.part = p)
  streams := o.streams.filter (·.part = p)
  channels := o.channels.filter (·.part = p)
  lattice := o.lattice.filter (·.part = p)
  fusion := o.fusion.filter (·.part = p)
  rules := o.ruleSets.filter (·.part = p)
  contexts := o.pools.find? (·.part = p)

/-- A Registration entry with what its ARG names, so that two tables can be compared (R87). -/
structure EntryKey where
  entry : RegEntry := {}
  template : Option TemplateRec := none
  move : Option (List Word) := none
deriving DecidableEq, Repr, Inhabited

def Outline.key (o : Outline) (e : RegEntry) : EntryKey :=
  if e.target = 1 ∨ e.target = 2 then { entry := { e with arg := 0 }, template := o.templates[e.arg.toNat]? }
  else if e.target = 3 then { entry := { e with arg := 0 }, move := o.moves[e.arg.toNat]? }
  else { entry := e }

/-- The keys of the entries of a partition; entries of ETH_GATE and SELFTEST belong to none (R78). -/
def Outline.partKeys (o : Outline) (p : Nat) : List EntryKey :=
  (o.table.filter fun e => e.target != 6 && e.target != 9 && e.part = p).map o.key

/-- Two lists hold the same elements, each as often. -/
def sameSet {α : Type} [DecidableEq α] (a b : List α) : Bool :=
  decide (a.length = b.length) && a.all fun x => decide (a.count x = b.count x)

/-- The domains that a partition's slots and units use (R18, R77, R465). -/
def State.usedDomains (s : State) (p : Nat) : List Nat :=
  let o := s.otl.running
  let cores := (s.glb.slotMap.filter (·.1 = p)).map (·.2.2)
  let r := o.scoped p
  let rights := (r.partition.map (·.rights)).getD 0
  (cores.flatMap fun c => [coreDomain c, 8 + c / 9]) ++
    (if r.channels.isEmpty then [] else [3]) ++ (if r.streams.any (·.onPort) then [4] else []) ++
    (if r.streams.any (!·.onPort) then [5] else []) ++
    (if s.floor 4 p != 0 || r.places.any (·.home = 4) then [7] else []) ++
    (if rights.getLsbD 2 || r.fusion.isSome then [20] else []) ++
    (if rights.getLsbD 1 || r.lattice.isSome then [21] else []) ++ (if rights.getLsbD 0 then [22] else [])

/-- The clocks of CLOCK_GATE.UNIT_RUN that a partition uses (R77). -/
def State.usedClocks (s : State) (p : Nat) : List Nat :=
  let r := s.otl.running.scoped p
  let rights := (r.partition.map (·.rights)).getD 0
  (if rights.getLsbD 0 then [0] else []) ++ (if rights.getLsbD 2 || r.fusion.isSome then [1] else []) ++
    (if rights.getLsbD 1 || r.lattice.isSome then [2] else []) ++
    ((r.streams.filter (!·.onPort)).map (3 + ·.port))

/-- Every domain and clock that a partition uses stays on (R87). -/
def State.staysOn (s : State) (new : Outline) (p : Nat) : Bool :=
  let old := s.otl.running
  ((s.usedDomains p).all fun d => !old.domain d || new.domain d) &&
    ((s.usedClocks p).all fun u => !old.unitRun.getLsbD u || new.unitRun.getLsbD u) &&
    (s.glb.slotMap.filter (·.1 = p)).all fun x => new.coreRun.getLsbD x.2.2

/-- The ports that carry the streams of a partition (R87). -/
def Outline.streamPorts (o : Outline) (p : Nat) : List Nat :=
  (o.streams.filter fun e => e.part = p && e.onPort).flatMap fun e =>
    e.port :: (match o.frer.find? (·.tsn = e.tsn) with
      | some f => (List.range 4).filter f.ports.getLsbD
      | none => [])

/-- The network entries of a partition's ports and streams are unchanged (R87, R379). -/
def State.sameNet (s : State) (new : Outline) (net : NetTable) (p : Nat) : Bool :=
  let old := s.otl.running
  let ports := (old.streamPorts p ++ new.streamPorts p).dedup
  let tsns := (old.streams.filter fun e => e.part = p && e.onPort).map (·.tsn)
  (ports.all fun n =>
    decide (old.ports.find? (·.port = n) = new.ports.find? (·.port = n)) &&
      decide (old.gates.find? (·.port = n) = new.gates.find? (·.port = n)) &&
      decide ((old.frer.filter (·.ports.getLsbD n)) = new.frer.filter (·.ports.getLsbD n))) &&
    tsns.all fun t => decide (s.eth.table.entry t = net.entry t)

/-- Partition p continues across the boundary (R87). -/
def State.continues (s : State) (new : Outline) (net : NetTable) (p : Nat) : Bool :=
  let old := s.otl.running
  (old.scoped p).partition.isSome && decide (old.scoped p = new.scoped p) &&
    sameSet (old.partKeys p) (new.partKeys p) && decide (old.h = new.h) && s.staysOn new p && s.sameNet new net p

/-- The index in the new table of an entry of the old one: the entry of the same key and the same place among the
entries of that key. -/
def reindex (old new : Outline) (i : Nat) : Option Nat :=
  match old.table[i]? with
  | none => none
  | some e =>
    let k := old.key e
    let nth := ((old.table.take i).filter fun x => old.key x = k).length
    (((List.range new.table.length).filter fun j => (new.table[j]?).any fun x => new.key x = k)[nth]?)

/-! ## What a reset takes from a partition -/

/-- Every job of a partition ends with a status (R89, R161, R472). -/
def State.endJobs (p : Nat) (status : Byte) (s : State) : State :=
  ((s.jobs.list.filter (·.part = p)).map (·.id)).foldl (fun s id => s.finishJob id status 0) s

/-- Every context of a partition is released, with its pages, exports and swaps (R223). -/
def State.releaseContextsOf (p : Nat) (s : State) : State :=
  let cs := s.ctx.table.filter (·.part = p)
  (cs.foldl (fun s c => s.releaseContext true c) s).updCtx fun x => { x with
    exports_ := x.exports_.filter fun e => !(cs.any (·.id = e.ctx)) }

/-- A channel of zero state (R89, R374). Its reference is its group's, and with one it is in service; what its guard
latched for a firing still to come stays where `keep` says so (log 21). -/
def StyChannel.restart (hasRef keep : Bool) (y : StyChannel) : StyChannel :=
  { run := if hasRef then .running else .waitRef, ref := y.ref, sample := if keep then y.sample else 0
    fresh := keep && y.fresh, missed := keep && y.missed }

/-- The guard of a firing that is still to come has latched the group's samples (R367). -/
def State.guardAhead (s : State) (g : Nat) : Bool := (s.styGroup g).guardTick.any fun k => decide (tickOf s.now ≤ k)

/-- A group's SEQ restarts at 0 (R374). -/
def State.restartGroup (g : Nat) (s : State) : State :=
  s.updStyGroup g fun x => { x with seq := 0, firing := false, delivered := false, skipHold := false, judged := [] }

/-- Tracks, the ego filter and all refinement are cleared; refinement restarts from EXTRINSIC_OBJECT (R335). -/
def State.clearTracing (f : Option FusionRec) (s : State) : State :=
  s.updTrc fun t => { t with
    holder := 0, queue := [], table := {}, shadow := none, ego := {}, escalated := []
    pose := [0, 0, 0, 0, 0, 0x3F800000, 0, 0, 0]
    cal := List.replicate ((f.map (·.entries.length)).getD 0) {} }

/-- The lattice of the newest version of TABLE_OBJECT (R340). -/
def State.loadLattice (l : Option LatticeRec) (s : State) : State :=
  s.updXh fun x => { x with lattice := l.bind fun r =>
    ((s.newestOf r.part r.tableObj).filter fun o => latticeOk o.data).map fun o => parseLattice o.data }

/-- A stream's clock model, phase state and versions are cleared; its counts stay (R335). -/
def IngStream.restart (edge : Nat) (x : IngStream) : IngStream :=
  { state := .waiting, framesSealed := x.framesSealed, lastSealEdge := edge }

/-- What Proof knows of a stream that starts afresh. -/
def State.restartStream (n : Nat) (s : State) : State :=
  (s.updIng fun g => { g with streams := g.streams.modify n (IngStream.restart s.edge) }).updPrf fun p =>
    { p with streams := p.streams.set n {} }

/-- A partition reset takes this from a partition (R223, R335, R354, R374, R422, R472). -/
def State.resetPartition (p : Nat) (s : State) : State :=
  let o := s.otl.running
  let chans := o.channels.filter (·.part = p)
  let s1 := (s.endJobs p stPartitionReset).releaseContextsOf p
  let s2 := (chans.map (·.group)).dedup.foldl (fun s g => s.restartGroup g)
    (chans.foldl (fun s c => s.updStyChannel c.channel fun y => y.restart (s.styGroup c.group).hasRef false)
      s1)
  let s3 := if o.fusion.any (·.part = p) then s2.clearTracing o.fusion else s2
  let s4 := if o.lattice.any (·.part = p) then s3.updXh Xh.cleared else s3
  let s5 := (o.streams.filter fun e => e.part = p && !e.egress).foldl (fun s e => s.restartStream e.id) s4
  let s6 := (o.streams.filter fun e => e.part = p && e.egress).foldl (fun s e =>
    s.updFrer e.tsn fun x => { x with txSeq := 0 }) s5
  let s7 := s6.event (some p) 2 [wd p]
  if s.supervised p then s7.proofStop else s7

/-! ## What a new Outline sets -/

/-- Rotation under a new Outline: a cluster keeps its spare while it is powered; otherwise, and where ROTATE ends a
suspension without a spare, the highest-positioned core that no continuing slot uses becomes the spare (R19, R20,
R26). -/
def State.placeSpare (new : Outline) (kept : List Nat) (c : Nat) (s : State) : State :=
  let pool := s.rotationSet new c
  let cl := s.cluster c
  let free := pool.filter fun n => !kept.contains n && !(s.core n).leaving
  let assign (s : State) : State := match free.getLast? with
    | none => s.updCluster c fun x => { x with spare := none, testing := false, handover := false }
    | some n =>
      (s.updCluster c fun x => { x with
        spare := some (Fin.ofNat 9 (posOf n)), testing := true, testStart := s.edge, handover := false
        suspended := false, abandoned := none, coverFrom := s.edge }).updCore n fun x => { x with state := .selfTest }
  match cl.spare with
  | some sp => if pool.contains (9 * c + sp.val) then s else assign s
  | none =>
    let busy := pool.any fun n => (s.core n).leaving
    if busy ∨ (cl.suspended ∧ !new.rotate) then s else assign s

/-- Cores follow CORE_RUN and DOMAIN_ON; one that goes off has no work left. -/
def State.powerCores (new : Outline) (s : State) : State :=
  s.updCores fun cs => cs.zipIdx.map fun x =>
    if x.1.state = .retired then x.1
    else if new.coreOn x.2 then (if x.1.state = .off then { x.1 with state := .idle } else x.1)
    else { x.1.vacate with state := .off, job := none, dryJob := none }

/-- Continuing partitions keep their slots; the others' slots are mapped afresh (R18, R88, R89). -/
def State.mapParts (new : Outline) (keep : Nat → Bool) (s : State) : State :=
  let kept := s.glb.slotMap.filter fun x => keep x.1
  let used := kept.map (·.2.2)
  let s1 := (List.range 4).foldl (fun s c => s.placeSpare new used c) (s.powerCores new)
  let pool := (s1.slotPool new).filter fun n => !used.contains n && !(s1.core n).leaving
  s1.updGlb fun g => { g with slotMap := kept ++ mapSlots (slotList (new.partitions.filter fun p => !keep p.part)) pool }

/-- The engines of the new assignment: the lowest four that are not retired serve, and the next is the spare (R359). With
fewer left, those carry all the channels (R372). -/
def State.placeEngines (new : Outline) (s : State) : State :=
  let live := (List.range 5).filter fun n => (s.sty.engines.getD n {}).state != .retired
  let place (x : StyEngine × Nat) : StyEngine :=
    let k := live.findIdx (· = x.2)
    if x.1.state = .retired then x.1
    else if !new.domain 3 then { x.1 with state := .off, serves := 7 }
    else if k < 4 then { state := .active, serves := k, since := if x.1.serves = k then x.1.since else s.edge }
    else { state := .spare, serves := 7 }
  s.updSty fun y => { y with engines := y.engines.zipIdx.map place, lanes := s.liveEngines }

/-- The entry of a channel of an Outline. -/
def Outline.chan? (o : Outline) (c : Nat) : Option ChanEntry := o.channels.find? (·.channel = c)

/-- Channels whose entry changed restart from zero state, channels without an entry are unused, and CHANNEL_FAULT for
want of an engine ends (R89, R372). A group restarts where all its channels do: while a channel of it keeps its state,
so does its SEQ (R88, R374). -/
def State.placeChannels (new : Outline) (s : State) : State :=
  let old := s.otl.running
  let changed (c : Nat) : Bool := decide (old.chan? c ≠ new.chan? c)
  let groups := (List.range 16).filter fun g =>
    !(old.groupChannels g ++ new.groupChannels g).isEmpty &&
      (old.groupChannels g ++ new.groupChannels g).all fun c => changed c.channel
  let s1 := groups.foldl (fun s g => s.restartGroup g) s
  let place (x : StyChannel × Nat) : StyChannel := match new.chan? x.2 with
    | none => {}
    | some e =>
      if changed x.2 then x.1.restart (s1.styGroup e.group).hasRef (s.guardAhead e.group)
      else if x.1.stuck then { x.1 with stuck := false, run := .running, missRun := 0 }
      else x.1
  s1.updSty fun y => { y with channels := y.channels.zipIdx.map place }

/-- Ingress streams: an unchanged entry keeps its state, a changed or new one starts afresh (R335). -/
def State.placeStreams (new : Outline) (s : State) : State :=
  let old := s.otl.running
  (List.range 48).foldl (fun s n =>
    let a := (old.stream? n).filter (!·.egress)
    let b := (new.stream? n).filter (!·.egress)
    if a = b then s
    else if b.isSome then s.restartStream n
    else (s.restartStream n).updIng fun g => { g with streams := g.streams.modify n fun x => { x with state := .off } }) s

/-- The GPIO pins take the directions of the new Outline (R70). -/
def GpioPin.direct (dir : PinDir) (out : Bool) (p : GpioPin) : GpioPin :=
  match p.dir, dir with
  | _, .input => { p with dir := .input, level := false, pulseEnd := none }
  | .input, .registered => { p with dir := .registered, level := false, pulseEnd := none }
  | .input, .host => { p with dir := .host, level := out, pulseEnd := none }
  | .registered, .host => { p with dir := .host, pulseEnd := none }
  | _, d => { p with dir := d }

/-- The direction that an Outline gives a pin (R70, R77). -/
def Outline.pinDir (o : Outline) (n : Nat) : PinDir :=
  if !o.gpioOut.getLsbD n then .input else if o.gpioHost.getLsbD n then .host else .registered

def State.placePins (new : Outline) (s : State) : State :=
  s.updTb fun t => { t with pins := t.pins.zipIdx.map fun x => x.1.direct (new.pinDir x.2) (s.regs.gpioOut.getLsbD x.2) }

/-- The budgets of partitions that do not continue come from REGULATION (R298, R304). -/
def State.placeBudgets (new : Outline) (keep : Nat → Bool) (s : State) : State :=
  s.updLnw fun l => { l with
    budgets := (l.budgets.filter fun b => keep b.part) ++ (new.regulation.filter fun r => !keep r.part).map fun r =>
      { part := r.part, master := r.master, min := BitVec.ofNat 12 r.min, share := BitVec.ofNat 8 r.share }
    pending := l.pending.filter fun b => keep b.part }

/-- OBJECT_PLACE applies to every version; without an entry a pin is gone (R90, R261). -/
def ObjVersion.placed (new : Outline) (o : ObjVersion) : ObjVersion :=
  match new.places.find? fun e => (e.part = o.part || isDevice o.obj) && e.obj = o.obj with
  | some e => { o with home := e.home, pin := e.pin, mirror := e.mirror, source := e.source, order := e.order }
  | none => { o with pin := false }

/-- A version whose HOME changed moves after the boundary; one that is VERIFYING moves after its check (R257, R261). -/
def State.changeHome (o : ObjVersion) (s : State) : State :=
  if o.state = .verifying then s.updObj (isVer o.part o.obj o.ver) fun x => { x with rehome := true }
  else if o.state = .sealed ∨ o.state = .rebuilding then s.moveHome o
  else s

/-- A T3 copy whose MIRROR changed gets a mirror copy, or gives its own up while no channel is LOST (R256, R258, R261,
R292). -/
def State.changeMirror (o : ObjVersion) (s : State) : State :=
  match o.t3, o.t3Mirror with
  | some u, none =>
    let a := s.allocMirror u o.size
    (match a.1 with
      | some m => if o.mirror ∧ s.tierOpen 3 then a.2.queueWrite
          { kind := .mirror, part := o.part, obj := o.obj, ver := o.ver, tier := 3, start := m, len := o.size } else s
      | none => s)
  | some _, some m =>
    if s.mirrors o.mirror then s
    else ((s.giveUp 3 m o.size).updObj (isVer o.part o.obj o.ver) fun x => { x with t3Mirror := none }).updTir fun t =>
      { t with mirrorDirty := true }
  | _, _ => s

/-- New placements, the copies that a changed HOME moves, and the mirrors (R261). -/
def State.placeObjects (new : Outline) (s : State) : State :=
  let s1 := s.updTir fun t => { t with objs := t.objs.map (ObjVersion.placed new) }
  let was (o : ObjVersion) (p : ObjVersion → Bool) : Bool := (s.version? o.part o.obj o.ver).any p
  let s2 := (s1.tir.objs.filter fun o => was o fun x => x.home != o.home).foldl (fun s o => s.changeHome o) s1
  (s1.tir.objs.filter fun o => was o fun x => x.mirror != o.mirror).foldl (fun s o => s.changeMirror o) s2

/-- The network table that validation bound comes into force; the one before is released (R379). FRER and meter state
of streams whose entries stay is kept. -/
def State.placeNet (new : Outline) (net : Option NetTable) (keep : Nat → Bool) (s : State) : State :=
  let table := net.getD {}
  let same (t : Nat) : Bool := decide (s.eth.table.entry t = table.entry t) &&
    decide ((s.otl.running.frer.find? (·.tsn = t)) = new.frer.find? (·.tsn = t))
  let reset (t : Nat) : Bool := s.otl.running.streams.any fun e => e.egress && e.tsn = t && !keep e.part
  let old := if s.eth.table.version = 0 then none else some s.eth.table
  ((s.netRefs dropRef old).updEth fun e => { e with
    table := table
    frer := (e.frer.filter fun f => same f.tsn).map fun f => if reset f.tsn then { f with txSeq := 0 } else f
    meters := e.meters.filter fun m => same m.tsn }).reap

/-- Ports that the new Outline disables lose their link (R377); while the by-pass is open, ring ports stay in
operation until its closing instant (R393). -/
def State.placePorts (s : State) : State :=
  allPorts.foldl (fun s p =>
    let x := s.ethPort p
    let e := s.netPort p
    if x.link && (!e.enable || decide (e.speedMax < x.speed)) && !(isRing p && s.eth.bypass = .open_) then s.dropLink p else s) s

/-- Proof's rule sets: those of continuing partitions keep their frames (R421, R422). -/
def State.placeRules (new : Outline) (keep : Nat → Bool) (s : State) : State :=
  let stays (n : Nat) : Bool := new.ruleSets.any fun r => r.set = n && keep r.part
  s.updPrf fun p => Prf.settle { p with
    sets := p.sets.zipIdx.map fun x => if stays x.2 then x.1 else ({} : RuleSetState)
    alive := p.alive.filter fun a => stays a.1
    streams := p.streams.map fun x => { x with taps := x.taps.filter fun t => stays t.1 } }

/-- Registration state that names entries by index follows them into the new table; what no entry carries on is
dropped (R58, R59, R62, R264, R520). -/
def State.placeTable (new : Outline) (keep : Nat → Bool) (s : State) : State :=
  let old := s.otl.running
  let dest (i : Nat) : Option Nat := match old.table[i]? with
    | none => none
    | some e => if e.target = 6 ∨ e.target = 9 ∨ keep e.part then reindex old new i else none
  let gone := s.releaseRefs fun r => r.entry.any fun i => (dest i).isNone
  let s1 := gone.updTir fun t => { t with tierRefs := t.tierRefs.map fun r => { r with entry := r.entry.bind dest } }
  let s2 := s1.updJobs fun j => { j with list := j.list.map fun x => { x with origin := match x.origin with
    | .fired i => .fired ((dest i).getD 4096)
    | .move i => .move ((dest i).getD 4096)
    | o => o } }
  let s3 := s2.updPrf fun p => { p with slices := p.slices.map fun x => { x with
    entry := (dest x.entry).getD 0
    next := x.next.filterMap fun e => (dest e.1).map fun k => (k, e.2) } }
  s3.updRgn fun r => { r with
    disabled := [], changes := [], shadowLoaded := false
    deferred := r.deferred.filterMap dest
    carried := r.carried.filterMap fun x => (dest x.2).map fun k => (x.1, k)
    tierWait := r.tierWait.filterMap fun x => (dest x.1).map fun k => (k, x.2) }

/-- The queued output frames of changed streams are discarded and counted (R89). -/
def State.discardFrames (new : Outline) (s : State) : State :=
  let old := s.otl.running
  let gone (f : TxFrame) : Bool := f.stream.any fun n =>
    decide (old.stream? n ≠ new.stream? n) || (old.channels ++ new.channels).any fun c =>
      c.outStream = n && decide (old.chan? c.channel ≠ new.chan? c.channel)
  allPorts.foldl (fun s p =>
    let n := ((s.ethPort p).txq.filter gone).length
    if n = 0 then s
    else ((s.accrue p).updPort p fun x => { x with txq := x.txq.filter fun f => !gone f }).bumpBy .otlCommitDiscard n) s

/-- DEGRADED ends where no condition of R440 holds any more; a cause that still holds in a continuing partition is no
new event. -/
def State.judgeDegraded (keep : Nat → Bool) (s : State) : State :=
  let held (p : Nat) : Nat := if keep p then (s.brn.causes.getD p 0) &&& s.degradedCauses p else 0
  (s.updBrn fun b => { b with
    causes := (List.range 8).map held
    degraded := BitVec.ofNat 8 (total ((List.range 8).map fun p => flag (held p != 0) p)) }).checkDegraded

/-- The new Outline replaces the running one as a whole (R86 to R90); `keep` names the continuing partitions. -/
def State.install (new : Outline) (net : Option NetTable) (image : List Word) (keep : Nat → Bool) (s : State) : State :=
  let old := s.otl.running
  let fusionNew := decide (old.fusion ≠ new.fusion) || new.fusion.any fun f => !keep f.part
  let latticeNew := decide (old.lattice ≠ new.lattice)
  let latticeGone := latticeNew || new.lattice.any fun l => !keep l.part
  let s1 := (((s.discardFrames new).placeTable new keep).placeStreams new).placeChannels new
  let s2 := if fusionNew then s1.clearTracing new.fusion else s1
  let s3 := if latticeGone then s2.updXh Xh.cleared else s2
  let s4 := ((s3.placeNet new net keep).placeBudgets new keep).placeRules new keep
  let s5 := ((s4.placePins new).placeEngines new).mapParts new keep
  let s6 := s5.updOtl fun o => { o with running := new, image := image }
  let s7 := if latticeNew then s6.loadLattice new.lattice else s6
  let s8 := (s7.placeObjects new).updCtx fun c => { c with enabled := new.pools.any (·.contexts != 0) }
  let s9 := s8.updGlb fun g => { g with pdState := g.pdState ||| new.domainOn }
  (allPorts.foldl (fun s p => s.restartGates p) s9.placePorts).judgeDegraded keep

end Sys2Proof.Machine
end

