-- ==== Sys2Proof/Machine/Epoch.lean ====
section
/-!
DEFINITION. The boundary of an armed Outline (R62, R85 to R92, R223, R393, R398) and the switched power domains
(R465, R466).
-/

namespace Sys2Proof.Machine

open Sys2Proof

/-! ## Power domains (R465, R466) -/

/-- Domains that no Outline switches (R465). -/
def fixedDomain (d : Nat) : Bool := d = 0 || d = 1 || d = 2 || d = 6 || d = 23

/-- All 16 board-store channels work (R293). -/
def State.boardReady (s : State) : Bool := s.chn.board.all fun c => c.state = .active

/-- The board-store channels come up; a channel that was lost stays lost (R293). -/
def State.powerBoard (s : State) : State :=
  let s1 := s.updChn fun c => { c with board := c.board.map fun x =>
    if x.state = .lost then x
    else { x with state := .active, lastTrain := s.edge, trainTemp := s.glb.tempNow.toInt
                  trainVdd := s.glb.avsTarget.toNat } }
  s1.updChn fun c => { c with t4Available := s1.boardReady }

/-- A domain switches on, its memories initialised with zeros (R466). -/
def State.powerUp (d : Nat) (s : State) : State :=
  let s1 := s.updGlb fun g => { g with pdState := g.pdState ||| BitVec.ofNat 24 (2 ^ d) }
  if d = 7 then s1.powerBoard
  else if 8 ≤ d ∧ d ≤ 11 then s1.updPlate (d - 8) fun x => { x with powered := true, ready := true, lastScrub := s.edge, corr := [] }
  else s1

/-- A Stylus state store without power holds nothing (R466). -/
def State.clearStylus (s : State) : State :=
  (s.updSty fun y => { y with
    groups := y.groups.map fun g => { g with hasRef := false, refVer := none, guardTick := none, latched := [] }
    channels := y.channels.zipIdx.map fun x =>
      ({ run := if (s.otl.running.chan? x.2).isSome then .waitRef else .unused } : StyChannel)
    engines := y.engines.map fun e => if e.state = .retired then e else { e with state := .off, serves := 7 } })

/-- The MACs without power hold no frame (R466). -/
def State.clearNet (s : State) : State :=
  (allPorts.foldl (fun s p => s.dropLink p) s).updEth fun e => { e with
    ports := e.ports.map fun p => { p with txq := [], rxq := [] }, frer := [], meters := [] }

/-- The CSI-2 ports without power (R466): a frame that was landing is lost. -/
def State.clearCsi (s : State) : State :=
  s.updIng fun g => { g with
    ports := List.replicate 12 {}
    streams := g.streams.zipIdx.map fun x =>
      if (s.otl.running.stream? x.2).any (·.ethernet) then x.1 else { x.1 with open_ := none } }

/-- What a Plate slice held of sealed objects is lost. Which copies lay there is not architecture: each is a free
choice (log 2). -/
def State.loseSlice : List ObjVersion → State → State
  | [], s => s
  | o :: r, s =>
    let k := s.choose 2
    let s1 := if k.1 = 0 then k.2
      else
        let s2 := (k.2.endFetches o).loseExtents (fun _ => true) o
        if o.t3.isSome ∨ o.t4.isSome then s2 else s2.loseVersion o
    State.loseSlice r s1

/-- A domain is powered down and loses its contents (R466). -/
def State.powerDown (d : Nat) (s : State) : State :=
  let s1 := s.updGlb fun g => { g with pdState := g.pdState &&& ~~~(BitVec.ofNat 24 (2 ^ d)) }
  if d = 3 then s1.clearStylus
  else if d = 4 then s1.clearNet
  else if d = 5 then s1.clearCsi
  else if d = 7 then
    let s2 := s1.updChn fun c => { c with
      board := c.board.map fun x => if x.state = .lost then x else { x with state := .off, deferred := false, reread := none }
      t4Available := false }
    (s2.tir.objs.filter (·.t4.isSome)).foldl (fun s o => s.loseT4 5 0 (fun _ => true) o) s2
  else if 8 ≤ d ∧ d ≤ 11 then
    let s2 := s1.updPlate (d - 8) fun x => { x with powered := false, ready := false, corr := [] }
    State.loseSlice (s2.tir.objs.filter fun o => !o.present.isEmpty) s2
  else if 12 ≤ d ∧ d ≤ 19 then s1.updCores fun cs => cs.zipIdx.map fun x =>
    if coreDomain x.2 = d then { x.1.vacate with
      state := if x.1.state = .retired then .retired else .off, job := none, dryJob := none, pwl := [], coarseCount := 0 }
    else x.1
  else if d = 20 then s1.clearTracing none
  else if d = 21 then s1.updXh Xh.cleared
  else if d = 22 then s1.updJobs fun j => { j with marginRun := none, marginQueue := [] }
  else s1

/-- DOMAIN_POWER_DOWN (R86, R466): a domain that the Outline in force turns off. -/
def execDomainPowerDown (d : Fin 24) (s : State) : Host.Outcome State Fault Refusal :=
  .next (if s.outlineRuns ∧ !fixedDomain d ∧ s.glb.pdState.getLsbD d ∧ !s.otl.running.domainOn.getLsbD d ∧
      !(s.lastMs && s.otl.staged.any fun o => o.domainOn.getLsbD d) then s.powerDown d else s)

/-- DOMAIN_POWER_UP (R85, R466): a domain that the armed Outline turns on, in the last 1 ms before the boundary. -/
def execDomainPowerUp (d : Fin 24) (s : State) : Host.Outcome State Fault Refusal :=
  .next (if s.lastMs ∧ !s.glb.pdState.getLsbD d ∧ s.otl.staged.any (fun o => o.domainOn.getLsbD d) then s.powerUp d else s)

/-! ## The boundary (R85 to R90) -/

/-- Check 11 of R82 on the staged image, against the units that are retired now (R85). -/
def State.resourcesLeft (s : State) (new : Outline) : Bool :=
  let ws := s.stagedImage
  let sig := (ws.getD 2 0).toNat - 25
  (resourceFaults s new (walkRecords (ws.length + 1) ((ws.take sig).drop 16) 16 sig).1).isEmpty

/-- The domains that a new Outline turns on are powered, and the shadow bank is loaded (R85). -/
def State.powerFor (new : Outline) (s : State) : State :=
  ((List.range 24).foldl (fun s d =>
    if new.domainOn.getLsbD d && !s.glb.pdState.getLsbD d then s.powerUp d else s) s).updRgn fun r =>
      { r with shadowLoaded := true }

/-- The boundary is made ready: domains and shadow bank first, and then check 11 is repeated; where it fails, the commit is
abandoned (R85). -/
def State.prepare (new : Outline) (s : State) : State :=
  let s1 := s.powerFor new
  if s1.resourcesLeft new then s1
  else (s1.updOtl fun o => { o with state := .valid, code := 0x11 }).updRgn fun r => { r with shadowLoaded := false }

/-- COMMIT_PREPARE (R85). -/
def execCommitPrepare (s : State) : Host.Outcome State Fault Refusal :=
  .next (match s.otl.staged with
    | none => s
    | some new => if s.lastMs ∧ !s.rgn.shadowLoaded then s.prepare new else s)

/-- A changed partition goes through an epoch reset (R89, R223, R422); its contexts stay where its pool and its ID
range do. -/
def State.epochReset (new : Outline) (p : Nat) (s : State) : State :=
  let old := s.otl.running
  let samePool := decide (old.pools.find? (·.part = p) = new.pools.find? (·.part = p)) && decide (old.ctxRange p = new.ctxRange p)
  let s1 := s.endJobs p stEpochAbort
  let s2 := if samePool then s1 else s1.releaseContextsOf p
  if s.supervised p || new.partitions.any (fun r => r.part = p && r.supervised) then s2.proofStop else s2

/-- Units that a commit turned on join the coverage at the boundary (R429, R466). -/
def State.coverNew (old : Outline) (s : State) : State :=
  let new := s.otl.running
  let join (x : SliceState × Nat) : SliceState :=
    if new.unitOn x.2 && !old.unitOn x.2 then
      { x.1 with passStart := s.edge, passed := [], missed := false, running := false }
    else x.1
  let s1 := s.updPrf fun p => Prf.settle { p with slices := p.slices.zipIdx.map join }
  s1.updCores fun cs => cs.zipIdx.map fun x => if new.coreOn x.2 && !old.coreOn x.2 then { x.1 with lastPass := s.edge } else x.1

/-- The by-pass where a commit disables a ring port (R393): an opening is abandoned, and an open by-pass closes at an
announced instant. -/
def State.commitBypass (s : State) : State :=
  if s.ringEnabled then s
  else if s.eth.bypass = .armed then s.updEth fun e => { e with bypass := .closed, instant := none }
  else if s.eth.bypass = .open_ ∧ !s.bypassPending then s.chooseInstant false
  else s

/-- Sessions whose partition the new Outline lacks are closed (R398). -/
def State.dropSessions (s : State) : State :=
  (List.range 16).foldl (fun s i =>
    let x := s.session i
    if x.open_ && x.part.any (fun p => (s.partRec p).isNone) then s.closeSession i else s) s

/-- The new Outline replaces the running one (R86 to R92). -/
def State.commit (new : Outline) (s : State) : State :=
  let old := s.otl.running
  let keep (p : Nat) : Bool := s.continues new (s.otl.stagedNet.getD {}) p
  let parts := ((old.partitions ++ new.partitions).map (·.part)).dedup
  let b := s.boundary.getD s.now
  let image := s.stagedImage.take new.header.totalWords
  let s1 := (parts.filter fun p => !keep p).foldl (fun s p => s.epochReset new p) s
  let s2 := (s1.install new s.otl.stagedNet image keep).coverNew old
  let s3 := s2.updOtl fun o => { o with
    state := .idle, code := 0, epoch := new.header.epoch, isBoot := false, staged := none, stagedNet := none, staging := [] }
  let s4 := (s3.updGlb fun g => { g with partReset := none }).bump .otlCommitCount
  let s5 := match s.rgn.stepSkip with
    | some z => (s4.skipFirings (tickOf b - 1) z).updRgn fun r => { r with stepSkip := none }
    | none => s4
  let s6 := s5.commitBypass.dropSessions.event none 3 [new.header.epoch]
  if s.glb.stage = .outlineRecovery then s6.updGlb fun g => { g with stage := .booted, bootEdge := s.edge } else s6

/-- EPOCH_COMMIT (R49, R62, R85, R86): on the edge of the boundary. A boundary that a step brought near without its
1 ms of preparation is prepared here. -/
def execEpochCommit (s : State) : Host.Outcome State Fault Refusal :=
  .next (match s.otl.staged, s.boundary with
    | some new, some b =>
      if b ≤ s.now then
        let r := if s.rgn.shadowLoaded then s else s.prepare new
        if r.otl.state = .armed then r.commit new
        else match s.rgn.stepSkip with
          | some z => (r.skipFirings (tickOf b - 1) z).updRgn fun g => { g with stepSkip := none }
          | none => r
      else s
    | _, _ => s)

end Sys2Proof.Machine
end

