-- ==== Sys2Proof/Machine/Bringup.lean ====
section
/-!
DEFINITION. Resets and what survives each (R389, R449, R470, R471, R480), partition resets (R472), and bring-up
from P0 to jobs-ready with its two recoveries (R94, R95, R453, R454, R474 to R479).
-/

namespace Sys2Proof.Machine

open Sys2Proof

/-! ## What survives a cold or warm reset (R449, R465, R480) -/

def ResetKind.warm : ResetKind → Bool
  | .coldPower | .coldRegister => false
  | .warmPin | .warmRegister => true

/-- Key slots: 1 to 14 survive a warm reset in PD_AON, 15 is in OTP, 0 is derived (R457, R480); the export counts of
0 and 15 start again (log 24). -/
def keptSlots (warm : Bool) (l : List KeySlot) : List KeySlot :=
  ({ valid := true, model := true, state := true } : KeySlot) ::
    (if warm then (l.drop 1).take 14 else List.replicate 14 {}) ++ [{ l.getD 15 {} with exports_ := 0 }]

/-- OTP and the boot store survive every reset; LOCK of OTP takes effect at a cold one (R462). A boot write in
progress is cut short (R456). -/
def Sec.survive (warm : Bool) (x : Sec) : Sec :=
  { lock := if warm then x.lock else x.lockOtp, lockOtp := x.lockOtp, revoked := x.revoked, rollback := x.rollback
    slots := keptSlots warm x.slots, firmware := x.firmware, copies := x.copies }

/-- The records that PD_AON kept are the first of the new log; the retirement map stays (R449). -/
def Brn.survive (b : Brn) : Brn :=
  let kept := b.kept.map fun r => { r with preReset := true }
  { log := kept.reverse, kept := kept, seq := b.seq, preReset := !kept.isEmpty
    ctrlRetired := b.ctrlRetired, coreRetired := b.coreRetired }

/-- A core of the retirement map (R449). -/
def Core.survive (c : Core) : Core :=
  { state := if c.state = .retired then .retired else .off, repair := c.repair }

/-- A channel after a warm reset: PD_TIER keeps the Golent channels, PD_BOARD nothing but what is retired (R465). -/
def MemChannel.survive (tier : Bool) (c : MemChannel) : MemChannel :=
  if c.state = .retired ∨ c.state = .lost then { c with deferred := false, reread := none, corrEdges := [], bad := none, queue := [], replay := [], unstored := [] }
  else if tier then { state := .off, logical := c.logical, train := c.train }
  else {}

/-- What a warm reset keeps beyond what every reset keeps (R36, R449, R465, R480). -/
def State.keepWarm (s fresh : State) : State :=
  { fresh with
    glb := { fresh.glb with pllOnStandby := s.glb.pllOnStandby, pllSpare := s.glb.pllSpare }
    cores := s.cores.map Core.survive
    jobs := { fresh.jobs with marginRetired := s.jobs.marginRetired }
    tir := { fresh.tir with mirror := s.tir.mirror, mirrorSeq := s.tir.mirrorSeq }
    chn := { golent := s.chn.golent.map (MemChannel.survive true), board := s.chn.board.map (MemChannel.survive false)
             t3Lost := s.chn.t3Lost, t3Closed := s.chn.t3Closed }
    lnw := { fresh.lnw with routers := s.lnw.routers.map fun r => { r with uncorrEdges := [] } }
    trc := { fresh.trc with retired := s.trc.retired }
    xh := { fresh.xh with retired := s.xh.retired }
    sty := { fresh.sty with engines := s.sty.engines.map fun e => { state := if e.state = .retired then .retired else .off } }
    brn := s.brn.survive
    plt := s.plt.map fun x => { retired := x.retired, sparesLeft := x.sparesLeft } }

/-- A cold or warm reset, with the stage in which it leaves the device (R470, R480). -/
def State.restart (k : ResetKind) (stage : BootStage) (s : State) : State :=
  let base : State := { State.reset with
    pending := s.pending, fresh := s.fresh, sec := s.sec.survive k.warm
    glb := { State.reset.glb with stage := stage, lastReset := k } }
  if k.warm then s.keepWarm base else base

/-! ## Resets by power and by RESET_N (R389, R468, R470, R471) -/

/-- POWER_ON (R470, R471): a cold reset, in which RESET_N holds the device. -/
def execPowerOn (s : State) : Host.Outcome State Fault Refusal := .next (s.restart .coldPower .held)

/-- VDD_AON_LOSS (R389, R465, R468): without VDD_AON no domain is powered and the by-pass is closed. -/
def execVddAonLoss (s : State) : Host.Outcome State Fault Refusal :=
  .next ((s.restart .coldPower .unpowered).updGlb fun g => { g with pdState := 0 })

/-- RESET_N_ASSERT (R389, R470, R471): a pulse below 100 ns is filtered out, one of 1 us or more is a warm reset; one
between them closes the by-pass and resets nothing. -/
def execResetNAssert (nanoseconds : Nat) (s : State) : Host.Outcome State Fault Refusal :=
  .next (if nanoseconds < 100 ∨ s.glb.stage = .unpowered ∨ s.glb.stage = .held then s
    else if nanoseconds < 1000 then (s.closeSwitches .closed).updEth fun e => { e with instant := none }
    else s.restart .warmPin .held)

/-- RESET_N_RELEASE (R475, R481): P0. The reset ends as the device was held by it. -/
def execResetNRelease (s : State) : Host.Outcome State Fault Refusal :=
  .next (if s.glb.stage = .held then s.restart s.glb.lastReset .plls else s)

/-- The rails whose loss while RESET_N is low makes the reset cold (R470). -/
def coldRail : Rail → Bool
  | .core | .sram | .aon | .golent12 | .golent18 => true
  | _ => false

/-- SUPPLY_OUT_OF_RANGE (R470). -/
def execSupplyOutOfRange (rail : Rail) (s : State) : Host.Outcome State Fault Refusal :=
  .next (if s.glb.stage = .held ∧ coldRail rail then s.restart .coldPower .held else s)

/-- A register-caused reset is accepted: it takes effect 10 us later (R471). -/
def State.scheduleReset (k : ResetKind) (s : State) : State :=
  if s.glb.resetDue.isSome then s else s.updGlb fun g => { g with resetDue := some (s.edge + 10 * edgesUs, k) }

/-- GLB_RESET_COLD (R470, R471). -/
def execGlbResetCold (v : Word) (s : State) : Host.Outcome State Fault Refusal :=
  .next (if v = 0x434F4C44 then s.scheduleReset .coldRegister else s)

/-- GLB_RESET_WARM (R470, R471). -/
def execGlbResetWarm (v : Word) (s : State) : Host.Outcome State Fault Refusal :=
  .next (if v = 0x5741524D then s.scheduleReset .warmRegister else s)

/-- A register-caused reset whose time has come takes effect. -/
def State.takeReset (s : State) : State := match s.glb.resetDue with
  | some r => if r.1 ≤ s.edge then s.restart r.2 .plls else s
  | none => s

/-! ## Partition resets (R93, R472) -/

/-- GLB_PART_RESET (R93, R472): bits of partitions that the running Outline lacks are ignored. -/
def execGlbPartReset (v : Word) (s : State) : Host.Outcome State Fault Refusal :=
  let parts := (List.range 8).filter fun p => v.getLsbD p && (s.partRec p).isSome
  .next (if parts.isEmpty then s
    else
      let mask := BitVec.ofNat 8 (total (parts.map fun p => 2 ^ p)) ||| s.glb.partReset.getD 0
      let s1 := (s.dropStaged.updOtl fun o => { o with state := .idle, staging := [], stagedWords := 0 }).updRgn fun r =>
        { r with shadowLoaded := false }
      parts.foldl (fun s p => s.resetPartition p) (s1.updGlb fun g => { g with partReset := some mask }))

/-- PARTITION_RESET_DONE (R472): within 2 ms. -/
def execPartitionResetDone (s : State) : Host.Outcome State Fault Refusal :=
  .next (s.updGlb fun g => { g with partReset := none })

/-! ## The steps of bring-up (R475, R476) -/

def State.toStage (b : BootStage) (s : State) : State := s.updGlb fun g => { g with stage := b }

/-- PLL_LOCKED (R36, R475): a standby that has not locked is retired; where only the standby has locked, the root runs
from it. With neither, no clock runs. -/
def execPllLocked (primary standby : Bool) (s : State) : Host.Outcome State Fault Refusal :=
  let standby := standby && s.glb.pllSpare
  .next (if s.glb.stage ≠ .plls ∨ !(primary || standby || s.glb.pllOnStandby) then s
    else (s.updGlb fun g => { g with
      pllSpare := primary && standby
      pllOnStandby := g.pllOnStandby || !primary }).toStage .fuses)

/-- The repair map that a CORE_REPAIR word spells (R97, R123). -/
def repairOf (w : Word) : RepairMap :=
  { rowA := BitVec.ofNat 7 (fld w 6 0), rowB := BitVec.ofNat 7 (fld w 14 8), col := BitVec.ofNat 7 (fld w 22 16) }

/-- FUSE_MAP_LOADED (R97, R449): after a cold reset the fuse map, after a warm one the map that PD_AON kept. -/
def execFuseMapLoaded (s : State) : Host.Outcome State Fault Refusal :=
  .next (if s.glb.stage ≠ .fuses then s
    else
      let load (x : Core × Nat) : Core :=
        { x.1 with repair := (List.range 4).map fun a => repairOf (Config.fuseRepair x.2 a) }
      (if s.glb.lastReset.warm then s else s.updCores fun cs => cs.zipIdx.map load).toStage .mbist)

/-- MBIST_DONE (R466, R475, R476): failed cores are retired, the four lowest passing control cores are the active set,
and the memories are initialised. With no control core the boot ROM cannot run, and bring-up ends here. -/
def execMbistDone (failedCores : List (Fin 36)) (failedCtrl : List (Fin 5)) (s : State) :
    Host.Outcome State Fault Refusal :=
  let bad := (failedCores.map (·.val)).dedup
  let lost := (s.brn.ctrlRetired ++ failedCtrl.map (·.val)).dedup
  let pass := (List.range 5).filter fun k => !lost.contains k
  .next (if s.glb.stage ≠ .mbist then s
    else
      let s1 := (s.updCores fun cs => cs.zipIdx.map fun x => if bad.contains x.2 then { x.1 with state := .retired } else x.1).updBrn
        fun b => { b with
          coreRetired := bad.foldl (fun m n => m ||| BitVec.ofNat 36 (2 ^ n)) b.coreRetired
          ctrlRetired := lost, ctrlActive := pass.take 4 }
      let s2 := s1.updPlt fun l => l.map fun x => { x with powered := true, ready := true, lastScrub := s.edge }
      if pass.isEmpty then s2 else s2.toStage .training)

/-- A channel that bring-up trains; what its trainer finds is the part's, a board device's latency within the limit, since
TRAINING_DONE names a channel beyond it as failed (R281, R282, log 2). After a warm reset a Golent channel is retrained
(R290). -/
def State.trainChannel (ch : Channel) (logical : BitVec 7) (s : State) : State :=
  let c := s.memChan ch
  if c.state = .retired ∨ c.state = .lost then s
  else
    let taps := s.choose (2 ^ 16)
    let latency := taps.2.choose 21
    let cs1 := match ch with
      | .golent _ => false
      | .board b => Config.boardRaw b true != 0
    let r := (latency.2.updChan ch fun c => { c with logical := logical, cs1 := cs1 }).trained ch
      (BitVec.ofNat 24 (taps.1 + 65536 * latency.1))
    match ch with
    | .golent _ => if s.glb.lastReset.warm then r.bump (chRetrains ch) else r
    | .board _ => r

/-- The logical number with which a Golent channel leaves bring-up: the one that it had, or its own, 64 and 65 being
the spares (R13, R30). -/
def State.bootLogical (s : State) (c : Fin 66) : BitVec 7 :=
  if s.chn.golent.all (·.logical = 0x7F) then (if c.val < 64 then BitVec.ofNat 7 c.val else 0x7F)
  else (s.memChan (.golent c)).logical

/-- Every channel is trained (R290). -/
def State.trainAll (s : State) : State :=
  let s1 := (List.finRange 66).foldl (fun x c => x.trainChannel (.golent c) (s.bootLogical c)) s
  (List.finRange 16).foldl (fun x b => x.trainChannel (.board b) (BitVec.ofNat 7 b.val)) s1

/-- A channel that fails its training in bring-up (R292, R293). -/
def State.trainFails (ch : Channel) (s : State) : State :=
  let st := (s.memChan ch).state
  if st ≠ .active ∧ st ≠ .spare then s
  else match ch with
    | .golent c => s.golentFails c
    | .board b => s.boardFails b

/-- TRAINING_DONE (R290, R292, R293, R475): failed spares first, since only a trained spare takes a number. T4 is
available when every board-store channel has trained. -/
def execTrainingDone (failed : List Channel) (s : State) : Host.Outcome State Fault Refusal :=
  let isSpare (x : State) (ch : Channel) : Bool := (x.memChan ch).state = .spare
  .next (if s.glb.stage ≠ .training then s
    else
      let s1 := s.trainAll
      let order := failed.filter (isSpare s1) ++ failed.filter fun ch => !isSpare s1 ch
      let s2 := order.foldl (fun s ch => s.trainFails ch) s1
      (s2.updChn fun c => { c with t4Available := s2.boardReady }).toStage .firmware)

/-- FIRMWARE_VERIFIED (R452 to R454): the control firmware and Proof's start, or the T7 waits for a recovery image. -/
def execFirmwareVerified (s : State) : Host.Outcome State Fault Refusal :=
  .next (if s.glb.stage ≠ .firmware then s
    else match s.sec.verify s.sec.firmware with
      | none => s.toStage .firmwareRecovery
      | some r =>
        ((s.updSec fun x => { x with version := BitVec.ofNat 7 r.1, keys := r.2 }).updPrf Prf.settle).toStage .outline)

/-- RECOVERY_IMAGE_LOAD (R454): in a device session of firmware recovery. A good image goes into the boot store and
the T7 restarts as after a warm reset; which of the two warm codes LAST_RESET then shows is open (log 2). -/
def execRecoveryImageLoad (sess : Fin 16) (tag : Word) (image : List Byte) (s : State) :
    Host.Outcome State Fault Refusal :=
  .next (if s.glb.stage ≠ .firmwareRecovery then s
    else s.request sess fun x s =>
      if x.part.isSome then s.sendTo sess (.objReply tag 0x10)
      else if (s.sec.verify image).isNone then s.sendTo sess (.objReply tag 0x15)
      else
        let k := s.choose 2
        (k.2.updSec fun y => { y with firmware := image }).restart (if k.1 = 0 then .warmPin else .warmRegister) .plls)

/-! ## The boot Outline (R94, R95, R474) -/

/-- The copies whose headers check, the newer first (R474). -/
def Sec.bootOrder (x : Sec) : List Nat :=
  let a := x.copies.getD 0 {}
  let b := x.copies.getD 1 {}
  if a.headerGood && b.headerGood then (if seqBefore a.seq b.seq then [1, 0] else [0, 1])
  else if a.headerGood then [0] else if b.headerGood then [1] else []

/-- The words of a copy, and what validation says of them; BOOT must be set (R94). -/
def State.bootCheck (s : State) (k : Nat) : Option (Outline × Option NetTable × List Word) :=
  let ws := (s.sec.copies.getD k {}).words
  match s.validate ws ws.length true with
  | .fail _ _ => none
  | .pass o net => if o.header.boot then some (o, net, ws) else none

/-- CODE and OTL_ERR_WORD in outline recovery: the result of validating the newer copy (R496). The manual gives no
code for an absent copy, or for one that only lacks BOOT: the code is then open (log 2). -/
def State.recoveryCode (s : State) : State :=
  let open_ (s : State) : State :=
    let d := s.draw
    let e := d.2.draw
    e.2.updOtl fun o => { o with code := d.1.setWidth 8, errWord := e.1.toNat }
  match s.sec.bootOrder.head? with
  | none => open_ s
  | some k =>
    let ws := (s.sec.copies.getD k {}).words
    match s.validate ws ws.length true with
    | .fail c w => s.updOtl fun o => { o with code := BitVec.ofNat 8 c, errWord := w }
    | .pass _ _ => open_ s

/-- Milliseconds from P0, as GLB_BOOT_MS holds them (R481). -/
def State.msNow (s : State) : BitVec 16 := BitVec.ofNat 16 (min 65535 (s.edge / edgesMs))

/-- The version that an entry of the mirror lists, VERIFYING with no references (R278); T3_MIRROR_START 0 names no mirror,
since unit 0 is a slot's (R276). -/
def MirrorEntry.version (newest : Bool) (e : MirrorEntry) (data : Memory) (gone : List Nat) : ObjVersion :=
  { obj := e.obj, part := e.part, ver := e.ver, state := .verifying, newest := newest, home := e.home, pin := e.pin
    mirror := e.mirror, source := e.source, len := e.len, t3 := some e.t3
    t3Mirror := if e.t3Mirror = 0 then none else some e.t3Mirror, gone := gone, crc := e.crc, order := e.order, data := data }

/-- Re-adoption of T3 begins (R278): every listed version, in ascending ORDER and then object ID, the highest VERSION
of each ID being NEWEST, with the placement of the boot Outline; each sequence goes on after its highest VERSION. -/
def State.readopt (s : State) : State :=
  match s.newestImage with
  | none => s.updTir fun t => { t with mirrorInvalid := true }
  | some m =>
    let es := m.2.entries
    let newest (e : MirrorEntry) : Bool := es.all fun x => !(x.obj = e.obj && (x.part = e.part || isDevice e.obj)) || decide (x.ver ≤ e.ver)
    let vs := es.zipIdx.map fun x =>
      (x.1.version (newest x.1) (m.2.data.getD x.2 []) s.lostNumbers).placed s.otl.running
    let s1 := s.updTir fun t => { t with
      objs := t.objs ++ sortOn (·.order) (sortOn (·.obj.toNat) vs), mirrorSeq := m.2.seq }
    (es.filter newest).foldl (fun s e => s.setSeq e.part e.obj e.ver) s1

/-- The boot Outline takes effect without a boundary, before jobs-ready (R20, R94, R474). -/
def State.bootInto (k : Nat) (o : Outline) (net : Option NetTable) (ws : List Word) (s : State) : State :=
  let s1 := ((s.netRefs addRef net).install o net ws fun _ => false).updOtl fun x => { x with
    state := .idle, code := 0, epoch := o.header.epoch, isBoot := true }
  let s2 := s1.updSec fun x => { x with copyInUse := some k }
  (s2.updClusters fun cs => cs.map fun c => { c with testing := false }).updGlb fun g => { g with
    stage := .booted, bootMs := s.msNow, bootEdge := s.edge }

/-- BOOT_OUTLINE_LOAD (R94, R95, R278, R474): the newer usable copy takes effect; without one, outline recovery. After
a warm reset the re-adoption of T3 starts. -/
def execBootOutlineLoad (s : State) : Host.Outcome State Fault Refusal :=
  .next (if s.glb.stage ≠ .outline then s
    else
      let pick := s.sec.bootOrder.findSome? fun k => (s.bootCheck k).map fun r => (k, r)
      let s1 := match pick with
        | some (k, o, net, ws) => s.bootInto k o net ws
        | none => (s.recoveryCode.updOtl fun o => { o with state := .idle, epoch := 0 }).toStage .outlineRecovery
      if s.glb.lastReset.warm then s1.readopt else s1)

/-- Every cluster's spare starts its self-test, and the intervals of coverage start (R20, R24, R429, R477). -/
def State.startCoverage (s : State) : State :=
  let s1 := (List.range 4).foldl (fun s c => match (s.cluster c).spare with
    | none => s.updCluster c fun x => { x with coverFrom := s.edge }
    | some sp => (s.updCluster c fun x => { x with testing := true, testStart := s.edge, coverFrom := s.edge }).updCore
        (9 * c + sp.val) fun x => { x with state := .selfTest }) s
  (s1.updCores fun cs => cs.map fun c => { c with lastPass := s.edge }).updPrf fun p => Prf.settle { p with
    coverFrom := s.edge, slices := p.slices.map fun x => { x with passStart := s.edge, passed := [], missed := false } }

/-- Jobs-ready has come (R477): the Outline runs, and UPLINK is up, disabled, or 200 ms late. -/
def State.jobsMayBegin (s : State) : Bool :=
  s.glb.stage = .booted && (!(s.netPort .uplink).enable || (s.ethPort .uplink).link ||
    decide (s.glb.bootEdge + 200 * edgesMs ≤ s.edge))

/-- JOBS_READY (R477). -/
def execJobsReady (s : State) : Host.Outcome State Fault Refusal :=
  .next (if !s.jobsMayBegin then s
    else
      ((s.updGlb fun g => { g with
        stage := .ready, readyMs := s.msNow, readyEdge := s.edge, uplinkLate := !(s.ethPort .uplink).link }).updRgn fun r =>
        { r with firing := true }).startCoverage)

end Sys2Proof.Machine
end

