-- ==== Sys2Proof/Machine/GraverCore.lean ====
section
/-!
DEFINITION. Events inside a Graver core: weight loads, tiles and banks, and the faults that the core finds
itself (R97 to R107, R122, R156).
-/

namespace Sys2Proof.Machine

open Sys2Proof

/-! ## Weight loads (R102 to R104) -/

/-- WEIGHT_BUFFER_READY (R103): a staging buffer is full; a load that waited for it starts, and its waiting
ARITH cycles are counted. -/
def execWeightBufferReady (core : Fin 36) (buf : Fin 2) (s : State) : Host.Outcome State Fault Refusal :=
  let c := s.core core
  .next (if c.job.isNone ∨ c.bufFull.getD buf false then s
    else
      let s1 := s.updCore core fun x => { x with bufFull := x.bufFull.set buf true }
      if c.loadWaits ∧ c.nextBuf = buf then
        (s1.updCore core fun x =>
          { x with loading := true, loadWaits := false, loadStart := max s.edge x.loadWaitEdge }).bumpBy
            (.coreLoadWait core) (2 * (s.edge - c.loadWaitEdge))
      else s1)

/-- The rows of a K step begin to stream behind a load, and the first of them carries the swap mark; the last one enters
after M_t row times, and its results are written 131 ARITH cycles and a row time later (R102, R104). -/
def Core.stream (edge bank : Nat) (w : ArrayWork) (t : ArrayTile) (c : Core) : Core :=
  let enter := edge + (t.acts.length * t.rowTime + 1) / 2
  { c with
    shadow := t.weights w.int w.pack w.step, swapMark := true, feed := t.rows w.step
    feedBank := bank, feedInt := w.int, feedPack := w.pack, enterEdge := enter
    banks := c.banks.modify bank fun b => { b with written := enter + (131 + t.rowTime + 1) / 2 }
    bufFull := c.bufFull.set c.nextBuf false, nextBuf := 1 - c.nextBuf, loading := false }

/-- The first K step of a tile takes the next bank, and successive tiles alternate (R105, R106). -/
def Core.takeBank (owner : Word × Nat × Nat) (c : Core) : Core :=
  { c with
    banks := c.banks.set c.nextBank { state := .computing, owner := some owner }
    nextBank := 1 - c.nextBank }

/-- A load of a tile ends: its work moves on to the next K step, or to the next tile. -/
def ArrayWork.loaded (bank : Nat) (w : ArrayWork) : ArrayWork :=
  let last := decide ((w.tiles.getD w.tile {}).ksteps ≤ w.step + 1)
  { w with
    tiles := w.tiles.modify w.tile fun t => { t with bank := some bank }
    tile := if last then w.tile + 1 else w.tile
    step := if last then 0 else w.step + 1 }

/-- WEIGHT_LOAD_DONE (R102, R104): 64 ARITH cycles after its start a load is complete; the K step before it has entered,
and its own rows follow. -/
def execWeightLoadDone (core : Fin 36) (s : State) : Host.Outcome State Fault Refusal :=
  .next (match s.loadOf core with
    | none => s
    | some (j, k, i) =>
      let c := s.core core
      if !c.loading ∨ s.edge < c.loadStart + 32 then s
      else
        let w := i.work
        let t := w.tiles.getD w.tile {}
        let bank := if w.step = 0 then c.nextBank else t.bank.getD 0
        let s1 := s.updCore core fun x =>
          let y := x.flush
          (if w.step = 0 then y.takeBank (j.id, k, i.index) else y).stream s.edge bank w t
        let s2 := s1.updFlight j.id k i.index fun x => { x with work := x.work.loaded bank }
        (s2.updCore core (Core.nextLoad s.edge (s2.nextStep core))).bump (.coreWeightLoads core))

/-! ## Tiles and banks (R99, R105 to R107, R122) -/

/-- The job, slot and descriptor whose tile the arrays of a core work on: the oldest with tiles left. -/
def State.tileOf (s : State) (core : Nat) : Option (Job × Nat × InFlight) :=
  match (s.core core).job.bind s.job? with
  | none => none
  | some j =>
    match j.slots.findIdx? fun x => x.core = core with
    | none => none
    | some k =>
      if j.state = .running then
        ((j.slots.getD k {}).inFlight.find? fun i => i.stage = .waiting && !i.work.tiles.isEmpty).map fun i => (j, k, i)
      else none

/-- The bank of the first tile of a descriptor, once its last K step is written. -/
def State.tileBank (s : State) (core : Nat) (i : InFlight) : Option Nat :=
  if i.work.tile = 0 then none
  else ((i.work.tiles.getD 0 {}).bank).filter fun b => decide (((s.core core).banks.getD b {}).written ≤ s.edge)

/-- The array faults of a tile, in array order: a mismatch that the comparators found, or one that the command names on
an array that has compared (R99, R122, R134). -/
def arrayFaults (core : Nat) (compared mismatch named : BitVec 4) (row : Word) (job : Word) : List PendingFault :=
  ((List.range 4).filter fun a => (compared &&& (mismatch ||| named)).getLsbD a).map fun a =>
    { kind := 1, inst := 4 * core + a, code := 1, detail := row.toNat, jobs := [job] }

/-- The faults of a tile are counted and recorded, with those that waited for its end (R122). -/
def State.tileFaults (core : Fin 36) (arrays : List PendingFault) (s : State) : State :=
  let s1 := arrays.foldl (fun s f => s.bump (.coreCheckFail core (Fin.ofNat 4 f.inst))) s
  let pending := (s.core core).pendingFaults
  (s1.updCore core fun c => { c with pendingFaults := [], tail := none }).coreFaults core (arrays ++ pending)

/-- A tile ends without a fault: its bank drains through the Wash unit, after the other one where that drains too
(R107). -/
def Core.drain (edge bank cycles : Nat) (c : Core) : Core :=
  let o := c.banks.getD (1 - bank) {}
  let from_ := if o.state = .draining then max edge o.drained else edge
  { c with banks := c.banks.modify bank fun b => { b with state := .draining, drained := from_ + (cycles + 1) / 2 } }

/-- ARITH cycles of the drain of a tile (R107). -/
def ArrayWork.drainCycles (w : ArrayWork) : Nat :=
  let t := w.tiles.getD 0 {}
  (t.acts.length * t.cols.length + 63) / 64 * w.drain

/-- TILE_COMPLETE (R99, R107, R122): the last K step of a tile is written. A check-column mismatch discards
the tile and hands the job to restart, with a record and a count for each faulty array; otherwise the bank
drains. A tile whose job has ended is recorded only. -/
def execTileComplete (core : Fin 36) (mismatch : BitVec 4) (row : Word) (s : State) :
    Host.Outcome State Fault Refusal :=
  let c := s.core core
  .next (match c.tail with
    | some t => s.tileFaults core (arrayFaults core t.compared t.mismatch mismatch row t.job)
    | none =>
      match s.tileOf core with
      | none => if c.inTile then s else s.tileFaults core []
      | some (j, k, i) =>
        match s.tileBank core i with
        | none => s
        | some n =>
          let b := c.flush.banks.getD n {}
          match arrayFaults core b.compared b.mismatch mismatch row j.id ++ c.pendingFaults with
          | [] =>
            (s.updCore core fun x => x.flush.drain s.edge n i.work.drainCycles).updFlight j.id k i.index fun x =>
              { x with work := { x.work with tiles := x.work.tiles.drop 1, tile := x.work.tile - 1 } }
          | _ => s.tileFaults core (arrayFaults core b.compared b.mismatch mismatch row j.id))

/-- The last bank of a descriptor has drained: the results of a product are written, and the descriptor has acted
(R107). -/
def State.arraysDone (j : Job) (slot : Nat) (i : InFlight) (s : State) : State :=
  match i.desc.op with
  | 0x01 => s.gemmDone j slot i
  | 0x02 => s.convDone j slot i
  | _ => s.acted j slot i i.status {} i.result i.detail i.cycles

/-- The results of a drained bank join the work of its descriptor; with the last one the descriptor has acted. -/
def State.bankDrained (core : Nat) (b : AccBank) (s : State) : State :=
  match b.owner with
  | none => s
  | some (id, slot, index) =>
    let s1 := s.updFlight id slot index fun x => { x with work := { x.work with results := x.work.results ++ [b.sums] } }
    match s1.job? id with
    | none => s1
    | some j =>
      match (j.slots.getD slot {}).inFlight.find? fun i => i.index = index && i.stage = .waiting with
      | none => s1
      | some i =>
        if i.work.tiles.isEmpty && !(s1.core core).banks.any fun x => x.owner = b.owner then s1.arraysDone j slot i
        else s1

/-- ACC_BANK_FREE (R107): a drained bank is free, in the order of the tiles; a tile that waited for it starts, and its
waiting ARITH cycles are counted. -/
def execAccBankFree (core : Fin 36) (bank : Fin 2) (s : State) : Host.Outcome State Fault Refusal :=
  let c := s.core core
  let b := c.banks.getD bank {}
  let o := c.banks.getD (1 - bank.val) {}
  .next (if b.state ≠ .draining ∨ s.edge < b.drained ∨ (o.state = .draining ∧ o.drained < b.drained) then s
    else
      let s1 := (s.updCore core fun x => { x with banks := x.banks.set bank {} }).bankDrained core b
      if c.bankWait = some bank.val then
        (s1.updCore core (Core.nextLoad s.edge (s1.nextStep core))).bumpBy (.coreAccWait core)
          (2 * (s.edge - c.bankWaitEdge))
      else s1)

/-! ## Other faults of a core (R122, R156, R434) -/

/-- WASH_RESIDUE_FAULT (R122, R434): every job on the core restarts, after the current output tile. -/
def execWashResidueFault (core : Fin 36) (s : State) : Host.Outcome State Fault Refusal :=
  .next ((s.bump (.coreWashResidue core)).coreFaultAtTileEnd core
    { kind := 2, inst := core, code := 3, jobs := s.coreJobs core })

/-- The job that an uncorrectable error of T1 meets: where the core holds two, either (log 2). -/
def State.faultyJob (s : State) (core : Nat) : List Word × State :=
  match s.coreJobs core with
  | [a, b] => let r := s.choose 2; ([if r.1 = 0 then a else b], r.2)
  | l => (l, s)

/-- T1_UNCORRECTABLE (R156, R445): an uncorrectable error in T1 data that a job reads restarts the job; the
core stays in service. -/
def execT1Uncorrectable (core : Fin 36) (bank : Fin 8) (s : State) : Host.Outcome State Fault Refusal :=
  let r := s.faultyJob core
  .next (match r.1 with
    | [] => s
    | id :: _ =>
      (r.2.report 2 core 1 2 0x0012 ((s.job? id).map (·.part)) id bank).faultJob id none)

end Sys2Proof.Machine
end

