-- ==== Sys2Proof/Machine/Launch.lean ====
section
/-!
DEFINITION. Firings that launch after the edge on which they fell due: carried over full edges (R520) and deferred by
a busy target (R59).
-/

namespace Sys2Proof.Machine

open Sys2Proof

/-- Whether the target of an entry is busy (R58). -/
def State.targetBusy (s : State) (i : Nat) (e : RegEntry) : Bool :=
  if e.target = 1 ∨ e.target = 2 ∨ e.target = 3 then s.entryJob i
  else if e.target = 5 then decide (s.edge < (s.prf.sets.getD e.arg.toNat {}).busyUntil)
  else false

/-- What a GPIO launch does to its pin (R69). -/
def State.gpioAction (s : State) (e : RegEntry) (p : GpioPin) : GpioPin :=
  if p.dir ≠ .registered then p
  else if e.action = 0 then p.drive true
  else if e.action = 1 then p.drive false
  else if e.action = 2 then p.toggle
  else p.pulse (s.edge + e.arg.toNat)

/-- The launch of an entry at its target (R56), for a firing whose registration instant is given. -/
def State.launchEntry (i : Nat) (instant : Int) (e : RegEntry) (s : State) : State :=
  match e.target with
  | 1 => s.launchTemplate i instant e
  | 2 => s.launchTemplate i instant e
  | 3 => s.launchMove i instant e
  | 4 => s.launchStylus instant e
  | 5 => s.proofFiring e.arg.toNat
  | 6 => s.restartGates (portOf e.unit)
  | 7 => s.launchPrefetch i e
  | 8 => s.updPin e.unit (s.gpioAction e)
  | 9 =>
    if e.action = 1 then s.rotationInstant e.unit
    else (match s.sliceEntry e.unit with
      | none => s
      | some x => s.startSlice i e x)
  | _ => s

/-- A launch place is free on this edge (R57). -/
def State.placeFree (s : State) : Bool := s.launching && decide (s.rgn.launches < 4)

/-- A firing of a partition in a reset is not launched (R472). -/
def State.refusedByReset (s : State) (e : RegEntry) : Bool := e.target != 6 && e.target != 9 && s.resetting e.part

/-- A late launch takes a place, or is refused in a partition reset. -/
def State.launchLate (i : Nat) (instant : Int) (e : RegEntry) (s : State) : State :=
  if s.refusedByReset e then
    if s.entrySupervised e then s.missedLaunch e.proofSet else s
  else (s.updRgn fun r => { r with launches := r.launches + 1 }).launchEntry i instant e

/-- CARRIED_FIRING_LAUNCH (R520): the first carried firing takes a free place. Its target is judged busy or free now;
it fell due under the setting of its own edge, so a later disable does not reach it (R61). -/
def execCarriedFiringLaunch (s : State) : Host.Outcome State Fault Refusal :=
  .next (match s.rgn.carried with
    | [] => s
    | x :: rest =>
      if !s.placeFree then s
      else
        let s1 := s.updRgn fun r => { r with carried := rest }
        match s.regEntry x.2 with
        | none => s1
        | some e =>
          if !s.refusedByReset e ∧ s.targetBusy x.2 e then s1.lateFiring x.2 e else s1.launchLate x.2 x.1 e)

/-- DEFERRED_FIRING_LAUNCH (R59): with its target free and a place left by the firings due and carried, a deferred
firing launches; its registration instant is the entry's last. -/
def execDeferredFiringLaunch (e : BitVec 12) (s : State) : Host.Outcome State Fault Refusal :=
  let i := e.toNat
  .next (match s.regEntry i with
    | none => s
    | some r =>
      if !s.placeFree ∨ !s.rgn.deferred.contains i ∨ !s.rgn.carried.isEmpty ∨ s.targetBusy i r then s
      else (s.updRgn fun g => { g with deferred := g.deferred.filter (· != i) }).launchLate i (s.instantOf r) r)

end Sys2Proof.Machine
end

