-- ==== Sys2Proof/Machine/Recurrent.lean ====
section
/-!
DEFINITION. Recurrent streams: the step of R142, SCAN and GATE (R225 to R241).
-/

namespace Sys2Proof.Machine

open Sys2Proof

/-! ## One step of a state element (R142) -/

/-- The exponent of ulp(h) (R142). -/
def ulpExp (h : Word) : Int := if fld h 30 23 = 0 then -149 else (fld h 30 23 : Int) - 150

/-- The value that an element carries: h_hi and its residual (R142). -/
def carried (h : Word) (r : Int) : Num :=
  numAdd (ofF32 h) (if r = 0 then .fin false 0 0 else .fin (decide (r < 0)) r.natAbs (ulpExp h - 16))

/-- A sum rounded to the significand of the unit, of at least 48 bits (R142). -/
def scanRound (x : Num) : Num :=
  match x with
  | .fin n m e => let r := roundNum (48 + Config.scanBits) (-100000) m e; .fin n r.1 r.2
  | y => y

/-- The residual that is left when s is stored as h (R142). -/
def residualOf (s : Num) (h : Word) : Int :=
  match numAdd s (numNeg (ofF32 h)) with
  | .fin n m e => clampInt (-32768) 32767 (numToInt (.fin n m (e - ulpExp h + 16)))
  | _ => 0

/-- One step of one element: a x state + b x u (R142). -/
def scanElem (a b u : Word) (x : Word × Int) : (Word × Int) × NumFlags :=
  let c := carried x.1 x.2
  let s := scanRound (numAdd (numMul (ofF32 a) c) (numMul (ofF32 b) (ofF32 u)))
  let h := withInvalid [ofF32 a, c, ofF32 b, ofF32 u] s
  ((h.1, match ofF32 h.1 with
    | .fin _ _ _ => residualOf s h.1
    | _ => 0), h.2)

/-- One step of N elements. -/
def scanStep (a b u : List Word) (x : List (Word × Int)) : List (Word × Int) × NumFlags :=
  let r := x.zipIdx.map fun e => scanElem (a.getD e.2 0) (b.getD e.2 0) (u.getD e.2 0) e.1
  (r.map (·.1), allFlags r)

/-- The outputs of a step: for each group of G elements, the sum of c x h in element order (R232). -/
def scanOut (g : Nat) (c : List Word) (x : List (Word × Int)) : List (Word × NumFlags) :=
  let p := List.zipWith (fun a b => fMul a b.1) c x
  (chunksOf (max 1 g) (p.length / max 1 g) p).map sumOrder

/-! ## A slice (R227, R238) -/

/-- A step whose output is pending: its segment, a', b', c', u and the forward outputs (R238). -/
structure Pending where
  seg : Nat := 0
  a : List Word := []
  b : List Word := []
  c : List Word := []
  u : List Word := []
  y : List Word := []
deriving DecidableEq, Repr, Inhabited

/-- A slice while it is stepped. -/
structure SliceRun where
  x : List (Word × Int) := []
  since : Nat := 0
  ring : List Pending := []
deriving DecidableEq, Repr, Inhabited

/-- Bytes of a slice without its ring, of one ring entry, and of the whole slice (R227, R238). -/
def sliceBase (n : Nat) : Nat := 64 * ((4 * n + 63) / 64 + (2 * n + 63) / 64)
def ringEntry (n g : Nat) : Nat := 16 * n + 4 * (n / max 1 g)
def sliceSize (n g l : Nat) : Nat := sliceBase n + 64 * ((l * ringEntry n g + 63) / 64)

/-- A slice read from its region: h_hi, residuals and the ring, oldest step first (R227; log 15). -/
def readSlice (r : StateRegion) (off n g l : Nat) : SliceRun :=
  let m := r.data
  let hs := Memory.readWords m off n
  let rs := (List.range n).map fun i => sgn (leNat (Memory.readBytes m (off + 64 * ((4 * n + 63) / 64) + 2 * i) 2)) 16
  let meta_ := (r.slices.lookup off).getD (r.unlisted, List.replicate (min l r.unlisted) 0)
  let entry (k : Nat) : Nat := off + sliceBase n + k * ringEntry n g
  { x := List.zip hs rs, since := meta_.1
    ring := meta_.2.zipIdx.map fun s =>
      { seg := s.1, a := Memory.readWords m (entry s.2) n, b := Memory.readWords m (entry s.2 + 4 * n) n,
        c := Memory.readWords m (entry s.2 + 8 * n) n, u := Memory.readWords m (entry s.2 + 12 * n) n,
        y := Memory.readWords m (entry s.2 + 16 * n) (n / max 1 g) } }

/-- A slice stored into its region; on the lead slice STEPS follows (R226, R236). -/
def writeSlice (r : StateRegion) (off n g l : Nat) (x : SliceRun) : StateRegion :=
  let m1 := Memory.writeBytes r.data off (wordsBytes (x.x.map (·.1)))
  let m2 := Memory.writeBytes m1 (off + 64 * ((4 * n + 63) / 64)) (x.x.flatMap fun e => natBytes 2 (e.2 % 65536).toNat)
  let ring := x.ring.flatMap fun p => wordsBytes (p.a ++ p.b ++ p.c ++ p.u ++ p.y)
  let room := 64 * ((l * ringEntry n g + 63) / 64)
  let m3 := Memory.writeBytes (Memory.clear m2 (off + sliceBase n) room) (off + sliceBase n) ring
  { r with data := m3, steps := if off = 64 then BitVec.ofNat 64 x.since else r.steps
           slices := (off, x.since, x.ring.map (·.seg)) :: r.slices.filter (·.1 != off) }

/-- The backward recurrence over a window of steps, newest first, from zero state (R238). -/
def backward (n : Nat) (ps : List Pending) : List (Word × Int) × NumFlags :=
  ps.foldl (fun acc p =>
    let r := scanStep p.a p.b p.u acc.1
    (r.1, acc.2.or r.2)) (List.replicate n (0, 0), {})

/-- The oldest pending step is released: its window ends at the last step of its segment (R236, R238). -/
def releaseStep (n g : Nat) (ring : List Pending) : List (Word × NumFlags) :=
  match ring with
  | [] => []
  | p :: _ =>
    let b := backward n (ring.filter (·.seg = p.seg)).reverse
    let yb := scanOut g p.c b.1
    List.zipWith (fun f y => let r := fAdd f y.1; (r.1, (b.2.or y.2).or r.2)) p.y yb

/-- The operands of one stream-step. -/
structure StepIn where
  mark : Bool := false
  a : List Word := []
  b : List Word := []
  c : List Word := []
  a' : List Word := []
  b' : List Word := []
  c' : List Word := []
  u : List Word := []

/-- One stream-step: the new slice, its output row, and whether an output was released (R235, R236, R238). -/
def SliceRun.step (n g l : Nat) (i : StepIn) (x : SliceRun) : SliceRun × List (Word × NumFlags) × Bool :=
  let x0 := if i.mark then List.replicate n ((0 : Word), (0 : Int)) else x.x
  let since := if i.mark then 1 else x.since + 1
  let r := scanStep i.a i.b i.u x0
  let yf := (scanOut g i.c r.1).map fun y => (y.1, y.2.or r.2)
  if l = 0 then ({ x with x := r.1, since := since }, yf, true)
  else
    let last := (x.ring.getLast?.map (·.seg)).getD 0
    let p : Pending :=
      { seg := if i.mark then last + 1 else last, a := i.a', b := i.b', c := i.c', u := i.u, y := yf.map (·.1) }
    let ring := x.ring ++ [p]
    let fl := allFlags yf
    if l < ring.length then
      ({ x := r.1, since := since, ring := ring.drop 1 },
        (releaseStep n g ring).map fun y => (y.1, y.2.or fl), true)
    else ({ x := r.1, since := since, ring := ring }, yf.map fun _ => (0, fl), false)

/-! ## SCAN (R232 to R241) -/

/-- Rows of A at a stream-step: three, or six with look-ahead (R232). -/
def scanRows (l : Nat) : Nat := if l = 0 then 3 else 6

/-- The bytes that the operands of a SCAN touch. -/
def scanTouches (d : Descriptor) (h : StateList) : List Touch :=
  let n := d.m * d.batch
  if n = 0 then [] else
    [{ obj := d.aObj, off := d.aOff, len := (n - 1) * h.aPitch + tensorBytes d.fmtA (scanRows h.lookahead) d.n },
     { obj := d.bObj, off := d.bOff, len := (n - 1) * h.bPitch + tensorBytes d.fmtB 1 d.n },
     { obj := d.cObj, off := d.cOff, len := tensorBytes d.fmtC n (d.n / h.group), write := true }] ++
    (if d.word 12 = 0 then [] else [{ obj := d.word 12, off := 0, len := 4 * d.batch * ((d.m + 31) / 32) }])

/-- A descriptor runs in precise mode: its flag, or a stream in warm-up by its committed STEPS (R240). -/
def State.scanPrecise (s : State) (d : Descriptor) (h : StateList) : Bool :=
  d.flag 12 || h.streams.any fun x => ((s.context? x.1).bind (·.rec_)).any fun r => decide (r.steps.toNat < r.warm.toNat)

/-- The first check of R234 that fails; `table` is PWL slot 0 of the core. -/
def State.scanFault (s : State) (j : Job) (d : Descriptor) (h : StateList) (coarseOk : Bool) : Option Failure :=
  let ns := h.streams.map (·.1)
  let rec? (n : Nat) : Option StateRegion := (s.seenBy j n).bind (·.rec_)
  if h.reserved ∨ h.count ≠ d.batch ∨ !ns.Nodup ∨ d.n % h.group ≠ 0 ∨
      ns.any (fun n => (rec? n).any fun r => r.lookahead != h.lookahead) ∨
      h.streams.any (fun x => x.2 % 64 != 0 || decide (x.2 < 64)) ∨ !coarseOk then some (stBadDescriptor, 11)
  else if ns.any fun n => !s.inRange j.part n then some (stNoRights, 0)
  else
    match ns.find? fun n => (s.seenBy j n).isNone with
    | some n => some (stNoObject, wd n)
    | none =>
      if ns.any fun n => (rec? n).isNone then some (stBadDescriptor, 11)
      else if h.streams.any fun x =>
          (rec? x.1).any fun r => decide (64 * r.units < x.2 + sliceSize d.n h.group h.lookahead) then
        some (stBadRange, d.word 11)
      else
        match j.touchFault (scanTouches d h) with
        | some f => some f
        | none =>
          if s.budgetBytes j.part < 2 * total (ns.map fun n => ((rec? n).map fun r => 64 * r.units).getD 0) then
            some (stNoResources, 0)
          else none

/-- The gate coefficients a_t: delivered, or the logistic of z_t (R232, R239). -/
def gateOf (gates precise_ : Bool) (t : PwlTable) (z : List Word) : List Word × NumFlags :=
  if !gates then (z, {}) else mapF (if precise_ then precise fnLogistic else t.eval) z

/-- The operands of step t of the s-th stream. -/
def scanIn (d : Descriptor) (h : StateList) (ma mb mm : Memory) (precise_ : Bool) (tab : PwlTable) (t s : Nat) :
    StepIn × NumFlags :=
  let i := t * d.batch + s
  let rows := scanRows h.lookahead
  let row (k : Nat) : List Word := readRowF32 ma (d.aOff + i * h.aPitch) d.fmtA rows d.n k
  let read := ((List.range rows).map fun k => rowFlags ma (d.aOff + i * h.aPitch) d.fmtA rows d.n k).foldl NumFlags.or
    (rowFlags mb (d.bOff + i * h.bPitch) d.fmtB 1 d.n 0)
  let a := gateOf h.gates precise_ tab (row 0)
  let a' := if h.lookahead = 0 then ([], {}) else gateOf h.gates precise_ tab (row 3)
  let mark := d.word 12 != 0 && bit (Memory.readWord mm (4 * (s * ((d.m + 31) / 32) + t / 32))) (t % 32)
  ({ mark := mark, a := a.1, b := row 1, c := row 2, a' := a'.1,
     b' := if h.lookahead = 0 then [] else row 4, c' := if h.lookahead = 0 then [] else row 5,
     u := readRowF32 mb (d.bOff + i * h.bPitch) d.fmtB 1 d.n 0 }, (a.2.or a'.2).or read)

/-- The cost of a SCAN (R235). -/
def scanCycles (d : Descriptor) (h : StateList) (precise_ : Bool) : Nat :=
  let g := (d.n * d.batch + 63) / 64
  let c := (if !h.gates then 3 else if precise_ then 7 else 4) + (if 1 < h.group then 1 else 0)
  let per := max (g * (c * (h.lookahead + 2) - c + toBit (h.lookahead != 0))) (if precise_ then 18 else 12)
  total ((List.range ((d.m + 63) / 64)).map fun k => min 64 (d.m - 64 * k) * per + 2 * g + 16)

/-- The largest absolute difference between the coarse and the precise values of up to 64 inputs (R241). -/
def gateDiff (fn : Nat) (t : PwlTable) (zs : List Word) : Word :=
  ((zs.take 64).map fun z => fAbs (fSub (t.eval z).1 (precise fn z).1).1).foldl fMax 0

/-- The gate inputs of a SCAN in the order of A: by stream-step, z before z' (R232; log 15). -/
def gateInputs (d : Descriptor) (h : StateList) (ma : Memory) : List Word :=
  ((List.range (min 64 (d.m * d.batch))).flatMap fun i =>
    (if h.lookahead = 0 then [0] else [0, 3]).flatMap fun k =>
      readRowF32 ma (d.aOff + i * h.aPitch) d.fmtA (scanRows h.lookahead) d.n k).take 64

/-- A coarse descriptor counts on its core, and every 1,024th is sampled for Proof (R241). -/
def State.gateSample (j : Job) (slot : Nat) (tanh : Bool) (t : PwlTable) (zs : List Word) (s : State) : State :=
  let core := j.coreOf slot
  let n := (s.core core).coarseCount + 1
  let s1 := s.updCore core fun c => { c with coarseCount := n % 1024 }
  if n < 1024 then s1
  else (s1.tellProof (.gateSample j.id tanh (gateDiff (if tanh then fnTanh else fnLogistic) t zs))).bump
    .ctxRecGateSamples

/-- One stream of a SCAN through all its steps: its slice, its output rows with their places, the releases. -/
def scanStream (d : Descriptor) (h : StateList) (ma mb mm : Memory) (precise_ : Bool) (tab : PwlTable) (s : Nat)
    (x : SliceRun) : SliceRun × List (Nat × List (Word × NumFlags)) × Nat :=
  (List.range d.m).foldl (fun acc t =>
    let i := scanIn d h ma mb mm precise_ tab t s
    let r := acc.1.step d.n h.group h.lookahead i.1
    (r.1, acc.2.1 ++ [(t * d.batch + s, r.2.1.map fun y => (y.1, y.2.or i.2))], acc.2.2 + toBit r.2.2))
    (x, [], 0)

/-- SCAN (R232 to R238): the slices of the named contexts' working copies step, and C takes the outputs. -/
def State.scanGo (j : Job) (slot : Nat) (i : InFlight) (s : State) : State :=
  let d := i.desc
  let h := parseStateList (j.bytes slot (d.word 11)) d.batch
  let tab := (s.core (j.coreOf slot)).pwl.lookup 0
  let pr := s.scanPrecise d h
  match s.scanFault j d h (!h.gates || pr || tab.isSome) with
  | some f => s.failDesc j f
  | none =>
    if d.m = 0 then s.acted j slot i stEmpty {} 0 0 0
    else
      let ma := j.bytes slot d.aObj
      let mb := j.bytes slot d.bObj
      let mm := j.bytes slot (d.word 12)
      let dead := (h.streams.filter fun x => (s.seenBy j x.1).any fun c => c.state = .damaged).map (·.1)
      let runs := h.streams.zipIdx.filterMap fun x =>
        match (s.seenBy j x.1.1).bind fun c => c.rec_.map fun r => (c, r) with
        | none => none
        | some c =>
          if dead.contains x.1.1 then none
          else some (c, x.1.2, scanStream d h ma mb mm pr (tab.getD {}) x.2
            (readSlice c.2 x.1.2 d.n h.group h.lookahead))
      let rows := runs.flatMap fun r => r.2.2.2.1
      let out := rows.foldl (fun acc y =>
        let w := writeRowAt acc.1 d.cOff d.fmtC (d.m * d.batch) (d.n / h.group) y.1 d.satFinite (y.2.map (·.1))
        (w.1, (acc.2.or (allFlags y.2)).or w.2)) (j.bytes slot d.cObj, ({} : NumFlags))
      let released := total (runs.map fun r => r.2.2.2.2)
      let s1 := runs.foldl (fun s r => s.updJournal j.id (Journal.put
        { r.1.1 with rec_ := some (writeSlice r.1.2 r.2.1 d.n h.group h.lookahead r.2.2.1) })) s
      let s2 := if h.gates && !pr then
          s1.gateSample j slot false (tab.getD {}) (gateInputs d h ma)
        else s1
      (s2.store j slot d.cObj (d.cOff + tensorBytes d.fmtC (d.m * d.batch) (d.n / h.group)) fun _ => out.1).acted
        j slot i (if dead.isEmpty then stOk else stContextDamaged) out.2 (wd released)
        (wd ((dead.foldl (fun acc n => some (min n (acc.getD n))) none).getD 0)) (scanCycles d h pr)

/-- SCAN (R235). -/
def execScan (job : Word) (slot : Fin 32) (s : State) : Host.Outcome State Fault Refusal :=
  .next (s.act job slot 0x07 (fun _ => true) (fun j i s => s.scanGo j slot i))

/-! ## GATE (R239 to R241) -/

/-- GATE (R239, R240): precise with GATE_MODE, and otherwise by the table in its slot. -/
def execGate (job : Word) (slot : Fin 32) (s : State) : Host.Outcome State Fault Refusal :=
  .next (s.act job slot 0x08 (fun _ => true) (fun j i s =>
    let d := i.desc
    let pr := d.flag 12
    let tab := (s.core (j.coreOf slot)).pwl.lookup (d.param0 % 32)
    if !pr ∧ tab.isNone then s.failDesc j (stBadDescriptor, 10)
    else
      let f : Word → Word × NumFlags :=
        if pr then precise (if d.sub = 0 then fnLogistic else fnTanh) else (tab.getD {}).eval
      let m := j.bytes slot d.aObj
      let rows := (List.range d.m).map fun r => readRowF32 m d.aOff d.fmtA d.m d.n r
      let read := ((List.range d.m).map fun r => rowFlags m d.aOff d.fmtA d.m d.n r).foldl NumFlags.or {}
      let out := rows.map fun r => r.map f
      let w := writeRows (j.bytes slot d.cObj) d.cOff d.fmtC d.n d.satFinite (out.map (·.map (·.1)))
      let s1 := if !pr ∧ d.sub ≠ 2 then s.gateSample j slot (d.sub = 1) (tab.getD {}) (rows.flatten) else s
      (s1.store j slot d.cObj (d.cOff + tensorBytes d.fmtC d.m d.n) fun _ => w.1).acted j slot i stOk
        ((read.or (allFlags out.flatten)).or w.2) 0 0 ((d.m * d.n + 63) / 64 * (if pr then 4 else 1))))

end Sys2Proof.Machine
end

