-- ==== Sys2Proof/Machine/Regs.lean ====
section
/-!
DEFINITION. The control space as REG_READ and REG_WRITE meet it (R9 to R11, R399, R482 to R497): the word that each
mapped register reads as, the side effects of a read (R487), and what a write to each register does.
-/

namespace Sys2Proof.Machine

open Sys2Proof

/-! ## Addresses (R482, R483) -/

/-- The index of an arrayed register: `n` of them from `base`, `stride` apart. -/
def arr (o base stride n : Nat) : Option Nat :=
  if base ≤ o ∧ (o - base) % stride = 0 ∧ (o - base) / stride < n then some ((o - base) / stride) else none

/-- A value where an offset is an arrayed register. -/
def arrWord (o base stride n : Nat) (f : Nat → Word) : Option Word := (arr o base stride n).map f

/-- The first of several tables that lists an offset. -/
def firstSome : List (Option Word) → Option Word
  | [] => none
  | some w :: _ => some w
  | none :: r => firstSome r

/-- The SAT bit of a block, at its place [8] of every status register. -/
def State.satBit (s : State) (b : Block) : Nat := flag (s.sat b) 8

/-- Counters at consecutive words from an offset. -/
def State.countRegs (s : State) (o base : Nat) (cs : List Counter) : Option Word :=
  (arr o base 4 cs.length).map fun i => ((cs[i]?).map s.count).getD 0

/-- A two's complement word. -/
def iw (x : Int) : Word := BitVec.ofInt 32 x

/-! ## GLB (R481, R490) -/

def ResetKind.code : ResetKind → Nat
  | .coldPower => 0 | .coldRegister => 1 | .warmPin => 2 | .warmRegister => 3

/-- GLB_STATUS. -/
def State.glbStatus (s : State) : Word :=
  wd (flag (s.glb.stage = .ready) 0 + flag (s.glb.stage = .outlineRecovery) 1 + flag s.tb.everLocked 2 +
    8 * s.glb.lastReset.code + flag s.glb.uplinkLate 5 + flag s.glb.pllOnStandby 6 + flag s.glb.pllSpare 7 +
    flag Config.grade 8 + flag s.glb.partReset.isSome 9)

/-- GLB_SLOT_Pp_Ss. -/
def State.slotReg (s : State) (p l : Nat) : Word :=
  match s.glb.slotMap.find? fun x => x.1 = p && x.2.1 = l with
  | some x => wd (x.2.2 + flag (!s.coreRetiredNow x.2.2) 8)
  | none => 0

def State.regGlb (s : State) (o : Nat) : Option Word :=
  firstSome [
    [(0x00, s.glbStatus), (0x04, 0), (0x08, 0), (0x0C, s.glb.pdState.setWidth 32),
      (0x10, wd (s.glb.bootMs.toNat + 65536 * s.glb.readyMs.toNat)), (0x14, 0x00B10007),
      (0x18, Config.uid.extractLsb' 0 32), (0x1C, Config.uid.extractLsb' 32 32),
      (0x20, wd (s.glb.tempNow.toNat + 65536 * s.glb.tempMax.toNat)),
      (0x24, wd (s.glb.avsTarget.toNat + flag s.glb.pmbusFail 16)),
      (0x28, wd (s.regs.avsMin.toNat + 65536 * s.regs.avsMax.toNat)),
      (0x2C, wd (flag s.regs.glbLock 0))].lookup o,
    arrWord o 0x100 4 256 fun i => s.slotReg (i / 32) (i % 32)]

/-! ## TB (R41, R491, R492) -/

def SyncState.code : SyncState → Nat
  | .freeRun => 0 | .acquiring => 1 | .locked => 2 | .holdover => 3 | .grandmaster => 4

/-- TB_STATUS (R41). -/
def State.tbStatus (s : State) : Word :=
  let t := s.tb
  wd (t.state.code + flag t.everLocked 3 + flag t.timeJumpRefused 4 + flag t.stepPending 5 + flag t.ppsLost 6 +
    flag t.trimClamped 7 + s.satBit .tb)

def PinDir.code : PinDir → Nat
  | .input => 0 | .registered => 1 | .host => 2

/-- TB_GPIO_DIR. -/
def State.gpioDir (s : State) : Word := wd (total (s.tb.pins.zipIdx.map fun p => p.1.dir.code * 4 ^ p.2))

/-- TB_GPIO_IN. -/
def State.gpioIn (s : State) : Word := wd (total (s.tb.pins.zipIdx.map fun p => flag p.1.level p.2))

/-- TB_PORT_p. -/
def State.tbPort (s : State) (p : Port) : Word :=
  let g := s.gptpPort p
  wd (s.portRole p + flag g.asCapable 2 + 65536 * min 65535 (g.meanDelay / 4294967296))

/-- TB_GM_ID: the T7's own clock identity while it is grandmaster, 0 with none selected (log 29). -/
def State.gmId (s : State) : BitVec 64 :=
  if s.tb.state = .grandmaster then clockIdentity else (s.tb.gm.map (·.identity)).getD 0

/-- TB_GCAP_STAT, _LO, _HI and _OVF of pin `n` (R68). -/
def State.gcapReg (s : State) (n k : Nat) : Word :=
  let f := (s.tb.pins.getD n {}).fifo
  match k, f with
  | 0, [] => 0
  | 0, e :: _ => wd (f.length + flag e.2 8)
  | 1, e :: _ => e.1.w0
  | 2, e :: _ => e.1.w1
  | 3, _ => s.count (.tbGcapOvf (Fin.ofNat 16 n))
  | _, _ => 0

def State.regTb (s : State) (o : Nat) : Option Word :=
  let t := s.tb
  let r := s.regs
  firstSome [
    [(0x00, s.tbStatus), (0x04, 0), (0x08, t.cap.sec.extractLsb' 32 16 |>.setWidth 32),
      (0x0C, t.cap.sec.extractLsb' 0 32), (0x10, t.cap.ns.setWidth 32), (0x14, t.cap.frac),
      (0x18, iw t.effTrim), (0x1C, t.offset), (0x20, r.syncThresh.setWidth 32), (0x24, r.stepLimit.setWidth 32),
      (0x28, 0), (0x2C, t.stepOffset.extractLsb' 0 32),
      (0x30, t.stepOffsetHi.getD (t.stepOffset.extractLsb' 32 32)), (0x34, r.setSecHi.setWidth 32),
      (0x38, r.setSecLo), (0x3C, r.setNs.setWidth 32), (0x40, 0), (0x44, 0), (0x48, nsClamped t.slewLeft),
      (0x4C, wd (flag r.ppsOutEn 0 + flag r.ppsInMode 1)), (0x50, r.ppsWidth.setWidth 32),
      (0x54, t.ppsCap.w0), (0x58, t.ppsCapHi.getD t.ppsCap.w1), (0x5C, r.gpioFilter.setWidth 32),
      (0x60, s.gpioDir), (0x64, s.gpioIn), (0x68, r.gpioOut.setWidth 32), (0x6C, wd (flag r.tbLock 0)),
      (0x80, 0), (0xA0, s.gmId.extractLsb' 32 32), (0xA4, s.gmId.extractLsb' 0 32)].lookup o,
    s.countRegs o 0x70 [.tbOutlier, .tbJumpRefused, .tbForeignDomain, .tbPpsBad],
    arrWord o 0x90 4 4 fun p => s.tbPort (portOf p),
    arrWord o 0x100 4 64 fun i => s.gcapReg (i / 4) (i % 4)]

/-! ## RGN (R55, R493, R494) -/

/-- The words of a Registration table entry (R55). -/
def RegEntry.words (e : RegEntry) : List Word :=
  [wd (e.offset + e.late * 2 ^ 28 + flag e.valid 31),
   wd (e.target + e.unit * 2 ^ 8 + e.action * 2 ^ 16 + e.part * 2 ^ 20), e.arg, wd e.repeatTicks]

/-- H and the hyperperiod count are 0 before the boot Outline takes effect (R54, R493). -/
def State.hpCount (s : State) : Word :=
  if s.outlineRuns then wd (tickOf s.now / s.otl.running.h) else 0

def State.regRgn (s : State) (o : Nat) : Option Word :=
  let r := s.rgn
  firstSome [
    [(0x00, wd (flag r.firing 0 + flag r.shadowLoaded 1 + flag s.tb.stepHold.isSome 2 + s.satBit .rgn)),
      (0x04, if s.outlineRuns then wd s.otl.running.h else 0), (0x08, s.hpCount),
      (0x0C, wd (s.otl.running.table.filter (·.valid)).length), (0x10, r.epochTime.w0), (0x14, r.epochTime.w1),
      (0x18, 0), (0x1C, 0), (0x34, 0)].lookup o,
    s.countRegs o 0x20 [.rgnLateDrop, .rgnLateDefer, .rgnLateReport, .rgnStepSkipped, .rgnProtectedWrite],
    arrWord o 0x800 4 128 fun w => wd (total ((List.range 32).map fun b => flag (r.disabled.contains (32 * w + b)) b)),
    arrWord o 0x10000 4 16384 fun i =>
      (((s.otl.running.table[i / 4]?).map RegEntry.words).getD []).getD (i % 4) 0]

/-! ## OTL (R495) -/

def OtlState.code : OtlState → Nat
  | .idle => 0 | .staging => 1 | .validating => 2 | .valid => 3 | .rejected => 4 | .armed => 5

def State.regOtl (s : State) (o : Nat) : Option Word :=
  let x := s.otl
  firstSome [
    [(0x00, wd (x.state.code + s.satBit .otl + x.code.toNat * 65536)), (0x04, 0), (0x08, 0), (0x0C, wd x.errWord),
      (0x10, wd x.stagedWords), (0x14, s.regs.commitTime.w0), (0x18, s.regs.commitTime.w1), (0x1C, 0), (0x20, 0),
      (0x24, x.epoch), (0x28, x.running.header.bodyCrc),
      (0x2C, wd (x.running.header.keyIndex + flag x.isBoot 8)), (0x3C, 0)].lookup o,
    s.countRegs o 0x30 [.otlCommitCount, .otlRefused, .otlCommitDiscard]]

/-! ## CORE (R123) -/

def CoreState.code : CoreState → Nat
  | .off => 0 | .idle => 1 | .running => 2 | .waitWeights => 3 | .selfTest => 4 | .retired => 5

/-- A descriptor of the jobs on a core is issued and has not acted, or waits on the arrays, with a property. -/
def State.coreIssued (s : State) (n : Nat) (p : Job → InFlight → Bool) : Bool :=
  (s.coreJobs n).any fun id => (s.job? id).any fun j => j.state = .running && j.slots.any fun x =>
    x.core = n && x.inFlight.any (p j)

/-- ARRAYS_BUSY (R123): the arrays load weights, stream activations or drain their pipeline. -/
def State.arraysBusy (s : State) (n : Nat) : Bool :=
  let c := s.core n
  (c.loading && decide (c.loadStart ≤ s.edge)) || (!c.feed.isEmpty && decide (s.edge < c.enterEdge)) ||
    c.banks.any fun b => b.state = .computing && decide (s.edge < b.written)

/-- The Drypoint path, and the Wash unit, may execute in this cycle: a descriptor of theirs is issued (R114, R165), or
the Wash unit transforms a Winograd strip (R182). -/
def State.drypointMay (s : State) (n : Nat) : Bool :=
  s.coreIssued n fun j i => i.stage = .issued && i.desc.engine j.chain.drypoint = .drypoint
def State.washMay (s : State) (n : Nat) : Bool :=
  s.coreIssued n fun j i =>
    let e := i.desc.engine j.chain.drypoint
    (i.stage = .issued && (e = .wash || e = .drypoint)) || (i.stage = .waiting && i.desc.op = 2 && i.desc.flag 11)

/-- CORE_STATUS (R123). The Wash unit drains a bank until its drain ends; within a descriptor of the Drypoint path or the
Wash unit, the cycles in which it executes are free (log 29). -/
def State.coreStatus (s : State) (n : Fin 36) : Word :=
  let c := s.core n
  let free := Config.freeWord s.fresh
  let dry := s.drypointMay n && bit free 4
  let wash := (c.banks.any fun b => b.state = .draining && decide (s.edge < b.drained)) || (s.washMay n && bit free 5)
  let busy := flag dry 4 + flag wash 5 + flag (s.arraysBusy n) 6
  wd (c.state.code + flag ((s.cluster (clusterOf n)).spare.any fun j => 9 * clusterOf n + j.val = n.val) 3 + busy +
    s.satBit (.core n))

/-- CORE_SLOT. -/
def State.coreSlotReg (s : State) (n : Nat) : Word :=
  match s.glb.slotMap.find? fun x => x.2.2 = n with
  | some x => wd (x.1 + 256 * x.2.1 + 2 ^ 31)
  | none => 0

/-- CORE_REPAIR_An. -/
def RepairMap.word (m : RepairMap) : Word := wd (m.rowA.toNat + 256 * m.rowB.toNat + 65536 * m.col.toNat)

/-- CORE_JOB_ID. DESIGN CHOICE: it shows the job of the arrays while the core also holds a Drypoint job; the manual names
one job only (log 29). -/
def Core.jobId (c : Core) : Word := c.job.getD (c.dryJob.getD 0)

def State.regCore (s : State) (n : Fin 36) (o : Nat) : Option Word :=
  let c := s.core n
  firstSome [
    [(0x00, s.coreStatus n), (0x04, c.jobId), (0x08, s.coreSlotReg n), (0x50, 0)].lookup o,
    arrWord o 0x10 4 4 fun a => (c.repair.getD a {}).word,
    s.countRegs o 0x20 [.coreCheckFail n 0, .coreCheckFail n 1, .coreCheckFail n 2, .coreCheckFail n 3,
      .coreCheckFailDp n, .coreWashResidue n, .coreWeightLoads n, .coreLoadWait n, .coreAccWait n,
      .coreT1Conflict n, .coreLateWeights n, .coreDescCount n]]

/-! ## PLT (R497) -/

/-- The lowest-numbered powered slice. -/
def State.lowSlice (s : State) : Option Nat := firstIdx 4 fun k => (s.plate k).powered

/-- Banks of the state area in slice `k`: equal shares of the powered slices, the remainder to the highest-numbered
ones (R231, log 29). -/
def State.stateBanks (s : State) (k : Nat) : Nat :=
  let banks := (total (s.otl.running.pools.map (·.recStreams)) * 8192 + 262143) / 262144
  let on := (List.range 4).filter fun j => (s.plate j).powered
  if on.contains k then banks / on.length + toBit (decide ((on.filter (k < ·)).length < banks % on.length)) else 0

/-- RESERVED of slice `k`: the manual does not say in which slices the KV pools and the staging area lie, so their
banks are free while the partitions' Outline has them (R198, R231, R255, log 29). -/
def State.reservedBanks (s : State) (k : Nat) : Nat :=
  if !(s.plate k).powered ∨ !s.outlineRuns then 0
  else
    let low := if s.lowSlice = some k then 16 + (if s.otl.running.pools.any (·.contexts != 0) then 36 + 32 else 0) else 0
    let pools := 16 + (total (s.otl.running.pools.map (·.kvPages)) + 63) / 64
    min 255 (low + s.stateBanks k + (Config.freeWord (s.fresh + k)).toNat % (pools + 1))

def State.plateReg (s : State) (k j : Nat) : Word :=
  let x := s.plate k
  match j with
  | 0 => wd (flag x.powered 0 + flag x.ready 1 + 256 * min 255 x.retired.length + 65536 * s.reservedBanks k)
  | 1 => s.count (.pltCorr (Fin.ofNat 4 k))
  | 2 => s.count (.pltUncorr (Fin.ofNat 4 k))
  | _ => wd (min 65535 ((s.edge - x.lastScrub) / edgesMs))

def State.regPlt (s : State) (o : Nat) : Option Word :=
  firstSome [
    [(0x100, wd (s.satBit .plt)), (0x104, 0)].lookup o,
    arrWord o 0 4 16 fun i => s.plateReg (i / 4) (i % 4)]

/-! ## TIR (R280) -/

/-- TIR_STATUS. -/
def State.tirStatus (s : State) : Word :=
  let t := s.tir
  wd (flag (t.objs.any (·.state = .verifying)) 0 + flag t.dirFull 1 + flag t.t2Short 2 + flag t.t3Short 3 +
    flag (t.objs.any fun o => o.state = .absent && o.refetch) 4 + flag t.mirrorInvalid 5 + s.satBit .tir)

def State.regTir (s : State) (o : Nat) : Option Word :=
  firstSome [
    [(0x00, s.tirStatus), (0x04, wd (65536 - s.dirUsed)), (0x08, wd s.t2Free), (0x0C, wd (s.unitsFree 3)),
      (0x10, wd (s.unitsFree 4)), (0x14, wd (s.tir.objs.filter fun x => x.state = .verifying).length),
      (0x48, s.tir.mirrorSeq), (0x4C, 0), (0xE0, s.regs.dirPart.setWidth 32), (0x100, 0)].lookup o,
    s.countRegs o 0x18 [.tirReadopted, .tirReadoptFail, .tirLateWeights, .tirPromotions, .tirEvictions,
      .tirDemotions, .tirDropped, .tirMirrorReads, .tirAllocWait, .tirSticky, .tirTimeouts, .tirLateDiscard],
    arrWord o 0x60 4 8 fun p => wd (s.useT2 p),
    arrWord o 0x80 4 8 fun p => wd (s.useT3 p),
    arrWord o 0xA0 4 8 fun p => wd (s.useT4 p),
    arrWord o 0xC0 4 8 fun p => (s.regs.readahead.getD p 1).setWidth 32,
    arrWord o 0x104 4 16 fun w => s.tir.dirResult.getD w 0]

/-! ## CHN (R302) and LNW (R303) -/

def ChanState.code : ChanState → Nat
  | .off => 0 | .training => 1 | .active => 2 | .retraining => 3 | .spare => 4 | .retired => 5 | .lost => 6

/-- The six registers of a channel. -/
def State.chanReg (s : State) (ch : Channel) (k : Nat) : Option Word :=
  let c := s.memChan ch
  match k with
  | 0 => some (wd (c.state.code + 256 * c.logical.toNat + flag c.cs1 16))
  | 1 => some (s.count (chRetries ch))
  | 2 => some (s.count (chCorr ch))
  | 3 => some (s.count (chUncorr ch))
  | 4 => some (s.count (chRetrains ch))
  | 5 => some (c.train.setWidth 32)
  | _ => none

def State.regChn (s : State) (o : Nat) : Option Word :=
  let c := s.chn
  firstSome [
    [(0xC00, wd (flag c.t4Available 0 + flag c.t3Lost 1 + flag c.t3Closed 2 + flag c.t4Closed 3 + s.satBit .chn)),
      (0xC04, wd (c.golent.filter fun x => x.state = .spare).length), (0xC08, 0), (0xC0C, 0)].lookup o,
    (arr o 0 4 (66 * 8)).bind fun i => s.chanReg (.golent (Fin.ofNat 66 (i / 8))) (i % 8),
    (arr o 0x900 4 (16 * 8)).bind fun i => s.chanReg (.board (Fin.ofNat 16 (i / 8))) (i % 8)]

/-- LNW_BUDGET_Mmm of the partition in LNW_SEL; codes that R300 does not list read 0. -/
def State.budgetReg (s : State) (m : Nat) : Word :=
  let b := budgetOf s.lnw.budgets s.regs.sel.toNat m
  if budgetMaster m then wd (b.min.toNat + 65536 * b.share.toNat) else 0

def State.regLnw (s : State) (o : Nat) : Option Word :=
  firstSome [
    [(0x00, wd (s.satBit .lnw)), (0x1C, 0), (0x20, s.regs.sel.setWidth 32)].lookup o,
    s.countRegs o 0x04 [.lnwCorr, .lnwUncorr, .lnwTimeouts, .lnwLateDiscard, .lnwLowered, .lnwRejected],
    arrWord o 0x100 4 32 s.budgetReg]

/-! ## ING (R336) and TRC (R337) -/

def StreamState.code : StreamState → Nat
  | .off => 0 | .waiting => 1 | .active => 2 | .stale => 3

/-- The eight registers of stream `n`. -/
def State.streamReg (s : State) (n : Fin 48) (k : Nat) : Word :=
  let x := s.ing.streams.getD n {}
  match k with
  | 0 => wd (x.state.code + flag x.frozen 2 + flag x.clock.unsync 3 + flag x.clock.locked 4 + flag x.drift 5 +
      256 * min 15 x.repeatRun)
  | 1 => s.count (.ingFrames n)
  | 2 => s.count (.ingDrops n)
  | 3 => s.count (.ingRepeats n)
  | 4 => iw x.clock.rate
  | 5 => iw x.clock.resid
  | 6 => s.count (.ingDrifts n)
  | _ => s.count (.ingOutliers n)

def State.regIng (s : State) (o : Nat) : Option Word :=
  let ss := s.ing.streams
  firstSome [
    [(0x00, wd (flag (ss.any (·.frozen)) 0 + flag (ss.any fun x => x.state = .stale) 1 +
        flag (ss.any (·.clock.unsync)) 2 + s.satBit .ing)), (0x04, 0)].lookup o,
    arrWord o 0x10 4 16 fun p =>
      let c := s.ing.ports.getD p {}
      wd (c.lanes % 8 + 65536 * min 4095 c.rate),
    arrWord o 0x50 4 16 fun p => s.count (.ingPortErr (Fin.ofNat 16 p)),
    arrWord o 0x100 4 (48 * 8) fun i => s.streamReg (Fin.ofNat 48 (i / 8)) (i % 8)]

/-- The number of set bits of a history. -/
def popCount60 (w : BitVec 60) : Nat := ((List.range 60).filter fun i => w.getLsbD i).length

/-- TRC_CAL_s. -/
def State.calReg (s : State) (k : Nat) : Word :=
  let c := s.calOf k
  wd (flag c.limit 0 + flag (!c.demotions.isEmpty) 1 + 4 * popCount60 c.history)

/-- TRC_STATUS. -/
def State.trcStatus (s : State) : Word :=
  let t := s.trc
  let st := if t.retired then 3 else if !s.trcOn then 0 else if t.holder = 0 then 1 else 2
  wd (st + flag t.ego.valid 2 + flag (t.table.tracks.any (·.conflicted)) 3 + flag t.tableFull 4 + s.satBit .trc)

def State.regTrc (s : State) (o : Nat) : Option Word :=
  let ts := s.trc.table.tracks
  firstSome [
    [(0x00, s.trcStatus), (0x04, s.trc.holder),
      (0x08, wd (ts.length + 65536 * (ts.filter fun t => t.state = .confirmed).length)), (0x20, 0), (0x24, 0)].lookup o,
    s.countRegs o 0x0C [.trcBirthRefused, .trcConflicts, .trcDemotions, .trcSensorFaults, .trcLateLists],
    arrWord o 0x30 4 9 fun w => s.trc.egoCap.getD w 0,
    arrWord o 0x100 8 48 s.calReg,
    arrWord o 0x104 8 48 fun k => s.count (.trcCalViol (Fin.ofNat 48 k))]

/-! ## XH (R357) and STY (R375) -/

/-- XH_STATUS. -/
def State.xhStatus (s : State) : Word :=
  let x := s.xh
  let on := s.otl.running.domain 21 && s.otl.running.unitRun.getLsbD 2
  let st := if x.retired then 3 else if !on then 0 else if x.run.isSome then 2 else 1
  wd (st + flag (x.gen != 0) 2 + flag x.publish.isSome 3 + s.satBit .xh)

def State.regXh (s : State) (o : Nat) : Option Word :=
  firstSome [
    [(0x00, s.xhStatus), (0x04, s.xh.gen), (0x08, (s.xh.run.map (·.job)).getD 0), (0x2C, 0)].lookup o,
    s.countRegs o 0x0C [.xhQueries, .xhNoPath, .xhTimeouts, .xhRepairs, .xhRepairFailed, .xhTruncated,
      .xhPlanStale, .xhCacheMiss],
    arrWord o 0x100 4 16 fun n =>
      let p := s.planOf n
      wd (p.path.length + 65536 * p.seq.toNat)]

def EngState.code : EngState → Nat
  | .off => 0 | .active => 1 | .spare => 2 | .retired => 3

def ChanRun.code : ChanRun → Nat
  | .unused => 0 | .waitRef => 1 | .running => 2 | .fault => 3

/-- STY_ENG_e: its load is cut to whole units of 10^5 (R359, log 29). -/
def State.engReg (s : State) (e : Nat) : Word :=
  let x := s.sty.engines.getD e {}
  let cs := if x.state = .active then (assignEngines s.sty.lanes s.otl.running.channels).getD x.serves [] else []
  let load := ((engineLoad cs) / 100000).floor.toNat
  wd (x.state.code + 4 * (x.serves % 8) + 256 * min 255 cs.length + 65536 * min 65535 load)

/-- STY_CH_c. -/
def State.chReg (s : State) (c : Nat) : Word :=
  let x := s.styChannel c
  wd (x.run.code + 4 * ((s.engineOf c).getD 0) + 32 * min 7 x.missRun)

/-- STY_STATUS; NO_SPARE is 0 while no engine is in service (log 29). -/
def State.styStatus (s : State) : Word :=
  let es := s.sty.engines
  wd (flag (!s.otl.running.channels.isEmpty) 0 +
    flag ((es.any fun e => e.state = .active) && !(es.any fun e => e.state = .spare)) 1 +
    flag (s.sty.channels.any fun c => c.run = .fault) 2 + s.satBit .sty)

def State.regSty (s : State) (o : Nat) : Option Word :=
  firstSome [
    [(0x00, s.styStatus), (0x04, wd (flag (s.sty.engines.any fun e => e.state = .spare) 0)), (0x28, 0)].lookup o,
    s.countRegs o 0x08 [.styLaunches, .styMissed, .styChFaults, .styHolds, .styEngineFaults, .styRefBad,
      .styOutSat, .styIClamp],
    arrWord o 0x40 4 5 s.engReg,
    arrWord o 0x200 8 128 s.chReg,
    arrWord o 0x204 8 128 fun c =>
      let x := s.styChannel c
      wd (x.lastPassed.toNat + 65536 * x.ref.toNat)]

/-! ## ETH (R404) -/

def BypassState.code : BypassState → Nat
  | .closed => 0 | .armed => 1 | .open_ => 2 | .failed => 3

/-- ETH_PORT_p and the counters of port `p`. -/
def State.portReg (s : State) (p : Port) (k : Nat) : Option Word :=
  let x := s.ethPort p
  match k with
  | 0 => some (wd (flag x.link 0 + 2 * (x.speed % 4) + flag (x.link && x.phyMaster) 3 + flag x.macsecUp 4 +
      flag (s.gptpOn p) 5 + flag x.preemptVerified 6))
  | 1 => some (s.count (.ethRxFrames p))
  | 2 => some (s.count (.ethRxDrop p))
  | 3 => some (s.count (.ethPsfpDrop p))
  | 4 => some (s.count (.ethFrerDup p))
  | 5 => some (s.count (.ethFrerRogue p))
  | 6 => some (s.count (.ethMacsecDrop p))
  | 7 => some (s.count (.ethLinkDown p))
  | 8 => some (s.count (.ethTxFrames p))
  | _ => none

/-- ETH_PARTNER_HI_n and _LO_n: the seconds of TTL left are rounded up and stop at 15 (log 29). -/
def State.partnerReg (s : State) (n k : Nat) : Word :=
  match s.eth.partners.getD n none with
  | none => 0
  | some x =>
    if k = 0 then x.chassis.extractLsb' 16 32
    else
      let left := (x.expiry.foldl max 0 - s.edge + edgesSec - 1) / edgesSec
      wd (65536 * (x.chassis.toNat % 65536) + 256 * min 15 left +
        total (x.expiry.zipIdx.map fun e => flag (decide (s.edge < e.1)) (1 + e.2)) + 1)

def State.regEth (s : State) (o : Nat) : Option Word :=
  let e := s.eth
  firstSome [
    [(0x00, wd (total (e.ports.zipIdx.map fun p => flag p.1.link p.2) + s.satBit .eth)), (0x04, 0),
      (0x08, Config.macBase.extractLsb' 16 32), (0x0C, (Config.macBase.extractLsb' 0 16).setWidth 32),
      (0x10, Config.oui.setWidth 32), (0x14, s.regs.ipAddr), (0x18, s.regs.limRto.setWidth 32),
      (0x1C, wd (total (e.sessions.zipIdx.map fun x => flag x.1.open_ x.2))),
      (0x20, wd (e.bypass.code + 4 * e.attempts.toNat + flag e.openFail 4 + flag s.notInRing 5)),
      (0x24, s.regs.lead.setWidth 32), (0x28, e.bypassTime.w0), (0x2C, e.bypassTime.w1)].lookup o,
    s.countRegs o 0x30 [.ethGateMiss, .ethFwdDiscard, .ethPartnerFull, .ethLimBad, .ethLimOoo, .ethLimRetx,
      .ethLimLost, .ethCqOverwrite],
    (arr o 0x100 4 64).bind fun i => s.portReg (portOf (i / 16)) (i % 16),
    arrWord o 0x400 4 128 fun i => s.partnerReg (i / 2) (i % 2)]

/-! ## PRF (R430) and BRN (R450) -/

def ProofState.code : ProofState → Nat
  | .run => 0 | .degraded => 1 | .stopped => 2 | .safeState => 3

/-- Every rule of a type in the running rule sets passes a test; false before an Outline runs (log 29). -/
def State.allRules (s : State) (type : Nat) (p : Nat → RuleWords → Bool) : Bool :=
  s.outlineRuns && s.otl.running.ruleSets.all fun x => x.rules.all fun r => r.type != type || p x.set r

/-- PRF_STATUS. -/
def State.prfStatus (s : State) : Word :=
  wd (s.prf.state.code + flag s.prf.readA 2 + flag s.prf.readB 3 +
    flag (s.allRules 11 fun set r => !s.wdiBad set r) 4 +
    flag (s.allRules 4 fun _ r => s.tapLive (fld r.e1 7 0) r.e4.toNat) 5 + s.satBit .prf)

/-- PRF_SET_s. -/
def State.setReg (s : State) (n : Nat) : Word :=
  let r := s.prf.sets.getD n {}
  wd (min 255 (r.window.filter (·.disagreed)).length + 256 * min 255 (((s.ruleSet n).map (·.m)).getD 0) +
    flag r.escalated 16 + (if r.escalated then 2 ^ 17 * (r.action % 4) else 0))

/-- PRF_COVER_u: no pass has begun before jobs-ready. -/
def State.coverReg (s : State) (u : Nat) : Word :=
  let x := s.slice u
  let since := if s.glb.stage = .ready then s.edge - max x.passStart s.prf.coverFrom else 0
  wd (min 65535 (since / edgesMs) + 65536 * min 65535 x.passed.length)

def State.regPrf (s : State) (o : Nat) : Option Word :=
  let p := s.prf
  firstSome [
    [(0x00, s.prfStatus), (0x04, p.safeCause.setWidth 32), (0x08, wd p.faultBits), (0x0C, p.stopSeq), (0x10, 0),
      (0x14, wd (total (p.sets.zipIdx.map fun r => flag r.1.escalated r.2))),
      (0x44, wd (p.clkCtrl.toNat + 65536 * p.clkAon.toNat)), (0x48, wd (min 0xFFFFFFFF p.timeHoldMax)),
      (0x4C, wd (p.boxes.filter (·.isSome)).length)].lookup o,
    s.countRegs o 0x18 [.prfDisagree, .prfReruns, .prfMissedLaunch, .prfFrozenEvents, .prfSliceAbort,
      .prfSliceSkip, .prfSliceFail, .prfDiagMissed, .prfGateFail, .prfEccCorr, .prfReleaseRefused],
    arrWord o 0x80 4 16 s.setReg,
    arrWord o 0xC4 4 7 fun i => s.coverReg (i + 1)]

/-- The device is DEGRADED (R438 to R440). -/
def State.deviceDegraded (s : State) : Bool :=
  s.brn.degraded != 0 || (List.range 16).any s.routerLost ||
    ((s.outlineRuns || s.glb.stage = .outlineRecovery) && decide (s.brn.ctrlActive.length < 4))

/-- BRN_SLOTS_Pp. -/
def State.slotsReg (s : State) (p : Nat) : Word :=
  match s.partRec p with
  | none => 0
  | some r => wd ((s.liveSlots p).length + 256 * r.floor + 65536 * r.slots)

/-- BRN_CLUSTER_c. -/
def State.clusterReg (s : State) (c : Nat) : Word :=
  let x := s.cluster c
  let mine := (List.range 9).map (9 * c + ·)
  wd (total (mine.zipIdx.map fun p => flag (s.coreRetiredNow p.1) p.2) + 4096 * ((x.spare.map (·.val)).getD 15) +
    flag x.suspended 16 + flag (mine.any fun n => (s.core n).diagnosing) 17)

def State.regBrn (s : State) (o : Nat) : Option Word :=
  let b := s.brn
  firstSome [
    [(0x00, wd (flag s.deviceDegraded 0 + flag b.ctrlSpare.isNone 1 + flag (s.lnw.routers.any (·.onShadow)) 2 +
        flag b.overrun 3 + flag b.preReset 4 + s.satBit .brn)), (0x04, b.degraded.setWidth 32),
      (0x08, wd b.log.length), (0x0C, 0), (0x10, b.seq), (0x34, 0)].lookup o,
    s.countRegs o 0x14 [.brnRotationLate, .brnRestarts, .brnSpared, .brnRetired, .brnTransient, .brnLogLost,
      .brnPllSwitch, .brnPlateCorr],
    arrWord o 0x40 4 8 s.slotsReg,
    arrWord o 0x60 4 8 fun w => ((b.log.head?.map ErrorRecord.words).getD []).getD w 0,
    arrWord o 0x80 4 4 fun k => wd (s.plate k).sparesLeft,
    arrWord o 0x90 4 4 s.clusterReg]

/-! ## SEC (R464) and CTX (R199, R224, R225, R249) -/

/-- SEC_STATUS. -/
def State.secStatus (s : State) : Word :=
  let x := s.sec
  wd (x.lock.code + flag (s.glb.stage = .firmwareRecovery) 2 + flag x.bootWrite.isSome 3 + flag x.bootRefused 4 +
    flag x.keyRefused 5 + 64 * x.revoked.toNat)

def State.regSec (s : State) (o : Nat) : Option Word :=
  let x := s.sec
  firstSome [
    [(0x00, s.secStatus), (0x04, 0), (0x08, 0), (0x0C, 0), (0x10, wd (x.rollback.toNat + 256 * x.version.toNat)),
      (0x14, 0), (0x18, 0), (0x1C, s.regs.cak.setWidth 32)].lookup o,
    arrWord o 0x40 4 16 fun n =>
      let k := x.slots.getD n {}
      wd (flag k.valid 0 + flag k.model 1 + flag k.state 2 + flag k.cak 3),
    arrWord o 0x80 4 16 fun n => (x.slots.getD n {}).exports_,
    arrWord o 0x100 4 24 Config.idKey]

def CtxState.code : CtxState → Nat
  | .free => 0 | .active => 1 | .damaged => 2

/-- The 16 words of a context table entry (R199, R225). -/
def Context.words (c : Context) : List Word :=
  let rec_ := c.rec_.isSome
  let g := c.rec_.getD {}
  [wd (c.state.code + flag c.kv 2 + flag rec_ 3 + 16 * c.part + flag (c.holder != 0) 7 + 256 * c.layers +
      65536 * c.groups + 2 ^ 24 * c.fmt + flag c.mirror 28),
   wd (c.length + 2 ^ 18 * c.heads), wd (c.window + 65536 * c.sink + 2 ^ 24 * c.recent),
   wd (c.budget + 65536 * c.shift), c.root.setWidth 32, c.holder,
   if !rec_ then 0 else wd ((if g.resident then g.addr.toNat else 0) + flag g.resident 22 + flag g.swapBusy 23),
   if !rec_ then 0 else wd (g.units + 2 ^ 24 * g.lookahead), c.lastCommit.w0, c.lastCommit.w1,
   wd (total (c.lgs.map LayerGroup.live)), c.gen, 0, 0, 0, 0]

/-- Word `w` of CTX_ENTRY_n; another partition's context reads zeros (R488). -/
def State.ctxEntryReg (s : State) (viewer : Option Nat) (n w : Nat) : Word :=
  if viewer.any fun p => !s.inRange p n then 0
  else match s.context? n with
    | none => 0
    | some c => c.words.getD w 0

def State.regCtx (s : State) (viewer : Option Nat) (o : Nat) : Option Word :=
  let c := s.ctx
  firstSome [
    [(0x100000, wd (flag c.enabled 0 + flag c.noFrames 1 + flag c.noRecords 2 + s.satBit .ctx)),
      (0x100004, wd s.freeRecords), (0x100040, 0)].lookup o,
    s.countRegs o 0x100008 [.ctxCowCopies, .ctxSticky, .ctxEvicted, .ctxLimitHits, .ctxDamaged],
    s.countRegs o 0x100044 [.ctxRecSwapIn, .ctxRecSwapOut, .ctxRecGateSamples],
    s.countRegs o 0x100070 [.ctxRecImportReject],
    arrWord o 0x100020 4 8 fun p => wd (s.freeFrames p),
    arrWord o 0x100050 4 8 fun p => wd (s.regionBytes p),
    arrWord o 0 4 (16384 * 16) fun i => s.ctxEntryReg viewer (i / 16) (i % 16)]

/-! ## One access (R482 to R488) -/

/-- The block of an address and the offset in it (R482); none outside every block. -/
def blockOf (a : Nat) : Option (Block × Nat) :=
  if a < 0x10000 then some (.glb, a)
  else if a < 0x20000 then some (.tb, a - 0x10000)
  else if a < 0x40000 then some (.rgn, a - 0x20000)
  else if a < 0x100000 then some (.otl, a - 0x40000)
  else if a < 0x340000 then some (.core (Fin.ofNat 36 ((a - 0x100000) / 0x10000)), (a - 0x100000) % 0x10000)
  else if a < 0x400000 then none
  else if a < 0x1000000 then
    some ([Block.plt, .tir, .chn, .lnw, .ing, .trc, .xh, .sty, .eth, .prf, .brn, .sec].getD
      ((a - 0x400000) / 0x100000) .sec, a % 0x100000)
  else if a < 0x2000000 then some (.ctx, a - 0x1000000)
  else none

/-- What a register of a block reads as; none where the offset is unmapped (R483). -/
def State.blockReg (s : State) (viewer : Option Nat) (b : Block) (o : Nat) : Option Word :=
  match b with
  | .glb => s.regGlb o
  | .tb => s.regTb o
  | .rgn => s.regRgn o
  | .otl => s.regOtl o
  | .core n => s.regCore n o
  | .plt => s.regPlt o
  | .tir => s.regTir o
  | .chn => s.regChn o
  | .lnw => s.regLnw o
  | .ing => s.regIng o
  | .trc => s.regTrc o
  | .xh => s.regXh o
  | .sty => s.regSty o
  | .eth => s.regEth o
  | .prf => s.regPrf o
  | .brn => s.regBrn o
  | .sec => s.regSec o
  | .ctx => s.regCtx viewer o

/-- The word at an address of the control space as a session of partition `viewer` reads it, none for a device
session; the boot ROM serves the SEC block alone (R454, R482, R483). -/
def State.readWord (s : State) (viewer : Option Nat) (a : Nat) : Option Word :=
  if a % 4 ≠ 0 then none
  else match blockOf a with
    | none => none
    | some (b, o) => if s.glb.stage = .firmwareRecovery ∧ b ≠ .sec then none else s.blockReg viewer b o

/-- The side effects of a read (R487): TB_GCAP_HI_n removes its head entry, the LO words latch their HI words, and a
HI word gives up its latch. A read uses up a place of the free values (log 2). -/
def State.readEffect (a : Nat) (s : State) : State :=
  let s := { s with fresh := s.fresh + 8 }
  match blockOf a with
  | some (.tb, 0x2C) => s.updTb fun t => { t with stepOffsetHi := some (t.stepOffset.extractLsb' 32 32) }
  | some (.tb, 0x30) => s.updTb fun t => { t with stepOffsetHi := none }
  | some (.tb, 0x54) => s.updTb fun t => { t with ppsCapHi := some t.ppsCap.w1 }
  | some (.tb, 0x58) => s.updTb fun t => { t with ppsCapHi := none }
  | some (.tb, o) => match arr o 0x108 0x10 16 with
    | some n => s.updTb fun t => { t with pins := t.pins.modify n fun q => { q with fifo := q.fifo.drop 1 } }
    | none => s
  | _ => s

/-- `n` words from an address in ascending order, up to the first unmapped one: the words, whether all are mapped,
and the state after the reads (R399, R487). -/
def State.readWords (viewer : Option Nat) : Nat → Nat → State → List Word × Bool × State
  | 0, _, s => ([], true, s)
  | n + 1, a, s => match s.readWord viewer a with
    | none => ([], false, s)
    | some w =>
      let r := State.readWords viewer n (a + 4) (s.readEffect a)
      (w :: r.1, r.2)

/-- The state after a command of another row, which a register write stands for. -/
def State.after (o : Host.Outcome State Fault Refusal) (s : State) : State :=
  match o with
  | .next t => t
  | _ => s

/-- A write of a register that only the host changes, where the value is in its range (R485). -/
def State.setIf (ok : Bool) (f : HostRegs → HostRegs) (s : State) : State := if ok then s.updRegs f else s

def State.writeGlb (o : Nat) (v : Word) (s : State) : State :=
  match o with
  | 0x04 => let t := s.after (execGlbResetCold v s); t.after (execGlbResetWarm v t)
  | 0x08 => s.after (execGlbPartReset v s)
  | 0x28 => s.after (execGlbAvsLimit v s)
  | 0x2C => s.after (execLockSet .glb v s)
  | _ => s

/-- Writes to TB (R41, R46, R489, R491). -/
def State.writeTb (o : Nat) (v : Word) (s : State) : State :=
  let free := !s.regs.tbLock
  match o with
  | 0x00 => s.updTb fun t => { t with
      timeJumpRefused := t.timeJumpRefused && !bit v 4, ppsLost := t.ppsLost && !bit v 6
      trimClamped := t.trimClamped && !bit v 7 }
  | 0x04 => s.after (execTbCapture v s)
  | 0x20 => let n := fld v 19 0
    s.setIf (free && decide (10 ≤ n) && decide (n ≤ 1000000)) fun r => { r with syncThresh := BitVec.ofNat 20 n }
  | 0x24 => let n := fld v 29 0
    s.setIf (free && decide (100 ≤ n) && decide (n ≤ 1000000000)) fun r => { r with stepLimit := BitVec.ofNat 30 n }
  | 0x28 => s.after (execTbStepAccept v s)
  | 0x34 => s.updRegs fun r => { r with setSecHi := v.setWidth 16 }
  | 0x38 => s.updRegs fun r => { r with setSecLo := v }
  | 0x3C => let n := fld v 29 0
    s.setIf (decide (n < 1000000000)) fun r => { r with setNs := BitVec.ofNat 30 n }
  | 0x40 => s.after (execTbSetGo v s)
  | 0x44 => s.after (execTbAdj v s)
  | 0x4C => if free then (s.updRegs fun r => { r with ppsOutEn := bit v 0 }).setInMode (bit v 1) else s
  | 0x50 => let n := fld v 18 0
    s.setIf (free && decide (1 ≤ n) && decide (n ≤ 500000)) fun r => { r with ppsWidth := BitVec.ofNat 19 n }
  | 0x5C => s.setIf free fun r => { r with gpioFilter := v.setWidth 8 }
  | 0x68 => s.after (execTbGpioOut v s)
  | 0x6C => s.after (execLockSet .tb v s)
  | 0x80 => s.after (execCntClear .tb v s)
  | _ => s

def State.writeRgn (o : Nat) (v : Word) (s : State) : State :=
  match o with
  | 0x18 => s.after (execRgnEntryDisable v s)
  | 0x1C => s.after (execRgnEntryEnable v s)
  | 0x34 => s.after (execCntClear .rgn v s)
  | _ => s

/-- A write of a word of OTL_COMMIT_TIME is refused while ARMED (R496). -/
def State.commitTimeWrite (f : Compact → Compact) (s : State) : State :=
  if s.otl.state = .armed then s.otlRefuse else s.updRegs fun r => { r with commitTime := f r.commitTime }

def State.writeOtl (o : Nat) (v : Word) (s : State) : State :=
  match o with
  | 0x04 => s.after (execOtlStageBegin v s)
  | 0x08 => s.after (execOtlValidate v s)
  | 0x14 => s.commitTimeWrite fun c => { c with w0 := v }
  | 0x18 => s.commitTimeWrite fun c => { c with w1 := v }
  | 0x1C => s.after (execOtlCommitArm v s)
  | 0x20 => s.after (execOtlCancel v s)
  | 0x3C => s.after (execCntClear .otl v s)
  | _ => s

/-- Writes to TIR (R280); only a device session writes, so the query searches the partition in TIR_DIR_PART. -/
def State.writeTir (o : Nat) (v : Word) (s : State) : State :=
  match o with
  | 0x00 => s.updTir fun t => { t with
      dirFull := t.dirFull && !bit v 1, t2Short := t.t2Short && !bit v 2, t3Short := t.t3Short && !bit v 3
      mirrorInvalid := t.mirrorInvalid && !bit v 5 }
  | 0x4C => s.after (execCntClear .tir v s)
  | 0xE0 => s.updRegs fun r => { r with dirPart := v.setWidth 3 }
  | 0x100 => s.dirQuery s.regs.dirPart.toNat v
  | _ => match arr o 0xC0 4 8 with
    | some p => s.setIf (decide (fld v 4 0 ≤ 16)) fun r =>
        { r with readahead := r.readahead.set p (v.setWidth 5) }
    | none => s

def State.writeChn (o : Nat) (v : Word) (s : State) : State :=
  match o with
  | 0xC08 => s.after (execChnRetrain v s)
  | 0xC0C => s.after (execCntClear .chn v s)
  | _ => s

def State.writeLnw (o : Nat) (v : Word) (s : State) : State :=
  match o with
  | 0x1C => s.after (execCntClear .lnw v s)
  | 0x20 => s.updRegs fun r => { r with sel := v.setWidth 3 }
  | _ => match arr o 0x100 4 32 with
    | some m => s.after (execLnwBudget (Fin.ofNat 32 m) v s)
    | none => s

def State.writeIng (o : Nat) (v : Word) (s : State) : State :=
  if o = 0x04 then s.after (execCntClear .ing v s)
  else match arr o 0x100 0x20 48 with
    | some n => s.updIng fun g => { g with streams := g.streams.modify n fun x => { x with drift := x.drift && !bit v 5 } }
    | none => s

def State.writeTrc (o : Nat) (v : Word) (s : State) : State :=
  match o with
  | 0x00 => s.updTrc fun t => { t with tableFull := t.tableFull && !bit v 4 }
  | 0x20 => s.after (execCntClear .trc v s)
  | 0x24 => s.after (execTrcEgoCapture v s)
  | _ => s

/-- Writes to ETH (R404). -/
def State.writeEth (o : Nat) (v : Word) (s : State) : State :=
  match o with
  | 0x04 => s.after (execCntClear .eth v s)
  | 0x14 => s.updRegs fun r => { r with ipAddr := v }
  | 0x18 => let n := fld v 16 0
    s.setIf (decide (100 ≤ n) && decide (n ≤ 100000)) fun r => { r with limRto := BitVec.ofNat 17 n }
  | 0x20 => s.updEth fun e => { e with openFail := e.openFail && !bit v 4 }
  | 0x24 => s.bypassCtrl v
  | _ => s

def State.writeBrn (o : Nat) (v : Word) (s : State) : State :=
  match o with
  | 0x00 => s.updBrn fun b => { b with overrun := b.overrun && !bit v 3, preReset := b.preReset && !bit v 4 }
  | 0x0C => s.after (execBrnLogPop v s)
  | 0x34 => s.after (execCntClear .brn v s)
  | _ => s

/-- Writes to SEC (R455 to R462, R464). -/
def State.writeSec (o : Nat) (v : Word) (s : State) : State :=
  match o with
  | 0x00 => s.updSec fun x => { x with bootRefused := x.bootRefused && !bit v 4, keyRefused := x.keyRefused && !bit v 5 }
  | 0x04 => s.after (execSecLockAdvance v s)
  | 0x08 => s.after (execSecKeyInstall v s)
  | 0x0C => s.after (execSecRevoke v s)
  | 0x14 => s.after (execSecRollbackCommit v s)
  | 0x18 => let t := s.after (execSecBootWriteFirmware v s); t.after (execSecBootWriteOutline v t)
  | 0x1C => s.updRegs fun r => { r with cak := v.setWidth 8 }
  | _ => s

def State.writeCtx (o : Nat) (v : Word) (s : State) : State :=
  match o with
  | 0x100000 => s.updCtx fun c => { c with noFrames := c.noFrames && !bit v 1, noRecords := c.noRecords && !bit v 2 }
  | 0x100040 => s.after (execCntClear .ctx v s)
  | _ => s

/-- A write of a mapped register: its own effect, or ignored (R10, R485). -/
def State.writeReg (b : Block) (o : Nat) (v : Word) (s : State) : State :=
  match b with
  | .glb => s.writeGlb o v
  | .tb => s.writeTb o v
  | .rgn => s.writeRgn o v
  | .otl => s.writeOtl o v
  | .core n => if o = 0x50 then s.after (execCntClear (.core n) v s) else s
  | .plt => if o = 0x104 then s.after (execCntClear .plt v s) else s
  | .tir => s.writeTir o v
  | .chn => s.writeChn o v
  | .lnw => s.writeLnw o v
  | .ing => s.writeIng o v
  | .trc => s.writeTrc o v
  | .xh => if o = 0x2C then s.after (execCntClear .xh v s) else s
  | .sty => if o = 0x28 then s.after (execCntClear .sty v s) else s
  | .eth => s.writeEth o v
  | .prf => if o = 0x10 then s.after (execPrfRelease v s) else s
  | .brn => s.writeBrn o v
  | .sec => s.writeSec o v
  | .ctx => s.writeCtx o v

/-- Words written from an address in ascending order, up to the first unmapped one: how many, whether all are mapped,
and the state after the writes (R399, R483, R485). -/
def State.writeWords : List Word → Nat → State → Nat × Bool × State
  | [], _, s => (0, true, s)
  | v :: r, a, s => match s.readWord none a, blockOf a with
    | some _, some (b, o) =>
      if s.glb.stage = .firmwareRecovery then (0, false, s)
      else
        let x := State.writeWords r (a + 4) (s.writeReg b o v)
        (x.1 + 1, x.2)
    | _, _ => (0, false, s)

/-! ## The two commands (R399) -/

/-- REG_READ (R399): 1 to 64 words from any session. -/
def execRegRead (sess : Fin 16) (tag addr : Word) (count : Nat) (s : State) : Host.Outcome State Fault Refusal :=
  .next (s.request sess fun x s =>
    if count < 1 ∨ 64 < count then s.sendTo sess (.regData tag 0x16 [])
    else
      let r := s.readWords x.part count addr.toNat
      r.2.2.sendTo sess (.regData tag (if r.2.1 then 0 else 0x11) r.1))

/-- REG_WRITE (R399): 1 to 64 words from a device session; a partition session gets NO_RIGHTS. -/
def execRegWrite (sess : Fin 16) (tag addr : Word) (values : List Word) (s : State) : Host.Outcome State Fault Refusal :=
  .next (s.request sess fun x s =>
    if x.part.isSome then s.sendTo sess (.regAck tag 0x10 0)
    else if values.isEmpty ∨ 64 < values.length then s.sendTo sess (.regAck tag 0x16 0)
    else
      let r := s.writeWords values addr.toNat
      r.2.2.sendTo sess (.regAck tag (if r.2.1 then 0 else 0x11) r.1))

end Sys2Proof.Machine
end

