-- ==== Sys2Proof/Machine/Seal.lean ====
section
/-!
DEFINITION. The seal edge of a job (R153): its outputs, its record logs and its journals become visible together
(R171, R206, R208, R233, R253, R330, R344, R353).
-/

namespace Sys2Proof.Machine

open Sys2Proof

/-- Length of a sealed output: that of its OBJECT_PLACE entry, or one past the highest byte written, in whole 4 KiB
(R253). -/
def OutputState.sealLen (o : OutputState) : Nat := o.fixedLen.getD (4096 * max 1 (unitsOf o.extent))

/-- The record logs of the final attempt as an output, slot 0 first (R171). -/
def State.logOutput (s : State) (j : Job) : OutputState :=
  let id := j.outBase + wd j.chain.outputs
  let bytes := (j.slots.flatMap (·.records)).flatMap fun r => wordsBytes r.words
  { obj := id, data := Memory.ofBytes bytes, extent := bytes.length
    fixedLen := (s.placeOf j.part id).map fun e => 4096 * e.size }

/-- What a job seals (R153). -/
def State.sealedOutputs (s : State) (j : Job) : List OutputState :=
  (j.outs ++ if j.chain.log then [s.logOutput j] else []).filter fun o => isDirectory o.obj

/-- One output becomes the newest version of its ID (R253). -/
def State.sealOne (j : Job) (o : OutputState) (s : State) : State :=
  s.sealOutput j.part o.obj j.id o.sealLen (Memory.truncate o.data o.sealLen)

/-! ## The context journal (R206, R208, R233) -/

/-- Pages of a context whose position 15 is committed (R208). -/
def Context.fullPages (c : Context) : List Nat :=
  c.lgs.flatMap fun l => (l.ptes.filter fun e => e.valid && decide (16 * (e.index + 1) ≤ l.filled)).map (·.page)

/-- The region that a seal leaves: the working copy, with no snapshot of it (R233, R242). -/
def StateRegion.committed (edge : Nat) (r : StateRegion) : StateRegion :=
  { r with resident := true, swapBusy := false, clean := false, snapshot := none, snapMirror := none, snapGone := []
           lastSeal := edge }

/-- A context as the journal of its holder leaves it (R206). -/
def Context.applied (new : Context) (region : Bool) (edge : Nat) (now : Compact) (c : Context) : Context :=
  if !region ∧ new.lgs = c.lgs ∧ new.recFrames = c.recFrames then c
  else { c with
    lgs := new.lgs, recFrames := new.recFrames, gen := c.gen + 1, lastCommit := now
    rec_ := if region then new.rec_.map (StateRegion.committed edge) else c.rec_ }

/-- One context of the journal is applied; its stale snapshot is given up. -/
def State.applyContext (j : Job) (new : Context) (s : State) : State :=
  match s.context? new.id with
  | none => s
  | some c =>
    let region := j.journal.regions.contains new.id
    let s1 := match c.rec_ with
      | some r => if region then s.dropSnapshot r else s
      | none => s
    let s2 := s1.updContext new.id (Context.applied new region s.edge (compactOf s.now))
    new.fullPages.foldl (fun s i => s.updPage i fun g =>
      if g.open_ && !g.sealed then { g with awaits := true } else g) s2

/-- The journal of a job's attempt is applied as a whole (R206). -/
def State.sealContexts (j : Job) (s : State) : State :=
  let s1 := j.journal.ctxs.foldl (fun s c => s.applyContext j c) s
  let s2 := j.journal.drops.foldl (fun s i => s.dropPage i) s1
  s2.updJob j.id fun x => { x with journal := { x.journal with ctxs := [], regions := [], opened := [], drops := [] } }

/-- JOB_SEAL_EDGE (R150, R153): every output and every journal on one edge; the job is DONE, and its record is
sent. -/
def execJobSealEdge (job : Word) (s : State) : Host.Outcome State Fault Refusal :=
  .next (match s.job? job with
    | none => s
    | some j =>
      if j.state ≠ .sealing then s
      else
        let s1 := (s.sealedOutputs j).foldl (fun s o => s.sealOne j o) s
        ((((s1.sealContexts j).sealTracks job).sealPlans j).sealMap j).finishJob job stOk 0)

end Sys2Proof.Machine
end

