-- ==== Sys2Proof/Machine/Dispatch.lean ====
section
/-!
DEFINITION. Machine/Dispatch.lean: one arm for each command, each a direct call of its meaning.
-/

namespace Sys2Proof.Machine

open Sys2Proof

/-- The effect of a command on everything but the queue. -/
def exec (i : Instr) (s : State) : Host.Outcome State Fault Refusal :=
  match i with
  | .coreJobLaunch e => Sys2Proof.Machine.execCoreJobLaunch e s
  | .drypointJobLaunch e => Sys2Proof.Machine.execDrypointJobLaunch e s
  | .moveLaunch e => Sys2Proof.Machine.execMoveLaunch e s
  | .stylusLaunch e => Sys2Proof.Machine.execStylusLaunch e s
  | .proofCheckLaunch e => Sys2Proof.Machine.execProofCheckLaunch e s
  | .ethGateAnchor e => Sys2Proof.Machine.execEthGateAnchor e s
  | .tierPrefetch e => Sys2Proof.Machine.execTierPrefetch e s
  | .gpioHigh e => Sys2Proof.Machine.execGpioHigh e s
  | .gpioLow e => Sys2Proof.Machine.execGpioLow e s
  | .gpioToggle e => Sys2Proof.Machine.execGpioToggle e s
  | .gpioPulse e => Sys2Proof.Machine.execGpioPulse e s
  | .gpioPulseEnd pin => Sys2Proof.Machine.execGpioPulseEnd pin s
  | .selftestSlice e => Sys2Proof.Machine.execSelftestSlice e s
  | .rotationInstant e => Sys2Proof.Machine.execRotationInstant e s
  | .carriedFiringLaunch => Sys2Proof.Machine.execCarriedFiringLaunch s
  | .deferredFiringLaunch e => Sys2Proof.Machine.execDeferredFiringLaunch e s
  | .spareSelftestDone cl pass => Sys2Proof.Machine.execSpareSelftestDone cl pass s
  | .rotationHandoverDone cl => Sys2Proof.Machine.execRotationHandoverDone cl s
  | .pllLossOfLock => Sys2Proof.Machine.execPllLossOfLock s
  | .tbCapture v => Sys2Proof.Machine.execTbCapture v s
  | .syncReceived p m => Sys2Proof.Machine.execSyncReceived p m s
  | .followUpReceived p m => Sys2Proof.Machine.execFollowUpReceived p m s
  | .syncReceiptTimeout p => Sys2Proof.Machine.execSyncReceiptTimeout p s
  | .announceReceived p m => Sys2Proof.Machine.execAnnounceReceived p m s
  | .announceReceiptTimeout p => Sys2Proof.Machine.execAnnounceReceiptTimeout p s
  | .pdelayReqReceived p seq m => Sys2Proof.Machine.execPdelayReqReceived p seq m s
  | .pdelayRespReceived p m => Sys2Proof.Machine.execPdelayRespReceived p m s
  | .pdelayInterval p => Sys2Proof.Machine.execPdelayInterval p s
  | .syncInterval p => Sys2Proof.Machine.execSyncInterval p s
  | .announceInterval p => Sys2Proof.Machine.execAnnounceInterval p s
  | .tbStepAccept v => Sys2Proof.Machine.execTbStepAccept v s
  | .tbSetGo v => Sys2Proof.Machine.execTbSetGo v s
  | .tbAdj v => Sys2Proof.Machine.execTbAdj v s
  | .tbGpioOut v => Sys2Proof.Machine.execTbGpioOut v s
  | .ppsOutRise => Sys2Proof.Machine.execPpsOutRise s
  | .ppsOutFall => Sys2Proof.Machine.execPpsOutFall s
  | .ppsInEdge => Sys2Proof.Machine.execPpsInEdge s
  | .ppsLost => Sys2Proof.Machine.execPpsLost s
  | .gpioEdgeCapture pin rising => Sys2Proof.Machine.execGpioEdgeCapture pin rising s
  | .gcapPop pin => Sys2Proof.Machine.execGcapPop pin s
  | .latchedHiRead q => Sys2Proof.Machine.execLatchedHiRead q s
  | .rgnEntryDisable v => Sys2Proof.Machine.execRgnEntryDisable v s
  | .rgnEntryEnable v => Sys2Proof.Machine.execRgnEntryEnable v s
  | .otlStageBegin v => Sys2Proof.Machine.execOtlStageBegin v s
  | .otlValidate v => Sys2Proof.Machine.execOtlValidate v s
  | .validationDone => Sys2Proof.Machine.execValidationDone s
  | .otlCommitArm v => Sys2Proof.Machine.execOtlCommitArm v s
  | .otlCancel v => Sys2Proof.Machine.execOtlCancel v s
  | .commitPrepare => Sys2Proof.Machine.execCommitPrepare s
  | .epochCommit => Sys2Proof.Machine.execEpochCommit s
  | .domainPowerDown d => Sys2Proof.Machine.execDomainPowerDown d s
  | .gemm job slot laneFault => Sys2Proof.Machine.execGemm job slot laneFault s
  | .conv job slot => Sys2Proof.Machine.execConv job slot s
  | .pool job slot => Sys2Proof.Machine.execPool job slot s
  | .ewApply job slot => Sys2Proof.Machine.execEwApply job slot s
  | .pwlLoad job slot => Sys2Proof.Machine.execPwlLoad job slot s
  | .norm job slot => Sys2Proof.Machine.execNorm job slot s
  | .attnDecode job run => Sys2Proof.Machine.execAttnDecode job run s
  | .attnPrefill job slot => Sys2Proof.Machine.execAttnPrefill job slot s
  | .scan job slot => Sys2Proof.Machine.execScan job slot s
  | .gate job slot => Sys2Proof.Machine.execGate job slot s
  | .sort job slot => Sys2Proof.Machine.execSort job slot s
  | .moveCopy job slot => Sys2Proof.Machine.execMoveCopy job slot s
  | .moveLayout job slot => Sys2Proof.Machine.execMoveLayout job slot s
  | .moveTier job slot => Sys2Proof.Machine.execMoveTier job slot s
  | .moveTranspose job slot => Sys2Proof.Machine.execMoveTranspose job slot s
  | .waittAbsolute job slot => Sys2Proof.Machine.execWaittAbsolute job slot s
  | .waittRelative job slot => Sys2Proof.Machine.execWaittRelative job slot s
  | .waittComplete job slot => Sys2Proof.Machine.execWaittComplete job slot s
  | .signal job slot => Sys2Proof.Machine.execSignal job slot s
  | .waits job slot => Sys2Proof.Machine.execWaits job slot s
  | .waitsSatisfied job slot => Sys2Proof.Machine.execWaitsSatisfied job slot s
  | .checkResidue job slot => Sys2Proof.Machine.execCheckResidue job slot s
  | .checkStats job slot => Sys2Proof.Machine.execCheckStats job slot s
  | .planqSearch job slot => Sys2Proof.Machine.execPlanqSearch job slot s
  | .planqRevalidate job slot => Sys2Proof.Machine.execPlanqRevalidate job slot s
  | .planqReadPlan job slot => Sys2Proof.Machine.execPlanqReadPlan job slot s
  | .planqPublish job slot => Sys2Proof.Machine.execPlanqPublish job slot s
  | .fuse job slot => Sys2Proof.Machine.execFuse job slot s
  | .descriptorIssue job slot => Sys2Proof.Machine.execDescriptorIssue job slot s
  | .descriptorComplete job slot => Sys2Proof.Machine.execDescriptorComplete job slot s
  | .weightBufferReady core buf => Sys2Proof.Machine.execWeightBufferReady core buf s
  | .weightLoadDone core => Sys2Proof.Machine.execWeightLoadDone core s
  | .tileComplete core mismatch row => Sys2Proof.Machine.execTileComplete core mismatch row s
  | .accBankFree core bank => Sys2Proof.Machine.execAccBankFree core bank s
  | .washResidueFault core => Sys2Proof.Machine.execWashResidueFault core s
  | .marginResidueFault => Sys2Proof.Machine.execMarginResidueFault s
  | .marginQueueStart => Sys2Proof.Machine.execMarginQueueStart s
  | .marginDescriptorDone => Sys2Proof.Machine.execMarginDescriptorDone s
  | .jobSubmit sess b => Sys2Proof.Machine.execJobSubmit sess b s
  | .jobCancel sess tag job => Sys2Proof.Machine.execJobCancel sess tag job s
  | .jobLaunchInstant job => Sys2Proof.Machine.execJobLaunchInstant job s
  | .jobStart part => Sys2Proof.Machine.execJobStart part s
  | .jobSealEdge job => Sys2Proof.Machine.execJobSealEdge job s
  | .jobDeadline job => Sys2Proof.Machine.execJobDeadline job s
  | .restartIssue job => Sys2Proof.Machine.execRestartIssue job s
  | .ctxOpen sess tag b => Sys2Proof.Machine.execCtxOpen sess tag b s
  | .ctxFork sess tag b => Sys2Proof.Machine.execCtxFork sess tag b s
  | .ctxTruncate sess tag b => Sys2Proof.Machine.execCtxTruncate sess tag b s
  | .ctxReset sess tag b => Sys2Proof.Machine.execCtxReset sess tag b s
  | .ctxClose sess tag b => Sys2Proof.Machine.execCtxClose sess tag b s
  | .ctxAttach sess tag b => Sys2Proof.Machine.execCtxAttach sess tag b s
  | .ctxExport sess tag b => Sys2Proof.Machine.execCtxExport sess tag b s
  | .exportDone ctx => Sys2Proof.Machine.execExportDone ctx s
  | .ctxImport sess tag b => Sys2Proof.Machine.execCtxImport sess tag b s
  | .ctxSwapOut sess tag b => Sys2Proof.Machine.execCtxSwapOut sess tag b s
  | .ctxSwapIn sess tag b => Sys2Proof.Machine.execCtxSwapIn sess tag b s
  | .swapDone ctx => Sys2Proof.Machine.execSwapDone ctx s
  | .pageSeal index => Sys2Proof.Machine.execPageSeal index s
  | .kvPageDemote part => Sys2Proof.Machine.execKvPageDemote part s
  | .promote sess tag b => Sys2Proof.Machine.execPromote sess tag b s
  | .release sess tag b => Sys2Proof.Machine.execRelease sess tag b s
  | .pin sess tag b => Sys2Proof.Machine.execPin sess tag b s
  | .unpin sess tag b => Sys2Proof.Machine.execUnpin sess tag b s
  | .demote sess tag b => Sys2Proof.Machine.execDemote sess tag b s
  | .drop sess tag b => Sys2Proof.Machine.execDrop sess tag b s
  | .extentMiss job slot obj extent => Sys2Proof.Machine.execExtentMiss job slot obj extent s
  | .extentFetchDone tag => Sys2Proof.Machine.execExtentFetchDone tag s
  | .tierRequestTimeout tag => Sys2Proof.Machine.execTierRequestTimeout tag s
  | .lateCompletion linework tag => Sys2Proof.Machine.execLateCompletion linework tag s
  | .tagRelease tag => Sys2Proof.Machine.execTagRelease tag s
  | .allocationWaitEnd => Sys2Proof.Machine.execAllocationWaitEnd s
  | .tierWriteDone crcGood => Sys2Proof.Machine.execTierWriteDone crcGood s
  | .directoryMirrorWrite => Sys2Proof.Machine.execDirectoryMirrorWrite s
  | .readoptVerifyDone part obj ver crc => Sys2Proof.Machine.execReadoptVerifyDone part obj ver crc s
  | .rebuildDone part obj ver => Sys2Proof.Machine.execRebuildDone part obj ver s
  | .tirDirQuery sess v => Sys2Proof.Machine.execTirDirQuery sess v s
  | .tierReadTransaction ch at_ bursts => Sys2Proof.Machine.execTierReadTransaction ch at_ bursts s
  | .tierWriteTransaction ch at_ bursts => Sys2Proof.Machine.execTierWriteTransaction ch at_ bursts s
  | .unitUncorrectable ch unit => Sys2Proof.Machine.execUnitUncorrectable ch unit s
  | .retrainDone ch pass train => Sys2Proof.Machine.execRetrainDone ch pass train s
  | .periodicRetrain ch => Sys2Proof.Machine.execPeriodicRetrain ch s
  | .driftRetrain ch => Sys2Proof.Machine.execDriftRetrain ch s
  | .chnRetrain v => Sys2Proof.Machine.execChnRetrain v s
  | .lineworkPacketDelivered node tag err => Sys2Proof.Machine.execLineworkPacketDelivered node tag err s
  | .lineworkTimeout tag => Sys2Proof.Machine.execLineworkTimeout tag s
  | .regulationWindow => Sys2Proof.Machine.execRegulationWindow s
  | .lnwBudget m v => Sys2Proof.Machine.execLnwBudget m v s
  | .csiFrameStart port vc counter lanes rate stamp => Sys2Proof.Machine.execCsiFrameStart port vc counter lanes rate stamp s
  | .csiLongPacket port vc dataType headerGood crcGood overflow data => Sys2Proof.Machine.execCsiLongPacket port vc dataType headerGood crcGood overflow data s
  | .csiEmbeddedData port vc data => Sys2Proof.Machine.execCsiEmbeddedData port vc data s
  | .csiFrameEnd port vc => Sys2Proof.Machine.execCsiFrameEnd port vc s
  | .sensorFragment p tsn stamp data => Sys2Proof.Machine.execSensorFragment p tsn stamp data s
  | .fragmentTimeout stream => Sys2Proof.Machine.execFragmentTimeout stream s
  | .frameSeal stream => Sys2Proof.Machine.execFrameSeal stream s
  | .streamStale stream => Sys2Proof.Machine.execStreamStale stream s
  | .egoPropagate x frameTime => Sys2Proof.Machine.execEgoPropagate x frameTime s
  | .egoMeasure x frameTime => Sys2Proof.Machine.execEgoMeasure x frameTime s
  | .egoPublish => Sys2Proof.Machine.execEgoPublish s
  | .egoTimeout => Sys2Proof.Machine.execEgoTimeout s
  | .trcEgoCapture v => Sys2Proof.Machine.execTrcEgoCapture v s
  | .tracingQueueStart => Sys2Proof.Machine.execTracingQueueStart s
  | .trackCoastExpire track => Sys2Proof.Machine.execTrackCoastExpire track s
  | .calibrationRefine sensor => Sys2Proof.Machine.execCalibrationRefine sensor s
  | .demotionExpire sensor => Sys2Proof.Machine.execDemotionExpire sensor s
  | .plannerQueryStart => Sys2Proof.Machine.execPlannerQueryStart s
  | .searchEnd => Sys2Proof.Machine.execSearchEnd s
  | .searchBudgetExpire => Sys2Proof.Machine.execSearchBudgetExpire s
  | .repairBudgetExpire => Sys2Proof.Machine.execRepairBudgetExpire s
  | .publishCopyStart => Sys2Proof.Machine.execPublishCopyStart s
  | .publishCopyDone => Sys2Proof.Machine.execPublishCopyDone s
  | .plannerFault => Sys2Proof.Machine.execPlannerFault s
  | .stylusGuard group => Sys2Proof.Machine.execStylusGuard group s
  | .stylusEngineDone group residueFault => Sys2Proof.Machine.execStylusEngineDone group residueFault s
  | .outputFrameForm group => Sys2Proof.Machine.execOutputFrameForm group s
  | .gateListAdvance p => Sys2Proof.Machine.execGateListAdvance p s
  | .gateWindowClose p id => Sys2Proof.Machine.execGateWindowClose p id s
  | .frameTransmit p => Sys2Proof.Machine.execFrameTransmit p s
  | .frameReceive p f stamp => Sys2Proof.Machine.execFrameReceive p f stamp s
  | .frerRecoveryReset tsn => Sys2Proof.Machine.execFrerRecoveryReset tsn s
  | .downLinkDiscard p => Sys2Proof.Machine.execDownLinkDiscard p s
  | .linkUp p speed master verified => Sys2Proof.Machine.execLinkUp p speed master verified s
  | .linkDown p => Sys2Proof.Machine.execLinkDown p s
  | .lldpTransmit p => Sys2Proof.Machine.execLldpTransmit p s
  | .lldpReceive p macSubtype chassis ttl => Sys2Proof.Machine.execLldpReceive p macSubtype chassis ttl s
  | .partnerExpire n => Sys2Proof.Machine.execPartnerExpire n s
  | .arpRequest p target asker askerIp => Sys2Proof.Machine.execArpRequest p target asker askerIp s
  | .bypassArm => Sys2Proof.Machine.execBypassArm s
  | .bypassAnnounce => Sys2Proof.Machine.execBypassAnnounce s
  | .bypassOpen => Sys2Proof.Machine.execBypassOpen s
  | .bypassOpenFail => Sys2Proof.Machine.execBypassOpenFail s
  | .bypassClose => Sys2Proof.Machine.execBypassClose s
  | .bypassCloseReq v => Sys2Proof.Machine.execBypassCloseReq v s
  | .bypassRetry v => Sys2Proof.Machine.execBypassRetry v s
  | .limianOpen p seq w0 credits => Sys2Proof.Machine.execLimianOpen p seq w0 credits s
  | .limianClose sess => Sys2Proof.Machine.execLimianClose sess s
  | .limianAck sess ack credits => Sys2Proof.Machine.execLimianAck sess ack credits s
  | .ackDelay sess => Sys2Proof.Machine.execAckDelay sess s
  | .retransmitTimeout sess => Sys2Proof.Machine.execRetransmitTimeout sess s
  | .sessionIdleTimeout sess => Sys2Proof.Machine.execSessionIdleTimeout sess s
  | .regRead sess tag addr count => Sys2Proof.Machine.execRegRead sess tag addr count s
  | .regWrite sess tag addr values => Sys2Proof.Machine.execRegWrite sess tag addr values s
  | .objLoadBegin sess tag obj totalBytes w3 iv => Sys2Proof.Machine.execObjLoadBegin sess tag obj totalBytes w3 iv s
  | .objData sess offset data => Sys2Proof.Machine.execObjData sess offset data s
  | .objLoadEnd sess tag crc gcmTag => Sys2Proof.Machine.execObjLoadEnd sess tag crc gcmTag s
  | .objRead sess tag obj ver => Sys2Proof.Machine.execObjRead sess tag obj ver s
  | .objPush sess tag obj ver remotePart remoteObj remoteStatus => Sys2Proof.Machine.execObjPush sess tag obj ver remotePart remoteObj remoteStatus s
  | .wdiEdge => Sys2Proof.Machine.execWdiEdge s
  | .wdoToggle heartbeat => Sys2Proof.Machine.execWdoToggle heartbeat s
  | .checkMessage => Sys2Proof.Machine.execCheckMessage s
  | .gateSampleMessage => Sys2Proof.Machine.execGateSampleMessage s
  | .conflictBoxExpire n => Sys2Proof.Machine.execConflictBoxExpire n s
  | .sensorFaultClear => Sys2Proof.Machine.execSensorFaultClear s
  | .prfRelease v => Sys2Proof.Machine.execPrfRelease v s
  | .lockstepMismatch => Sys2Proof.Machine.execLockstepMismatch s
  | .proofSramUncorrectable => Sys2Proof.Machine.execProofSramUncorrectable s
  | .proofClockWindow ctrl aon => Sys2Proof.Machine.execProofClockWindow ctrl aon s
  | .voltageTrip rail microvolts => Sys2Proof.Machine.execVoltageTrip rail microvolts s
  | .stopReadbackMismatch line => Sys2Proof.Machine.execStopReadbackMismatch line s
  | .sliceDone unit pass instance_ => Sys2Proof.Machine.execSliceDone unit pass instance_ s
  | .sliceAbort => Sys2Proof.Machine.execSliceAbort s
  | .diagIntervalMissed unit => Sys2Proof.Machine.execDiagIntervalMissed unit s
  | .diagnosisDone core result => Sys2Proof.Machine.execDiagnosisDone core result s
  | .coreRetire u => Sys2Proof.Machine.execCoreRetire u s
  | .plateScrub slice corrected => Sys2Proof.Machine.execPlateScrub slice corrected s
  | .plateUncorrectable slice bank => Sys2Proof.Machine.execPlateUncorrectable slice bank s
  | .plateCorrectedLimit slice bank => Sys2Proof.Machine.execPlateCorrectedLimit slice bank s
  | .ctrlWatchdogExpire core => Sys2Proof.Machine.execCtrlWatchdogExpire core s
  | .routerLaneSwitch node => Sys2Proof.Machine.execRouterLaneSwitch node s
  | .errorReport => Sys2Proof.Machine.execErrorReport s
  | .brnLogPop v => Sys2Proof.Machine.execBrnLogPop v s
  | .cntClear b v => Sys2Proof.Machine.execCntClear b v s
  | .lockSet b v => Sys2Proof.Machine.execLockSet b v s
  | .glbAvsLimit v => Sys2Proof.Machine.execGlbAvsLimit v s
  | .avsStep target ack => Sys2Proof.Machine.execAvsStep target ack s
  | .pmbusRetry ack => Sys2Proof.Machine.execPmbusRetry ack s
  | .secBootWriteFirmware v => Sys2Proof.Machine.execSecBootWriteFirmware v s
  | .secBootWriteOutline v => Sys2Proof.Machine.execSecBootWriteOutline v s
  | .bootWriteDone readBackGood => Sys2Proof.Machine.execBootWriteDone readBackGood s
  | .secRollbackCommit v => Sys2Proof.Machine.execSecRollbackCommit v s
  | .secKeyInstall v => Sys2Proof.Machine.execSecKeyInstall v s
  | .secRevoke v => Sys2Proof.Machine.execSecRevoke v s
  | .secLockAdvance v => Sys2Proof.Machine.execSecLockAdvance v s
  | .recoveryImageLoad sess tag image => Sys2Proof.Machine.execRecoveryImageLoad sess tag image s
  | .powerOn => Sys2Proof.Machine.execPowerOn s
  | .resetNAssert nanoseconds => Sys2Proof.Machine.execResetNAssert nanoseconds s
  | .resetNRelease => Sys2Proof.Machine.execResetNRelease s
  | .supplyOutOfRange rail => Sys2Proof.Machine.execSupplyOutOfRange rail s
  | .vddAonLoss => Sys2Proof.Machine.execVddAonLoss s
  | .glbResetCold v => Sys2Proof.Machine.execGlbResetCold v s
  | .glbResetWarm v => Sys2Proof.Machine.execGlbResetWarm v s
  | .glbPartReset v => Sys2Proof.Machine.execGlbPartReset v s
  | .partitionResetDone => Sys2Proof.Machine.execPartitionResetDone s
  | .pllLocked primary standby => Sys2Proof.Machine.execPllLocked primary standby s
  | .fuseMapLoaded => Sys2Proof.Machine.execFuseMapLoaded s
  | .mbistDone failedCores failedCtrl => Sys2Proof.Machine.execMbistDone failedCores failedCtrl s
  | .trainingDone failed => Sys2Proof.Machine.execTrainingDone failed s
  | .firmwareVerified => Sys2Proof.Machine.execFirmwareVerified s
  | .bootOutlineLoad => Sys2Proof.Machine.execBootOutlineLoad s
  | .jobsReady => Sys2Proof.Machine.execJobsReady s
  | .domainPowerUp d => Sys2Proof.Machine.execDomainPowerUp d s
  | .t1Uncorrectable core bank => Sys2Proof.Machine.execT1Uncorrectable core bank s
  | .stepHoldEnd => Sys2Proof.Machine.execStepHoldEnd s
  | .slewComplete => Sys2Proof.Machine.execSlewComplete s
  | .preemptionVerifyTimeout p => Sys2Proof.Machine.execPreemptionVerifyTimeout p s

end Sys2Proof.Machine
end

