-- ==== Sys2Proof/Machine/Tick.lean ====
section
/-!
DEFINITION. One CTRL edge of the block (R30 to R38), which is what a step does while no command waits (log 30): local
time advances, and the commands whose instant the manual fixes and whose time has come join the queue in the order of
R57 and R520. Events that the outside world brings, or that the manual only bounds in time, are never made here.
-/

namespace Sys2Proof.Machine

open Sys2Proof

/-! ## The edge itself -/

/-- The time by which local time advances on an edge: the nominal period and the trim in force (R37, R38). -/
def Tb.period (t : Tb) : Int := unitsEdge + t.effTrim

/-- An edge: the count of edges, local time, what is left to slew, and four free launch places (R37, R45, R57). -/
def State.edgeAdvance (s : State) : State :=
  { s with
    edge := s.edge + 1
    tb := { s.tb with time := timeOfUnits (s.now + s.tb.period), slewLeft := s.tb.slewLeft - s.tb.slewNow }
    rgn := { s.rgn with launches := 0 } }

/-- The hottest sensor is read every 1 ms (R490). -/
def State.readTemp (s : State) : State :=
  if s.edge % edgesMs = 0 then
    let t := Config.dieTemp s.fresh
    { s.updGlb (fun g => { g with tempNow := t, tempMax := if g.tempMax.toInt < t.toInt then t else g.tempMax }) with
      fresh := s.fresh + 1 }
  else s

/-- A disable or an enable whose edge has come. -/
def applyChange (l : List Nat) (c : Nat × Nat × Bool) : List Nat :=
  if c.2.2 then (if l.contains c.2.1 then l else c.2.1 :: l) else l.filter (· != c.2.1)

/-- Disables and enables take effect at their edge; at or after an armed boundary they are void (R61, R494). -/
def State.applyChanges (s : State) : State :=
  let due := s.rgn.changes.filter fun c => decide (c.1 ≤ s.edge)
  let void := s.boundary.any fun b => decide (b ≤ s.now)
  if due.isEmpty then s
  else s.updRgn fun r => { r with
    changes := r.changes.filter fun c => !decide (c.1 ≤ s.edge)
    disabled := if void then r.disabled else due.foldl applyChange r.disabled }

/-! ## Firings (R54 to R60, R62, R85, R520) -/

/-- One command where its condition holds. -/
def due (c : Bool) (i : Instr) : List Instr := if c then [i] else []

/-- The command by which an entry of a table fires (R56). -/
def RegEntry.command (e : RegEntry) (i : Nat) : List Instr :=
  let n := BitVec.ofNat 12 i
  match e.target with
  | 1 => [.coreJobLaunch n]
  | 2 => [.drypointJobLaunch n]
  | 3 => [.moveLaunch n]
  | 4 => [.stylusLaunch n]
  | 5 => [.proofCheckLaunch n]
  | 6 => [.ethGateAnchor n]
  | 7 => [.tierPrefetch n]
  | 8 => if e.action = 0 then [.gpioHigh n] else if e.action = 1 then [.gpioLow n]
    else if e.action = 2 then [.gpioToggle n] else [.gpioPulse n]
  | 9 => if e.action = 1 then [.rotationInstant n] else [.selftestSlice n]
  | _ => []

/-- The commands of the firings of a table in the ticks after `a` up to `b`, by instant and then by index (R57). -/
def firingCommands (o : Outline) (disabled : List Nat) (a b : Nat) : List Instr :=
  ((List.range (b - a)).map (· + a + 1)).flatMap fun t =>
    (o.table.zipIdx.filter fun e => e.1.firesAt o.h t && !disabled.contains e.2).flatMap fun e => e.1.command e.2

/-- The commit at a boundary goes through: it was prepared, or its preparation now succeeds (R85). -/
def State.commitHolds (s : State) (new : Outline) : Bool :=
  s.rgn.shadowLoaded || decide ((s.prepare new).otl.state = .armed)

/-- The firings that the edge reaches after local time `from_`, with the commit of a boundary that it passes: the
firings before the boundary come from the running table, those at or after it from the new one (R49, R62). -/
def State.edgeFirings (s : State) (from_ : Int) : List Instr :=
  let a := match s.tb.stepHold with
    | some h => max (tickOf from_) (tickOf h.1)
    | none => tickOf from_
  let z := tickOf s.now
  let old (z : Nat) : List Instr := if s.rgn.firing then firingCommands s.otl.running s.rgn.disabled a z else []
  match s.boundary, s.otl.staged with
  | some b, some new =>
    if b ≤ s.now then
      let t := tickOf b
      let rest := if !s.rgn.firing then [] else if s.commitHolds new then firingCommands new [] (max a (t - 1)) z
        else firingCommands s.otl.running s.rgn.disabled (max a (t - 1)) z
      old (t - 1) ++ [.epochCommit] ++ rest
    else old z
  | _, _ => old z

/-- Prefetch launches that wait for a common edge (R34). -/
def State.duePrefetches (s : State) : List Instr :=
  if s.commonEdge then s.rgn.tierWait.map fun x => .tierPrefetch (BitVec.ofNat 12 x.1) else []

/-- Carried firings, then deferred ones whose target is free, for the places that the due firings leave (R59, R520). -/
def State.lateFirings (s : State) : List Instr :=
  List.replicate (min 4 s.rgn.carried.length) .carriedFiringLaunch ++
    ((sortOn id s.rgn.deferred).filter fun i => (s.regEntry i).any fun e => !s.targetBusy i e).map fun i =>
      .deferredFiringLaunch (BitVec.ofNat 12 i)

/-! ## Pins, gates and control instants (R63, R66, R69, R367, R370, R383) -/

/-- PPS_OUT and the ends of GPIO pulses. -/
def State.duePins (s : State) (from_ : Int) : List Instr :=
  due (s.regs.ppsOutEn && decide (from_.fdiv unitsSec ≠ s.now.fdiv unitsSec)) .ppsOutRise ++
    due (s.tb.ppsHighUntil.any fun e => decide (e ≤ s.edge)) .ppsOutFall ++
    (List.finRange 16).flatMap fun (p : Fin 16) =>
      due ((s.tb.pins.getD p {}).pulseEnd.any fun e => decide (e ≤ s.edge)) (.gpioPulseEnd p)

/-- Gate lists whose entry is over. -/
def State.dueGates (s : State) : List Instr :=
  allPorts.flatMap fun p => match s.gateRec p with
    | none => []
    | some g =>
      let x := s.ethPort p
      due (!g.entries.isEmpty && decide (x.gateEdge + (g.entries.getD x.gateIndex {}).interval ≤ s.edge)) (.gateListAdvance p)

/-- Guard, engine-done and form instants of the channel groups; faults are named by commands only. -/
def State.dueStylus (s : State) : List Instr :=
  if !s.rgn.firing then []
  else (List.finRange 16).flatMap fun (g : Fin 16) =>
    let x := s.styGroup g
    due (s.stylusOn && (s.nextStylus g).any fun k => decide (k ≤ tickOf s.now + 800) && x.guardTick != some k)
      (.stylusGuard g) ++
    due (s.engineDue g) (.stylusEngineDone g 0) ++
    due (x.firing && decide (x.instant + ((s.otl.running.groupPeriod g : Int) - 320) * unitsEdge ≤ s.now))
      (.outputFrameForm g)

/-! ## Instants and time-outs of work in progress -/

/-- Launch instants, WAITT instants and deadlines of jobs (R150, R155, R169). -/
def State.dueJobs (s : State) : List Instr :=
  s.jobs.list.flatMap fun j =>
    due (j.state = .armed && decide (j.launch ≤ s.now)) (.jobLaunchInstant j.id) ++
    due (s.pastDeadline j && (j.state = .launched || j.state = .running || j.state = .restarting)) (.jobDeadline j.id) ++
    (List.finRange 32).flatMap fun (k : Fin 32) =>
      due ((j.waiting k 0x0B).any fun i => decide (s.waitInstant j i.desc ≤ s.now)) (.waittComplete j.id k)

/-- Requests that are not complete in time, and tags that come back into use (R268, R297, R448). -/
def State.dueTags (s : State) : List Instr :=
  (s.tir.requests.flatMap fun r =>
    due (decide (r.issueEdge + 200 * edgesUs ≤ s.edge)) (.tierRequestTimeout r.tag)) ++
  (s.lnw.txs.flatMap fun x => due (decide (x.issueEdge + 500 * edgesUs ≤ s.edge)) (.lineworkTimeout x.tag)) ++
  (s.tir.held ++ s.lnw.held).flatMap fun h => due (decide (h.edge + edgesMs ≤ s.edge)) (.tagRelease h.tag)

/-- Streams, tracks and boxes whose time has run out (R311, R316, R327, R332, R334, R385, R417, R425). -/
def State.dueSensing (s : State) : List Instr :=
  ((List.finRange 48).flatMap fun (n : Fin 48) =>
    let x := s.stream n
    let e := s.streamEntry n
    due ((x.state = .active || x.state = .waiting) && decide (x.lastSealEdge + 2 * e.periodEdges ≤ s.edge)) (.streamStale n) ++
    due (e.ethernet && x.open_.any fun f => !f.ended && decide (f.lastEdge + 2 * e.periodEdges ≤ s.edge)) (.fragmentTimeout n) ++
    due ((s.calOf n).demotions.any fun d => decide (d.1 ≤ s.edge)) (.demotionExpire n) ++
    due (s.refineDue n) (.calibrationRefine n)) ++
  due s.egoDue .egoPublish ++
  due (s.trc.ego.valid && decide (s.trc.ego.lastInertial + 50 * edgesMs ≤ s.edge)) .egoTimeout ++
  ((List.finRange 64).flatMap fun (n : Fin 64) =>
    due ((s.prf.boxes.getD n none).any fun b => decide (b.expires ≤ s.edge)) (.conflictBoxExpire n)) ++
  due (s.prf.sensorFault.any fun e => decide (e + 10 * edgesSec ≤ s.edge)) .sensorFaultClear ++
  s.eth.frer.flatMap fun x =>
    due (x.last.isSome && decide (x.lastEdge + 100 * edgesMs ≤ s.edge)) (.frerRecoveryReset (BitVec.ofNat 12 x.tsn))

/-- The planner's budgets (R348, R351). -/
def State.duePlanner (s : State) : List Instr :=
  match s.xh.run with
  | none => []
  | some q => due (q.repairStart.isNone && q.kind = .search && q.budgetOver s.edge) .searchBudgetExpire ++
      due (q.repairOver s.edge) .repairBudgetExpire

/-- Jobs-ready, frames, partners, the by-pass and sessions (R64, R377, R388, R391 to R393, R397, R398, R477). -/
def State.dueNet (s : State) : List Instr :=
  due s.jobsMayBegin .jobsReady ++
  (allPorts.flatMap fun p => (s.ethPort p).txq.flatMap fun f => due (s.windowClosed p f) (.gateWindowClose p f.id)) ++
  (allPorts.flatMap fun p =>
    due (!(s.ethPort p).link && (s.ethPort p).txq.any (s.heldTooLong p)) (.downLinkDiscard p) ++
    due (s.lldpDue p) (.lldpTransmit p) ++ due (s.verifyLate p) (.preemptionVerifyTimeout p)) ++
  ((List.finRange 64).flatMap fun (n : Fin 64) =>
    due ((s.eth.partners.getD n none).any fun y => y.expiry.all fun e => decide (e ≤ s.edge)) (.partnerExpire n)) ++
  due s.mayArm .bypassArm ++
  due (s.bypassPending && decide (s.eth.announceEdge + 100 * edgesMs ≤ s.edge)) .bypassAnnounce ++
  (match s.eth.instant with
    | some (t, true) => due (s.eth.bypass = .armed && decide (t ≤ s.now)) .bypassOpen ++
        due (s.eth.bypass = .open_ && s.eth.opening && decide (t + 2 * unitsSec ≤ s.now)) .bypassOpenFail
    | some (t, false) => due (s.eth.bypass = .open_ && decide (t ≤ s.now)) .bypassClose
    | none => []) ++
  (List.finRange 16).flatMap fun (i : Fin 16) =>
    let x := s.session i
    due (x.open_ && decide (0 < x.sent) && decide (x.oldestEdge + s.regs.limRto.toNat * edgesUs * 2 ^ x.timeouts ≤ s.edge))
      (.retransmitTimeout i) ++
    due (x.open_ && decide (x.lastValid + 10 * edgesSec ≤ s.edge)) (.sessionIdleTimeout i)

/-- Intervals and receipt time-outs of gPTP (R42). -/
def State.dueGptp (s : State) : List Instr :=
  allPorts.flatMap fun p =>
    due (s.pdelayDue p) (.pdelayInterval p) ++ due (s.syncLate p) (.syncReceiptTimeout p) ++
    due (s.announceLate p) (.announceReceiptTimeout p) ++ due (s.syncDue p) (.syncInterval p) ++
    due (s.announceDue p) (.announceInterval p)

/-- PPS_IN without a valid edge for 3 s, and the window of the regulator (R67, R298). -/
def State.dueWindows (s : State) : List Instr :=
  due (s.disciplines && decide (s.tb.ppsWatch + 3 * edgesSec ≤ s.edge)) .ppsLost ++
    due (decide (s.lnw.windowEdge + 256 ≤ s.edge)) .regulationWindow

/-- Loads, tiles and drains of the arrays that end now (R102, R104, R107); faults are named by commands only. -/
def State.dueArrays (s : State) : List Instr :=
  (List.finRange 36).flatMap fun (n : Fin 36) =>
    let c := s.core n
    due (c.loading && decide (c.loadStart + 32 ≤ s.edge)) (.weightLoadDone n) ++
    due (c.tail.isSome || (s.tileOf n).any fun x => (s.tileBank n x.2.2).isSome) (.tileComplete n 0 0) ++
    (List.finRange 2).flatMap fun (b : Fin 2) =>
      let x := c.banks.getD b {}
      due (x.state = .draining && decide (x.drained ≤ s.edge)) (.accBankFree n b)

/-! ## The step of an idle block -/

/-- Everything that falls due on an edge that advanced local time from `from_`, in order: the end of a hold or a slew,
prefetches that waited, the firings and the commit, late firings, and then the other instants. -/
def State.dueCommands (s : State) (from_ : Int) : List Instr :=
  due (s.tb.stepHold.any fun h => decide (h.1 < s.now)) .stepHoldEnd ++
    due (s.tb.slewRate != 0 && s.tb.slewLeft = 0) .slewComplete ++
    s.duePrefetches ++ s.edgeFirings from_ ++ s.lateFirings ++ s.duePins from_ ++ s.dueGates ++ s.dueStylus ++ s.dueJobs ++ s.dueTags ++
    s.dueSensing ++ s.duePlanner ++ s.dueNet ++ s.dueGptp ++ s.dueWindows ++
    s.dueArrays

/-- The clock runs: the device is powered and RESET_N is released. -/
def State.clocked (s : State) : Bool := s.glb.stage != .unpowered && s.glb.stage != .held

/-- One CTRL edge (log 30). A register-caused reset whose time has come takes the edge (R471). -/
def State.tick (s : State) : State :=
  if !s.clocked then s
  else if s.glb.resetDue.any fun r => decide (r.1 ≤ s.edge) then s.takeReset
  else
    let t := s.edgeAdvance.readTemp.applyChanges
    t.enqueue (t.dueCommands s.now)

end Sys2Proof.Machine
end

