-- ==== Sys2Proof/Safety.lean ====
section
/-!
DEFINITION. Safety.lean: the properties of states that the statements use: which fields of the state a change leaves
as they were, the ranges of the registers that the host writes, and what a lock holds fixed.
-/

namespace Sys2Proof.Machine

open Sys2Proof

/-- The fields of the state. -/
inductive Part where
  | pending | edge | fresh | counts | regs | glb | tb | rgn | otl | cores | clusters | jobs | ctx | tir | chn | lnw
  | ing | trc | xh | sty | eth | prf | brn | sec | plt
deriving DecidableEq, Repr

/-- `t` holds in one field what `s` holds. -/
def Part.Same (p : Part) (s t : State) : Prop :=
  match p with
  | .pending => t.pending = s.pending
  | .edge => t.edge = s.edge
  | .fresh => t.fresh = s.fresh
  | .counts => t.counts = s.counts
  | .regs => t.regs = s.regs
  | .glb => t.glb = s.glb
  | .tb => t.tb = s.tb
  | .rgn => t.rgn = s.rgn
  | .otl => t.otl = s.otl
  | .cores => t.cores = s.cores
  | .clusters => t.clusters = s.clusters
  | .jobs => t.jobs = s.jobs
  | .ctx => t.ctx = s.ctx
  | .tir => t.tir = s.tir
  | .chn => t.chn = s.chn
  | .lnw => t.lnw = s.lnw
  | .ing => t.ing = s.ing
  | .trc => t.trc = s.trc
  | .xh => t.xh = s.xh
  | .sty => t.sty = s.sty
  | .eth => t.eth = s.eth
  | .prf => t.prf = s.prf
  | .brn => t.brn = s.brn
  | .sec => t.sec = s.sec
  | .plt => t.plt = s.plt

/-- From `s` to `t` no field but those of `ps` changes. -/
def Only (ps : List Part) (s t : State) : Prop := ∀ p, p ∉ ps → p.Same s t

/-- Entry `i` of the running table is `e`, and its firing takes a launch place on this edge: it is enabled, its target is
the one named, launches are not held, its partition is not in a reset, and the edge has made fewer than 4 launches
(R56, R57, R59, R61, R472, R520). -/
structure State.Launches (s : State) (tgt i : Nat) (e : RegEntry) : Prop where
  entry : s.regEntry i = some e
  launching : s.launching = true
  valid : e.valid = true
  target : e.target = tgt
  enabled : i ∉ s.rgn.disabled
  part : tgt = 6 ∨ tgt = 9 ∨ s.resetting e.part = false
  place : s.rgn.launches < 4

/-- `i` is the oldest descriptor of opcode `op` and form `p` that the slot of the running job has issued and that has not
acted; its core does not wait for weights (R103, R120, R148). -/
structure State.Issued (s : State) (job : Word) (slot : Fin 32) (op : Nat) (p : Descriptor → Bool) (j : Job)
    (i : InFlight) : Prop where
  job : s.job? job = some j
  core : (s.core (j.coreOf slot)).state ≠ .waitWeights
  ready : j.ready slot op p = some i

/-- Descriptor `i` of the slot has acted, with a status and a RESULT (R162, R171). -/
def State.Acted (t : State) (job : Word) (slot : Fin 32) (i : InFlight) (status : Byte) (result : Word) : Prop :=
  ∃ x, t.job? job = some x ∧ ∃ y ∈ (x.slots.getD slot {}).inFlight,
    y.index = i.index ∧ y.desc = i.desc ∧ y.stage = .acted ∧ y.status = status ∧ y.result = result

/-- Descriptor `i` of the slot waits, with the output tiles `tiles` to come from the arrays. -/
def State.Waits (t : State) (job : Word) (slot : Fin 32) (i : InFlight) (tiles : List ArrayTile) : Prop :=
  ∃ x, t.job? job = some x ∧ ∃ y ∈ (x.slots.getD slot {}).inFlight,
    y.index = i.index ∧ y.desc = i.desc ∧ y.stage = .waiting ∧ y.work.tiles = tiles

/-- The slot of the job reads the bytes `m` through a handle (R148). -/
def State.Reads (t : State) (job : Word) (slot : Fin 32) (obj : Word) (m : Memory) : Prop :=
  ∃ x, t.job? job = some x ∧ x.bytes slot obj = m

/-- A handle that a descriptor of the job writes: T1 scratch, the job's Plate region or an output (R148). -/
def Job.writable (j : Job) (id : Word) : Bool :=
  match j.handle id with
  | .t1 => true
  | .plateLocal => true
  | .out _ => true
  | _ => false

/-- A context command of an open partition session, for a context in the range of its partition (R197, R211, R228). -/
structure State.CtxCommand (s : State) (i : Fin 16) (b : CtxBody) (p : Nat) : Prop where
  opened : (s.session i).open_ = true
  part : (s.session i).part = some p
  range : s.inRange p (bodyCtx b) = true
  cmd : 1 ≤ fld b.w0 7 0 ∧ fld b.w0 7 0 ≤ 10

/-- The launch that entry `i` makes has taken a place, and a deferred firing of it that still waited is dropped
(R57, R59). -/
def Rgn.launched (i : Nat) (r : Rgn) : Rgn :=
  { r with launches := r.launches + 1, deferred := r.deferred.filter (· != i) }

/-- Every register with a range that the manual states holds a value in it (R46, R280, R404, R490, R491). -/
structure HostRegs.InRange (r : HostRegs) : Prop where
  avsMin : 460 ≤ r.avsMin.toNat
  avsOrder : r.avsMin.toNat ≤ r.avsMax.toNat
  avsMax : r.avsMax.toNat ≤ 600
  syncThresh : 10 ≤ r.syncThresh.toNat ∧ r.syncThresh.toNat ≤ 1000000
  stepLimit : 100 ≤ r.stepLimit.toNat ∧ r.stepLimit.toNat ≤ 1000000000
  setNs : r.setNs.toNat < 1000000000
  ppsWidth : 1 ≤ r.ppsWidth.toNat ∧ r.ppsWidth.toNat ≤ 500000
  readaheads : r.readahead.length = 8
  readahead : ∀ x ∈ r.readahead, x.toNat ≤ 16
  limRto : 100 ≤ r.limRto.toNat ∧ r.limRto.toNat ≤ 100000
  lead : 1 ≤ r.lead.toNat ∧ r.lead.toNat ≤ 10

/-- `q` holds what TB_LOCK protects as `r` does, and the lock is set (R489). -/
structure HostRegs.TbLocked (r q : HostRegs) : Prop where
  tbLock : q.tbLock = true
  syncThresh : q.syncThresh = r.syncThresh
  stepLimit : q.stepLimit = r.stepLimit
  ppsOutEn : q.ppsOutEn = r.ppsOutEn
  ppsInMode : q.ppsInMode = r.ppsInMode
  ppsWidth : q.ppsWidth = r.ppsWidth
  gpioFilter : q.gpioFilter = r.gpioFilter

/-- `q` holds what GLB_LOCK protects as `r` does, and the lock is set (R489). -/
structure HostRegs.GlbLocked (r q : HostRegs) : Prop where
  glbLock : q.glbLock = true
  avsMin : q.avsMin = r.avsMin
  avsMax : q.avsMax = r.avsMax

/-- The offset of a Sync: the master's time and the mean link delay, less the corrected receive stamp (R42, R50). -/
def State.syncOffset (s : State) (p : Port) (raw : Int) (sec : BitVec 48) (ns : Nat)
    (correction : Int) : Int :=
  (sec.toNat : Int) * unitsSec + (ns : Int) * unitsNs + correction * 65536 + (s.gptpPort p).meanDelay - s.rxStamp p raw

/-- A frame in progress takes `g` for `f`, and its payload has room (R306, R308, R309): the payload stays within 32 MiB and
the units it grows by are free. -/
def State.HasRoom (s : State) (f g : OpenFrame) : Prop :=
  g.payload.length ≤ 32 * 2 ^ 20 ∧ frameUnits g.payload.length - frameUnits f.payload.length ≤ s.t2Free

/-- The sample that a channel of a group latches: the halfword of the newest version of its stream, if that version is new
to the group, not a repeat and long enough (R366, R367). -/
def State.FreshSample (s : State) (o : Outline) (g : Nat) (c : ChanEntry) (v : LandedFrame) (i : Nat) : Prop :=
  (s.stream c.inStream).versions.getLast? = some v ∧ (s.styGroup g).latched.lookup c.inStream ≠ some v.index ∧
    v.repeat_ = false ∧
    i = (o.channels.filter fun d => d.inStream = c.inStream && decide (d.channel < c.channel)).length ∧
    2 * i + 2 ≤ v.payload.length

/-- A frame has come in on a port: it is counted, and its stamp less the port's correction is the port's newest (R50). -/
def State.arrived (p : Port) (stamp : Int) (s : State) : State :=
  (s.updPort p fun x => { x with rxStamp := stamp - rxCorrection (s.ethPort p).speed }).bump (.ethRxFrames p)

/-- The entry of a channel in an output frame (R370). -/
def State.outputWord (s : State) (g : Nat) (c : ChanEntry) : Nat :=
  let x := s.styChannel c.channel
  let pass := s.groupPasses g && x.ready
  (if pass then x.computed else x.lastPassed).toNat * 2 ^ 16 + flag (!pass) 8 +
    flag (x.run = .fault || x.run = .waitRef) 9 + flag x.missed 10

/-- A write of one word in a device session by `f`, answered with status 0 and one word written (R399). -/
def State.WritesOne (s : State) (i : Fin 16) (tag addr v : Word) (f : HostRegs → HostRegs) : Prop :=
  exec (.regWrite i tag addr [v]) s = .next
    (State.sendTo i (.regAck tag 0 1) { s.delivered i with regs := f (s.delivered i).regs })

/-- Proof has entered SAFE_STATE by cause `n`: the cause is recorded, both stop lines and SAFE are driven, the heartbeat is
off, and an error record 0x0073 leaves for the log (R422, R425, R445). -/
def State.EntersSafeState (s t : State) (n : Nat) : Prop :=
  t.prf.safeCause = s.prf.safeCause ||| BitVec.ofNat 8 (2 ^ n) ∧ t.prf.state = .safeState ∧ t.prf.stopA = true ∧
    t.prf.stopB = true ∧ t.prf.safePin = true ∧ t.prf.wdo = false ∧ t.prf.faultN = true ∧
    ∃ r, t.brn.inbox = s.brn.inbox ++ [r] ∧ r.kind = 0x0E ∧ r.code = 0x0073 ∧ Only [.prf, .brn] s t

/-- Command `c` begins a new image, cancels the one that is staged, is a partition reset, or is a register write that reaches
OTL_STAGE, OTL_CANCEL or GLB_PART_RESET. -/
def replacesImage : Instr → Bool
  | .otlStageBegin _ => true
  | .glbPartReset _ => true
  | .otlCancel _ => true
  | .regWrite _ _ a vs => [0x40004, 0x40020, 8].any fun n => decide (a.toNat ≤ n) && decide (n < a.toNat + 4 * vs.length)
  | _ => false

/-- The fields of the state that a command may change. -/
def mayChange : Instr → List Part
  | .coreJobLaunch .. | .drypointJobLaunch .. => [.counts, .rgn, .jobs, .prf, .brn]
  | .moveLaunch .. =>
    [.fresh, .counts, .rgn, .cores, .jobs, .ctx, .tir, .chn, .lnw, .ing, .trc, .xh, .eth, .prf, .brn]
  | .stylusLaunch .. => [.counts, .rgn, .sty, .prf, .brn]
  | .proofCheckLaunch .. => [.fresh, .counts, .rgn, .sty, .prf, .brn]
  | .ethGateAnchor .. => [.counts, .rgn, .eth, .prf, .brn]
  | .tierPrefetch .. => [.fresh, .counts, .rgn, .cores, .jobs, .tir, .chn, .lnw, .prf, .brn]
  | .gpioHigh .. | .gpioLow .. | .gpioToggle .. | .gpioPulse .. => [.counts, .tb, .rgn, .prf, .brn]
  | .gpioPulseEnd .. | .tbCapture .. | .syncReceiptTimeout .. | .announceReceiptTimeout ..
    | .pdelayRespReceived .. | .tbStepAccept .. | .ppsOutRise .. | .ppsOutFall .. | .ppsLost .. | .gcapPop ..
    | .latchedHiRead .. | .slewComplete .. => [.tb]
  | .selftestSlice .. => [.counts, .rgn, .xh, .prf, .brn]
  | .rotationInstant .. => [.counts, .glb, .rgn, .cores, .clusters, .prf, .brn]
  | .carriedFiringLaunch .. | .deferredFiringLaunch .. =>
    [.fresh, .counts, .glb, .tb, .rgn, .cores, .clusters, .jobs, .ctx, .tir, .chn, .lnw, .ing, .trc, .xh, .sty,
     .eth, .prf, .brn]
  | .spareSelftestDone .. => [.cores, .clusters, .prf, .brn]
  | .rotationHandoverDone .. => [.glb, .cores, .clusters, .prf]
  | .pllLossOfLock .. => [.counts, .glb, .prf, .brn]
  | .syncReceived .. | .followUpReceived .. => [.counts, .tb, .rgn, .sty, .eth, .prf, .brn]
  | .announceReceived .. | .gpioEdgeCapture .. => [.counts, .tb]
  | .pdelayReqReceived .. | .gateListAdvance .. | .frerRecoveryReset .. | .downLinkDiscard ..
    | .lldpTransmit .. | .partnerExpire .. | .arpRequest .. | .bypassArm .. | .bypassAnnounce ..
    | .bypassOpen .. | .ackDelay .. | .preemptionVerifyTimeout .. => [.eth]
  | .pdelayInterval .. | .syncInterval .. | .announceInterval .. | .linkUp .. => [.tb, .eth]
  | .tbSetGo .. => [.counts, .tb, .rgn, .sty, .prf, .brn]
  | .tbAdj .. => [.fresh, .tb]
  | .tbGpioOut .. => [.regs, .tb]
  | .ppsInEdge .. => [.fresh, .counts, .tb]
  | .rgnEntryDisable .. | .rgnEntryEnable .. => [.counts, .rgn]
  | .otlStageBegin .. => [.counts, .otl, .tir]
  | .otlValidate .. => [.counts, .otl]
  | .validationDone .. => [.otl, .tir]
  | .otlCommitArm .. => [.counts, .rgn, .otl]
  | .otlCancel .. => [.counts, .rgn, .otl, .tir]
  | .commitPrepare .. => [.glb, .rgn, .otl, .chn, .plt]
  | .epochCommit .. =>
    [.fresh, .counts, .glb, .tb, .rgn, .otl, .cores, .clusters, .jobs, .ctx, .tir, .chn, .lnw, .ing, .trc, .xh,
     .sty, .eth, .prf, .brn, .plt]
  | .domainPowerDown .. =>
    [.fresh, .counts, .glb, .tb, .cores, .jobs, .ctx, .tir, .chn, .lnw, .ing, .trc, .xh, .sty, .eth, .prf, .brn,
     .plt]
  | .gemm .. | .attnDecode .. | .attnPrefill .. | .tileComplete .. | .washResidueFault .. =>
    [.fresh, .counts, .glb, .cores, .clusters, .jobs, .ctx, .tir, .chn, .lnw, .ing, .trc, .xh, .eth, .prf, .brn]
  | .conv .. | .pool .. | .ewApply .. | .pwlLoad .. | .norm .. | .scan .. | .gate .. | .moveTier ..
    | .planqSearch .. | .planqRevalidate .. | .planqReadPlan .. | .planqPublish .. | .fuse ..
    | .descriptorIssue .. | .accBankFree .. | .marginResidueFault .. | .jobCancel .. | .jobStart ..
    | .jobSealEdge .. | .jobDeadline .. | .restartIssue .. | .tierRequestTimeout .. | .unitUncorrectable ..
    | .retrainDone .. | .lineworkTimeout .. | .plannerFault .. | .checkMessage .. | .ctrlWatchdogExpire ..
    | .t1Uncorrectable .. =>
    [.fresh, .counts, .cores, .jobs, .ctx, .tir, .chn, .lnw, .ing, .trc, .xh, .eth, .prf, .brn]
  | .sort .. | .moveCopy .. | .moveLayout .. | .waittAbsolute .. | .waittRelative .. | .waittComplete ..
    | .signal .. | .waits .. | .waitsSatisfied .. | .marginQueueStart .. | .marginDescriptorDone ..
    | .jobLaunchInstant .. => [.jobs]
  | .moveTranspose .. => [.fresh, .jobs]
  | .checkResidue .. | .checkStats .. => [.jobs, .prf]
  | .descriptorComplete .. => [.fresh, .counts, .jobs, .tir]
  | .weightBufferReady .. => [.counts, .cores]
  | .weightLoadDone .. => [.counts, .cores, .jobs]
  | .jobSubmit .. => [.fresh, .counts, .jobs, .eth]
  | .ctxOpen .. => [.fresh, .counts, .ctx, .eth]
  | .ctxFork .. | .ctxReset .. | .ctxAttach .. | .exportDone .. | .ctxImport .. | .ctxSwapOut ..
    | .ctxSwapIn .. | .swapDone .. | .readoptVerifyDone .. =>
    [.fresh, .counts, .cores, .jobs, .ctx, .tir, .chn, .lnw, .eth]
  | .ctxTruncate .. | .ctxClose .. => [.counts, .ctx, .tir, .eth]
  | .ctxExport .. => [.counts, .ctx, .eth, .sec]
  | .pageSeal .. => [.ctx]
  | .kvPageDemote .. | .extentMiss .. | .extentFetchDone .. | .allocationWaitEnd ..
    | .lineworkPacketDelivered .. => [.fresh, .counts, .cores, .jobs, .tir, .chn, .lnw]
  | .promote .. | .objLoadBegin .. => [.fresh, .counts, .cores, .jobs, .tir, .chn, .lnw, .eth]
  | .release .. | .demote .. | .drop .. => [.counts, .cores, .tir, .chn, .lnw, .eth]
  | .pin .. | .unpin .. | .tirDirQuery .. | .objRead .. => [.counts, .tir, .eth]
  | .lateCompletion .. | .cntClear .. => [.counts]
  | .tagRelease .. => [.tir, .lnw]
  | .tierWriteDone .. => [.counts, .cores, .jobs, .ctx, .tir, .chn, .lnw, .eth]
  | .directoryMirrorWrite .. | .rebuildDone .. => [.tir]
  | .tierReadTransaction .. => [.fresh, .counts, .tir, .chn, .lnw]
  | .tierWriteTransaction .. => [.counts, .chn]
  | .periodicRetrain .. | .driftRetrain .. | .chnRetrain .. => [.chn]
  | .regulationWindow .. => [.fresh, .counts, .lnw]
  | .lnwBudget .. => [.counts, .lnw]
  | .csiFrameStart .. | .frameSeal .. => [.fresh, .counts, .ing, .prf]
  | .csiLongPacket .. | .fragmentTimeout .. => [.counts, .ing, .prf]
  | .csiEmbeddedData .. | .csiFrameEnd .. => [.ing]
  | .sensorFragment .. => [.fresh, .counts, .ing, .eth, .prf]
  | .streamStale .. => [.ing, .prf]
  | .egoPropagate .. | .egoMeasure .. | .egoPublish .. | .egoTimeout .. | .trcEgoCapture ..
    | .trackCoastExpire .. | .demotionExpire .. => [.trc]
  | .tracingQueueStart .. => [.jobs, .trc]
  | .calibrationRefine .. => [.fresh, .counts, .trc]
  | .plannerQueryStart .. | .publishCopyDone .. => [.counts, .jobs, .xh]
  | .searchEnd .. | .searchBudgetExpire .. | .repairBudgetExpire .. => [.fresh, .counts, .jobs, .xh]
  | .publishCopyStart .. => [.xh]
  | .stylusGuard .. | .stylusEngineDone .. => [.counts, .sty, .brn]
  | .outputFrameForm .. => [.counts, .sty, .eth]
  | .gateWindowClose .. | .frameReceive .. | .lldpReceive .. | .limianAck .. => [.counts, .eth]
  | .frameTransmit .. | .regRead .. => [.fresh, .counts, .tb, .eth]
  | .linkDown .. | .bypassClose .. => [.counts, .tb, .eth]
  | .bypassOpenFail .. => [.counts, .tb, .eth, .brn]
  | .bypassCloseReq .. | .bypassRetry .. => [.regs, .eth]
  | .limianOpen .. => [.fresh, .counts, .eth]
  | .limianClose .. | .retransmitTimeout .. => [.counts, .jobs, .ctx, .tir, .eth]
  | .sessionIdleTimeout .. => [.jobs, .ctx, .tir, .eth]
  | .regWrite .. =>
    [.fresh, .counts, .regs, .glb, .tb, .rgn, .otl, .cores, .jobs, .ctx, .tir, .chn, .lnw, .ing, .trc, .xh, .sty,
     .eth, .prf, .brn, .sec]
  | .objData .. => [.counts, .otl, .tir, .lnw, .eth]
  | .objLoadEnd .. => [.fresh, .counts, .otl, .cores, .jobs, .tir, .chn, .lnw, .eth]
  | .objPush .. => [.fresh, .counts, .tir, .eth]
  | .wdiEdge .. | .conflictBoxExpire .. | .sensorFaultClear .. => [.prf]
  | .wdoToggle .. | .lockstepMismatch .. | .proofSramUncorrectable .. | .proofClockWindow .. | .voltageTrip ..
    | .stopReadbackMismatch .. => [.prf, .brn]
  | .gateSampleMessage .. | .diagIntervalMissed .. => [.counts, .prf, .brn]
  | .prfRelease .. => [.counts, .prf]
  | .sliceDone .. => [.fresh, .counts, .cores, .jobs, .ctx, .tir, .chn, .lnw, .ing, .trc, .xh, .sty, .eth, .prf, .brn]
  | .sliceAbort .. => [.counts, .xh, .prf]
  | .diagnosisDone .. => [.counts, .cores, .clusters, .brn]
  | .coreRetire .. => [.fresh, .counts, .glb, .cores, .clusters, .jobs, .trc, .xh, .prf, .brn]
  | .plateScrub .. => [.counts, .plt]
  | .plateUncorrectable .. =>
    [.fresh, .counts, .cores, .jobs, .ctx, .tir, .chn, .lnw, .ing, .trc, .xh, .eth, .prf, .brn, .plt]
  | .plateCorrectedLimit .. => [.counts, .brn, .plt]
  | .routerLaneSwitch .. => [.counts, .lnw, .brn]
  | .errorReport .. => [.counts, .eth, .brn]
  | .brnLogPop .. => [.brn]
  | .lockSet .. | .glbAvsLimit .. => [.regs]
  | .avsStep .. | .pmbusRetry .. | .glbResetCold .. | .glbResetWarm .. | .partitionResetDone .. | .pllLocked .. =>
    [.glb]
  | .secBootWriteFirmware .. | .secBootWriteOutline .. | .bootWriteDone .. | .secRollbackCommit ..
    | .secKeyInstall .. | .secRevoke .. | .secLockAdvance .. => [.sec]
  | .recoveryImageLoad .. | .powerOn .. | .resetNAssert .. | .resetNRelease .. | .supplyOutOfRange ..
    | .vddAonLoss .. =>
    [.edge, .fresh, .counts, .regs, .glb, .tb, .rgn, .otl, .cores, .clusters, .jobs, .ctx, .tir, .chn, .lnw, .ing,
     .trc, .xh, .sty, .eth, .prf, .brn, .sec, .plt]
  | .glbPartReset .. =>
    [.fresh, .counts, .glb, .rgn, .otl, .cores, .jobs, .ctx, .tir, .chn, .lnw, .ing, .trc, .xh, .sty, .eth, .prf,
     .brn]
  | .fuseMapLoaded .. => [.glb, .cores]
  | .mbistDone .. => [.glb, .cores, .brn, .plt]
  | .trainingDone .. =>
    [.fresh, .counts, .glb, .cores, .jobs, .ctx, .tir, .chn, .lnw, .ing, .trc, .xh, .eth, .prf, .brn]
  | .firmwareVerified .. => [.glb, .prf, .sec]
  | .bootOutlineLoad .. =>
    [.fresh, .counts, .glb, .tb, .rgn, .otl, .cores, .clusters, .jobs, .ctx, .tir, .chn, .lnw, .ing, .trc, .xh,
     .sty, .eth, .prf, .brn, .sec]
  | .jobsReady .. => [.glb, .rgn, .cores, .clusters, .prf]
  | .domainPowerUp .. => [.glb, .chn, .plt]
  | .stepHoldEnd .. => [.tb, .prf]

end Sys2Proof.Machine
end

