-- ==== Sys2Proof/Certificates/Slice0/Obligations.lean ====
section
/-!
DEFINITION. The obligations: what the commands of the T7 do, what each leaves, and what every step keeps.
-/

open Sys2Proof Sys2Proof.Machine

/-! ## The machine as a whole -/

/-- A step with a command in front is that command's effect on the state with the rest of the queue. -/
def Obligations.StepRunsTheFrontCommand : Prop :=
  ∀ (s : State) (c : Instr) (rest : List Instr), s.pending = c :: rest →
    step s = exec c { s with pending := rest }

/-- With no command waiting, one CTRL edge passes: a device without power or held by RESET_N does nothing; a register
reset whose time has come is taken; otherwise the count of edges rises by one, local time advances by the nominal
period and the trim in force, and every host register and every block that commands alone change stays as it was
(log 30: the tick is the model's own). -/
def Obligations.IdleStepIsOneClockEdge : Prop :=
  ∀ s : State, s.pending = [] →
    ∃ t, step s = .next t ∧
      (s.clocked = false → t = s) ∧
      (s.clocked = true → (∀ r, s.glb.resetDue = some r → s.edge < r.1) →
        t.edge = s.edge + 1 ∧ t.tb.time = timeOfUnits (s.now + s.tb.period) ∧
          Only [.pending, .edge, .fresh, .glb, .tb, .rgn] s t) ∧
      (∀ r, s.clocked = true → s.glb.resetDue = some r → r.1 ≤ s.edge → t = s.restart r.2 .plls)

/-- Every command of the table has an effect in every state, but for a rail beyond its absolute maximum. -/
def Obligations.EveryCommandRunsOrIsARailFault : Prop :=
  ∀ (c : Instr) (s : State), (∃ t, exec c s = .next t) ∨
    ∃ rail mv, c = .voltageTrip rail mv ∧ railLimit rail < mv ∧ exec c s = .fault .beyondAbsoluteMaximum

/-- A command leaves the queue as it is, and takes no time, but for a reset, after which the edges are counted from P0
and the host's registers hold their reset values. -/
def Obligations.CommandsLeaveQueueAndClock : Prop :=
  ∀ (c : Instr) (s t : State), exec c s = .next t →
    t.pending = s.pending ∧ (t.edge = s.edge ∨ t.edge = 0 ∧ t.regs = State.reset.regs)

/-- No command changes a field of the state but those of its list: the queue and the edge count of none that is not a reset,
the host registers of none that writes no register, objects, jobs, contexts, ports, time, channels and keys only of
the commands that the manual gives an effect on them. -/
def Obligations.CommandsChangeOnlyTheirParts : Prop :=
  ∀ (c : Instr) (s t : State), exec c s = .next t → Only (mayChange c) s t

/-- The registers with a range hold values of it at reset. -/
def Obligations.RegistersInRangeAtReset : Prop :=
  State.reset.regs.InRange

/-- Every step, from any state whose registers hold values of their ranges, leaves them so (R46, R280, R404, R490,
R491: writes outside the range are ignored). -/
def Obligations.StepKeepsRegistersInRange : Prop :=
  ∀ s t : State, s.regs.InRange → step s = .next t → t.regs.InRange

/-- R489: a lock bit resets to 0; writing 1 sets it and writing 0 does nothing; once it is set, no step that is not a
reset changes a register that it protects, or clears it: not a register write, a partition reset, an epoch boundary or
any other command; and in one REG_WRITE frame a write after the one that sets the lock is ignored. -/
def Obligations.LockBitsFreezeTheirRegisters : Prop :=
  State.reset.regs.glbLock = false ∧ State.reset.regs.tbLock = false ∧
  (∀ (s : State) (v : Word), bit v 0 = true → ∃ t, exec (.lockSet .tb v) s = .next t ∧ t = s.updRegs fun r => { r with tbLock := true }) ∧
  (∀ (s : State) (v : Word), bit v 0 = true → ∃ t, exec (.lockSet .glb v) s = .next t ∧ t = s.updRegs fun r => { r with glbLock := true }) ∧
  (∀ (s : State) (b : Block) (v : Word), bit v 0 = false → exec (.lockSet b v) s = .next s) ∧
  (∀ s t : State, s.regs.tbLock = true → step s = .next t → s.regs.TbLocked t.regs ∨ t.regs = State.reset.regs ∧ t.edge = 0) ∧
  (∀ s t : State, s.regs.glbLock = true → step s = .next t → s.regs.GlbLocked t.regs ∨ t.regs = State.reset.regs ∧ t.edge = 0) ∧
  (∀ (s t : State) (i : Fin 16) (tag v : Word) (vs : List Word), (s.session i).open_ = true →
    (s.session i).part = none → s.glb.stage ≠ .firmwareRecovery → bit v 0 = true →
    (exec (.regWrite i tag 0x1006C (v :: vs)) s = .next t → s.regs.TbLocked t.regs) ∧
    (exec (.regWrite i tag 0x2C (v :: vs)) s = .next t → s.regs.GlbLocked t.regs)) ∧
  (∀ (s : State) (vs : List Word) (a : Nat),
    (s.regs.tbLock = true → s.regs.TbLocked (State.writeWords vs a s).2.2.regs) ∧
    (s.regs.glbLock = true → s.regs.GlbLocked (State.writeWords vs a s).2.2.regs))

/-- Register access (R399, R482, R483, R485, R489, R490): a mapped word is read, an unmapped one is BAD_ADDRESS, a count beyond
64 BAD_FORMAT, a write in a partition session NO_RIGHTS; a value in range is taken and one out of range, or behind a
lock, is ignored, both being acknowledged. -/
def Obligations.RegistersAreReadAndWritten : Prop :=
  (∀ (s : State) (i : Fin 16) (tag a : Word) (w : Word), (s.session i).open_ = true →
    (s.delivered i).readWord (s.session i).part a.toNat = some w →
    exec (.regRead i tag a 1) s = .next (State.sendTo i (.regData tag 0 [w]) ((s.delivered i).readEffect a.toNat))) ∧
  (∀ (s : State) (i : Fin 16) (tag a : Word) (n : Nat), (s.session i).open_ = true → 1 ≤ n → n ≤ 64 →
    a.toNat % 4 ≠ 0 ∨ blockOf a.toNat = none →
    exec (.regRead i tag a n) s = .next (State.sendTo i (.regData tag 0x11 []) (s.delivered i))) ∧
  (∀ (s : State) (i : Fin 16) (tag a : Word) (n : Nat), (s.session i).open_ = true → n = 0 ∨ 64 < n →
    exec (.regRead i tag a n) s = .next (State.sendTo i (.regData tag 0x16 []) (s.delivered i))) ∧
  (∀ (s : State) (i : Fin 16) (tag a : Word) (p : Nat) (ws : List Word), (s.session i).open_ = true →
    (s.session i).part = some p →
    exec (.regWrite i tag a ws) s = .next (State.sendTo i (.regAck tag 0x10 0) (s.delivered i))) ∧
  (∀ (s : State) (i : Fin 16) (tag v : Word), (s.session i).open_ = true → (s.session i).part = none →
    s.glb.stage ≠ .firmwareRecovery →
    s.WritesOne i tag 0x10020 v (fun r =>
      if r.tbLock = false ∧ 10 ≤ fld v 19 0 ∧ fld v 19 0 ≤ 1000000 then { r with syncThresh := v.setWidth 20 } else r) ∧
    s.WritesOne i tag 0x10024 v (fun r =>
      if r.tbLock = false ∧ 100 ≤ fld v 29 0 ∧ fld v 29 0 ≤ 1000000000 then { r with stepLimit := v.setWidth 30 } else r) ∧
    s.WritesOne i tag 0x10050 v (fun r =>
      if r.tbLock = false ∧ 1 ≤ fld v 18 0 ∧ fld v 18 0 ≤ 500000 then { r with ppsWidth := v.setWidth 19 } else r) ∧
    s.WritesOne i tag 0xC00014 v (fun r => { r with ipAddr := v }) ∧
    s.WritesOne i tag 0xC00018 v (fun r =>
      if 100 ≤ fld v 16 0 ∧ fld v 16 0 ≤ 100000 then { r with limRto := v.setWidth 17 } else r) ∧
    s.WritesOne i tag 0x700020 v (fun r => { r with sel := v.setWidth 3 }) ∧
    s.WritesOne i tag 0xF0001C v (fun r => { r with cak := v.setWidth 8 }) ∧
    (s.otl.state ≠ .armed →
      s.WritesOne i tag 0x40014 v (fun r => { r with commitTime := { r.commitTime with w0 := v } }))) ∧
  (∀ (s : State) (v : Word), s.regs.glbLock = false → 460 ≤ fld v 9 0 → fld v 9 0 ≤ fld v 25 16 → fld v 25 16 ≤ 600 →
    exec (.glbAvsLimit v) s = .next { s with regs := { s.regs with
      avsMin := v.extractLsb' 0 10
      avsMax := v.extractLsb' 16 10 } }) ∧
  (∀ (s : State) (v : Word), s.regs.glbLock = true ∨ fld v 9 0 < 460 ∨ fld v 25 16 < fld v 9 0 ∨ 600 < fld v 25 16 →
    exec (.glbAvsLimit v) s = .next s)

/-- R488: a partition session reads every register as a device session does, but for CTX_ENTRY_n of a context outside its
partition's range, whose words it reads as zeros. -/
def Obligations.PartitionSessionsReadAllButForeignContexts : Prop :=
  (∀ (s : State) (p a : Nat), a < 0x1000000 ∨ 0x1000000 + 64 * 16384 ≤ a → s.readWord (some p) a = s.readWord none a) ∧
  (∀ (s : State) (p n k : Nat), n < 16384 → k < 16 → s.inRange p n = true →
    s.readWord (some p) (0x1000000 + 64 * n + 4 * k) = s.readWord none (0x1000000 + 64 * n + 4 * k)) ∧
  (∀ (s : State) (p n k : Nat), n < 16384 → k < 16 → s.inRange p n = false → s.glb.stage ≠ .firmwareRecovery →
    s.readWord (some p) (0x1000000 + 64 * n + 4 * k) = some 0) ∧
  (∀ (s : State) (i : Fin 16) (tag a : Word) (p n k : Nat), (s.session i).open_ = true → (s.session i).part = some p →
    n < 16384 → k < 16 → s.inRange p n = false → s.glb.stage ≠ .firmwareRecovery →
    a.toNat = 0x1000000 + 64 * n + 4 * k →
    exec (.regRead i tag a 1) s = .next (State.sendTo i (.regData tag 0 [0]) ((s.delivered i).readEffect a.toNat))) ∧
  (∀ (s : State) (n k : Nat), n < 16384 → k < 16 → s.glb.stage ≠ .firmwareRecovery →
    (s.readWord none (0x1000000 + 64 * n + 4 * k)).isSome = true)

/-- The bytes of an object, a buffer or an area (R7, R253): a byte that was written reads back, every other reads as before, a
byte that was never written reads 0, and two memories in their canonical form that read alike are equal. -/
def Obligations.MemoriesReadWhatWasWritten : Prop :=
  (∀ (m : Memory) (a : Nat) (bs : List Byte), Memory.wf m = true →
    (∀ i, i < bs.length → Memory.read (Memory.writeBytes m a bs) (a + i) = bs.getD i 0) ∧
    (∀ x, x < a ∨ a + bs.length ≤ x → Memory.read (Memory.writeBytes m a bs) x = Memory.read m x) ∧
    Memory.wf (Memory.writeBytes m a bs) = true) ∧
  (∀ (m : Memory) (n x : Nat), Memory.wf m = true →
    Memory.read (Memory.truncate m n) x = (if x < n then Memory.read m x else 0)) ∧
  (∀ (m : Memory) (a n x : Nat), Memory.wf m = true →
    Memory.read (Memory.clear m a n) x = (if a ≤ x ∧ x < a + n then 0 else Memory.read m x)) ∧
  (∀ m n : Memory, Memory.wf m = true → Memory.wf n = true → (∀ x, Memory.read m x = Memory.read n x) → m = n) ∧
  (∀ (m : Memory) (a : Nat) (w : Word), Memory.wf m = true →
    Memory.readWord (Memory.writeBytes m a (wordsBytes [w])) a = w)

/-! ## Registration and time -/

/-- The firings that launch (R56 to R60, R69, R78, R155): each takes a launch place of its edge, and its target acts. A job
template starts a job in LAUNCHED at the registration instant; a registered MOVE starts a job of one descriptor with
its source bound; a GPIO action drives its pin. -/
def Obligations.RegisteredFiringsLaunchTheirTargets : Prop :=
  (∀ (s : State) (e : BitVec 12) (r : RegEntry) (x : TemplateRec), s.Launches 1 e.toNat r → s.entryJob e.toNat = false →
    s.otl.running.templates[r.arg.toNat]? = some x →
    ∃ t, exec (.coreJobLaunch e) s = .next t ∧ Only [.counts, .rgn, .jobs] s t ∧ t.rgn = s.rgn.launched e.toNat ∧
      t.jobs = { s.jobs with nextId := nextJobId s.jobs.nextId, list :=
        s.jobs.list ++ [({
          id := s.jobs.nextId, part := x.part, origin := .fired e.toNat, chainObj := x.chain
          deadlineUs := x.deadline, budget := x.restart, outBase := x.outBase, state := .launched
          launch := s.instantOf r, launchEdge := s.edge } : Job)] }) ∧
  (∀ (s : State) (e : BitVec 12) (r : RegEntry) (x : TemplateRec), s.Launches 2 e.toNat r → s.entryJob e.toNat = false →
    s.otl.running.templates[r.arg.toNat]? = some x →
    ∃ t, exec (.drypointJobLaunch e) s = .next t ∧ Only [.counts, .rgn, .jobs] s t ∧ t.rgn = s.rgn.launched e.toNat ∧
      t.jobs = { s.jobs with nextId := nextJobId s.jobs.nextId, list :=
        s.jobs.list ++ [({
          id := s.jobs.nextId, part := x.part, origin := .fired e.toNat, chainObj := x.chain
          deadlineUs := x.deadline, budget := x.restart, outBase := x.outBase, state := .launched
          launch := s.instantOf r, launchEdge := s.edge } : Job)] }) ∧
  (∀ (s : State) (e : BitVec 12) (r : RegEntry) (w : List Word) (o : ObjVersion), s.Launches 3 e.toNat r →
    s.entryJob e.toNat = false → s.otl.running.moves[r.arg.toNat]? = some w →
    (s.tir.objs.find? fun o => o.obj = w.getD 4 0 && o.part = r.part && o.newest && o.state = .sealed) = some o →
    ∃ t, exec (.moveLaunch e) s = .next t ∧ Only [.counts, .rgn, .jobs, .tir] s t ∧ t.rgn = s.rgn.launched e.toNat ∧
      ∃ j ∈ t.jobs.list, j.id = s.jobs.nextId ∧ j.part = r.part ∧ j.origin = .move e.toNat ∧ j.state = .running ∧
        j.launch = s.instantOf r ∧
        j.bound = [{ obj := w.getD 4 0, part := r.part, ver := o.ver, len := o.len, data := o.data }]) ∧
  (∀ (s : State) (e : BitVec 12) (r : RegEntry), s.Launches 8 e.toNat r → r.action = 0 →
    ∃ t, exec (.gpioHigh e) s = .next t ∧ Only [.counts, .rgn, .tb] s t ∧ t.rgn = s.rgn.launched e.toNat ∧
      t.tb = { s.tb with pins := s.tb.pins.modify r.unit fun p =>
        if p.dir = .registered then { p with level := true, pulseEnd := none } else p }) ∧
  (∀ (s : State) (e : BitVec 12) (r : RegEntry), s.Launches 8 e.toNat r → r.action = 1 →
    ∃ t, exec (.gpioLow e) s = .next t ∧ Only [.counts, .rgn, .tb] s t ∧ t.rgn = s.rgn.launched e.toNat ∧
      t.tb = { s.tb with pins := s.tb.pins.modify r.unit fun p =>
        if p.dir = .registered then { p with level := false, pulseEnd := none } else p }) ∧
  (∀ (s : State) (e : BitVec 12) (r : RegEntry), s.Launches 8 e.toNat r → r.action = 2 →
    ∃ t, exec (.gpioToggle e) s = .next t ∧ Only [.counts, .rgn, .tb] s t ∧ t.rgn = s.rgn.launched e.toNat ∧
      t.tb = { s.tb with pins := s.tb.pins.modify r.unit fun p =>
        if p.dir = .registered then
          { p with level := if p.pulseEnd.isSome then false else !p.level, pulseEnd := none } else p }) ∧
  (∀ (s : State) (e : BitVec 12) (r : RegEntry), s.Launches 8 e.toNat r → r.action = 3 →
    ∃ t, exec (.gpioPulse e) s = .next t ∧ Only [.counts, .rgn, .tb] s t ∧ t.rgn = s.rgn.launched e.toNat ∧
      t.tb = { s.tb with pins := s.tb.pins.modify r.unit fun p =>
        if p.dir = .registered then
          { p with level := true, pulseEnd := some (max (s.edge + r.arg.toNat) (p.pulseEnd.getD 0)) } else p })

/-- The firings of the safety and sensing engines. STYLUS: SEQ of the group rises by 1 and its firing begins, with no verdict
yet, and with HOLD where PD_STYLUS is off. PROOF: a frame joins the window of the set, which is busy for its bound, and
the counts since the last firing begin again. ETH_GATE: the gate list of the port restarts at entry 0 on this edge, and
no other port changes. TIER_PREFETCH: the entry takes a T2 reference on the newest version of its object on the first
common TIER/CTRL edge, and waits for that edge until then; P0 is one (the model's choice, log 30). SELFTEST: the slice
runs for its length where no other of the unit runs and none of the next safety launches is in its way; the planner's
query is paused for it. -/
def Obligations.EngineFiringsStartTheirWork : Prop :=
  (∀ (s : State) (e : BitVec 12) (r : RegEntry), s.Launches 4 e.toNat r → s.stylusOn = false →
    ∃ t, exec (.stylusLaunch e) s = .next t ∧ Only [.counts, .rgn, .sty] s t ∧ t.rgn = s.rgn.launched e.toNat ∧
      t.sty = { s.sty with groups := s.sty.groups.modify r.arg.toNat fun x =>
        { x with
          seq := x.seq + 1, firing := true, instant := s.instantOf r, delivered := false, skipHold := true
          judged := [] } }) ∧
  (∀ (s : State) (e : BitVec 12) (r : RegEntry), s.Launches 4 e.toNat r → s.stylusOn = true →
    ∃ t, exec (.stylusLaunch e) s = .next t ∧ Only [.counts, .rgn, .sty, .brn] s t ∧
      t.rgn = s.rgn.launched e.toNat ∧
      t.sty.groups.map (fun x => (x.seq, x.firing, x.instant, x.skipHold, x.delivered, x.judged)) =
        (s.sty.groups.modify r.arg.toNat fun x =>
          { x with
            seq := x.seq + 1, firing := true, instant := s.instantOf r, skipHold := false, delivered := false
            judged := [] }).map
          fun x => (x.seq, x.firing, x.instant, x.skipHold, x.delivered, x.judged)) ∧
  (∀ (s : State) (e : BitVec 12) (r : RegEntry) (rec : RuleSetRec), s.Launches 5 e.toNat r →
    (s.prf.sets.getD r.arg.toNat {}).busyUntil ≤ s.edge → s.ruleSet r.arg.toNat = some rec →
    r.arg.toNat < s.prf.sets.length →
    ∃ t f, exec (.proofCheckLaunch e) s = .next t ∧ Only [.fresh, .counts, .rgn, .sty, .prf, .brn] s t ∧
      t.rgn = s.rgn.launched e.toNat ∧
      (t.prf.sets.getD r.arg.toNat {}).window =
        ((f : RuleFrame) :: (s.prf.sets.getD r.arg.toNat {}).window).take rec.m ∧
      t.prf.sets.map (fun x => (x.busyUntil, x.wdiMin, x.holdEdges)) =
        (s.prf.sets.modify r.arg.toNat fun x =>
          { x with busyUntil := s.edge + rec.bound, wdiMin := none, holdEdges := 0 }).map
          fun x => (x.busyUntil, x.wdiMin, x.holdEdges)) ∧
  (∀ (s : State) (e : BitVec 12) (r : RegEntry), s.Launches 6 e.toNat r →
    ∃ t, exec (.ethGateAnchor e) s = .next t ∧ Only [.counts, .rgn, .eth] s t ∧ t.rgn = s.rgn.launched e.toNat ∧
      t.eth.ports.map (fun x => (x.gateIndex, x.gateEdge)) =
        (s.eth.ports.modify (portNum (portOf r.unit)) fun x => { x with gateIndex := 0, gateEdge := s.edge }).map
          (fun x => (x.gateIndex, x.gateEdge)) ∧
      ∀ q, portNum q ≠ portNum (portOf r.unit) → t.ethPort q = s.ethPort q) ∧
  (∀ (s : State) (e : BitVec 12) (r : RegEntry) (p : PlaceEntry) (o : ObjVersion), s.Launches 7 e.toNat r →
    (s.rgn.tierWait.any fun x => x.1 = e.toNat) = false → s.edge % 5 = 0 →
    s.otl.running.places[r.arg.toNat]? = some p → (s.tir.tierRefs.all fun x => x.entry != some e.toNat) = true →
    s.newestOf p.part p.obj = some o → o.full = true →
    (s.tir.objs.filter (isVer o.part o.obj o.ver)) = [o] →
    ∃ t, exec (.tierPrefetch e) s = .next t ∧ Only [.counts, .rgn, .tir] s t ∧ t.rgn = s.rgn.launched e.toNat ∧
      t.tir = { s.tir with
        objs := s.tir.objs.map fun x => if isVer o.part o.obj o.ver x then { x with refsT2 := addRef x.refsT2 } else x
        tierRefs := s.tir.tierRefs ++ [{ entry := some e.toNat, part := o.part, obj := o.obj, ver := o.ver }] }) ∧
  (∀ (s : State) (e : BitVec 12) (r : RegEntry) (p : PlaceEntry), s.Launches 7 e.toNat r →
    (s.rgn.tierWait.any fun x => x.1 = e.toNat) = false → s.edge % 5 ≠ 0 →
    s.otl.running.places[r.arg.toNat]? = some p →
    ∃ t, exec (.tierPrefetch e) s = .next t ∧ Only [.counts, .rgn] s t ∧
      t.rgn = { s.rgn.launched e.toNat with tierWait := s.rgn.tierWait ++ [(e.toNat, p.part, p.obj)] }) ∧
  (∀ (s : State) (e : BitVec 12) (x : Nat × Nat × Word) (o : ObjVersion),
    (s.rgn.tierWait.find? fun x => x.1 = e.toNat) = some x → s.edge % 5 = 0 →
    (s.tir.tierRefs.all fun y => y.entry != some e.toNat) = true →
    s.newestOf x.2.1 x.2.2 = some o → o.full = true → (s.tir.objs.filter (isVer o.part o.obj o.ver)) = [o] →
    ∃ t, exec (.tierPrefetch e) s = .next t ∧ Only [.counts, .rgn, .tir] s t ∧
      t.rgn = { s.rgn with tierWait := s.rgn.tierWait.erase x } ∧
      t.tir.tierRefs = s.tir.tierRefs ++ [{ entry := some e.toNat, part := o.part, obj := o.obj, ver := o.ver }]) ∧
  (∀ (s : State) (e : BitVec 12) (r : RegEntry) (x : SelftestEntry), s.Launches 9 e.toNat r → r.action = 0 →
    s.sliceEntry r.unit = some x → r.unit ≠ 6 → (s.slice r.unit).running = false →
    (s.nextSafety (tickOf s.now + 1)).all (fun n => decide (tickOf s.now + x.sliceTicks ≤ n)) = true →
    ∃ t, exec (.selftestSlice e) s = .next t ∧ Only [.counts, .rgn, .prf] s t ∧ t.rgn = s.rgn.launched e.toNat ∧
      t.prf = Prf.settle { s.prf with slices := s.prf.slices.modify r.unit fun y =>
        { y with running := true, entry := e.toNat, endEdge := s.edge + x.sliceTicks } }) ∧
  (∀ (s : State) (e : BitVec 12) (r : RegEntry) (x : SelftestEntry) (q : Query), s.Launches 9 e.toNat r → r.action = 0 →
    s.sliceEntry r.unit = some x → r.unit = 6 → (s.slice r.unit).running = false → s.xh.run = some q →
    (s.nextSafety (tickOf s.now + 1)).all (fun n => decide (tickOf s.now + x.sliceTicks ≤ n)) = true →
    ∃ t, exec (.selftestSlice e) s = .next t ∧ Only [.counts, .rgn, .prf, .xh] s t ∧
      t.rgn = s.rgn.launched e.toNat ∧ t.xh = { s.xh with run := some { q with paused := q.paused + x.sliceTicks } } ∧
      (t.slice r.unit).running = (s.prf.slices[r.unit]?).isSome ∧
      ((s.prf.slices[r.unit]?).isSome = true → (t.slice r.unit).endEdge = s.edge + x.sliceTicks))

/-- A firing that does not launch on its instant (R58 to R62, R520): LATE says whether it is dropped, deferred, or reported and
for a SUPERVISED partition told to Proof; a deferred firing that still waits when its entry fires again is dropped; a
firing without a place on its edge is carried to the next; a carried or deferred firing launches when it may; a disabled
entry starts none; what disables or enables an entry is recorded with the edge from which it holds, 16 edges on, and a
protected entry is left as it is and counted. -/
def Obligations.FiringsThatDoNotLaunchNowFollowTheirPolicy : Prop :=
  (∀ (s : State) (e : BitVec 12) (r : RegEntry), s.regEntry e.toNat = some r → s.launching = true → r.valid = true →
    r.target = 1 → e.toNat ∉ s.rgn.disabled → s.resetting r.part = false → 4 ≤ s.rgn.launches →
    e.toNat ∉ s.rgn.deferred →
    exec (.coreJobLaunch e) s = .next { s with
      rgn := { s.rgn with carried := s.rgn.carried ++ [(s.instantOf r, e.toNat)] } }) ∧
  (∀ (s : State) (e : BitVec 12) (r : RegEntry), s.Launches 1 e.toNat r → s.entryJob e.toNat = true → r.late = 0 →
    e.toNat ∉ s.rgn.deferred → exec (.coreJobLaunch e) s = .next (s.bump .rgnLateDrop)) ∧
  (∀ (s : State) (e : BitVec 12) (r : RegEntry), s.Launches 1 e.toNat r → s.entryJob e.toNat = true → r.late = 1 →
    e.toNat ∈ s.rgn.deferred →
    exec (.coreJobLaunch e) s = .next { State.bump .rgnLateDefer (s.bump .rgnLateDrop) with
      rgn := { s.rgn with deferred := s.rgn.deferred.filter (· != e.toNat) ++ [e.toNat] } }) ∧
  (∀ (s : State) (e : BitVec 12) (r : RegEntry), s.Launches 1 e.toNat r → s.entryJob e.toNat = true → r.late = 1 →
    e.toNat ∉ s.rgn.deferred →
    exec (.coreJobLaunch e) s = .next { State.bump .rgnLateDefer s with
      rgn := { s.rgn with deferred := s.rgn.deferred ++ [e.toNat] } }) ∧
  (∀ (s : State) (e : BitVec 12) (r : RegEntry), s.Launches 1 e.toNat r → s.entryJob e.toNat = true → r.late = 2 →
    s.supervised r.part = false → e.toNat ∉ s.rgn.deferred →
    exec (.coreJobLaunch e) s = .next ((State.bump .rgnLateReport s).report 0x0F 0 5 7 0x0060 (some r.part) 0 e.toNat)) ∧
  (∀ (s : State) (e : BitVec 12), e.toNat ∈ s.rgn.disabled → exec (.coreJobLaunch e) s = .next s) ∧
  (∀ (s : State) (e : BitVec 12) (r : RegEntry), s.regEntry e.toNat = some r → s.resetting r.part = true →
    s.supervised r.part = false → e.toNat ∉ s.rgn.deferred → exec (.coreJobLaunch e) s = .next s) ∧
  (∀ (s : State) (x : Int × Nat) (rest : List (Int × Nat)) (r : RegEntry), s.rgn.carried = x :: rest →
    s.placeFree = true → s.regEntry x.2 = some r → r.target = 8 → s.resetting r.part = false →
    exec .carriedFiringLaunch s = .next { s with
      rgn := { s.rgn with carried := rest, launches := s.rgn.launches + 1 }
      tb := { s.tb with pins := s.tb.pins.modify r.unit (s.gpioAction r) } }) ∧
  (∀ (s : State) (x : Int × Nat) (rest : List (Int × Nat)) (r : RegEntry) (m : TemplateRec),
    s.rgn.carried = x :: rest → s.placeFree = true → s.regEntry x.2 = some r → r.target = 1 →
    s.resetting r.part = false → s.entryJob x.2 = false → s.otl.running.templates[r.arg.toNat]? = some m →
    exec .carriedFiringLaunch s = .next { s with
      rgn := { s.rgn with carried := rest, launches := s.rgn.launches + 1 }
      jobs := { s.jobs with
        nextId := nextJobId s.jobs.nextId
        list := s.jobs.list ++ [{
          id := s.jobs.nextId, part := m.part, origin := .fired x.2, chainObj := m.chain, deadlineUs := m.deadline
          budget := m.restart, outBase := m.outBase, state := .launched, launch := x.1, launchEdge := s.edge }] } }) ∧
  (∀ (s : State) (e : BitVec 12) (r : RegEntry) (m : TemplateRec), s.regEntry e.toNat = some r → r.target = 1 →
    s.placeFree = true → e.toNat ∈ s.rgn.deferred → s.rgn.carried = [] → s.entryJob e.toNat = false →
    s.resetting r.part = false → s.otl.running.templates[r.arg.toNat]? = some m →
    exec (.deferredFiringLaunch e) s = .next { s with
      rgn := { s.rgn with
        deferred := s.rgn.deferred.filter (· != e.toNat), launches := s.rgn.launches + 1 }
      jobs := { s.jobs with
        nextId := nextJobId s.jobs.nextId
        list := s.jobs.list ++ [{
          id := s.jobs.nextId, part := m.part, origin := .fired e.toNat, chainObj := m.chain
          deadlineUs := m.deadline, budget := m.restart, outBase := m.outBase, state := .launched
          launch := s.instantOf r, launchEdge := s.edge }] } }) ∧
  (∀ (s : State) (v : Word) (r : RegEntry), s.regEntry (fld v 11 0) = some r → r.valid = true →
    s.entryProtected r = false → exec (.rgnEntryDisable v) s = .next { s with
      rgn := { s.rgn with changes := s.rgn.changes ++ [(s.edge + 16, fld v 11 0, true)] } }) ∧
  (∀ (s : State) (v : Word) (r : RegEntry), s.regEntry (fld v 11 0) = some r → r.valid = true →
    s.entryProtected r = false → exec (.rgnEntryEnable v) s = .next { s with
      rgn := { s.rgn with changes := s.rgn.changes ++ [(s.edge + 16, fld v 11 0, false)] } }) ∧
  (∀ (s : State) (v : Word) (r : RegEntry), s.regEntry (fld v 11 0) = some r → r.valid = true →
    s.entryProtected r = true → exec (.rgnEntryDisable v) s = .next (s.bump .rgnProtectedWrite) ∧
      exec (.rgnEntryEnable v) s = .next (s.bump .rgnProtectedWrite))

/-- The writes that set and capture time (R35, R36, R39, R44, R47 to R49, R487, R491, R492): a capture latches local
time; a time set in FREE_RUN becomes local time and ends the slew; an adjustment is slewed at no more than 50 ppm;
the end of a step hold lets launches resume and tells Proof how long it was; the root moves to the standby PLL while
there is one, and without one Proof enters SAFE_STATE. -/
def Obligations.TimeIsSetCapturedAndAdjusted : Prop :=
  (∀ s : State, s.glb.pllSpare = true → exec .pllLossOfLock s =
    .next (State.bump .brnPllSwitch { s with glb := { s.glb with pllOnStandby := true, pllSpare := false } })) ∧
  (∀ s : State, s.glb.pllSpare = false → ∃ t, exec .pllLossOfLock s = .next t ∧ Only [.prf, .brn] s t ∧
    t.prf.safeCause = s.prf.safeCause ||| 4 ∧ t.prf.state = .safeState ∧ t.prf.stopA = true ∧ t.prf.stopB = true ∧
    t.prf.safePin = true ∧ t.prf.faultN = true) ∧
  (∀ (s : State) (v : Word), bit v 0 = true →
    exec (.tbCapture v) s = .next { s with tb := { s.tb with cap := s.tb.time } }) ∧
  (∀ (s : State) (v : Word), bit v 0 = true → s.tb.stepPending = true →
    exec (.tbStepAccept v) s = .next { s with tb := { s.tb with stepAccepted := true } }) ∧
  (∀ (s : State) (v : Word), bit v 0 = true → s.tb.state = .freeRun →
    ∃ t, exec (.tbSetGo v) s = .next t ∧ t.tb.time = timeOfUnits s.regs.setTime ∧ t.tb.slewLeft = 0 ∧
      t.tb.slewRate = 0 ∧ t.tb.state = .freeRun) ∧
  (∀ (s : State) (v : Word), s.tb.state ≠ .freeRun → exec (.tbSetGo v) s = .next s) ∧
  (∀ (s : State) (v : Word), s.tb.state = .freeRun ∨ s.tb.state = .holdover ∨ s.tb.state = .grandmaster →
    ∃ t, exec (.tbAdj v) s = .next t ∧ t.tb.slewLeft = v.toInt * unitsNs ∧ t.tb.slewRate.natAbs ≤ 1342177 ∧
      0 ≤ t.tb.slewRate * t.tb.slewLeft ∧
      t = { s with fresh := s.fresh + 1, tb := { s.tb with slewLeft := t.tb.slewLeft, slewRate := t.tb.slewRate } }) ∧
  (∀ (s : State) (v : Word), s.tb.state = .acquiring ∨ s.tb.state = .locked → exec (.tbAdj v) s = .next s) ∧
  (∀ s : State, exec .slewComplete s = .next { s with tb := { s.tb with slewLeft := 0, slewRate := 0 } }) ∧
  (∀ (s : State) (u : Int) (e : Nat), s.tb.stepHold = some (u, e) → u < s.now →
    exec .stepHoldEnd s = .next { s with
      tb := { s.tb with stepHold := none }
      prf := { s.prf with
        timeHoldMax := max s.prf.timeHoldMax ((s.edge - e) / 160)
        sets := s.prf.sets.map fun r => { r with holdEdges := max r.holdEdges (s.edge - e) } } }) ∧
  (∀ s : State, exec (.latchedHiRead .stepOffset) s =
    .next { s with tb := { s.tb with stepOffsetHi := some (s.tb.stepOffset.extractLsb' 32 32) } }) ∧
  (∀ s : State, exec (.latchedHiRead .ppsCap) s =
    .next { s with tb := { s.tb with ppsCapHi := some s.tb.ppsCap.w1 } })

/-- The pins of time (R66 to R69, R491, R492): PPS_OUT is high for its width from a whole second; a PPS_IN edge within
100 us of a second after the last valid one is stamped, and in DISCIPLINE slews to the whole second; an earlier one is
counted, and one that no valid edge precedes by less is counted and becomes the reference (the model's choice, log 6);
3 s without a valid one set PPS_LOST; an edge of the filtered level of an input pin is stamped into its FIFO of 16, or
counted, and the glitch filter holds one back that comes too soon; a read removes the head; host
outputs follow TB_GPIO_OUT; a pulse ends at its scheduled edge. -/
def Obligations.PinsAreStampedAndDriven : Prop :=
  (∀ s : State, s.regs.ppsOutEn = true → (∀ e, s.tb.ppsHighUntil = some e → e ≤ s.edge) → exec .ppsOutRise s =
    .next { s with tb := { s.tb with ppsHighUntil := some (s.edge + s.regs.ppsWidth.toNat * 160) } }) ∧
  (∀ (s : State) (e : Nat), s.regs.ppsOutEn = false ∨ s.tb.ppsHighUntil = some e ∧ s.edge < e →
    exec .ppsOutRise s = .next s) ∧
  (∀ (s : State) (e : Nat), s.tb.ppsHighUntil = some e → e ≤ s.edge →
    exec .ppsOutFall s = .next { s with tb := { s.tb with ppsHighUntil := none } }) ∧
  (∀ (s : State) (u : Int) (e : Nat), s.tb.ppsLast = some (u, e) →
    (s.now - u - unitsSec).natAbs ≤ 100000 * 4294967296 → s.disciplines = false →
    exec .ppsInEdge s = .next { s with
      tb := { s.tb with ppsLast := some (s.now, s.edge), ppsCap := compactOf s.now, ppsWatch := s.edge } }) ∧
  (∀ (s : State) (u : Int) (e : Nat), s.tb.ppsLast = some (u, e) →
    (s.now - u - unitsSec).natAbs ≤ 100000 * 4294967296 → s.disciplines = true →
    ∃ t, exec .ppsInEdge s = .next t ∧ t.tb.ppsLast = some (s.now, s.edge) ∧ t.tb.ppsCap = compactOf s.now ∧
      t.tb.slewLeft = -(secondPhase s.now) ∧ t.tb.slewRate.natAbs ≤ 1342177 ∧ t.tb.trim.natAbs ≤ 5368709) ∧
  (∀ (s : State) (u : Int) (e : Nat), s.tb.ppsLast = some (u, e) → s.now - u < unitsSec - 100000 * 4294967296 →
    exec .ppsInEdge s = .next (s.bump .tbPpsBad)) ∧
  (∀ s : State, (∀ u e, s.tb.ppsLast = some (u, e) → unitsSec + 100000 * 4294967296 < s.now - u) →
    exec .ppsInEdge s = .next (State.bump .tbPpsBad { s with
      tb := { s.tb with ppsLast := some (s.now, s.edge) } })) ∧
  (∀ s : State, s.disciplines = true → s.tb.ppsWatch + 480000000 ≤ s.edge →
    exec .ppsLost s = .next { s with tb := { s.tb with ppsLost := true, ppsWatch := s.edge } }) ∧
  (∀ (s : State) (pin : Fin 16) (rising : Bool) (q : GpioPin), s.tb.pins[pin.val]? = some q → q.dir = .input →
    q.level ≠ rising → (∀ e, q.lastEdge = some e → e + s.regs.gpioFilter.toNat ≤ s.edge) →
    q.fifo.length < 16 → exec (.gpioEdgeCapture pin rising) s = .next { s with
      tb := { s.tb with
        pins := s.tb.pins.set pin { q with
          level := rising, lastEdge := some s.edge, fifo := q.fifo ++ [(compactOf s.now, rising)] } } }) ∧
  (∀ (s : State) (pin : Fin 16) (rising : Bool) (q : GpioPin), s.tb.pins[pin.val]? = some q → q.dir = .input →
    q.level ≠ rising → (∀ e, q.lastEdge = some e → e + s.regs.gpioFilter.toNat ≤ s.edge) →
    16 ≤ q.fifo.length → exec (.gpioEdgeCapture pin rising) s = .next (State.bump (.tbGcapOvf pin) { s with
      tb := { s.tb with pins := s.tb.pins.set pin { q with level := rising, lastEdge := some s.edge } } })) ∧
  (∀ (s : State) (pin : Fin 16) (rising : Bool) (q : GpioPin) (e : Nat), s.tb.pins[pin.val]? = some q →
    q.dir ≠ .input ∨ q.level = rising ∨ q.lastEdge = some e ∧ s.edge < e + s.regs.gpioFilter.toNat →
    exec (.gpioEdgeCapture pin rising) s = .next s) ∧
  (∀ (s : State) (pin : Fin 16) (q : GpioPin), s.tb.pins[pin.val]? = some q →
    exec (.gcapPop pin) s = .next { s with
      tb := { s.tb with pins := s.tb.pins.set pin { q with fifo := q.fifo.drop 1 } } }) ∧
  (∀ (s : State) (v : Word), ∃ t, exec (.tbGpioOut v) s = .next t ∧ Only [.regs, .tb] s t ∧
    t.regs = { s.regs with gpioOut := t.regs.gpioOut } ∧
    (∀ (i : Nat) (q : GpioPin), i < 16 → s.tb.pins[i]? = some q → q.dir = .host →
      t.regs.gpioOut.getLsbD i = bit v i ∧ t.tb.pins[i]? = some { q with level := bit v i }) ∧
    (∀ (i : Nat) (q : GpioPin), s.tb.pins[i]? = some q → q.dir ≠ .host →
      t.regs.gpioOut.getLsbD i = s.regs.gpioOut.getLsbD i ∧ t.tb.pins[i]? = some q)) ∧
  (∀ (s : State) (pin : Fin 16) (q : GpioPin) (e : Nat), s.tb.pins[pin.val]? = some q → q.pulseEnd = some e →
    e ≤ s.edge → exec (.gpioPulseEnd pin) s = .next { s with
      tb := { s.tb with pins := s.tb.pins.set pin { q with level := false, pulseEnd := none } } })

/-- The law of R519 with R40, R44, R46 and R47: what a Sync with offset `o` does to the clock in each state that follows
one. While a refused step is pending, its offset follows the latest Sync (the model's reading, log 5). -/
def Obligations.SyncsSteerTheClock : Prop :=
  (∀ (s : State) (o : Int) (trim : Int) (n : Nat), s.tb.stepAccepted = false → s.tb.state = .acquiring →
    s.tb.stepped = false → (s.syncLaw o trim n).tb.time = timeOfUnits (s.now + o) ∧
      (s.syncLaw o trim n).tb.state = .acquiring ∧ (s.syncLaw o trim n).tb.stepped = true ∧
      (s.syncLaw o trim n).tb.offset = nsClamped o) ∧
  (∀ (s : State) (o : Int) (trim : Int) (n : Nat), s.tb.stepAccepted = false → s.tb.state = .acquiring →
    s.tb.stepped = true → s.tb.everLocked = false → o.natAbs ≤ s.regs.syncThresh.toNat * 4294967296 →
    (s.syncLaw o trim n).tb.time = s.tb.time ∧ (s.syncLaw o trim n).tb.slewLeft = o ∧
      (s.syncLaw o trim n).tb.trim = trimClamp trim ∧ (s.syncLaw o trim n).tb.within = s.tb.within + 1 ∧
      (s.syncLaw o trim n).tb.state = (if 8 ≤ s.tb.within + 1 then .locked else .acquiring) ∧
      (s.syncLaw o trim n).tb.everLocked = decide (8 ≤ s.tb.within + 1)) ∧
  (∀ (s : State) (o : Int) (trim : Int) (n : Nat), s.tb.stepAccepted = false → s.tb.state = .locked →
    o.natAbs ≤ s.regs.stepLimit.toNat * 4294967296 → s.regs.syncThresh.toNat * 4294967296 < o.natAbs →
    (s.syncLaw o trim n).tb.slewLeft = o ∧ (s.syncLaw o trim n).tb.trim = trimClamp trim ∧
      (s.syncLaw o trim n).tb.state = (if 4 ≤ s.tb.beyond + 1 then .acquiring else .locked)) ∧
  (∀ (s : State) (o : Int) (trim : Int) (n : Nat), s.tb.stepAccepted = false → s.tb.stepPending = false →
    s.tb.state = .locked → s.regs.stepLimit.toNat * 4294967296 < o.natAbs →
    s.syncLaw o trim n = (if s.tb.outliers < 2 then
      State.bump .tbOutlier { s with
        tb := { s.tb with offset := nsClamped o, within := 0, beyond := 0, rejoin := 0
                          outliers := s.tb.outliers + 1 } }
      else { State.bump .tbJumpRefused s with
        tb := { s.tb with
          offset := nsClamped o, within := 0, beyond := 0, rejoin := 0, outliers := 0, timeJumpRefused := true
          stepPending := true, stepOffset := BitVec.ofInt 64 (o.tdiv 4294967296), state := .holdover
          ppsWatch := s.edge } })) ∧
  (∀ (s : State) (o : Int) (trim : Int) (n : Nat), s.tb.stepAccepted = false → s.tb.stepPending = true →
    s.tb.state = .holdover → s.regs.stepLimit.toNat * 4294967296 < o.natAbs →
    s.syncLaw o trim n = { s with
      tb := { s.tb with
        offset := nsClamped o, within := 0, beyond := 0, rejoin := 0, outliers := 0
        stepOffset := BitVec.ofInt 64 (o.tdiv 4294967296) } }) ∧
  (∀ (s : State) (o : Int) (trim : Int) (n : Nat), s.tb.stepAccepted = false → s.tb.state = .holdover →
    o.natAbs ≤ s.regs.stepLimit.toNat * 4294967296 →
    (s.syncLaw o trim n).tb.state = (if 3 ≤ s.tb.rejoin + 1 then .acquiring else .holdover) ∧
      (s.syncLaw o trim n).tb.time = s.tb.time) ∧
  (∀ (s : State) (o : Int) (trim : Int) (n : Nat), s.tb.stepAccepted = true →
    (s.syncLaw o trim n).tb.time = timeOfUnits (s.now + o) ∧ (s.syncLaw o trim n).tb.state = .acquiring ∧
      (s.syncLaw o trim n).tb.stepAccepted = false ∧ (s.syncLaw o trim n).tb.stepPending = false)

/-- gPTP (R42, R43; the forms of the messages and asCapable are the model's, after IEEE 802.1AS, log 7): on a port that is
asCapable Sync and Follow_Up of the selected master steer the clock, its time-out and Announce choose the master,
Pdelay gives the link delay, and each interval that is over sends its message. -/
def Obligations.GptpMessagesReachTheClockAndAreSent : Prop :=
  (∀ (s : State) (p : Port) (m : SyncMsg), s.gptpCapable p = true → m.domain = 0 → s.tb.slave = some p →
    m.twoStep = false →
    ∃ t, exec (.syncReceived p m) s = .next t ∧ Only [.counts, .tb, .rgn, .sty, .eth, .prf, .brn] s t ∧
      t.tb.offset = nsClamped (s.syncOffset p m.rawStamp m.originSec m.originNs m.correction)) ∧
  (∀ (s : State) (p : Port) (m : SyncMsg), s.gptpCapable p = true → m.domain = 0 → s.tb.slave = some p →
    m.twoStep = true → exec (.syncReceived p m) s = .next { s with
      tb := { s.tb with ports := s.tb.ports.modify (portNum p) fun g => { g with pendingSync := some m } } }) ∧
  (∀ (s : State) (p : Port) (m : SyncMsg), s.gptpOn p = true → m.domain ≠ 0 →
    exec (.syncReceived p m) s = .next (s.bump .tbForeignDomain)) ∧
  (∀ (s : State) (p : Port) (m : FollowUpMsg) (y : SyncMsg), s.gptpCapable p = true → m.domain = 0 →
    s.tb.slave = some p → (s.gptpPort p).pendingSync = some y → y.seq = m.seq →
    ∃ t, exec (.followUpReceived p m) s = .next t ∧ Only [.counts, .tb, .rgn, .sty, .eth, .prf, .brn] s t ∧
      t.tb.offset = nsClamped (s.syncOffset p y.rawStamp m.originSec m.originNs (y.correction + m.correction))) ∧
  (∀ (s : State) (p : Port), s.tb.slave = some p →
    (s.gptpPort p).rxSyncEdge + 3 * intervalEdges (s.gptpPort p).logInterval ≤ s.edge →
    ∃ t, exec (.syncReceiptTimeout p) s = .next t ∧
    Only [.tb] s t ∧ t.tb.time = s.tb.time ∧
    t.tb.ports.map (fun g => (g.foreign, g.pendingSync)) =
      (s.tb.ports.modify (portNum p) fun g => { g with foreign := none, pendingSync := none }).map
        fun g => (g.foreign, g.pendingSync)) ∧
  (∀ (s : State) (p : Port), s.tb.slave = some p →
    s.edge < (s.gptpPort p).rxSyncEdge + 3 * intervalEdges (s.gptpPort p).logInterval →
    exec (.syncReceiptTimeout p) s = .next s) ∧
  (∀ (s : State) (p : Port), s.syncLate p = true → s.tb.state = .locked → s.gmCapable = false →
    s.allMaster = false → s.tb.everLocked = true → (∀ q, q ≠ p → (s.gptpPort q).foreign = none) →
    ∃ t, exec (.syncReceiptTimeout p) s = .next t ∧ t.tb.state = .holdover ∧ t.tb.slave = none ∧ t.tb.gm = none ∧
      t.tb.trim = s.tb.trim) ∧
  (∀ (s : State) (p : Port) (m : AnnounceMsg), s.gptpCapable p = true → m.domain = 0 → m.identity ≠ clockIdentity →
    m.stepsRemoved ≠ 255 → ∃ t, exec (.announceReceived p m) s = .next t ∧ Only [.tb] s t ∧
    t.tb.ports.map (·.foreign) =
      (s.tb.ports.modify (portNum p) fun g => { g with foreign := some m }).map (·.foreign)) ∧
  (∀ (s : State) (p : Port), s.gptpOn p = true → (s.gptpPort p).rxAnnounceEdge + 3 * 160000000 ≤ s.edge →
    ∃ t, exec (.announceReceiptTimeout p) s = .next t ∧ Only [.tb] s t ∧
    t.tb.ports.map (·.foreign) =
      (s.tb.ports.modify (portNum p) fun g => { g with foreign := none }).map (·.foreign)) ∧
  (∀ (s : State) (p : Port), s.announceLate p = true → s.gmCapable = true → s.tb.state = .freeRun →
    (∀ q, q ≠ p → (s.gptpPort q).foreign = none) →
    ∃ t, exec (.announceReceiptTimeout p) s = .next t ∧ t.tb.state = .grandmaster ∧ t.tb.slave = none) ∧
  (∀ (s : State) (p : Port) (seq : BitVec 16) (requester : BitVec 80) (stamp : Int), s.gptpOn p = true →
    exec (.pdelayReqReceived p seq ⟨requester, stamp⟩) s = .next
      (s.sendGptp p 3 seq.toNat 0x7F (subNs (s.rxStamp p stamp))
        (ptpBytes (s.rxStamp p stamp) ++ natBytesBE 10 requester.toNat) (.pdelayResp seq requester))) ∧
  (∀ (s : State) (p : Port) (m : PdelayResp) (g : GptpPort) (t1 : Int), s.tb.ports[portNum p]? = some g →
    g.pdelaySent = some t1 → s.gptpOn p = true → m.seq = g.pdelaySeq → g.lastPdelay = none → g.neighborRate = none →
    g.asCapable = false → exec (.pdelayRespReceived p m) s = .next { s with
      tb := { s.tb with
        ports := s.tb.ports.set (portNum p) { g with
          pdelaySent := none, exchanges := g.exchanges + 1, lost := 0
          lastPdelay := some (m.responseOrigin, s.rxStamp p m.rawStamp)
          meanDelay := (max 0 ((s.rxStamp p m.rawStamp - t1 - (m.responseOrigin - m.requestReceipt)) / 2)).toNat
          asCapable := decide (max 0 ((s.rxStamp p m.rawStamp - t1 - (m.responseOrigin - m.requestReceipt)) / 2) ≤
            800 * unitsNs) } } }) ∧
  (∀ (s : State) (p : Port), s.gptpOn p = true → (s.gptpPort p).txPdelayEdge + 160000000 ≤ s.edge →
    (s.gptpPort p).pdelaySent = none →
    ∃ t, exec (.pdelayInterval p) s = .next t ∧ Only [.tb, .eth] s t ∧
      t.eth = (s.sendGptp p 2 ((s.gptpPort p).pdelaySeq + 1).toNat 0 0 (natBytesBE 20 0) .pdelayReq).eth ∧
      t.tb = { s.tb with ports := s.tb.ports.modify (portNum p) fun g =>
        { g with
          pdelaySeq := (s.gptpPort p).pdelaySeq + 1
          pdelaySent := none
          txPdelayEdge := s.edge } }) ∧
  (∀ (s : State) (p : Port), s.gptpOn p = true → s.edge < (s.gptpPort p).txPdelayEdge + 160000000 →
    exec (.pdelayInterval p) s = .next s) ∧
  (∀ (s : State) (p : Port), s.portRole p = 1 → s.tb.state = .grandmaster →
    (s.gptpPort p).txSyncEdge + intervalEdges (s.netPort p).logSync ≤ s.edge →
    ∃ t, exec (.syncInterval p) s = .next t ∧ Only [.tb, .eth] s t ∧
      t.eth = (s.sendGptp p 0 (s.gptpPort p).syncSeq.toNat (s.netPort p).logSync 0 (natBytesBE 10 0)
        (.sync (s.gptpPort p).syncSeq none)).eth ∧
      t.tb.ports = s.tb.ports.modify (portNum p) fun g =>
        { g with syncSeq := g.syncSeq + 1, txSyncEdge := s.edge, syncsSent := g.syncsSent + 1 }) ∧
  (∀ (s : State) (p : Port) (g : GptpPort), s.portRole p = 1 → s.tb.state = .grandmaster →
    g.txSyncEdge + intervalEdges (s.netPort p).logSync ≤ s.edge →
    s.tb.ports[portNum p]? = some g → 7 ≤ g.syncsSent →
    ∃ t, exec (.syncInterval p) s = .next t ∧ t.tb.everLocked = true) ∧
  (∀ (s : State) (p : Port) (x : SyncSource), s.portRole p = 1 → s.tb.state ≠ .grandmaster → s.tb.relay = some x →
    x.logInterval ≠ (s.netPort p).logSync →
    (s.gptpPort p).txSyncEdge + intervalEdges (s.netPort p).logSync ≤ s.edge →
    ∃ t, exec (.syncInterval p) s = .next t ∧ Only [.tb, .eth] s t ∧
      t.eth = (s.sendGptp p 0 (s.gptpPort p).syncSeq.toNat (s.netPort p).logSync 0 (natBytesBE 10 0)
        (.sync (s.gptpPort p).syncSeq (some x))).eth ∧
      t.tb.ports = s.tb.ports.modify (portNum p) fun g => { g with syncSeq := g.syncSeq + 1, txSyncEdge := s.edge }) ∧
  (∀ (s : State) (p : Port), s.portRole p = 1 → (s.gptpPort p).txAnnounceEdge + 160000000 ≤ s.edge →
    ∃ t, exec (.announceInterval p) s = .next t ∧ Only [.tb, .eth] s t ∧
      t.tb = { s.tb with ports := s.tb.ports.modify (portNum p) fun g =>
        { g with announceSeq := g.announceSeq + 1, txAnnounceEdge := s.edge } } ∧
      t.eth = (s.sendGptp p 11 (s.gptpPort p).announceSeq.toNat 0 0 (List.replicate 13 0 ++
        [(s.tb.gm.getD s.ownAnnounce).priority1, (s.tb.gm.getD s.ownAnnounce).clockClass,
          (s.tb.gm.getD s.ownAnnounce).clockAccuracy] ++
        natBytesBE 2 (s.tb.gm.getD s.ownAnnounce).variance.toNat ++ [(s.tb.gm.getD s.ownAnnounce).priority2] ++
        natBytesBE 8 (s.tb.gm.getD s.ownAnnounce).identity.toNat ++
        natBytesBE 2 (if s.tb.gm.isSome then (s.tb.gm.getD s.ownAnnounce).stepsRemoved.toNat + 1 else 0) ++
        [0xA0]) .none_).eth)

/-! ## Outlines and the boundary -/

/-- The way of an Outline to its boundary (R81, R82, R84, R91, R379, R495, R496): staging begins with an empty area, the
validation judges what was staged, a valid image is armed for a boundary at least 1 ms ahead that is a whole
hyperperiod, and a cancel drops it; while validation runs, and in the last millisecond of an armed one, a new staging is
refused and counted. -/
def Obligations.OutlinesAreStagedValidatedArmedAndCancelled : Prop :=
  (∀ (s : State) (v : Word), bit v 0 = true →
    s.otl.state = .idle ∨ s.otl.state = .staging ∨ s.otl.state = .valid ∨ s.otl.state = .rejected →
    ∃ t, exec (.otlStageBegin v) s = .next t ∧ Only [.otl, .tir] s t ∧ t.otl = { s.otl with
      state := .staging, code := 0, staging := [], stagedWords := 0, staged := none, stagedNet := none }) ∧
  (∀ (s : State) (v : Word), bit v 0 = true → s.otl.state = .armed → s.lastMs = false →
    ∃ t, exec (.otlStageBegin v) s = .next t ∧ Only [.otl, .tir] s t ∧ t.otl = { s.otl with
      state := .staging, code := 0x12, staging := [], stagedWords := 0, staged := none, stagedNet := none }) ∧
  (∀ (s : State) (v : Word), bit v 0 = true → s.otl.state = .validating ∨ s.otl.state = .armed ∧ s.lastMs = true →
    exec (.otlStageBegin v) s = .next (s.bump .otlRefused)) ∧
  (∀ (s : State) (v : Word), bit v 0 = true → s.otl.state = .staging →
    exec (.otlValidate v) s = .next { s with otl := { s.otl with state := .validating } }) ∧
  (∀ (s : State) (code word : Nat), s.otl.state = .validating →
    s.validate s.stagedImage s.otl.stagedWords false = .fail code word →
    exec .validationDone s = .next { s with
      otl := { s.otl with state := .rejected, code := BitVec.ofNat 8 code, errWord := word } }) ∧
  (∀ (s : State) (o : Outline) (net : Option NetTable), s.otl.state = .validating →
    s.validate s.stagedImage s.otl.stagedWords false = .pass o net →
    ∃ t, exec .validationDone s = .next t ∧ Only [.otl, .tir] s t ∧
      t.otl = { s.otl with state := .valid, code := 0, staged := some o, stagedNet := net }) ∧
  (∀ (s : State) (v : Word) (o : Outline), bit v 0 = true → s.otl.state = .valid → s.otl.staged = some o →
    compactOk s.regs.commitTime = true → wholeH (compactNear s.regs.commitTime s.now) o.h = true →
    wholeH (compactNear s.regs.commitTime s.now) s.otl.running.h = true →
    s.now + 1000000 * unitsNs ≤ compactNear s.regs.commitTime s.now →
    exec (.otlCommitArm v) s = .next { s with
      otl := { s.otl with state := .armed, code := 0 }
      rgn := { s.rgn with epochTime := s.regs.commitTime, shadowLoaded := false } }) ∧
  (∀ (s : State) (v : Word) (o : Outline), bit v 0 = true → s.otl.state = .valid → s.otl.staged = some o →
    compactNear s.regs.commitTime s.now < s.now + 1000000 * unitsNs →
    exec (.otlCommitArm v) s = .next { s with otl := { s.otl with code := 0x10 } }) ∧
  (∀ (s : State) (v : Word), bit v 0 = true → s.otl.state ≠ .idle → s.otl.state ≠ .validating → s.lastMs = false →
    ∃ t, exec (.otlCancel v) s = .next t ∧ Only [.otl, .tir, .rgn] s t ∧
      t.otl = { s.otl with state := .idle, code := 0x12, staging := [], staged := none, stagedNet := none } ∧
      t.rgn = { s.rgn with shadowLoaded := false })

/-- A REJECTED image stays in the staging area through every command until the next OTL_STAGE_BEGIN, OTL_CANCEL or reset, and
no command arms it (R83, R91, R496). -/
def Obligations.RejectedImagesStayAndAreNeverArmed : Prop :=
  ∀ (c : Instr) (s t : State), s.otl.state = .rejected → s.glb.stage ≠ .outline → exec c s = .next t →
    t.otl.state ≠ .armed ∧
    (replacesImage c = false →
      t.otl.staging = s.otl.staging ∧ t.otl.stagedWords = s.otl.stagedWords ∧ t.otl.state = .rejected ∨
      t.edge = 0 ∧ t.otl = State.reset.otl)

/-- The boundary (R85, R86, R465, R466): in the last millisecond the domains that the new Outline turns on are powered and
its shadow bank is loaded, and where a resource is gone the commit is abandoned with CODE 0x11; on the boundary the new
Outline runs, and a partition that it changes keeps no job; the domains that it turns off lose their power. -/
def Obligations.BoundariesCommitTheNewOutline : Prop :=
  (∀ (s : State) (new : Outline), s.otl.staged = some new → s.lastMs = true → s.rgn.shadowLoaded = false →
    (s.powerFor new).resourcesLeft new = true →
    ∃ t, exec .commitPrepare s = .next t ∧ Only [.glb, .rgn, .chn, .plt] s t ∧ t.rgn = { s.rgn with shadowLoaded := true } ∧
      t.glb = { s.glb with pdState := s.glb.pdState ||| new.domainOn }) ∧
  (∀ (s : State) (new : Outline), s.otl.staged = some new → s.lastMs = true → s.rgn.shadowLoaded = false →
    (s.powerFor new).resourcesLeft new = false →
    ∃ t, exec .commitPrepare s = .next t ∧ Only [.glb, .rgn, .otl, .chn, .plt] s t ∧ t.rgn = s.rgn ∧
      t.otl = { s.otl with state := .valid, code := 0x11 } ∧
      t.glb = { s.glb with pdState := s.glb.pdState ||| new.domainOn }) ∧
  (∀ (s : State) (new : Outline) (b : Int), s.otl.staged = some new → s.boundary = some b → b ≤ s.now →
    s.rgn.shadowLoaded = true →
    ∃ t, exec .epochCommit s = .next t ∧ t.otl.running = new ∧ t.otl.state = .idle ∧ t.otl.code = 0 ∧
      t.otl.epoch = new.header.epoch ∧ t.otl.staged = none ∧ t.otl.isBoot = false ∧ t.glb.partReset = none ∧
      t.rgn.disabled = [] ∧ t.rgn.shadowLoaded = false ∧
      ∀ r ∈ s.otl.running.partitions, s.continues new (s.otl.stagedNet.getD {}) r.part = false →
        ∀ j ∈ t.jobs.list, j.part ≠ r.part) ∧
  (∀ (s : State) (new : Outline) (b : Int), s.otl.staged = some new → s.boundary = some b → s.now < b →
    exec .epochCommit s = .next s) ∧
  (∀ (s : State) (d : Fin 24) (new : Outline), s.lastMs = true → s.glb.pdState.getLsbD d = false →
    s.otl.staged = some new → new.domainOn.getLsbD d = true →
    ∃ t, exec (.domainPowerUp d) s = .next t ∧ Only [.glb, .chn, .plt] s t ∧ ∀ k, k < 24 →
      t.glb.pdState.getLsbD k = (s.glb.pdState.getLsbD k || decide (k = d.val))) ∧
  (∀ (s : State) (d : Fin 24), s.outlineRuns = true → fixedDomain d = false → s.glb.pdState.getLsbD d = true →
    s.otl.running.domainOn.getLsbD d = false → s.lastMs = false →
    ∃ t, exec (.domainPowerDown d) s = .next t ∧ ∀ k, k < 24 →
      t.glb.pdState.getLsbD k = (s.glb.pdState.getLsbD k && decide (k ≠ d.val)))

/-! ## Jobs and descriptors -/

/-- Jobs from their submission to their end (R146, R149 to R158, R161, R171, R400): a submission is launched now or armed
for its instant under the next job ID; a cancelled job, and one past its deadline, is forgotten; the head of a
partition's order starts with its slots, bindings and counters; a restart runs the chain again.
An uncorrected fault leaves nothing of the attempt but its inputs: with a restart left and time for it the job waits in
RESTARTING, and without one it ends. -/
def Obligations.JobsRunRestartAndEnd : Prop :=
  (∀ (s : State) (i : Fin 16) (b : JobBody) (p : Nat), (s.session i).open_ = true → (s.session i).part = some p →
    s.glb.stage = .ready → s.resetting p = false → jobBodyBad b = false → s.submitted p < 256 → bit b.w2 27 = false →
    exec (.jobSubmit i b) s = .next (State.sendTo i (.jobReply b.w0 0 s.jobs.nextId) { s.delivered i with
      jobs := { s.jobs with
        nextId := nextJobId s.jobs.nextId
        list := s.jobs.list ++ [{
          id := s.jobs.nextId, part := p, origin := .submitted i b.w0, chainObj := b.w1, deadlineUs := fld b.w2 23 0
          budget := if bit b.w2 26 then fld b.w2 25 24 else ((s.partRec p).map (·.restart)).getD 1
          outBase := b.w3, state := .launched, launch := s.now, launchEdge := s.edge }] } })) ∧
  (∀ (s : State) (i : Fin 16) (tag job : Word) (j : Job) (sess : Nat) (g : Word), (s.session i).open_ = true →
    (s.session i).part = some j.part → s.job? job = some j → j.origin = .submitted sess g → j.state ≠ .sealing →
    ∃ t, exec (.jobCancel i tag job) s = .next t ∧
      t.jobs.list.map (·.id) = (s.jobs.list.map (·.id)).filter (· != job)) ∧
  (∀ (s : State) (job : Word) (j : Job), s.job? job = some j → j.state = .armed → j.launch ≤ s.now →
    exec (.jobLaunchInstant job) s = .next { s with
      jobs := { s.jobs with list := s.jobs.list.map fun x =>
        if x.id = job then { x with state := .launched, launchEdge := s.edge } else x } }) ∧
  (∀ (s : State) (part : Fin 8) (j : Job) (l : List Job) (o : ObjVersion) (c : Chain) (bs : List Binding),
    s.resetting part = false → s.order part = j :: l → (∀ x ∈ s.order part, s.tooWide x = false) →
    (s.tir.waits.any fun w => w.job = j.id && w.slot = 32) = false →
    s.newestOf j.part j.chainObj = some o → o.state = .sealed → parseChain o.data o.len = some c →
    c.width ≤ (s.startSlots j c).length →
    bindAll (s.bindOne j ((c.inputs.filter isAlias) ++ c.aliases).dedup) (c.inputs ++
      (((c.inputs.filter isAlias) ++ c.aliases).dedup).filter fun a => !c.inputs.contains a).dedup = .ok bs →
    s.dirUsed + (c.outputs + toBit c.log) ≤ 65536 →
    c.plateLocal + total ((s.outputsOf j c).map fun o => unitsOf (o.fixedLen.getD 0)) ≤ s.t2Free →
    ∃ t, exec (.jobStart part) s = .next t ∧ ∃ x ∈ t.jobs.list, x.id = j.id ∧ x.part = j.part ∧ x.state = .running ∧
      x.chain = c ∧ x.bound = bs ∧ x.counters = List.replicate 16 0 ∧ x.outs = s.outputsOf j c ∧
      x.slots = ((s.startSlots j c).take c.width).map fun y => { core := y.2, logical := y.1 }) ∧
  (∀ (s : State) (job : Word) (j : Job), s.job? job = some j →
    j.state = .launched ∨ j.state = .running ∨ j.state = .restarting → j.launchEdge + j.deadlineUs * 160 ≤ s.edge →
    ∃ t, exec (.jobDeadline job) s = .next t ∧ t.job? job = none ∧
      ((∀ r ∈ s.tir.requests, s.requestLate r = false) → (∀ x ∈ s.lnw.txs, s.txLate x = false) →
        t.jobs.list.map (·.id) = (s.jobs.list.map (·.id)).filter (· != job))) ∧
  (∀ (s : State) (job : Word) (j : Job), s.job? job = some j → j.state = .restarting → j.waitsForCore = none →
    (∀ x ∈ j.slots, s.restartCore j x = some x.core) →
    ∃ t, exec (.restartIssue job) s = .next t ∧ Only [.jobs, .cores] s t ∧
      ∃ x ∈ t.jobs.list, x.id = job ∧ x.state = .running ∧ x.slots = j.slots ∧ x.attempt = j.attempt) ∧
  (∀ (s : State) (job : Word) (j : Job) (e : Nat), s.job? job = some j → j.state = .sealing → j.origin = .fired e →
    (s.eth.sessions.any fun x => x.open_ && x.subscribe && x.part = some j.part) = false →
    (s.jobs.queues.getD j.part []).length < 1024 →
    ∃ t, exec (.jobSealEdge job) s = .next t ∧
      t.jobs.list.map (·.id) = (s.jobs.list.map (·.id)).filter (· != job) ∧
      t.jobs.queues = s.jobs.queues.set j.part (s.jobs.queues.getD j.part [] ++ [j.record s stOk 0])) ∧
  (∀ (s : State) (j : Job), s.job? j.id = some j → j.state = .running → j.attempt < j.budget →
    s.edge + (j.chain.wcet + 200) * 160 ≤ j.launchEdge + j.deadlineUs * 160 →
    ∃ x ∈ (s.faultJob j.id none).jobs.list, x.id = j.id ∧ x.state = .restarting ∧ x.attempt = j.attempt + 1 ∧
      x.bound.map (fun b => (b.part, b.obj, b.ver, b.data)) = j.bound.map (fun b => (b.part, b.obj, b.ver, b.data)) ∧
      x.counters = List.replicate 16 0 ∧ x.local_ = [] ∧ x.journal = {} ∧
      (∀ o ∈ x.outs, o.data = [] ∧ o.extent = 0) ∧
      ∀ y ∈ x.slots, y.next = 0 ∧ y.inFlight = [] ∧ y.records = [] ∧ y.t1 = [] ∧ y.digest = 0) ∧
  (∀ (s : State) (j : Job), s.job? j.id = some j → j.state = .running → j.budget ≤ j.attempt →
    (s.faultJob j.id none).jobs.list.map (·.id) = (s.jobs.list.map (·.id)).filter (· != j.id))

/-- The sequencer of a slot (R120, R148, R150, R159, R168 to R171): the next descriptor issues when R120 allows it and its
checks pass; records are written in chain order, and the last one moves the job to SEALING; SIGNAL adds and
saturates; WAITS and WAITT go on when they are satisfied, and a WAITT whose instant has passed does not wait. -/
def Obligations.SlotsIssueWaitAndComplete : Prop :=
  (∀ (s : State) (job : Word) (slot : Fin 32) (j : Job) (d : Descriptor), s.job? job = some j → j.state = .running →
    slot.val < j.slots.length → (j.chain.slots.getD slot [])[(j.slots.getD slot {}).next]? = some d →
    s.mayIssue j slot (j.slots.getD slot {}) d = true → s.issueFault j d = none → d.op ≠ 6 → d.op ≠ 7 →
    j.growth (s.touchesOf d) = 0 →
    ∃ t, exec (.descriptorIssue job slot) s = .next t ∧ ∃ x, t.job? job = some x ∧ x.state = .running ∧
      x.slots.getD slot {} = { j.slots.getD slot {} with
        next := (j.slots.getD slot {}).next + 1
        inFlight := (j.slots.getD slot {}).inFlight ++ [{
          index := (j.slots.getD slot {}).next, desc := d, issueEdge := s.edge, uses := s.usesOf j d
          stage := if d.engine j.chain.drypoint = .margin then .waiting else .issued }] }) ∧
  (∀ (s : State) (job : Word) (slot : Fin 32) (j : Job) (i : InFlight) (rest : List InFlight), s.job? job = some j →
    j.state = .running → (j.slots.getD slot {}).inFlight = i :: rest → i.stage = .acted →
    ∃ t, exec (.descriptorComplete job slot) s = .next t ∧ Only [.fresh, .counts, .jobs, .tir] s t ∧
      ∃ x, t.job? job = some x ∧
      x.slots.getD slot {} = { j.slots.getD slot {} with
        inFlight := rest, records := (j.slots.getD slot {}).records ++ [s.descRecord j slot i] } ∧
      x.state = if (List.range x.slots.length).all x.slotDone then .sealing else .running) ∧
  (∀ (s : State) (job : Word) (slot : Fin 32) (j : Job) (i : InFlight), s.Issued job slot 0x0C (fun _ => true) j i →
    ∃ t, exec (.signal job slot) s = .next t ∧ Only [.jobs] s t ∧ t.Acted job slot i stOk 0 ∧
      ∃ x, t.job? job = some x ∧ x.counters = j.counters.modify (i.desc.param0 % 16)
        fun c => wd (min 0xFFFFFFFF (c.toNat + fld (i.desc.word 11) 15 0))) ∧
  (∀ (s : State) (job : Word) (slot : Fin 32) (j : Job) (i : InFlight), s.Issued job slot 0x0D (fun _ => true) j i →
    (i.desc.word 11).toNat ≤ (j.counters.getD (i.desc.param0 % 16) 0).toNat →
    ∃ t, exec (.waits job slot) s = .next t ∧ Only [.jobs] s t ∧ t.Acted job slot i stOk 0) ∧
  (∀ (s : State) (job : Word) (slot : Fin 32) (j : Job) (i : InFlight), s.Issued job slot 0x0D (fun _ => true) j i →
    (j.counters.getD (i.desc.param0 % 16) 0).toNat < (i.desc.word 11).toNat →
    ∃ t, exec (.waits job slot) s = .next t ∧ Only [.jobs] s t ∧ t.Waits job slot i i.work.tiles) ∧
  (∀ (s : State) (job : Word) (slot : Fin 32) (j : Job) (i : InFlight), s.job? job = some j →
    j.waiting slot 0x0D = some i → (i.desc.word 11).toNat ≤ (j.counters.getD (i.desc.param0 % 16) 0).toNat →
    ∃ t, exec (.waitsSatisfied job slot) s = .next t ∧ Only [.jobs] s t ∧ t.Acted job slot i stOk 0) ∧
  (∀ (s : State) (job : Word) (slot : Fin 32) (j : Job) (i : InFlight), s.Issued job slot 0x0B (fun d => d.sub = 0) j i →
    ∃ t, exec (.waittAbsolute job slot) s = .next t ∧ Only [.jobs] s t ∧
      if compactNear { w0 := i.desc.word 11, w1 := i.desc.word 12 } s.now ≤ s.now then t.Acted job slot i stOk 0
      else t.Waits job slot i i.work.tiles) ∧
  (∀ (s : State) (job : Word) (slot : Fin 32) (j : Job) (i : InFlight), s.Issued job slot 0x0B (fun d => d.sub = 1) j i →
    ∃ t, exec (.waittRelative job slot) s = .next t ∧ Only [.jobs] s t ∧
      if j.launch + (fld (i.desc.word 11) 27 0 : Int) * unitsEdge ≤ s.now then t.Acted job slot i stOk 0
      else t.Waits job slot i i.work.tiles) ∧
  (∀ (s : State) (job : Word) (slot : Fin 32) (j : Job) (i : InFlight), s.job? job = some j →
    j.waiting slot 0x0B = some i → s.waitInstant j i.desc ≤ s.now →
    ∃ t, exec (.waittComplete job slot) s = .next t ∧ Only [.jobs] s t ∧ t.Acted job slot i stOk 0)

/-- The operations of the Drypoint path, the Wash unit and the Move path (R112, R114, R117 to R119, R165, R167, R174, R175,
R185, R186, R194): where the residue lane finds no mismatch, the bytes of C are those that the rule of the opcode gives
for A, B and the epilogue, and the descriptor acts. A product on the arrays waits for its tiles and leaves C as it is
until they have drained. -/
def Obligations.OperationsWriteTheirResults : Prop :=
  (∀ (s : State) (job : Word) (slot : Fin 32) (lane : Bool) (j : Job) (i : InFlight) (steps : List EpiStep),
    s.Issued job slot 1 (fun _ => true) j i →
    s.epilogue j slot i.desc.epilogue i.desc.m i.desc.n false = .ok steps → j.writable i.desc.cObj = true →
    i.desc.route j.chain.drypoint = .kZero →
    ∃ t, exec (.gemm job slot lane) s = .next t ∧ t.Acted job slot i stOk 0 ∧ t.Reads job slot i.desc.cObj
      (i.desc.gemmWrite (j.bytes slot i.desc.aObj) (j.bytes slot i.desc.bObj) (j.bytes slot i.desc.cObj) steps).1) ∧
  (∀ (s : State) (job : Word) (slot : Fin 32) (j : Job) (i : InFlight) (steps : List EpiStep),
    s.Issued job slot 1 (fun _ => true) j i →
    s.epilogue j slot i.desc.epilogue i.desc.m i.desc.n false = .ok steps → j.writable i.desc.cObj = true →
    i.desc.route j.chain.drypoint = .swapped ∨ i.desc.route j.chain.drypoint = .drypoint →
    i.desc.laneFaulty (j.bytes slot i.desc.aObj) (j.bytes slot i.desc.bObj) false = false →
    ∃ t, exec (.gemm job slot false) s = .next t ∧ t.Acted job slot i stOk 0 ∧ t.Reads job slot i.desc.cObj
      (i.desc.gemmWrite (j.bytes slot i.desc.aObj) (j.bytes slot i.desc.bObj) (j.bytes slot i.desc.cObj) steps).1) ∧
  (∀ (s : State) (job : Word) (slot : Fin 32) (lane : Bool) (j : Job) (i : InFlight) (steps : List EpiStep),
    s.Issued job slot 1 (fun _ => true) j i →
    s.epilogue j slot i.desc.epilogue i.desc.m i.desc.n false = .ok steps → j.writable i.desc.cObj = true →
    i.desc.route j.chain.drypoint = .arrays →
    ∃ t, exec (.gemm job slot lane) s = .next t ∧ t.Reads job slot i.desc.cObj (j.bytes slot i.desc.cObj) ∧
      t.Waits job slot i ((i.desc.products (j.bytes slot i.desc.aObj) (j.bytes slot i.desc.bObj)).flatMap fun p =>
        tilesOf (tileRows i.desc.fmtA i.desc.fmtB) (outColumns i.desc.fmtA i.desc.fmtB)
          (rowTime i.desc.fmtA i.desc.fmtB) p.1 p.2)) ∧
  (∀ (s : State) (job : Word) (slot : Fin 32) (j : Job) (i : InFlight) (steps : List EpiStep),
    s.Issued job slot 2 (fun _ => true) j i →
    s.epilogue j slot i.desc.epilogue i.desc.m i.desc.n false = .ok steps → j.writable i.desc.cObj = true →
    i.desc.flag 13 = false → i.desc.flag 11 = false → i.desc.geo.depthwise = true → i.desc.n ≠ 0 → i.desc.batch ≠ 0 →
    i.desc.k ≠ 0 →
    ∃ t, exec (.conv job slot) s = .next t ∧ t.Acted job slot i stOk 0 ∧ t.Reads job slot i.desc.cObj
      (i.desc.writeMaps (j.bytes slot i.desc.cObj) steps ((List.range i.desc.batch).map fun b =>
        i.desc.depthImage (j.bytes slot i.desc.aObj) (j.bytes slot i.desc.bObj) i.desc.padValue.1 b)).1) ∧
  (∀ (s : State) (job : Word) (slot : Fin 32) (j : Job) (i : InFlight) (steps : List EpiStep),
    s.Issued job slot 3 (fun _ => true) j i →
    s.epilogue j slot i.desc.epilogue i.desc.m i.desc.n false = .ok steps → j.writable i.desc.cObj = true →
    i.desc.flag 13 = false → i.desc.n ≠ 0 → i.desc.batch ≠ 0 →
    ∃ t, exec (.pool job slot) s = .next t ∧ t.Acted job slot i stOk 0 ∧ t.Reads job slot i.desc.cObj
      (i.desc.writeMaps (j.bytes slot i.desc.cObj) steps ((List.range i.desc.batch).map fun b =>
        i.desc.poolImage fun c p x =>
          toF32 (i.desc.tapValue (j.bytes slot i.desc.aObj) i.desc.padValue.1 b c p x))).1) ∧
  (∀ (s : State) (job : Word) (slot : Fin 32) (j : Job) (i : InFlight), s.Issued job slot 5 (fun _ => true) j i →
    i.desc.epilogue = 0 → j.writable i.desc.cObj = true → i.desc.m = 1 → i.desc.batch ≤ 1 → i.desc.sub ≠ 1 →
    i.desc.bObj = 0 →
    ∃ t, exec (.norm job slot) s = .next t ∧ t.Acted job slot i stOk 0 ∧ t.Reads job slot i.desc.cObj
      (writeRows (j.bytes slot i.desc.cObj) i.desc.cOff i.desc.fmtC i.desc.n i.desc.satFinite
        [(normRow false (i.desc.word 13) none none
          (readRowF32 (j.bytes slot i.desc.aObj) i.desc.aOff i.desc.fmtA 1 i.desc.n 0)).1]).1) ∧
  (∀ (s : State) (job : Word) (slot : Fin 32) (j : Job) (i : InFlight) (steps : List EpiStep),
    s.Issued job slot 4 (fun d => d.sub = 0) j i →
    s.epilogue j slot i.desc.epilogue i.desc.m i.desc.n true = .ok steps → j.writable i.desc.cObj = true →
    (steps.any fun e => e.src = 3) = false ∨ i.desc.bObj ≠ 0 → i.desc.flag 10 = false → i.desc.batch ≠ 0 →
    ∃ t, exec (.ewApply job slot) s = .next t ∧ Only [.jobs] s t ∧ t.Acted job slot i stOk 0 ∧
      t.Reads job slot i.desc.cObj (i.desc.ewWrite (j.bytes slot i.desc.aObj) (j.bytes slot i.desc.bObj)
        (j.bytes slot i.desc.cObj) steps).1) ∧
  (∀ (s : State) (job : Word) (slot : Fin 32) (j : Job) (i : InFlight) (x : PwlTable),
    s.Issued job slot 4 (fun d => d.sub = 1) j i → j.readFault i.desc.aObj i.desc.aOff
      (4 * (2 + 3 * fld (Memory.readWord (j.bytes slot i.desc.aObj) i.desc.aOff) 6 0)) = none →
    parsePwl (j.bytes slot i.desc.aObj) i.desc.aOff = some x →
    ∃ t, exec (.pwlLoad job slot) s = .next t ∧ Only [.jobs, .cores] s t ∧ t.Acted job slot i stOk 0 ∧
      t.cores = s.cores.modify (j.coreOf slot) fun c => { c with
        pwl := (i.desc.param0 % 32, x) :: c.pwl.filter (·.1 != i.desc.param0 % 32) }) ∧
  (∀ (s : State) (job : Word) (slot : Fin 32) (j : Job) (i : InFlight) (best : List (Nat × Word)),
    s.Issued job slot 9 (fun _ => true) j i → j.writable i.desc.cObj = true →
    sortSelect (i.desc.sub = 1) (i.desc.word 13) i.desc.n
      (readRowF32 (j.bytes slot i.desc.aObj) i.desc.aOff i.desc.fmtA 1 i.desc.m 0) = best →
    ∃ t, exec (.sort job slot) s = .next t ∧ Only [.jobs] s t ∧ t.Acted job slot i stOk (wd best.length) ∧
      t.Reads job slot i.desc.cObj (Memory.writeBytes (j.bytes slot i.desc.cObj) i.desc.cOff
        (best.flatMap fun x => wordBytes (wd x.1) ++ wordBytes x.2))) ∧
  (∀ (s : State) (job : Word) (slot : Fin 32) (j : Job) (i : InFlight), s.Issued job slot 10 (fun d => d.sub = 0) j i →
    j.writable i.desc.cObj = true → fmtMx i.desc.fmtA = false →
    ∃ t, exec (.moveCopy job slot) s = .next t ∧ Only [.jobs] s t ∧ t.Acted job slot i stOk 0 ∧
      t.Reads job slot i.desc.cObj (copyRows i.desc.fmtA i.desc.n (j.bytes slot i.desc.aObj)
        (j.bytes slot i.desc.cObj) i.desc.aOff i.desc.cOff (pitchOf i.desc.fmtA i.desc.n (i.desc.word 11))
        (pitchOf i.desc.fmtA i.desc.n (i.desc.word 13)) i.desc.m)) ∧
  (∀ (s : State) (job : Word) (slot : Fin 32) (j : Job) (i : InFlight), s.Issued job slot 10 (fun d => d.sub = 1) j i →
    j.writable i.desc.cObj = true → i.desc.batch = 1 →
    ∃ t, exec (.moveLayout job slot) s = .next t ∧ Only [.jobs] s t ∧ t.Acted job slot i stOk 0 ∧
      t.Reads job slot i.desc.cObj (convertLayout i.desc.fmtA i.desc.param0 i.desc.param1.toNat i.desc.n i.desc.m
        (j.bytes slot i.desc.aObj) (j.bytes slot i.desc.cObj) i.desc.aOff i.desc.cOff)) ∧
  (∀ (s : State) (job : Word) (slot : Fin 32) (j : Job) (i : InFlight), s.Issued job slot 10 (fun d => d.sub = 3) j i →
    j.writable i.desc.cObj = true → fmtMx i.desc.fmtA = false →
    ∃ t, exec (.moveTranspose job slot) s = .next t ∧ Only [.jobs] s t ∧ t.Acted job slot i stOk 0 ∧
      t.Reads job slot i.desc.cObj (transposeElems i.desc.fmtA i.desc.m i.desc.n
        (pitchOf i.desc.fmtA i.desc.n (i.desc.word 11)) (pitchOf i.desc.fmtA i.desc.m (i.desc.word 13))
        (j.bytes slot i.desc.aObj) (j.bytes slot i.desc.cObj) i.desc.aOff i.desc.cOff))

/-- The descriptors that use contexts and gates (R207, R216 to R219, R226, R232 to R236, R239, R240): ATTN answers how many
positions it appended, on the Drypoint path at once where its residue lane finds no mismatch, and on the arrays when its
tiles are done; SCAN steps its stream and STEPS counts them; a precise GATE applies its function. -/
def Obligations.ContextDescriptorsAct : Prop :=
  (∀ (s : State) (job : Word) (slot : Fin 32) (j : Job) (i : InFlight) (heads : List (Nat × Nat)) (run : AttnRun),
    s.Issued job slot 6 (fun d => d.sub = 0) j i → s.attnFault j i.desc (i.desc.attnCtxs (j.bytes slot i.desc.bObj)) = none →
    heads = (i.desc.attnCtxs (j.bytes slot i.desc.bObj)).map (fun n => (n, ((s.seenBy j n).map (·.heads)).getD 0)) →
    j.touchFault [
      { obj := i.desc.aObj, off := i.desc.aOff
        len := tensorBytes i.desc.fmtA (i.desc.m * total (heads.map (·.2))) i.desc.n },
      { obj := i.desc.word 11, off := (i.desc.word 12).toNat, len := heads.length * i.desc.m * 256 },
      { obj := i.desc.cObj, off := i.desc.cOff
        len := tensorBytes i.desc.fmtC (i.desc.m * total (heads.map (·.2))) i.desc.n, write := true }] = none →
    run = (attnPlaces i.desc.m 0 0 heads).foldl (AttnRun.context j i.desc (j.bytes slot i.desc.aObj)
      (j.bytes slot (i.desc.word 11)) (i.desc.m * total (heads.map (·.2)))) { state := s, out := j.bytes slot i.desc.cObj } →
    run.failed = false → run.damaged = none → run.limit = none → run.lane.2 = false →
    ∃ t, exec (.attnDecode job ⟨slot, false⟩) s = .next t ∧ t.Acted job slot i stOk (wd run.appended)) ∧
  (∀ (s : State) (job : Word) (slot : Fin 32) (j : Job) (i : InFlight) (heads : List (Nat × Nat)) (run : AttnRun),
    s.Issued job slot 6 (fun d => d.sub = 1) j i → s.attnFault j i.desc (i.desc.attnCtxs (j.bytes slot i.desc.bObj)) = none →
    heads = (i.desc.attnCtxs (j.bytes slot i.desc.bObj)).map (fun n => (n, ((s.seenBy j n).map (·.heads)).getD 0)) →
    j.touchFault [
      { obj := i.desc.aObj, off := i.desc.aOff
        len := tensorBytes i.desc.fmtA (i.desc.m * total (heads.map (·.2))) i.desc.n },
      { obj := i.desc.word 11, off := (i.desc.word 12).toNat, len := heads.length * i.desc.m * 256 },
      { obj := i.desc.cObj, off := i.desc.cOff
        len := tensorBytes i.desc.fmtC (i.desc.m * total (heads.map (·.2))) i.desc.n, write := true }] = none →
    run = (attnPlaces i.desc.m 0 0 heads).foldl (AttnRun.context j i.desc (j.bytes slot i.desc.aObj)
      (j.bytes slot (i.desc.word 11)) (i.desc.m * total (heads.map (·.2)))) { state := s, out := j.bytes slot i.desc.cObj } →
    run.failed = false → run.damaged = none → run.limit = none → run.tiles ≠ [] →
    ∃ t, exec (.attnPrefill job slot) s = .next t ∧ t.Waits job slot i run.tiles) ∧
  (∀ (s : State) (job : Word) (slot : Fin 32) (j : Job) (i : InFlight) (n : Nat) (c : Context) (r : StateRegion),
    s.Issued job slot 7 (fun _ => true) j i → i.desc.m ≠ 0 → i.desc.word 12 = 0 →
    (parseStateList (j.bytes slot (i.desc.word 11)) i.desc.batch).streams = [(n, 64)] →
    (parseStateList (j.bytes slot (i.desc.word 11)) i.desc.batch).gates = false →
    s.scanFault j i.desc (parseStateList (j.bytes slot (i.desc.word 11)) i.desc.batch) true = none →
    s.seenBy j n = some c → c.state = .active → c.id = n → c.rec_ = some r →
    ∃ t, exec (.scan job slot) s = .next t ∧ Only [.jobs] s t ∧ (∃ q, t.Acted job slot i stOk q) ∧
      ∃ x, t.job? job = some x ∧ ∃ c', (x.journal.ctxs.find? (·.id = n)) = some c' ∧ ∃ r', c'.rec_ = some r' ∧
        r'.steps = BitVec.ofNat 64 ((readSlice r 64 i.desc.n
          (parseStateList (j.bytes slot (i.desc.word 11)) i.desc.batch).group
          (parseStateList (j.bytes slot (i.desc.word 11)) i.desc.batch).lookahead).since + i.desc.m)) ∧
  (∀ (s : State) (job : Word) (slot : Fin 32) (j : Job) (i : InFlight), s.Issued job slot 8 (fun _ => true) j i →
    j.writable i.desc.cObj = true → i.desc.flag 12 = true →
    ∃ t, exec (.gate job slot) s = .next t ∧ Only [.jobs] s t ∧ t.Acted job slot i stOk 0 ∧
      t.Reads job slot i.desc.cObj (writeRows (j.bytes slot i.desc.cObj) i.desc.cOff i.desc.fmtC i.desc.n
        i.desc.satFinite ((List.range i.desc.m).map fun r =>
          (readRowF32 (j.bytes slot i.desc.aObj) i.desc.aOff i.desc.fmtA i.desc.m i.desc.n r).map fun x =>
            (precise (if i.desc.sub = 0 then fnLogistic else fnTanh) x).1)).1)

/-- CHECK sends one message to Proof and does not wait for the verdict (R170, R419); the Margin engine runs one
descriptor at a time, in the order of deadlines (R191, R192). -/
def Obligations.ChecksAndTheMarginEngineAct : Prop :=
  (∀ (s : State) (job : Word) (slot : Fin 32) (j : Job) (i : InFlight), s.Issued job slot 0x0E (fun d => d.sub = 0) j i →
    ∃ t, exec (.checkResidue job slot) s = .next t ∧ Only [.jobs, .prf] s t ∧ t.Acted job slot i stOk 0 ∧
      t.prf = { s.prf with mailbox := s.prf.mailbox ++ [.residue job slot i.index (i.desc.param0 % 16) i.desc.param1
        (j.slots.getD slot {}).digest] } ∧
      ∃ x, t.job? job = some x ∧ (x.slots.getD slot {}).verdicts = (j.slots.getD slot {}).verdicts + 1) ∧
  (∀ (s : State) (job : Word) (slot : Fin 32) (j : Job) (i : InFlight), s.Issued job slot 0x0E (fun d => d.sub = 1) j i →
    ∃ (t : State) (lo hi total : Word) (nans : Nat), exec (.checkStats job slot) s = .next t ∧ Only [.jobs, .prf] s t ∧
      t.Acted job slot i stOk 0 ∧
      t.prf = { s.prf with mailbox := s.prf.mailbox ++ [.stats job slot i.index (i.desc.param0 % 16) i.desc.param1
        lo hi total nans] } ∧
      nans = (((List.range i.desc.m).flatMap fun r =>
        readRowF32 (j.bytes slot i.desc.aObj) i.desc.aOff i.desc.fmtA i.desc.m i.desc.n r).filter f32IsNan).length) ∧
  (∀ (s : State) (e : Word × Nat) (l : List (Word × Nat)), s.jobs.marginRun = none →
    s.jobs.marginQueue.foldl (fun acc e => insertBy s.marginBefore e acc) [] = e :: l →
    ∃ t, exec .marginQueueStart s = .next t ∧ Only [.jobs] s t ∧ t.jobs.marginRun = some e ∧
      t.jobs.marginQueue = s.jobs.marginQueue.filter (· != e)) ∧
  (∀ (s : State) (job : Word) (slot : Fin 32) (j : Job) (i : InFlight), s.jobs.marginRun = some (job, slot.val) →
    s.job? job = some j → j.marginFlight slot = some i →
    ∃ t, exec .marginDescriptorDone s = .next t ∧ Only [.jobs] s t ∧ t.jobs.marginRun = none ∧
      t.Acted job slot i i.status i.result) ∧
  (∀ (s : State) (e : Word × Nat), s.jobs.marginRun = some e → exec .marginResidueFault s =
    .next ((s.report 0x0B 0 1 2 4 ((s.job? e.1).map (·.part)) e.1 0).faultJob e.1 none))

/-- Inside a core (R99, R102 to R107, R122, R156): a full staging buffer starts the load that waits for it; a load frees its
buffer, puts its weights into the shadow registers and lets the rows of its K step stream behind the swap mark; a tile
that ends without a mismatch drains its bank; a mismatch is counted for its array and is a fault of the core; a drained
bank is free, its results join their descriptor, and with the last of them the descriptor acts; the residue fault waits
for the tile in progress and hands the job to restart, as the T1 fault does at once. -/
def Obligations.CoresLoadComputeAndFault : Prop :=
  (∀ (s : State) (core : Fin 36) (buf : Fin 2) (c : Core), s.cores[core.val]? = some c → c.job.isSome = true →
    c.bufFull.getD buf false = false → c.loadWaits = false →
    exec (.weightBufferReady core buf) s = .next { s with
      cores := s.cores.set core { c with bufFull := c.bufFull.set buf true } }) ∧
  (∀ (s : State) (core : Fin 36) (buf : Fin 2) (c : Core), s.cores[core.val]? = some c → c.job.isSome = true →
    c.bufFull.getD buf false = false → c.loadWaits = true → c.nextBuf = buf →
    exec (.weightBufferReady core buf) s = .next (State.bumpBy (.coreLoadWait core) (2 * (s.edge - c.loadWaitEdge)) { s with
      cores := s.cores.set core { c with
        bufFull := c.bufFull.set buf true, loading := true, loadWaits := false
        loadStart := max s.edge c.loadWaitEdge } })) ∧
  (∀ (s : State) (core : Fin 36) (c : Core) (j : Job) (k : Nat) (i : InFlight) (x : ArrayTile),
    s.cores[core.val]? = some c → s.loadOf core = some (j, k, i) → c.loading = true → c.loadStart + 32 ≤ s.edge →
    i.work.tiles.getD i.work.tile {} = x →
    ∃ t, exec (.weightLoadDone core) s = .next t ∧ Only [.counts, .jobs, .cores] s t ∧
      t.counts = (s.bump (.coreWeightLoads core)).counts ∧ ∃ d, t.cores[core.val]? = some d ∧
        d.bufFull = c.bufFull.set c.nextBuf false ∧ d.nextBuf = 1 - c.nextBuf ∧
        d.working = (if c.feed = [] ∨ c.swapMark = false then c.working else c.shadow) ∧
        d.shadow = x.weights i.work.int i.work.pack i.work.step ∧ d.swapMark = true ∧
        d.feed = x.rows i.work.step ∧ d.enterEdge = s.edge + (x.acts.length * x.rowTime + 1) / 2) ∧
  (∀ (s : State) (core : Fin 36) (row : Word) (c : Core) (j : Job) (k : Fin 32) (i : InFlight) (n : Nat),
    s.cores[core.val]? = some c → s.tileOf core = some (j, k.val, i) → c.tail = none → c.pendingFaults = [] →
    s.tileBank core i = some n → (c.flush.banks.getD n {}).mismatch = 0 →
    ∃ t, exec (.tileComplete core 0 row) s = .next t ∧ Only [.jobs, .cores] s t ∧
      t.cores = s.cores.set core (c.flush.drain s.edge n i.work.drainCycles) ∧
      t.Waits j.id k i (i.work.tiles.drop 1)) ∧
  (∀ (s : State) (core : Fin 36) (a : Fin 4) (row : Word) (c : Core) (j : Job) (k : Nat) (i : InFlight) (n : Nat),
    s.cores[core.val]? = some c → s.tileOf core = some (j, k, i) → c.tail = none → c.pendingFaults = [] →
    s.tileBank core i = some n → (c.flush.banks.getD n {}).mismatch = 0 →
    (c.flush.banks.getD n {}).compared.getLsbD a = true →
    exec (.tileComplete core (BitVec.ofNat 4 (2 ^ a.val)) row) s =
      .next ((s.bump (.coreCheckFail core a)).coreFault core 1 (4 * core + a.val) 1 row.toNat [j.id])) ∧
  (∀ (s : State) (core : Fin 36) (bank : Fin 2) (c : Core) (b : AccBank), s.cores[core.val]? = some c →
    c.banks.getD bank {} = b → b.state = .draining → b.drained ≤ s.edge →
    (c.banks.getD (1 - bank.val) {}).state ≠ .draining → c.bankWait = none →
    exec (.accBankFree core bank) s = .next (State.bankDrained core b { s with
      cores := s.cores.set core { c with banks := c.banks.set bank {} } })) ∧
  (∀ (s : State) (core : Fin 36) (bank : Fin 2) (c : Core) (b : AccBank), s.cores[core.val]? = some c →
    c.banks.getD bank {} = b → b.state = .draining → b.drained ≤ s.edge → b.owner = none →
    (c.banks.getD (1 - bank.val) {}).state ≠ .draining → c.bankWait = some bank.val →
    ∃ t, exec (.accBankFree core bank) s = .next t ∧ Only [.counts, .cores] s t ∧
      t.counts = (s.bumpBy (.coreAccWait core) (2 * (s.edge - c.bankWaitEdge))).counts ∧
      ∃ d, t.cores[core.val]? = some d ∧ d.banks = c.banks.set bank {}) ∧
  (∀ (s : State) (core : Nat) (b : AccBank) (j : Job) (slot : Fin 32) (i : InFlight),
    b.owner = some (j.id, slot.val, i.index) → s.job? j.id = some j → (j.slots.getD slot {}).inFlight = [i] →
    i.stage = .waiting → i.desc.op ≠ 1 → i.desc.op ≠ 2 → i.work.tiles = [] →
    (∀ x ∈ (s.core core).banks, x.owner ≠ b.owner) →
    (s.bankDrained core b).Acted j.id slot i i.status i.result) ∧
  (∀ (s : State) (core : Fin 36) (id : Word), s.coreJobs core = [id] → (s.core core).inTile = false →
    exec (.washResidueFault core) s = .next ((s.bump (.coreWashResidue core)).coreFault core 2 core 3 0 [id])) ∧
  (∀ (s : State) (core : Fin 36) (c : Core) (id : Word), s.cores[core.val]? = some c → s.coreJobs core = [id] →
    c.inTile = true → exec (.washResidueFault core) s = .next (State.bump (.coreWashResidue core) { s with
      cores := s.cores.set core { c with
        pendingFaults := c.pendingFaults ++ [{ kind := 2, inst := core, code := 3, jobs := [id] }] } })) ∧
  (∀ (s : State) (core : Fin 36) (bank : Fin 8) (id : Word), s.coreJobs core = [id] →
    exec (.t1Uncorrectable core bank) s =
      .next ((s.report 2 core 1 2 0x0012 ((s.job? id).map (·.part)) id bank).faultJob id none))

/-! ## Contexts, tiers and links -/

/-- The commands that make and end contexts (R199, R206, R210 to R213, R226, R229): each accepted command changes the table
and is answered OK; GEN counts a change. -/
def Obligations.ContextsAreOpenedForkedAndClosed : Prop :=
  (∀ (s : State) (i : Fin 16) (tag : Word) (b : CtxBody) (p : Nat) (c : Context), s.CtxCommand i b p →
    s.context? (bodyCtx b) = none → openFields b (bodyCtx b) p = some c → s.freeFrames p ≠ 0 →
    ∃ t, exec (.ctxOpen i tag b) s = .next (State.sendTo i (.ctxReply tag cxOk (bodyCtx b)) t) ∧
      ∃ root, t.ctx = { s.ctx with table := s.ctx.table ++ [{ c with root := root }] }) ∧
  (∀ (s : State) (i : Fin 16) (tag : Word) (b : CtxBody) (p : Nat), s.CtxCommand i b p →
    (s.context? (bodyCtx b)).isSome = true →
    exec (.ctxOpen i tag b) s = .next (State.sendTo i (.ctxReply tag cxInUse (bodyCtx b)) (s.delivered i))) ∧
  (∀ (s : State) (i : Fin 16) (tag : Word) (b : CtxBody) (p : Nat) (c : Context), s.CtxCommand i b p →
    s.context? (bodyCtx b) = none → s.inRange p (fld b.w2 13 0) = true → s.context? (fld b.w2 13 0) = some c →
    c.state = .active → c.holder = 0 → bodyUnused b 0x3FFFF 0x3FFF 0 0 0 = false → fld b.w1 17 0 ≤ c.length →
    c.kv = false → c.lgs = [] → c.rec_ = none →
    ∃ t, exec (.ctxFork i tag b) s = .next (State.sendTo i (.ctxReply tag cxOk (bodyCtx b)) t) ∧
      ∃ root recs, t.ctx.table = s.ctx.table ++ [{ c with
        id := bodyCtx b, root := root, recFrames := recs, gen := 1, lastCommit := {}, damagePending := false }]) ∧
  (∀ (s : State) (i : Fin 16) (tag : Word) (b : CtxBody) (p : Nat) (c : Context), s.CtxCommand i b p →
    s.context? (bodyCtx b) = some c → c.state = .active → c.holder = 0 → bodyUnused b 0x3FFFF 0 0 0 0 = false →
    fld b.w1 17 0 ≤ c.length → c.rec_ = none →
    ∃ t, exec (.ctxTruncate i tag b) s = .next (State.sendTo i (.ctxReply tag cxOk (bodyCtx b)) t) ∧
      t.context? (bodyCtx b) = some { c with
        gen := c.gen + 1
        lgs := c.lgs.map fun l => { l with
          filled := min l.filled (fld b.w1 17 0)
          ptes := l.ptes.filter fun e => decide (16 * e.index < fld b.w1 17 0) } }) ∧
  (∀ (s : State) (i : Fin 16) (tag : Word) (b : CtxBody) (p : Nat) (c : Context), s.CtxCommand i b p →
    s.context? (bodyCtx b) = some c → c.holder = 0 → bodyUnused b 0 0 0 0 0 = false → c.rec_ = none →
    ∃ t, exec (.ctxReset i tag b) s = .next (State.sendTo i (.ctxReply tag cxOk (bodyCtx b)) t) ∧
      t.context? (bodyCtx b) = some { c with
        gen := c.gen + 1, state := .active, lgs := c.lgs.map fun l => { l with filled := 0, ptes := [] } }) ∧
  (∀ (s : State) (i : Fin 16) (tag : Word) (b : CtxBody) (p : Nat) (c : Context), s.CtxCommand i b p →
    s.context? (bodyCtx b) = some c → c.holder = 0 → bodyUnused b 0 0 0 0 0 = false →
    ∃ t, exec (.ctxClose i tag b) s = .next (State.sendTo i (.ctxReply tag cxOk (bodyCtx b)) t) ∧
      t.ctx.table = s.ctx.table.filter (·.id != bodyCtx b)) ∧
  (∀ (s : State) (i : Fin 16) (tag : Word) (b : CtxBody) (p : Nat) (c : Context) (o : ObjVersion), s.CtxCommand i b p →
    s.context? (bodyCtx b) = some c → c.state = .active → c.rec_ = none → c.holder = 0 →
    bodyUnused b 0x3FFFF 0xFFFFFFFF 0x00FFFFFF 0 0 = false → 2 ≤ fld b.w1 17 0 → fld b.w1 17 0 ≤ 131072 →
    fld b.w3 23 16 ≤ 128 → 128 * fld b.w1 17 0 ≤ s.budgetBytes p → s.newestOf p b.w2 = some o →
    o.state = .sealed ∨ o.state = .rebuilding → o.part = p → isDevice o.obj = false →
    s.regionBytes p + 64 * fld b.w1 17 0 ≤ s.budgetBytes p →
    ∃ t a, exec (.ctxAttach i tag b) s = .next (State.sendTo i (.ctxReply tag cxOk (bodyCtx b)) t) ∧
      t.context? (bodyCtx b) = some { c with
        gen := c.gen + 1
        rec_ := some {
          addr := a, units := fld b.w1 17 0, lookahead := fld b.w3 23 16, model := b.w2, warm := BitVec.ofNat 16 (fld b.w3 15 0)
          hash := sha384 (Memory.readBytes o.data 0 o.len), lastSeal := s.edge } })

/-- State regions leave and come back (R208, R242 to R246): an export takes the committed region and is answered when its
snapshot is sealed; an accepted import replaces the region, and a rejected one leaves it and is counted; an unchanged
region is dropped at once, and the other swaps are answered when they end; a page whose last position is committed is
sealed, and the oldest sealed page moves to T3 when frames run short. -/
def Obligations.StateRegionsAreExportedImportedAndSwapped : Prop :=
  (∀ (s : State) (i : Fin 16) (tag : Word) (b : CtxBody) (p : Nat) (c : Context) (r : StateRegion) (k : BitVec 256),
    s.CtxCommand i b p → s.context? (bodyCtx b) = some c → c.state = .active → c.rec_ = some r →
    bodyUnused b 0 0xFFFFFFFF 0xF 0 0 = false → b.w2 ≠ 0 → b.w2.toNat < 0xFB000000 →
    s.slotKey (fld b.w3 3 0) (·.state) = some k → (s.sec.slots.getD (fld b.w3 3 0) {}).exports_ ≠ 0xFFFFFFFF →
    ∃ t, exec (.ctxExport i tag b) s = .next t ∧
      t.ctx = { s.ctx with exports_ := s.ctx.exports_ ++ [{
        ctx := bodyCtx b, part := c.part, obj := b.w2, keySlot := fld b.w3 3 0, key := k, sess := i, tag := tag
        region := r }] } ∧
      t.sec = { s.sec with slots := s.sec.slots.modify (fld b.w3 3 0) fun y => { y with exports_ := y.exports_ + 1 } }) ∧
  (∀ (s : State) (ctx : BitVec 14) (e : ExportOp), s.ctx.exports_.find? (·.ctx = ctx.toNat) = some e →
    bankUnits (144 + 64 * e.region.units) ≤ s.t2Free → s.dirUsed + 1 ≤ 65536 →
    ∃ t, exec (.exportDone ctx) s = .next (State.sendTo e.sess (.ctxReply e.tag cxOk e.ctx) t) ∧
      t.ctx.exports_ = s.ctx.exports_.erase e ∧
      ∃ o ∈ t.tir.objs, o.obj = e.obj ∧ o.part = e.part ∧ o.newest = true ∧ o.len = 144 + 64 * e.region.units) ∧
  (∀ (s : State) (i : Fin 16) (tag : Word) (b : CtxBody) (p : Nat) (c : Context) (r : StateRegion)
    (x : BitVec 64 × Memory), s.CtxCommand i b p → s.context? (bodyCtx b) = some c → c.state = .active →
    c.rec_ = some r → c.holder = 0 → r.swapBusy = false → bodyUnused b 0 0xFFFFFFFF 0xF 0 0 = false →
    (s.delivered i).readSnapshot p b.w2 (fld b.w3 3 0) r = .ok x → r.resident = true →
    ∃ t, exec (.ctxImport i tag b) s = .next (State.sendTo i (.ctxReply tag cxOk (bodyCtx b)) t) ∧
      t.context? (bodyCtx b) = some { c with
        gen := c.gen + 1
        rec_ := some { r with
          steps := x.1, data := x.2, slices := [], unlisted := x.1.toNat, clean := false, snapshot := none
          snapMirror := none, snapGone := [] } }) ∧
  (∀ (s : State) (i : Fin 16) (tag : Word) (b : CtxBody) (p : Nat) (c : Context) (r : StateRegion) (st : Byte),
    s.CtxCommand i b p → s.context? (bodyCtx b) = some c → c.state = .active → c.rec_ = some r → c.holder = 0 →
    r.swapBusy = false → bodyUnused b 0 0xFFFFFFFF 0xF 0 0 = false →
    (s.delivered i).readSnapshot p b.w2 (fld b.w3 3 0) r = .error st →
    exec (.ctxImport i tag b) s = .next
      (State.sendTo i (.ctxReply tag st (bodyCtx b)) ((s.delivered i).bump .ctxRecImportReject))) ∧
  (∀ (s : State) (i : Fin 16) (tag : Word) (b : CtxBody) (p : Nat) (c : Context) (r : StateRegion), s.CtxCommand i b p →
    s.context? (bodyCtx b) = some c → c.state = .active → c.holder = 0 → c.rec_ = some r →
    bodyUnused b 0 0 0 0 0 = false → r.swapBusy = false → r.resident = true → r.droppable = true →
    ∃ t, exec (.ctxSwapOut i tag b) s = .next (State.sendTo i (.ctxReply tag cxOk (bodyCtx b)) t) ∧
      t.context? (bodyCtx b) = some { c with rec_ := some { r with resident := false } }) ∧
  (∀ (s : State) (i : Fin 16) (tag : Word) (b : CtxBody) (p : Nat) (c : Context) (r : StateRegion), s.CtxCommand i b p →
    s.context? (bodyCtx b) = some c → c.state = .active → c.holder = 0 → c.rec_ = some r →
    bodyUnused b 0 0 0 0 0 = false → r.swapBusy = false → r.resident = true → r.droppable = false →
    ((s.delivered i).swapOutNow c r (some (i.val, tag))).1 = true →
    ∃ t, exec (.ctxSwapOut i tag b) s = .next t ∧
      t.ctx.swaps = s.ctx.swaps ++ [{ ctx := bodyCtx b, swapIn := false, reply := some (i.val, tag) }] ∧
      t.context? (bodyCtx b) = some { c with rec_ := some { r with swapBusy := true } }) ∧
  (∀ (s : State) (i : Fin 16) (tag : Word) (b : CtxBody) (p : Nat) (c : Context) (r : StateRegion), s.CtxCommand i b p →
    s.context? (bodyCtx b) = some c → c.state = .active → c.rec_ = some r → bodyUnused b 0 0 0 0 0 = false →
    r.swapBusy = false → r.resident = false → s.regionBytes p + 64 * r.units ≤ s.budgetBytes p →
    ∃ t, exec (.ctxSwapIn i tag b) s = .next t ∧
      t.ctx.swaps = s.ctx.swaps ++ [{ ctx := bodyCtx b, swapIn := true, reply := some (i.val, tag) }] ∧
      t.context? (bodyCtx b) = some { c with rec_ := some { r with swapBusy := true } }) ∧
  (∀ (s : State) (ctx : BitVec 14) (w : SwapOp) (c : Context) (r : StateRegion) (sess : Nat) (tag : Word),
    s.ctx.swaps.find? (·.ctx = ctx.toNat) = some w → s.context? ctx.toNat = some c → c.rec_ = some r → w.swapIn = true →
    w.reply = some (sess, tag) →
    ∃ t a, exec (.swapDone ctx) s = .next (State.sendTo sess (.ctxReply tag cxOk w.ctx) t) ∧
      t.ctx.swaps = s.ctx.swaps.filter (· != w) ∧
      t.context? ctx.toNat = some { c with
        rec_ := some { r with addr := a, resident := true, swapBusy := false, clean := true } }) ∧
  (∀ (s : State) (ctx : BitVec 14) (w : SwapOp) (c : Context) (r : StateRegion) (sess : Nat) (tag : Word),
    s.ctx.swaps.find? (·.ctx = ctx.toNat) = some w → s.context? ctx.toNat = some c → c.rec_ = some r → w.swapIn = false →
    w.reply = some (sess, tag) → r.resident = false → s.ctx.waits = [] →
    ∃ t, exec (.swapDone ctx) s = .next (State.sendTo sess (.ctxReply tag cxOk w.ctx) t) ∧
      t.ctx.swaps = s.ctx.swaps.filter (· != w) ∧
      t.context? ctx.toNat = some { c with rec_ := some { r with swapBusy := false } }) ∧
  (∀ (s : State) (i : BitVec 21) (g : PageRecord), s.page? i.toNat = some g → g.awaits = true →
    ∃ t, exec (.pageSeal i) s = .next t ∧ Only [.ctx] s t ∧ t.page? i.toNat = some { g with
      sealed := true, open_ := false, awaits := false, crc := crc32c (Memory.readBytes g.data 0 4096)
      sealEdge := s.edge }) ∧
  (∀ (s : State) (part : Fin 8) (pool : PoolRec) (g : PageRecord) (l : List PageRecord) (u : Nat),
    s.poolOf part = some pool → 16 * s.freeFrames part < pool.kvPages →
    sortOn (·.sealEdge) (s.ctx.pages.filter fun g => g.part = part.val && g.sealed && g.inPlate &&
      !(s.tir.writer.any fun w => w.kind = .kvPage && w.obj = wd (0xFD000000 + g.index))) = g :: l →
    s.mirrors (s.pageMirrored g) = false → s.roomSoon 3 1 false = true → (s.allocUnits 3 1).1 = some u →
    ∃ t, exec (.kvPageDemote part) s = .next t ∧ t.tir = { s.tir with writer := s.tir.writer ++ [{
      kind := .kvPage, part := part, obj := wd (0xFD000000 + g.index), tier := 3, start := u }] })

/-- Hints on an object (R262, R263): a PROMOTE takes the host reference, RELEASE and DEMOTE drop it, PIN and UNPIN set and
clear the host pin, DROP frees the version in every tier; each is answered. -/
def Obligations.HintsActOnTheNamedVersion : Prop :=
  (∀ (s : State) (i : Fin 16) (tag : Word) (b : HintBody) (p : Nat) (o : ObjVersion), (s.session i).open_ = true →
    (s.session i).part = some p → hintReserved b = false → s.hinted p b = some o → hintTier b = 2 → 2 < o.home →
    o.state = .sealed → (s.delivered i).fitsFloors 2 o.part (s.promoUnits 2 o) = true →
    (∀ x ∈ s.tir.objs, x.part = o.part → x.obj = o.obj → x.hostT2 = false) →
    s.version? o.part o.obj o.ver = some o → o.full = true →
    ∃ t, exec (.promote i tag b) s = .next (State.sendTo i (.hintReply tag 0) t) ∧
      t.tir = { s.tir with
        objs := s.tir.objs.map fun x => if isVer o.part o.obj o.ver x then { x with hostT2 := true, refsT2 := min 65535 (x.refsT2 + 1) } else x }) ∧
  (∀ (s : State) (i : Fin 16) (tag : Word) (b : HintBody) (p : Nat) (o : ObjVersion), (s.session i).open_ = true →
    (s.session i).part = some p → hintReserved b = false → s.hinted p b = some o → hintTier b = 2 →
    s.hostHolder 2 o.part o.obj = some o →
    (∀ x ∈ s.tir.objs, x.newest = true) →
    ∃ t, exec (.release i tag b) s = .next (State.sendTo i (.hintReply tag 0) t) ∧
      t.tir = { s.tir with
        objs := s.tir.objs.map fun x => if isVer o.part o.obj o.ver x then
          { x with hostT2 := false, refsT2 := dropRef x.refsT2, lastUse := s.now } else x }) ∧
  (∀ (s : State) (i : Fin 16) (tag : Word) (b : HintBody) (p : Nat) (o : ObjVersion), (s.session i).open_ = true →
    (s.session i).part = some p → hintReserved b = false → s.hinted p b = some o →
    ∃ t u, exec (.pin i tag b) s = .next (State.sendTo i (.hintReply tag 0) t) ∧
      exec (.unpin i tag b) s = .next (State.sendTo i (.hintReply tag 0) u) ∧
      t.tir = { s.tir with
        objs := s.tir.objs.map fun x => if isVer o.part o.obj o.ver x then { x with hpin := true } else x } ∧
      u.tir = { s.tir with
        objs := s.tir.objs.map fun x => if isVer o.part o.obj o.ver x then { x with hpin := false } else x }) ∧
  (∀ (s : State) (i : Fin 16) (tag : Word) (b : HintBody) (p : Nat) (o : ObjVersion), (s.session i).open_ = true →
    (s.session i).part = some p → hintReserved b = false → s.hinted p b = some o → hintTier b = 2 →
    s.hostHolder 2 o.part o.obj = none →
    ∃ t, exec (.demote i tag b) s = .next (State.sendTo i (.hintReply tag 0) t) ∧
      t.tir = { s.tir with
        objs := s.tir.objs.map fun x => if isVer o.part o.obj o.ver x then (if x.refsT2 = 0 then { x with lastUse := 0 } else x) else x }) ∧
  (∀ (s : State) (i : Fin 16) (tag : Word) (b : HintBody) (p : Nat) (o : ObjVersion), (s.session i).open_ = true →
    (s.session i).part = some p → hintReserved b = false → s.hinted p b = some o → o.vrefs = 0 → o.refsT2 = 0 →
    o.refsT3 = 0 → o.promoting = false →
    ∃ t, exec (.drop i tag b) s = .next (State.sendTo i (.hintReply tag 0) t) ∧
      t.tir.objs = s.tir.objs.filter fun x => !isVer o.part o.obj o.ver x) ∧
  (∀ (s : State) (i : Fin 16) (tag : Word) (b : HintBody) (p : Nat) (o : ObjVersion), (s.session i).open_ = true →
    (s.session i).part = some p → hintReserved b = false → s.hinted p b = some o → o.vrefs ≠ 0 →
    exec (.drop i tag b) s = .next (State.sendTo i (.hintReply tag 0x06) (s.delivered i)))

/-- The tier manager (R252, R256, R265 to R269, R273, R275 to R278, R280, R448): a miss halts its core and asks for the
extent, until the fetch has brought every unit; an overdue request is cancelled, its tag held for 1 ms and its jobs
faulted; an ended write becomes readable; the mirror image, the checks of re-adoption and the rebuilds change the
directory; a query latches an entry. -/
def Obligations.TheTierManagerFetchesWritesAndChecks : Prop :=
  (∀ (s : State) (job : Word) (slot : Fin 32) (obj : Word) (extent : Nat) (j : Job) (b : Binding) (o : ObjVersion),
    job ≠ 0 → s.job? job = some j → j.bound.find? (fun b => b.obj = obj && !b.gone) = some b →
    s.version? b.part b.obj b.ver = some o → j.state = .running → slot.val < j.slots.length → extent < o.extents →
    extent ∉ o.present → s.fetchOf o extent = none → s.asked job slot extent o = false →
    (s.core (j.coreOf slot)).state = .running → s.portFree (j.coreOf slot) (readMaster j.chain.drypoint) = true →
    extentUnits ≤ s.t2Free → (s.otl.running.tierPools.find? (·.part = o.part)).any (·.onDemand) = false →
    ∃ t, exec (.extentMiss job slot obj extent) s = .next t ∧ (t.core (j.coreOf slot)).state = .waitWeights ∧
      ∃ r, t.tir.requests = s.tir.requests ++ [r] ∧ r.askers = [(job, slot.val)] ∧ r.part = o.part ∧ r.obj = o.obj ∧
        r.ver = o.ver ∧ r.extent = extent ∧ r.raised = true ∧ r.issueEdge = s.edge) ∧
  (∀ (s : State) (tag : BitVec 16) (r : TierRequest) (job : Word) (slot n : Nat),
    s.tir.requests.find? (·.tag = tag) = some r → r.left = [] → r.askers = [(job, slot)] →
    s.askerCore (job, slot) = some n → (s.core n).state = .waitWeights → s.lnw.waiting = [] →
    (∀ q ∈ s.tir.requests, q.tag ≠ tag → (job, slot) ∉ q.askers) →
    (∀ w ∈ s.tir.waits, w.obj = 0 ∨ w.job ≠ job ∨ w.slot ≠ slot) →
    ∃ t, exec (.extentFetchDone tag) s = .next t ∧ t.tir.requests = s.tir.requests.filter (·.tag != tag) ∧
      (t.core n).state = .running ∧ t.tir.objs.map (fun x => (x.obj, x.ver, x.part, x.present)) =
        s.tir.objs.map fun x =>
          (x.obj, x.ver, x.part, if isVer r.part r.obj r.ver x then x.present ++ [r.extent] else x.present)) ∧
  (∀ (s : State) (tag : BitVec 16) (r : TierRequest), s.tir.requests.find? (·.tag = tag) = some r →
    r.issueEdge + 32000 ≤ s.edge → r.askers = [] → s.lnw.waiting = [] →
    (∀ o ∈ s.tir.objs, isVer r.part r.obj r.ver o = true → o.promoT2 = false) →
    ∃ t, exec (.tierRequestTimeout tag) s = .next t ∧ Only [.counts, .tir, .chn, .lnw] s t ∧
      t.counts = (s.bump .tirTimeouts).counts ∧ t.tir.requests = s.tir.requests.filter (·.tag != tag) ∧
      t.tir.held = s.tir.held ++ [{ tag := tag, edge := s.edge }]) ∧
  (∀ (s : State) (tag : BitVec 16) (r : TierRequest) (j : Job), s.tir.requests.find? (·.tag = tag) = some r →
    r.issueEdge + 32000 ≤ s.edge → r.jobs = [j.id] → s.job? j.id = some j → j.state = .running → j.budget ≤ j.attempt →
    ∃ t, exec (.tierRequestTimeout tag) s = .next t ∧ t.job? j.id = none) ∧
  (∀ (s : State) (tag : BitVec 16), (s.tir.held.any (·.tag = tag)) = true →
    exec (.lateCompletion false tag) s = .next (s.bump .tirLateDiscard)) ∧
  (∀ (s : State) (tag : BitVec 16), (s.lnw.held.any (·.tag = tag)) = true →
    exec (.lateCompletion true tag) s = .next (s.bump .lnwLateDiscard)) ∧
  (∀ (s : State) (tag : BitVec 16), exec (.tagRelease tag) s = .next { s with
    tir := { s.tir with held := s.tir.held.filter fun h => h.tag != tag || decide (s.edge < h.edge + 160000) }
    lnw := { s.lnw with held := s.lnw.held.filter fun h => h.tag != tag || decide (s.edge < h.edge + 160000) } }) ∧
  (∀ (s : State) (w : AllocWait) (l : List AllocWait), s.tir.waits = w :: l → w.units ≤ s.t2Free →
    (∀ x ∈ s.tir.waits, x.obj = 0) → (∀ x ∈ s.tir.writer, x.placed = true) →
    exec .allocationWaitEnd s = .next { s with tir := { s.tir with waits := s.tir.waits.filter (· != w) } }) ∧
  (∀ (s : State) (w : TierWrite) (o : ObjVersion), s.tir.writer.find? (·.placed) = some w → w.kind = .place →
    w.tier = 3 → s.allStored w = true → s.version? w.part w.obj w.ver = some o →
    exec (.tierWriteDone true) s = .next { s with
      tir := { s.tir with
        writer := s.tir.writer.erase w, mirrorDirty := true
        objs := s.tir.objs.map fun x => if isVer o.part o.obj o.ver x then
          { x with t3 := some w.start, t3Mirror := w.mirrorStart, gone := s.lostNumbers, promoT3 := false }
        else x } }) ∧
  (∀ s : State, exec (.tierWriteDone false) s = .next s) ∧
  (∀ s : State, s.tir.mirrorDirty = true → s.tir.mirrorEdge = 0 ∨ s.tir.mirrorEdge + 1600000 ≤ s.edge →
    ∃ t k, exec .directoryMirrorWrite s = .next t ∧ Only [.tir] s t ∧
      (∀ x, s.newestImage = some x → k = 1 - x.1) ∧
      t.tir = { s.tir with
        mirrorSeq := s.tir.mirrorSeq + 1, mirrorDirty := false, mirrorEdge := s.edge
        mirror := s.tir.mirror.set k {
          words := mirrorImage (s.tir.mirrorSeq + 1) (compactOf s.now) ((s.tir.objs.filter fun o =>
            (o.state = .sealed || o.state = .rebuilding) && o.t3.isSome).map mirrorEntry)
          data := (s.tir.objs.filter fun o =>
            (o.state = .sealed || o.state = .rebuilding) && o.t3.isSome).map (·.data) } }) ∧
  (∀ (s : State) (part : Fin 8) (obj : Word) (ver : BitVec 16) (o : ObjVersion), s.tir.nextVerify = some o →
    o.part = part → o.obj = obj → o.ver = ver.toNat → o.rehome = false → s.tir.checkWaits = [] →
    ∃ t, exec (.readoptVerifyDone part obj ver o.crc) s = .next t ∧ Only [.tir, .counts] s t ∧
      t.tir = { s.tir with
        mirrorDirty := true
        objs := s.tir.objs.map fun x => if isVer part obj ver.toNat x then
          { x with state := if x.gone.all s.lostLogical then .sealed else .rebuilding, rehome := false } else x }) ∧
  (∀ (s : State) (part : Fin 8) (obj : Word) (ver : BitVec 16),
    (s.tir.writer.any fun w => w.kind = .rebuild && w.part = part && w.obj = obj && w.ver = ver.toNat) = false →
    exec (.rebuildDone part obj ver) s = .next { s with
      tir := { s.tir with
        objs := s.tir.objs.map fun o => if isVer part obj ver.toNat o then
          { o with state := if o.state = .rebuilding then .sealed else o.state, gone := o.gone.filter s.lostLogical }
        else o } }) ∧
  (∀ (s : State) (i : Fin 16) (p : Nat) (v : Word) (o : ObjVersion), (s.session i).open_ = true →
    (s.session i).part = some p → s.newestOf p v = some o →
    ∃ t, exec (.tirDirQuery i v) s = .next t ∧ t.tir = { s.tir with dirResult := o.words }) ∧
  (∀ (s : State) (job : Word) (slot : Fin 32) (j : Job) (i : InFlight) (k : Nat) (b : Binding) (o : ObjVersion),
    s.Issued job slot 10 (fun d => d.sub = 2) j i → j.handle i.desc.aObj = .bound k → j.bound[k]? = some b →
    s.version? b.part b.obj b.ver = some o → i.desc.param0 = 2 → 2 < o.home → o.full = true →
    ∃ t, exec (.moveTier job slot) s = .next t ∧ t.Acted job slot i stOk 0 ∧
      t.tir.tierRefs = s.tir.tierRefs ++ [{ job := some job, part := o.part, obj := o.obj, ver := o.ver, tier := 2 }])

/-- Memory channels (R281 to R293, R302): an intact burst changes nothing but the replay buffer of its device; a link
failure is counted and, after three retries, starts a retrain; so does a burst that its device does not store; a mirror
serves an uncorrectable unit; a retrain that passes within the latency limit returns the channel to work, and a Golent
channel that fails is retired in favour of the lowest trained spare; retrains start when their trigger comes. -/
def Obligations.ChannelsRetrainAndAreReplaced : Prop :=
  (∀ (s : State) (b : Fin 16) (unit : Nat) (first : Fin 64) (x : BurstTry), s.serves (.board b) unit = true →
    (s.memChan (.board b)).bad = none → (s.memChan (.board b)).mayRead unit = true →
    (s.memChan (.board b)).reread ≠ some unit → x.errors = 0 →
    exec (.tierReadTransaction (.board b) ⟨unit, first⟩ [[x]]) s = .next s) ∧
  (∀ (s : State) (c : Fin 66) (unit : Nat) (first : Fin 64) (x : BurstTry), s.serves (.golent c) unit = true →
    (s.memChan (.golent c)).bad = none → (s.memChan (.golent c)).mayRead unit = true →
    (s.memChan (.golent c)).reread ≠ some unit → crc8 x.data = x.crc → x.errors = 0 →
    exec (.tierReadTransaction (.golent c) ⟨unit, first⟩ [[x]]) s = .next { s with
      chn := { s.chn with golent := s.chn.golent.modify c (MemChannel.sent unit first) } }) ∧
  (∀ (s : State) (c : Fin 66) (unit : Nat) (first : Fin 64) (w x y z : BurstTry), s.serves (.golent c) unit = true →
    (s.memChan (.golent c)).bad = none → (s.memChan (.golent c)).mayRead unit = true →
    (s.memChan (.golent c)).reread ≠ some unit → (∀ b ∈ [w, x, y, z], crc8 b.data ≠ b.crc) →
    ∃ t, exec (.tierReadTransaction (.golent c) ⟨unit, first⟩ [[w, x, y, z]]) s = .next t ∧ Only [.counts, .chn] s t ∧
      t.counts = (s.bumpBy (.chnGCrcRetry c) 3).counts ∧
      t.chn = { s.chn with golent := s.chn.golent.modify c fun k =>
        { MemChannel.sent unit first k with state := .retraining, reread := some unit } }) ∧
  (∀ (s : State) (c : Fin 66) (unit : Nat) (first : Fin 64), s.serves (.golent c) unit = true →
    (s.memChan (.golent c)).bad = none →
    exec (.tierWriteTransaction (.golent c) ⟨unit, first⟩ [[false]]) s = .next { s with
      chn := { s.chn with golent := s.chn.golent.modify c fun k =>
        { k with unstored := k.unstored.filter (· != (unit, first.val)) } } }) ∧
  (∀ (s : State) (c : Fin 66) (unit : Nat) (first : Fin 64), s.serves (.golent c) unit = true →
    (s.memChan (.golent c)).bad = none →
    ∃ t, exec (.tierWriteTransaction (.golent c) ⟨unit, first⟩ [[true, true, true, true]]) s = .next t ∧
      Only [.counts, .chn] s t ∧ t.counts = (s.bumpBy (.chnGCrcRetry c) 3).counts ∧
      (t.memChan (.golent c)).state = .retraining ∧ (t.memChan (.golent c)).reread = some unit ∧
      (unit, first.val) ∈ (t.memChan (.golent c)).unstored) ∧
  (∀ (s : State) (c : Fin 66) (unit : Nat) (o : ObjVersion), (s.memChan (.golent c)).bad = some unit →
    s.ownerOf 3 unit = some o → o.mirrorHolds (unit % 64) = true → s.tir.requests = [] →
    exec (.unitUncorrectable (.golent c) unit) s =
      .next (State.bump .tirMirrorReads (State.bump (.chnGEccUncorr c) { s with
        chn := { s.chn with golent := s.chn.golent.modify c fun k =>
          { k with bad := none, queue := k.queue.filter (·.unit != unit) } } }))) ∧
  (∀ (s : State) (ch : Channel) (train : BitVec 24), (s.memChan ch).state = .retraining → latencyOk ch train = true →
    (∀ o, o ≠ ch → (s.memChan o).deferred = false) →
    ∃ t, exec (.retrainDone ch true train) s = .next t ∧ Only [.chn, .counts] s t ∧
      t.memChan ch = { s.memChan ch with
        state := if (s.memChan ch).logical = 0x7F then .spare else .active
        train := detected ch train, lastTrain := s.edge, trainTemp := s.glb.tempNow.toInt
        trainVdd := s.glb.avsTarget.toNat, deferred := false, corrEdges := [] }) ∧
  (∀ (s : State) (c sp : Fin 66) (train : BitVec 24), (s.memChan (.golent c)).state = .retraining →
    (s.memChan (.golent c)).logical ≠ 0x7F → s.golentSpare = some sp → (∀ o, (s.memChan o).deferred = false) →
    ∃ t, exec (.retrainDone (.golent c) false train) s = .next t ∧
      (t.memChan (.golent c)).state = .retired ∧ (t.memChan (.golent sp)).state = .active ∧
      (t.memChan (.golent sp)).logical = (s.memChan (.golent c)).logical) ∧
  (∀ (s : State) (ch : Channel), (s.memChan ch).lastTrain + 160000000 ≤ s.edge → (s.memChan ch).state = .active →
    (∀ o, (s.memChan o).state ≠ .retraining) →
    ∃ t, exec (.periodicRetrain ch) s = .next t ∧ Only [.chn] s t ∧
      t.memChan ch = { s.memChan ch with deferred := true, state := .retraining }) ∧
  (∀ (s : State) (ch : Channel), 128 ≤ (s.glb.tempNow.toInt - (s.memChan ch).trainTemp).natAbs →
    (s.memChan ch).state = .active → (∀ o, (s.memChan o).state ≠ .retraining) →
    ∃ t, exec (.driftRetrain ch) s = .next t ∧ Only [.chn] s t ∧
      t.memChan ch = { s.memChan ch with deferred := true, state := .retraining }) ∧
  (∀ (s : State) (v : Word) (ch : Channel), retrainTarget v = some ch → (s.memChan ch).state = .active →
    (∀ o, (s.memChan o).state ≠ .retraining) →
    ∃ t, exec (.chnRetrain v) s = .next t ∧ Only [.chn] s t ∧
      t.memChan ch = { s.memChan ch with deferred := true, state := .retraining })

/-- Linework (R295 to R299, R303, R304, R439, R448): a delivered response ends its transaction, and one with a held tag is
discarded; a double error is dropped and counted; after 500 us a transaction is cancelled; written budgets take
effect at a window boundary, and one above a point's capacity is rejected; a router moves to its shadow lane once. -/
def Obligations.LineworkDeliversTimesOutAndRegulates : Prop :=
  (∀ (s : State) (node : Fin 16) (tag : BitVec 16), s.routerLost node = false → (s.lnw.txs.any (·.tag = tag)) = true →
    s.lnw.waiting = [] →
    exec (.lineworkPacketDelivered node tag .clean) s =
      .next { s with lnw := { s.lnw with txs := s.lnw.txs.eraseP (·.tag = tag) } }) ∧
  (∀ (s : State) (node : Fin 16) (tag : BitVec 16), s.routerLost node = false → (s.lnw.txs.any (·.tag = tag)) = true →
    s.lnw.waiting = [] →
    exec (.lineworkPacketDelivered node tag .single) s =
      .next (State.bump .lnwCorr { s with lnw := { s.lnw with txs := s.lnw.txs.eraseP (·.tag = tag) } })) ∧
  (∀ (s : State) (node : Fin 16) (tag : BitVec 16), s.routerLost node = false → (s.lnw.txs.any (·.tag = tag)) = false →
    (s.lnw.held.any (·.tag = tag)) = true →
    exec (.lineworkPacketDelivered node tag .clean) s = .next (s.bump .lnwLateDiscard)) ∧
  (∀ (s : State) (node : Fin 16) (tag : BitVec 16), s.routerLost node = false →
    ∃ t, exec (.lineworkPacketDelivered node tag .double) s = .next t ∧ Only [.lnw, .counts] s t ∧
      t.lnw = { s.lnw with routers := s.lnw.routers.modify node fun r => { r with
        uncorrEdges := s.edge :: r.uncorrEdges.filter fun e => decide (s.edge < e + 160000) } }) ∧
  (∀ (s : State) (tag : BitVec 16) (x : LineworkTx),
    s.lnw.txs.find? (fun y => y.tag = tag && decide (y.issueEdge + 80000 ≤ s.edge)) = some x → s.job? x.job = none →
    s.lnw.waiting = [] →
    exec (.lineworkTimeout tag) s = .next (State.bump .lnwTimeouts { s with
      lnw := { s.lnw with
        txs := s.lnw.txs.filter (· != x), held := s.lnw.held ++ [{ tag := tag, edge := s.edge }] } })) ∧
  (∀ s : State, s.lnw.windowEdge + 256 ≤ s.edge → ∃ n, n ≤ 240 ∧
    exec .regulationWindow s = .next (State.bumpBy .lnwLowered n { s with
      fresh := s.fresh + 1
      lnw := { s.lnw with
        budgets := s.lnw.pending.foldl (fun acc b => putBudget b acc) s.lnw.budgets, pending := [], charged := []
        windowEdge := s.edge - s.edge % 256 } })) ∧
  (∀ (s : State) (m : Fin 32) (v : Word) (b : Budget), budgetMaster m = true →
    b = { part := s.regs.sel.toNat, master := m, min := BitVec.ofNat 12 (fld v 11 0), share := BitVec.ofNat 8 (fld v 23 16) } →
    overBudget (putBudget b (s.lnw.pending.foldl (fun acc x => putBudget x acc) s.lnw.budgets)) s.regs.sel.toNat m = false →
    exec (.lnwBudget m v) s = .next { s with lnw := { s.lnw with pending := putBudget b s.lnw.pending } }) ∧
  (∀ (s : State) (m : Fin 32) (v : Word) (b : Budget), budgetMaster m = true →
    b = { part := s.regs.sel.toNat, master := m, min := BitVec.ofNat 12 (fld v 11 0), share := BitVec.ofNat 8 (fld v 23 16) } →
    overBudget (putBudget b (s.lnw.pending.foldl (fun acc x => putBudget x acc) s.lnw.budgets)) s.regs.sel.toNat m = true →
    exec (.lnwBudget m v) s = .next (s.bump .lnwRejected)) ∧
  (∀ (s : State) (node : Fin 16) (r : Router), s.lnw.routers[node.val]? = some r → 4 ≤ r.uncorrEdges.length →
    r.lost = false → r.onShadow = false →
    exec (.routerLaneSwitch node) s = .next (State.bump .brnSpared (State.report 6 node 2 3 0x0031 none 0 0 { s with
      lnw := { s.lnw with routers := s.lnw.routers.set node { r with onShadow := true, uncorrEdges := [] } } }))) ∧
  (∀ (s : State) (node : Fin 16) (r : Router), s.lnw.routers[node.val]? = some r → 4 ≤ r.uncorrEdges.length →
    r.lost = false → r.onShadow = true →
    ∃ t, exec (.routerLaneSwitch node) s = .next t ∧ Only [.lnw, .brn] s t ∧
      t.lnw = { s.lnw with routers := s.lnw.routers.set node { r with lost := true, uncorrEdges := [] } })

/-! ## Sensing and planning -/

/-- Frames of a camera and of a network sensor (R306, R309 to R315): a frame start or fragment 0 opens a frame with its counter
and stamp; each good line, padded to the row pitch, or fragment in order adds its payload; a bad packet, a fragment out
of order or a wait of twice the period drops the frame; the first embedded line gives the sensor time; the frame end or
the last fragment makes the frame wait for its seal. -/
def Obligations.SensorFramesAreAssembled : Prop :=
  (∀ (s : State) (port : Fin 12) (vc : Fin 4) (counter : BitVec 16) (lanes rate n : Nat) (stamp : Int),
    s.csiStream port vc = some n → n < s.ing.streams.length → (s.stream n).open_ = none → frameUnits 0 ≤ s.t2Free →
    exec (.csiFrameStart port vc counter lanes rate stamp) s = .next { s with ing := { s.ing with
      ports := s.ing.ports.modify port fun _ => { lanes := lanes, rate := rate }
      streams := s.ing.streams.modify n fun x => { x with
        open_ := some { counter := counter.toNat, arrival := stamp - csiCorrection rate, lastEdge := s.edge }
        dead := none } } }) ∧
  (∀ (s : State) (port : Fin 12) (vc : Fin 4) (dt : BitVec 6) (data : List Byte) (n pitch : Nat) (f g : OpenFrame),
    s.csiStream port vc = some n → (s.stream n).open_ = some f → f.ended = false →
    dt.toNat = (s.streamEntry n).dataType → (0 < f.lines → data.length ≤ f.lineBytes) →
    pitch = ((if f.lines = 0 then data.length else f.lineBytes) + 15) / 16 * 16 →
    g = { f with
      payload := f.payload ++ data ++ List.replicate (pitch - data.length) 0
      raw := f.raw ++ data
      lines := f.lines + 1
      lineBytes := if f.lines = 0 then data.length else f.lineBytes
      lastEdge := s.edge } → s.HasRoom f g →
    exec (.csiLongPacket port vc dt true true false data) s = .next { s with ing := { s.ing with
      streams := s.ing.streams.modify n fun x => { x with open_ := some g } } }) ∧
  (∀ (s : State) (port : Fin 12) (vc : Fin 4) (dt : BitVec 6) (header crc : Bool) (data : List Byte) (n : Nat)
    (f : OpenFrame), s.csiStream port vc = some n → (s.stream n).open_ = some f → f.ended = false →
    header = false ∨ crc = false →
    ∃ t, exec (.csiLongPacket port vc dt header crc false data) s = .next t ∧ Only [.ing, .prf, .counts] s t ∧
      (t.stream n).open_ = none ∧ (t.stream n).gapNext = true ∧ (t.stream n).versions = (s.stream n).versions) ∧
  (∀ (s : State) (port : Fin 12) (vc : Fin 4) (data : List Byte) (n : Nat) (f : OpenFrame),
    s.csiStream port vc = some n → (s.stream n).open_ = some f → f.ended = false → f.sensorTime = none →
    8 ≤ data.length →
    exec (.csiEmbeddedData port vc data) s = .next { s with ing := { s.ing with
      streams := s.ing.streams.modify n fun x => { x with
        open_ := some { f with sensorTime := some (beNat (data.take 8)) } } } }) ∧
  (∀ (s : State) (port : Fin 12) (vc : Fin 4) (n : Nat) (f : OpenFrame), s.csiStream port vc = some n →
    (s.stream n).open_ = some f →
    exec (.csiFrameEnd port vc) s = .next { s with ing := { s.ing with
      streams := s.ing.streams.modify n fun x => { x with open_ := some { f with ended := true } } } }) ∧
  (∀ (s : State) (p : Port) (tsn : BitVec 12) (stamp : Int) (data : List Byte) (e : StreamEntry) (h : SensorHeader)
    (f g : OpenFrame), s.tsnStream tsn.toNat = some e → s.listens e p = true → sensorHeader data = some h →
    (s.stream e.id).open_ = some f → f.ended = false → f.counter = h.seq → f.nextFrag = h.frag →
    g = { f with
      payload := f.payload ++ h.payload
      raw := f.raw ++ h.payload
      lines := f.lines + 1
      nextFrag := f.nextFrag + 1
      lastEdge := s.edge
      ended := h.last } → s.HasRoom f g →
    ∃ t, exec (.sensorFragment p tsn stamp data) s = .next t ∧ Only [.ing, .eth] s t ∧
      t.stream e.id = { s.stream e.id with open_ := some g }) ∧
  (∀ (s : State) (p : Port) (tsn : BitVec 12) (stamp : Int) (data : List Byte) (e : StreamEntry) (h : SensorHeader)
    (f g : OpenFrame), s.tsnStream tsn.toNat = some e → s.listens e p = true → sensorHeader data = some h →
    (s.stream e.id).open_ = none → e.id < s.ing.streams.length → h.frag = 0 → frameUnits 0 ≤ s.t2Free →
    f = { counter := h.seq, arrival := s.rxStamp p stamp, sensorTime := some h.time, gptp := h.gptp, lastEdge := s.edge } →
    g = { f with
      payload := h.payload
      raw := h.payload
      lines := 1
      nextFrag := 1
      ended := h.last } →
    ∃ t, exec (.sensorFragment p tsn stamp data) s = .next t ∧
      t.stream e.id = { s.stream e.id with open_ := some g, dead := none }) ∧
  (∀ (s : State) (p : Port) (tsn : BitVec 12) (stamp : Int) (data : List Byte) (e : StreamEntry) (h : SensorHeader)
    (f : OpenFrame), s.tsnStream tsn.toNat = some e → s.listens e p = true → sensorHeader data = some h →
    (s.stream e.id).open_ = some f → f.ended = false → f.counter = h.seq → f.nextFrag ≠ h.frag →
    ∃ t, exec (.sensorFragment p tsn stamp data) s = .next t ∧
      (t.stream e.id).open_ = none ∧ (t.stream e.id).gapNext = true) ∧
  (∀ (s : State) (n : Fin 48) (f : OpenFrame), (s.stream n).open_ = some f → f.ended = false →
    (s.streamEntry n).ethernet = true → f.lastEdge + 2 * (s.streamEntry n).periodEdges ≤ s.edge →
    ∃ t, exec (.fragmentTimeout n) s = .next t ∧ (t.stream n).open_ = none ∧ (t.stream n).gapNext = true ∧
      (t.stream n).dead = some f.counter)

/-- The seal of a frame (R306, R316 to R320): a frame in sequence becomes a version with the index of the frames sealed
before it; a frame is a repeat when its counter or its signature is that of the frame before; a run of repeats
freezes the stream; a frame out of order is dropped; a stream without a seal for twice its period is stale until the next. -/
def Obligations.FramesAreSealedAndWatched : Prop :=
  (∀ (s : State) (n : Fin 48) (f : OpenFrame) (q : SeqCheck) (rep : Bool) (run : Nat), (s.stream n).open_ = some f →
    f.ended = true → q = seqCheck (s.streamEntry n).ethernet (s.stream n) f.counter → q.outOfOrder = false →
    rep = ((s.stream n).hasPrev && (q.same || crc64 f.raw = (s.stream n).lastSignature)) →
    run = (if rep then (s.stream n).repeatRun + 1 else 0) →
    ∃ t, exec (.frameSeal n) s = .next t ∧ Only [.ing, .prf, .counts, .fresh] s t ∧
      (t.stream n).state = .active ∧ (t.stream n).open_ = none ∧
      (t.stream n).framesSealed = (s.stream n).framesSealed + 1 ∧ (t.stream n).lastSealEdge = s.edge ∧
      (t.stream n).lastCounter = f.counter ∧ (t.stream n).lastSignature = crc64 f.raw ∧
      (t.stream n).repeatRun = run ∧
      (t.stream n).frozen = (rep && decide ((s.streamEntry n).frozenK ≤ run)) ∧
      ∃ v : LandedFrame, (t.stream n).versions = keepVersions ((s.stream n).versions ++ [v]) ∧
        v.index = (s.stream n).framesSealed.toNat ∧ v.counter = f.counter ∧ v.payload = f.payload ∧
        v.signature = crc64 f.raw ∧ v.arrival = f.arrival ∧ v.gap = ((s.stream n).gapNext || q.gap) ∧
        v.repeat_ = rep ∧ v.noTime = f.sensorTime.isNone ∧ v.sealEdge = s.edge) ∧
  (∀ (s : State) (n : Fin 48) (f : OpenFrame), (s.stream n).open_ = some f → f.ended = true →
    (seqCheck (s.streamEntry n).ethernet (s.stream n) f.counter).outOfOrder = true →
    exec (.frameSeal n) s = .next (State.bump (.ingDrops n) { s with ing := { s.ing with
      streams := s.ing.streams.modify n fun x => { x with open_ := none } } })) ∧
  (∀ (s : State) (n : Fin 48), (s.stream n).state = .active ∨ (s.stream n).state = .waiting →
    (s.stream n).lastSealEdge + 2 * (s.streamEntry n).periodEdges ≤ s.edge →
    exec (.streamStale n) s = .next { s with
      ing := { s.ing with streams := s.ing.streams.modify n fun x => { x with state := .stale } }
      prf := { s.prf with streams := s.prf.streams.modify n fun x => { x with stale := true } } })

/-- The Tracing unit (R327, R329, R330, R332 to R334, R337): it is held by one job; a list in time is applied to the track table
that the holder sees and answered with what it associated and bore; a late list changes no track; another job waits, and
the waiting job of the earliest deadline takes the free unit; a coasting track ends in its time; a good inertial frame
propagates the ego filter, a wheel frame is a measurement, the pose is published and latched, 50 ms without an inertial
frame makes the filter invalid; a second's refinement corrects a sensor within bounds and needs 32 residuals. -/
def Obligations.TheTracingUnitFusesAndMoves : Prop :=
  (∀ (s : State) (job : Word) (slot : Fin 32) (j : Job) (i : InFlight) (f : FusionRec) (k : Nat) (time : Int)
    (ds : List Detection) (r : ListResult), s.Issued job slot 0x10 (fun _ => true) j i →
    s.trc.holder = job ∨ s.trc.holder = 0 ∧ s.trc.queue = [] → s.otl.running.fusion = some f →
    firstIdx f.entries.length (fun k => (f.entries.getD k {}).stream = i.desc.param0) = some k →
    parseList (j.bytes slot i.desc.aObj) i.desc.aOff s.now = some (time, ds) →
    j.readFault i.desc.aObj i.desc.aOff (listBytes (j.bytes slot i.desc.aObj) i.desc.aOff) = none → i.desc.cObj = 0 →
    r = (if s.lateList i.desc.param0 time then { table := s.trc.seen }
      else (s.listView f k time).apply (s.ignored k) ds s.trc.seen) →
    ∃ t, exec (.fuse job slot) s = .next t ∧ Only [.trc, .jobs, .counts] s t ∧
      t.trc = { s.trc with
        holder := job
        shadow := some r.table
        tableFull := s.trc.tableFull || decide (0 < r.refused) } ∧
      t.Acted job slot i stOk (wd (r.associated + 65536 * r.born))) ∧
  (∀ (s : State) (job : Word) (slot : Fin 32) (j : Job) (i : InFlight), s.Issued job slot 0x10 (fun _ => true) j i →
    s.trc.holder ≠ job → s.trc.holder ≠ 0 ∨ s.trc.queue ≠ [] →
    ∃ t, exec (.fuse job slot) s = .next t ∧ t.Waits job slot i i.work.tiles ∧
      t.trc = { s.trc with queue := s.trc.queue ++ [(job, slot.val)] }) ∧
  (∀ (s : State) (e : Word × Nat) (l : List (Word × Nat)), s.trc.holder = 0 →
    s.trc.queue.foldl (fun acc e => insertBy s.marginBefore e acc) [] = e :: l →
    ∃ t, exec .tracingQueueStart s = .next t ∧ Only [.trc, .jobs] s t ∧
      t.trc = { s.trc with
        holder := e.1
        queue := s.trc.queue.filter (· != e) }) ∧
  (∀ (s : State) (track : BitVec 16) (f : FusionRec) (coast : Nat), s.otl.running.fusion = some f →
    coast = fld ((s.sensor f 0).header.getD 3 0) 31 16 →
    ∃ t, exec (.trackCoastExpire track) s = .next t ∧ Only [.trc] s t ∧
      t.trc.table.tracks = s.trc.table.tracks.filter fun x => !(x.id = track && x.state = .coasting &&
        decide (x.lastAssoc + (coast : Int) * 1000000 * unitsNs ≤ s.now))) ∧
  (∀ (s : State) (x : EgoSample) (time : Int) (f : FusionRec), s.egoOn = some f → x.values.length = 6 →
    s.egoFrame f.inertialStream x time = true →
    exec (.egoPropagate x time) s = .next { s with trc := { s.trc with ego := { s.trc.ego with
      state := Config.egoPropagate s.trc.ego.state x.values (time - s.trc.ego.time)
      time := time, valid := true, lastInertial := s.edge } } }) ∧
  (∀ (s : State) (x : EgoSample) (time : Int) (f : FusionRec), s.egoOn = some f → x.values.length = 3 →
    s.egoFrame f.wheelStream x time = true →
    exec (.egoMeasure x time) s = .next { s with trc := { s.trc with
      ego := { s.trc.ego with state := Config.egoMeasure s.trc.ego.state x.values } } }) ∧
  (∀ (s : State) (f : FusionRec), s.egoOn = some f → s.trc.ego.published ≠ s.egoInstant f →
    exec .egoPublish s = .next { s with trc := { s.trc with
      ego := { s.trc.ego with published := s.egoInstant f }
      pose := [(compactOf s.now).w0, (compactOf s.now).w1] ++ (s.trc.ego.pose ++ List.replicate 7 0).take 7 } }) ∧
  (∀ s : State, s.trc.ego.lastInertial + 50 * edgesMs ≤ s.edge →
    exec .egoTimeout s = .next { s with trc := { s.trc with ego := { s.trc.ego with valid := false } } }) ∧
  (∀ (s : State) (v : Word), bit v 0 = true →
    exec (.trcEgoCapture v) s = .next { s with trc := { s.trc with egoCap := s.trc.pose } }) ∧
  (∀ (s : State) (k : Fin 48) (c : Calibration), s.trcOn = true → s.trc.cal[k.val]? = some c →
    c.refineEdge + edgesSec ≤ s.edge → c.residuals < 32 →
    ∃ t, exec (.calibrationRefine k) s = .next t ∧ Only [.trc, .fresh, .counts] s t ∧
      t.trc = { s.trc with cal := s.trc.cal.set k { c with
        history := c.history <<< 1
        residuals := 0
        refineEdge := s.edge } }) ∧
  (∀ (s : State) (k : Fin 48) (c : Calibration), s.trcOn = true → s.trc.cal[k.val]? = some c →
    c.refineEdge + edgesSec ≤ s.edge → 32 ≤ c.residuals →
    ∃ t solved, exec (.calibrationRefine k) s = .next t ∧ Only [.trc, .fresh, .counts] s t ∧ solved.length = 6 ∧
      t.trc = { s.trc with cal := s.trc.cal.set k { c with
        correction := (calApply c.correction solved).1
        limit := (calApply c.correction solved).2.2
        history := (c.history <<< 1) |||
          (if (calApply c.correction solved).2.1 || (calApply c.correction solved).2.2 then 1 else 0)
        residuals := 0
        refineEdge := s.edge } } ∧
      ∀ n, n < 6 → f32IsNan ((calApply c.correction solved).1.getD n 0) = true ∨
        f32Key (fAbs ((calApply c.correction solved).1.getD n 0)) ≤ f32Key (calTotal n)) ∧
  (∀ (s : State) (k : Fin 48) (c : Calibration) (e : Nat) (box : List Word), s.trc.cal[k.val]? = some c →
    c.demotions = [(e, box)] → e ≤ s.edge →
    exec (.demotionExpire k) s = .next { s with trc := { s.trc with
      cal := s.trc.cal.set k { c with demotions := [] } } })

/-- The planner (R343 to R347, R350, R352, R356): a good PLANQ joins the queue of its kind and waits; the idle planner starts the
query of the earliest deadline on the current generation; a plan read is answered with the length of its path, a search
with that of the path it found, a search beyond its budget with TIMEOUT, a repair beyond its bound with REPAIR_FAILED; a
planner fault is recorded and ends a job without a restart left; a PUBLISH copies its map to the buffer that is not
current, once no query is bound to it. -/
def Obligations.PlannerQueriesAndMapsAreServed : Prop :=
  (∀ (kind : QueryKind) (c : Instr) (s : State) (job : Word) (slot : Fin 32) (j : Job) (i : InFlight) (ws : List Word)
    (q : Query), (kind, c) ∈ [(QueryKind.search, Instr.planqSearch job slot), (.revalidate, .planqRevalidate job slot),
      (.readPlan, .planqReadPlan job slot), (.publish, .planqPublish job slot)] →
    s.Issued job slot 0x0F (fun d => fld ((j.queryWords slot d).getD 0 0) 1 0 = kind.code) j i →
    s.queryFail j slot i.desc = none → ws = j.queryWords slot i.desc →
    q = {
      job := job, slot := slot, kind := kind, plan := fld (ws.getD 0 0) 7 4, install := bit (ws.getD 0 0) 8
      words := ws } →
    ∃ t, exec c s = .next t ∧ Only [.xh, .jobs] s t ∧ t.Waits job slot i i.work.tiles ∧
      t.xh = (if kind = .publish then { s.xh with publishQueue := s.xh.publishQueue ++ [q] }
        else { s.xh with queue := s.xh.queue ++ [q] })) ∧
  (∀ (s : State) (q : Query) (l : List Query), s.xh.run = none → s.xh.retired = false →
    s.xh.queue.foldl (fun acc q => insertBy (fun a b : Query => s.marginBefore (a.job, a.slot) (b.job, b.slot)) q acc) [] =
      q :: l → q.kind = .search ∨ q.kind = .revalidate ∧ (s.planOf q.plan).path ≠ [] →
    exec .plannerQueryStart s = .next { s with xh := { s.xh with
      queue := s.xh.queue.filter (· != q)
      run := some { q with genBound := s.xh.gen, planSeq := (s.planOf q.plan).seq.toNat, startEdge := s.edge } } }) ∧
  (∀ (s : State) (q : Query) (l : List Query) (j : Job) (i : InFlight), s.xh.run = none → s.xh.retired = false →
    s.xh.queue.foldl (fun acc q => insertBy (fun a b : Query => s.marginBefore (a.job, a.slot) (b.job, b.slot)) q acc) [] =
      q :: l → q.kind = .readPlan → s.job? q.job = some j → j.planFlight q.slot = some i →
    ∃ t x y, exec .plannerQueryStart s = .next t ∧ t.xh = { s.xh with queue := s.xh.queue.filter (· != q) } ∧
      t.job? q.job = some x ∧ y ∈ (x.slots.getD q.slot {}).inFlight ∧ y.index = i.index ∧ y.stage = .acted ∧
      y.result = wd (65536 * (s.planOf q.plan).path.length)) ∧
  (∀ (s : State) (q : Query) (j : Job) (i : InFlight), s.xh.run = some q → q.kind = .search → q.repairStart = none →
    q.budgetOver s.edge = true → q.genBound = s.xh.gen → s.job? q.job = some j → j.planFlight q.slot = some i →
    ∃ t x y n, exec .searchBudgetExpire s = .next t ∧ t.xh = { s.xh with run := none } ∧ t.job? q.job = some x ∧
      y ∈ (x.slots.getD q.slot {}).inFlight ∧ y.index = i.index ∧ y.stage = .acted ∧
      y.result = wd n ∧ n % 8 = xTimeout ∧ n / 256 % 2 = 1) ∧
  (∀ (s : State) (q : Query) (j : Job) (i : InFlight), s.xh.run = some q → q.repairOver s.edge = true →
    s.job? q.job = some j → j.planFlight q.slot = some i →
    ∃ t x y n, exec .repairBudgetExpire s = .next t ∧ t.xh = { s.xh with run := none } ∧ t.job? q.job = some x ∧
      y ∈ (x.slots.getD q.slot {}).inFlight ∧ y.index = i.index ∧ y.stage = .acted ∧
      y.result = wd n ∧ n % 8 = xRepairFailed) ∧
  (∀ (s : State) (q : Query) (j : Job) (i : InFlight) (r : SearchState) (n : Nat), s.xh.run = some q → q.kind = .search →
    q.repairStart = none → q.budgetOver s.edge = false →
    r = (s.searchIn q q.genBound).search (latState (q.w 1)) none → r.found = some n → q.genBound = s.xh.gen →
    (trace r.nodes r.nodes.length n).length ≤ ((s.otl.running.lattice.map (·.maxPlan)).getD 0) →
    s.job? q.job = some j → j.planFlight q.slot = some i →
    ∃ t x y, exec .searchEnd s = .next t ∧ t.xh = { s.xh with run := none } ∧ t.job? q.job = some x ∧
      y ∈ (x.slots.getD q.slot {}).inFlight ∧ y.index = i.index ∧ y.stage = .acted ∧
      y.result = wd ((if r.truncated then xTruncated else 0) + 65536 * (trace r.nodes r.nodes.length n).length)) ∧
  (∀ (s : State) (q : Query) (j : Job), s.xh.run = some q → s.job? q.job = some j → j.state = .running →
    j.budget ≤ j.attempt →
    ∃ t r, exec .plannerFault s = .next t ∧ r ∈ t.brn.inbox ∧ r.kind = 0x0D ∧ r.code = 5 ∧ r.job = q.job ∧
      t.jobs.list.map (·.id) = (s.jobs.list.map (·.id)).filter (· != q.job)) ∧
  (∀ (s : State) (q : Query) (l : List Query), s.xh.publish = none → s.xh.retired = false →
    (s.xh.run.any fun x => (s.xh.buffer (1 - s.xh.current)).valid && x.genBound = (s.xh.buffer (1 - s.xh.current)).gen) =
      false → s.byDeadline s.xh.publishQueue = q :: l →
    exec .publishCopyStart s = .next { s with xh := { s.xh with
      publishQueue := l
      publish := some ({ q with startEdge := s.edge }, true)
      buffers := s.xh.buffers.modify (1 - s.xh.current) fun b => { b with valid := false } } }) ∧
  (∀ (s : State) (x : Query), s.xh.run = some x → (s.xh.buffer (1 - s.xh.current)).valid = true →
    x.genBound = (s.xh.buffer (1 - s.xh.current)).gen → exec .publishCopyStart s = .next s) ∧
  (∀ (s : State) (q : Query) (j : Job) (n : Nat), s.xh.publish = some (q, true) → s.job? q.job = some j →
    n = ((s.otl.running.lattice).map (·.mapBytes)).getD 0 →
    ∃ t x, exec .publishCopyDone s = .next t ∧
      t.xh = { s.xh with
        publish := some (q, false)
        buffers := s.xh.buffers.set (1 - s.xh.current) {
          gen := nextGen s.xh.gen, valid := false, data := Memory.truncate (j.bytes q.slot (q.w 1)) n } } ∧
      t.job? q.job = some x ∧ x.journal.published = true)

/-- R341: voxel z is bit z mod 8 of byte floor(z / 8) of column (x, y), which starts at byte 16 × (y × MAP_X + x), and 1 means
occupied; bits at and above MAP_Z are ignored; a voxel outside the map is occupied; a full map is 16 MiB. -/
def Obligations.VoxelsAreWhereTheMapPutsThem : Prop :=
  (∀ (r : LatticeRec) (m : Memory) (x y z : Nat), x < r.mapX → y < r.mapY → z < r.mapZ →
    occupied r (some m) x y z = (Memory.read m (16 * (y * r.mapX + x) + z / 8)).getLsbD (z % 8)) ∧
  (∀ (r : LatticeRec) (m : Option Memory) (x y : Int) (z : Nat),
    x < 0 ∨ (r.mapX : Int) ≤ x ∨ y < 0 ∨ (r.mapY : Int) ≤ y ∨ r.mapZ ≤ z → occupied r m x y z = true) ∧
  (∀ (r : LatticeRec) (m : Memory) (x y : Int) (z a : Nat) (b : Byte), Memory.wf m = true → 0 ≤ x → 0 ≤ y →
    x < r.mapX → y < r.mapY → a = 16 * (y.toNat * r.mapX + x.toNat) + r.mapZ / 8 →
    (∀ k, k < r.mapZ % 8 → b.getLsbD k = (Memory.read m a).getLsbD k) →
    occupied r (some (Memory.write m a b)) x y z = occupied r (some m) x y z) ∧
  (∀ r : LatticeRec, r.mapX = 1024 → r.mapY = 1024 → r.mapBytes = 16 * 1048576)

/-! ## Control -/

/-- The guard and engine-done instants of a group (R366 to R369, R372): once for each firing, 800 ticks before it, every channel
latches its halfword of the newest frame, or misses its sample, the third miss in a row being a channel fault; what an
engine computed becomes the state and the output of its channels, unless its residue codes mismatch: then both are
discarded and the engine is retired. -/
def Obligations.GuardsLatchAndEnginesDeliver : Prop :=
  (∀ (s : State) (g : Fin 16) (k : Nat) (o : Outline), s.nextStylus g.val = some k → k ≤ tickOf s.now + 800 →
    (s.styGroup g).guardTick ≠ some k → s.stylusOn = true → o = s.outlineAt k → g.val < s.sty.groups.length →
    ((o.sortedGroup g.val).map (·.channel)).Nodup → (∀ c ∈ o.sortedGroup g.val, c.channel < s.sty.channels.length) →
    ∃ t, exec (.stylusGuard g) s = .next t ∧ Only [.sty, .brn, .counts] s t ∧ (t.styGroup g).guardTick = some k ∧
      ∀ c ∈ o.sortedGroup g.val,
        (∀ v i, s.FreshSample o g c v i →
          (t.styChannel c.channel).sample = BitVec.ofNat 16 (beNat ((v.payload.drop (2 * i)).take 2)) ∧
          (t.styChannel c.channel).fresh = true ∧ (t.styChannel c.channel).missed = false ∧
          (t.styChannel c.channel).missRun = 0) ∧
        ((∀ v i, ¬ s.FreshSample o g c v i) →
          (t.styChannel c.channel).missed = true ∧
          (t.styChannel c.channel).missRun = (s.styChannel c.channel).missRun + 1 ∧
          ((s.styChannel c.channel).missRun = 2 → (t.styChannel c.channel).run = .fault))) ∧
  (∀ (s : State) (g : Fin 16) (fault : BitVec 5), (s.styGroup g).firing = true → (s.styGroup g).delivered = false →
    (s.styGroup g).skipHold = false →
    (s.styGroup g).instant + (s.otl.running.doneTicks s.sty.lanes g : Int) * unitsEdge ≤ s.now → g.val < s.sty.groups.length →
    ((s.otl.running.sortedGroup g.val).map (·.channel)).Nodup →
    (∀ c ∈ s.otl.running.sortedGroup g.val, c.channel < s.sty.channels.length) →
    ∃ t, exec (.stylusEngineDone g fault) s = .next t ∧ (t.styGroup g).delivered = true ∧
      ∀ c ∈ s.otl.running.sortedGroup g.val, ∀ n x, s.engineOf c.channel = some n →
        (s.styChannel c.channel).shadow = some x →
        (fault.getLsbD n = false → (t.styChannel c.channel).law = x.1 ∧ (t.styChannel c.channel).computed = x.2 ∧
          (t.styChannel c.channel).ready = true ∧ (t.styChannel c.channel).shadow = none) ∧
        (fault.getLsbD n = true → (t.styChannel c.channel).law = (s.styChannel c.channel).law ∧
          (t.styChannel c.channel).computed = (s.styChannel c.channel).computed ∧
          (t.styChannel c.channel).ready = false ∧ (t.styChannel c.channel).shadow = none ∧
          (n < s.sty.engines.length → n < 5 → (t.sty.engines.getD n {}).state = .retired)))

/-- The form instant (R370, R371, R373): a firing of a group makes one frame for its stream, with the apply-at time, the
sequence number, and for each channel the output that passed, or the last one that did with HOLD; then the firing is over. -/
def Obligations.OutputFramesAreFormed : Prop :=
  ∀ (s : State) (g : Fin 16) (n : Nat) (cs : List ChanEntry) (p : Port) (opens apply : Int),
    (s.styGroup g).firing = true → cs = s.otl.running.sortedGroup g.val → cs ≠ [] → (∀ c ∈ cs, c.outStream = n) →
    (cs.map (·.channel)).Nodup → (∀ c ∈ cs, c.channel < s.sty.channels.length) → g.val < s.sty.groups.length →
    (s.otl.running.frer.find? (·.tsn = (s.streamEntry n).tsn)) = none → p = portOf (s.streamEntry n).port →
    portNum p < s.eth.ports.length →
    opens = (s.styGroup g).instant + (s.otl.running.groupPeriod g : Int) * unitsEdge → opens - 320 * unitsEdge ≤ s.now →
    apply = opens + (((cs.head?.map (·.applyLead)).getD 0 : Nat) : Int) * unitsEdge →
    ∃ t f, exec (.outputFrameForm g) s = .next t ∧ Only [.sty, .eth, .counts] s t ∧
      (t.styGroup g).firing = false ∧ (t.ethPort p).txq = (s.ethPort p).txq ++ [f] ∧
      f.bytes = ((s.eth.table.entry (s.streamEntry n).tsn).getD {}).template ++ ptpBytes apply ++
        natBytesBE 2 (s.styGroup g).seq.toNat ++ cs.flatMap (fun c => natBytesBE 4 (s.outputWord g c)) ∧
      f.window = some (opens, apply) ∧
      ∀ c ∈ cs, (t.styChannel c.channel).ready = false ∧ (t.styChannel c.channel).lastPassed =
        (if s.groupPasses g && (s.styChannel c.channel).ready then (s.styChannel c.channel).computed
          else (s.styChannel c.channel).lastPassed)

/-- A PID update (R361, R363, R364): the output stays within U_MIN and U_MAX and the integrator, unless it is held, within I_MIN
and I_MAX; a saturated output is at a bound; an anti-windup action zeroes the residue, and without one the integral and
its residue together take the exact sum. -/
def Obligations.PidOutputsStayInTheirBounds : Prop :=
  ∀ (c : List (BitVec 16)) (e : Int) (l : LawState) (r : LawStep), r = pidStep c e l →
    ((c.getD 7 0).toInt ≤ (c.getD 6 0).toInt →
      (c.getD 7 0).toInt ≤ r.out.toInt ∧ r.out.toInt ≤ (c.getD 6 0).toInt) ∧
    ((c.getD 5 0).toInt ≤ (c.getD 4 0).toInt →
      r.law.i = l.i ∨ (c.getD 5 0).toInt ≤ r.law.i.toInt ∧ r.law.i.toInt ≤ (c.getD 4 0).toInt) ∧
    (r.outSat = true → r.out = c.getD 6 0 ∨ r.out = c.getD 7 0) ∧
    (0 < r.iClamps → r.law.res = 0) ∧
    (r.iClamps = 0 →
      r.law.i.toInt * 65536 + r.law.res.toNat = l.i.toInt * 65536 + l.res.toNat + (c.getD 1 0).toInt * e * 2) ∧
    r.law.ePrev = toQ15 e ∧ r.law.hist = l.hist

/-- R362: the error of a channel is the saturated difference of its reference and its sample, and both laws act on it. -/
def Obligations.LawsActOnTheSaturatedError : Prop :=
  (∀ ref x : BitVec 16, (ref.toInt - x.toInt < -32768 → lawError ref x = -32768) ∧
    (32767 < ref.toInt - x.toInt → lawError ref x = 32767) ∧
    (-32768 ≤ ref.toInt - x.toInt → ref.toInt - x.toInt ≤ 32767 → lawError ref x = ref.toInt - x.toInt)) ∧
  (∀ (c : ChanEntry) (y : StyChannel), y.kick = false → c.cascade = true →
    c.update y = cascadeStep c.coeff c.sections (lawError y.ref y.sample) y.law) ∧
  (∀ (c : ChanEntry) (y : StyChannel), y.kick = false → c.cascade = false →
    c.update y = pidStep c.coeff (lawError y.ref y.sample) y.law) ∧
  (∀ (c : ChanEntry) (x y : StyChannel), lawError x.ref x.sample = lawError y.ref y.sample → x.law = y.law →
    x.kick = y.kick → c.update x = c.update y)

/-! ## The ring and the host -/

/-- Gates, queues and transmission (R64, R377, R382, R383): the list advances by its intervals and wraps; the oldest frame of
the highest class that may start leaves, and counts; an apply-at frame whose window closes, and a frame that waits at a
down link, are dropped. -/
def Obligations.FramesAreQueuedGatedAndSent : Prop :=
  (∀ (s : State) (p : Port) (f : TxFrame), portNum p < s.eth.ports.length →
    ((s.queueFrame p f).ethPort p).txq =
      (s.ethPort p).txq ++ [{ f with id := s.eth.nextFrame, queuedEdge := s.edge }]) ∧
  (∀ (s : State) (p : Port) (g : TsnGateRec), s.gateRec p = some g → g.entries ≠ [] → portNum p < s.eth.ports.length →
    (s.ethPort p).gateEdge + (g.entries.getD (s.ethPort p).gateIndex {}).interval ≤ s.edge →
    ∃ t, exec (.gateListAdvance p) s = .next t ∧ Only [.eth] s t ∧
      (t.ethPort p).gateIndex = ((s.ethPort p).gateIndex + 1) % g.entries.length ∧
      (t.ethPort p).gateEdge = (s.ethPort p).gateEdge + (g.entries.getD (s.ethPort p).gateIndex {}).interval ∧
      (t.ethPort p).txq = (s.ethPort p).txq) ∧
  (∀ (s : State) (p : Port) (c : Nat) (f : TxFrame), (s.ethPort p).link = true → c ≤ 7 →
    (s.ethPort p).txq.find? (·.tc = c) = some f → (s.accrue p).mayStart p f = true →
    (∀ d f', c < d → d ≤ 7 → (s.ethPort p).txq.find? (·.tc = d) = some f' → (s.accrue p).mayStart p f' = false) →
    ∃ t more, exec (.frameTransmit p) s = .next t ∧ Only [.tb, .fresh, .counts, .eth] s t ∧
      (t.ethPort p).txq = (s.ethPort p).txq.filter (·.id != f.id) ++ more ∧ more.length ≤ 1 ∧
      (f.stampUse = .none_ → more = []) ∧
      (t.ethPort p).txStamp = s.now + (Config.egressDelay s.fresh : Int) + txCorrection (s.ethPort p).speed ∧
      (t.ethPort p).busyUntil = max s.edge (s.ethPort p).busyUntil +
        wireTicks (s.ethPort p).speed (wireBits f.bytes.length) ∧
      t.counts = (s.bump (.ethTxFrames p)).counts) ∧
  (∀ (s : State) (p : Port) (n : Nat) (f : TxFrame), (s.ethPort p).txq.find? (·.id = n) = some f →
    s.windowClosed p f = true → f.window.isSome = true →
    ∃ t, exec (.gateWindowClose p n) s = .next t ∧ Only [.eth, .counts] s t ∧
      (t.ethPort p).txq = (s.ethPort p).txq.filter (·.id != n) ∧ t.counts = (s.bump .ethGateMiss).counts) ∧
  (∀ (s : State) (p : Port) (n : Nat) (f : TxFrame), (s.ethPort p).txq.find? (·.id = n) = some f →
    s.windowClosed p f = true → f.window = none → (s.ethPort p).link = false →
    ∃ t, exec (.gateWindowClose p n) s = .next t ∧ Only [.eth] s t ∧
      (t.ethPort p).txq = (s.ethPort p).txq.filter (·.id != n)) ∧
  (∀ (s : State) (p : Port), (s.ethPort p).link = false →
    ∃ t, exec (.downLinkDiscard p) s = .next t ∧ Only [.eth] s t ∧
      (t.ethPort p).txq = (s.ethPort p).txq.filter fun f =>
        f.window.isSome || s.windows p f.tc || decide (s.edge < f.queuedEdge + 160000))

/-- Reception (R382 to R386, R403): a frame on a link that is up is counted; a bad tag, a full share of the buffer, an oversize
or a nonconforming frame is dropped and counted; a ring frame to forward leaves by the other ring port; a stream's frame
joins the receive buffer, once of its copies; 100 ms without a copy restart the elimination. -/
def Obligations.FramesAreReceivedPolicedAndForwarded : Prop :=
  (∀ (s : State) (p : Port) (f : Frame) (stamp : Int), (s.ethPort p).link = true → s.macsecOn p = true →
    clearType f.etherType.toNat = false → f.macsec ≠ .valid →
    exec (.frameReceive p f stamp) s = .next ((s.arrived p stamp).bump (.ethMacsecDrop p))) ∧
  (∀ (s : State) (p : Port) (f : Frame) (stamp : Int), (s.ethPort p).link = true → s.macsecOn p = false →
    f.macsec = .clear → rxShare p (frameCls f) < (s.ethPort p).rxUsed (frameCls f) + frameSize f →
    s.takesSlot p f = false →
    exec (.frameReceive p f stamp) s = .next ((s.arrived p stamp).bump (.ethRxDrop p))) ∧
  (∀ (s : State) (p : Port) (f : Frame) (stamp : Int) (b : List Byte), (s.ethPort p).link = true →
    s.macsecOn p = false → f.macsec = .clear → s.takesSlot p f = true → s.limianPayload f = some b →
    exec (.frameReceive p f stamp) s = .next ((s.arrived p stamp).rxLimian p b)) ∧
  (∀ (s : State) (p : Port) (f : Frame) (stamp : Int) (e : Nat × NetEntry), (s.ethPort p).link = true →
    s.macsecOn p = false → f.macsec = .clear →
    (s.ethPort p).rxUsed (frameCls f) + frameSize f ≤ rxShare p (frameCls f) → s.eth.table.identify f = some e →
    e.2.maxSdu ≠ 0 → e.2.maxSdu < f.payload.length + 6 * toBit f.rtag.isSome →
    exec (.frameReceive p f stamp) s = .next ((s.arrived p stamp).bump (.ethPsfpDrop p))) ∧
  (∀ (s : State) (f : Frame) (stamp : Int) (e : Nat × NetEntry), (s.ethPort .ringA).link = true → f.macsec = .clear →
    (s.ethPort .ringA).rxUsed (frameCls f) + frameSize f ≤ rxShare .ringA (frameCls f) →
    s.eth.table.identify f = some e → e.2.maxSdu = 0 → e.2.cir = 0 → e.2.fwd = true →
    (∀ q, f.src ≠ macOf q) → s.tsnStream e.1 = none → 1 < s.eth.ports.length →
    ∃ t x, exec (.frameReceive .ringA f stamp) s = .next t ∧ Only [.eth, .counts] s t ∧
      (t.ethPort .ringB).txq = (s.ethPort .ringB).txq ++ [x] ∧ x.bytes = frameBytes f ∧ x.tc = frameCls f ∧
      t.counts = (s.bump (.ethRxFrames .ringA)).counts) ∧
  (∀ (s : State) (p : Port) (f : Frame) (stamp : Int) (e : Nat × NetEntry) (x : StreamEntry),
    (s.ethPort p).link = true → s.macsecOn p = false → f.macsec = .clear →
    (s.ethPort p).rxUsed (frameCls f) + frameSize f ≤ rxShare p (frameCls f) → s.eth.table.identify f = some e →
    e.2.maxSdu = 0 → e.2.cir = 0 → e.2.fwd = false → s.tsnStream e.1 = some x →
    s.otl.running.frer.find? (·.tsn = e.1) = none → s.listens x p = true →
    exec (.frameReceive p f stamp) s = .next ((s.arrived p stamp).updPort p fun y => { y with
      rxq := y.rxq ++ [{ tc := frameCls f, tsn := some e.1, bytes := frameSize f, stamp := y.rxStamp }] })) ∧
  (∀ (s : State) (p : Port) (f : Frame) (stamp : Int) (e : Nat × NetEntry) (x : StreamEntry) (r : FrerEntry)
    (q : BitVec 16), (s.ethPort p).link = true → s.macsecOn p = false → f.macsec = .clear →
    (s.ethPort p).rxUsed (frameCls f) + frameSize f ≤ rxShare p (frameCls f) → s.eth.table.identify f = some e →
    e.2.maxSdu = 0 → e.2.cir = 0 → e.2.fwd = false → s.tsnStream e.1 = some x →
    s.otl.running.frer.find? (·.tsn = e.1) = some r → f.rtag = some q → r.ports.getLsbD (portNum p) = true →
    (s.frerOf e.1).last = some q → (s.frerOf e.1).seen.getLsbD 0 = true → 0 < r.history →
    ∃ t, exec (.frameReceive p f stamp) s = .next t ∧ Only [.eth, .counts] s t ∧ t.eth.ports = (s.arrived p stamp).eth.ports ∧
      t.counts = ((s.bump (.ethRxFrames p)).bump (.ethFrerDup p)).counts) ∧
  (∀ (s : State) (tsn : BitVec 12), (s.frerOf tsn.toNat).last.isSome = true →
    (s.frerOf tsn.toNat).lastEdge + 100 * edgesMs ≤ s.edge →
    ∃ t, exec (.frerRecoveryReset tsn) s = .next t ∧ Only [.eth] s t ∧
      (t.frerOf tsn.toNat).last = none ∧ (t.frerOf tsn.toNat).seen = 0)

/-- Links and neighbours (R377, R382, R383, R387, R388, R394): a link comes up at the negotiated speed with its gate list at
entry 0, and goes down with its by-standing state; LLDP and ARP frames go out; a partner is entered, refreshed and
removed, and one that finds no place is counted. -/
def Obligations.LinksAndNeighboursComeAndGo : Prop :=
  (∀ (s : State) (p : Port) (speed : Fin 3) (master verified : Bool), (s.netPort p).enable = true →
    (s.ethPort p).link = false → speed.val ≤ (s.netPort p).speedMax → (isRing p = true → s.eth.bypass = .open_) →
    portNum p < s.eth.ports.length →
    ∃ t, exec (.linkUp p speed master verified) s = .next t ∧ (t.ethPort p).link = true ∧
      (t.ethPort p).speed = speed.val ∧ (t.ethPort p).phyMaster = master ∧ (t.ethPort p).gateIndex = 0 ∧
      (t.ethPort p).gateEdge = s.edge) ∧
  (∀ (s : State) (p : Port), (s.ethPort p).link = true →
    ∃ t, exec (.linkDown p) s = .next t ∧ (t.ethPort p).link = false ∧ (t.ethPort p).macsecUp = false ∧
      (t.ethPort p).preemptVerified = false ∧ t.counts = (s.bump (.ethLinkDown p)).counts) ∧
  (∀ (s : State) (p : Port), (s.ethPort p).link = true → (s.ethPort p).preemptVerified = false →
    s.eth.table.express.getD (portNum p) 0 ≠ 0 → (s.ethPort p).verifyTries < 3 →
    (s.ethPort p).verifyEdge + 10 * edgesMs ≤ s.edge →
    exec (.preemptionVerifyTimeout p) s = .next { s with eth := { s.eth with
      ports := s.eth.ports.modify (portNum p) fun x => { x with
        verifyTries := x.verifyTries + 1
        verifyEdge := s.edge } } }) ∧
  (∀ (s : State) (p : Port), (s.netPort p).enable = true → (s.ethPort p).link = true →
    (s.ethPort p).lldpEdge + edgesSec ≤ s.edge → isRing p = false ∨ s.eth.table.ringLldp = 0 →
    exec (.lldpTransmit p) s = .next ((s.queueFrame p {
      tc := 6
      bytes := natBytesBE 6 0x0180C200000E ++ natBytesBE 6 (macOf p).toNat ++ natBytesBE 2 0x88CC ++
        tlv 1 (natBytesBE 1 4 ++ natBytesBE 6 (macOf .uplink).toNat) ++
        tlv 2 (natBytesBE 1 7 ++ natBytesBE 1 (portNum p)) ++ tlv 3 (natBytesBE 2 4) ++ s.announceTlv ++ tlv 0 [] }).updPort p fun x => { x with
          lldpEdge := s.edge })) ∧
  (∀ (s : State) (p : Port) (chassis : BitVec 48) (ttl : BitVec 16) (k : Nat), (s.ethPort p).link = true → ttl ≠ 0 →
    (s.eth.partners.any fun x => x.any (·.chassis = chassis)) = false → s.eth.partners.findIdx? (·.isNone) = some k →
    exec (.lldpReceive p true chassis ttl) s = .next { s with eth := { s.eth with
      partners := s.eth.partners.set k (some {
        chassis := chassis
        expiry := ([0, 0, 0, 0] : List Nat).set (portNum p) (s.edge + ttl.toNat * 160000000) }) } }) ∧
  (∀ (s : State) (p : Port) (chassis : BitVec 48) (ttl : BitVec 16), (s.ethPort p).link = true → ttl ≠ 0 →
    (s.eth.partners.any fun x => x.any (·.chassis = chassis)) = false → s.eth.partners.findIdx? (·.isNone) = none →
    exec (.lldpReceive p true chassis ttl) s = .next (s.bump .ethPartnerFull)) ∧
  (∀ (s : State) (p : Port) (chassis : BitVec 48), (s.ethPort p).link = true →
    exec (.lldpReceive p true chassis 0) s = .next { s with eth := { s.eth with
      partners := s.eth.partners.map fun x => if x.any (·.chassis = chassis) then none else x } }) ∧
  (∀ (s : State) (n : Fin 64) (y : Partner), s.eth.partners[n.val]? = some (some y) → (∀ e ∈ y.expiry, e ≤ s.edge) →
    exec (.partnerExpire n) s = .next { s with eth := { s.eth with partners := s.eth.partners.set n none } }) ∧
  (∀ (s : State) (p : Port) (asker : BitVec 48) (askerIp : Word), isRing p = false → (s.ethPort p).link = true →
    s.regs.ipAddr ≠ 0 →
    exec (.arpRequest p s.regs.ipAddr asker askerIp) s = .next (s.queueFrame p {
      tc := 0
      bytes := natBytesBE 6 asker.toNat ++ natBytesBE 6 (macOf p).toNat ++ natBytesBE 2 0x0806 ++
        natBytesBE 2 1 ++ natBytesBE 2 0x0800 ++ natBytesBE 1 6 ++ natBytesBE 1 4 ++ natBytesBE 2 2 ++
        natBytesBE 6 (macOf p).toNat ++ natBytesBE 4 s.regs.ipAddr.toNat ++
        natBytesBE 6 asker.toNat ++ natBytesBE 4 askerIp.toNat }))

/-- The optical by-pass (R389, R391 to R393): once its conditions hold an opening instant is chosen, announced, and at it the
switches open; a ring that is not up 2 s later closes them again, the third time for good; a closing instant closes
them; CLOSE_REQ chooses one and RETRY clears the attempts. -/
def Obligations.TheByPassOpensAndCloses : Prop :=
  (∀ s : State, s.eth.bypass = .closed → s.eth.noReopen = false → s.eth.attempts.toNat < 3 → s.eth.retryEdge ≤ s.edge →
    s.tb.everLocked = true → s.outlineRuns = true → s.ringEnabled = true →
    ∃ t, exec .bypassArm s = .next t ∧ Only [.eth] s t ∧ t.eth.bypass = .armed ∧
      t.eth.instant = some (s.leadInstant, true) ∧ t.eth.bypassTime = compactOf s.leadInstant ∧
      t.eth.announceEdge = s.edge ∧
      s.now + (s.regs.lead.toNat : Int) * unitsSec ≤ s.leadInstant ∧ s.leadInstant.fmod unitsSec = 0) ∧
  (∀ s : State, s.bypassPending = true →
    ∃ t, exec .bypassAnnounce s = .next t ∧ Only [.eth] s t ∧ t.eth.announceEdge = s.edge ∧ t.eth.instant = s.eth.instant) ∧
  (∀ (s : State) (o : Int), s.eth.instant = some (o, true) → s.eth.bypass = .armed → o ≤ s.now →
    exec .bypassOpen s = .next { s with eth := { s.eth with
      bypass := .open_
      opening := true } }) ∧
  (∀ (s : State) (o : Int) (d : Bool), s.eth.instant = some (o, d) → s.eth.bypass = .open_ → s.eth.opening = true →
    o + 2 * unitsSec ≤ s.now →
    ∃ t, exec .bypassOpenFail s = .next t ∧
      t.eth.bypass = (if 3 ≤ s.eth.attempts.toNat + 1 then .failed else .closed) ∧
      t.eth.attempts.toNat = min 3 (s.eth.attempts.toNat + 1) ∧ t.eth.openFail = true ∧
      t.eth.retryEdge = s.edge + 10 * edgesSec ∧ (t.ethPort .ringA).link = false ∧ (t.ethPort .ringB).link = false) ∧
  (∀ (s : State) (o : Int), s.eth.instant = some (o, false) → s.eth.bypass = .open_ → o ≤ s.now →
    ∃ t, exec .bypassClose s = .next t ∧ t.eth.bypass = .closed ∧ t.eth.opening = false ∧
      (t.ethPort .ringA).link = false ∧ (t.ethPort .ringB).link = false) ∧
  (∀ (s : State) (v : Word), bit v 9 = true → bit v 8 = false → s.eth.bypass = .open_ → s.bypassPending = false →
    ∃ t, exec (.bypassCloseReq v) s = .next t ∧ t.eth.noReopen = true ∧ ∃ o, t.eth.instant = some (o, false)) ∧
  (∀ (s : State) (v : Word), bit v 8 = true → bit v 9 = false → s.eth.bypass = .failed →
    ∃ t, exec (.bypassRetry v) s = .next t ∧ t.eth.attempts = 0 ∧ t.eth.noReopen = false ∧
      (t.eth.bypass = .closed ∨ t.eth.bypass = .armed))

/-- Sessions (R394 to R398): a good OPEN takes a free number and is answered in it, one for a partition that the running Outline
lacks is refused; an ACK drops the frames before it; deliveries are acknowledged; a time-out sends again, the eighth and
10 s without a frame close the session; a closed session keeps no load, and a request in it is counted. -/
def Obligations.SessionsAreOpenedServedAndClosed : Prop :=
  (∀ (s : State) (p : Port) (seq w0 : Word) (credits : BitVec 16), isRing p = false → (s.ethPort p).link = true →
    fld w0 31 9 = 0 → fld w0 7 4 = 0 → credits.toNat ≤ 256 → s.openable (fld w0 3 0) = true →
    s.eth.sessions.length = 16 → (∃ x ∈ s.eth.sessions, x.open_ = false) →
    (fld w0 3 0 = 15 → s.eth.sessions.all (fun x => !(x.open_ && x.part.isNone)) = true) →
    ∃ t i, exec (.limianOpen p seq w0 credits) s = .next t ∧ Only [.eth, .fresh] s t ∧ i < 16 ∧
      (s.session i).open_ = false ∧ (t.session i).open_ = true ∧ (t.session i).port = p ∧
      (t.session i).part = (if fld w0 3 0 = 15 then none else some (fld w0 3 0)) ∧
      (t.session i).subscribe = bit w0 8 ∧ (t.session i).rxNext = seq + 1 ∧
      (t.session i).peerCredits = credits.toNat ∧ (t.session i).lastValid = s.edge ∧
      (∃ n q, (t.session i).unacked = [{ seq := q, body := .openReply 0 i (t.session i).token n }]) ∧
      ∀ k, k ≠ i → t.session k = s.session k) ∧
  (∀ (s : State) (p : Port) (seq w0 : Word) (credits : BitVec 16), isRing p = false → (s.ethPort p).link = true →
    fld w0 31 9 = 0 → fld w0 7 4 = 0 → credits.toNat ≤ 256 → s.openable (fld w0 3 0) = false →
    portNum p < s.eth.ports.length →
    ∃ t f, exec (.limianOpen p seq w0 credits) s = .next t ∧ Only [.eth] s t ∧ t.eth.sessions = s.eth.sessions ∧
      (t.ethPort p).txq = (s.ethPort p).txq ++ [f] ∧
      f.bytes.drop 34 = limBody (.openReply 0x10 255 0 0)) ∧
  (∀ (s : State) (i : Fin 16), (s.session i).open_ = true →
    ∃ t, exec (.limianClose i) s = .next t ∧ Only [.jobs, .ctx, .tir, .eth] s t ∧ t.session i = {} ∧
      t.tir.loads = s.tir.loads.filter (·.sess != i.val) ∧
      t.jobs.list.map (·.id) = s.jobs.list.map (·.id)) ∧
  (∀ (s : State) (i : Fin 16) (ack : Word) (credits : BitVec 16) (n : Nat), (s.session i).open_ = true →
    credits.toNat ≤ 256 → n = (ack - (s.session i).peerAck).toNat → n ≤ (s.session i).sent →
    ∃ t, exec (.limianAck i ack credits) s = .next t ∧ Only [.eth] s t ∧ (t.session i).peerAck = ack ∧
      (t.session i).peerCredits = credits.toNat ∧ (t.session i).unacked = (s.session i).unacked.drop n ∧
      (t.session i).lastValid = s.edge) ∧
  (∀ (s : State) (i : Fin 16), (s.session i).open_ = true → 0 < (s.session i).undelivered →
    (s.session i).ackEdge + 20 * edgesUs ≤ s.edge → portNum (s.session i).port < s.eth.ports.length →
    ∃ t f, exec (.ackDelay i) s = .next t ∧ Only [.eth] s t ∧ (t.session i).undelivered = 0 ∧
      (t.ethPort (s.session i).port).txq = (s.ethPort (s.session i).port).txq ++ [f]) ∧
  (∀ (s : State) (i : Fin 16), (s.session i).open_ = true → 0 < (s.session i).sent →
    (s.session i).oldestEdge + s.regs.limRto.toNat * edgesUs * 2 ^ (s.session i).timeouts ≤ s.edge →
    (s.session i).timeouts < 7 →
    ∃ t, exec (.retransmitTimeout i) s = .next t ∧ Only [.eth, .counts] s t ∧
      (t.session i).timeouts = (s.session i).timeouts + 1 ∧ (t.session i).oldestEdge = s.edge ∧
      (t.session i).unacked = (s.session i).unacked) ∧
  (∀ (s : State) (i : Fin 16), (s.session i).open_ = true → 0 < (s.session i).sent →
    (s.session i).oldestEdge + s.regs.limRto.toNat * edgesUs * 2 ^ (s.session i).timeouts ≤ s.edge →
    7 ≤ (s.session i).timeouts →
    ∃ t, exec (.retransmitTimeout i) s = .next t ∧ t.session i = {} ∧ t.counts = (s.bump .ethLimLost).counts) ∧
  (∀ (s : State) (i : Fin 16), (s.session i).open_ = true → (s.session i).lastValid + 10 * edgesSec ≤ s.edge →
    ∃ t, exec (.sessionIdleTimeout i) s = .next t ∧ t.session i = {}) ∧
  (∀ (s : State) (i : Fin 16) (tag w addr : Word) (n : Nat) (ws : List Word), (s.session i).open_ = false →
    exec (.regRead i tag addr n) s = .next (s.bump .ethLimBad) ∧
    exec (.regWrite i tag addr ws) s = .next (s.bump .ethLimBad) ∧
    exec (.objLoadEnd i tag w 0) s = .next (s.bump .ethLimBad))

/-- Objects over sessions (R254, R257, R261, R399, R401): a load that the session may make joins the loads in progress, with a
version in WRITING; its bytes come in order; its end publishes the version with the bytes that its check passes, or
answers why not; a read sends the bytes of the named version, and a push gives the peer's status. -/
def Obligations.ObjectsAreLoadedReadAndPushed : Prop :=
  (∀ (s : State) (i : Fin 16) (tag obj total w3 : Word) (iv : BitVec 96), (s.session i).open_ = true →
    s.loadable (s.session i) obj = false →
    exec (.objLoadBegin i tag obj total w3 iv) s = .next (State.sendTo i (.objReply tag 0x10) (s.delivered i))) ∧
  (∀ (s : State) (i : Fin 16) (tag obj total : Word) (iv : BitVec 96) (part : Nat), (s.session i).open_ = true →
    s.loadable (s.session i) obj = true → obj ≠ 0 → total ≠ 0 → part = loadPart (s.session i) obj →
    s.tir.loads = [] → s.placeOf part obj = none → s.dirUsed + 1 ≤ 65536 →
    bankUnits (4096 * unitsOf total.toNat) ≤ s.t2Free →
    ∃ t l o, exec (.objLoadBegin i tag obj total 0 iv) s = .next t ∧ Only [.tir, .eth] s t ∧ t.tir.loads = [l] ∧
      l.sess = i.val ∧ l.obj = obj ∧ l.part = part ∧ l.total = total.toNat ∧ l.received = [] ∧ l.tag = tag ∧
      l.encrypted = false ∧ t.tir.objs = s.tir.objs ++ [o] ∧ o.obj = obj ∧ o.part = part ∧
      o.state = .writing ∧ o.newest = false) ∧
  (∀ (s : State) (i : Fin 16) (offset : Word) (data : List Byte) (l : LoadOp), (s.session i).open_ = true →
    s.sessionLoad i = some l → offset.toNat = l.received.length → l.obj ≠ 0 →
    ∃ t, exec (.objData i offset data) s = .next t ∧ Only [.lnw, .tir, .counts, .eth] s t ∧
      t.sessionLoad i = some { l with received := l.received ++ data }) ∧
  (∀ (s : State) (i : Fin 16) (offset : Word) (data : List Byte) (l : LoadOp), (s.session i).open_ = true →
    s.sessionLoad i = some l → offset.toNat ≠ l.received.length →
    ∃ t, exec (.objData i offset data) s = .next (State.sendTo i (.objReply l.tag 0x16) t) ∧
      t.tir.loads = s.tir.loads.filter (·.sess != i.val)) ∧
  (∀ (s : State) (i : Fin 16) (tag crc : Word) (gcm : BitVec 128), (s.session i).open_ = true →
    s.sessionLoad i = none →
    exec (.objLoadEnd i tag crc gcm) s = .next (State.sendTo i (.objReply tag 0x17) (s.delivered i))) ∧
  (∀ (s : State) (i : Fin 16) (tag crc : Word) (gcm : BitVec 128) (l : LoadOp) (st : Byte), (s.session i).open_ = true →
    s.sessionLoad i = some l → l.plain crc gcm = .error st →
    ∃ t, exec (.objLoadEnd i tag crc gcm) s = .next (State.sendTo i (.objReply tag st) t) ∧
      t.tir.loads = s.tir.loads.filter (·.sess != i.val) ∧
      ∀ o ∈ t.tir.objs, o ∈ s.tir.objs ∧ ¬(o.state = .writing ∧ o.obj = l.obj ∧ o.part = l.part)) ∧
  (∀ (s : State) (i : Fin 16) (tag crc : Word) (gcm : BitVec 128) (l : LoadOp) (p : List Byte),
    (s.session i).open_ = true → s.sessionLoad i = some l → l.plain crc gcm = .ok p → l.obj ≠ 0 →
    s.placeOf l.part l.obj = none → bankUnits (4096 * max 1 (unitsOf l.total)) ≤ s.t2Free →
    ∃ t o, exec (.objLoadEnd i tag crc gcm) s = .next (State.sendTo i (.objReply tag 0) t) ∧ o ∈ t.tir.objs ∧
      o.obj = l.obj ∧ o.part = l.part ∧ o.ver = s.nextVer l.part l.obj ∧ o.newest = true ∧ o.state = .sealed ∧ o.len = l.total ∧
      o.data = Memory.ofBytes p) ∧
  (∀ (s : State) (i : Fin 16) (tag crc : Word) (gcm : BitVec 128) (l : LoadOp) (p : List Byte),
    (s.session i).open_ = true → s.sessionLoad i = some l → l.plain crc gcm = .ok p → l.obj = 0 →
    s.otl.state = .staging →
    ∃ t, exec (.objLoadEnd i tag crc gcm) s = .next (State.sendTo i (.objReply tag 0) t) ∧
      t.otl = { s.otl with
        staging := Memory.writeBytes s.otl.staging 0 p
        stagedWords := max s.otl.stagedWords ((0 + p.length) / 4) }) ∧
  (∀ (s : State) (i : Fin 16) (tag obj : Word) (ver : BitVec 16) (p : Nat) (o : ObjVersion),
    (s.session i).open_ = true → (s.session i).part = some p → s.readNamed p obj ver.toNat = some o →
    s.version? o.part o.obj o.ver = some o → o.state = .sealed ∨ o.state = .rebuilding → o.len ≤ 1448 → 0 < o.len →
    exec (.objRead i tag obj ver) s = .next (State.sendTo i (.objReply tag 0)
      ((State.sendTo i (.objData 0 (Memory.readBytes o.data 0 o.len)) (s.delivered i)).updObj
        (isVer o.part o.obj o.ver) fun x => { x with lastUse := s.now }))) ∧
  (∀ (s : State) (i : Fin 16) (tag obj : Word) (ver : BitVec 16) (p : Nat) (o : ObjVersion),
    (s.session i).open_ = true → (s.session i).part = some p → s.readNamed p obj ver.toNat = some o →
    o.state = .verifying →
    exec (.objRead i tag obj ver) s = .next ((s.delivered i).awaitCheck o { sess := i.val, tag := tag })) ∧
  (∀ (s : State) (i : Fin 16) (tag obj robj : Word) (ver : BitVec 16) (rp : Fin 8) (st : Byte) (p : Nat)
    (o : ObjVersion), (s.session i).open_ = true → (s.session i).part = some p →
    s.readNamed p obj ver.toNat = some o → s.version? o.part o.obj o.ver = some o →
    o.state = .sealed ∨ o.state = .rebuilding → (s.ethPort .peer).link = true →
    ∃ t, exec (.objPush i tag obj ver rp robj st) s = .next (State.sendTo i (.objReply tag st) t) ∧
      Only [.tir, .fresh, .eth] s t ∧
      (s.ethPort .peer).txq.length + 4 ≤ (t.ethPort .peer).txq.length) ∧
  (∀ (s : State) (i : Fin 16) (tag obj robj : Word) (ver : BitVec 16) (rp : Fin 8) (st : Byte) (p : Nat),
    (s.session i).open_ = true → (s.session i).part = some p →
    s.readNamed p obj ver.toNat = none ∨ (s.ethPort .peer).link = false ∧
      (∀ o, s.readNamed p obj ver.toNat = some o → o.state ≠ .verifying) →
    exec (.objPush i tag obj ver rp robj st) s = .next (State.sendTo i (.objReply tag 0x17) (s.delivered i)))

/-! ## Safety, spares and the log -/

/-- Messages to Proof and its causes (R417, R419, R423, R425): a CHECK that every rule passes keeps its tag alive; one that a
rule does not counts in the open frame of its set, and the second of a job ends it; a gate sample beyond its bound
holds GATE_TABLE until 1,024 in a row are within it; boxes and sensor faults end after their time; a release needs
the stop sequence and clean sets, and no outline recovery (R95), and any other is counted. -/
def Obligations.ProofJudgesMessagesAndReleases : Prop :=
  (∀ (s : State) (job : Word) (slot index set : Nat) (tag : BitVec 16) (digest : Word),
    s.prf.nextMessage = some (.residue job slot index set tag digest) →
    (∀ rec, s.ruleSet set = some rec → ∀ r ∈ rec.rules, r.type = 7 → r.tag = tag → fLt r.e2 (fAbs digest) = false) →
    ∃ t, exec .checkMessage s = .next t ∧ t.prf.mailbox = s.prf.mailbox.drop 1 ∧
      (set, tag, s.edge) ∈ t.prf.alive) ∧
  (∀ (s : State) (job : Word) (slot index set : Nat) (tag : BitVec 16) (digest : Word) (rec : RuleSetRec)
    (r : RuleWords) (j : Job), s.prf.nextMessage = some (.residue job slot index set tag digest) →
    s.ruleSet set = some rec → r ∈ rec.rules → r.type = 7 → r.tag = tag → fLt r.e2 (fAbs digest) = true →
    set < s.prf.sets.length → s.job? job = some j → j.disagrees ≠ 0 →
    ∃ t, exec .checkMessage s = .next t ∧ t.prf.mailbox = (s.prf.mailbox.drop 1).map (ProofMsg.orphan job) ∧
      (t.prf.sets.getD set {}).open_.disagreed = true ∧
      t.jobs.list.map (·.id) = (s.jobs.list.map (·.id)).filter (· != job)) ∧
  (∀ (s : State) (job diff : Word) (tanh : Bool) (x : Rat), s.prf.nextMessage = some (.gateSample job tanh diff) →
    f32Rat (fAbs diff) = some x → gateBound tanh < x →
    ∃ t r, exec .gateSampleMessage s = .next t ∧ Only [.prf, .brn, .counts] s t ∧
      t.prf.mailbox = s.prf.mailbox.drop 1 ∧ t.prf.gateTable = some 0 ∧ t.prf.faultN = true ∧
      t.brn.inbox = s.brn.inbox ++ [r] ∧ r.code = 0x0075 ∧ r.job = job ∧ r.detail = diff) ∧
  (∀ (s : State) (job diff : Word) (tanh : Bool) (x : Rat) (n : Nat), s.prf.nextMessage = some (.gateSample job tanh diff) →
    f32Rat (fAbs diff) = some x → x ≤ gateBound tanh → s.prf.gateTable = some n →
    ∃ t, exec .gateSampleMessage s = .next t ∧ Only [.prf] s t ∧ t.prf.mailbox = s.prf.mailbox.drop 1 ∧
      t.prf.gateTable = (if n + 1 < 1024 then some (n + 1) else none)) ∧
  (∀ (s : State) (n : Fin 64) (b : ConflictBox), s.prf.boxes[n.val]? = some (some b) → b.expires ≤ s.edge →
    exec (.conflictBoxExpire n) s = .next { s with prf := { s.prf with boxes := s.prf.boxes.set n none } }) ∧
  (∀ (s : State) (e : Nat), s.prf.sensorFault = some e → e + 10 * edgesSec ≤ s.edge →
    ∃ t, exec .sensorFaultClear s = .next t ∧ Only [.prf] s t ∧ t.prf.sensorFault = none) ∧
  (∀ s : State, s.glb.stage ≠ .outlineRecovery → s.prf.state = .stopped → (∀ r ∈ s.prf.sets, r.stops = false) →
    s.prf.safeCause = 0 →
    (∀ r ∈ s.otl.running.ruleSets, s.supervised r.part = true → r.m ≤ (s.prf.sets.getD r.set {}).goodSinceStop) →
    ∃ t, exec (.prfRelease s.prf.stopSeq) s = .next t ∧ Only [.prf] s t ∧ t.prf.stopped = false ∧
      t.prf.stopA = false ∧ t.prf.stopB = false ∧ t.prf.stopSeq = s.prf.stopSeq) ∧
  (∀ (s : State) (v : Word), s.prf.state ≠ .stopped ∨ v ≠ s.prf.stopSeq ∨ (∃ r ∈ s.prf.sets, r.stops = true) ∨
    s.glb.stage = .outlineRecovery →
    exec (.prfRelease v) s = .next (s.bump .prfReleaseRefused))

/-- Proof's monitors and adaptive voltage (R407, R408, R410, R411, R414, R424, R469, R490): a lockstep mismatch, an uncorrectable
word, a clock beyond 12 % in two windows, a monitored rail beyond its trip limits, a stop line read back wrong and a
missing heartbeat put Proof in SAFE_STATE, each under its own cause; an edge of WDI is timed, and WDO toggles while the
heartbeat comes. An acknowledged step of at most 10 mV, within the limits or nearer to them, sets the target; one that is
not acknowledged leaves it, and is tried again 100 ms later. -/
def Obligations.MonitorsAndVoltageStepsAct : Prop :=
  (∀ s : State, ∃ t, exec .lockstepMismatch s = .next t ∧ s.EntersSafeState t 0) ∧
  (∀ s : State, ∃ t, exec .proofSramUncorrectable s = .next t ∧ s.EntersSafeState t 1) ∧
  (∀ (s : State) (ctrl aon : BitVec 16), s.prf.clkBad = true → ctrl.toNat < 7209 ∨ 9175 < ctrl.toNat ∨
    aon.toNat < 1803 ∨ 2293 < aon.toNat →
    ∃ t, exec (.proofClockWindow ctrl aon) s = .next t ∧ s.EntersSafeState t 2 ∧ t.prf.clkCtrl = ctrl ∧ t.prf.clkAon = aon) ∧
  (∀ (s : State) (ctrl aon : BitVec 16), 7209 ≤ ctrl.toNat → ctrl.toNat ≤ 9175 → 1803 ≤ aon.toNat → aon.toNat ≤ 2293 →
    exec (.proofClockWindow ctrl aon) s = .next { s with prf := { s.prf with
      clkCtrl := ctrl
      clkAon := aon
      clkBad := false } }) ∧
  (∀ (s : State) (rail : Rail) (mv lo hi : Nat), tripLimits rail = some (lo, hi) → mv ≤ railLimit rail →
    mv < lo ∨ hi < mv → ∃ t, exec (.voltageTrip rail mv) s = .next t ∧ s.EntersSafeState t 3) ∧
  (∀ (s : State) (rail : Rail) (mv lo hi : Nat), tripLimits rail = some (lo, hi) → lo ≤ mv → mv ≤ hi →
    exec (.voltageTrip rail mv) s = .next s) ∧
  (∀ (s : State) (line : StopLine), ∃ t, exec (.stopReadbackMismatch line) s = .next t ∧ s.EntersSafeState t 4) ∧
  (∀ s : State, s.proofRuns = true → s.prf.state ≠ .safeState → s.prf.wdoEdge + 490 * edgesUs ≤ s.edge →
    (∃ t, exec (.wdoToggle false) s = .next t ∧ s.EntersSafeState t 7) ∧
    exec (.wdoToggle true) s = .next { s with prf := { s.prf with
      wdo := !s.prf.wdo
      wdoEdge := s.edge } }) ∧
  (∀ (s : State) (e : Nat), s.prf.wdiEdge = some e →
    exec .wdiEdge s = .next { s with prf := { s.prf with
      wdiEdge := some s.edge
      sets := s.prf.sets.map fun r => { r with
        wdiMin := some (min (s.edge - e) (r.wdiMin.getD (s.edge - e))) } } }) ∧
  (∀ (s : State) (target : Nat), s.proofRuns = true → s.glb.pmbusRetry = none → s.avsAllowed target = true →
    (∀ e, s.glb.avsEdge = some e → e + edgesMs ≤ s.edge) →
    exec (.avsStep target true) s = .next { s with glb := { s.glb with
      avsTarget := BitVec.ofNat 10 target
      pmbusFail := false
      avsEdge := some s.edge
      pmbusRetry := none } } ∧
    exec (.avsStep target false) s = .next { s with glb := { s.glb with
      pmbusFail := true
      avsEdge := some s.edge
      pmbusRetry := some (target, s.edge) } }) ∧
  (∀ (s : State) (ack : Bool) (r : Nat × Nat), s.glb.pmbusRetry = some r → r.2 + 100 * edgesMs ≤ s.edge →
    ∃ t, exec (.pmbusRetry ack) s = .next t ∧ Only [.glb] s t ∧
      (ack = true → t.glb.avsTarget = BitVec.ofNat 10 r.1 ∧ t.glb.pmbusRetry = none ∧ t.glb.pmbusFail = false) ∧
      (ack = false → t.glb.avsTarget = s.glb.avsTarget ∧ t.glb.pmbusRetry = some (r.1, s.edge) ∧ t.glb.pmbusFail = true)) ∧
  (∀ (s t : State) (target : Nat) (ack : Bool), exec (.avsStep target ack) s = .next t →
    t.glb.avsTarget = s.glb.avsTarget ∨
    t.glb.avsTarget.toNat ≤ s.glb.avsTarget.toNat + 10 ∧ s.glb.avsTarget.toNat ≤ t.glb.avsTarget.toNat + 10 ∧
    460 ≤ t.glb.avsTarget.toNat ∧ t.glb.avsTarget.toNat ≤ 600)

/-- Self-test slices and coverage (R24, R426, R428, R429): a slice that passes steps on, the last of a pass starts a new one;
one that fails takes its unit out of service; an abort ends every slice, and counts them; a unit that is not covered
in 100 ms is reported once. -/
def Obligations.SlicesPassFailAndCover : Prop :=
  (∀ (s : State) (u : Fin 8) (k : Nat) (x : SelftestEntry) (n at_ : Nat), (s.slice u).running = true →
    (s.slice u).endEdge ≤ s.edge → s.sliceEntry u = some x → n = max 1 x.slices →
    (s.slice u).next.lookup (s.slice u).entry = some at_ → u.val < s.prf.slices.length →
    ∃ t, exec (.sliceDone u true k) s = .next t ∧ Only [.prf] s t ∧ (t.slice u).running = false ∧
      (t.slice u).next.lookup (s.slice u).entry = some ((at_ + s.sliceCount u) % n) ∧
      ((∀ m, m < n → m = at_ ∨ m ∈ (s.slice u).passed) → (t.slice u).passed = [] ∧ (t.slice u).passStart = s.edge) ∧
      ((∃ m, m < n ∧ m ≠ at_ ∧ m ∉ (s.slice u).passed) →
        at_ ∈ (t.slice u).passed ∧ (t.slice u).passStart = (s.slice u).passStart)) ∧
  (∀ (s : State) (k : Nat), (s.slice 5).running = true → (s.slice 5).endEdge ≤ s.edge →
    ∃ t, exec (.sliceDone 5 false k) s = .next t ∧ t.trc = { s.trc with leaving := true } ∧
      t.counts = (s.bump .prfSliceFail).counts) ∧
  (∀ (s : State) (k : Nat), (s.slice 7).running = true → (s.slice 7).endEdge ≤ s.edge →
    ∃ t, exec (.sliceDone 7 false k) s = .next t ∧ t.prf.state = .safeState ∧ t.prf.safeCause.getLsbD 6 = true) ∧
  (∀ s : State, ∃ t, exec .sliceAbort s = .next t ∧ Only [.prf, .xh, .counts] s t ∧
    (∀ y ∈ t.prf.slices, y.running = false) ∧
    t.counts = (s.bumpBy .prfSliceAbort (s.prf.slices.filter (·.running)).length).counts) ∧
  (∀ (s : State) (u : Nat), s.glb.stage = .ready → s.uncovered u = true → u < 8 → u < s.prf.slices.length →
    ∃ t r, exec (.diagIntervalMissed u) s = .next t ∧ Only [.prf, .brn, .counts] s t ∧ (t.slice u).missed = true ∧
      t.prf.faultN = true ∧ t.uncovered u = false ∧ t.brn.inbox = s.brn.inbox ++ [r] ∧ r.code = 0x0072 ∧
      t.counts = (s.bump .prfDiagMissed).counts)

/-- Rotation (R18 to R24, R436): at its instant the outgoing idle core of a cluster becomes the spare under test, and the
spare so far takes its slot; with a job still on the core the handover waits and is counted; the test of a spare ends
after 6 ms, and a failed one suspends rotation and starts a diagnosis. -/
def Obligations.RotationHandsSlotsOver : Prop :=
  (∀ (s : State) (e : BitVec 12) (r : RegEntry) (sp : Fin 9) (o : Nat), s.Launches 9 e.toNat r → r.action = 1 →
    s.glb.readyEdge + 1600000 ≤ s.edge → (s.cluster r.unit).spare = some sp → (s.cluster r.unit).suspended = false →
    (s.cluster r.unit).testing = false → s.nextSpare r.unit = some o → (s.core o).quiet = true →
    ∃ t, exec (.rotationInstant e) s = .next t ∧ t.rgn = s.rgn.launched e.toNat ∧
      t.glb = { s.glb with slotMap := s.glb.slotMap.map fun x =>
        if x.2.2 = o then (x.1, x.2.1, 9 * r.unit + sp.val) else x } ∧
      t.clusters = s.clusters.modify r.unit (fun x => { x with
        spare := some (Fin.ofNat 9 (o % 9)), testing := true, testStart := s.edge, handover := false }) ∧
      t.cores = (s.cores.modify (9 * r.unit + sp.val) fun x =>
        if x.state = .selfTest then { x with state := .idle } else x).modify o fun x =>
          { x with state := .selfTest }) ∧
  (∀ (s : State) (e : BitVec 12) (r : RegEntry) (sp : Fin 9) (o : Nat), s.Launches 9 e.toNat r → r.action = 1 →
    s.glb.readyEdge + 1600000 ≤ s.edge → (s.cluster r.unit).spare = some sp → (s.cluster r.unit).suspended = false →
    s.nextSpare r.unit = some o → (s.core o).quiet = false →
    ∃ t, exec (.rotationInstant e) s = .next t ∧ Only [.rgn, .counts, .clusters] s t ∧
      t.clusters = s.clusters.modify r.unit fun x => { x with handover := true }) ∧
  (∀ (s : State) (cl : Fin 4) (sp : Fin 9) (o : Nat), (s.cluster cl).handover = true → (s.cluster cl).testing = false →
    (s.cluster cl).spare = some sp → (s.cluster cl).suspended = false → s.nextSpare cl = some o →
    (s.core o).quiet = true →
    ∃ t, exec (.rotationHandoverDone cl) s = .next t ∧ Only [.glb, .clusters, .cores] s t ∧
      t.glb = { s.glb with slotMap := s.glb.slotMap.map fun x =>
        if x.2.2 = o then (x.1, x.2.1, 9 * cl.val + sp.val) else x } ∧
      t.clusters = s.clusters.modify cl fun x => { x with
        spare := some (Fin.ofNat 9 (o % 9)), testing := true, testStart := s.edge, handover := false }) ∧
  (∀ (s : State) (cl : Fin 4) (sp : Fin 9), (s.cluster cl).spare = some sp → (s.cluster cl).testing = true →
    (s.cluster cl).testStart + 960000 ≤ s.edge →
    ∃ t, exec (.spareSelftestDone cl true) s = .next t ∧ Only [.clusters, .cores, .prf] s t ∧
      t.clusters = s.clusters.modify cl (fun x => { x with testing := false }) ∧
      t.cores = s.cores.modify (9 * cl.val + sp.val) fun x => { x with state := .idle, lastPass := s.edge }) ∧
  (∀ (s : State) (cl : Fin 4) (sp : Fin 9), (s.cluster cl).spare = some sp → (s.cluster cl).testing = true →
    (s.cluster cl).testStart + 960000 ≤ s.edge →
    exec (.spareSelftestDone cl false) s = .next (State.report 2 (9 * cl.val) 5 0 0x000A none 0 cl { s with
      clusters := s.clusters.modify cl fun x => { x with
        spare := none, testing := false, handover := false, suspended := true, abandoned := none }
      cores := s.cores.modify (9 * cl.val + sp.val) fun x => { x with leaving := true, diagnosing := true } }))

/-- Cores, banks and control cores that fail (R97, R432 to R438, R440): a diagnosed core rejoins with a repaired row, or
without a fault up to the third time in a day; otherwise it is retired at its job boundary, as the Margin engine, the
Tracing unit and the planner are once idle; a scrub notes the corrected words of each bank; a Plate bank with an
uncorrectable word or with 16 corrected ones in a second is retired for a spare; the spare control core takes over. -/
def Obligations.FailedUnitsAreRepairedOrRetired : Prop :=
  (∀ (s : State) (n : Fin 36) (a : Fin 4) (row : BitVec 7) (m : RepairMap), (s.core n).diagnosing = true →
    (s.core n).retiring = false → (s.core n).repair[a.val]? = some m → m.rowA = 0x7F →
    row.toNat ≤ 65 →
    ∃ t, exec (.diagnosisDone n (.row a row)) s = .next t ∧
      (t.core n).repair = (s.core n).repair.set a { m with rowA := row } ∧ (t.core n).state = .idle ∧
      (t.core n).diagnosing = false ∧ t.counts = (s.bump .brnSpared).counts) ∧
  (∀ (s : State) (n : Fin 36), (s.core n).diagnosing = true → (s.core n).retiring = false →
    ((s.core n).transients.filter fun e => decide (s.edge < e + edgesDay)).length < 2 →
    ∃ t, exec (.diagnosisDone n .noFault) s = .next t ∧ (t.core n).state = .idle ∧ (t.core n).diagnosing = false ∧
      t.counts = (s.bump .brnTransient).counts) ∧
  (∀ (s : State) (n : Fin 36) (d : DiagResult), (s.core n).diagnosing = true → (s.core n).retiring = false →
    d = .notLocalised ∨ d = .outsideArrays ∨ d = .noFault ∧
      2 ≤ ((s.core n).transients.filter fun e => decide (s.edge < e + edgesDay)).length →
    ∃ t, exec (.diagnosisDone n d) s = .next t ∧ Only [.cores] s t ∧ (t.core n).retiring = true ∧
      (t.core n).diagnosing = true) ∧
  (∀ (s : State) (n : Fin 36), (s.core n).retiring = true → (s.core n).quiet = true →
    ∃ t, exec (.coreRetire (.core n)) s = .next t ∧ (t.core n).state = .retired ∧
      t.brn.coreRetired.getLsbD n = true ∧ ∀ x ∈ t.glb.slotMap, x.2.2 ≠ n.val) ∧
  (∀ s : State, s.jobs.marginRetired = false → s.jobs.marginRun = none → s.jobs.marginQueue = [] →
    ∃ t, exec (.coreRetire .margin) s = .next t ∧ Only [.jobs, .brn, .counts] s t ∧
      t.jobs = { s.jobs with marginRetired := true }) ∧
  (∀ s : State, s.trc.leaving = true → s.trc.retired = false → s.trc.holder = 0 → s.trc.queue = [] →
    ∃ t, exec (.coreRetire .tracing) s = .next t ∧ Only [.trc, .brn, .counts] s t ∧
      t.trc = { s.trc with
        retired := true
        leaving := false }) ∧
  (∀ s : State, s.xh.leaving = true → s.xh.retired = false → s.xh.run = none → s.xh.queue = [] → s.xh.publish = none →
    s.xh.publishQueue = [] →
    ∃ t, exec (.coreRetire .planner) s = .next t ∧ Only [.xh, .brn, .counts] s t ∧
      t.xh = { s.xh with
        retired := true
        leaving := false }) ∧
  (∀ (s : State) (k : Fin 4) (banks : List Nat), (s.plate k).powered = true →
    ∃ t, exec (.plateScrub k banks) s = .next t ∧ Only [.plt, .counts] s t ∧ (t.plate k).lastScrub = s.edge ∧
      (∀ b ∈ banks, (b, s.edge) ∈ (t.plate k).corr) ∧ (t.plate k).retired = (s.plate k).retired) ∧
  (∀ (s : State) (k : Fin 4) (b : Nat), (s.plate k).powered = true → b < 168 → b ∉ (s.plate k).retired →
    ∃ t, exec (.plateUncorrectable k b) s = .next t ∧ (t.plate k).retired = (s.plate k).retired ++ [b] ∧
      (t.plate k).sparesLeft = (s.plate k).sparesLeft - 1) ∧
  (∀ (s : State) (k : Fin 4) (b : Nat), (s.plate k).powered = true → b < 168 → b ∉ (s.plate k).retired →
    16 ≤ ((s.plate k).corr.filter fun e => e.1 = b && decide (s.edge < e.2 + 160000000)).length →
    ∃ t, exec (.plateCorrectedLimit k b) s = .next t ∧ Only [.plt, .brn, .counts] s t ∧
      (t.plate k).retired = (s.plate k).retired ++ [b] ∧ (t.plate k).sparesLeft = (s.plate k).sparesLeft - 1) ∧
  (∀ (s : State) (n : Fin 5) (spare : Nat), n.val ∈ s.brn.ctrlActive →
    (firstIdx 5 fun k => !(s.brn.ctrlActive.filter (· != n.val)).contains k &&
      !(s.brn.ctrlRetired ++ [n.val]).contains k) = some spare →
    ∃ t, exec (.ctrlWatchdogExpire n) s = .next t ∧
      t.brn.ctrlActive = s.brn.ctrlActive.filter (· != n.val) ++ [spare] ∧
      t.brn.ctrlRetired = s.brn.ctrlRetired ++ [n.val])

/-- The error log and the counters (R10, R443, R446, R447): a report leaves the inbox, gets the next SEQ and joins the ring of
1,024, whose oldest it overwrites; a pop drops the oldest; a counter stops at all ones; CNT_CLEAR clears the counters
of its block and of no other, and Proof has none. -/
def Obligations.TheLogAndTheCountersHold : Prop :=
  (∀ (s : State) (r : ErrorRecord) (l : List ErrorRecord), s.brn.inbox = r :: l → s.brn.log.length < 1024 →
    ∃ t, exec .errorReport s = .next t ∧ Only [.brn, .eth] s t ∧ t.brn.inbox = l ∧ t.brn.seq = s.brn.seq + 1 ∧
      t.brn.log = s.brn.log ++ [{ r with seq := s.brn.seq }] ∧ t.brn.overrun = s.brn.overrun) ∧
  (∀ (s : State) (r : ErrorRecord) (l : List ErrorRecord), s.brn.inbox = r :: l → 1024 ≤ s.brn.log.length →
    ∃ t, exec .errorReport s = .next t ∧ Only [.brn, .eth, .counts] s t ∧ t.brn.inbox = l ∧
      t.brn.log = s.brn.log.drop 1 ++ [{ r with seq := s.brn.seq }] ∧ t.brn.overrun = true ∧
      t.counts = (s.bump .brnLogLost).counts) ∧
  (∀ (s : State) (v : Word), bit v 0 = true →
    exec (.brnLogPop v) s = .next { s with brn := { s.brn with log := s.brn.log.drop 1 } }) ∧
  (∀ (s : State) (b : Block) (v : Word) (c : Counter), bit v 0 = true → b ≠ .prf →
    ∃ t, exec (.cntClear b v) s = .next t ∧ Only [.counts] s t ∧
      t.count c = (if c.block = b then 0 else s.count c)) ∧
  (∀ (s : State) (v : Word), exec (.cntClear .prf v) s = .next s) ∧
  (∀ (s : State) (c d : Counter) (n : Nat), ((s.bumpBy c n).count c).toNat = min 0xFFFFFFFF ((s.count c).toNat + n) ∧
    (d ≠ c → (s.bumpBy c n).count d = s.count d) ∧ Only [.counts] s (s.bumpBy c n))

/-! ## Security, resets and bring-up -/

/-- The commands of the security block (R451 to R462, R473, R474): a good image overwrites the boot store, an Outline with BOOT
the copy not in use, each counting only when it reads back good; a rollback counter only rises; a good blob fills its
slot and a good request revokes its key, others set KEY_REFUSED; a lock code and its complement within 1 s program LOCK. -/
def Obligations.SecurityCommandsAct : Prop :=
  (∀ (s : State) (v : Word) (img : List Byte), bit v 0 = true → s.sec.bootWrite = none →
    s.securityObj 0xFB000220 = some img → (s.sec.verify img).isSome = true →
    exec (.secBootWriteFirmware v) s = .next { s with sec := { s.sec with
      bootWrite := some true
      pendingImage := img
      firmware := [] } }) ∧
  (∀ (s : State) (v : Word), bit v 1 = true → s.sec.bootWrite = none → s.otl.running.header.boot = true →
    exec (.secBootWriteOutline v) s = .next { s with sec := { s.sec with
      bootWrite := some false
      pendingImage := wordsBytes s.otl.image
      copies := s.sec.copies.modify s.sec.targetCopy fun c => { c with headerGood := false } } }) ∧
  (∀ (s : State) (v : Word), bit v 1 = true → s.sec.bootWrite = none → s.otl.running.header.boot = false →
    exec (.secBootWriteOutline v) s = .next { s with sec := { s.sec with bootRefused := true } }) ∧
  (∀ (s : State) (good : Bool), s.sec.bootWrite = some true →
    exec (.bootWriteDone good) s = .next { s with sec := { s.sec with
      bootWrite := none
      firmware := if good then s.sec.pendingImage else []
      pendingImage := [] } }) ∧
  (∀ s : State, s.sec.bootWrite = some false →
    exec (.bootWriteDone true) s = .next { s with sec := { s.sec with
      bootWrite := none
      pendingImage := []
      copyInUse := some s.sec.targetCopy
      copies := s.sec.copies.set s.sec.targetCopy {
        headerGood := true, seq := s.sec.nextSeq
        words := bytesWords (s.sec.pendingImage.length / 4) s.sec.pendingImage } } }) ∧
  (∀ (s : State) (v : Word), bit v 0 = true →
    ∃ t, exec (.secRollbackCommit v) s = .next t ∧ Only [.sec] s t ∧ s.sec.rollback.toNat ≤ t.sec.rollback.toNat ∧
      s.sec.version.toNat ≤ t.sec.rollback.toNat ∧
      (t.sec.rollback = s.sec.rollback ∨ t.sec.rollback = s.sec.version)) ∧
  (∀ (s : State) (v : Word) (k : KeySlot), s.keyBlob (fld v 3 0) = some k →
    exec (.secKeyInstall v) s = .next { s with sec := { s.sec with slots := s.sec.slots.set (fld v 3 0) k } } ∧
    k.valid = true ∧ k.exports_ = 0 ∧ fld v 3 0 ≠ 0) ∧
  (∀ (s : State) (v : Word), s.keyBlob (fld v 3 0) = none →
    exec (.secKeyInstall v) s = .next { s with sec := { s.sec with keyRefused := true } }) ∧
  (∀ (s : State) (v : Word) (n : Nat), bit v 0 = true → s.revocation = some n →
    ∃ t, exec (.secRevoke v) s = .next t ∧ Only [.sec] s t ∧ t.sec.revoked.getLsbD (n - 1) = true ∧ 1 ≤ n ∧ n ≤ 4 ∧
      (∀ k, k ≠ n - 1 → t.sec.revoked.getLsbD k = s.sec.revoked.getLsbD k)) ∧
  (∀ (s : State) (v : Word), bit v 0 = true → s.revocation = none →
    exec (.secRevoke v) s = .next { s with sec := { s.sec with keyRefused := true } }) ∧
  (∀ (s : State) (v : Word) (x : LockState), s.sec.lockWrite = none → lockTarget s.sec.lockOtp (fld v 1 0) = some x →
    exec (.secLockAdvance v) s = .next { s with sec := { s.sec with
      lockWrite := some (BitVec.ofNat 2 (fld v 1 0), s.edge) } }) ∧
  (∀ (s : State) (v : Word) (w : BitVec 2) (e : Nat) (x : LockState), s.sec.lockWrite = some (w, e) →
    s.edge ≤ e + 160000000 → fld v 1 0 = 3 - w.toNat → lockTarget s.sec.lockOtp w.toNat = some x →
    exec (.secLockAdvance v) s = .next { s with sec := { s.sec with
      lockWrite := none
      lockOtp := x } })

/-- R459: an install into slot 15 is accepted once and stays through every reset, as OTP does; a second attempt sets
KEY_REFUSED and leaves the slot. -/
def Obligations.SlotFifteenIsInstalledOnce : Prop :=
  (∀ (s : State) (v : Word) (k : KeySlot), fld v 3 0 = 15 → s.keyBlob 15 = some k → s.sec.slots.length = 16 →
    ∃ t, exec (.secKeyInstall v) s = .next t ∧ Only [.sec] s t ∧ t.sec.slots.getD 15 {} = k ∧ k.valid = true) ∧
  (∀ (s : State) (v : Word), fld v 3 0 = 15 → (s.sec.slots.getD 15 {}).valid = true →
    exec (.secKeyInstall v) s = .next { s with sec := { s.sec with keyRefused := true } }) ∧
  (∀ (s : State) (r : ResetKind) (b : BootStage), s.sec.slots.length = 16 →
    ((s.restart r b).sec.slots.getD 15 {}).valid = (s.sec.slots.getD 15 {}).valid ∧
    ((s.restart r b).sec.slots.getD 15 {}).key = (s.sec.slots.getD 15 {}).key) ∧
  (∀ (c : Instr) (s t : State), s.sec.slots.length = 16 → (s.sec.slots.getD 15 {}).valid = true →
    exec c s = .next t →
    (t.sec.slots.getD 15 {}).valid = true ∧ (t.sec.slots.getD 15 {}).key = (s.sec.slots.getD 15 {}).key)

/-- What brings a reset (R93, R389, R468, R470 to R472): power, the loss of VDD_AON or of a rail under RESET_N, RESET_N low for
1 us, its release, and the two keys written to GLB_RESET, which act 10 us later; a shorter pulse and any other value do
not. A partition reset leaves no job and no context of a named partition, drops the staged image, and holds its firings
until it ends; bits of partitions that the running Outline lacks are ignored. -/
def Obligations.ResetsAreTakenAndPartitionsReset : Prop :=
  (∀ s : State, ∃ t, exec .powerOn s = .next t ∧ t = s.restart .coldPower .held) ∧
  (∀ s : State, ∃ t, exec .vddAonLoss s = .next t ∧ t.glb.stage = .unpowered ∧ t.glb.pdState = 0 ∧
    t.eth.bypass = .closed ∧ t.jobs.list = [] ∧ t.ctx.table = []) ∧
  (∀ (s : State) (ns : Nat), s.glb.stage ≠ .unpowered → s.glb.stage ≠ .held → 1000 ≤ ns →
    exec (.resetNAssert ns) s = .next (s.restart .warmPin .held)) ∧
  (∀ (s : State) (ns : Nat), s.glb.stage ≠ .unpowered → s.glb.stage ≠ .held → 100 ≤ ns → ns < 1000 →
    ∃ t, exec (.resetNAssert ns) s = .next t ∧ Only [.counts, .tb, .eth] s t ∧ t.eth.bypass = .closed ∧
      (t.ethPort .ringA).link = false ∧ (t.ethPort .ringB).link = false) ∧
  (∀ (s : State) (ns : Nat), ns < 100 → exec (.resetNAssert ns) s = .next s) ∧
  (∀ s : State, s.glb.stage = .held → exec .resetNRelease s = .next (s.restart s.glb.lastReset .plls)) ∧
  (∀ (s : State) (rail : Rail), s.glb.stage = .held → coldRail rail = true →
    exec (.supplyOutOfRange rail) s = .next (s.restart .coldPower .held)) ∧
  (∀ (s : State) (rail : Rail), s.glb.stage ≠ .held ∨ coldRail rail = false →
    exec (.supplyOutOfRange rail) s = .next s) ∧
  (∀ s : State, s.glb.resetDue = none →
    exec (.glbResetCold 0x434F4C44) s = .next { s with glb := { s.glb with
      resetDue := some (s.edge + 1600, .coldRegister) } } ∧
    exec (.glbResetWarm 0x5741524D) s = .next { s with glb := { s.glb with
      resetDue := some (s.edge + 1600, .warmRegister) } }) ∧
  (∀ (s : State) (v : Word), (v ≠ 0x434F4C44 → exec (.glbResetCold v) s = .next s) ∧
    (v ≠ 0x5741524D → exec (.glbResetWarm v) s = .next s)) ∧
  (∀ (s : State) (v : Word) (p : Nat), p < 8 → v.getLsbD p = true → (s.partRec p).isSome = true →
    ∃ t, exec (.glbPartReset v) s = .next t ∧ (∀ j ∈ t.jobs.list, j.part ≠ p) ∧ (∀ c ∈ t.ctx.table, c.part ≠ p) ∧
      t.resetting p = true ∧ t.otl.state = .idle ∧ t.otl.staged = none ∧ t.otl.running = s.otl.running ∧
      (s.supervised p = true → t.prf.stopped = true)) ∧
  (∀ (s : State) (v : Word), (∀ p, p < 8 → v.getLsbD p = true → s.partRec p = none) →
    exec (.glbPartReset v) s = .next s) ∧
  (∀ s : State, exec .partitionResetDone s = .next { s with glb := { s.glb with partReset := none } })

/-- What each reset leaves (R449, R457, R462, R480): no job, context, object, session or staged image, counters at zero, Proof
as at reset; OTP and the boot store stay. A cold reset clears the key slots 1 to 14 and the error log and brings LOCK into
force; a warm one keeps the slots, the mirror of T3, retired cores, and the newest records as pre-reset ones. -/
def Obligations.ResetsKeepWhatTheirKindKeeps : Prop :=
  (∀ (s : State) (k : ResetKind) (b : BootStage) (t : State), t = s.restart k b →
    t.jobs.list = [] ∧ t.ctx = State.reset.ctx ∧ t.tir.objs = [] ∧ t.counts = [] ∧ t.otl = State.reset.otl ∧
    t.prf = State.reset.prf ∧ t.tb = State.reset.tb ∧ t.regs = State.reset.regs ∧ t.eth = State.reset.eth ∧
    t.edge = 0 ∧ t.pending = s.pending ∧ t.glb.stage = b ∧ t.glb.lastReset = k ∧
    t.sec.revoked = s.sec.revoked ∧ t.sec.rollback = s.sec.rollback ∧ t.sec.lockOtp = s.sec.lockOtp ∧
    t.sec.firmware = s.sec.firmware ∧ t.sec.copies = s.sec.copies) ∧
  (∀ (s : State) (k : ResetKind) (b : BootStage), k = .coldPower ∨ k = .coldRegister →
    (s.restart k b).brn = State.reset.brn ∧ (s.restart k b).tir = State.reset.tir ∧
    (s.restart k b).sec.lock = s.sec.lockOtp ∧
    ∀ n, 1 ≤ n → n ≤ 14 → (s.restart k b).sec.slots.getD n {} = {}) ∧
  (∀ (s : State) (k : ResetKind) (b : BootStage), k = .warmPin ∨ k = .warmRegister →
    (s.restart k b).tir.mirror = s.tir.mirror ∧ (s.restart k b).sec.lock = s.sec.lock ∧
    (s.restart k b).brn.log = (s.brn.kept.map fun r => { r with preReset := true }).reverse ∧
    (s.restart k b).brn.coreRetired = s.brn.coreRetired ∧
    (∀ n, (s.core n).state = .retired → ((s.restart k b).core n).state = .retired) ∧
    (15 ≤ s.sec.slots.length →
      ∀ n, 1 ≤ n → n ≤ 14 → (s.restart k b).sec.slots.getD n {} = s.sec.slots.getD n {}))

/-- The steps of bring-up, each from the stage before it (R36, R97, R453, R454, R466, R474 to R477): PLLs, fuse map, MBIST,
training, firmware or its recovery, the boot Outline or outline recovery, jobs-ready. -/
def Obligations.BringUpRunsInOrder : Prop :=
  (∀ (s : State) (standby : Bool), s.glb.stage = .plls →
    exec (.pllLocked true standby) s = .next { s with glb := { s.glb with
      stage := .fuses
      pllSpare := standby && s.glb.pllSpare } }) ∧
  (∀ s : State, s.glb.stage = .plls → s.glb.pllSpare = true →
    exec (.pllLocked false true) s = .next { s with glb := { s.glb with
      stage := .fuses
      pllSpare := false
      pllOnStandby := true } }) ∧
  (∀ s : State, s.glb.stage = .fuses →
    ∃ t, exec .fuseMapLoaded s = .next t ∧ Only [.glb, .cores] s t ∧ t.glb = { s.glb with stage := .mbist } ∧
      ∀ n a, n < s.cores.length → a < 4 → s.glb.lastReset.warm = false →
        (t.core n).repair.getD a {} = repairOf (Config.fuseRepair n a)) ∧
  (∀ (s : State) (cores : List (Fin 36)) (ctrl : List (Fin 5)), s.glb.stage = .mbist →
    (∃ k, k < 5 ∧ k ∉ s.brn.ctrlRetired ∧ ∀ x ∈ ctrl, x.val ≠ k) →
    ∃ t, exec (.mbistDone cores ctrl) s = .next t ∧ Only [.glb, .cores, .brn, .plt] s t ∧ t.glb.stage = .training ∧
      (∀ n ∈ cores, n.val < s.cores.length → (t.core n).state = .retired) ∧
      (∀ n ∈ cores, t.brn.coreRetired.getLsbD n = true) ∧ (∀ x ∈ t.plt, x.powered = true ∧ x.ready = true) ∧
      t.brn.ctrlActive.length ≤ 4 ∧
      ∀ k ∈ t.brn.ctrlActive, k < 5 ∧ k ∉ s.brn.ctrlRetired ∧ ∀ x ∈ ctrl, x.val ≠ k) ∧
  (∀ (s : State) (failed : List Channel), s.glb.stage = .training →
    ∃ t, exec (.trainingDone failed) s = .next t ∧ t.glb.stage = .firmware ∧ (t.chn.t4Available = t.boardReady)) ∧
  (∀ (s : State) (v : Nat) (keys : List (Option (List Byte))), s.glb.stage = .firmware →
    s.sec.verify s.sec.firmware = some (v, keys) →
    ∃ t, exec .firmwareVerified s = .next t ∧ Only [.glb, .prf, .sec] s t ∧ t.glb.stage = .outline ∧
      t.sec = { s.sec with
        version := BitVec.ofNat 7 v
        keys := keys }) ∧
  (∀ s : State, s.glb.stage = .firmware → s.sec.verify s.sec.firmware = none →
    exec .firmwareVerified s = .next { s with glb := { s.glb with stage := .firmwareRecovery } }) ∧
  (∀ (s : State) (i : Fin 16) (tag : Word) (img : List Byte), s.glb.stage = .firmwareRecovery →
    (s.session i).open_ = true → (s.session i).part = none → (s.sec.verify img).isSome = true →
    ∃ t, exec (.recoveryImageLoad i tag img) s = .next t ∧ t.glb.stage = .plls ∧ t.sec.firmware = img ∧ t.edge = 0 ∧
      t.glb.lastReset.warm = true) ∧
  (∀ (s : State) (i : Fin 16) (tag : Word) (img : List Byte), s.glb.stage = .firmwareRecovery →
    (s.session i).open_ = true → (s.session i).part = none → s.sec.verify img = none →
    exec (.recoveryImageLoad i tag img) s = .next (State.sendTo i (.objReply tag 0x15) (s.delivered i))) ∧
  (∀ (s : State) (k : Nat) (o : Outline) (net : Option NetTable) (ws : List Word), s.glb.stage = .outline →
    s.sec.bootOrder.findSome? (fun k => (s.bootCheck k).map fun r => (k, r)) = some (k, o, net, ws) →
    ∃ t, exec .bootOutlineLoad s = .next t ∧ t.glb.stage = .booted ∧ t.otl.running = o ∧ t.otl.image = ws ∧
      t.otl.epoch = o.header.epoch ∧ t.otl.isBoot = true ∧ t.otl.state = .idle ∧ t.sec.copyInUse = some k ∧
      t.glb.bootEdge = s.edge) ∧
  (∀ s : State, s.glb.stage = .outline →
    s.sec.bootOrder.findSome? (fun k => (s.bootCheck k).map fun r => (k, r)) = none →
    ∃ t, exec .bootOutlineLoad s = .next t ∧ t.glb.stage = .outlineRecovery ∧ t.otl.epoch = 0 ∧ t.otl.state = .idle) ∧
  (∀ s : State, s.glb.stage = .booted →
    (s.netPort .uplink).enable = false ∨ (s.ethPort .uplink).link = true ∨ s.glb.bootEdge + 200 * edgesMs ≤ s.edge →
    ∃ t, exec .jobsReady s = .next t ∧ Only [.glb, .rgn, .cores, .clusters, .prf] s t ∧ t.glb.stage = .ready ∧
      t.glb.readyEdge = s.edge ∧ t.rgn = { s.rgn with firing := true } ∧
      t.glb.uplinkLate = !(s.ethPort .uplink).link)

/-! ## Completion -/

/-- The firings, Outline commands, planner commands and repairs complete: under conditions on the state and the operands
alone each answers a next state that holds the effect the manual gives it. Firings (R59, R62, R264, R383, R416, R428): a
group's SEQ rises, a rule set is busy for its bound, a gate list restarts, a fetch takes its reference or waits for the
common edge, a slice runs; a carried or a deferred firing launches, and an entry is disabled or enabled 16 edges on. The Outline (R81, R82, R84): staging, validation, arming and cancellation reach their states. The planner (R344): its
queries wait, start and end. Units (R437, R440): a core rejoins, a bank and a control core are retired. -/
def Obligations.FiringsImagesQueriesAndRepairsComplete : Prop :=
  (∀ (s : State) (e : BitVec 12) (r : RegEntry), s.Launches 4 e.toNat r →
    ∃ t, exec (.stylusLaunch e) s = .next t ∧ t.rgn = s.rgn.launched e.toNat ∧
      t.sty.groups.map (·.seq) = (s.sty.groups.modify r.arg.toNat fun x => { x with seq := x.seq + 1 }).map (·.seq)) ∧
  (∀ (s : State) (e : BitVec 12) (r : RegEntry) (rec : RuleSetRec), s.Launches 5 e.toNat r →
    (s.prf.sets.getD r.arg.toNat {}).busyUntil ≤ s.edge → s.ruleSet r.arg.toNat = some rec →
    r.arg.toNat < s.prf.sets.length →
    ∃ t, exec (.proofCheckLaunch e) s = .next t ∧ t.rgn = s.rgn.launched e.toNat ∧
      (t.prf.sets.getD r.arg.toNat {}).busyUntil = s.edge + rec.bound) ∧
  (∀ (s : State) (e : BitVec 12) (r : RegEntry), s.Launches 6 e.toNat r →
    ∃ t, exec (.ethGateAnchor e) s = .next t ∧ t.rgn = s.rgn.launched e.toNat ∧
      (portNum (portOf r.unit) < s.eth.ports.length →
        (t.ethPort (portOf r.unit)).gateIndex = 0 ∧ (t.ethPort (portOf r.unit)).gateEdge = s.edge)) ∧
  (∀ (s : State) (e : BitVec 12) (r : RegEntry) (p : PlaceEntry) (o : ObjVersion), s.Launches 7 e.toNat r →
    (s.rgn.tierWait.any fun x => x.1 = e.toNat) = false → s.edge % 5 = 0 →
    s.otl.running.places[r.arg.toNat]? = some p → (s.tir.tierRefs.all fun x => x.entry != some e.toNat) = true →
    s.newestOf p.part p.obj = some o → o.full = true → (s.tir.objs.filter (isVer o.part o.obj o.ver)) = [o] →
    ∃ t, exec (.tierPrefetch e) s = .next t ∧ t.rgn = s.rgn.launched e.toNat ∧
      t.tir.tierRefs = s.tir.tierRefs ++ [{ entry := some e.toNat, part := o.part, obj := o.obj, ver := o.ver }]) ∧
  (∀ (s : State) (e : BitVec 12) (r : RegEntry) (p : PlaceEntry), s.Launches 7 e.toNat r →
    (s.rgn.tierWait.any fun x => x.1 = e.toNat) = false → s.edge % 5 ≠ 0 →
    s.otl.running.places[r.arg.toNat]? = some p →
    ∃ t, exec (.tierPrefetch e) s = .next t ∧ t.rgn.tierWait = s.rgn.tierWait ++ [(e.toNat, p.part, p.obj)]) ∧
  (∀ (s : State) (e : BitVec 12) (r : RegEntry) (x : SelftestEntry), s.Launches 9 e.toNat r → r.action = 0 →
    s.sliceEntry r.unit = some x → r.unit ≠ 6 → (s.slice r.unit).running = false →
    (s.nextSafety (tickOf s.now + 1)).all (fun n => decide (tickOf s.now + x.sliceTicks ≤ n)) = true →
    ∃ t, exec (.selftestSlice e) s = .next t ∧ t.rgn = s.rgn.launched e.toNat ∧
      t.prf.slices = s.prf.slices.modify r.unit fun y =>
        { y with running := true, entry := e.toNat, endEdge := s.edge + x.sliceTicks }) ∧
  (∀ (s : State) (x : Int × Nat) (rest : List (Int × Nat)) (r : RegEntry), s.rgn.carried = x :: rest →
    s.placeFree = true → s.regEntry x.2 = some r → r.target = 8 → s.resetting r.part = false →
    ∃ t, exec .carriedFiringLaunch s = .next t ∧ t.rgn = { s.rgn with carried := rest, launches := s.rgn.launches + 1 }) ∧
  (∀ (s : State) (e : BitVec 12) (r : RegEntry) (m : TemplateRec), s.regEntry e.toNat = some r → r.target = 1 →
    s.placeFree = true → e.toNat ∈ s.rgn.deferred → s.rgn.carried = [] → s.entryJob e.toNat = false →
    s.resetting r.part = false → s.otl.running.templates[r.arg.toNat]? = some m →
    ∃ t, exec (.deferredFiringLaunch e) s = .next t ∧
      t.jobs.list.map (·.id) = s.jobs.list.map (·.id) ++ [s.jobs.nextId]) ∧
  (∀ (s : State) (v : Word) (r : RegEntry), s.regEntry (fld v 11 0) = some r → r.valid = true →
    s.entryProtected r = false →
    ∃ t u, exec (.rgnEntryDisable v) s = .next t ∧ exec (.rgnEntryEnable v) s = .next u ∧
      t.rgn.changes = s.rgn.changes ++ [(s.edge + 16, fld v 11 0, true)] ∧
      u.rgn.changes = s.rgn.changes ++ [(s.edge + 16, fld v 11 0, false)]) ∧
  (∀ (s : State) (v : Word), bit v 0 = true →
    s.otl.state = .idle ∨ s.otl.state = .staging ∨ s.otl.state = .valid ∨ s.otl.state = .rejected →
    ∃ t, exec (.otlStageBegin v) s = .next t ∧ t.otl.state = .staging ∧ t.otl.staging = [] ∧ t.otl.stagedWords = 0) ∧
  (∀ (s : State) (v : Word), bit v 0 = true → s.otl.state = .staging →
    ∃ t, exec (.otlValidate v) s = .next t ∧ t.otl.state = .validating) ∧
  (∀ s : State, s.otl.state = .validating →
    ∃ t, exec .validationDone s = .next t ∧ (t.otl.state = .valid ∧ t.otl.staged.isSome = true ∨
      t.otl.state = .rejected)) ∧
  (∀ (s : State) (v : Word) (o : Outline), bit v 0 = true → s.otl.state = .valid → s.otl.staged = some o →
    compactOk s.regs.commitTime = true → wholeH (compactNear s.regs.commitTime s.now) o.h = true →
    wholeH (compactNear s.regs.commitTime s.now) s.otl.running.h = true →
    s.now + 1000000 * unitsNs ≤ compactNear s.regs.commitTime s.now →
    ∃ t, exec (.otlCommitArm v) s = .next t ∧ t.otl.state = .armed ∧ t.rgn.epochTime = s.regs.commitTime) ∧
  (∀ (s : State) (v : Word), bit v 0 = true → s.otl.state ≠ .idle → s.otl.state ≠ .validating → s.lastMs = false →
    ∃ t, exec (.otlCancel v) s = .next t ∧ t.otl.state = .idle ∧ t.otl.staged = none) ∧
  (∀ (kind : QueryKind) (c : Instr) (s : State) (job : Word) (slot : Fin 32) (j : Job) (i : InFlight),
    (kind, c) ∈ [(QueryKind.search, Instr.planqSearch job slot), (.revalidate, .planqRevalidate job slot),
      (.readPlan, .planqReadPlan job slot), (.publish, .planqPublish job slot)] →
    s.Issued job slot 0x0F (fun d => fld ((j.queryWords slot d).getD 0 0) 1 0 = kind.code) j i →
    s.queryFail j slot i.desc = none →
    ∃ t, exec c s = .next t ∧ t.Waits job slot i i.work.tiles ∧
      t.xh.queue.length + t.xh.publishQueue.length = s.xh.queue.length + s.xh.publishQueue.length + 1) ∧
  (∀ (s : State) (q : Query) (l : List Query), s.xh.run = none → s.xh.retired = false →
    s.xh.queue.foldl (fun acc q => insertBy (fun a b : Query => s.marginBefore (a.job, a.slot) (b.job, b.slot)) q acc) [] =
      q :: l → q.kind = .search →
    ∃ t, exec .plannerQueryStart s = .next t ∧ t.xh.run.map (·.job) = some q.job) ∧
  (∀ (s : State) (q : Query) (j : Job) (i : InFlight), s.xh.run = some q → q.kind = .search → q.repairStart = none →
    q.budgetOver s.edge = true → q.genBound = s.xh.gen → s.job? q.job = some j → j.planFlight q.slot = some i →
    ∃ t, exec .searchBudgetExpire s = .next t ∧ t.xh.run = none) ∧
  (∀ (s : State) (q : Query) (j : Job) (i : InFlight), s.xh.run = some q → q.repairOver s.edge = true →
    s.job? q.job = some j → j.planFlight q.slot = some i →
    ∃ t, exec .repairBudgetExpire s = .next t ∧ t.xh.run = none) ∧
  (∀ (s : State) (q : Query) (j : Job) (i : InFlight) (r : SearchState) (n : Nat), s.xh.run = some q → q.kind = .search →
    q.repairStart = none → q.budgetOver s.edge = false →
    r = (s.searchIn q q.genBound).search (latState (q.w 1)) none → r.found = some n → q.genBound = s.xh.gen →
    (trace r.nodes r.nodes.length n).length ≤ ((s.otl.running.lattice.map (·.maxPlan)).getD 0) →
    s.job? q.job = some j → j.planFlight q.slot = some i →
    ∃ t, exec .searchEnd s = .next t ∧ t.xh.run = none) ∧
  (∀ (s : State) (q : Query) (j : Job), s.xh.run = some q → s.job? q.job = some j → j.state = .running →
    j.budget ≤ j.attempt →
    ∃ t, exec .plannerFault s = .next t ∧ ∀ x ∈ t.jobs.list, x.id ≠ q.job) ∧
  (∀ (s : State) (q : Query) (l : List Query), s.xh.publish = none → s.xh.retired = false →
    (s.xh.run.any fun x => (s.xh.buffer (1 - s.xh.current)).valid && x.genBound = (s.xh.buffer (1 - s.xh.current)).gen) =
      false → s.byDeadline s.xh.publishQueue = q :: l →
    ∃ t, exec .publishCopyStart s = .next t ∧ t.xh.publish.map (·.1.job) = some q.job) ∧
  (∀ (s : State) (q : Query) (j : Job), s.xh.publish = some (q, true) → s.job? q.job = some j →
    ∃ t x, exec .publishCopyDone s = .next t ∧ t.xh.publish = some (q, false) ∧ t.job? q.job = some x ∧
      x.journal.published = true) ∧
  (∀ (s : State) (n : Fin 36), (s.core n).diagnosing = true → (s.core n).retiring = false →
    ((s.core n).transients.filter fun e => decide (s.edge < e + edgesDay)).length < 2 →
    ∃ t, exec (.diagnosisDone n .noFault) s = .next t ∧ (t.core n).state = .idle ∧ (t.core n).diagnosing = false) ∧
  (∀ (s : State) (n : Fin 36), (s.core n).retiring = true → (s.core n).quiet = true →
    ∃ t, exec (.coreRetire (.core n)) s = .next t ∧ (t.core n).state = .retired) ∧
  (∀ (s : State) (k : Fin 4) (banks : List Nat), (s.plate k).powered = true →
    ∃ t, exec (.plateScrub k banks) s = .next t ∧ (t.plate k).lastScrub = s.edge) ∧
  (∀ (s : State) (k : Fin 4) (b : Nat), (s.plate k).powered = true → b < 168 → b ∉ (s.plate k).retired →
    16 ≤ ((s.plate k).corr.filter fun e => e.1 = b && decide (s.edge < e.2 + 160000000)).length →
    ∃ t u, exec (.plateCorrectedLimit k b) s = .next t ∧ exec (.plateUncorrectable k b) s = .next u ∧
      b ∈ (t.plate k).retired ∧ b ∈ (u.plate k).retired) ∧
  (∀ (s : State) (n : Fin 5) (spare : Nat), n.val ∈ s.brn.ctrlActive →
    (firstIdx 5 fun k => !(s.brn.ctrlActive.filter (· != n.val)).contains k &&
      !(s.brn.ctrlRetired ++ [n.val]).contains k) = some spare →
    ∃ t, exec (.ctrlWatchdogExpire n) s = .next t ∧ spare ∈ t.brn.ctrlActive ∧ n.val ∈ t.brn.ctrlRetired)
end

