-- ==== Sys2Proof/Laws/ByPass.lean ====
section
/-!
SUPPORT. Frames that the T7 queues or sends leave the by-pass and its instants as they are: what a choice of an
opening or closing instant fixes (R391 to R393) stands after the events and announcements that tell of it.
-/

-- One thread elaborates: many small proofs at once would ask for more memory than the check allows.
set_option Elab.async false

namespace Sys2Proof.Machine

open Sys2Proof

/-- The by-pass and its instants, apart from the ports, sessions and tables of the Ethernet block. -/
structure ByPassPart where
  bypass : BypassState
  attempts : BitVec 2
  openFail : Bool
  bypassTime : Compact
  instant : Option (Int × Bool)
  opening : Bool
  noReopen : Bool
  retryEdge : Nat
  announceEdge : Nat
deriving DecidableEq, Repr

/-- The by-pass of a state. -/
def State.byPass (s : State) : ByPassPart :=
  { bypass := s.eth.bypass, attempts := s.eth.attempts, openFail := s.eth.openFail, bypassTime := s.eth.bypassTime
    instant := s.eth.instant, opening := s.eth.opening, noReopen := s.eth.noReopen, retryEdge := s.eth.retryEdge
    announceEdge := s.eth.announceEdge }

theorem State.byPass_foldl {α : Type} (f : State → α → State) (h : ∀ s a, (f s a).byPass = s.byPass)
    (l : List α) (s : State) : (l.foldl f s).byPass = s.byPass := by
  induction l generalizing s with
  | nil => rfl
  | cons a l ih => exact (ih (f s a)).trans (h s a)

@[simp] theorem State.updPort_byPass (p : Port) (f : EthPort → EthPort) (s : State) :
    (s.updPort p f).byPass = s.byPass := rfl

@[simp] theorem State.updSession_byPass (i : Nat) (f : Session → Session) (s : State) :
    (s.updSession i f).byPass = s.byPass := rfl

@[simp] theorem State.queueFrame_byPass (p : Port) (f : TxFrame) (s : State) :
    (s.queueFrame p f).byPass = s.byPass := rfl

@[simp] theorem State.flush_byPass (i : Nat) (s : State) : (s.flush i).byPass = s.byPass := by
  unfold State.flush; dsimp only; split
  · rfl
  · rw [State.updSession_byPass]
    refine State.byPass_foldl _ ?_ _ _
    intro s f; rfl

@[simp] theorem State.sendTo_byPass (i : Nat) (b : LimBody) (s : State) : (s.sendTo i b).byPass = s.byPass := by
  unfold State.sendTo; split <;> simp

@[simp] theorem State.sendWhere_byPass (p : Session → Bool) (b : LimBody) (s : State) :
    (s.sendWhere p b).byPass = s.byPass := by
  unfold State.sendWhere
  exact State.byPass_foldl _ (fun s i => by split <;> simp) _ _

@[simp] theorem State.event_byPass (part : Option Nat) (code : Nat) (words : List Word) (s : State) :
    (s.event part code words).byPass = s.byPass := State.sendWhere_byPass _ _ _

@[simp] theorem State.lldp_byPass (p : Port) (s : State) : (s.lldp p).byPass = s.byPass := by
  unfold State.lldp State.sendLldp; dsimp only; (repeat' split) <;> simp

/-- What a choice of an instant leaves (R391, R393): the instant and its stamp; the announcements begin. -/
@[simp] theorem State.chooseInstant_byPass (o : Bool) (s : State) :
    (s.chooseInstant o).byPass = { s.byPass with
      instant := some (s.leadInstant, o), bypassTime := compactOf s.leadInstant, announceEdge := s.edge } := by
  unfold State.chooseInstant State.bypassEvent
  rw [State.lldp_byPass, State.lldp_byPass, State.event_byPass]; rfl

end Sys2Proof.Machine
end

