-- ==== Sys2Proof/Laws/Digest.lean ====
section
/-!
SUPPORT. SHA-384 evaluated on numbers over long runs of zeros, and the digest of a network table without an entry: the
kernel evaluates the 1,025 blocks of that table in this form.
-/

-- One thread elaborates: many small proofs at once would ask for more memory than the check allows.
set_option Elab.async false

namespace Sys2Proof.Laws

open Sys2Proof Sys2Proof.Machine

/-! ## SHA-384 over a long run of zeros, evaluated on numbers -/

/-- `f` of a number that is evaluated first, so that Lean's kernel carries no unevaluated words along. -/
def evaluated {α : Type} (x : Nat) (f : Nat → α) : α :=
  match x with
  | 0 => f 0
  | n + 1 => f n.succ

theorem evaluated_eq {α : Type} (x : Nat) (f : Nat → α) : evaluated x f = f x := by cases x <;> rfl

/-- A 64-bit word rotated right. -/
def rotated (r l x : Nat) : Nat := Nat.lor (Nat.shiftRight x r) (Nat.mod (Nat.shiftLeft x l) 0x10000000000000000)

/-- The two sums of a round. -/
def roundSums (a b c e f g h k : Nat) : Nat × Nat :=
  (Nat.add (Nat.add (Nat.add h (Nat.xor (Nat.xor (rotated 14 50 e) (rotated 18 46 e)) (rotated 41 23 e)))
      (Nat.xor (Nat.land e f) (Nat.land (Nat.sub 0xFFFFFFFFFFFFFFFF e) g))) k,
   Nat.add (Nat.xor (Nat.xor (rotated 28 36 a) (rotated 34 30 a)) (rotated 39 25 a))
     (Nat.xor (Nat.xor (Nat.land a b) (Nat.land a c)) (Nat.land b c)))

/-- The rounds of a block on numbers. -/
def quickRounds : List Nat → Nat → Nat → Nat → Nat → Nat → Nat → Nat → Nat → List Nat
  | [], a, b, c, d, e, f, g, h => [a, b, c, d, e, f, g, h]
  | k :: r, a, b, c, d, e, f, g, h =>
    evaluated (Nat.mod (Nat.add (roundSums a b c e f g h k).1 (roundSums a b c e f g h k).2) 0x10000000000000000) fun x =>
      evaluated (Nat.mod (Nat.add d (roundSums a b c e f g h k).1) 0x10000000000000000) fun y =>
        quickRounds r x a b c y e f g

theorem round_quick (v : List (BitVec 64)) (ks : List (BitVec 64)) : ∀ a b c d e f g h : BitVec 64,
    v = [a, b, c, d, e, f, g, h] → (ks.foldl shaRound v).map BitVec.toNat =
      quickRounds (ks.map BitVec.toNat) a.toNat b.toNat c.toNat d.toNat e.toNat f.toNat g.toNat h.toNat := by
  induction ks generalizing v with
  | nil => intro a b c d e f g h hv; subst hv; rfl
  | cons k r ih =>
    intro a b c d e f g h hv
    subst hv
    simp only [List.map_cons, quickRounds, evaluated_eq]
    rw [List.foldl_cons, shaRound, ih _ _ _ _ _ _ _ _ _ rfl]
    congr 1
    · simp only [shaSigma, BitVec.toNat_add, BitVec.toNat_xor, BitVec.toNat_and, BitVec.toNat_not,
        BitVec.toNat_rotateRight, roundSums, rotated]
      simp
      rfl
    · simp only [shaSigma, BitVec.toNat_add, BitVec.toNat_xor, BitVec.toNat_and, BitVec.toNat_not,
        BitVec.toNat_rotateRight, roundSums, rotated]
      simp
      rfl

/-- A block of zeros on numbers. -/
def quickZeros : List Nat → List Nat
  | [a, b, c, d, e, f, g, h] =>
    List.zipWith (fun x y => Nat.mod (Nat.add x y) 0x10000000000000000) [a, b, c, d, e, f, g, h]
      (quickRounds (shaConstants.map BitVec.toNat) a b c d e f g h)
  | _ => []

theorem shaRound_length (v : List (BitVec 64)) (k : BitVec 64) : (shaRound v k).length = v.length := by
  unfold shaRound
  split <;> rfl

theorem shaRounds_length (ks v : List (BitVec 64)) : (ks.foldl shaRound v).length = v.length := by
  induction ks generalizing v with
  | nil => rfl
  | cons k r ih => rw [List.foldl_cons, ih, shaRound_length]

theorem zeros_quick (v : List (BitVec 64)) (h : v.length = 8) :
    (shaBlock v (List.replicate 16 0)).length = 8 ∧
      (shaBlock v (List.replicate 16 0)).map BitVec.toNat = quickZeros (v.map BitVec.toNat) := by
  have hk : List.zipWith (· + ·) shaConstants (shaSchedule (List.replicate 16 0)).reverse = shaConstants := by
    decide +kernel
  refine ⟨by simp [shaBlock, shaRounds_length, h], ?_⟩
  match v, h with
  | [a, b, c, d, e, f, g, i], _ =>
    simp only [shaBlock, hk, List.map_cons, List.map_nil, quickZeros, ← round_quick _ _ _ _ _ _ _ _ _ _ rfl,
      List.map_zipWith, BitVec.toNat_add, List.zipWith_map_right]
    exact (List.zipWith_map (f := fun x y : Nat => (x + y) % 2 ^ 64) (g := BitVec.toNat) (h := BitVec.toNat)).symm

/-- The hash value after `n` blocks of zeros. -/
def afterZeros : Nat → List (BitVec 64) → List (BitVec 64)
  | 0, v => v
  | n + 1, v => afterZeros n (shaBlock v (List.replicate 16 0))

/-- The same on numbers. -/
def quickRun : Nat → List Nat → List Nat
  | 0, v => v
  | n + 1, v => quickRun n (quickZeros v)

theorem run_quick (n : Nat) (v : List (BitVec 64)) (h : v.length = 8) :
    (afterZeros n v).map BitVec.toNat = quickRun n (v.map BitVec.toNat) := by
  induction n generalizing v with
  | zero => rfl
  | succ n ih => rw [afterZeros, ih _ (zeros_quick v h).1, (zeros_quick v h).2, quickRun]

theorem quickRun_add (m n : Nat) (v : List Nat) : quickRun (m + n) v = quickRun n (quickRun m v) := by
  induction m generalizing v with
  | zero => rw [Nat.zero_add, quickRun]
  | succ m ih => rw [Nat.succ_add, quickRun, ih, quickRun]

theorem blocks_zeros (n m : Nat) (v : List (BitVec 64)) (r : List Byte) :
    shaBlocks (n + m) v (List.replicate (128 * n) 0 ++ r) = shaBlocks m (afterZeros n v) r := by
  induction n generalizing v with
  | zero => simp [afterZeros]
  | succ n ih =>
    have e : List.replicate (128 * (n + 1)) (0 : Byte) ++ r =
        List.replicate 128 0 ++ (List.replicate (128 * n) 0 ++ r) := by
      rw [← List.append_assoc, ← List.replicate_add]
      congr 2
      omega
    rw [e, Nat.succ_add, shaBlocks]
    exact ih _

/-- The bytes of a network table without an entry: its magic, then zeros (R380). -/
def tableBytes : List Byte := [0x54, 0x42, 0x54, 0x4E] ++ List.replicate (124 + (128 * 1023 + 64)) 0

/-- Their SHA-384 digest. -/
def tableDigest : List Byte := natBytesBE 48
  0x6cd4e529b3ed494b505443e018ed20aeb05d710564cc5118cfebbe03455ab0d9ff108c88f26f374f26bf533541dd7c6c

theorem run_0 : quickRun 128
    [0x9b135626f27b56a5, 0x96c5df1dcedf641f, 0x29e7bfdf5c0f6047, 0x797899927d4e42d9,
     0x13f81be02d9d8878, 0x18f68a1717873af6, 0x9e1bd19e8eef4b4a, 0x48d27e1ba110828e] =
    [0x7f7f769ddb8f2173, 0xff3f5ba9b4795291, 0x872515dae778e5b9, 0x9100a0406f5a13,
     0xdbd0b76a0c44e423, 0xdfb6d8742fd3369, 0xb243199c21f54944, 0x1e57e013009a8704] := by
  decide +kernel

theorem run_1 : quickRun 128
    [0x7f7f769ddb8f2173, 0xff3f5ba9b4795291, 0x872515dae778e5b9, 0x9100a0406f5a13,
     0xdbd0b76a0c44e423, 0xdfb6d8742fd3369, 0xb243199c21f54944, 0x1e57e013009a8704] =
    [0x6f5756e26641018f, 0xba8972555ac21e14, 0xee7a171bda23e429, 0x5d536609fdfb752c,
     0xc02306d186ff9a2a, 0xfeb0f6512cf4b86e, 0x51d381fd2e6b015, 0x702ccc4a3051d0f6] := by
  decide +kernel

theorem run_2 : quickRun 128
    [0x6f5756e26641018f, 0xba8972555ac21e14, 0xee7a171bda23e429, 0x5d536609fdfb752c,
     0xc02306d186ff9a2a, 0xfeb0f6512cf4b86e, 0x51d381fd2e6b015, 0x702ccc4a3051d0f6] =
    [0xcc065902e508f0bf, 0x88cc32e5735b269c, 0xc9179aea237fdcaf, 0x3fa3d1bbe75e5a09,
     0x2d5c0c68779d70d0, 0x4456c8a0de2ecec2, 0x3e9cf2fbe8cd2e94, 0xc4ca1cbe3abbaad3] := by
  decide +kernel

theorem run_3 : quickRun 128
    [0xcc065902e508f0bf, 0x88cc32e5735b269c, 0xc9179aea237fdcaf, 0x3fa3d1bbe75e5a09,
     0x2d5c0c68779d70d0, 0x4456c8a0de2ecec2, 0x3e9cf2fbe8cd2e94, 0xc4ca1cbe3abbaad3] =
    [0x9d93a2fa80966e39, 0x4f6552b7a94249b9, 0xa370b84a8f599779, 0x34b22657da5b3ad5,
     0xb40a9eda5905e144, 0x2cca3a88a14a8961, 0x4d37a18165f12dba, 0xfd26ae7b96b1184b] := by
  decide +kernel

theorem run_4 : quickRun 128
    [0x9d93a2fa80966e39, 0x4f6552b7a94249b9, 0xa370b84a8f599779, 0x34b22657da5b3ad5,
     0xb40a9eda5905e144, 0x2cca3a88a14a8961, 0x4d37a18165f12dba, 0xfd26ae7b96b1184b] =
    [0x73be474ad3fa8bd6, 0x97d268286730b1dc, 0xca36d4841a05f1b4, 0xf9744b0da4196f06,
     0xcd885386446d94fb, 0xf25be1dc1860ddf6, 0xaf00805e0a5435f5, 0xdaa31f61956501e] := by
  decide +kernel

theorem run_5 : quickRun 128
    [0x73be474ad3fa8bd6, 0x97d268286730b1dc, 0xca36d4841a05f1b4, 0xf9744b0da4196f06,
     0xcd885386446d94fb, 0xf25be1dc1860ddf6, 0xaf00805e0a5435f5, 0xdaa31f61956501e] =
    [0xcd49181f7b274daf, 0x3de327b740fb302a, 0xbc5fcffa5f0b7a35, 0xfdcc037f97072428,
     0x9a192459137fe439, 0xe0ac05b41ba19595, 0x4845a1cd2c470b9d, 0xde8f656b74c220c0] := by
  decide +kernel

theorem run_6 : quickRun 128
    [0xcd49181f7b274daf, 0x3de327b740fb302a, 0xbc5fcffa5f0b7a35, 0xfdcc037f97072428,
     0x9a192459137fe439, 0xe0ac05b41ba19595, 0x4845a1cd2c470b9d, 0xde8f656b74c220c0] =
    [0xa00dbbe953dd2300, 0xa05e104667d660cf, 0x71d1263bda556261, 0x73043c0b89fcb8bf,
     0x65ca9a2d2d32ff80, 0x333978422de12975, 0x181779bea87cbe44, 0x3e27677151cf84e9] := by
  decide +kernel

theorem run_7 : quickRun 127
    [0xa00dbbe953dd2300, 0xa05e104667d660cf, 0x71d1263bda556261, 0x73043c0b89fcb8bf,
     0x65ca9a2d2d32ff80, 0x333978422de12975, 0x181779bea87cbe44, 0x3e27677151cf84e9] =
    [0x180d7ea344937e7a, 0xae145c925dd8a391, 0x6367ba19b07fe3d6, 0x65e9a78a566ec4af,
     0x68e57c060873b063, 0x33ce76eab9db3b17, 0x7de94bffdd9effee, 0xdd6de040a0eaaecb] := by
  decide +kernel

theorem table_run : quickRun 1023
    [0x9b135626f27b56a5, 0x96c5df1dcedf641f, 0x29e7bfdf5c0f6047, 0x797899927d4e42d9,
     0x13f81be02d9d8878, 0x18f68a1717873af6, 0x9e1bd19e8eef4b4a, 0x48d27e1ba110828e] =
    [0x180d7ea344937e7a, 0xae145c925dd8a391, 0x6367ba19b07fe3d6, 0x65e9a78a566ec4af,
     0x68e57c060873b063, 0x33ce76eab9db3b17, 0x7de94bffdd9effee, 0xdd6de040a0eaaecb] := by
  rw [show 1023 = 128 + (128 + (128 + (128 + (128 + (128 + (128 + 127)))))) from rfl]
  simp only [quickRun_add, run_0, run_1, run_2, run_3, run_4, run_5, run_6, run_7]

/-- The first block of the table. -/
def tableHead : List Byte := [0x54, 0x42, 0x54, 0x4E] ++ List.replicate 124 0

set_option maxRecDepth 20000 in
theorem blocks_head (n : Nat) (v : List (BitVec 64)) (r : List Byte) : shaBlocks (n + 1) v (tableHead ++ r) =
    shaBlocks n (shaBlock v ((List.range 16).map fun k => BitVec.ofNat 64 (beNat ((tableHead.drop (8 * k)).take 8)))) r :=
  rfl

theorem head_hash : shaBlock shaInitial ((List.range 16).map fun k => BitVec.ofNat 64 (beNat
    ((tableHead.drop (8 * k)).take 8))) = List.map (BitVec.ofNat 64)
      [0x9b135626f27b56a5, 0x96c5df1dcedf641f, 0x29e7bfdf5c0f6047, 0x797899927d4e42d9,
     0x13f81be02d9d8878, 0x18f68a1717873af6, 0x9e1bd19e8eef4b4a, 0x48d27e1ba110828e] := by
  decide +kernel

theorem zeros_hash : afterZeros 1023 (List.map (BitVec.ofNat 64)
      [0x9b135626f27b56a5, 0x96c5df1dcedf641f, 0x29e7bfdf5c0f6047, 0x797899927d4e42d9,
     0x13f81be02d9d8878, 0x18f68a1717873af6, 0x9e1bd19e8eef4b4a, 0x48d27e1ba110828e]) = List.map (BitVec.ofNat 64)
      [0x180d7ea344937e7a, 0xae145c925dd8a391, 0x6367ba19b07fe3d6, 0x65e9a78a566ec4af,
     0x68e57c060873b063, 0x33ce76eab9db3b17, 0x7de94bffdd9effee, 0xdd6de040a0eaaecb] := by
  apply List.map_injective_iff.mpr (fun _ _ => BitVec.eq_of_toNat_eq)
  rw [run_quick _ _ rfl]
  exact table_run

/-- Bytes regrouped. -/
theorem append_cut (h a b c r : List Byte) : (h ++ (a ++ (b ++ c))) ++ r = (h ++ a) ++ (b ++ (c ++ r)) := by
  simp only [List.append_assoc]

theorem table_padded (r : List Byte) :
    tableBytes ++ r = tableHead ++ (List.replicate (128 * 1023) 0 ++ (List.replicate 64 0 ++ r)) := by
  unfold tableBytes tableHead
  rw [List.replicate_add, List.replicate_add]
  exact append_cut _ _ _ _ _

theorem table_digest : sha384 tableBytes = tableDigest := by
  have hl : tableBytes.length = 131136 := by rw [tableBytes, List.length_append, List.length_replicate]; rfl
  unfold sha384
  simp only [hl, List.append_assoc, table_padded, -List.reduceReplicate]
  rw [show (131136 + 17 + 127) / 128 = 1023 + 1 + 1 from rfl, blocks_head, head_hash, blocks_zeros, zeros_hash]
  decide +kernel

end Sys2Proof.Laws
end

