-- ==== Sys2Proof/Laws/State.lean ====
section
/-!
SUPPORT. What each update of one block leaves of the state: one lemma for each field and each update, so that no
proof unfolds a record update.
-/

-- One thread elaborates: many small proofs at once would ask for more memory than the check allows.
set_option Elab.async false

namespace Sys2Proof.Machine

/-! ### updRegs -/

section
variable (f : HostRegs → HostRegs) (s : State)
@[simp] theorem State.updRegs_pending : (s.updRegs f).pending = s.pending := (rfl)
@[simp] theorem State.updRegs_edge : (s.updRegs f).edge = s.edge := (rfl)
@[simp] theorem State.updRegs_fresh : (s.updRegs f).fresh = s.fresh := (rfl)
@[simp] theorem State.updRegs_counts : (s.updRegs f).counts = s.counts := (rfl)
@[simp] theorem State.updRegs_regs : (s.updRegs f).regs = f s.regs := (rfl)
@[simp] theorem State.updRegs_glb : (s.updRegs f).glb = s.glb := (rfl)
@[simp] theorem State.updRegs_tb : (s.updRegs f).tb = s.tb := (rfl)
@[simp] theorem State.updRegs_rgn : (s.updRegs f).rgn = s.rgn := (rfl)
@[simp] theorem State.updRegs_otl : (s.updRegs f).otl = s.otl := (rfl)
@[simp] theorem State.updRegs_cores : (s.updRegs f).cores = s.cores := (rfl)
@[simp] theorem State.updRegs_clusters : (s.updRegs f).clusters = s.clusters := (rfl)
@[simp] theorem State.updRegs_jobs : (s.updRegs f).jobs = s.jobs := (rfl)
@[simp] theorem State.updRegs_ctx : (s.updRegs f).ctx = s.ctx := (rfl)
@[simp] theorem State.updRegs_tir : (s.updRegs f).tir = s.tir := (rfl)
@[simp] theorem State.updRegs_chn : (s.updRegs f).chn = s.chn := (rfl)
@[simp] theorem State.updRegs_lnw : (s.updRegs f).lnw = s.lnw := (rfl)
@[simp] theorem State.updRegs_ing : (s.updRegs f).ing = s.ing := (rfl)
@[simp] theorem State.updRegs_trc : (s.updRegs f).trc = s.trc := (rfl)
@[simp] theorem State.updRegs_xh : (s.updRegs f).xh = s.xh := (rfl)
@[simp] theorem State.updRegs_sty : (s.updRegs f).sty = s.sty := (rfl)
@[simp] theorem State.updRegs_eth : (s.updRegs f).eth = s.eth := (rfl)
@[simp] theorem State.updRegs_prf : (s.updRegs f).prf = s.prf := (rfl)
@[simp] theorem State.updRegs_brn : (s.updRegs f).brn = s.brn := (rfl)
@[simp] theorem State.updRegs_sec : (s.updRegs f).sec = s.sec := (rfl)
@[simp] theorem State.updRegs_plt : (s.updRegs f).plt = s.plt := (rfl)
end

/-! ### updGlb -/

section
variable (f : Glb → Glb) (s : State)
@[simp] theorem State.updGlb_pending : (s.updGlb f).pending = s.pending := (rfl)
@[simp] theorem State.updGlb_edge : (s.updGlb f).edge = s.edge := (rfl)
@[simp] theorem State.updGlb_fresh : (s.updGlb f).fresh = s.fresh := (rfl)
@[simp] theorem State.updGlb_counts : (s.updGlb f).counts = s.counts := (rfl)
@[simp] theorem State.updGlb_regs : (s.updGlb f).regs = s.regs := (rfl)
@[simp] theorem State.updGlb_glb : (s.updGlb f).glb = f s.glb := (rfl)
@[simp] theorem State.updGlb_tb : (s.updGlb f).tb = s.tb := (rfl)
@[simp] theorem State.updGlb_rgn : (s.updGlb f).rgn = s.rgn := (rfl)
@[simp] theorem State.updGlb_otl : (s.updGlb f).otl = s.otl := (rfl)
@[simp] theorem State.updGlb_cores : (s.updGlb f).cores = s.cores := (rfl)
@[simp] theorem State.updGlb_clusters : (s.updGlb f).clusters = s.clusters := (rfl)
@[simp] theorem State.updGlb_jobs : (s.updGlb f).jobs = s.jobs := (rfl)
@[simp] theorem State.updGlb_ctx : (s.updGlb f).ctx = s.ctx := (rfl)
@[simp] theorem State.updGlb_tir : (s.updGlb f).tir = s.tir := (rfl)
@[simp] theorem State.updGlb_chn : (s.updGlb f).chn = s.chn := (rfl)
@[simp] theorem State.updGlb_lnw : (s.updGlb f).lnw = s.lnw := (rfl)
@[simp] theorem State.updGlb_ing : (s.updGlb f).ing = s.ing := (rfl)
@[simp] theorem State.updGlb_trc : (s.updGlb f).trc = s.trc := (rfl)
@[simp] theorem State.updGlb_xh : (s.updGlb f).xh = s.xh := (rfl)
@[simp] theorem State.updGlb_sty : (s.updGlb f).sty = s.sty := (rfl)
@[simp] theorem State.updGlb_eth : (s.updGlb f).eth = s.eth := (rfl)
@[simp] theorem State.updGlb_prf : (s.updGlb f).prf = s.prf := (rfl)
@[simp] theorem State.updGlb_brn : (s.updGlb f).brn = s.brn := (rfl)
@[simp] theorem State.updGlb_sec : (s.updGlb f).sec = s.sec := (rfl)
@[simp] theorem State.updGlb_plt : (s.updGlb f).plt = s.plt := (rfl)
end

/-! ### updTb -/

section
variable (f : Tb → Tb) (s : State)
@[simp] theorem State.updTb_pending : (s.updTb f).pending = s.pending := (rfl)
@[simp] theorem State.updTb_edge : (s.updTb f).edge = s.edge := (rfl)
@[simp] theorem State.updTb_fresh : (s.updTb f).fresh = s.fresh := (rfl)
@[simp] theorem State.updTb_counts : (s.updTb f).counts = s.counts := (rfl)
@[simp] theorem State.updTb_regs : (s.updTb f).regs = s.regs := (rfl)
@[simp] theorem State.updTb_glb : (s.updTb f).glb = s.glb := (rfl)
@[simp] theorem State.updTb_tb : (s.updTb f).tb = f s.tb := (rfl)
@[simp] theorem State.updTb_rgn : (s.updTb f).rgn = s.rgn := (rfl)
@[simp] theorem State.updTb_otl : (s.updTb f).otl = s.otl := (rfl)
@[simp] theorem State.updTb_cores : (s.updTb f).cores = s.cores := (rfl)
@[simp] theorem State.updTb_clusters : (s.updTb f).clusters = s.clusters := (rfl)
@[simp] theorem State.updTb_jobs : (s.updTb f).jobs = s.jobs := (rfl)
@[simp] theorem State.updTb_ctx : (s.updTb f).ctx = s.ctx := (rfl)
@[simp] theorem State.updTb_tir : (s.updTb f).tir = s.tir := (rfl)
@[simp] theorem State.updTb_chn : (s.updTb f).chn = s.chn := (rfl)
@[simp] theorem State.updTb_lnw : (s.updTb f).lnw = s.lnw := (rfl)
@[simp] theorem State.updTb_ing : (s.updTb f).ing = s.ing := (rfl)
@[simp] theorem State.updTb_trc : (s.updTb f).trc = s.trc := (rfl)
@[simp] theorem State.updTb_xh : (s.updTb f).xh = s.xh := (rfl)
@[simp] theorem State.updTb_sty : (s.updTb f).sty = s.sty := (rfl)
@[simp] theorem State.updTb_eth : (s.updTb f).eth = s.eth := (rfl)
@[simp] theorem State.updTb_prf : (s.updTb f).prf = s.prf := (rfl)
@[simp] theorem State.updTb_brn : (s.updTb f).brn = s.brn := (rfl)
@[simp] theorem State.updTb_sec : (s.updTb f).sec = s.sec := (rfl)
@[simp] theorem State.updTb_plt : (s.updTb f).plt = s.plt := (rfl)
end

/-! ### updRgn -/

section
variable (f : Rgn → Rgn) (s : State)
@[simp] theorem State.updRgn_pending : (s.updRgn f).pending = s.pending := (rfl)
@[simp] theorem State.updRgn_edge : (s.updRgn f).edge = s.edge := (rfl)
@[simp] theorem State.updRgn_fresh : (s.updRgn f).fresh = s.fresh := (rfl)
@[simp] theorem State.updRgn_counts : (s.updRgn f).counts = s.counts := (rfl)
@[simp] theorem State.updRgn_regs : (s.updRgn f).regs = s.regs := (rfl)
@[simp] theorem State.updRgn_glb : (s.updRgn f).glb = s.glb := (rfl)
@[simp] theorem State.updRgn_tb : (s.updRgn f).tb = s.tb := (rfl)
@[simp] theorem State.updRgn_rgn : (s.updRgn f).rgn = f s.rgn := (rfl)
@[simp] theorem State.updRgn_otl : (s.updRgn f).otl = s.otl := (rfl)
@[simp] theorem State.updRgn_cores : (s.updRgn f).cores = s.cores := (rfl)
@[simp] theorem State.updRgn_clusters : (s.updRgn f).clusters = s.clusters := (rfl)
@[simp] theorem State.updRgn_jobs : (s.updRgn f).jobs = s.jobs := (rfl)
@[simp] theorem State.updRgn_ctx : (s.updRgn f).ctx = s.ctx := (rfl)
@[simp] theorem State.updRgn_tir : (s.updRgn f).tir = s.tir := (rfl)
@[simp] theorem State.updRgn_chn : (s.updRgn f).chn = s.chn := (rfl)
@[simp] theorem State.updRgn_lnw : (s.updRgn f).lnw = s.lnw := (rfl)
@[simp] theorem State.updRgn_ing : (s.updRgn f).ing = s.ing := (rfl)
@[simp] theorem State.updRgn_trc : (s.updRgn f).trc = s.trc := (rfl)
@[simp] theorem State.updRgn_xh : (s.updRgn f).xh = s.xh := (rfl)
@[simp] theorem State.updRgn_sty : (s.updRgn f).sty = s.sty := (rfl)
@[simp] theorem State.updRgn_eth : (s.updRgn f).eth = s.eth := (rfl)
@[simp] theorem State.updRgn_prf : (s.updRgn f).prf = s.prf := (rfl)
@[simp] theorem State.updRgn_brn : (s.updRgn f).brn = s.brn := (rfl)
@[simp] theorem State.updRgn_sec : (s.updRgn f).sec = s.sec := (rfl)
@[simp] theorem State.updRgn_plt : (s.updRgn f).plt = s.plt := (rfl)
end

/-! ### updOtl -/

section
variable (f : Otl → Otl) (s : State)
@[simp] theorem State.updOtl_pending : (s.updOtl f).pending = s.pending := (rfl)
@[simp] theorem State.updOtl_edge : (s.updOtl f).edge = s.edge := (rfl)
@[simp] theorem State.updOtl_fresh : (s.updOtl f).fresh = s.fresh := (rfl)
@[simp] theorem State.updOtl_counts : (s.updOtl f).counts = s.counts := (rfl)
@[simp] theorem State.updOtl_regs : (s.updOtl f).regs = s.regs := (rfl)
@[simp] theorem State.updOtl_glb : (s.updOtl f).glb = s.glb := (rfl)
@[simp] theorem State.updOtl_tb : (s.updOtl f).tb = s.tb := (rfl)
@[simp] theorem State.updOtl_rgn : (s.updOtl f).rgn = s.rgn := (rfl)
@[simp] theorem State.updOtl_otl : (s.updOtl f).otl = f s.otl := (rfl)
@[simp] theorem State.updOtl_cores : (s.updOtl f).cores = s.cores := (rfl)
@[simp] theorem State.updOtl_clusters : (s.updOtl f).clusters = s.clusters := (rfl)
@[simp] theorem State.updOtl_jobs : (s.updOtl f).jobs = s.jobs := (rfl)
@[simp] theorem State.updOtl_ctx : (s.updOtl f).ctx = s.ctx := (rfl)
@[simp] theorem State.updOtl_tir : (s.updOtl f).tir = s.tir := (rfl)
@[simp] theorem State.updOtl_chn : (s.updOtl f).chn = s.chn := (rfl)
@[simp] theorem State.updOtl_lnw : (s.updOtl f).lnw = s.lnw := (rfl)
@[simp] theorem State.updOtl_ing : (s.updOtl f).ing = s.ing := (rfl)
@[simp] theorem State.updOtl_trc : (s.updOtl f).trc = s.trc := (rfl)
@[simp] theorem State.updOtl_xh : (s.updOtl f).xh = s.xh := (rfl)
@[simp] theorem State.updOtl_sty : (s.updOtl f).sty = s.sty := (rfl)
@[simp] theorem State.updOtl_eth : (s.updOtl f).eth = s.eth := (rfl)
@[simp] theorem State.updOtl_prf : (s.updOtl f).prf = s.prf := (rfl)
@[simp] theorem State.updOtl_brn : (s.updOtl f).brn = s.brn := (rfl)
@[simp] theorem State.updOtl_sec : (s.updOtl f).sec = s.sec := (rfl)
@[simp] theorem State.updOtl_plt : (s.updOtl f).plt = s.plt := (rfl)
end

/-! ### updCores -/

section
variable (f : List Core → List Core) (s : State)
@[simp] theorem State.updCores_pending : (s.updCores f).pending = s.pending := (rfl)
@[simp] theorem State.updCores_edge : (s.updCores f).edge = s.edge := (rfl)
@[simp] theorem State.updCores_fresh : (s.updCores f).fresh = s.fresh := (rfl)
@[simp] theorem State.updCores_counts : (s.updCores f).counts = s.counts := (rfl)
@[simp] theorem State.updCores_regs : (s.updCores f).regs = s.regs := (rfl)
@[simp] theorem State.updCores_glb : (s.updCores f).glb = s.glb := (rfl)
@[simp] theorem State.updCores_tb : (s.updCores f).tb = s.tb := (rfl)
@[simp] theorem State.updCores_rgn : (s.updCores f).rgn = s.rgn := (rfl)
@[simp] theorem State.updCores_otl : (s.updCores f).otl = s.otl := (rfl)
@[simp] theorem State.updCores_cores : (s.updCores f).cores = f s.cores := (rfl)
@[simp] theorem State.updCores_clusters : (s.updCores f).clusters = s.clusters := (rfl)
@[simp] theorem State.updCores_jobs : (s.updCores f).jobs = s.jobs := (rfl)
@[simp] theorem State.updCores_ctx : (s.updCores f).ctx = s.ctx := (rfl)
@[simp] theorem State.updCores_tir : (s.updCores f).tir = s.tir := (rfl)
@[simp] theorem State.updCores_chn : (s.updCores f).chn = s.chn := (rfl)
@[simp] theorem State.updCores_lnw : (s.updCores f).lnw = s.lnw := (rfl)
@[simp] theorem State.updCores_ing : (s.updCores f).ing = s.ing := (rfl)
@[simp] theorem State.updCores_trc : (s.updCores f).trc = s.trc := (rfl)
@[simp] theorem State.updCores_xh : (s.updCores f).xh = s.xh := (rfl)
@[simp] theorem State.updCores_sty : (s.updCores f).sty = s.sty := (rfl)
@[simp] theorem State.updCores_eth : (s.updCores f).eth = s.eth := (rfl)
@[simp] theorem State.updCores_prf : (s.updCores f).prf = s.prf := (rfl)
@[simp] theorem State.updCores_brn : (s.updCores f).brn = s.brn := (rfl)
@[simp] theorem State.updCores_sec : (s.updCores f).sec = s.sec := (rfl)
@[simp] theorem State.updCores_plt : (s.updCores f).plt = s.plt := (rfl)
end

/-! ### updClusters -/

section
variable (f : List Cluster → List Cluster) (s : State)
@[simp] theorem State.updClusters_pending : (s.updClusters f).pending = s.pending := (rfl)
@[simp] theorem State.updClusters_edge : (s.updClusters f).edge = s.edge := (rfl)
@[simp] theorem State.updClusters_fresh : (s.updClusters f).fresh = s.fresh := (rfl)
@[simp] theorem State.updClusters_counts : (s.updClusters f).counts = s.counts := (rfl)
@[simp] theorem State.updClusters_regs : (s.updClusters f).regs = s.regs := (rfl)
@[simp] theorem State.updClusters_glb : (s.updClusters f).glb = s.glb := (rfl)
@[simp] theorem State.updClusters_tb : (s.updClusters f).tb = s.tb := (rfl)
@[simp] theorem State.updClusters_rgn : (s.updClusters f).rgn = s.rgn := (rfl)
@[simp] theorem State.updClusters_otl : (s.updClusters f).otl = s.otl := (rfl)
@[simp] theorem State.updClusters_cores : (s.updClusters f).cores = s.cores := (rfl)
@[simp] theorem State.updClusters_clusters : (s.updClusters f).clusters = f s.clusters := (rfl)
@[simp] theorem State.updClusters_jobs : (s.updClusters f).jobs = s.jobs := (rfl)
@[simp] theorem State.updClusters_ctx : (s.updClusters f).ctx = s.ctx := (rfl)
@[simp] theorem State.updClusters_tir : (s.updClusters f).tir = s.tir := (rfl)
@[simp] theorem State.updClusters_chn : (s.updClusters f).chn = s.chn := (rfl)
@[simp] theorem State.updClusters_lnw : (s.updClusters f).lnw = s.lnw := (rfl)
@[simp] theorem State.updClusters_ing : (s.updClusters f).ing = s.ing := (rfl)
@[simp] theorem State.updClusters_trc : (s.updClusters f).trc = s.trc := (rfl)
@[simp] theorem State.updClusters_xh : (s.updClusters f).xh = s.xh := (rfl)
@[simp] theorem State.updClusters_sty : (s.updClusters f).sty = s.sty := (rfl)
@[simp] theorem State.updClusters_eth : (s.updClusters f).eth = s.eth := (rfl)
@[simp] theorem State.updClusters_prf : (s.updClusters f).prf = s.prf := (rfl)
@[simp] theorem State.updClusters_brn : (s.updClusters f).brn = s.brn := (rfl)
@[simp] theorem State.updClusters_sec : (s.updClusters f).sec = s.sec := (rfl)
@[simp] theorem State.updClusters_plt : (s.updClusters f).plt = s.plt := (rfl)
end

/-! ### updJobs -/

section
variable (f : Jobs → Jobs) (s : State)
@[simp] theorem State.updJobs_pending : (s.updJobs f).pending = s.pending := (rfl)
@[simp] theorem State.updJobs_edge : (s.updJobs f).edge = s.edge := (rfl)
@[simp] theorem State.updJobs_fresh : (s.updJobs f).fresh = s.fresh := (rfl)
@[simp] theorem State.updJobs_counts : (s.updJobs f).counts = s.counts := (rfl)
@[simp] theorem State.updJobs_regs : (s.updJobs f).regs = s.regs := (rfl)
@[simp] theorem State.updJobs_glb : (s.updJobs f).glb = s.glb := (rfl)
@[simp] theorem State.updJobs_tb : (s.updJobs f).tb = s.tb := (rfl)
@[simp] theorem State.updJobs_rgn : (s.updJobs f).rgn = s.rgn := (rfl)
@[simp] theorem State.updJobs_otl : (s.updJobs f).otl = s.otl := (rfl)
@[simp] theorem State.updJobs_cores : (s.updJobs f).cores = s.cores := (rfl)
@[simp] theorem State.updJobs_clusters : (s.updJobs f).clusters = s.clusters := (rfl)
@[simp] theorem State.updJobs_jobs : (s.updJobs f).jobs = f s.jobs := (rfl)
@[simp] theorem State.updJobs_ctx : (s.updJobs f).ctx = s.ctx := (rfl)
@[simp] theorem State.updJobs_tir : (s.updJobs f).tir = s.tir := (rfl)
@[simp] theorem State.updJobs_chn : (s.updJobs f).chn = s.chn := (rfl)
@[simp] theorem State.updJobs_lnw : (s.updJobs f).lnw = s.lnw := (rfl)
@[simp] theorem State.updJobs_ing : (s.updJobs f).ing = s.ing := (rfl)
@[simp] theorem State.updJobs_trc : (s.updJobs f).trc = s.trc := (rfl)
@[simp] theorem State.updJobs_xh : (s.updJobs f).xh = s.xh := (rfl)
@[simp] theorem State.updJobs_sty : (s.updJobs f).sty = s.sty := (rfl)
@[simp] theorem State.updJobs_eth : (s.updJobs f).eth = s.eth := (rfl)
@[simp] theorem State.updJobs_prf : (s.updJobs f).prf = s.prf := (rfl)
@[simp] theorem State.updJobs_brn : (s.updJobs f).brn = s.brn := (rfl)
@[simp] theorem State.updJobs_sec : (s.updJobs f).sec = s.sec := (rfl)
@[simp] theorem State.updJobs_plt : (s.updJobs f).plt = s.plt := (rfl)
end

/-! ### updCtx -/

section
variable (f : CtxMgr → CtxMgr) (s : State)
@[simp] theorem State.updCtx_pending : (s.updCtx f).pending = s.pending := (rfl)
@[simp] theorem State.updCtx_edge : (s.updCtx f).edge = s.edge := (rfl)
@[simp] theorem State.updCtx_fresh : (s.updCtx f).fresh = s.fresh := (rfl)
@[simp] theorem State.updCtx_counts : (s.updCtx f).counts = s.counts := (rfl)
@[simp] theorem State.updCtx_regs : (s.updCtx f).regs = s.regs := (rfl)
@[simp] theorem State.updCtx_glb : (s.updCtx f).glb = s.glb := (rfl)
@[simp] theorem State.updCtx_tb : (s.updCtx f).tb = s.tb := (rfl)
@[simp] theorem State.updCtx_rgn : (s.updCtx f).rgn = s.rgn := (rfl)
@[simp] theorem State.updCtx_otl : (s.updCtx f).otl = s.otl := (rfl)
@[simp] theorem State.updCtx_cores : (s.updCtx f).cores = s.cores := (rfl)
@[simp] theorem State.updCtx_clusters : (s.updCtx f).clusters = s.clusters := (rfl)
@[simp] theorem State.updCtx_jobs : (s.updCtx f).jobs = s.jobs := (rfl)
@[simp] theorem State.updCtx_ctx : (s.updCtx f).ctx = f s.ctx := (rfl)
@[simp] theorem State.updCtx_tir : (s.updCtx f).tir = s.tir := (rfl)
@[simp] theorem State.updCtx_chn : (s.updCtx f).chn = s.chn := (rfl)
@[simp] theorem State.updCtx_lnw : (s.updCtx f).lnw = s.lnw := (rfl)
@[simp] theorem State.updCtx_ing : (s.updCtx f).ing = s.ing := (rfl)
@[simp] theorem State.updCtx_trc : (s.updCtx f).trc = s.trc := (rfl)
@[simp] theorem State.updCtx_xh : (s.updCtx f).xh = s.xh := (rfl)
@[simp] theorem State.updCtx_sty : (s.updCtx f).sty = s.sty := (rfl)
@[simp] theorem State.updCtx_eth : (s.updCtx f).eth = s.eth := (rfl)
@[simp] theorem State.updCtx_prf : (s.updCtx f).prf = s.prf := (rfl)
@[simp] theorem State.updCtx_brn : (s.updCtx f).brn = s.brn := (rfl)
@[simp] theorem State.updCtx_sec : (s.updCtx f).sec = s.sec := (rfl)
@[simp] theorem State.updCtx_plt : (s.updCtx f).plt = s.plt := (rfl)
end

/-! ### updTir -/

section
variable (f : Tir → Tir) (s : State)
@[simp] theorem State.updTir_pending : (s.updTir f).pending = s.pending := (rfl)
@[simp] theorem State.updTir_edge : (s.updTir f).edge = s.edge := (rfl)
@[simp] theorem State.updTir_fresh : (s.updTir f).fresh = s.fresh := (rfl)
@[simp] theorem State.updTir_counts : (s.updTir f).counts = s.counts := (rfl)
@[simp] theorem State.updTir_regs : (s.updTir f).regs = s.regs := (rfl)
@[simp] theorem State.updTir_glb : (s.updTir f).glb = s.glb := (rfl)
@[simp] theorem State.updTir_tb : (s.updTir f).tb = s.tb := (rfl)
@[simp] theorem State.updTir_rgn : (s.updTir f).rgn = s.rgn := (rfl)
@[simp] theorem State.updTir_otl : (s.updTir f).otl = s.otl := (rfl)
@[simp] theorem State.updTir_cores : (s.updTir f).cores = s.cores := (rfl)
@[simp] theorem State.updTir_clusters : (s.updTir f).clusters = s.clusters := (rfl)
@[simp] theorem State.updTir_jobs : (s.updTir f).jobs = s.jobs := (rfl)
@[simp] theorem State.updTir_ctx : (s.updTir f).ctx = s.ctx := (rfl)
@[simp] theorem State.updTir_tir : (s.updTir f).tir = f s.tir := (rfl)
@[simp] theorem State.updTir_chn : (s.updTir f).chn = s.chn := (rfl)
@[simp] theorem State.updTir_lnw : (s.updTir f).lnw = s.lnw := (rfl)
@[simp] theorem State.updTir_ing : (s.updTir f).ing = s.ing := (rfl)
@[simp] theorem State.updTir_trc : (s.updTir f).trc = s.trc := (rfl)
@[simp] theorem State.updTir_xh : (s.updTir f).xh = s.xh := (rfl)
@[simp] theorem State.updTir_sty : (s.updTir f).sty = s.sty := (rfl)
@[simp] theorem State.updTir_eth : (s.updTir f).eth = s.eth := (rfl)
@[simp] theorem State.updTir_prf : (s.updTir f).prf = s.prf := (rfl)
@[simp] theorem State.updTir_brn : (s.updTir f).brn = s.brn := (rfl)
@[simp] theorem State.updTir_sec : (s.updTir f).sec = s.sec := (rfl)
@[simp] theorem State.updTir_plt : (s.updTir f).plt = s.plt := (rfl)
end

/-! ### updChn -/

section
variable (f : Chn → Chn) (s : State)
@[simp] theorem State.updChn_pending : (s.updChn f).pending = s.pending := (rfl)
@[simp] theorem State.updChn_edge : (s.updChn f).edge = s.edge := (rfl)
@[simp] theorem State.updChn_fresh : (s.updChn f).fresh = s.fresh := (rfl)
@[simp] theorem State.updChn_counts : (s.updChn f).counts = s.counts := (rfl)
@[simp] theorem State.updChn_regs : (s.updChn f).regs = s.regs := (rfl)
@[simp] theorem State.updChn_glb : (s.updChn f).glb = s.glb := (rfl)
@[simp] theorem State.updChn_tb : (s.updChn f).tb = s.tb := (rfl)
@[simp] theorem State.updChn_rgn : (s.updChn f).rgn = s.rgn := (rfl)
@[simp] theorem State.updChn_otl : (s.updChn f).otl = s.otl := (rfl)
@[simp] theorem State.updChn_cores : (s.updChn f).cores = s.cores := (rfl)
@[simp] theorem State.updChn_clusters : (s.updChn f).clusters = s.clusters := (rfl)
@[simp] theorem State.updChn_jobs : (s.updChn f).jobs = s.jobs := (rfl)
@[simp] theorem State.updChn_ctx : (s.updChn f).ctx = s.ctx := (rfl)
@[simp] theorem State.updChn_tir : (s.updChn f).tir = s.tir := (rfl)
@[simp] theorem State.updChn_chn : (s.updChn f).chn = f s.chn := (rfl)
@[simp] theorem State.updChn_lnw : (s.updChn f).lnw = s.lnw := (rfl)
@[simp] theorem State.updChn_ing : (s.updChn f).ing = s.ing := (rfl)
@[simp] theorem State.updChn_trc : (s.updChn f).trc = s.trc := (rfl)
@[simp] theorem State.updChn_xh : (s.updChn f).xh = s.xh := (rfl)
@[simp] theorem State.updChn_sty : (s.updChn f).sty = s.sty := (rfl)
@[simp] theorem State.updChn_eth : (s.updChn f).eth = s.eth := (rfl)
@[simp] theorem State.updChn_prf : (s.updChn f).prf = s.prf := (rfl)
@[simp] theorem State.updChn_brn : (s.updChn f).brn = s.brn := (rfl)
@[simp] theorem State.updChn_sec : (s.updChn f).sec = s.sec := (rfl)
@[simp] theorem State.updChn_plt : (s.updChn f).plt = s.plt := (rfl)
end

/-! ### updLnw -/

section
variable (f : Lnw → Lnw) (s : State)
@[simp] theorem State.updLnw_pending : (s.updLnw f).pending = s.pending := (rfl)
@[simp] theorem State.updLnw_edge : (s.updLnw f).edge = s.edge := (rfl)
@[simp] theorem State.updLnw_fresh : (s.updLnw f).fresh = s.fresh := (rfl)
@[simp] theorem State.updLnw_counts : (s.updLnw f).counts = s.counts := (rfl)
@[simp] theorem State.updLnw_regs : (s.updLnw f).regs = s.regs := (rfl)
@[simp] theorem State.updLnw_glb : (s.updLnw f).glb = s.glb := (rfl)
@[simp] theorem State.updLnw_tb : (s.updLnw f).tb = s.tb := (rfl)
@[simp] theorem State.updLnw_rgn : (s.updLnw f).rgn = s.rgn := (rfl)
@[simp] theorem State.updLnw_otl : (s.updLnw f).otl = s.otl := (rfl)
@[simp] theorem State.updLnw_cores : (s.updLnw f).cores = s.cores := (rfl)
@[simp] theorem State.updLnw_clusters : (s.updLnw f).clusters = s.clusters := (rfl)
@[simp] theorem State.updLnw_jobs : (s.updLnw f).jobs = s.jobs := (rfl)
@[simp] theorem State.updLnw_ctx : (s.updLnw f).ctx = s.ctx := (rfl)
@[simp] theorem State.updLnw_tir : (s.updLnw f).tir = s.tir := (rfl)
@[simp] theorem State.updLnw_chn : (s.updLnw f).chn = s.chn := (rfl)
@[simp] theorem State.updLnw_lnw : (s.updLnw f).lnw = f s.lnw := (rfl)
@[simp] theorem State.updLnw_ing : (s.updLnw f).ing = s.ing := (rfl)
@[simp] theorem State.updLnw_trc : (s.updLnw f).trc = s.trc := (rfl)
@[simp] theorem State.updLnw_xh : (s.updLnw f).xh = s.xh := (rfl)
@[simp] theorem State.updLnw_sty : (s.updLnw f).sty = s.sty := (rfl)
@[simp] theorem State.updLnw_eth : (s.updLnw f).eth = s.eth := (rfl)
@[simp] theorem State.updLnw_prf : (s.updLnw f).prf = s.prf := (rfl)
@[simp] theorem State.updLnw_brn : (s.updLnw f).brn = s.brn := (rfl)
@[simp] theorem State.updLnw_sec : (s.updLnw f).sec = s.sec := (rfl)
@[simp] theorem State.updLnw_plt : (s.updLnw f).plt = s.plt := (rfl)
end

/-! ### updIng -/

section
variable (f : Ing → Ing) (s : State)
@[simp] theorem State.updIng_pending : (s.updIng f).pending = s.pending := (rfl)
@[simp] theorem State.updIng_edge : (s.updIng f).edge = s.edge := (rfl)
@[simp] theorem State.updIng_fresh : (s.updIng f).fresh = s.fresh := (rfl)
@[simp] theorem State.updIng_counts : (s.updIng f).counts = s.counts := (rfl)
@[simp] theorem State.updIng_regs : (s.updIng f).regs = s.regs := (rfl)
@[simp] theorem State.updIng_glb : (s.updIng f).glb = s.glb := (rfl)
@[simp] theorem State.updIng_tb : (s.updIng f).tb = s.tb := (rfl)
@[simp] theorem State.updIng_rgn : (s.updIng f).rgn = s.rgn := (rfl)
@[simp] theorem State.updIng_otl : (s.updIng f).otl = s.otl := (rfl)
@[simp] theorem State.updIng_cores : (s.updIng f).cores = s.cores := (rfl)
@[simp] theorem State.updIng_clusters : (s.updIng f).clusters = s.clusters := (rfl)
@[simp] theorem State.updIng_jobs : (s.updIng f).jobs = s.jobs := (rfl)
@[simp] theorem State.updIng_ctx : (s.updIng f).ctx = s.ctx := (rfl)
@[simp] theorem State.updIng_tir : (s.updIng f).tir = s.tir := (rfl)
@[simp] theorem State.updIng_chn : (s.updIng f).chn = s.chn := (rfl)
@[simp] theorem State.updIng_lnw : (s.updIng f).lnw = s.lnw := (rfl)
@[simp] theorem State.updIng_ing : (s.updIng f).ing = f s.ing := (rfl)
@[simp] theorem State.updIng_trc : (s.updIng f).trc = s.trc := (rfl)
@[simp] theorem State.updIng_xh : (s.updIng f).xh = s.xh := (rfl)
@[simp] theorem State.updIng_sty : (s.updIng f).sty = s.sty := (rfl)
@[simp] theorem State.updIng_eth : (s.updIng f).eth = s.eth := (rfl)
@[simp] theorem State.updIng_prf : (s.updIng f).prf = s.prf := (rfl)
@[simp] theorem State.updIng_brn : (s.updIng f).brn = s.brn := (rfl)
@[simp] theorem State.updIng_sec : (s.updIng f).sec = s.sec := (rfl)
@[simp] theorem State.updIng_plt : (s.updIng f).plt = s.plt := (rfl)
end

/-! ### updTrc -/

section
variable (f : Trc → Trc) (s : State)
@[simp] theorem State.updTrc_pending : (s.updTrc f).pending = s.pending := (rfl)
@[simp] theorem State.updTrc_edge : (s.updTrc f).edge = s.edge := (rfl)
@[simp] theorem State.updTrc_fresh : (s.updTrc f).fresh = s.fresh := (rfl)
@[simp] theorem State.updTrc_counts : (s.updTrc f).counts = s.counts := (rfl)
@[simp] theorem State.updTrc_regs : (s.updTrc f).regs = s.regs := (rfl)
@[simp] theorem State.updTrc_glb : (s.updTrc f).glb = s.glb := (rfl)
@[simp] theorem State.updTrc_tb : (s.updTrc f).tb = s.tb := (rfl)
@[simp] theorem State.updTrc_rgn : (s.updTrc f).rgn = s.rgn := (rfl)
@[simp] theorem State.updTrc_otl : (s.updTrc f).otl = s.otl := (rfl)
@[simp] theorem State.updTrc_cores : (s.updTrc f).cores = s.cores := (rfl)
@[simp] theorem State.updTrc_clusters : (s.updTrc f).clusters = s.clusters := (rfl)
@[simp] theorem State.updTrc_jobs : (s.updTrc f).jobs = s.jobs := (rfl)
@[simp] theorem State.updTrc_ctx : (s.updTrc f).ctx = s.ctx := (rfl)
@[simp] theorem State.updTrc_tir : (s.updTrc f).tir = s.tir := (rfl)
@[simp] theorem State.updTrc_chn : (s.updTrc f).chn = s.chn := (rfl)
@[simp] theorem State.updTrc_lnw : (s.updTrc f).lnw = s.lnw := (rfl)
@[simp] theorem State.updTrc_ing : (s.updTrc f).ing = s.ing := (rfl)
@[simp] theorem State.updTrc_trc : (s.updTrc f).trc = f s.trc := (rfl)
@[simp] theorem State.updTrc_xh : (s.updTrc f).xh = s.xh := (rfl)
@[simp] theorem State.updTrc_sty : (s.updTrc f).sty = s.sty := (rfl)
@[simp] theorem State.updTrc_eth : (s.updTrc f).eth = s.eth := (rfl)
@[simp] theorem State.updTrc_prf : (s.updTrc f).prf = s.prf := (rfl)
@[simp] theorem State.updTrc_brn : (s.updTrc f).brn = s.brn := (rfl)
@[simp] theorem State.updTrc_sec : (s.updTrc f).sec = s.sec := (rfl)
@[simp] theorem State.updTrc_plt : (s.updTrc f).plt = s.plt := (rfl)
end

/-! ### updXh -/

section
variable (f : Xh → Xh) (s : State)
@[simp] theorem State.updXh_pending : (s.updXh f).pending = s.pending := (rfl)
@[simp] theorem State.updXh_edge : (s.updXh f).edge = s.edge := (rfl)
@[simp] theorem State.updXh_fresh : (s.updXh f).fresh = s.fresh := (rfl)
@[simp] theorem State.updXh_counts : (s.updXh f).counts = s.counts := (rfl)
@[simp] theorem State.updXh_regs : (s.updXh f).regs = s.regs := (rfl)
@[simp] theorem State.updXh_glb : (s.updXh f).glb = s.glb := (rfl)
@[simp] theorem State.updXh_tb : (s.updXh f).tb = s.tb := (rfl)
@[simp] theorem State.updXh_rgn : (s.updXh f).rgn = s.rgn := (rfl)
@[simp] theorem State.updXh_otl : (s.updXh f).otl = s.otl := (rfl)
@[simp] theorem State.updXh_cores : (s.updXh f).cores = s.cores := (rfl)
@[simp] theorem State.updXh_clusters : (s.updXh f).clusters = s.clusters := (rfl)
@[simp] theorem State.updXh_jobs : (s.updXh f).jobs = s.jobs := (rfl)
@[simp] theorem State.updXh_ctx : (s.updXh f).ctx = s.ctx := (rfl)
@[simp] theorem State.updXh_tir : (s.updXh f).tir = s.tir := (rfl)
@[simp] theorem State.updXh_chn : (s.updXh f).chn = s.chn := (rfl)
@[simp] theorem State.updXh_lnw : (s.updXh f).lnw = s.lnw := (rfl)
@[simp] theorem State.updXh_ing : (s.updXh f).ing = s.ing := (rfl)
@[simp] theorem State.updXh_trc : (s.updXh f).trc = s.trc := (rfl)
@[simp] theorem State.updXh_xh : (s.updXh f).xh = f s.xh := (rfl)
@[simp] theorem State.updXh_sty : (s.updXh f).sty = s.sty := (rfl)
@[simp] theorem State.updXh_eth : (s.updXh f).eth = s.eth := (rfl)
@[simp] theorem State.updXh_prf : (s.updXh f).prf = s.prf := (rfl)
@[simp] theorem State.updXh_brn : (s.updXh f).brn = s.brn := (rfl)
@[simp] theorem State.updXh_sec : (s.updXh f).sec = s.sec := (rfl)
@[simp] theorem State.updXh_plt : (s.updXh f).plt = s.plt := (rfl)
end

/-! ### updSty -/

section
variable (f : Sty → Sty) (s : State)
@[simp] theorem State.updSty_pending : (s.updSty f).pending = s.pending := (rfl)
@[simp] theorem State.updSty_edge : (s.updSty f).edge = s.edge := (rfl)
@[simp] theorem State.updSty_fresh : (s.updSty f).fresh = s.fresh := (rfl)
@[simp] theorem State.updSty_counts : (s.updSty f).counts = s.counts := (rfl)
@[simp] theorem State.updSty_regs : (s.updSty f).regs = s.regs := (rfl)
@[simp] theorem State.updSty_glb : (s.updSty f).glb = s.glb := (rfl)
@[simp] theorem State.updSty_tb : (s.updSty f).tb = s.tb := (rfl)
@[simp] theorem State.updSty_rgn : (s.updSty f).rgn = s.rgn := (rfl)
@[simp] theorem State.updSty_otl : (s.updSty f).otl = s.otl := (rfl)
@[simp] theorem State.updSty_cores : (s.updSty f).cores = s.cores := (rfl)
@[simp] theorem State.updSty_clusters : (s.updSty f).clusters = s.clusters := (rfl)
@[simp] theorem State.updSty_jobs : (s.updSty f).jobs = s.jobs := (rfl)
@[simp] theorem State.updSty_ctx : (s.updSty f).ctx = s.ctx := (rfl)
@[simp] theorem State.updSty_tir : (s.updSty f).tir = s.tir := (rfl)
@[simp] theorem State.updSty_chn : (s.updSty f).chn = s.chn := (rfl)
@[simp] theorem State.updSty_lnw : (s.updSty f).lnw = s.lnw := (rfl)
@[simp] theorem State.updSty_ing : (s.updSty f).ing = s.ing := (rfl)
@[simp] theorem State.updSty_trc : (s.updSty f).trc = s.trc := (rfl)
@[simp] theorem State.updSty_xh : (s.updSty f).xh = s.xh := (rfl)
@[simp] theorem State.updSty_sty : (s.updSty f).sty = f s.sty := (rfl)
@[simp] theorem State.updSty_eth : (s.updSty f).eth = s.eth := (rfl)
@[simp] theorem State.updSty_prf : (s.updSty f).prf = s.prf := (rfl)
@[simp] theorem State.updSty_brn : (s.updSty f).brn = s.brn := (rfl)
@[simp] theorem State.updSty_sec : (s.updSty f).sec = s.sec := (rfl)
@[simp] theorem State.updSty_plt : (s.updSty f).plt = s.plt := (rfl)
end

/-! ### updEth -/

section
variable (f : Eth → Eth) (s : State)
@[simp] theorem State.updEth_pending : (s.updEth f).pending = s.pending := (rfl)
@[simp] theorem State.updEth_edge : (s.updEth f).edge = s.edge := (rfl)
@[simp] theorem State.updEth_fresh : (s.updEth f).fresh = s.fresh := (rfl)
@[simp] theorem State.updEth_counts : (s.updEth f).counts = s.counts := (rfl)
@[simp] theorem State.updEth_regs : (s.updEth f).regs = s.regs := (rfl)
@[simp] theorem State.updEth_glb : (s.updEth f).glb = s.glb := (rfl)
@[simp] theorem State.updEth_tb : (s.updEth f).tb = s.tb := (rfl)
@[simp] theorem State.updEth_rgn : (s.updEth f).rgn = s.rgn := (rfl)
@[simp] theorem State.updEth_otl : (s.updEth f).otl = s.otl := (rfl)
@[simp] theorem State.updEth_cores : (s.updEth f).cores = s.cores := (rfl)
@[simp] theorem State.updEth_clusters : (s.updEth f).clusters = s.clusters := (rfl)
@[simp] theorem State.updEth_jobs : (s.updEth f).jobs = s.jobs := (rfl)
@[simp] theorem State.updEth_ctx : (s.updEth f).ctx = s.ctx := (rfl)
@[simp] theorem State.updEth_tir : (s.updEth f).tir = s.tir := (rfl)
@[simp] theorem State.updEth_chn : (s.updEth f).chn = s.chn := (rfl)
@[simp] theorem State.updEth_lnw : (s.updEth f).lnw = s.lnw := (rfl)
@[simp] theorem State.updEth_ing : (s.updEth f).ing = s.ing := (rfl)
@[simp] theorem State.updEth_trc : (s.updEth f).trc = s.trc := (rfl)
@[simp] theorem State.updEth_xh : (s.updEth f).xh = s.xh := (rfl)
@[simp] theorem State.updEth_sty : (s.updEth f).sty = s.sty := (rfl)
@[simp] theorem State.updEth_eth : (s.updEth f).eth = f s.eth := (rfl)
@[simp] theorem State.updEth_prf : (s.updEth f).prf = s.prf := (rfl)
@[simp] theorem State.updEth_brn : (s.updEth f).brn = s.brn := (rfl)
@[simp] theorem State.updEth_sec : (s.updEth f).sec = s.sec := (rfl)
@[simp] theorem State.updEth_plt : (s.updEth f).plt = s.plt := (rfl)
end

/-! ### updPrf -/

section
variable (f : Prf → Prf) (s : State)
@[simp] theorem State.updPrf_pending : (s.updPrf f).pending = s.pending := (rfl)
@[simp] theorem State.updPrf_edge : (s.updPrf f).edge = s.edge := (rfl)
@[simp] theorem State.updPrf_fresh : (s.updPrf f).fresh = s.fresh := (rfl)
@[simp] theorem State.updPrf_counts : (s.updPrf f).counts = s.counts := (rfl)
@[simp] theorem State.updPrf_regs : (s.updPrf f).regs = s.regs := (rfl)
@[simp] theorem State.updPrf_glb : (s.updPrf f).glb = s.glb := (rfl)
@[simp] theorem State.updPrf_tb : (s.updPrf f).tb = s.tb := (rfl)
@[simp] theorem State.updPrf_rgn : (s.updPrf f).rgn = s.rgn := (rfl)
@[simp] theorem State.updPrf_otl : (s.updPrf f).otl = s.otl := (rfl)
@[simp] theorem State.updPrf_cores : (s.updPrf f).cores = s.cores := (rfl)
@[simp] theorem State.updPrf_clusters : (s.updPrf f).clusters = s.clusters := (rfl)
@[simp] theorem State.updPrf_jobs : (s.updPrf f).jobs = s.jobs := (rfl)
@[simp] theorem State.updPrf_ctx : (s.updPrf f).ctx = s.ctx := (rfl)
@[simp] theorem State.updPrf_tir : (s.updPrf f).tir = s.tir := (rfl)
@[simp] theorem State.updPrf_chn : (s.updPrf f).chn = s.chn := (rfl)
@[simp] theorem State.updPrf_lnw : (s.updPrf f).lnw = s.lnw := (rfl)
@[simp] theorem State.updPrf_ing : (s.updPrf f).ing = s.ing := (rfl)
@[simp] theorem State.updPrf_trc : (s.updPrf f).trc = s.trc := (rfl)
@[simp] theorem State.updPrf_xh : (s.updPrf f).xh = s.xh := (rfl)
@[simp] theorem State.updPrf_sty : (s.updPrf f).sty = s.sty := (rfl)
@[simp] theorem State.updPrf_eth : (s.updPrf f).eth = s.eth := (rfl)
@[simp] theorem State.updPrf_prf : (s.updPrf f).prf = f s.prf := (rfl)
@[simp] theorem State.updPrf_brn : (s.updPrf f).brn = s.brn := (rfl)
@[simp] theorem State.updPrf_sec : (s.updPrf f).sec = s.sec := (rfl)
@[simp] theorem State.updPrf_plt : (s.updPrf f).plt = s.plt := (rfl)
end

/-! ### updBrn -/

section
variable (f : Brn → Brn) (s : State)
@[simp] theorem State.updBrn_pending : (s.updBrn f).pending = s.pending := (rfl)
@[simp] theorem State.updBrn_edge : (s.updBrn f).edge = s.edge := (rfl)
@[simp] theorem State.updBrn_fresh : (s.updBrn f).fresh = s.fresh := (rfl)
@[simp] theorem State.updBrn_counts : (s.updBrn f).counts = s.counts := (rfl)
@[simp] theorem State.updBrn_regs : (s.updBrn f).regs = s.regs := (rfl)
@[simp] theorem State.updBrn_glb : (s.updBrn f).glb = s.glb := (rfl)
@[simp] theorem State.updBrn_tb : (s.updBrn f).tb = s.tb := (rfl)
@[simp] theorem State.updBrn_rgn : (s.updBrn f).rgn = s.rgn := (rfl)
@[simp] theorem State.updBrn_otl : (s.updBrn f).otl = s.otl := (rfl)
@[simp] theorem State.updBrn_cores : (s.updBrn f).cores = s.cores := (rfl)
@[simp] theorem State.updBrn_clusters : (s.updBrn f).clusters = s.clusters := (rfl)
@[simp] theorem State.updBrn_jobs : (s.updBrn f).jobs = s.jobs := (rfl)
@[simp] theorem State.updBrn_ctx : (s.updBrn f).ctx = s.ctx := (rfl)
@[simp] theorem State.updBrn_tir : (s.updBrn f).tir = s.tir := (rfl)
@[simp] theorem State.updBrn_chn : (s.updBrn f).chn = s.chn := (rfl)
@[simp] theorem State.updBrn_lnw : (s.updBrn f).lnw = s.lnw := (rfl)
@[simp] theorem State.updBrn_ing : (s.updBrn f).ing = s.ing := (rfl)
@[simp] theorem State.updBrn_trc : (s.updBrn f).trc = s.trc := (rfl)
@[simp] theorem State.updBrn_xh : (s.updBrn f).xh = s.xh := (rfl)
@[simp] theorem State.updBrn_sty : (s.updBrn f).sty = s.sty := (rfl)
@[simp] theorem State.updBrn_eth : (s.updBrn f).eth = s.eth := (rfl)
@[simp] theorem State.updBrn_prf : (s.updBrn f).prf = s.prf := (rfl)
@[simp] theorem State.updBrn_brn : (s.updBrn f).brn = f s.brn := (rfl)
@[simp] theorem State.updBrn_sec : (s.updBrn f).sec = s.sec := (rfl)
@[simp] theorem State.updBrn_plt : (s.updBrn f).plt = s.plt := (rfl)
end

/-! ### updSec -/

section
variable (f : Sec → Sec) (s : State)
@[simp] theorem State.updSec_pending : (s.updSec f).pending = s.pending := (rfl)
@[simp] theorem State.updSec_edge : (s.updSec f).edge = s.edge := (rfl)
@[simp] theorem State.updSec_fresh : (s.updSec f).fresh = s.fresh := (rfl)
@[simp] theorem State.updSec_counts : (s.updSec f).counts = s.counts := (rfl)
@[simp] theorem State.updSec_regs : (s.updSec f).regs = s.regs := (rfl)
@[simp] theorem State.updSec_glb : (s.updSec f).glb = s.glb := (rfl)
@[simp] theorem State.updSec_tb : (s.updSec f).tb = s.tb := (rfl)
@[simp] theorem State.updSec_rgn : (s.updSec f).rgn = s.rgn := (rfl)
@[simp] theorem State.updSec_otl : (s.updSec f).otl = s.otl := (rfl)
@[simp] theorem State.updSec_cores : (s.updSec f).cores = s.cores := (rfl)
@[simp] theorem State.updSec_clusters : (s.updSec f).clusters = s.clusters := (rfl)
@[simp] theorem State.updSec_jobs : (s.updSec f).jobs = s.jobs := (rfl)
@[simp] theorem State.updSec_ctx : (s.updSec f).ctx = s.ctx := (rfl)
@[simp] theorem State.updSec_tir : (s.updSec f).tir = s.tir := (rfl)
@[simp] theorem State.updSec_chn : (s.updSec f).chn = s.chn := (rfl)
@[simp] theorem State.updSec_lnw : (s.updSec f).lnw = s.lnw := (rfl)
@[simp] theorem State.updSec_ing : (s.updSec f).ing = s.ing := (rfl)
@[simp] theorem State.updSec_trc : (s.updSec f).trc = s.trc := (rfl)
@[simp] theorem State.updSec_xh : (s.updSec f).xh = s.xh := (rfl)
@[simp] theorem State.updSec_sty : (s.updSec f).sty = s.sty := (rfl)
@[simp] theorem State.updSec_eth : (s.updSec f).eth = s.eth := (rfl)
@[simp] theorem State.updSec_prf : (s.updSec f).prf = s.prf := (rfl)
@[simp] theorem State.updSec_brn : (s.updSec f).brn = s.brn := (rfl)
@[simp] theorem State.updSec_sec : (s.updSec f).sec = f s.sec := (rfl)
@[simp] theorem State.updSec_plt : (s.updSec f).plt = s.plt := (rfl)
end

/-! ### updPlt -/

section
variable (f : List PlateSlice → List PlateSlice) (s : State)
@[simp] theorem State.updPlt_pending : (s.updPlt f).pending = s.pending := (rfl)
@[simp] theorem State.updPlt_edge : (s.updPlt f).edge = s.edge := (rfl)
@[simp] theorem State.updPlt_fresh : (s.updPlt f).fresh = s.fresh := (rfl)
@[simp] theorem State.updPlt_counts : (s.updPlt f).counts = s.counts := (rfl)
@[simp] theorem State.updPlt_regs : (s.updPlt f).regs = s.regs := (rfl)
@[simp] theorem State.updPlt_glb : (s.updPlt f).glb = s.glb := (rfl)
@[simp] theorem State.updPlt_tb : (s.updPlt f).tb = s.tb := (rfl)
@[simp] theorem State.updPlt_rgn : (s.updPlt f).rgn = s.rgn := (rfl)
@[simp] theorem State.updPlt_otl : (s.updPlt f).otl = s.otl := (rfl)
@[simp] theorem State.updPlt_cores : (s.updPlt f).cores = s.cores := (rfl)
@[simp] theorem State.updPlt_clusters : (s.updPlt f).clusters = s.clusters := (rfl)
@[simp] theorem State.updPlt_jobs : (s.updPlt f).jobs = s.jobs := (rfl)
@[simp] theorem State.updPlt_ctx : (s.updPlt f).ctx = s.ctx := (rfl)
@[simp] theorem State.updPlt_tir : (s.updPlt f).tir = s.tir := (rfl)
@[simp] theorem State.updPlt_chn : (s.updPlt f).chn = s.chn := (rfl)
@[simp] theorem State.updPlt_lnw : (s.updPlt f).lnw = s.lnw := (rfl)
@[simp] theorem State.updPlt_ing : (s.updPlt f).ing = s.ing := (rfl)
@[simp] theorem State.updPlt_trc : (s.updPlt f).trc = s.trc := (rfl)
@[simp] theorem State.updPlt_xh : (s.updPlt f).xh = s.xh := (rfl)
@[simp] theorem State.updPlt_sty : (s.updPlt f).sty = s.sty := (rfl)
@[simp] theorem State.updPlt_eth : (s.updPlt f).eth = s.eth := (rfl)
@[simp] theorem State.updPlt_prf : (s.updPlt f).prf = s.prf := (rfl)
@[simp] theorem State.updPlt_brn : (s.updPlt f).brn = s.brn := (rfl)
@[simp] theorem State.updPlt_sec : (s.updPlt f).sec = s.sec := (rfl)
@[simp] theorem State.updPlt_plt : (s.updPlt f).plt = f s.plt := (rfl)
end

/-! ### updCore -/

section
variable (n : Nat) (f : Core → Core) (s : State)
@[simp] theorem State.updCore_pending : (s.updCore n f).pending = s.pending := (rfl)
@[simp] theorem State.updCore_edge : (s.updCore n f).edge = s.edge := (rfl)
@[simp] theorem State.updCore_fresh : (s.updCore n f).fresh = s.fresh := (rfl)
@[simp] theorem State.updCore_counts : (s.updCore n f).counts = s.counts := (rfl)
@[simp] theorem State.updCore_regs : (s.updCore n f).regs = s.regs := (rfl)
@[simp] theorem State.updCore_glb : (s.updCore n f).glb = s.glb := (rfl)
@[simp] theorem State.updCore_tb : (s.updCore n f).tb = s.tb := (rfl)
@[simp] theorem State.updCore_rgn : (s.updCore n f).rgn = s.rgn := (rfl)
@[simp] theorem State.updCore_otl : (s.updCore n f).otl = s.otl := (rfl)
@[simp] theorem State.updCore_cores : (s.updCore n f).cores = s.cores.modify n f := (rfl)
@[simp] theorem State.updCore_clusters : (s.updCore n f).clusters = s.clusters := (rfl)
@[simp] theorem State.updCore_jobs : (s.updCore n f).jobs = s.jobs := (rfl)
@[simp] theorem State.updCore_ctx : (s.updCore n f).ctx = s.ctx := (rfl)
@[simp] theorem State.updCore_tir : (s.updCore n f).tir = s.tir := (rfl)
@[simp] theorem State.updCore_chn : (s.updCore n f).chn = s.chn := (rfl)
@[simp] theorem State.updCore_lnw : (s.updCore n f).lnw = s.lnw := (rfl)
@[simp] theorem State.updCore_ing : (s.updCore n f).ing = s.ing := (rfl)
@[simp] theorem State.updCore_trc : (s.updCore n f).trc = s.trc := (rfl)
@[simp] theorem State.updCore_xh : (s.updCore n f).xh = s.xh := (rfl)
@[simp] theorem State.updCore_sty : (s.updCore n f).sty = s.sty := (rfl)
@[simp] theorem State.updCore_eth : (s.updCore n f).eth = s.eth := (rfl)
@[simp] theorem State.updCore_prf : (s.updCore n f).prf = s.prf := (rfl)
@[simp] theorem State.updCore_brn : (s.updCore n f).brn = s.brn := (rfl)
@[simp] theorem State.updCore_sec : (s.updCore n f).sec = s.sec := (rfl)
@[simp] theorem State.updCore_plt : (s.updCore n f).plt = s.plt := (rfl)
end

/-! ### updCluster -/

section
variable (n : Nat) (f : Cluster → Cluster) (s : State)
@[simp] theorem State.updCluster_pending : (s.updCluster n f).pending = s.pending := (rfl)
@[simp] theorem State.updCluster_edge : (s.updCluster n f).edge = s.edge := (rfl)
@[simp] theorem State.updCluster_fresh : (s.updCluster n f).fresh = s.fresh := (rfl)
@[simp] theorem State.updCluster_counts : (s.updCluster n f).counts = s.counts := (rfl)
@[simp] theorem State.updCluster_regs : (s.updCluster n f).regs = s.regs := (rfl)
@[simp] theorem State.updCluster_glb : (s.updCluster n f).glb = s.glb := (rfl)
@[simp] theorem State.updCluster_tb : (s.updCluster n f).tb = s.tb := (rfl)
@[simp] theorem State.updCluster_rgn : (s.updCluster n f).rgn = s.rgn := (rfl)
@[simp] theorem State.updCluster_otl : (s.updCluster n f).otl = s.otl := (rfl)
@[simp] theorem State.updCluster_cores : (s.updCluster n f).cores = s.cores := (rfl)
@[simp] theorem State.updCluster_clusters : (s.updCluster n f).clusters = s.clusters.modify n f := (rfl)
@[simp] theorem State.updCluster_jobs : (s.updCluster n f).jobs = s.jobs := (rfl)
@[simp] theorem State.updCluster_ctx : (s.updCluster n f).ctx = s.ctx := (rfl)
@[simp] theorem State.updCluster_tir : (s.updCluster n f).tir = s.tir := (rfl)
@[simp] theorem State.updCluster_chn : (s.updCluster n f).chn = s.chn := (rfl)
@[simp] theorem State.updCluster_lnw : (s.updCluster n f).lnw = s.lnw := (rfl)
@[simp] theorem State.updCluster_ing : (s.updCluster n f).ing = s.ing := (rfl)
@[simp] theorem State.updCluster_trc : (s.updCluster n f).trc = s.trc := (rfl)
@[simp] theorem State.updCluster_xh : (s.updCluster n f).xh = s.xh := (rfl)
@[simp] theorem State.updCluster_sty : (s.updCluster n f).sty = s.sty := (rfl)
@[simp] theorem State.updCluster_eth : (s.updCluster n f).eth = s.eth := (rfl)
@[simp] theorem State.updCluster_prf : (s.updCluster n f).prf = s.prf := (rfl)
@[simp] theorem State.updCluster_brn : (s.updCluster n f).brn = s.brn := (rfl)
@[simp] theorem State.updCluster_sec : (s.updCluster n f).sec = s.sec := (rfl)
@[simp] theorem State.updCluster_plt : (s.updCluster n f).plt = s.plt := (rfl)
end

/-! ### enqueue -/

section
variable (cs : List Sys2Proof.Instr) (s : State)
@[simp] theorem State.enqueue_pending : (s.enqueue cs).pending = s.pending ++ cs := (rfl)
@[simp] theorem State.enqueue_edge : (s.enqueue cs).edge = s.edge := (rfl)
@[simp] theorem State.enqueue_fresh : (s.enqueue cs).fresh = s.fresh := (rfl)
@[simp] theorem State.enqueue_counts : (s.enqueue cs).counts = s.counts := (rfl)
@[simp] theorem State.enqueue_regs : (s.enqueue cs).regs = s.regs := (rfl)
@[simp] theorem State.enqueue_glb : (s.enqueue cs).glb = s.glb := (rfl)
@[simp] theorem State.enqueue_tb : (s.enqueue cs).tb = s.tb := (rfl)
@[simp] theorem State.enqueue_rgn : (s.enqueue cs).rgn = s.rgn := (rfl)
@[simp] theorem State.enqueue_otl : (s.enqueue cs).otl = s.otl := (rfl)
@[simp] theorem State.enqueue_cores : (s.enqueue cs).cores = s.cores := (rfl)
@[simp] theorem State.enqueue_clusters : (s.enqueue cs).clusters = s.clusters := (rfl)
@[simp] theorem State.enqueue_jobs : (s.enqueue cs).jobs = s.jobs := (rfl)
@[simp] theorem State.enqueue_ctx : (s.enqueue cs).ctx = s.ctx := (rfl)
@[simp] theorem State.enqueue_tir : (s.enqueue cs).tir = s.tir := (rfl)
@[simp] theorem State.enqueue_chn : (s.enqueue cs).chn = s.chn := (rfl)
@[simp] theorem State.enqueue_lnw : (s.enqueue cs).lnw = s.lnw := (rfl)
@[simp] theorem State.enqueue_ing : (s.enqueue cs).ing = s.ing := (rfl)
@[simp] theorem State.enqueue_trc : (s.enqueue cs).trc = s.trc := (rfl)
@[simp] theorem State.enqueue_xh : (s.enqueue cs).xh = s.xh := (rfl)
@[simp] theorem State.enqueue_sty : (s.enqueue cs).sty = s.sty := (rfl)
@[simp] theorem State.enqueue_eth : (s.enqueue cs).eth = s.eth := (rfl)
@[simp] theorem State.enqueue_prf : (s.enqueue cs).prf = s.prf := (rfl)
@[simp] theorem State.enqueue_brn : (s.enqueue cs).brn = s.brn := (rfl)
@[simp] theorem State.enqueue_sec : (s.enqueue cs).sec = s.sec := (rfl)
@[simp] theorem State.enqueue_plt : (s.enqueue cs).plt = s.plt := (rfl)
end

/-! ### bumpBy -/

section
variable (c : Counter) (n : Nat) (s : State)
@[simp] theorem State.bumpBy_pending : (s.bumpBy c n).pending = s.pending := (rfl)
@[simp] theorem State.bumpBy_edge : (s.bumpBy c n).edge = s.edge := (rfl)
@[simp] theorem State.bumpBy_fresh : (s.bumpBy c n).fresh = s.fresh := (rfl)
@[simp] theorem State.bumpBy_counts : (s.bumpBy c n).counts = setCount s.counts c (wd (min 0xFFFFFFFF ((s.count c).toNat + n))) := (rfl)
@[simp] theorem State.bumpBy_regs : (s.bumpBy c n).regs = s.regs := (rfl)
@[simp] theorem State.bumpBy_glb : (s.bumpBy c n).glb = s.glb := (rfl)
@[simp] theorem State.bumpBy_tb : (s.bumpBy c n).tb = s.tb := (rfl)
@[simp] theorem State.bumpBy_rgn : (s.bumpBy c n).rgn = s.rgn := (rfl)
@[simp] theorem State.bumpBy_otl : (s.bumpBy c n).otl = s.otl := (rfl)
@[simp] theorem State.bumpBy_cores : (s.bumpBy c n).cores = s.cores := (rfl)
@[simp] theorem State.bumpBy_clusters : (s.bumpBy c n).clusters = s.clusters := (rfl)
@[simp] theorem State.bumpBy_jobs : (s.bumpBy c n).jobs = s.jobs := (rfl)
@[simp] theorem State.bumpBy_ctx : (s.bumpBy c n).ctx = s.ctx := (rfl)
@[simp] theorem State.bumpBy_tir : (s.bumpBy c n).tir = s.tir := (rfl)
@[simp] theorem State.bumpBy_chn : (s.bumpBy c n).chn = s.chn := (rfl)
@[simp] theorem State.bumpBy_lnw : (s.bumpBy c n).lnw = s.lnw := (rfl)
@[simp] theorem State.bumpBy_ing : (s.bumpBy c n).ing = s.ing := (rfl)
@[simp] theorem State.bumpBy_trc : (s.bumpBy c n).trc = s.trc := (rfl)
@[simp] theorem State.bumpBy_xh : (s.bumpBy c n).xh = s.xh := (rfl)
@[simp] theorem State.bumpBy_sty : (s.bumpBy c n).sty = s.sty := (rfl)
@[simp] theorem State.bumpBy_eth : (s.bumpBy c n).eth = s.eth := (rfl)
@[simp] theorem State.bumpBy_prf : (s.bumpBy c n).prf = s.prf := (rfl)
@[simp] theorem State.bumpBy_brn : (s.bumpBy c n).brn = s.brn := (rfl)
@[simp] theorem State.bumpBy_sec : (s.bumpBy c n).sec = s.sec := (rfl)
@[simp] theorem State.bumpBy_plt : (s.bumpBy c n).plt = s.plt := (rfl)
end

/-! ### bump -/

section
variable (c : Counter) (s : State)
@[simp] theorem State.bump_pending : (s.bump c).pending = s.pending := (rfl)
@[simp] theorem State.bump_edge : (s.bump c).edge = s.edge := (rfl)
@[simp] theorem State.bump_fresh : (s.bump c).fresh = s.fresh := (rfl)
@[simp] theorem State.bump_counts : (s.bump c).counts = setCount s.counts c (wd (min 0xFFFFFFFF ((s.count c).toNat + 1))) := (rfl)
@[simp] theorem State.bump_regs : (s.bump c).regs = s.regs := (rfl)
@[simp] theorem State.bump_glb : (s.bump c).glb = s.glb := (rfl)
@[simp] theorem State.bump_tb : (s.bump c).tb = s.tb := (rfl)
@[simp] theorem State.bump_rgn : (s.bump c).rgn = s.rgn := (rfl)
@[simp] theorem State.bump_otl : (s.bump c).otl = s.otl := (rfl)
@[simp] theorem State.bump_cores : (s.bump c).cores = s.cores := (rfl)
@[simp] theorem State.bump_clusters : (s.bump c).clusters = s.clusters := (rfl)
@[simp] theorem State.bump_jobs : (s.bump c).jobs = s.jobs := (rfl)
@[simp] theorem State.bump_ctx : (s.bump c).ctx = s.ctx := (rfl)
@[simp] theorem State.bump_tir : (s.bump c).tir = s.tir := (rfl)
@[simp] theorem State.bump_chn : (s.bump c).chn = s.chn := (rfl)
@[simp] theorem State.bump_lnw : (s.bump c).lnw = s.lnw := (rfl)
@[simp] theorem State.bump_ing : (s.bump c).ing = s.ing := (rfl)
@[simp] theorem State.bump_trc : (s.bump c).trc = s.trc := (rfl)
@[simp] theorem State.bump_xh : (s.bump c).xh = s.xh := (rfl)
@[simp] theorem State.bump_sty : (s.bump c).sty = s.sty := (rfl)
@[simp] theorem State.bump_eth : (s.bump c).eth = s.eth := (rfl)
@[simp] theorem State.bump_prf : (s.bump c).prf = s.prf := (rfl)
@[simp] theorem State.bump_brn : (s.bump c).brn = s.brn := (rfl)
@[simp] theorem State.bump_sec : (s.bump c).sec = s.sec := (rfl)
@[simp] theorem State.bump_plt : (s.bump c).plt = s.plt := (rfl)
end

/-! ### clearCounts -/

section
variable (b : Sys2Proof.Block) (s : State)
@[simp] theorem State.clearCounts_pending : (s.clearCounts b).pending = s.pending := (rfl)
@[simp] theorem State.clearCounts_edge : (s.clearCounts b).edge = s.edge := (rfl)
@[simp] theorem State.clearCounts_fresh : (s.clearCounts b).fresh = s.fresh := (rfl)
@[simp] theorem State.clearCounts_counts : (s.clearCounts b).counts = s.counts.filter fun c => c.1.block != b := (rfl)
@[simp] theorem State.clearCounts_regs : (s.clearCounts b).regs = s.regs := (rfl)
@[simp] theorem State.clearCounts_glb : (s.clearCounts b).glb = s.glb := (rfl)
@[simp] theorem State.clearCounts_tb : (s.clearCounts b).tb = s.tb := (rfl)
@[simp] theorem State.clearCounts_rgn : (s.clearCounts b).rgn = s.rgn := (rfl)
@[simp] theorem State.clearCounts_otl : (s.clearCounts b).otl = s.otl := (rfl)
@[simp] theorem State.clearCounts_cores : (s.clearCounts b).cores = s.cores := (rfl)
@[simp] theorem State.clearCounts_clusters : (s.clearCounts b).clusters = s.clusters := (rfl)
@[simp] theorem State.clearCounts_jobs : (s.clearCounts b).jobs = s.jobs := (rfl)
@[simp] theorem State.clearCounts_ctx : (s.clearCounts b).ctx = s.ctx := (rfl)
@[simp] theorem State.clearCounts_tir : (s.clearCounts b).tir = s.tir := (rfl)
@[simp] theorem State.clearCounts_chn : (s.clearCounts b).chn = s.chn := (rfl)
@[simp] theorem State.clearCounts_lnw : (s.clearCounts b).lnw = s.lnw := (rfl)
@[simp] theorem State.clearCounts_ing : (s.clearCounts b).ing = s.ing := (rfl)
@[simp] theorem State.clearCounts_trc : (s.clearCounts b).trc = s.trc := (rfl)
@[simp] theorem State.clearCounts_xh : (s.clearCounts b).xh = s.xh := (rfl)
@[simp] theorem State.clearCounts_sty : (s.clearCounts b).sty = s.sty := (rfl)
@[simp] theorem State.clearCounts_eth : (s.clearCounts b).eth = s.eth := (rfl)
@[simp] theorem State.clearCounts_prf : (s.clearCounts b).prf = s.prf := (rfl)
@[simp] theorem State.clearCounts_brn : (s.clearCounts b).brn = s.brn := (rfl)
@[simp] theorem State.clearCounts_sec : (s.clearCounts b).sec = s.sec := (rfl)
@[simp] theorem State.clearCounts_plt : (s.clearCounts b).plt = s.plt := (rfl)
end

/-! ### updPort -/

section
variable (p : Sys2Proof.Port) (f : EthPort → EthPort) (s : State)
@[simp] theorem State.updPort_pending : (s.updPort p f).pending = s.pending := (rfl)
@[simp] theorem State.updPort_edge : (s.updPort p f).edge = s.edge := (rfl)
@[simp] theorem State.updPort_fresh : (s.updPort p f).fresh = s.fresh := (rfl)
@[simp] theorem State.updPort_counts : (s.updPort p f).counts = s.counts := (rfl)
@[simp] theorem State.updPort_regs : (s.updPort p f).regs = s.regs := (rfl)
@[simp] theorem State.updPort_glb : (s.updPort p f).glb = s.glb := (rfl)
@[simp] theorem State.updPort_tb : (s.updPort p f).tb = s.tb := (rfl)
@[simp] theorem State.updPort_rgn : (s.updPort p f).rgn = s.rgn := (rfl)
@[simp] theorem State.updPort_otl : (s.updPort p f).otl = s.otl := (rfl)
@[simp] theorem State.updPort_cores : (s.updPort p f).cores = s.cores := (rfl)
@[simp] theorem State.updPort_clusters : (s.updPort p f).clusters = s.clusters := (rfl)
@[simp] theorem State.updPort_jobs : (s.updPort p f).jobs = s.jobs := (rfl)
@[simp] theorem State.updPort_ctx : (s.updPort p f).ctx = s.ctx := (rfl)
@[simp] theorem State.updPort_tir : (s.updPort p f).tir = s.tir := (rfl)
@[simp] theorem State.updPort_chn : (s.updPort p f).chn = s.chn := (rfl)
@[simp] theorem State.updPort_lnw : (s.updPort p f).lnw = s.lnw := (rfl)
@[simp] theorem State.updPort_ing : (s.updPort p f).ing = s.ing := (rfl)
@[simp] theorem State.updPort_trc : (s.updPort p f).trc = s.trc := (rfl)
@[simp] theorem State.updPort_xh : (s.updPort p f).xh = s.xh := (rfl)
@[simp] theorem State.updPort_sty : (s.updPort p f).sty = s.sty := (rfl)
@[simp] theorem State.updPort_eth : (s.updPort p f).eth = { s.eth with ports := s.eth.ports.modify (portNum p) f } := (rfl)
@[simp] theorem State.updPort_prf : (s.updPort p f).prf = s.prf := (rfl)
@[simp] theorem State.updPort_brn : (s.updPort p f).brn = s.brn := (rfl)
@[simp] theorem State.updPort_sec : (s.updPort p f).sec = s.sec := (rfl)
@[simp] theorem State.updPort_plt : (s.updPort p f).plt = s.plt := (rfl)
end

/-! ### updSession -/

section
variable (i : Nat) (f : Session → Session) (s : State)
@[simp] theorem State.updSession_pending : (s.updSession i f).pending = s.pending := (rfl)
@[simp] theorem State.updSession_edge : (s.updSession i f).edge = s.edge := (rfl)
@[simp] theorem State.updSession_fresh : (s.updSession i f).fresh = s.fresh := (rfl)
@[simp] theorem State.updSession_counts : (s.updSession i f).counts = s.counts := (rfl)
@[simp] theorem State.updSession_regs : (s.updSession i f).regs = s.regs := (rfl)
@[simp] theorem State.updSession_glb : (s.updSession i f).glb = s.glb := (rfl)
@[simp] theorem State.updSession_tb : (s.updSession i f).tb = s.tb := (rfl)
@[simp] theorem State.updSession_rgn : (s.updSession i f).rgn = s.rgn := (rfl)
@[simp] theorem State.updSession_otl : (s.updSession i f).otl = s.otl := (rfl)
@[simp] theorem State.updSession_cores : (s.updSession i f).cores = s.cores := (rfl)
@[simp] theorem State.updSession_clusters : (s.updSession i f).clusters = s.clusters := (rfl)
@[simp] theorem State.updSession_jobs : (s.updSession i f).jobs = s.jobs := (rfl)
@[simp] theorem State.updSession_ctx : (s.updSession i f).ctx = s.ctx := (rfl)
@[simp] theorem State.updSession_tir : (s.updSession i f).tir = s.tir := (rfl)
@[simp] theorem State.updSession_chn : (s.updSession i f).chn = s.chn := (rfl)
@[simp] theorem State.updSession_lnw : (s.updSession i f).lnw = s.lnw := (rfl)
@[simp] theorem State.updSession_ing : (s.updSession i f).ing = s.ing := (rfl)
@[simp] theorem State.updSession_trc : (s.updSession i f).trc = s.trc := (rfl)
@[simp] theorem State.updSession_xh : (s.updSession i f).xh = s.xh := (rfl)
@[simp] theorem State.updSession_sty : (s.updSession i f).sty = s.sty := (rfl)
@[simp] theorem State.updSession_eth : (s.updSession i f).eth = { s.eth with sessions := s.eth.sessions.modify i f } := (rfl)
@[simp] theorem State.updSession_prf : (s.updSession i f).prf = s.prf := (rfl)
@[simp] theorem State.updSession_brn : (s.updSession i f).brn = s.brn := (rfl)
@[simp] theorem State.updSession_sec : (s.updSession i f).sec = s.sec := (rfl)
@[simp] theorem State.updSession_plt : (s.updSession i f).plt = s.plt := (rfl)
end

/-! ### Free values -/

section
variable (s : State)
@[simp] theorem State.draw_pending : s.draw.2.pending = s.pending := (rfl)
@[simp] theorem State.draw_edge : s.draw.2.edge = s.edge := (rfl)
@[simp] theorem State.draw_fresh : s.draw.2.fresh = s.fresh + 1 := (rfl)
@[simp] theorem State.draw_counts : s.draw.2.counts = s.counts := (rfl)
@[simp] theorem State.draw_regs : s.draw.2.regs = s.regs := (rfl)
@[simp] theorem State.draw_glb : s.draw.2.glb = s.glb := (rfl)
@[simp] theorem State.draw_tb : s.draw.2.tb = s.tb := (rfl)
@[simp] theorem State.draw_rgn : s.draw.2.rgn = s.rgn := (rfl)
@[simp] theorem State.draw_otl : s.draw.2.otl = s.otl := (rfl)
@[simp] theorem State.draw_cores : s.draw.2.cores = s.cores := (rfl)
@[simp] theorem State.draw_clusters : s.draw.2.clusters = s.clusters := (rfl)
@[simp] theorem State.draw_jobs : s.draw.2.jobs = s.jobs := (rfl)
@[simp] theorem State.draw_ctx : s.draw.2.ctx = s.ctx := (rfl)
@[simp] theorem State.draw_tir : s.draw.2.tir = s.tir := (rfl)
@[simp] theorem State.draw_chn : s.draw.2.chn = s.chn := (rfl)
@[simp] theorem State.draw_lnw : s.draw.2.lnw = s.lnw := (rfl)
@[simp] theorem State.draw_ing : s.draw.2.ing = s.ing := (rfl)
@[simp] theorem State.draw_trc : s.draw.2.trc = s.trc := (rfl)
@[simp] theorem State.draw_xh : s.draw.2.xh = s.xh := (rfl)
@[simp] theorem State.draw_sty : s.draw.2.sty = s.sty := (rfl)
@[simp] theorem State.draw_eth : s.draw.2.eth = s.eth := (rfl)
@[simp] theorem State.draw_prf : s.draw.2.prf = s.prf := (rfl)
@[simp] theorem State.draw_brn : s.draw.2.brn = s.brn := (rfl)
@[simp] theorem State.draw_sec : s.draw.2.sec = s.sec := (rfl)
@[simp] theorem State.draw_plt : s.draw.2.plt = s.plt := (rfl)
end

section
variable (s : State) (n : Nat)
@[simp] theorem State.choose_pending : (s.choose n).2.pending = s.pending := (rfl)
@[simp] theorem State.choose_edge : (s.choose n).2.edge = s.edge := (rfl)
@[simp] theorem State.choose_fresh : (s.choose n).2.fresh = s.fresh + 1 := (rfl)
@[simp] theorem State.choose_counts : (s.choose n).2.counts = s.counts := (rfl)
@[simp] theorem State.choose_regs : (s.choose n).2.regs = s.regs := (rfl)
@[simp] theorem State.choose_glb : (s.choose n).2.glb = s.glb := (rfl)
@[simp] theorem State.choose_tb : (s.choose n).2.tb = s.tb := (rfl)
@[simp] theorem State.choose_rgn : (s.choose n).2.rgn = s.rgn := (rfl)
@[simp] theorem State.choose_otl : (s.choose n).2.otl = s.otl := (rfl)
@[simp] theorem State.choose_cores : (s.choose n).2.cores = s.cores := (rfl)
@[simp] theorem State.choose_clusters : (s.choose n).2.clusters = s.clusters := (rfl)
@[simp] theorem State.choose_jobs : (s.choose n).2.jobs = s.jobs := (rfl)
@[simp] theorem State.choose_ctx : (s.choose n).2.ctx = s.ctx := (rfl)
@[simp] theorem State.choose_tir : (s.choose n).2.tir = s.tir := (rfl)
@[simp] theorem State.choose_chn : (s.choose n).2.chn = s.chn := (rfl)
@[simp] theorem State.choose_lnw : (s.choose n).2.lnw = s.lnw := (rfl)
@[simp] theorem State.choose_ing : (s.choose n).2.ing = s.ing := (rfl)
@[simp] theorem State.choose_trc : (s.choose n).2.trc = s.trc := (rfl)
@[simp] theorem State.choose_xh : (s.choose n).2.xh = s.xh := (rfl)
@[simp] theorem State.choose_sty : (s.choose n).2.sty = s.sty := (rfl)
@[simp] theorem State.choose_eth : (s.choose n).2.eth = s.eth := (rfl)
@[simp] theorem State.choose_prf : (s.choose n).2.prf = s.prf := (rfl)
@[simp] theorem State.choose_brn : (s.choose n).2.brn = s.brn := (rfl)
@[simp] theorem State.choose_sec : (s.choose n).2.sec = s.sec := (rfl)
@[simp] theorem State.choose_plt : (s.choose n).2.plt = s.plt := (rfl)
end

section
variable (kind unit cls action code : Nat) (part : Option Nat) (job : Sys2Proof.Word) (detail : Nat) (s : State)
@[simp] theorem State.report_pending : (s.report kind unit cls action code part job detail).pending = s.pending := (rfl)
@[simp] theorem State.report_edge : (s.report kind unit cls action code part job detail).edge = s.edge := (rfl)
@[simp] theorem State.report_fresh : (s.report kind unit cls action code part job detail).fresh = s.fresh := (rfl)
@[simp] theorem State.report_counts : (s.report kind unit cls action code part job detail).counts = s.counts := (rfl)
@[simp] theorem State.report_regs : (s.report kind unit cls action code part job detail).regs = s.regs := (rfl)
@[simp] theorem State.report_glb : (s.report kind unit cls action code part job detail).glb = s.glb := (rfl)
@[simp] theorem State.report_tb : (s.report kind unit cls action code part job detail).tb = s.tb := (rfl)
@[simp] theorem State.report_rgn : (s.report kind unit cls action code part job detail).rgn = s.rgn := (rfl)
@[simp] theorem State.report_otl : (s.report kind unit cls action code part job detail).otl = s.otl := (rfl)
@[simp] theorem State.report_cores : (s.report kind unit cls action code part job detail).cores = s.cores := (rfl)
@[simp] theorem State.report_clusters : (s.report kind unit cls action code part job detail).clusters = s.clusters := (rfl)
@[simp] theorem State.report_jobs : (s.report kind unit cls action code part job detail).jobs = s.jobs := (rfl)
@[simp] theorem State.report_ctx : (s.report kind unit cls action code part job detail).ctx = s.ctx := (rfl)
@[simp] theorem State.report_tir : (s.report kind unit cls action code part job detail).tir = s.tir := (rfl)
@[simp] theorem State.report_chn : (s.report kind unit cls action code part job detail).chn = s.chn := (rfl)
@[simp] theorem State.report_lnw : (s.report kind unit cls action code part job detail).lnw = s.lnw := (rfl)
@[simp] theorem State.report_ing : (s.report kind unit cls action code part job detail).ing = s.ing := (rfl)
@[simp] theorem State.report_trc : (s.report kind unit cls action code part job detail).trc = s.trc := (rfl)
@[simp] theorem State.report_xh : (s.report kind unit cls action code part job detail).xh = s.xh := (rfl)
@[simp] theorem State.report_sty : (s.report kind unit cls action code part job detail).sty = s.sty := (rfl)
@[simp] theorem State.report_eth : (s.report kind unit cls action code part job detail).eth = s.eth := (rfl)
@[simp] theorem State.report_prf : (s.report kind unit cls action code part job detail).prf = s.prf := (rfl)
@[simp] theorem State.report_sec : (s.report kind unit cls action code part job detail).sec = s.sec := (rfl)
@[simp] theorem State.report_plt : (s.report kind unit cls action code part job detail).plt = s.plt := (rfl)
end

end Sys2Proof.Machine
end

