-- ==== Sys2Proof/Laws/Frame.lean ====
section
/-!
SUPPORT. Frames: what an operation leaves of the state. For each operation one lemma says of which fields it leaves
every other as it was; it is a rewrite rule, so that the fields that a chain of operations leaves follow by simp.
-/

-- One thread elaborates: many small proofs at once would ask for more memory than the check allows.
set_option Elab.async false

namespace Sys2Proof.Machine

open Sys2Proof

@[simp] theorem Part.same_refl (p : Part) (s : State) : p.Same s s := by cases p <;> rfl

theorem Part.same_trans {p : Part} {s t u : State} (h : p.Same s t) (g : p.Same t u) : p.Same s u := by
  cases p <;> exact Eq.trans g h

theorem Part.same_iff {p : Part} {s t z : State} (h : p.Same s t) : p.Same z t ↔ p.Same z s := by
  have g : p.Same t s := by cases p <;> exact Eq.symm h
  exact ⟨fun k => Part.same_trans k g, fun k => Part.same_trans k h⟩

theorem Part.same_foldl {p : Part} {α : Type} {f : State → α → State} {l : List α} {s z : State}
    (h : ∀ u a, p.Same u (f u a)) (hs : p.Same z s) : p.Same z (l.foldl f s) := by
  induction l generalizing s with
  | nil => exact hs
  | cons a l ih => exact ih (Part.same_trans hs (h s a))

@[simp] theorem Part.same_foldl_iff (p : Part) {α : Type} (f : State → α → State) (l : List α) (s z : State)
    (h : ∀ u a, p.Same u (f u a)) : p.Same z (l.foldl f s) ↔ p.Same z s :=
  Part.same_iff (Part.same_foldl h (Part.same_refl p s))

theorem Part.same_foldl_by {p : Part} {α β : Type} (g : β → State) {f : β → α → β} {l : List α} {b : β} {z : State}
    (h : ∀ b a, p.Same (g b) (g (f b a))) (hs : p.Same z (g b)) : p.Same z (g (l.foldl f b)) := by
  induction l generalizing b with
  | nil => exact hs
  | cons a l ih => exact ih (Part.same_trans hs (h b a))

@[simp] theorem Part.same_foldl_snd (p : Part) {α β : Type} (f : β × State → α → β × State) (l : List α)
    (b : β × State) (z : State) (h : ∀ b a, p.Same b.2 (f b a).2) : p.Same z (l.foldl f b).2 ↔ p.Same z b.2 :=
  Part.same_iff (Part.same_foldl_by Prod.snd h (Part.same_refl p b.2))

@[simp] theorem Part.same_foldr (p : Part) {α : Type} (f : α → State → State) (l : List α) (s z : State)
    (h : ∀ u a, p.Same u (f a u)) : p.Same z (l.foldr f s) ↔ p.Same z s := by
  induction l generalizing s with
  | nil => simp
  | cons a l ih => exact (Part.same_iff (h _ a)).trans (ih s)

@[simp] theorem Part.same_elim (p : Part) {α : Type} (o : Option α) (f : α → State) (s z : State)
    (h : ∀ a, p.Same s (f a)) : p.Same z (o.elim s f) ↔ p.Same z s := by
  cases o with
  | none => exact Iff.rfl
  | some a => exact Part.same_iff (h a)

/-! ### Record updates -/

@[simp] theorem Part.same_with_fresh (p : Part) (h : p ≠ .fresh) (s z : State) (v) :
    p.Same z { s with fresh := v } ↔ p.Same z s := by
  refine Part.same_iff ?_; cases p <;> first | rfl | exact absurd rfl h

@[simp] theorem Part.same_with_counts (p : Part) (h : p ≠ .counts) (s z : State) (v) :
    p.Same z { s with counts := v } ↔ p.Same z s := by
  refine Part.same_iff ?_; cases p <;> first | rfl | exact absurd rfl h

@[simp] theorem Part.same_with_glb (p : Part) (h : p ≠ .glb) (s z : State) (v) :
    p.Same z { s with glb := v } ↔ p.Same z s := by
  refine Part.same_iff ?_; cases p <;> first | rfl | exact absurd rfl h

@[simp] theorem Part.same_with_tb (p : Part) (h : p ≠ .tb) (s z : State) (v) :
    p.Same z { s with tb := v } ↔ p.Same z s := by
  refine Part.same_iff ?_; cases p <;> first | rfl | exact absurd rfl h

@[simp] theorem Part.same_with_rgn (p : Part) (h : p ≠ .rgn) (s z : State) (v) :
    p.Same z { s with rgn := v } ↔ p.Same z s := by
  refine Part.same_iff ?_; cases p <;> first | rfl | exact absurd rfl h

@[simp] theorem Part.same_with_otl (p : Part) (h : p ≠ .otl) (s z : State) (v) :
    p.Same z { s with otl := v } ↔ p.Same z s := by
  refine Part.same_iff ?_; cases p <;> first | rfl | exact absurd rfl h

@[simp] theorem Part.same_with_ctx (p : Part) (h : p ≠ .ctx) (s z : State) (v) :
    p.Same z { s with ctx := v } ↔ p.Same z s := by
  refine Part.same_iff ?_; cases p <;> first | rfl | exact absurd rfl h

@[simp] theorem Part.same_with_eth (p : Part) (h : p ≠ .eth) (s z : State) (v) :
    p.Same z { s with eth := v } ↔ p.Same z s := by
  refine Part.same_iff ?_; cases p <;> first | rfl | exact absurd rfl h

@[simp] theorem Part.same_with_brn (p : Part) (h : p ≠ .brn) (s z : State) (v) :
    p.Same z { s with brn := v } ↔ p.Same z s := by
  refine Part.same_iff ?_; cases p <;> first | rfl | exact absurd rfl h

@[simp] theorem Part.same_with_prf (p : Part) (h : p ≠ .prf) (s z : State) (v) :
    p.Same z { s with prf := v } ↔ p.Same z s := by
  refine Part.same_iff ?_; cases p <;> first | rfl | exact absurd rfl h

@[simp] theorem Part.same_with_jobs (p : Part) (h : p ≠ .jobs) (s z : State) (v) :
    p.Same z { s with jobs := v } ↔ p.Same z s := by
  refine Part.same_iff ?_; cases p <;> first | rfl | exact absurd rfl h

@[simp] theorem Part.same_with_tir (p : Part) (h : p ≠ .tir) (s z : State) (v) :
    p.Same z { s with tir := v } ↔ p.Same z s := by
  refine Part.same_iff ?_; cases p <;> first | rfl | exact absurd rfl h

@[simp] theorem Part.same_with_chn (p : Part) (h : p ≠ .chn) (s z : State) (v) :
    p.Same z { s with chn := v } ↔ p.Same z s := by
  refine Part.same_iff ?_; cases p <;> first | rfl | exact absurd rfl h

@[simp] theorem Part.same_with_lnw (p : Part) (h : p ≠ .lnw) (s z : State) (v) :
    p.Same z { s with lnw := v } ↔ p.Same z s := by
  refine Part.same_iff ?_; cases p <;> first | rfl | exact absurd rfl h

@[simp] theorem Part.same_with_edge (p : Part) (h : p ≠ .edge) (s z : State) (v) :
    p.Same z { s with edge := v } ↔ p.Same z s := by
  refine Part.same_iff ?_; cases p <;> first | rfl | exact absurd rfl h

/-! ### The updates of one block -/

@[simp] theorem State.updRegs_same (p : Part) (h : p ≠ .regs) (f : HostRegs → HostRegs) (s z : State) :
    p.Same z (s.updRegs f) ↔ p.Same z s := by
  refine Part.same_iff ?_; cases p <;> first | rfl | exact absurd rfl h

@[simp] theorem State.updGlb_same (p : Part) (h : p ≠ .glb) (f : Glb → Glb) (s z : State) :
    p.Same z (s.updGlb f) ↔ p.Same z s := by
  refine Part.same_iff ?_; cases p <;> first | rfl | exact absurd rfl h

@[simp] theorem State.updTb_same (p : Part) (h : p ≠ .tb) (f : Tb → Tb) (s z : State) :
    p.Same z (s.updTb f) ↔ p.Same z s := by
  refine Part.same_iff ?_; cases p <;> first | rfl | exact absurd rfl h

@[simp] theorem State.updRgn_same (p : Part) (h : p ≠ .rgn) (f : Rgn → Rgn) (s z : State) :
    p.Same z (s.updRgn f) ↔ p.Same z s := by
  refine Part.same_iff ?_; cases p <;> first | rfl | exact absurd rfl h

@[simp] theorem State.updOtl_same (p : Part) (h : p ≠ .otl) (f : Otl → Otl) (s z : State) :
    p.Same z (s.updOtl f) ↔ p.Same z s := by
  refine Part.same_iff ?_; cases p <;> first | rfl | exact absurd rfl h

@[simp] theorem State.updJobs_same (p : Part) (h : p ≠ .jobs) (f : Jobs → Jobs) (s z : State) :
    p.Same z (s.updJobs f) ↔ p.Same z s := by
  refine Part.same_iff ?_; cases p <;> first | rfl | exact absurd rfl h

@[simp] theorem State.updCtx_same (p : Part) (h : p ≠ .ctx) (f : CtxMgr → CtxMgr) (s z : State) :
    p.Same z (s.updCtx f) ↔ p.Same z s := by
  refine Part.same_iff ?_; cases p <;> first | rfl | exact absurd rfl h

@[simp] theorem State.updTir_same (p : Part) (h : p ≠ .tir) (f : Tir → Tir) (s z : State) :
    p.Same z (s.updTir f) ↔ p.Same z s := by
  refine Part.same_iff ?_; cases p <;> first | rfl | exact absurd rfl h

@[simp] theorem State.updChn_same (p : Part) (h : p ≠ .chn) (f : Chn → Chn) (s z : State) :
    p.Same z (s.updChn f) ↔ p.Same z s := by
  refine Part.same_iff ?_; cases p <;> first | rfl | exact absurd rfl h

@[simp] theorem State.updLnw_same (p : Part) (h : p ≠ .lnw) (f : Lnw → Lnw) (s z : State) :
    p.Same z (s.updLnw f) ↔ p.Same z s := by
  refine Part.same_iff ?_; cases p <;> first | rfl | exact absurd rfl h

@[simp] theorem State.updIng_same (p : Part) (h : p ≠ .ing) (f : Ing → Ing) (s z : State) :
    p.Same z (s.updIng f) ↔ p.Same z s := by
  refine Part.same_iff ?_; cases p <;> first | rfl | exact absurd rfl h

@[simp] theorem State.updTrc_same (p : Part) (h : p ≠ .trc) (f : Trc → Trc) (s z : State) :
    p.Same z (s.updTrc f) ↔ p.Same z s := by
  refine Part.same_iff ?_; cases p <;> first | rfl | exact absurd rfl h

@[simp] theorem State.updXh_same (p : Part) (h : p ≠ .xh) (f : Xh → Xh) (s z : State) :
    p.Same z (s.updXh f) ↔ p.Same z s := by
  refine Part.same_iff ?_; cases p <;> first | rfl | exact absurd rfl h

@[simp] theorem State.updSty_same (p : Part) (h : p ≠ .sty) (f : Sty → Sty) (s z : State) :
    p.Same z (s.updSty f) ↔ p.Same z s := by
  refine Part.same_iff ?_; cases p <;> first | rfl | exact absurd rfl h

@[simp] theorem State.updEth_same (p : Part) (h : p ≠ .eth) (f : Eth → Eth) (s z : State) :
    p.Same z (s.updEth f) ↔ p.Same z s := by
  refine Part.same_iff ?_; cases p <;> first | rfl | exact absurd rfl h

@[simp] theorem State.updPrf_same (p : Part) (h : p ≠ .prf) (f : Prf → Prf) (s z : State) :
    p.Same z (s.updPrf f) ↔ p.Same z s := by
  refine Part.same_iff ?_; cases p <;> first | rfl | exact absurd rfl h

@[simp] theorem State.updBrn_same (p : Part) (h : p ≠ .brn) (f : Brn → Brn) (s z : State) :
    p.Same z (s.updBrn f) ↔ p.Same z s := by
  refine Part.same_iff ?_; cases p <;> first | rfl | exact absurd rfl h

@[simp] theorem State.updSec_same (p : Part) (h : p ≠ .sec) (f : Sec → Sec) (s z : State) :
    p.Same z (s.updSec f) ↔ p.Same z s := by
  refine Part.same_iff ?_; cases p <;> first | rfl | exact absurd rfl h

@[simp] theorem State.updPlt_same (p : Part) (h : p ≠ .plt) (f : List PlateSlice → List PlateSlice) (s z : State) :
    p.Same z (s.updPlt f) ↔ p.Same z s := by
  refine Part.same_iff ?_; cases p <;> first | rfl | exact absurd rfl h

@[simp] theorem State.updCores_same (p : Part) (h : p ≠ .cores) (f : List Core → List Core) (s z : State) :
    p.Same z (s.updCores f) ↔ p.Same z s := by
  refine Part.same_iff ?_; cases p <;> first | rfl | exact absurd rfl h

@[simp] theorem State.updClusters_same (p : Part) (h : p ≠ .clusters) (f : List Cluster → List Cluster) (s z : State) :
    p.Same z (s.updClusters f) ↔ p.Same z s := by
  refine Part.same_iff ?_; cases p <;> first | rfl | exact absurd rfl h

@[simp] theorem State.updCore_same (p : Part) (h : p ≠ .cores) (n : Nat) (f : Core → Core) (s z : State) :
    p.Same z (s.updCore n f) ↔ p.Same z s := by
  refine Part.same_iff ?_; cases p <;> first | rfl | exact absurd rfl h

@[simp] theorem State.updCluster_same (p : Part) (h : p ≠ .clusters) (n : Nat) (f : Cluster → Cluster) (s z : State) :
    p.Same z (s.updCluster n f) ↔ p.Same z s := by
  refine Part.same_iff ?_; cases p <;> first | rfl | exact absurd rfl h

@[simp] theorem State.bumpBy_same (p : Part) (h : p ≠ .counts) (c : Counter) (n : Nat) (s z : State) :
    p.Same z (s.bumpBy c n) ↔ p.Same z s := by
  refine Part.same_iff ?_; cases p <;> first | rfl | exact absurd rfl h

@[simp] theorem State.bump_same (p : Part) (h : p ≠ .counts) (c : Counter) (s z : State) :
    p.Same z (s.bump c) ↔ p.Same z s := by
  refine Part.same_iff ?_; cases p <;> first | rfl | exact absurd rfl h

@[simp] theorem State.clearCounts_same (p : Part) (h : p ≠ .counts) (b : Block) (s z : State) :
    p.Same z (s.clearCounts b) ↔ p.Same z s := by
  refine Part.same_iff ?_; cases p <;> first | rfl | exact absurd rfl h

@[simp] theorem State.updPort_same (p : Part) (h : p ≠ .eth) (q : Port) (f : EthPort → EthPort) (s z : State) :
    p.Same z (s.updPort q f) ↔ p.Same z s := by
  refine Part.same_iff ?_; cases p <;> first | rfl | exact absurd rfl h

@[simp] theorem State.updSession_same (p : Part) (h : p ≠ .eth) (i : Nat) (f : Session → Session) (s z : State) :
    p.Same z (s.updSession i f) ↔ p.Same z s := by
  refine Part.same_iff ?_; cases p <;> first | rfl | exact absurd rfl h

@[simp] theorem State.draw_same (p : Part) (h : p ≠ .fresh)  (s z : State) :
    p.Same z (s.draw.2) ↔ p.Same z s := by
  refine Part.same_iff ?_; cases p <;> first | rfl | exact absurd rfl h

@[simp] theorem State.choose_same (p : Part) (h : p ≠ .fresh) (n : Nat) (s z : State) :
    p.Same z ((s.choose n).2) ↔ p.Same z s := by
  refine Part.same_iff ?_; cases p <;> first | rfl | exact absurd rfl h

@[simp] theorem State.report_same (p : Part) (h : p ≠ .brn) (kind unit cls action code : Nat) (part : Option Nat) (job : Word) (detail : Nat) (s z : State) :
    p.Same z (s.report kind unit cls action code part job detail) ↔ p.Same z s := by
  refine Part.same_iff ?_; cases p <;> first | rfl | exact absurd rfl h

@[simp] theorem State.enqueue_same (p : Part) (h : p ≠ .pending) (cs : List Instr) (s z : State) :
    p.Same z (s.enqueue cs) ↔ p.Same z s := by
  refine Part.same_iff ?_; cases p <;> first | rfl | exact absurd rfl h

end Sys2Proof.Machine
end

