-- ==== Sys2Proof/Laws/FrameBase.lean ====
section
/-!
SUPPORT. Frames (Laws/Frame.lean): the shared operations.
-/

-- One thread elaborates: many small proofs at once would ask for more memory than the check allows.
set_option Elab.async false

namespace Sys2Proof.Machine

open Sys2Proof

set_option linter.unusedTactic false
set_option linter.unreachableTactic false
set_option linter.unnecessarySeqFocus false

/-! ### Ports -/

@[simp] theorem State.accrue_same (p : Part) (h : p ≠ .eth) (p₁ : Port) (s : State) (z : State) :
    p.Same z (State.accrue p₁ s) ↔ p.Same z s := by
  refine Part.same_iff ?_; unfold State.accrue; dsimp only; (repeat' split) <;> simp [h]

@[simp] theorem State.queueFrame_same (p : Part) (h : p ≠ .eth) (p₁ : Port) (f : TxFrame) (s : State) (z : State) :
    p.Same z (State.queueFrame p₁ f s) ↔ p.Same z s := by
  refine Part.same_iff ?_; unfold State.queueFrame; dsimp only; simp [h]

@[simp] theorem State.flush_same (p : Part) (h : p ≠ .eth) (i : Nat) (s : State) (z : State) :
    p.Same z (State.flush i s) ↔ p.Same z s := by
  refine Part.same_iff ?_; unfold State.flush; dsimp only; (repeat' split) <;> simp [h]

@[simp] theorem State.sendTo_same (p : Part) (h : p ≠ .eth) (i : Nat) (b : LimBody) (s : State) (z : State) :
    p.Same z (State.sendTo i b s) ↔ p.Same z s := by
  refine Part.same_iff ?_; unfold State.sendTo; split <;> simp [h]

@[simp] theorem State.sendAck_same (p : Part) (h : p ≠ .eth) (i : Nat) (s : State) (z : State) :
    p.Same z (State.sendAck i s) ↔ p.Same z s := by
  refine Part.same_iff ?_; unfold State.sendAck; dsimp only; simp [h]

@[simp] theorem State.delivered_same (p : Part) (h : p ≠ .eth) (i : Nat) (s : State) (z : State) :
    p.Same z (State.delivered i s) ↔ p.Same z s := by
  refine Part.same_iff ?_; unfold State.delivered; dsimp only; (repeat' split) <;> simp [h]

@[simp] theorem State.sendWhere_same (p : Part) (h : p ≠ .eth) (p₁ : Session → Bool) (b : LimBody) (s : State)
    (z : State) :
    p.Same z (State.sendWhere p₁ b s) ↔ p.Same z s := by
  refine Part.same_iff ?_; unfold State.sendWhere
  repeat'
    first
    | (simp [h]; done)
    | intro _
    | split
    | refine Part.same_foldl ?_ ?_
    | refine (Part.same_foldl_snd _ _ _ _ _ ?_).2 ?_
    | simp [h]

/-! ### Ops -/

@[simp] theorem State.request_same (p : Part) (h : p ≠ .counts ∧ p ≠ .eth) (i : Nat) (go : Session → State → State)
    (s z : State)
    (hg : ∀ y u, p.Same u (go y u)) :
    p.Same z (s.request i go) ↔ p.Same z s := by
  refine Part.same_iff ?_; unfold State.request; dsimp only; split
  · exact Part.same_trans (by simp [h]) (hg _ _)
  · simp [h]

@[simp] theorem State.event_same (p : Part) (h : p ≠ .eth) (part : Option Nat) (code : Nat) (words : List Word)
    (s : State) (z : State) :
    p.Same z (State.event part code words s) ↔ p.Same z s := by
  refine Part.same_iff ?_; unfold State.event; split <;> simp [h]

@[simp] theorem State.proofStop_same (p : Part) (h : p ≠ .prf) (s : State) (z : State) :
    p.Same z (State.proofStop s) ↔ p.Same z s := by
  refine Part.same_iff ?_; unfold State.proofStop; simp [h]

@[simp] theorem State.proofSafe_same (p : Part) (h : p ≠ .prf ∧ p ≠ .brn) (n : Nat) (s : State) (z : State) :
    p.Same z (State.proofSafe n s) ↔ p.Same z s := by
  refine Part.same_iff ?_; unfold State.proofSafe; dsimp only; simp [h]

@[simp] theorem State.closeFrame_same (p : Part) (h : p ≠ .prf ∧ p ≠ .brn) (n : Nat) (fr : RuleFrame) (s : State)
    (z : State) :
    p.Same z (State.closeFrame n fr s) ↔ p.Same z s := by
  refine Part.same_iff ?_; unfold State.closeFrame; dsimp only; (repeat' split) <;> simp [h]

@[simp] theorem State.missedLaunch_same (p : Part) (h : p ≠ .counts ∧ p ≠ .prf ∧ p ≠ .brn) (set : Option Nat)
    (s : State) (z : State) :
    p.Same z (State.missedLaunch set s) ↔ p.Same z s := by
  refine Part.same_iff ?_; unfold State.missedLaunch; split <;> simp [h]

/-! ### TierOps -/

@[simp] theorem State.allocUnits_same (p : Part) (h : p ≠ .fresh) (s : State) (tier : Nat) (n : Nat) (z : State) :
    p.Same z (State.allocUnits s tier n).2 ↔ p.Same z s := by
  refine Part.same_iff ?_; unfold State.allocUnits; dsimp only; split <;> simp [h]

@[simp] theorem State.allocMirror_same (p : Part) (h : p ≠ .fresh) (s : State) (start : Nat) (n : Nat) (z : State) :
    p.Same z (State.allocMirror s start n).2 ↔ p.Same z s := by
  refine Part.same_iff ?_; unfold State.allocMirror; dsimp only; split <;> simp [h]

@[simp] theorem State.allocBoth_same (p : Part) (h : p ≠ .fresh ∧ p ≠ .tir) (s : State) (mirrored : Bool) (n : Nat)
    (z : State) :
    p.Same z (State.allocBoth s mirrored n).2 ↔ p.Same z s := by
  refine Part.same_iff ?_; unfold State.allocBoth; dsimp only; (repeat' split) <;> simp [h]

@[simp] theorem State.allocPair_same (p : Part) (h : p ≠ .fresh) (s : State) (z : State) :
    p.Same z (State.allocPair s).2 ↔ p.Same z s := by
  refine Part.same_iff ?_; unfold State.allocPair; dsimp only; (repeat' split) <;> simp [h]

@[simp] theorem State.updObj_same (p : Part) (h : p ≠ .tir) (p₁ : ObjVersion → Bool) (f : ObjVersion → ObjVersion)
    (s : State) (z : State) :
    p.Same z (State.updObj p₁ f s) ↔ p.Same z s := by
  refine Part.same_iff ?_; unfold State.updObj; (repeat' split) <;> simp [h]

@[simp] theorem State.drawAddr_same (p : Part) (h : p ≠ .fresh) (s : State) (z : State) :
    p.Same z (State.drawAddr s).2 ↔ p.Same z s := by
  refine Part.same_iff ?_; unfold State.drawAddr; dsimp only; simp [h]

@[simp] theorem State.drawAddrs_same (p : Part) (h : p ≠ .fresh) (x1 : List Nat) (x2 : State) (z : State) :
    p.Same z (State.drawAddrs x1 x2).2 ↔ p.Same z x2 := by
  induction x1 generalizing x2 with
  | nil => exact Iff.rfl
  | cons n r ih => simp [State.drawAddrs, State.drawAddr, ih, h]

@[simp] theorem State.withExtents_same (p : Part) (h : p ≠ .fresh) (es : List Nat) (o : ObjVersion) (s : State)
    (z : State) :
    p.Same z (State.withExtents es o s).2 ↔ p.Same z s := by
  refine Part.same_iff ?_; unfold State.withExtents; dsimp only; split <;> simp [h]

@[simp] theorem State.dropTags_same (p : Part) (h : p ≠ .tir ∧ p ≠ .chn ∧ p ≠ .lnw) (ts : List (BitVec 16))
    (s : State) (z : State) :
    p.Same z (State.dropTags ts s) ↔ p.Same z s := by
  refine Part.same_iff ?_; unfold State.dropTags; dsimp only; simp [h]

@[simp] theorem State.wake_same (p : Part) (h : p ≠ .cores) (as : List (Word × Nat)) (s : State) (z : State) :
    p.Same z (State.wake as s) ↔ p.Same z s := by
  refine Part.same_iff ?_; unfold State.wake
  repeat'
    first
    | (simp [h]; done)
    | intro _
    | split
    | refine Part.same_foldl ?_ ?_
    | refine (Part.same_foldl_snd _ _ _ _ _ ?_).2 ?_
    | simp [h]

@[simp] theorem State.endFetches_same (p : Part) (h : p ≠ .cores ∧ p ≠ .tir ∧ p ≠ .chn ∧ p ≠ .lnw) (o : ObjVersion)
    (s : State) (z : State) :
    p.Same z (State.endFetches o s) ↔ p.Same z s := by
  refine Part.same_iff ?_; unfold State.endFetches; dsimp only; simp [h]

@[simp] theorem State.awaitCheck_same (p : Part) (h : p ≠ .tir) (o : ObjVersion) (w : CheckWait) (s : State)
    (z : State) :
    p.Same z (State.awaitCheck o w s) ↔ p.Same z s := by
  refine Part.same_iff ?_; unfold State.awaitCheck; simp [h]

@[simp] theorem State.giveUp_same (p : Part) (h : p ≠ .tir) (tier : Nat) (start : Nat) (len : Nat) (s : State) (z : State) :
    p.Same z (State.giveUp tier start len s) ↔ p.Same z s := by
  refine Part.same_iff ?_; unfold State.giveUp; simp [h]

@[simp] theorem State.giveBack_same (p : Part) (h : p ≠ .tir) (w : TierWrite) (s : State) (z : State) :
    p.Same z (State.giveBack w s) ↔ p.Same z s := by
  refine Part.same_iff ?_; unfold State.giveBack; split <;> simp [h]

@[simp] theorem State.dropWrites_same (p : Part) (h : p ≠ .tir) (p₁ : TierWrite → Bool) (s : State) (z : State) :
    p.Same z (State.dropWrites p₁ s) ↔ p.Same z s := by
  refine Part.same_iff ?_; unfold State.dropWrites; dsimp only; simp [h]

@[simp] theorem State.dropLoads_same (p : Part) (h : p ≠ .tir) (p₁ : LoadOp → Bool) (s : State) (z : State) :
    p.Same z (State.dropLoads p₁ s) ↔ p.Same z s := by
  refine Part.same_iff ?_; unfold State.dropLoads; dsimp only; simp [h]

@[simp] theorem State.freeCopy_same (p : Part) (h : p ≠ .tir) (tier : Nat) (o : ObjVersion) (s : State) (z : State) :
    p.Same z (State.freeCopy tier o s) ↔ p.Same z s := by
  refine Part.same_iff ?_; unfold State.freeCopy; dsimp only; split <;> simp [h]

@[simp] theorem State.freeVersion_same (p : Part) (h : p ≠ .cores ∧ p ≠ .tir ∧ p ≠ .chn ∧ p ≠ .lnw) (o : ObjVersion)
    (s : State) (z : State) :
    p.Same z (State.freeVersion o s) ↔ p.Same z s := by
  refine Part.same_iff ?_; unfold State.freeVersion; dsimp only; simp [h]

@[simp] theorem State.reap_same (p : Part) (h : p ≠ .cores ∧ p ≠ .tir ∧ p ≠ .chn ∧ p ≠ .lnw) (s : State) (z : State) :
    p.Same z (State.reap s) ↔ p.Same z s := by
  refine Part.same_iff ?_; unfold State.reap; simp [h]

@[simp] theorem State.markGone_same (p : Part) (h : p ≠ .jobs) (o : ObjVersion) (s : State) (z : State) :
    p.Same z (State.markGone o s) ↔ p.Same z s := by
  refine Part.same_iff ?_; unfold State.markGone; (repeat' split) <;> simp [h]

@[simp] theorem State.loseCopies_same (p : Part) (h : p ≠ .cores ∧ p ≠ .jobs ∧ p ≠ .tir ∧ p ≠ .chn ∧ p ≠ .lnw)
    (st : DirState) (o : ObjVersion) (s : State) (z : State) :
    p.Same z (State.loseCopies st o s) ↔ p.Same z s := by
  refine Part.same_iff ?_; unfold State.loseCopies; simp [h]

@[simp] theorem State.makeAbsent_same (p : Part) (h : p ≠ .cores ∧ p ≠ .jobs ∧ p ≠ .tir ∧ p ≠ .chn ∧ p ≠ .lnw)
    (o : ObjVersion) (s : State) (z : State) :
    p.Same z (State.makeAbsent o s) ↔ p.Same z s := by
  refine Part.same_iff ?_; unfold State.makeAbsent; simp [h]

@[simp] theorem State.queueWrite_same (p : Part) (h : p ≠ .tir) (w : TierWrite) (s : State) (z : State) :
    p.Same z (State.queueWrite w s) ↔ p.Same z s := by
  refine Part.same_iff ?_; unfold State.queueWrite; simp [h]

@[simp] theorem State.alloc_same (p : Part) (h : p ≠ .fresh ∧ p ≠ .tir) (w : TierWrite) (s : State) (z : State) :
    p.Same z (State.alloc w s).2 ↔ p.Same z s := by
  refine Part.same_iff ?_; unfold State.alloc; dsimp only; split <;> simp [h]

@[simp] theorem State.queueIf_same (p : Part) (h : p ≠ .fresh ∧ p ≠ .tir) (w : TierWrite) (s : State) (z : State) :
    p.Same z (State.queueIf w s).2 ↔ p.Same z s := by
  refine Part.same_iff ?_; unfold State.queueIf; dsimp only; (repeat' split) <;> simp [h]

@[simp] theorem State.shortT3_same (p : Part) (h : p ≠ .tir) (s : State) (z : State) :
    p.Same z (State.shortT3 s) ↔ p.Same z s := by
  refine Part.same_iff ?_; unfold State.shortT3; simp [h]

@[simp] theorem State.startDemotion_same (p : Part) (h : p ≠ .fresh ∧ p ≠ .tir) (o : ObjVersion) (tier : Nat)
    (s : State) (z : State) :
    p.Same z (State.startDemotion o tier s).2 ↔ p.Same z s := by
  refine Part.same_iff ?_; unfold State.startDemotion; dsimp only; (repeat' split) <;> simp [h]

@[simp] theorem State.demoteLast_same (p : Part) (h : p ≠ .fresh ∧ p ≠ .tir) (tier : Nat) (o : ObjVersion) (s : State)
    (z : State) :
    p.Same z (State.demoteLast tier o s) ↔ p.Same z s := by
  refine Part.same_iff ?_; unfold State.demoteLast; dsimp only; (repeat' split) <;> simp [h]

@[simp] theorem State.evictT2_same (p : Part) (h : p ≠ .fresh ∧ p ≠ .counts ∧ p ≠ .cores ∧ p ≠ .jobs ∧ p ≠ .tir ∧ p ≠
    .chn ∧ p ≠ .lnw) (q : Nat) (need : Nat) (o : ObjVersion) (s : State) (z : State) :
    p.Same z (State.evictT2 q need o s) ↔ p.Same z s := by
  refine Part.same_iff ?_; unfold State.evictT2; dsimp only; (repeat' split) <;> simp [h]

@[simp] theorem State.evictBelow_same (p : Part) (h : p ≠ .fresh ∧ p ≠ .counts ∧ p ≠ .cores ∧ p ≠ .jobs ∧ p ≠ .tir ∧
    p ≠ .chn ∧ p ≠ .lnw) (tier : Nat) (q : Nat) (o : ObjVersion) (s : State) (z : State) :
    p.Same z (State.evictBelow tier q o s) ↔ p.Same z s := by
  refine Part.same_iff ?_; unfold State.evictBelow; (repeat' split) <;> simp [h]

@[simp] theorem State.evictFor_same (p : Part) (h : p ≠ .fresh ∧ p ≠ .counts ∧ p ≠ .cores ∧ p ≠ .jobs ∧ p ≠ .tir ∧ p
    ≠ .chn ∧ p ≠ .lnw) (tier : Nat) (q : Nat) (need : Nat) (mirrored : Bool) (x1 : List ObjVersion) (x2 : State)
    (z : State) :
    p.Same z (State.evictFor tier q need mirrored x1 x2) ↔ p.Same z x2 := by
  fun_induction State.evictFor tier q need mirrored x1 x2 <;> (repeat' (first | (simp_all; done) | (simp_all +zetaDelta; done) | split))

@[simp] theorem State.roomT2_same (p : Part) (h : p ≠ .fresh ∧ p ≠ .counts ∧ p ≠ .cores ∧ p ≠ .jobs ∧ p ≠ .tir ∧ p ≠
    .chn ∧ p ≠ .lnw) (q : Nat) (need : Nat) (s : State) (z : State) :
    p.Same z (State.roomT2 q need s).2 ↔ p.Same z s := by
  refine Part.same_iff ?_; unfold State.roomT2; dsimp only; split <;> simp [h]

@[simp] theorem State.roomBelow_same (p : Part) (h : p ≠ .fresh ∧ p ≠ .counts ∧ p ≠ .cores ∧ p ≠ .jobs ∧ p ≠ .tir ∧ p
    ≠ .chn ∧ p ≠ .lnw) (tier : Nat) (q : Nat) (n : Nat) (mirrored : Bool) (s : State) (z : State) :
    p.Same z (State.roomBelow tier q n mirrored s).2 ↔ p.Same z s := by
  refine Part.same_iff ?_; unfold State.roomBelow; dsimp only; split <;> simp [h]

@[simp] theorem State.startCopy_same (p : Part) (h : p ≠ .fresh ∧ p ≠ .counts ∧ p ≠ .cores ∧ p ≠ .jobs ∧ p ≠ .tir ∧ p
    ≠ .chn ∧ p ≠ .lnw) (kind : TierWriteKind) (o : ObjVersion) (tier : Nat) (s : State) (z : State) :
    p.Same z (State.startCopy kind o tier s) ↔ p.Same z s := by
  refine Part.same_iff ?_; unfold State.startCopy; dsimp only; (repeat' split) <;> simp [h]

@[simp] theorem State.placeWaiting_same (p : Part) (h : p ≠ .fresh ∧ p ≠ .counts ∧ p ≠ .cores ∧ p ≠ .jobs ∧ p ≠ .tir
    ∧ p ≠ .chn ∧ p ≠ .lnw) (s : State) (z : State) :
    p.Same z (State.placeWaiting s) ↔ p.Same z s := by
  refine Part.same_iff ?_; unfold State.placeWaiting; dsimp only; (repeat' split) <;> simp [h]

@[simp] theorem State.waitT2_same (p : Part) (h : p ≠ .counts ∧ p ≠ .tir) (w : AllocWait) (s : State) (z : State) :
    p.Same z (State.waitT2 w s) ↔ p.Same z s := by
  refine Part.same_iff ?_; unfold State.waitT2; simp [h]

@[simp] theorem State.takeRef_same (p : Part) (h : p ≠ .counts ∧ p ≠ .tir) (tier : Nat) (part : Nat) (obj : Word)
    (ver : Nat) (s : State) (z : State) :
    p.Same z (State.takeRef tier part obj ver s) ↔ p.Same z s := by
  refine Part.same_iff ?_; unfold State.takeRef; dsimp only; (repeat' split) <;> simp [h]

@[simp] theorem State.freeRef_same (p : Part) (h : p ≠ .cores ∧ p ≠ .tir ∧ p ≠ .chn ∧ p ≠ .lnw) (tier : Nat)
    (part : Nat) (obj : Word) (ver : Nat) (s : State) (z : State) :
    p.Same z (State.freeRef tier part obj ver s) ↔ p.Same z s := by
  refine Part.same_iff ?_; unfold State.freeRef; split <;> simp [h]

@[simp] theorem State.takeVref_same (p : Part) (h : p ≠ .counts ∧ p ≠ .tir) (part : Nat) (obj : Word) (ver : Nat)
    (s : State) (z : State) :
    p.Same z (State.takeVref part obj ver s) ↔ p.Same z s := by
  refine Part.same_iff ?_; unfold State.takeVref; dsimp only; split <;> simp [h]

@[simp] theorem State.freeVref_same (p : Part) (h : p ≠ .cores ∧ p ≠ .tir ∧ p ≠ .chn ∧ p ≠ .lnw) (part : Nat)
    (obj : Word) (ver : Nat) (s : State) (z : State) :
    p.Same z (State.freeVref part obj ver s) ↔ p.Same z s := by
  refine Part.same_iff ?_; unfold State.freeVref; simp [h]

@[simp] theorem State.releaseRefs_same (p : Part) (h : p ≠ .cores ∧ p ≠ .tir ∧ p ≠ .chn ∧ p ≠ .lnw)
    (p₁ : TierRef → Bool) (s : State) (z : State) :
    p.Same z (State.releaseRefs p₁ s) ↔ p.Same z s := by
  refine Part.same_iff ?_; unfold State.releaseRefs; dsimp only; simp [h]

@[simp] theorem State.setSeq_same (p : Part) (h : p ≠ .tir) (part : Nat) (obj : Word) (ver : Nat) (s : State)
    (z : State) :
    p.Same z (State.setSeq part obj ver s) ↔ p.Same z s := by
  refine Part.same_iff ?_; unfold State.setSeq; simp [h]

@[simp] theorem State.renumber_same (p : Part) (h : p ≠ .jobs ∧ p ≠ .tir ∧ p ≠ .lnw) (part : Nat) (obj : Word)
    (ver : Nat) (new : Nat) (s : State) (z : State) :
    p.Same z (State.renumber part obj ver new s) ↔ p.Same z s := by
  refine Part.same_iff ?_; unfold State.renumber; dsimp only; (repeat' split) <;> simp [h]

@[simp] theorem State.publish_same (p : Part) (h : p ≠ .cores ∧ p ≠ .jobs ∧ p ≠ .tir ∧ p ≠ .chn ∧ p ≠ .lnw)
    (o : ObjVersion) (s : State) (z : State) :
    p.Same z (State.publish o s) ↔ p.Same z s := by
  refine Part.same_iff ?_; unfold State.publish; dsimp only; (repeat' split) <;> simp [h]

@[simp] theorem State.placeHome_same (p : Part) (h : p ≠ .fresh ∧ p ≠ .counts ∧ p ≠ .cores ∧ p ≠ .jobs ∧ p ≠ .tir ∧ p
    ≠ .chn ∧ p ≠ .lnw) (o : ObjVersion) (s : State) (z : State) :
    p.Same z (State.placeHome o s) ↔ p.Same z s := by
  refine Part.same_iff ?_; unfold State.placeHome; split <;> simp [h]

@[simp] theorem State.sealOutput_same (p : Part) (h : p ≠ .fresh ∧ p ≠ .counts ∧ p ≠ .cores ∧ p ≠ .jobs ∧ p ≠ .tir ∧
    p ≠ .chn ∧ p ≠ .lnw) (part : Nat) (obj : Word) (job : Word) (len : Nat) (data : Memory) (s : State) (z : State) :
    p.Same z (State.sealOutput part obj job len data s) ↔ p.Same z s := by
  refine Part.same_iff ?_; unfold State.sealOutput; dsimp only; split <;> simp [h]

@[simp] theorem State.freeAbsent_same (p : Part) (h : p ≠ .cores ∧ p ≠ .tir ∧ p ≠ .chn ∧ p ≠ .lnw) (n : Nat)
    (x1 : List ObjVersion) (x2 : State) (z : State) :
    p.Same z (State.freeAbsent n x1 x2) ↔ p.Same z x2 := by
  fun_induction State.freeAbsent n x1 x2 <;> simp_all

@[simp] theorem State.reserveEntries_same (p : Part) (h : p ≠ .cores ∧ p ≠ .tir ∧ p ≠ .chn ∧ p ≠ .lnw) (n : Nat)
    (s : State) (z : State) :
    p.Same z (State.reserveEntries n s).2 ↔ p.Same z s := by
  refine Part.same_iff ?_; unfold State.reserveEntries; dsimp only; split <;> simp [h]

/-! ### TierFetch -/

@[simp] theorem State.updChan_same (p : Part) (h : p ≠ .chn) (ch : Channel) (f : MemChannel → MemChannel)
    (s : State) (z : State) :
    p.Same z (State.updChan ch f s) ↔ p.Same z s := by
  refine Part.same_iff ?_; unfold State.updChan; split <;> simp [h]

@[simp] theorem State.charge_same (p : Part) (h : p ≠ .counts ∧ p ≠ .lnw) (part : Nat) (m : Nat) (units : Nat) (s : State)
    (z : State) :
    p.Same z (State.charge part m units s).2 ↔ p.Same z s := by
  refine Part.same_iff ?_; unfold State.charge; dsimp only; split <;> simp [h]

@[simp] theorem State.queueUnit_same (p : Part) (h : p ≠ .counts ∧ p ≠ .chn ∧ p ≠ .lnw) (r : TierRequest) (unit : Nat)
    (s : State) (z : State) :
    p.Same z (State.queueUnit r unit s) ↔ p.Same z s := by
  refine Part.same_iff ?_; unfold State.queueUnit; dsimp only; (repeat' split) <;> simp [h]

@[simp] theorem State.feedQueues_same (p : Part) (h : p ≠ .counts ∧ p ≠ .chn ∧ p ≠ .lnw) (s : State) (z : State) :
    p.Same z (State.feedQueues s) ↔ p.Same z s := by
  refine Part.same_iff ?_; unfold State.feedQueues; dsimp only
  repeat'
    first
    | (simp [h]; done)
    | intro _
    | split
    | refine Part.same_foldl ?_ ?_
    | refine (Part.same_foldl_snd _ _ _ _ _ ?_).2 ?_
    | simp [h]

@[simp] theorem State.raiseTag_same (p : Part) (h : p ≠ .counts ∧ p ≠ .tir ∧ p ≠ .chn ∧ p ≠ .lnw) (tag : BitVec 16)
    (s : State) (z : State) :
    p.Same z (State.raiseTag tag s) ↔ p.Same z s := by
  refine Part.same_iff ?_; unfold State.raiseTag; dsimp only; (repeat' split) <;> simp [h]

@[simp] theorem State.joinFetch_same (p : Part) (h : p ≠ .counts ∧ p ≠ .tir ∧ p ≠ .chn ∧ p ≠ .lnw) (job : Word)
    (slot : Nat) (r : TierRequest) (s : State) (z : State) :
    p.Same z (State.joinFetch job slot r s) ↔ p.Same z s := by
  refine Part.same_iff ?_; unfold State.joinFetch; (repeat' split) <;> simp [h]

@[simp] theorem State.fetchExtent_same (p : Part) (h : p ≠ .fresh ∧ p ≠ .counts ∧ p ≠ .cores ∧ p ≠ .jobs ∧ p ≠ .tir ∧
    p ≠ .chn ∧ p ≠ .lnw) (job : Word) (slot : Nat) (e : Nat) (o : ObjVersion) (s : State) (z : State) :
    p.Same z (State.fetchExtent job slot e o s) ↔ p.Same z s := by
  refine Part.same_iff ?_; unfold State.fetchExtent; dsimp only; (repeat' split) <;> simp [h]

@[simp] theorem State.missExtent_same (p : Part) (h : p ≠ .fresh ∧ p ≠ .counts ∧ p ≠ .cores ∧ p ≠ .jobs ∧ p ≠ .tir ∧
    p ≠ .chn ∧ p ≠ .lnw) (job : Word) (slot : Nat) (core : Nat) (master : Nat) (e : Nat) (o : ObjVersion) (s : State)
    (z : State) :
    p.Same z (State.missExtent job slot core master e o s) ↔ p.Same z s := by
  refine Part.same_iff ?_; unfold State.missExtent; dsimp only; (repeat' split) <;> simp [h]

@[simp] theorem State.issueWaiting_same (p : Part) (h : p ≠ .fresh ∧ p ≠ .counts ∧ p ≠ .cores ∧ p ≠ .jobs ∧ p ≠ .tir
    ∧ p ≠ .chn ∧ p ≠ .lnw) (s : State) (z : State) :
    p.Same z (State.issueWaiting s) ↔ p.Same z s := by
  refine Part.same_iff ?_; unfold State.issueWaiting; dsimp only
  repeat'
    first
    | (simp [h]; done)
    | intro _
    | split
    | refine Part.same_foldl ?_ ?_
    | refine (Part.same_foldl_snd _ _ _ _ _ ?_).2 ?_
    | simp [h]

@[simp] theorem State.promoteT2_same (p : Part) (h : p ≠ .fresh ∧ p ≠ .counts ∧ p ≠ .cores ∧ p ≠ .jobs ∧ p ≠ .tir ∧ p
    ≠ .chn ∧ p ≠ .lnw) (part : Nat) (obj : Word) (ver : Nat) (s : State) (z : State) :
    p.Same z (State.promoteT2 part obj ver s) ↔ p.Same z s := by
  refine Part.same_iff ?_; unfold State.promoteT2; dsimp only
  repeat'
    first
    | (simp [h]; done)
    | intro _
    | split
    | refine Part.same_foldl ?_ ?_
    | refine (Part.same_foldl_snd _ _ _ _ _ ?_).2 ?_
    | simp [h]

@[simp] theorem State.loseExtents_same (p : Part) (h : p ≠ .fresh ∧ p ≠ .counts ∧ p ≠ .cores ∧ p ≠ .jobs ∧ p ≠ .tir ∧
    p ≠ .chn ∧ p ≠ .lnw) (lost : Nat → Bool) (o : ObjVersion) (s : State) (z : State) :
    p.Same z (State.loseExtents lost o s) ↔ p.Same z s := by
  refine Part.same_iff ?_; unfold State.loseExtents; dsimp only; split <;> simp [h]

@[simp] theorem State.promoteT3_same (p : Part) (h : p ≠ .fresh ∧ p ≠ .counts ∧ p ≠ .cores ∧ p ≠ .jobs ∧ p ≠ .tir ∧ p
    ≠ .chn ∧ p ≠ .lnw) (part : Nat) (obj : Word) (ver : Nat) (s : State) (z : State) :
    p.Same z (State.promoteT3 part obj ver s) ↔ p.Same z s := by
  refine Part.same_iff ?_; unfold State.promoteT3; (repeat' split) <;> simp [h]

/-! ### KvPages -/

@[simp] theorem State.updPage_same (p : Part) (h : p ≠ .ctx) (i : Nat) (f : PageRecord → PageRecord) (s : State)
    (z : State) :
    p.Same z (State.updPage i f s) ↔ p.Same z s := by
  refine Part.same_iff ?_; unfold State.updPage; (repeat' split) <;> simp [h]

@[simp] theorem State.freeRecord_same (p : Part) (h : p ≠ .fresh) (s : State) (z : State) :
    p.Same z (State.freeRecord s).2 ↔ p.Same z s := by
  refine Part.same_iff ?_; unfold State.freeRecord; dsimp only; simp [h]

@[simp] theorem State.openPage_same (p : Part) (h : p ≠ .fresh ∧ p ≠ .ctx) (p₁ : Nat) (data : Memory) (s : State)
    (z : State) :
    p.Same z (State.openPage p₁ data s).2 ↔ p.Same z s := by
  refine Part.same_iff ?_; unfold State.openPage; dsimp only; (repeat' split) <;> simp [h]

@[simp] theorem State.noFrame_same (p : Part) (h : p ≠ .ctx) (s : State) (z : State) :
    p.Same z (State.noFrame s) ↔ p.Same z s := by
  refine Part.same_iff ?_; unfold State.noFrame; simp [h]

@[simp] theorem State.freePage_same (p : Part) (h : p ≠ .ctx ∧ p ≠ .tir) (g : PageRecord) (s : State) (z : State) :
    p.Same z (State.freePage g s) ↔ p.Same z s := by
  refine Part.same_iff ?_; unfold State.freePage; dsimp only; split <;> simp [h]

@[simp] theorem State.dropPage_same (p : Part) (h : p ≠ .ctx ∧ p ≠ .tir) (i : Nat) (s : State) (z : State) :
    p.Same z (State.dropPage i s) ↔ p.Same z s := by
  refine Part.same_iff ?_; unfold State.dropPage; (repeat' split) <;> simp [h]

@[simp] theorem State.discardJournal_same (p : Part) (h : p ≠ .ctx ∧ p ≠ .tir) (j : Job) (s : State) (z : State) :
    p.Same z (State.discardJournal j s) ↔ p.Same z s := by
  refine Part.same_iff ?_; unfold State.discardJournal
  repeat'
    first
    | (simp [h]; done)
    | intro _
    | split
    | refine Part.same_foldl ?_ ?_
    | refine (Part.same_foldl_snd _ _ _ _ _ ?_).2 ?_
    | simp [h]

@[simp] theorem State.dropSwaps_same (p : Part) (h : p ≠ .ctx ∧ p ≠ .tir) (n : Nat) (s : State) (z : State) :
    p.Same z (State.dropSwaps n s) ↔ p.Same z s := by
  refine Part.same_iff ?_; unfold State.dropSwaps; simp [h]

@[simp] theorem State.releaseContext_same (p : Part) (h : p ≠ .ctx ∧ p ≠ .tir) (all : Bool) (c : Context)
    (s : State) (z : State) :
    p.Same z (State.releaseContext all c s) ↔ p.Same z s := by
  refine Part.same_iff ?_; unfold State.releaseContext; dsimp only
  rw [State.updCtx_same p (by simp [h]), State.dropSwaps_same p h]
  split
  · refine Part.same_foldl (fun u i => ?_) (Part.same_refl ..)
    (repeat' split) <;> simp [h]
  · refine Part.same_foldl (fun u i => by simp [h]) ?_
    refine Part.same_foldl (fun u i => ?_) (Part.same_refl ..)
    (repeat' split) <;> simp [h]

/-! ### Schedule -/

@[simp] theorem State.ppsRise_same (p : Part) (h : p ≠ .tb) (s : State) (z : State) :
    p.Same z (State.ppsRise s) ↔ p.Same z s := by
  refine Part.same_iff ?_; unfold State.ppsRise; split <;> simp [h]

@[simp] theorem State.reportHold_same (p : Part) (h : p ≠ .prf) (n : Nat) (s : State) (z : State) :
    p.Same z (State.reportHold n s) ↔ p.Same z s := by
  refine Part.same_iff ?_; unfold State.reportHold; simp [h]

@[simp] theorem State.skipFirings_same (p : Part) (h : p ≠ .counts ∧ p ≠ .sty ∧ p ≠ .prf ∧ p ≠ .brn) (a : Nat) (b : Nat)
    (s : State) (z : State) :
    p.Same z (State.skipFirings a b s) ↔ p.Same z s := by
  refine Part.same_iff ?_; unfold State.skipFirings; dsimp only; (repeat' split) <;> simp [h]

@[simp] theorem State.stepTime_same (p : Part) (h : p ≠ .counts ∧ p ≠ .tb ∧ p ≠ .rgn ∧ p ≠ .sty ∧ p ≠ .prf ∧ p ≠
    .brn) (d : Int) (s : State) (z : State) :
    p.Same z (State.stepTime d s) ↔ p.Same z s := by
  refine Part.same_iff ?_; unfold State.stepTime; dsimp only; (repeat' split) <;> simp [h]

end Sys2Proof.Machine
end

