-- ==== Sys2Proof/Laws/FrameTime.lean ====
section
/-!
SUPPORT. Frames (Laws/Frame.lean): time, firings and the Outline commands.
-/

-- One thread elaborates: many small proofs at once would ask for more memory than the check allows.
set_option Elab.async false

namespace Sys2Proof.Machine

open Sys2Proof

set_option linter.unusedTactic false
set_option linter.unreachableTactic false
set_option linter.unnecessarySeqFocus false

/-! ### Timebase -/

@[simp] theorem State.startSlew_same (p : Part) (h : p ≠ .tb) (o : Int) (rate : Nat) (s : State) (z : State) :
    p.Same z (State.startSlew o rate s) ↔ p.Same z s := by
  refine Part.same_iff ?_; unfold State.startSlew; dsimp only; (repeat' split) <;> simp [h]

@[simp] theorem State.setTrim_same (p : Part) (h : p ≠ .tb) (x : Int) (s : State) (z : State) :
    p.Same z (State.setTrim x s) ↔ p.Same z s := by
  refine Part.same_iff ?_; unfold State.setTrim; simp [h]

@[simp] theorem State.enterAcquiring_same (p : Part) (h : p ≠ .tb) (s : State) (z : State) :
    p.Same z (State.enterAcquiring s) ↔ p.Same z s := by
  refine Part.same_iff ?_; unfold State.enterAcquiring; simp [h]

@[simp] theorem State.ringSync_same (p : Part) (h : p ≠ .tb) (s : State) (z : State) :
    p.Same z (State.ringSync s) ↔ p.Same z s := by
  refine Part.same_iff ?_; unfold State.ringSync; simp [h]

@[simp] theorem State.followSync_same (p : Part) (h : p ≠ .tb) (o : Int) (trim : Int) (intervalEdges : Nat) (s : State)
    (z : State) :
    p.Same z (State.followSync o trim intervalEdges s) ↔ p.Same z s := by
  refine Part.same_iff ?_; unfold State.followSync; dsimp only; (repeat' split) <;> simp [h]

@[simp] theorem State.watchPps_same (p : Part) (h : p ≠ .tb) (s : State) (z : State) :
    p.Same z (State.watchPps s) ↔ p.Same z s := by
  refine Part.same_iff ?_; unfold State.watchPps; simp [h]

@[simp] theorem State.refuseSync_same (p : Part) (h : p ≠ .counts ∧ p ≠ .tb) (o : Int) (s : State) (z : State) :
    p.Same z (State.refuseSync o s) ↔ p.Same z s := by
  refine Part.same_iff ?_; unfold State.refuseSync; dsimp only; (repeat' split) <;> simp [h]

@[simp] theorem State.syncLaw_same (p : Part) (h : p ≠ .counts ∧ p ≠ .tb ∧ p ≠ .rgn ∧ p ≠ .sty ∧ p ≠ .prf ∧ p ≠ .brn)
    (o : Int) (trim : Int) (intervalEdges : Nat) (s : State) (z : State) :
    p.Same z (State.syncLaw o trim intervalEdges s) ↔ p.Same z s := by
  refine Part.same_iff ?_; unfold State.syncLaw; dsimp only; (repeat' split) <;> simp [h]

theorem execPllLossOfLock_same (p : Part) (h : p ≠ .counts ∧ p ≠ .glb ∧ p ≠ .prf ∧ p ≠ .brn) (s : State) {t : State} :
    execPllLossOfLock s = .next t → p.Same s t := by
  intro g; unfold execPllLossOfLock at g; injection g with g; subst g; split <;> simp [h]

theorem execTbCapture_same (p : Part) (h : p ≠ .tb) (v : Word) (s : State) {t : State} :
    execTbCapture v s = .next t → p.Same s t := by
  intro g; unfold execTbCapture at g; injection g with g; subst g; split <;> simp [h]

theorem execTbStepAccept_same (p : Part) (h : p ≠ .tb) (v : Word) (s : State) {t : State} :
    execTbStepAccept v s = .next t → p.Same s t := by
  intro g; unfold execTbStepAccept at g; injection g with g; subst g; split <;> simp [h]

theorem execTbSetGo_same (p : Part) (h : p ≠ .counts ∧ p ≠ .tb ∧ p ≠ .rgn ∧ p ≠ .sty ∧ p ≠ .prf ∧ p ≠ .brn)
    (v : Word) (s : State) {t : State} :
    execTbSetGo v s = .next t → p.Same s t := by
  intro g; unfold execTbSetGo at g; injection g with g; subst g; split <;> simp [h]

theorem execTbAdj_same (p : Part) (h : p ≠ .fresh ∧ p ≠ .tb) (v : Word) (s : State) {t : State} :
    execTbAdj v s = .next t → p.Same s t := by
  intro g; unfold execTbAdj at g; injection g with g; subst g; dsimp only; split <;> simp [h]

theorem execSlewComplete_same (p : Part) (h : p ≠ .tb) (s : State) {t : State} :
    execSlewComplete s = .next t → p.Same s t := by
  intro g; unfold execSlewComplete at g; injection g with g; subst g; simp [h]

theorem execStepHoldEnd_same (p : Part) (h : p ≠ .tb ∧ p ≠ .prf) (s : State) {t : State} :
    execStepHoldEnd s = .next t → p.Same s t := by
  intro g; unfold execStepHoldEnd at g; injection g with g; subst g; (repeat' split) <;> simp [h]

theorem execTbGpioOut_same (p : Part) (h : p ≠ .regs ∧ p ≠ .tb) (v : Word) (s : State) {t : State} :
    execTbGpioOut v s = .next t → p.Same s t := by
  intro g; unfold execTbGpioOut at g; injection g with g; subst g; (try dsimp only)
  repeat'
    first
    | (simp [h]; done)
    | intro _
    | split
    | refine Part.same_foldl ?_ ?_
    | refine (Part.same_foldl_snd _ _ _ _ _ ?_).2 ?_
    | refine (State.withRoom_same _ (by simp [h]) _ _ _ _ _ _ _ _ _ ?_).2 ?_
    | refine (State.act_same _ _ _ _ _ _ _ _ ?_).2 ?_
    | refine (State.resume_same _ _ _ _ _ _ _ ?_).2 ?_
    | refine (State.request_same _ (by simp [h]) _ _ _ _ ?_).2 ?_
    | refine (State.hint_same _ (by simp [h]) _ _ _ _ _ _ ?_).2 ?_
    | refine (State.ctxCommand_same _ (by simp [h]) _ _ _ _ _ _ ?_).2 ?_
    | refine (State.onContext_same _ _ _ _ _ _ _ ?_).2 ?_
    | refine (State.fire_same _ (by simp [h]) _ _ _ _ _ _ ?_).2 ?_
    | refine (State.bursts_same _ _ _ _ _ _ _ ?_).2 ?_
    | refine (State.withEpilogue_same _ (by simp [h]) _ _ _ _ _ _ _ _ _ ?_).2 ?_
    | simp [h]

theorem execPpsOutRise_same (p : Part) (h : p ≠ .tb) (s : State) {t : State} :
    execPpsOutRise s = .next t → p.Same s t := by
  intro g; unfold execPpsOutRise at g; injection g with g; subst g; simp [h]

theorem execPpsOutFall_same (p : Part) (h : p ≠ .tb) (s : State) {t : State} :
    execPpsOutFall s = .next t → p.Same s t := by
  intro g; unfold execPpsOutFall at g; injection g with g; subst g; (repeat' split) <;> simp [h]

@[simp] theorem State.setInMode_same (p : Part) (h : p ≠ .regs ∧ p ≠ .tb) (on : Bool) (s : State) (z : State) :
    p.Same z (State.setInMode on s) ↔ p.Same z s := by
  refine Part.same_iff ?_; unfold State.setInMode; dsimp only; split <;> simp [h]

theorem execPpsInEdge_same (p : Part) (h : p ≠ .fresh ∧ p ≠ .counts ∧ p ≠ .tb) (s : State) {t : State} :
    execPpsInEdge s = .next t → p.Same s t := by
  intro g; unfold execPpsInEdge at g; injection g with g; subst g; dsimp only; (repeat' split) <;> simp [h]

theorem execPpsLost_same (p : Part) (h : p ≠ .tb) (s : State) {t : State} :
    execPpsLost s = .next t → p.Same s t := by
  intro g; unfold execPpsLost at g; injection g with g; subst g; split <;> simp [h]

theorem execGpioEdgeCapture_same (p : Part) (h : p ≠ .counts ∧ p ≠ .tb) (pin : Fin 16) (rising : Bool)
    (s : State) {t : State} :
    execGpioEdgeCapture pin rising s = .next t → p.Same s t := by
  intro g; unfold execGpioEdgeCapture at g; injection g with g; subst g; dsimp only; (repeat' split) <;> simp [h]

theorem execGcapPop_same (p : Part) (h : p ≠ .tb) (pin : Fin 16) (s : State) {t : State} :
    execGcapPop pin s = .next t → p.Same s t := by
  intro g; unfold execGcapPop at g; injection g with g; subst g; simp [h]

theorem execLatchedHiRead_same (p : Part) (h : p ≠ .tb) (q : HiLatch) (s : State) {t : State} :
    execLatchedHiRead q s = .next t → p.Same s t := by
  intro g; unfold execLatchedHiRead at g; injection g with g; subst g; split <;> simp [h]

/-! ### Gptp -/

@[simp] theorem State.updGptp_same (p : Part) (h : p ≠ .tb) (p₁ : Port) (f : GptpPort → GptpPort) (s : State)
    (z : State) :
    p.Same z (State.updGptp p₁ f s) ↔ p.Same z s := by
  refine Part.same_iff ?_; unfold State.updGptp; simp [h]

@[simp] theorem State.sendGptp_same (p : Part) (h : p ≠ .eth) (p₁ : Port) (msgType : Nat) (seq : Nat) (logInterval : Int)
    (correction : Int) (body : List Byte) (use_ : StampUse) (s : State) (z : State) :
    p.Same z (State.sendGptp p₁ msgType seq logInterval correction body use_ s) ↔ p.Same z s := by
  refine Part.same_iff ?_; unfold State.sendGptp; simp [h]

@[simp] theorem State.sendPdelayReq_same (p : Part) (h : p ≠ .tb ∧ p ≠ .eth) (p₁ : Port) (s : State) (z : State) :
    p.Same z (State.sendPdelayReq p₁ s) ↔ p.Same z s := by
  refine Part.same_iff ?_; unfold State.sendPdelayReq; dsimp only; simp [h]

@[simp] theorem State.sendSync_same (p : Part) (h : p ≠ .tb ∧ p ≠ .eth) (p₁ : Port) (source : Option SyncSource)
    (s : State) (z : State) :
    p.Same z (State.sendSync p₁ source s) ↔ p.Same z s := by
  refine Part.same_iff ?_; unfold State.sendSync; dsimp only; simp [h]

@[simp] theorem State.sendFollowUp_same (p : Part) (h : p ≠ .eth) (p₁ : Port) (seq : BitVec 16)
    (source : Option SyncSource) (t : Int) (s : State) (z : State) :
    p.Same z (State.sendFollowUp p₁ seq source t s) ↔ p.Same z s := by
  refine Part.same_iff ?_; unfold State.sendFollowUp; dsimp only; split <;> simp [h]

@[simp] theorem State.stampSent_same (p : Part) (h : p ≠ .tb ∧ p ≠ .eth) (p₁ : Port) (use_ : StampUse) (t : Int)
    (s : State) (z : State) :
    p.Same z (State.stampSent p₁ use_ t s) ↔ p.Same z s := by
  refine Part.same_iff ?_; unfold State.stampSent; split <;> simp [h]

@[simp] theorem State.enterGrandmaster_same (p : Part) (h : p ≠ .tb) (s : State) (z : State) :
    p.Same z (State.enterGrandmaster s) ↔ p.Same z s := by
  refine Part.same_iff ?_; unfold State.enterGrandmaster; simp [h]

@[simp] theorem State.loseMaster_same (p : Part) (h : p ≠ .tb) (s : State) (z : State) :
    p.Same z (State.loseMaster s) ↔ p.Same z s := by
  refine Part.same_iff ?_; unfold State.loseMaster; (repeat' split) <;> simp [h]

@[simp] theorem State.reselect_same (p : Part) (h : p ≠ .tb) (timeout : Bool) (s : State) (z : State) :
    p.Same z (State.reselect timeout s) ↔ p.Same z s := by
  refine Part.same_iff ?_; unfold State.reselect; dsimp only; (repeat' split) <;> simp [h]

@[simp] theorem State.syncComplete_same (p : Part) (h : p ≠ .counts ∧ p ≠ .tb ∧ p ≠ .rgn ∧ p ≠ .sty ∧ p ≠ .prf ∧ p ≠
    .brn) (p₁ : Port) (m : SyncMsg) (sec : BitVec 48) (ns : Nat) (correction : Int) (rate : Int) (s : State) (z : State) :
    p.Same z (State.syncComplete p₁ m sec ns correction rate s) ↔ p.Same z s := by
  refine Part.same_iff ?_; unfold State.syncComplete; dsimp only; simp [h]

@[simp] theorem State.relaySync_same (p : Part) (h : p ≠ .tb ∧ p ≠ .eth) (p₁ : Port) (s : State) (z : State) :
    p.Same z (State.relaySync p₁ s) ↔ p.Same z s := by
  refine Part.same_iff ?_; unfold State.relaySync; split <;> simp [h]

theorem execSyncReceived_same (p : Part) (h : p ≠ .counts ∧ p ≠ .tb ∧ p ≠ .rgn ∧ p ≠ .sty ∧ p ≠ .eth ∧ p ≠ .prf ∧ p ≠
    .brn) (p₁ : Port) (m : SyncMsg) (s : State) {t : State} :
    execSyncReceived p₁ m s = .next t → p.Same s t := by
  intro g; unfold execSyncReceived at g; injection g with g; subst g; (repeat' split) <;> simp [h]

theorem execFollowUpReceived_same (p : Part) (h : p ≠ .counts ∧ p ≠ .tb ∧ p ≠ .rgn ∧ p ≠ .sty ∧ p ≠ .eth ∧ p ≠ .prf ∧
    p ≠ .brn) (p₁ : Port) (m : FollowUpMsg) (s : State) {t : State} :
    execFollowUpReceived p₁ m s = .next t → p.Same s t := by
  intro g; unfold execFollowUpReceived at g; injection g with g; subst g; (repeat' split) <;> simp [h]

theorem execSyncReceiptTimeout_same (p : Part) (h : p ≠ .tb) (p₁ : Port) (s : State) {t : State} :
    execSyncReceiptTimeout p₁ s = .next t → p.Same s t := by
  intro g; unfold execSyncReceiptTimeout at g; injection g with g; subst g; split <;> simp [h]

theorem execAnnounceReceived_same (p : Part) (h : p ≠ .counts ∧ p ≠ .tb) (p₁ : Port) (m : AnnounceMsg)
    (s : State) {t : State} :
    execAnnounceReceived p₁ m s = .next t → p.Same s t := by
  intro g; unfold execAnnounceReceived at g; injection g with g; subst g; (repeat' split) <;> simp [h]

theorem execAnnounceReceiptTimeout_same (p : Part) (h : p ≠ .tb) (p₁ : Port) (s : State) {t : State} :
    execAnnounceReceiptTimeout p₁ s = .next t → p.Same s t := by
  intro g; unfold execAnnounceReceiptTimeout at g; injection g with g; subst g; split <;> simp [h]

theorem execPdelayReqReceived_same (p : Part) (h : p ≠ .eth) (p₁ : Port) (seq : BitVec 16) (m : PdelayReq)
    (s : State) {t : State} :
    execPdelayReqReceived p₁ seq m s = .next t → p.Same s t := by
  intro g; unfold execPdelayReqReceived at g; injection g with g; subst g; (try dsimp only)
  repeat'
    first
    | (simp [h]; done)
    | intro _
    | split
    | refine Part.same_foldl ?_ ?_
    | refine (Part.same_foldl_snd _ _ _ _ _ ?_).2 ?_
    | refine (State.withRoom_same _ (by simp [h]) _ _ _ _ _ _ _ _ _ ?_).2 ?_
    | refine (State.act_same _ _ _ _ _ _ _ _ ?_).2 ?_
    | refine (State.resume_same _ _ _ _ _ _ _ ?_).2 ?_
    | refine (State.request_same _ (by simp [h]) _ _ _ _ ?_).2 ?_
    | refine (State.hint_same _ (by simp [h]) _ _ _ _ _ _ ?_).2 ?_
    | refine (State.ctxCommand_same _ (by simp [h]) _ _ _ _ _ _ ?_).2 ?_
    | refine (State.onContext_same _ _ _ _ _ _ _ ?_).2 ?_
    | refine (State.fire_same _ (by simp [h]) _ _ _ _ _ _ ?_).2 ?_
    | refine (State.bursts_same _ _ _ _ _ _ _ ?_).2 ?_
    | refine (State.withEpilogue_same _ (by simp [h]) _ _ _ _ _ _ _ _ _ ?_).2 ?_
    | simp [h]

theorem execPdelayRespReceived_same (p : Part) (h : p ≠ .tb) (p₁ : Port) (m : PdelayResp) (s : State) {t : State} :
    execPdelayRespReceived p₁ m s = .next t → p.Same s t := by
  intro g; unfold execPdelayRespReceived at g; injection g with g; subst g; dsimp only; (repeat' split) <;> simp [h]

theorem execPdelayInterval_same (p : Part) (h : p ≠ .tb ∧ p ≠ .eth) (p₁ : Port) (s : State) {t : State} :
    execPdelayInterval p₁ s = .next t → p.Same s t := by
  intro g; unfold execPdelayInterval at g; injection g with g; subst g; dsimp only; (repeat' split) <;> simp [h]

theorem execSyncInterval_same (p : Part) (h : p ≠ .tb ∧ p ≠ .eth) (p₁ : Port) (s : State) {t : State} :
    execSyncInterval p₁ s = .next t → p.Same s t := by
  intro g; unfold execSyncInterval at g; injection g with g; subst g; dsimp only; (repeat' split) <;> simp [h]

theorem execAnnounceInterval_same (p : Part) (h : p ≠ .tb ∧ p ≠ .eth) (p₁ : Port) (s : State) {t : State} :
    execAnnounceInterval p₁ s = .next t → p.Same s t := by
  intro g; unfold execAnnounceInterval at g; injection g with g; subst g; dsimp only; (repeat' split) <;> simp [h]

/-! ### JobOps -/

@[simp] theorem State.updJob_same (p : Part) (h : p ≠ .jobs) (id : Word) (f : Job → Job) (s : State) (z : State) :
    p.Same z (State.updJob id f s) ↔ p.Same z s := by
  refine Part.same_iff ?_; unfold State.updJob; (repeat' split) <;> simp [h]

@[simp] theorem State.toQueue_same (p : Part) (h : p ≠ .counts ∧ p ≠ .jobs ∧ p ≠ .eth) (p₁ : Nat) (r : CompRecord)
    (s : State) (z : State) :
    p.Same z (State.toQueue p₁ r s) ↔ p.Same z s := by
  refine Part.same_iff ?_; unfold State.toQueue; dsimp only; (repeat' split) <;> simp [h]

@[simp] theorem State.sendDone_same (p : Part) (h : p ≠ .counts ∧ p ≠ .jobs ∧ p ≠ .eth) (j : Job) (r : CompRecord)
    (s : State) (z : State) :
    p.Same z (State.sendDone j r s) ↔ p.Same z s := by
  refine Part.same_iff ?_; unfold State.sendDone; dsimp only; (repeat' split) <;> simp [h]

@[simp] theorem State.withdraw_same (p : Part) (h : p ≠ .tir ∧ p ≠ .chn ∧ p ≠ .lnw) (r : TierRequest) (s : State)
    (z : State) :
    p.Same z (State.withdraw r s) ↔ p.Same z s := by
  refine Part.same_iff ?_; unfold State.withdraw; simp [h]

@[simp] theorem State.dropRequests_same (p : Part) (h : p ≠ .fresh ∧ p ≠ .counts ∧ p ≠ .cores ∧ p ≠ .jobs ∧ p ≠ .tir
    ∧ p ≠ .chn ∧ p ≠ .lnw) (id : Word) (s : State) (z : State) :
    p.Same z (State.dropRequests id s) ↔ p.Same z s := by
  refine Part.same_iff ?_; unfold State.dropRequests; dsimp only; simp [h]

@[simp] theorem State.leaveUnits_same (p : Part) (h : p ≠ .fresh ∧ p ≠ .counts ∧ p ≠ .cores ∧ p ≠ .jobs ∧ p ≠ .tir ∧
    p ≠ .chn ∧ p ≠ .lnw ∧ p ≠ .trc ∧ p ≠ .xh ∧ p ≠ .prf) (id : Word) (s : State) (z : State) :
    p.Same z (State.leaveUnits id s) ↔ p.Same z s := by
  refine Part.same_iff ?_; unfold State.leaveUnits; dsimp only; (repeat' split) <;> simp [h]

@[simp] theorem State.unbind_same (p : Part) (h : p ≠ .cores ∧ p ≠ .tir ∧ p ≠ .chn ∧ p ≠ .lnw ∧ p ≠ .ing) (j : Job)
    (s : State) (z : State) :
    p.Same z (State.unbind j s) ↔ p.Same z s := by
  refine Part.same_iff ?_; unfold State.unbind; dsimp only
  repeat'
    first
    | (simp [h]; done)
    | intro _
    | split
    | refine Part.same_foldl ?_ ?_
    | refine (Part.same_foldl_snd _ _ _ _ _ ?_).2 ?_
    | simp [h]

@[simp] theorem State.releaseContexts_same (p : Part) (h : p ≠ .ctx) (id : Word) (s : State) (z : State) :
    p.Same z (State.releaseContexts id s) ↔ p.Same z s := by
  refine Part.same_iff ?_; unfold State.releaseContexts; (repeat' split) <;> simp [h]

@[simp] theorem State.releaseJob_same (p : Part) (h : p ≠ .fresh ∧ p ≠ .counts ∧ p ≠ .cores ∧ p ≠ .jobs ∧ p ≠ .ctx ∧
    p ≠ .tir ∧ p ≠ .chn ∧ p ≠ .lnw ∧ p ≠ .ing ∧ p ≠ .trc ∧ p ≠ .xh ∧ p ≠ .prf) (j : Job) (s : State) (z : State) :
    p.Same z (State.releaseJob j s) ↔ p.Same z s := by
  refine Part.same_iff ?_; unfold State.releaseJob; dsimp only; (repeat' split) <;> simp [h]

@[simp] theorem State.finishJob_same (p : Part) (h : p ≠ .fresh ∧ p ≠ .counts ∧ p ≠ .cores ∧ p ≠ .jobs ∧ p ≠ .ctx ∧ p
    ≠ .tir ∧ p ≠ .chn ∧ p ≠ .lnw ∧ p ≠ .ing ∧ p ≠ .trc ∧ p ≠ .xh ∧ p ≠ .eth ∧ p ≠ .prf ∧ p ≠ .brn) (id : Word)
    (status : Byte) (detail : Word) (s : State) (z : State) :
    p.Same z (State.finishJob id status detail s) ↔ p.Same z s := by
  refine Part.same_iff ?_; unfold State.finishJob; dsimp only; (repeat' split) <;> simp [h]

@[simp] theorem State.refetchExtent_same (p : Part) (h : p ≠ .fresh ∧ p ≠ .counts ∧ p ≠ .cores ∧ p ≠ .jobs ∧ p ≠ .tir
    ∧ p ≠ .chn ∧ p ≠ .lnw) (r : TierRequest) (s : State) (z : State) :
    p.Same z (State.refetchExtent r s) ↔ p.Same z s := by
  refine Part.same_iff ?_; unfold State.refetchExtent; (repeat' split) <;> simp [h]

@[simp] theorem State.cancelRequest_same (p : Part) (h : p ≠ .fresh ∧ p ≠ .counts ∧ p ≠ .cores ∧ p ≠ .jobs ∧ p ≠ .tir
    ∧ p ≠ .chn ∧ p ≠ .lnw ∧ p ≠ .brn) (r : TierRequest) (s : State) (z : State) :
    p.Same z (State.cancelRequest r s) ↔ p.Same z s := by
  refine Part.same_iff ?_; unfold State.cancelRequest; dsimp only
  repeat'
    first
    | (simp [h]; done)
    | intro _
    | split
    | refine Part.same_foldl ?_ ?_
    | refine (Part.same_foldl_snd _ _ _ _ _ ?_).2 ?_
    | simp [h]

@[simp] theorem State.cancelTx_same (p : Part) (h : p ≠ .fresh ∧ p ≠ .counts ∧ p ≠ .cores ∧ p ≠ .jobs ∧ p ≠ .tir ∧ p
    ≠ .chn ∧ p ≠ .lnw ∧ p ≠ .brn) (x : LineworkTx) (s : State) (z : State) :
    p.Same z (State.cancelTx x s) ↔ p.Same z s := by
  refine Part.same_iff ?_; unfold State.cancelTx; dsimp only; split <;> simp [h]

@[simp] theorem State.overrun_same (p : Part) (h : p ≠ .fresh ∧ p ≠ .counts ∧ p ≠ .cores ∧ p ≠ .jobs ∧ p ≠ .ctx ∧ p ≠
    .tir ∧ p ≠ .chn ∧ p ≠ .lnw ∧ p ≠ .ing ∧ p ≠ .trc ∧ p ≠ .xh ∧ p ≠ .eth ∧ p ≠ .prf ∧ p ≠ .brn) (j : Job)
    (s : State) (z : State) :
    p.Same z (State.overrun j s) ↔ p.Same z s := by
  refine Part.same_iff ?_; unfold State.overrun; dsimp only; (repeat' split) <;> simp [h]

@[simp] theorem State.faultJob_same (p : Part) (h : p ≠ .fresh ∧ p ≠ .counts ∧ p ≠ .cores ∧ p ≠ .jobs ∧ p ≠ .ctx ∧ p
    ≠ .tir ∧ p ≠ .chn ∧ p ≠ .lnw ∧ p ≠ .ing ∧ p ≠ .trc ∧ p ≠ .xh ∧ p ≠ .eth ∧ p ≠ .prf ∧ p ≠ .brn) (id : Word)
    (wait : Option Nat) (s : State) (z : State) :
    p.Same z (State.faultJob id wait s) ↔ p.Same z s := by
  refine Part.same_iff ?_; unfold State.faultJob; dsimp only; (repeat' split) <;> simp [h]

@[simp] theorem State.timeOutRequest_same (p : Part) (h : p ≠ .fresh ∧ p ≠ .counts ∧ p ≠ .cores ∧ p ≠ .jobs ∧ p ≠
    .ctx ∧ p ≠ .tir ∧ p ≠ .chn ∧ p ≠ .lnw ∧ p ≠ .ing ∧ p ≠ .trc ∧ p ≠ .xh ∧ p ≠ .eth ∧ p ≠ .prf ∧ p ≠ .brn)
    (r : TierRequest) (s : State) (z : State) :
    p.Same z (State.timeOutRequest r s) ↔ p.Same z s := by
  refine Part.same_iff ?_; unfold State.timeOutRequest; simp [h]

@[simp] theorem State.dueTimeouts_same (p : Part) (h : p ≠ .fresh ∧ p ≠ .counts ∧ p ≠ .cores ∧ p ≠ .jobs ∧ p ≠ .ctx ∧
    p ≠ .tir ∧ p ≠ .chn ∧ p ≠ .lnw ∧ p ≠ .ing ∧ p ≠ .trc ∧ p ≠ .xh ∧ p ≠ .eth ∧ p ≠ .prf ∧ p ≠ .brn) (job : Word)
    (s : State) (z : State) :
    p.Same z (State.dueTimeouts job s) ↔ p.Same z s := by
  refine Part.same_iff ?_; unfold State.dueTimeouts; dsimp only
  repeat'
    first
    | (simp [h]; done)
    | intro _
    | split
    | refine Part.same_foldl ?_ ?_
    | refine (Part.same_foldl_snd _ _ _ _ _ ?_).2 ?_
    | simp [h]

@[simp] theorem State.coreLeaves_same (p : Part) (h : p ≠ .glb ∧ p ≠ .cores ∧ p ≠ .clusters ∧ p ≠ .brn) (core : Nat)
    (s : State) (z : State) :
    p.Same z (State.coreLeaves core s).2 ↔ p.Same z s := by
  refine Part.same_iff ?_; unfold State.coreLeaves; dsimp only; (repeat' split) <;> simp [h]

@[simp] theorem State.coreFault_same (p : Part) (h : p ≠ .fresh ∧ p ≠ .counts ∧ p ≠ .glb ∧ p ≠ .cores ∧ p ≠ .clusters
    ∧ p ≠ .jobs ∧ p ≠ .ctx ∧ p ≠ .tir ∧ p ≠ .chn ∧ p ≠ .lnw ∧ p ≠ .ing ∧ p ≠ .trc ∧ p ≠ .xh ∧ p ≠ .eth ∧ p ≠ .prf ∧ p
    ≠ .brn) (core : Nat) (kind : Nat) (inst : Nat) (code : Nat) (detail : Nat) (ids : List Word) (s : State) (z : State) :
    p.Same z (State.coreFault core kind inst code detail ids s) ↔ p.Same z s := by
  refine Part.same_iff ?_; unfold State.coreFault; dsimp only; (repeat' split) <;> simp [h]

@[simp] theorem State.coreFaults_same (p : Part) (h : p ≠ .fresh ∧ p ≠ .counts ∧ p ≠ .glb ∧ p ≠ .cores ∧ p ≠
    .clusters ∧ p ≠ .jobs ∧ p ≠ .ctx ∧ p ≠ .tir ∧ p ≠ .chn ∧ p ≠ .lnw ∧ p ≠ .ing ∧ p ≠ .trc ∧ p ≠ .xh ∧ p ≠ .eth ∧ p
    ≠ .prf ∧ p ≠ .brn) (core : Nat) (fs : List PendingFault) (s : State) (z : State) :
    p.Same z (State.coreFaults core fs s) ↔ p.Same z s := by
  refine Part.same_iff ?_; unfold State.coreFaults; dsimp only; (repeat' split) <;> simp [h]

@[simp] theorem State.coreFaultAtTileEnd_same (p : Part) (h : p ≠ .fresh ∧ p ≠ .counts ∧ p ≠ .glb ∧ p ≠ .cores ∧ p ≠
    .clusters ∧ p ≠ .jobs ∧ p ≠ .ctx ∧ p ≠ .tir ∧ p ≠ .chn ∧ p ≠ .lnw ∧ p ≠ .ing ∧ p ≠ .trc ∧ p ≠ .xh ∧ p ≠ .eth ∧ p
    ≠ .prf ∧ p ≠ .brn) (core : Nat) (f : PendingFault) (s : State) (z : State) :
    p.Same z (State.coreFaultAtTileEnd core f s) ↔ p.Same z s := by
  refine Part.same_iff ?_; unfold State.coreFaultAtTileEnd; split <;> simp [h]

/-! ### Registration -/

@[simp] theorem State.lateFiring_same (p : Part) (h : p ≠ .counts ∧ p ≠ .rgn ∧ p ≠ .prf ∧ p ≠ .brn) (i : Nat)
    (e : RegEntry) (s : State) (z : State) :
    p.Same z (State.lateFiring i e s) ↔ p.Same z s := by
  refine Part.same_iff ?_; unfold State.lateFiring; dsimp only; (repeat' split) <;> simp [h]

@[simp] theorem State.dropDeferred_same (p : Part) (h : p ≠ .counts ∧ p ≠ .rgn) (i : Nat) (s : State) (z : State) :
    p.Same z (State.dropDeferred i s) ↔ p.Same z s := by
  refine Part.same_iff ?_; unfold State.dropDeferred; split <;> simp [h]

@[simp] theorem State.fire_same (p : Part) (h : p ≠ .counts ∧ p ≠ .rgn ∧ p ≠ .prf ∧ p ≠ .brn) (target i : Nat)
    (busy : RegEntry → Bool) (go : RegEntry → State → State) (s z : State)
    (hg : ∀ e u, p.Same u (go e u)) :
    p.Same z (s.fire target i busy go) ↔ p.Same z s := by
  refine Part.same_iff ?_; unfold State.fire; dsimp only
  (repeat' split) <;> first | (simp [h]; done) | exact Part.same_trans (by simp [h]) (hg _ _)

@[simp] theorem State.addJob_same (p : Part) (h : p ≠ .jobs) (j : Job) (s : State) (z : State) :
    p.Same z (State.addJob j s) ↔ p.Same z s := by
  refine Part.same_iff ?_; unfold State.addJob; simp [h]

@[simp] theorem State.launchTemplate_same (p : Part) (h : p ≠ .jobs) (i : Nat) (instant : Int) (e : RegEntry)
    (s : State) (z : State) :
    p.Same z (State.launchTemplate i instant e s) ↔ p.Same z s := by
  refine Part.same_iff ?_; unfold State.launchTemplate; split <;> simp [h]

theorem execCoreJobLaunch_same (p : Part) (h : p ≠ .counts ∧ p ≠ .rgn ∧ p ≠ .jobs ∧ p ≠ .prf ∧ p ≠ .brn)
    (e : BitVec 12) (s : State) {t : State} :
    execCoreJobLaunch e s = .next t → p.Same s t := by
  intro g; unfold execCoreJobLaunch at g; injection g with g; subst g; simp [h]

theorem execDrypointJobLaunch_same (p : Part) (h : p ≠ .counts ∧ p ≠ .rgn ∧ p ≠ .jobs ∧ p ≠ .prf ∧ p ≠ .brn)
    (e : BitVec 12) (s : State) {t : State} :
    execDrypointJobLaunch e s = .next t → p.Same s t := by
  intro g; unfold execDrypointJobLaunch at g; injection g with g; subst g; simp [h]

@[simp] theorem State.launchMove_same (p : Part) (h : p ≠ .fresh ∧ p ≠ .counts ∧ p ≠ .cores ∧ p ≠ .jobs ∧ p ≠ .ctx ∧
    p ≠ .tir ∧ p ≠ .chn ∧ p ≠ .lnw ∧ p ≠ .ing ∧ p ≠ .trc ∧ p ≠ .xh ∧ p ≠ .eth ∧ p ≠ .prf ∧ p ≠ .brn) (i : Nat)
    (instant : Int) (e : RegEntry) (s : State) (z : State) :
    p.Same z (State.launchMove i instant e s) ↔ p.Same z s := by
  refine Part.same_iff ?_; unfold State.launchMove; dsimp only; (repeat' split) <;> simp [h]

theorem execMoveLaunch_same (p : Part) (h : p ≠ .fresh ∧ p ≠ .counts ∧ p ≠ .rgn ∧ p ≠ .cores ∧ p ≠ .jobs ∧ p ≠ .ctx ∧
    p ≠ .tir ∧ p ≠ .chn ∧ p ≠ .lnw ∧ p ≠ .ing ∧ p ≠ .trc ∧ p ≠ .xh ∧ p ≠ .eth ∧ p ≠ .prf ∧ p ≠ .brn) (e : BitVec 12)
    (s : State) {t : State} :
    execMoveLaunch e s = .next t → p.Same s t := by
  intro g; unfold execMoveLaunch at g; injection g with g; subst g; simp [h]

@[simp] theorem State.updPin_same (p : Part) (h : p ≠ .tb) (n : Nat) (f : GpioPin → GpioPin) (s : State) (z : State) :
    p.Same z (State.updPin n f s) ↔ p.Same z s := by
  refine Part.same_iff ?_; unfold State.updPin; simp [h]

@[simp] theorem State.fireGpio_same (p : Part) (h : p ≠ .counts ∧ p ≠ .tb ∧ p ≠ .rgn ∧ p ≠ .prf ∧ p ≠ .brn) (i : Nat)
    (action : Nat) (f : RegEntry → GpioPin → GpioPin) (s : State) (z : State) :
    p.Same z (State.fireGpio i action f s) ↔ p.Same z s := by
  refine Part.same_iff ?_; unfold State.fireGpio; (repeat' split) <;> simp [h]

theorem execGpioHigh_same (p : Part) (h : p ≠ .counts ∧ p ≠ .tb ∧ p ≠ .rgn ∧ p ≠ .prf ∧ p ≠ .brn) (e : BitVec 12)
    (s : State) {t : State} :
    execGpioHigh e s = .next t → p.Same s t := by
  intro g; unfold execGpioHigh at g; injection g with g; subst g; simp [h]

theorem execGpioLow_same (p : Part) (h : p ≠ .counts ∧ p ≠ .tb ∧ p ≠ .rgn ∧ p ≠ .prf ∧ p ≠ .brn) (e : BitVec 12)
    (s : State) {t : State} :
    execGpioLow e s = .next t → p.Same s t := by
  intro g; unfold execGpioLow at g; injection g with g; subst g; simp [h]

theorem execGpioToggle_same (p : Part) (h : p ≠ .counts ∧ p ≠ .tb ∧ p ≠ .rgn ∧ p ≠ .prf ∧ p ≠ .brn) (e : BitVec 12)
    (s : State) {t : State} :
    execGpioToggle e s = .next t → p.Same s t := by
  intro g; unfold execGpioToggle at g; injection g with g; subst g; simp [h]

theorem execGpioPulse_same (p : Part) (h : p ≠ .counts ∧ p ≠ .tb ∧ p ≠ .rgn ∧ p ≠ .prf ∧ p ≠ .brn) (e : BitVec 12)
    (s : State) {t : State} :
    execGpioPulse e s = .next t → p.Same s t := by
  intro g; unfold execGpioPulse at g; injection g with g; subst g; simp [h]

theorem execGpioPulseEnd_same (p : Part) (h : p ≠ .tb) (pin : Fin 16) (s : State) {t : State} :
    execGpioPulseEnd pin s = .next t → p.Same s t := by
  intro g; unfold execGpioPulseEnd at g; injection g with g; subst g; (repeat' split) <;> simp [h]

@[simp] theorem State.entryWrite_same (p : Part) (h : p ≠ .counts ∧ p ≠ .rgn) (v : Word) (disable : Bool)
    (s : State) (z : State) :
    p.Same z (State.entryWrite v disable s) ↔ p.Same z s := by
  refine Part.same_iff ?_; unfold State.entryWrite; dsimp only; (repeat' split) <;> simp [h]

theorem execRgnEntryDisable_same (p : Part) (h : p ≠ .counts ∧ p ≠ .rgn) (v : Word) (s : State) {t : State} :
    execRgnEntryDisable v s = .next t → p.Same s t := by
  intro g; unfold execRgnEntryDisable at g; injection g with g; subst g; simp [h]

theorem execRgnEntryEnable_same (p : Part) (h : p ≠ .counts ∧ p ≠ .rgn) (v : Word) (s : State) {t : State} :
    execRgnEntryEnable v s = .next t → p.Same s t := by
  intro g; unfold execRgnEntryEnable at g; injection g with g; subst g; simp [h]

/-! ### OutlineCmd -/

@[simp] theorem State.otlRefuse_same (p : Part) (h : p ≠ .counts) (s : State) (z : State) :
    p.Same z (State.otlRefuse s) ↔ p.Same z s := by
  refine Part.same_iff ?_; unfold State.otlRefuse; simp [h]

@[simp] theorem State.netRefs_same (p : Part) (h : p ≠ .tir) (f : Nat → Nat) (t : Option NetTable) (s : State)
    (z : State) :
    p.Same z (State.netRefs f t s) ↔ p.Same z s := by
  refine Part.same_iff ?_; unfold State.netRefs; (repeat' split) <;> simp [h]

@[simp] theorem State.dropStaged_same (p : Part) (h : p ≠ .otl ∧ p ≠ .tir) (s : State) (z : State) :
    p.Same z (State.dropStaged s) ↔ p.Same z s := by
  refine Part.same_iff ?_; unfold State.dropStaged; simp [h]

@[simp] theorem State.stagingNow_same (p : Part) (h : p ≠ .otl ∧ p ≠ .tir) (code : Byte) (s : State) (z : State) :
    p.Same z (State.stagingNow code s) ↔ p.Same z s := by
  refine Part.same_iff ?_; unfold State.stagingNow; simp [h]

theorem execOtlStageBegin_same (p : Part) (h : p ≠ .counts ∧ p ≠ .otl ∧ p ≠ .tir) (v : Word) (s : State) {t : State} :
    execOtlStageBegin v s = .next t → p.Same s t := by
  intro g; unfold execOtlStageBegin at g; injection g with g; subst g; (repeat' split) <;> simp [h]

theorem execOtlValidate_same (p : Part) (h : p ≠ .counts ∧ p ≠ .otl) (v : Word) (s : State) {t : State} :
    execOtlValidate v s = .next t → p.Same s t := by
  intro g; unfold execOtlValidate at g; injection g with g; subst g; (repeat' split) <;> simp [h]

theorem execValidationDone_same (p : Part) (h : p ≠ .otl ∧ p ≠ .tir) (s : State) {t : State} :
    execValidationDone s = .next t → p.Same s t := by
  intro g; unfold execValidationDone at g; injection g with g; subst g; (repeat' split) <;> simp [h]

theorem execOtlCommitArm_same (p : Part) (h : p ≠ .counts ∧ p ≠ .rgn ∧ p ≠ .otl) (v : Word) (s : State) {t : State} :
    execOtlCommitArm v s = .next t → p.Same s t := by
  intro g; unfold execOtlCommitArm at g; injection g with g; subst g; dsimp only; (repeat' split) <;> simp [h]

theorem execOtlCancel_same (p : Part) (h : p ≠ .counts ∧ p ≠ .rgn ∧ p ≠ .otl ∧ p ≠ .tir) (v : Word)
    (s : State) {t : State} :
    execOtlCancel v s = .next t → p.Same s t := by
  intro g; unfold execOtlCancel at g; injection g with g; subst g; (repeat' split) <;> simp [h]

end Sys2Proof.Machine
end

