-- ==== Sys2Proof/Laws/FrameJobs.lean ====
section
/-!
SUPPORT. Frames (Laws/Frame.lean): descriptors and jobs.
-/

-- One thread elaborates: many small proofs at once would ask for more memory than the check allows.
set_option Elab.async false

namespace Sys2Proof.Machine

open Sys2Proof

set_option linter.unusedTactic false
set_option linter.unreachableTactic false
set_option linter.unnecessarySeqFocus false

/-! ### Descriptor -/

@[simp] theorem State.updSlot_same (p : Part) (h : p ≠ .jobs) (id : Word) (slot : Nat) (f : SlotState → SlotState)
    (s : State) (z : State) :
    p.Same z (State.updSlot id slot f s) ↔ p.Same z s := by
  refine Part.same_iff ?_; unfold State.updSlot; simp [h]

@[simp] theorem State.updFlight_same (p : Part) (h : p ≠ .jobs) (id : Word) (slot : Nat) (index : Nat)
    (f : InFlight → InFlight) (s : State) (z : State) :
    p.Same z (State.updFlight id slot index f s) ↔ p.Same z s := by
  refine Part.same_iff ?_; unfold State.updFlight; (repeat' split) <;> simp [h]

@[simp] theorem State.act_same (p : Part) (id : Word) (slot op : Nat) (p₁ : Descriptor → Bool)
    (f : Job → InFlight → State → State) (s z : State)
    (hg : ∀ j i u, p.Same u (f j i u)) :
    p.Same z (s.act id slot op p₁ f) ↔ p.Same z s := by
  refine Part.same_iff ?_; unfold State.act; (repeat' split) <;> first | (simp; done) | exact hg _ _ _

@[simp] theorem State.acted_same (p : Part) (h : p ≠ .jobs) (j : Job) (slot : Nat) (i : InFlight) (status : Byte)
    (flags : NumFlags) (result : Word) (detail : Word) (cycles : Nat) (s : State) (z : State) :
    p.Same z (State.acted j slot i status flags result detail cycles s) ↔ p.Same z s := by
  refine Part.same_iff ?_; unfold State.acted; simp [h]

@[simp] theorem State.store_same (p : Part) (h : p ≠ .jobs) (j : Job) (slot : Nat) (id : Word) (hi : Nat)
    (f : Memory → Memory) (s : State) (z : State) :
    p.Same z (State.store j slot id hi f s) ↔ p.Same z s := by
  refine Part.same_iff ?_; unfold State.store; simp [h]

/-! ### Datapath -/

@[simp] theorem State.failDesc_same (p : Part) (h : p ≠ .fresh ∧ p ≠ .counts ∧ p ≠ .cores ∧ p ≠ .jobs ∧ p ≠ .ctx ∧ p
    ≠ .tir ∧ p ≠ .chn ∧ p ≠ .lnw ∧ p ≠ .ing ∧ p ≠ .trc ∧ p ≠ .xh ∧ p ≠ .eth ∧ p ≠ .prf ∧ p ≠ .brn) (j : Job)
    (f : Failure) (s : State) (z : State) :
    p.Same z (State.failDesc j f s) ↔ p.Same z s := by
  refine Part.same_iff ?_; unfold State.failDesc; simp [h]

@[simp] theorem State.withEpilogue_same (p : Part) (h : p ≠ .fresh ∧ p ≠ .counts ∧ p ≠ .cores ∧ p ≠ .jobs ∧ p ≠ .ctx
    ∧ p ≠ .tir ∧ p ≠ .chn ∧ p ≠ .lnw ∧ p ≠ .ing ∧ p ≠ .trc ∧ p ≠ .xh ∧ p ≠ .eth ∧ p ≠ .prf ∧ p ≠ .brn) (j : Job)
    (slot : Nat) (d : Descriptor) (rows cols : Nat) (ew : Bool)
    (go : List EpiStep → State) (s z : State) (hg : ∀ y, p.Same s (go y)) :
    p.Same z (s.withEpilogue j slot d rows cols ew go) ↔ p.Same z s := by
  refine Part.same_iff ?_; unfold State.withEpilogue; (repeat' split) <;> first | (simp [h]; done) | exact hg _

@[simp] theorem State.drawBytes_same (p : Part) (h : p ≠ .fresh) (n : Nat) (s z : State) :
    p.Same z ((State.drawBytes n s).2) ↔ p.Same z s := by
  induction n generalizing s with
  | zero => exact Iff.rfl
  | succ n ih => simp [State.drawBytes, ih, h]

@[simp] theorem State.addDigest_same (p : Part) (h : p ≠ .fresh ∧ p ≠ .jobs) (j : Job) (slot : Nat) (exact : Bool)
    (s : State) (z : State) :
    p.Same z (State.addDigest j slot exact s) ↔ p.Same z s := by
  refine Part.same_iff ?_; unfold State.addDigest; dsimp only; split <;> simp [h]

@[simp] theorem State.wakeLoader_same (p : Part) (h : p ≠ .cores) (core : Nat) (s : State) (z : State) :
    p.Same z (State.wakeLoader core s) ↔ p.Same z s := by
  refine Part.same_iff ?_; unfold State.wakeLoader; dsimp only; split <;> simp [h]

@[simp] theorem State.onArrays_same (p : Part) (h : p ≠ .cores ∧ p ≠ .jobs) (j : Job) (slot : Nat) (i : InFlight)
    (flags : NumFlags) (work : ArrayWork) (cycles : Nat) (s : State) (z : State) :
    p.Same z (State.onArrays j slot i flags work cycles s) ↔ p.Same z s := by
  refine Part.same_iff ?_; unfold State.onArrays; simp [h]

@[simp] theorem State.laneFails_same (p : Part) (h : p ≠ .fresh ∧ p ≠ .counts ∧ p ≠ .glb ∧ p ≠ .cores ∧ p ≠ .clusters
    ∧ p ≠ .jobs ∧ p ≠ .ctx ∧ p ≠ .tir ∧ p ≠ .chn ∧ p ≠ .lnw ∧ p ≠ .ing ∧ p ≠ .trc ∧ p ≠ .xh ∧ p ≠ .eth ∧ p ≠ .prf ∧ p
    ≠ .brn) (j : Job) (slot : Nat) (i : InFlight) (s : State) (z : State) :
    p.Same z (State.laneFails j slot i s) ↔ p.Same z s := by
  refine Part.same_iff ?_; unfold State.laneFails; dsimp only; simp [h]

@[simp] theorem State.gemmGo_same (p : Part) (h : p ≠ .fresh ∧ p ≠ .cores ∧ p ≠ .jobs) (j : Job) (slot : Nat)
    (i : InFlight) (steps : List EpiStep) (s : State) (z : State) :
    p.Same z (State.gemmGo j slot i steps s) ↔ p.Same z s := by
  refine Part.same_iff ?_; unfold State.gemmGo; dsimp only; (repeat' split) <;> simp [h]

@[simp] theorem State.gemmDone_same (p : Part) (h : p ≠ .fresh ∧ p ≠ .counts ∧ p ≠ .cores ∧ p ≠ .jobs ∧ p ≠ .ctx ∧ p
    ≠ .tir ∧ p ≠ .chn ∧ p ≠ .lnw ∧ p ≠ .ing ∧ p ≠ .trc ∧ p ≠ .xh ∧ p ≠ .eth ∧ p ≠ .prf ∧ p ≠ .brn) (j : Job)
    (slot : Nat) (i : InFlight) (s : State) (z : State) :
    p.Same z (State.gemmDone j slot i s) ↔ p.Same z s := by
  refine Part.same_iff ?_; unfold State.gemmDone; dsimp only; split <;> simp [h]

theorem execGemm_same (p : Part) (h : p ≠ .fresh ∧ p ≠ .counts ∧ p ≠ .glb ∧ p ≠ .cores ∧ p ≠ .clusters ∧ p ≠ .jobs ∧
    p ≠ .ctx ∧ p ≠ .tir ∧ p ≠ .chn ∧ p ≠ .lnw ∧ p ≠ .ing ∧ p ≠ .trc ∧ p ≠ .xh ∧ p ≠ .eth ∧ p ≠ .prf ∧ p ≠ .brn)
    (job : Word) (slot : Fin 32) (laneFault : Bool) (s : State) {t : State} :
    execGemm job slot laneFault s = .next t → p.Same s t := by
  intro g; unfold execGemm at g; injection g with g; subst g; dsimp only
  repeat'
    first
    | (simp [h]; done)
    | intro _
    | split
    | refine (State.act_same _ _ _ _ _ _ _ _ ?_).2 ?_
    | refine (State.withEpilogue_same _ (by simp [h]) _ _ _ _ _ _ _ _ _ ?_).2 ?_
    | simp [h]

theorem execEwApply_same (p : Part) (h : p ≠ .fresh ∧ p ≠ .counts ∧ p ≠ .cores ∧ p ≠ .jobs ∧ p ≠ .ctx ∧ p ≠ .tir ∧ p
    ≠ .chn ∧ p ≠ .lnw ∧ p ≠ .ing ∧ p ≠ .trc ∧ p ≠ .xh ∧ p ≠ .eth ∧ p ≠ .prf ∧ p ≠ .brn) (job : Word) (slot : Fin 32)
    (s : State) {t : State} :
    execEwApply job slot s = .next t → p.Same s t := by
  intro g; unfold execEwApply at g; injection g with g; subst g; dsimp only
  repeat'
    first
    | (simp [h]; done)
    | intro _
    | split
    | refine (State.act_same _ _ _ _ _ _ _ _ ?_).2 ?_
    | refine (State.withEpilogue_same _ (by simp [h]) _ _ _ _ _ _ _ _ _ ?_).2 ?_
    | simp [h]

theorem execPwlLoad_same (p : Part) (h : p ≠ .fresh ∧ p ≠ .counts ∧ p ≠ .cores ∧ p ≠ .jobs ∧ p ≠ .ctx ∧ p ≠ .tir ∧ p
    ≠ .chn ∧ p ≠ .lnw ∧ p ≠ .ing ∧ p ≠ .trc ∧ p ≠ .xh ∧ p ≠ .eth ∧ p ≠ .prf ∧ p ≠ .brn) (job : Word) (slot : Fin 32)
    (s : State) {t : State} :
    execPwlLoad job slot s = .next t → p.Same s t := by
  intro g; unfold execPwlLoad at g; injection g with g; subst g; dsimp only
  repeat'
    first
    | (simp [h]; done)
    | intro _
    | split
    | refine (State.act_same _ _ _ _ _ _ _ _ ?_).2 ?_
    | simp [h]

theorem execNorm_same (p : Part) (h : p ≠ .fresh ∧ p ≠ .counts ∧ p ≠ .cores ∧ p ≠ .jobs ∧ p ≠ .ctx ∧ p ≠ .tir ∧ p ≠
    .chn ∧ p ≠ .lnw ∧ p ≠ .ing ∧ p ≠ .trc ∧ p ≠ .xh ∧ p ≠ .eth ∧ p ≠ .prf ∧ p ≠ .brn) (job : Word) (slot : Fin 32)
    (s : State) {t : State} :
    execNorm job slot s = .next t → p.Same s t := by
  intro g; unfold execNorm at g; injection g with g; subst g; dsimp only
  repeat'
    first
    | (simp [h]; done)
    | intro _
    | split
    | refine (State.act_same _ _ _ _ _ _ _ _ ?_).2 ?_
    | refine (State.withEpilogue_same _ (by simp [h]) _ _ _ _ _ _ _ _ _ ?_).2 ?_
    | simp [h]

theorem execSort_same (p : Part) (h : p ≠ .jobs) (job : Word) (slot : Fin 32) (s : State) {t : State} :
    execSort job slot s = .next t → p.Same s t := by
  intro g; unfold execSort at g; injection g with g; subst g; dsimp only; simp [h]

theorem execMoveCopy_same (p : Part) (h : p ≠ .jobs) (job : Word) (slot : Fin 32) (s : State) {t : State} :
    execMoveCopy job slot s = .next t → p.Same s t := by
  intro g; unfold execMoveCopy at g; injection g with g; subst g; dsimp only; (repeat' split) <;> simp [h]

theorem execMoveLayout_same (p : Part) (h : p ≠ .jobs) (job : Word) (slot : Fin 32) (s : State) {t : State} :
    execMoveLayout job slot s = .next t → p.Same s t := by
  intro g; unfold execMoveLayout at g; injection g with g; subst g; dsimp only; simp [h]

theorem execMoveTranspose_same (p : Part) (h : p ≠ .fresh ∧ p ≠ .jobs) (job : Word) (slot : Fin 32)
    (s : State) {t : State} :
    execMoveTranspose job slot s = .next t → p.Same s t := by
  intro g; unfold execMoveTranspose at g; injection g with g; subst g; dsimp only
  repeat'
    first
    | (simp [h]; done)
    | intro _
    | split
    | refine (State.act_same _ _ _ _ _ _ _ _ ?_).2 ?_
    | simp [h]

/-! ### Jobs -/

theorem execJobSubmit_same (p : Part) (h : p ≠ .fresh ∧ p ≠ .counts ∧ p ≠ .jobs ∧ p ≠ .eth) (sess : Fin 16)
    (b : JobBody) (s : State) {t : State} :
    execJobSubmit sess b s = .next t → p.Same s t := by
  intro g; unfold execJobSubmit at g; injection g with g; subst g; dsimp only
  repeat'
    first
    | (simp [h]; done)
    | intro _
    | split
    | refine (State.request_same _ (by simp [h]) _ _ _ _ ?_).2 ?_
    | simp [h]

theorem execJobCancel_same (p : Part) (h : p ≠ .fresh ∧ p ≠ .counts ∧ p ≠ .cores ∧ p ≠ .jobs ∧ p ≠ .ctx ∧ p ≠ .tir ∧
    p ≠ .chn ∧ p ≠ .lnw ∧ p ≠ .ing ∧ p ≠ .trc ∧ p ≠ .xh ∧ p ≠ .eth ∧ p ≠ .prf ∧ p ≠ .brn) (sess : Fin 16)
    (tag : Word) (job : Word) (s : State) {t : State} :
    execJobCancel sess tag job s = .next t → p.Same s t := by
  intro g; unfold execJobCancel at g; injection g with g; subst g; dsimp only
  repeat'
    first
    | (simp [h]; done)
    | intro _
    | split
    | refine (State.request_same _ (by simp [h]) _ _ _ _ ?_).2 ?_
    | simp [h]

theorem execJobLaunchInstant_same (p : Part) (h : p ≠ .jobs) (job : Word) (s : State) {t : State} :
    execJobLaunchInstant job s = .next t → p.Same s t := by
  intro g; unfold execJobLaunchInstant at g; injection g with g; subst g; (repeat' split) <;> simp [h]

@[simp] theorem State.verifyFirst_same (p : Part) (h : p ≠ .tir) (o : ObjVersion) (s : State) (z : State) :
    p.Same z (State.verifyFirst o s) ↔ p.Same z s := by
  refine Part.same_iff ?_; unfold State.verifyFirst; simp [h]

@[simp] theorem State.takeBinding_same (p : Part) (h : p ≠ .counts ∧ p ≠ .tir ∧ p ≠ .ing) (id : Word) (b : Binding)
    (s : State) (z : State) :
    p.Same z (State.takeBinding id b s) ↔ p.Same z s := by
  refine Part.same_iff ?_; unfold State.takeBinding; (repeat' split) <;> simp [h]

@[simp] theorem State.pairOne_same (p : Part) (h : p ≠ .counts ∧ p ≠ .ing) (lead : Nat) (leadTime : Int) (b : Binding)
    (s : State) (z : State) :
    p.Same z (State.pairOne lead leadTime b s) ↔ p.Same z s := by
  refine Part.same_iff ?_; unfold State.pairOne; dsimp only; (repeat' split) <;> simp [h]

@[simp] theorem State.pairStreams_same (p : Part) (h : p ≠ .counts ∧ p ≠ .ing) (bs : List Binding) (s : State)
    (z : State) :
    p.Same z (State.pairStreams bs s) ↔ p.Same z s := by
  refine Part.same_iff ?_; unfold State.pairStreams; dsimp only
  repeat'
    first
    | (simp [h]; done)
    | intro _
    | split
    | refine Part.same_foldl ?_ ?_
    | refine (Part.same_foldl_snd _ _ _ _ _ ?_).2 ?_
    | simp [h]

@[simp] theorem State.runJob_same (p : Part) (h : p ≠ .counts ∧ p ≠ .cores ∧ p ≠ .jobs ∧ p ≠ .tir ∧ p ≠ .ing)
    (j : Job) (c : Chain) (bs : List Binding) (slots : List (Nat × Nat)) (s : State) (z : State) :
    p.Same z (State.runJob j c bs slots s) ↔ p.Same z s := by
  refine Part.same_iff ?_; unfold State.runJob; dsimp only; simp [h]

@[simp] theorem State.startJob_same (p : Part) (h : p ≠ .fresh ∧ p ≠ .counts ∧ p ≠ .cores ∧ p ≠ .jobs ∧ p ≠ .ctx ∧ p
    ≠ .tir ∧ p ≠ .chn ∧ p ≠ .lnw ∧ p ≠ .ing ∧ p ≠ .trc ∧ p ≠ .xh ∧ p ≠ .eth ∧ p ≠ .prf ∧ p ≠ .brn) (j : Job)
    (s : State) (z : State) :
    p.Same z (State.startJob j s) ↔ p.Same z s := by
  refine Part.same_iff ?_; unfold State.startJob; dsimp only; (repeat' split) <;> simp [h]

theorem execJobStart_same (p : Part) (h : p ≠ .fresh ∧ p ≠ .counts ∧ p ≠ .cores ∧ p ≠ .jobs ∧ p ≠ .ctx ∧ p ≠ .tir ∧ p
    ≠ .chn ∧ p ≠ .lnw ∧ p ≠ .ing ∧ p ≠ .trc ∧ p ≠ .xh ∧ p ≠ .eth ∧ p ≠ .prf ∧ p ≠ .brn) (part : Fin 8)
    (s : State) {t : State} :
    execJobStart part s = .next t → p.Same s t := by
  intro g; unfold execJobStart at g; injection g with g; subst g; (try dsimp only)
  repeat'
    first
    | (simp [h]; done)
    | intro _
    | split
    | refine Part.same_foldl ?_ ?_
    | refine (Part.same_foldl_snd _ _ _ _ _ ?_).2 ?_
    | refine (State.withRoom_same _ (by simp [h]) _ _ _ _ _ _ _ _ _ ?_).2 ?_
    | refine (State.act_same _ _ _ _ _ _ _ _ ?_).2 ?_
    | refine (State.resume_same _ _ _ _ _ _ _ ?_).2 ?_
    | refine (State.request_same _ (by simp [h]) _ _ _ _ ?_).2 ?_
    | refine (State.hint_same _ (by simp [h]) _ _ _ _ _ _ ?_).2 ?_
    | refine (State.ctxCommand_same _ (by simp [h]) _ _ _ _ _ _ ?_).2 ?_
    | refine (State.onContext_same _ _ _ _ _ _ _ ?_).2 ?_
    | refine (State.fire_same _ (by simp [h]) _ _ _ _ _ _ ?_).2 ?_
    | refine (State.bursts_same _ _ _ _ _ _ _ ?_).2 ?_
    | refine (State.withEpilogue_same _ (by simp [h]) _ _ _ _ _ _ _ _ _ ?_).2 ?_
    | simp [h]

theorem execJobDeadline_same (p : Part) (h : p ≠ .fresh ∧ p ≠ .counts ∧ p ≠ .cores ∧ p ≠ .jobs ∧ p ≠ .ctx ∧ p ≠ .tir
    ∧ p ≠ .chn ∧ p ≠ .lnw ∧ p ≠ .ing ∧ p ≠ .trc ∧ p ≠ .xh ∧ p ≠ .eth ∧ p ≠ .prf ∧ p ≠ .brn) (job : Word)
    (s : State) {t : State} :
    execJobDeadline job s = .next t → p.Same s t := by
  intro g; unfold execJobDeadline at g; injection g with g; subst g; (repeat' split) <;> simp [h]

theorem execRestartIssue_same (p : Part) (h : p ≠ .fresh ∧ p ≠ .counts ∧ p ≠ .cores ∧ p ≠ .jobs ∧ p ≠ .ctx ∧ p ≠ .tir
    ∧ p ≠ .chn ∧ p ≠ .lnw ∧ p ≠ .ing ∧ p ≠ .trc ∧ p ≠ .xh ∧ p ≠ .eth ∧ p ≠ .prf ∧ p ≠ .brn) (job : Word)
    (s : State) {t : State} :
    execRestartIssue job s = .next t → p.Same s t := by
  intro g; unfold execRestartIssue at g; injection g with g; subst g; dsimp only
  repeat'
    first
    | (simp [h]; done)
    | intro _
    | split
    | refine Part.same_foldl ?_ ?_
    | refine (Part.same_foldl_snd _ _ _ _ _ ?_).2 ?_
    | simp [h]

end Sys2Proof.Machine
end

