-- ==== Sys2Proof/Laws/FrameNet.lean ====
section
/-!
SUPPORT. Frames (Laws/Frame.lean): sensors, Ethernet, channels and control outputs.
-/

-- One thread elaborates: many small proofs at once would ask for more memory than the check allows.
set_option Elab.async false

namespace Sys2Proof.Machine

open Sys2Proof

set_option linter.unusedTactic false
set_option linter.unreachableTactic false
set_option linter.unnecessarySeqFocus false

/-! ### Ingress -/

@[simp] theorem State.updStream_same (p : Part) (h : p ≠ .ing) (n : Nat) (f : IngStream → IngStream) (s : State)
    (z : State) :
    p.Same z (State.updStream n f s) ↔ p.Same z s := by
  refine Part.same_iff ?_; unfold State.updStream; simp [h]

@[simp] theorem State.portErr_same (p : Part) (h : p ≠ .counts) (p₁ : Nat) (s : State) (z : State) :
    p.Same z (State.portErr p₁ s) ↔ p.Same z s := by
  refine Part.same_iff ?_; unfold State.portErr; split <;> simp [h]

@[simp] theorem State.bumpStream_same (p : Part) (h : p ≠ .counts) (f : Fin 48 → Counter) (n : Nat) (k : Nat)
    (s : State) (z : State) :
    p.Same z (State.bumpStream f n k s) ↔ p.Same z s := by
  refine Part.same_iff ?_; unfold State.bumpStream; split <;> simp [h]

@[simp] theorem State.updProofStream_same (p : Part) (h : p ≠ .prf) (n : Nat) (f : ProofStream → ProofStream)
    (s : State) (z : State) :
    p.Same z (State.updProofStream n f s) ↔ p.Same z s := by
  refine Part.same_iff ?_; unfold State.updProofStream; simp [h]

@[simp] theorem State.tellMissing_same (p : Part) (h : p ≠ .prf) (n : Nat) (k : Nat) (s : State) (z : State) :
    p.Same z (State.tellMissing n k s) ↔ p.Same z s := by
  refine Part.same_iff ?_; unfold State.tellMissing; simp [h]

@[simp] theorem State.tellFrame_same (p : Part) (h : p ≠ .prf) (n : Nat) (e : StreamEntry) (frozen : Bool)
    (data : List Byte) (s : State) (z : State) :
    p.Same z (State.tellFrame n e frozen data s) ↔ p.Same z s := by
  refine Part.same_iff ?_; unfold State.tellFrame; split <;> simp [h]

@[simp] theorem State.dropFrame_same (p : Part) (h : p ≠ .counts ∧ p ≠ .ing ∧ p ≠ .prf) (n : Nat) (s : State)
    (z : State) :
    p.Same z (State.dropFrame n s) ↔ p.Same z s := by
  refine Part.same_iff ?_; unfold State.dropFrame; simp [h]

@[simp] theorem State.cutFrame_same (p : Part) (h : p ≠ .counts ∧ p ≠ .ing ∧ p ≠ .prf) (n : Nat) (s : State)
    (z : State) :
    p.Same z (State.cutFrame n s) ↔ p.Same z s := by
  refine Part.same_iff ?_; unfold State.cutFrame; split <;> simp [h]

@[simp] theorem State.reuse_same (p : Part) (h : p ≠ .ing) (n : Nat) (need : Nat) (x1 : Nat) (x2 : State) (z : State) :
    p.Same z (State.reuse n need x1 x2) ↔ p.Same z x2 := by
  fun_induction State.reuse n need x1 x2 <;> simp_all

@[simp] theorem State.land_same (p : Part) (h : p ≠ .counts ∧ p ≠ .ing ∧ p ≠ .prf) (n : Nat) (f : OpenFrame)
    (s : State) (z : State) :
    p.Same z (State.land n f s) ↔ p.Same z s := by
  refine Part.same_iff ?_; unfold State.land; dsimp only; split <;> simp [h]

@[simp] theorem State.openFrame_same (p : Part) (h : p ≠ .counts ∧ p ≠ .ing ∧ p ≠ .prf) (n : Nat) (f : OpenFrame)
    (s : State) (z : State) :
    p.Same z (State.openFrame n f s) ↔ p.Same z s := by
  refine Part.same_iff ?_; unfold State.openFrame; dsimp only; split <;> simp [h]

@[simp] theorem State.frameClock_same (p : Part) (h : p ≠ .fresh) (x : IngStream) (e : StreamEntry) (f : OpenFrame)
    (s : State) (z : State) :
    p.Same z (State.frameClock x e f s).2.2 ↔ p.Same z s := by
  refine Part.same_iff ?_; unfold State.frameClock; dsimp only; (repeat' split) <;> simp [h]

@[simp] theorem State.sealFrame_same (p : Part) (h : p ≠ .fresh ∧ p ≠ .counts ∧ p ≠ .ing ∧ p ≠ .prf) (n : Nat)
    (f : OpenFrame) (s : State) (z : State) :
    p.Same z (State.sealFrame n f s) ↔ p.Same z s := by
  refine Part.same_iff ?_; unfold State.sealFrame; dsimp only; (repeat' split) <;> simp [h]

theorem execFrameSeal_same (p : Part) (h : p ≠ .fresh ∧ p ≠ .counts ∧ p ≠ .ing ∧ p ≠ .prf) (stream : Fin 48)
    (s : State) {t : State} :
    execFrameSeal stream s = .next t → p.Same s t := by
  intro g; unfold execFrameSeal at g; injection g with g; subst g; (repeat' split) <;> simp [h]

theorem execStreamStale_same (p : Part) (h : p ≠ .ing ∧ p ≠ .prf) (stream : Fin 48) (s : State) {t : State} :
    execStreamStale stream s = .next t → p.Same s t := by
  intro g; unfold execStreamStale at g; injection g with g; subst g; (try dsimp only)
  repeat'
    first
    | (simp [h]; done)
    | intro _
    | split
    | refine Part.same_foldl ?_ ?_
    | refine (Part.same_foldl_snd _ _ _ _ _ ?_).2 ?_
    | refine (State.withRoom_same _ (by simp [h]) _ _ _ _ _ _ _ _ _ ?_).2 ?_
    | refine (State.act_same _ _ _ _ _ _ _ _ ?_).2 ?_
    | refine (State.resume_same _ _ _ _ _ _ _ ?_).2 ?_
    | refine (State.request_same _ (by simp [h]) _ _ _ _ ?_).2 ?_
    | refine (State.hint_same _ (by simp [h]) _ _ _ _ _ _ ?_).2 ?_
    | refine (State.ctxCommand_same _ (by simp [h]) _ _ _ _ _ _ ?_).2 ?_
    | refine (State.onContext_same _ _ _ _ _ _ _ ?_).2 ?_
    | refine (State.fire_same _ (by simp [h]) _ _ _ _ _ _ ?_).2 ?_
    | refine (State.bursts_same _ _ _ _ _ _ _ ?_).2 ?_
    | refine (State.withEpilogue_same _ (by simp [h]) _ _ _ _ _ _ _ _ _ ?_).2 ?_
    | simp [h]

@[simp] theorem State.sealEnded_same (p : Part) (h : p ≠ .fresh ∧ p ≠ .counts ∧ p ≠ .ing ∧ p ≠ .prf) (n : Nat)
    (s : State) (z : State) :
    p.Same z (State.sealEnded n s) ↔ p.Same z s := by
  refine Part.same_iff ?_; unfold State.sealEnded; (repeat' split) <;> simp [h]

theorem execCsiFrameStart_same (p : Part) (h : p ≠ .fresh ∧ p ≠ .counts ∧ p ≠ .ing ∧ p ≠ .prf) (port : Fin 12)
    (vc : Fin 4) (counter : BitVec 16) (lanes : Nat) (rate : Nat) (stamp : Int) (s : State) {t : State} :
    execCsiFrameStart port vc counter lanes rate stamp s = .next t → p.Same s t := by
  intro g; unfold execCsiFrameStart at g; injection g with g; subst g; (repeat' split) <;> simp [h]

@[simp] theorem State.landLine_same (p : Part) (h : p ≠ .counts ∧ p ≠ .ing ∧ p ≠ .prf) (n : Nat) (f : OpenFrame)
    (data : List Byte) (s : State) (z : State) :
    p.Same z (State.landLine n f data s) ↔ p.Same z s := by
  refine Part.same_iff ?_; unfold State.landLine; dsimp only; (repeat' split) <;> simp [h]

@[simp] theorem State.lineOverflow_same (p : Part) (h : p ≠ .counts ∧ p ≠ .ing ∧ p ≠ .prf) (port : Nat) (s : State)
    (z : State) :
    p.Same z (State.lineOverflow port s) ↔ p.Same z s := by
  refine Part.same_iff ?_; unfold State.lineOverflow
  repeat'
    first
    | (simp [h]; done)
    | intro _
    | split
    | refine Part.same_foldl ?_ ?_
    | refine (Part.same_foldl_snd _ _ _ _ _ ?_).2 ?_
    | simp [h]

theorem execCsiLongPacket_same (p : Part) (h : p ≠ .counts ∧ p ≠ .ing ∧ p ≠ .prf) (port : Fin 12) (vc : Fin 4)
    (dataType : BitVec 6) (headerGood : Bool) (crcGood : Bool) (overflow : Bool) (data : List Byte)
    (s : State) {t : State} :
    execCsiLongPacket port vc dataType headerGood crcGood overflow data s = .next t → p.Same s t := by
  intro g; unfold execCsiLongPacket at g; injection g with g; subst g; (repeat' split) <;> simp [h]

theorem execCsiEmbeddedData_same (p : Part) (h : p ≠ .ing) (port : Fin 12) (vc : Fin 4) (data : List Byte)
    (s : State) {t : State} :
    execCsiEmbeddedData port vc data s = .next t → p.Same s t := by
  intro g; unfold execCsiEmbeddedData at g; injection g with g; subst g; (repeat' split) <;> simp [h]

theorem execCsiFrameEnd_same (p : Part) (h : p ≠ .ing) (port : Fin 12) (vc : Fin 4) (s : State) {t : State} :
    execCsiFrameEnd port vc s = .next t → p.Same s t := by
  intro g; unfold execCsiFrameEnd at g; injection g with g; subst g; split <;> simp [h]

@[simp] theorem State.landFragment_same (p : Part) (h : p ≠ .counts ∧ p ≠ .ing ∧ p ≠ .prf) (n : Nat)
    (h₁ : SensorHeader) (f : OpenFrame) (s : State) (z : State) :
    p.Same z (State.landFragment n h₁ f s) ↔ p.Same z s := by
  refine Part.same_iff ?_; unfold State.landFragment; dsimp only; split <;> simp [h]

@[simp] theorem State.firstFragment_same (p : Part) (h : p ≠ .counts ∧ p ≠ .ing ∧ p ≠ .prf) (n : Nat)
    (h₁ : SensorHeader) (stamp : Int) (s : State) (z : State) :
    p.Same z (State.firstFragment n h₁ stamp s) ↔ p.Same z s := by
  refine Part.same_iff ?_; unfold State.firstFragment; dsimp only; (repeat' split) <;> simp [h]

@[simp] theorem State.fragment_same (p : Part) (h : p ≠ .fresh ∧ p ≠ .counts ∧ p ≠ .ing ∧ p ≠ .prf) (n : Nat)
    (h₁ : SensorHeader) (stamp : Int) (s : State) (z : State) :
    p.Same z (State.fragment n h₁ stamp s) ↔ p.Same z s := by
  refine Part.same_iff ?_; unfold State.fragment; dsimp only; (repeat' split) <;> simp [h]

theorem execSensorFragment_same (p : Part) (h : p ≠ .fresh ∧ p ≠ .counts ∧ p ≠ .ing ∧ p ≠ .eth ∧ p ≠ .prf)
    (p₁ : Port) (tsn : BitVec 12) (stamp : Int) (data : List Byte) (s : State) {t : State} :
    execSensorFragment p₁ tsn stamp data s = .next t → p.Same s t := by
  intro g; unfold execSensorFragment at g; injection g with g; subst g; dsimp only; (repeat' split) <;> simp [h]

theorem execFragmentTimeout_same (p : Part) (h : p ≠ .counts ∧ p ≠ .ing ∧ p ≠ .prf) (stream : Fin 48)
    (s : State) {t : State} :
    execFragmentTimeout stream s = .next t → p.Same s t := by
  intro g; unfold execFragmentTimeout at g; injection g with g; subst g; (try dsimp only)
  repeat'
    first
    | (simp [h]; done)
    | intro _
    | split
    | refine Part.same_foldl ?_ ?_
    | refine (Part.same_foldl_snd _ _ _ _ _ ?_).2 ?_
    | refine (State.withRoom_same _ (by simp [h]) _ _ _ _ _ _ _ _ _ ?_).2 ?_
    | refine (State.act_same _ _ _ _ _ _ _ _ ?_).2 ?_
    | refine (State.resume_same _ _ _ _ _ _ _ ?_).2 ?_
    | refine (State.request_same _ (by simp [h]) _ _ _ _ ?_).2 ?_
    | refine (State.hint_same _ (by simp [h]) _ _ _ _ _ _ ?_).2 ?_
    | refine (State.ctxCommand_same _ (by simp [h]) _ _ _ _ _ _ ?_).2 ?_
    | refine (State.onContext_same _ _ _ _ _ _ _ ?_).2 ?_
    | refine (State.fire_same _ (by simp [h]) _ _ _ _ _ _ ?_).2 ?_
    | refine (State.bursts_same _ _ _ _ _ _ _ ?_).2 ?_
    | refine (State.withEpilogue_same _ (by simp [h]) _ _ _ _ _ _ _ _ _ ?_).2 ?_
    | simp [h]

/-! ### Ethernet -/

@[simp] theorem State.restartGates_same (p : Part) (h : p ≠ .eth) (p₁ : Port) (s : State) (z : State) :
    p.Same z (State.restartGates p₁ s) ↔ p.Same z s := by
  refine Part.same_iff ?_; unfold State.restartGates; simp [h]

theorem execEthGateAnchor_same (p : Part) (h : p ≠ .counts ∧ p ≠ .rgn ∧ p ≠ .eth ∧ p ≠ .prf ∧ p ≠ .brn)
    (e : BitVec 12) (s : State) {t : State} :
    execEthGateAnchor e s = .next t → p.Same s t := by
  intro g; unfold execEthGateAnchor at g; injection g with g; subst g; simp [h]

theorem execGateListAdvance_same (p : Part) (h : p ≠ .eth) (p₁ : Port) (s : State) {t : State} :
    execGateListAdvance p₁ s = .next t → p.Same s t := by
  intro g; unfold execGateListAdvance at g; injection g with g; subst g; dsimp only; (repeat' split) <;> simp [h]

@[simp] theorem State.dropQueued_same (p : Part) (h : p ≠ .eth) (p₁ : Port) (id : Nat) (s : State) (z : State) :
    p.Same z (State.dropQueued p₁ id s) ↔ p.Same z s := by
  refine Part.same_iff ?_; unfold State.dropQueued; simp [h]

theorem execGateWindowClose_same (p : Part) (h : p ≠ .counts ∧ p ≠ .eth) (p₁ : Port) (id : Nat)
    (s : State) {t : State} :
    execGateWindowClose p₁ id s = .next t → p.Same s t := by
  intro g; unfold execGateWindowClose at g; injection g with g; subst g; (repeat' split) <;> simp [h]

theorem execDownLinkDiscard_same (p : Part) (h : p ≠ .eth) (p₁ : Port) (s : State) {t : State} :
    execDownLinkDiscard p₁ s = .next t → p.Same s t := by
  intro g; unfold execDownLinkDiscard at g; injection g with g; subst g; split <;> simp [h]

theorem execFrameTransmit_same (p : Part) (h : p ≠ .fresh ∧ p ≠ .counts ∧ p ≠ .tb ∧ p ≠ .eth) (p₁ : Port)
    (s : State) {t : State} :
    execFrameTransmit p₁ s = .next t → p.Same s t := by
  intro g; unfold execFrameTransmit at g; injection g with g; subst g; dsimp only; (repeat' split) <;> simp [h]

@[simp] theorem State.updFrer_same (p : Part) (h : p ≠ .eth) (tsn : Nat) (f : FrerState → FrerState) (s : State)
    (z : State) :
    p.Same z (State.updFrer tsn f s) ↔ p.Same z s := by
  refine Part.same_iff ?_; unfold State.updFrer; dsimp only; simp [h]

@[simp] theorem State.sendStream_same (p : Part) (h : p ≠ .eth) (e : StreamEntry) (data : List Byte)
    (window : Option (Int × Int)) (s : State) (z : State) :
    p.Same z (State.sendStream e data window s) ↔ p.Same z s := by
  refine Part.same_iff ?_; unfold State.sendStream; dsimp only; split <;> simp [h]

@[simp] theorem State.meter_same (p : Part) (h : p ≠ .eth) (n : Nat) (e : NetEntry) (bytes : Nat) (s : State)
    (z : State) :
    p.Same z (State.meter n e bytes s).2 ↔ p.Same z s := by
  refine Part.same_iff ?_; unfold State.meter; dsimp only; (repeat' split) <;> simp [h]

@[simp] theorem State.rxStream_same (p : Part) (h : p ≠ .eth) (p₁ : Port) (n : Nat) (f : Frame) (s : State)
    (z : State) :
    p.Same z (State.rxStream p₁ n f s) ↔ p.Same z s := by
  refine Part.same_iff ?_; unfold State.rxStream; dsimp only; simp [h]

@[simp] theorem State.eliminate_same (p : Part) (h : p ≠ .counts ∧ p ≠ .eth) (p₁ : Port) (n : Nat) (r : FrerEntry)
    (f : Frame) (s : State) (z : State) :
    p.Same z (State.eliminate p₁ n r f s) ↔ p.Same z s := by
  refine Part.same_iff ?_; unfold State.eliminate; dsimp only; (repeat' split) <;> simp [h]

@[simp] theorem State.noTaker_same (p : Part) (h : p ≠ .counts) (p₁ : Port) (f : Frame) (s : State) (z : State) :
    p.Same z (State.noTaker p₁ f s) ↔ p.Same z s := by
  refine Part.same_iff ?_; unfold State.noTaker; split <;> simp [h]

@[simp] theorem State.rxEntry_same (p : Part) (h : p ≠ .counts ∧ p ≠ .eth) (p₁ : Port) (n : Nat) (e : NetEntry)
    (f : Frame) (s : State) (z : State) :
    p.Same z (State.rxEntry p₁ n e f s) ↔ p.Same z s := by
  refine Part.same_iff ?_; unfold State.rxEntry; dsimp only; (repeat' split) <;> simp [h]

@[simp] theorem State.rxLimian_same (p : Part) (h : p ≠ .counts ∧ p ≠ .eth) (p₁ : Port) (b : List Byte) (s : State)
    (z : State) :
    p.Same z (State.rxLimian p₁ b s) ↔ p.Same z s := by
  refine Part.same_iff ?_; unfold State.rxLimian; dsimp only; (repeat' split) <;> simp [h]

@[simp] theorem State.rxByType_same (p : Part) (h : p ≠ .counts ∧ p ≠ .eth) (p₁ : Port) (f : Frame) (s : State)
    (z : State) :
    p.Same z (State.rxByType p₁ f s) ↔ p.Same z s := by
  refine Part.same_iff ?_; unfold State.rxByType; (repeat' split) <;> simp [h]

theorem execFrameReceive_same (p : Part) (h : p ≠ .counts ∧ p ≠ .eth) (p₁ : Port) (f : Frame) (stamp : Int)
    (s : State) {t : State} :
    execFrameReceive p₁ f stamp s = .next t → p.Same s t := by
  intro g; unfold execFrameReceive at g; injection g with g; subst g; dsimp only; (repeat' split) <;> simp [h]

theorem execFrerRecoveryReset_same (p : Part) (h : p ≠ .eth) (tsn : BitVec 12) (s : State) {t : State} :
    execFrerRecoveryReset tsn s = .next t → p.Same s t := by
  intro g; unfold execFrerRecoveryReset at g; injection g with g; subst g; (try dsimp only)
  repeat'
    first
    | (simp [h]; done)
    | intro _
    | split
    | refine Part.same_foldl ?_ ?_
    | refine (Part.same_foldl_snd _ _ _ _ _ ?_).2 ?_
    | refine (State.withRoom_same _ (by simp [h]) _ _ _ _ _ _ _ _ _ ?_).2 ?_
    | refine (State.act_same _ _ _ _ _ _ _ _ ?_).2 ?_
    | refine (State.resume_same _ _ _ _ _ _ _ ?_).2 ?_
    | refine (State.request_same _ (by simp [h]) _ _ _ _ ?_).2 ?_
    | refine (State.hint_same _ (by simp [h]) _ _ _ _ _ _ ?_).2 ?_
    | refine (State.ctxCommand_same _ (by simp [h]) _ _ _ _ _ _ ?_).2 ?_
    | refine (State.onContext_same _ _ _ _ _ _ _ ?_).2 ?_
    | refine (State.fire_same _ (by simp [h]) _ _ _ _ _ _ ?_).2 ?_
    | refine (State.bursts_same _ _ _ _ _ _ _ ?_).2 ?_
    | refine (State.withEpilogue_same _ (by simp [h]) _ _ _ _ _ _ _ _ _ ?_).2 ?_
    | simp [h]

@[simp] theorem State.dropLink_same (p : Part) (h : p ≠ .counts ∧ p ≠ .tb ∧ p ≠ .eth) (p₁ : Port) (s : State)
    (z : State) :
    p.Same z (State.dropLink p₁ s) ↔ p.Same z s := by
  refine Part.same_iff ?_; unfold State.dropLink; split <;> simp [h]

theorem execLinkDown_same (p : Part) (h : p ≠ .counts ∧ p ≠ .tb ∧ p ≠ .eth) (p₁ : Port) (s : State) {t : State} :
    execLinkDown p₁ s = .next t → p.Same s t := by
  intro g; unfold execLinkDown at g; injection g with g; subst g; simp [h]

theorem execLinkUp_same (p : Part) (h : p ≠ .tb ∧ p ≠ .eth) (p₁ : Port) (speed : Fin 3) (master : Bool)
    (verified : Bool) (s : State) {t : State} :
    execLinkUp p₁ speed master verified s = .next t → p.Same s t := by
  intro g; unfold execLinkUp at g; injection g with g; subst g; dsimp only; (repeat' split) <;> simp [h]

theorem execPreemptionVerifyTimeout_same (p : Part) (h : p ≠ .eth) (p₁ : Port) (s : State) {t : State} :
    execPreemptionVerifyTimeout p₁ s = .next t → p.Same s t := by
  intro g; unfold execPreemptionVerifyTimeout at g; injection g with g; subst g; split <;> simp [h]

@[simp] theorem State.sendLldp_same (p : Part) (h : p ≠ .eth) (p₁ : Port) (dst : BitVec 48) (s : State) (z : State) :
    p.Same z (State.sendLldp p₁ dst s) ↔ p.Same z s := by
  refine Part.same_iff ?_; unfold State.sendLldp; dsimp only; simp [h]

@[simp] theorem State.lldp_same (p : Part) (h : p ≠ .eth) (p₁ : Port) (s : State) (z : State) :
    p.Same z (State.lldp p₁ s) ↔ p.Same z s := by
  refine Part.same_iff ?_; unfold State.lldp; dsimp only; (repeat' split) <;> simp [h]

theorem execLldpTransmit_same (p : Part) (h : p ≠ .eth) (p₁ : Port) (s : State) {t : State} :
    execLldpTransmit p₁ s = .next t → p.Same s t := by
  intro g; unfold execLldpTransmit at g; injection g with g; subst g; split <;> simp [h]

theorem execLldpReceive_same (p : Part) (h : p ≠ .counts ∧ p ≠ .eth) (p₁ : Port) (macSubtype : Bool)
    (chassis : BitVec 48) (ttl : BitVec 16) (s : State) {t : State} :
    execLldpReceive p₁ macSubtype chassis ttl s = .next t → p.Same s t := by
  intro g; unfold execLldpReceive at g; injection g with g; subst g; dsimp only; (repeat' split) <;> simp [h]

theorem execPartnerExpire_same (p : Part) (h : p ≠ .eth) (n : Fin 64) (s : State) {t : State} :
    execPartnerExpire n s = .next t → p.Same s t := by
  intro g; unfold execPartnerExpire at g; injection g with g; subst g; (repeat' split) <;> simp [h]

theorem execArpRequest_same (p : Part) (h : p ≠ .eth) (p₁ : Port) (target : Word) (asker : BitVec 48)
    (askerIp : Word) (s : State) {t : State} :
    execArpRequest p₁ target asker askerIp s = .next t → p.Same s t := by
  intro g; unfold execArpRequest at g; injection g with g; subst g; (try dsimp only)
  repeat'
    first
    | (simp [h]; done)
    | intro _
    | split
    | refine Part.same_foldl ?_ ?_
    | refine (Part.same_foldl_snd _ _ _ _ _ ?_).2 ?_
    | refine (State.withRoom_same _ (by simp [h]) _ _ _ _ _ _ _ _ _ ?_).2 ?_
    | refine (State.act_same _ _ _ _ _ _ _ _ ?_).2 ?_
    | refine (State.resume_same _ _ _ _ _ _ _ ?_).2 ?_
    | refine (State.request_same _ (by simp [h]) _ _ _ _ ?_).2 ?_
    | refine (State.hint_same _ (by simp [h]) _ _ _ _ _ _ ?_).2 ?_
    | refine (State.ctxCommand_same _ (by simp [h]) _ _ _ _ _ _ ?_).2 ?_
    | refine (State.onContext_same _ _ _ _ _ _ _ ?_).2 ?_
    | refine (State.fire_same _ (by simp [h]) _ _ _ _ _ _ ?_).2 ?_
    | refine (State.bursts_same _ _ _ _ _ _ _ ?_).2 ?_
    | refine (State.withEpilogue_same _ (by simp [h]) _ _ _ _ _ _ _ _ _ ?_).2 ?_
    | simp [h]

@[simp] theorem State.bypassEvent_same (p : Part) (h : p ≠ .eth) (action : Nat) (t : Int) (s : State) (z : State) :
    p.Same z (State.bypassEvent action t s) ↔ p.Same z s := by
  refine Part.same_iff ?_; unfold State.bypassEvent; simp [h]

@[simp] theorem State.chooseInstant_same (p : Part) (h : p ≠ .eth) (open_ : Bool) (s : State) (z : State) :
    p.Same z (State.chooseInstant open_ s) ↔ p.Same z s := by
  refine Part.same_iff ?_; unfold State.chooseInstant; dsimp only; split <;> simp [h]

@[simp] theorem State.armBypass_same (p : Part) (h : p ≠ .eth) (s : State) (z : State) :
    p.Same z (State.armBypass s) ↔ p.Same z s := by
  refine Part.same_iff ?_; unfold State.armBypass; split <;> simp [h]

theorem execBypassArm_same (p : Part) (h : p ≠ .eth) (s : State) {t : State} :
    execBypassArm s = .next t → p.Same s t := by
  intro g; unfold execBypassArm at g; injection g with g; subst g; simp [h]

theorem execBypassAnnounce_same (p : Part) (h : p ≠ .eth) (s : State) {t : State} :
    execBypassAnnounce s = .next t → p.Same s t := by
  intro g; unfold execBypassAnnounce at g; injection g with g; subst g; split <;> simp [h]

theorem execBypassOpen_same (p : Part) (h : p ≠ .eth) (s : State) {t : State} :
    execBypassOpen s = .next t → p.Same s t := by
  intro g; unfold execBypassOpen at g; injection g with g; subst g; (repeat' split) <;> simp [h]

@[simp] theorem State.closeSwitches_same (p : Part) (h : p ≠ .counts ∧ p ≠ .tb ∧ p ≠ .eth) (st : BypassState)
    (s : State) (z : State) :
    p.Same z (State.closeSwitches st s) ↔ p.Same z s := by
  refine Part.same_iff ?_; unfold State.closeSwitches; simp [h]

theorem execBypassOpenFail_same (p : Part) (h : p ≠ .counts ∧ p ≠ .tb ∧ p ≠ .eth ∧ p ≠ .brn) (s : State) {t : State} :
    execBypassOpenFail s = .next t → p.Same s t := by
  intro g; unfold execBypassOpenFail at g; injection g with g; subst g; dsimp only; (repeat' split) <;> simp [h]

theorem execBypassClose_same (p : Part) (h : p ≠ .counts ∧ p ≠ .tb ∧ p ≠ .eth) (s : State) {t : State} :
    execBypassClose s = .next t → p.Same s t := by
  intro g; unfold execBypassClose at g; injection g with g; subst g; (repeat' split) <;> simp [h]

@[simp] theorem State.bypassCtrl_same (p : Part) (h : p ≠ .regs ∧ p ≠ .eth) (v : Word) (s : State) (z : State) :
    p.Same z (State.bypassCtrl v s) ↔ p.Same z s := by
  refine Part.same_iff ?_; unfold State.bypassCtrl; dsimp only; (repeat' split) <;> simp [h]

theorem execBypassCloseReq_same (p : Part) (h : p ≠ .regs ∧ p ≠ .eth) (v : Word) (s : State) {t : State} :
    execBypassCloseReq v s = .next t → p.Same s t := by
  intro g; unfold execBypassCloseReq at g; injection g with g; subst g; split <;> simp [h]

theorem execBypassRetry_same (p : Part) (h : p ≠ .regs ∧ p ≠ .eth) (v : Word) (s : State) {t : State} :
    execBypassRetry v s = .next t → p.Same s t := by
  intro g; unfold execBypassRetry at g; injection g with g; subst g; split <;> simp [h]

/-! ### SparesOps -/

@[simp] theorem State.checkDegraded_same (p : Part) (h : p ≠ .brn) (s : State) (z : State) :
    p.Same z (State.checkDegraded s) ↔ p.Same z s := by
  refine Part.same_iff ?_; unfold State.checkDegraded; dsimp only
  repeat'
    first
    | (simp [h]; done)
    | intro _
    | split
    | refine Part.same_foldl ?_ ?_
    | refine (Part.same_foldl_snd _ _ _ _ _ ?_).2 ?_
    | simp [h]

@[simp] theorem State.refetch_same (p : Part) (h : p ≠ .tir ∧ p ≠ .eth) (o : ObjVersion) (s : State) (z : State) :
    p.Same z (State.refetch o s) ↔ p.Same z s := by
  refine Part.same_iff ?_; unfold State.refetch; simp [h]

@[simp] theorem State.loseVersion_same (p : Part) (h : p ≠ .cores ∧ p ≠ .jobs ∧ p ≠ .tir ∧ p ≠ .chn ∧ p ≠ .lnw ∧ p ≠
    .eth) (o : ObjVersion) (s : State) (z : State) :
    p.Same z (State.loseVersion o s) ↔ p.Same z s := by
  refine Part.same_iff ?_; unfold State.loseVersion; split <;> simp [h]

@[simp] theorem State.failRequests_same (p : Part) (h : p ≠ .fresh ∧ p ≠ .counts ∧ p ≠ .cores ∧ p ≠ .jobs ∧ p ≠ .ctx
    ∧ p ≠ .tir ∧ p ≠ .chn ∧ p ≠ .lnw ∧ p ≠ .ing ∧ p ≠ .trc ∧ p ≠ .xh ∧ p ≠ .eth ∧ p ≠ .prf ∧ p ≠ .brn) (kind : Nat)
    (inst : Nat) (lost : Nat → Bool) (o : ObjVersion) (s : State) (z : State) :
    p.Same z (State.failRequests kind inst lost o s) ↔ p.Same z s := by
  refine Part.same_iff ?_; unfold State.failRequests; dsimp only; split <;> simp [h]

@[simp] theorem State.mirrorRequests_same (p : Part) (h : p ≠ .counts ∧ p ≠ .tir ∧ p ≠ .chn ∧ p ≠ .lnw)
    (lost : Nat → Bool) (o : ObjVersion) (s : State) (z : State) :
    p.Same z (State.mirrorRequests lost o s) ↔ p.Same z s := by
  refine Part.same_iff ?_; unfold State.mirrorRequests; dsimp only; (repeat' split) <;> simp [h]

@[simp] theorem State.loseT3_same (p : Part) (h : p ≠ .fresh ∧ p ≠ .counts ∧ p ≠ .cores ∧ p ≠ .jobs ∧ p ≠ .ctx ∧ p ≠
    .tir ∧ p ≠ .chn ∧ p ≠ .lnw ∧ p ≠ .ing ∧ p ≠ .trc ∧ p ≠ .xh ∧ p ≠ .eth ∧ p ≠ .prf ∧ p ≠ .brn) (kind : Nat)
    (inst : Nat) (logical : Nat) (spare : Bool) (o : ObjVersion) (s : State) (z : State) :
    p.Same z (State.loseT3 kind inst logical spare o s) ↔ p.Same z s := by
  refine Part.same_iff ?_; unfold State.loseT3; dsimp only; (repeat' split) <;> simp [h]

@[simp] theorem State.loseT4_same (p : Part) (h : p ≠ .fresh ∧ p ≠ .counts ∧ p ≠ .cores ∧ p ≠ .jobs ∧ p ≠ .ctx ∧ p ≠
    .tir ∧ p ≠ .chn ∧ p ≠ .lnw ∧ p ≠ .ing ∧ p ≠ .trc ∧ p ≠ .xh ∧ p ≠ .eth ∧ p ≠ .prf ∧ p ≠ .brn) (kind : Nat)
    (inst : Nat) (lost : Nat → Bool) (o : ObjVersion) (s : State) (z : State) :
    p.Same z (State.loseT4 kind inst lost o s) ↔ p.Same z s := by
  refine Part.same_iff ?_; unfold State.loseT4; dsimp only; split <;> simp [h]

@[simp] theorem State.damageContext_same (p : Part) (h : p ≠ .counts ∧ p ≠ .ctx) (n : Nat) (s : State) (z : State) :
    p.Same z (State.damageContext n s) ↔ p.Same z s := by
  refine Part.same_iff ?_; unfold State.damageContext; (repeat' split) <;> simp [h]

@[simp] theorem State.losePages_same (p : Part) (h : p ≠ .ctx ∧ p ≠ .tir) (hit : Nat → Bool) (spare : Bool)
    (s : State) (z : State) :
    p.Same z (State.losePages hit spare s) ↔ p.Same z s := by
  refine Part.same_iff ?_; unfold State.losePages; dsimp only
  repeat'
    first
    | (simp [h]; done)
    | intro _
    | split
    | refine Part.same_foldl ?_ ?_
    | refine (Part.same_foldl_snd _ _ _ _ _ ?_).2 ?_
    | simp [h]

@[simp] theorem State.loseSnapshots_same (p : Part) (h : p ≠ .ctx ∧ p ≠ .tir) (logical : Nat) (hit : Nat → Nat → Bool)
    (spare : Bool) (s : State) (z : State) :
    p.Same z (State.loseSnapshots logical hit spare s) ↔ p.Same z s := by
  refine Part.same_iff ?_; unfold State.loseSnapshots; dsimp only
  repeat'
    first
    | (simp [h]; done)
    | intro _
    | split
    | refine Part.same_foldl ?_ ?_
    | refine (Part.same_foldl_snd _ _ _ _ _ ?_).2 ?_
    | simp [h]

@[simp] theorem State.loseKv_same (p : Part) (h : p ≠ .counts ∧ p ≠ .ctx ∧ p ≠ .tir) (logical : Nat)
    (hit : Nat → Nat → Bool) (spare : Bool) (s : State) (z : State) :
    p.Same z (State.loseKv logical hit spare s) ↔ p.Same z s := by
  refine Part.same_iff ?_; unfold State.loseKv; dsimp only; simp [h]

@[simp] theorem State.loseGolent_same (p : Part) (h : p ≠ .fresh ∧ p ≠ .counts ∧ p ≠ .cores ∧ p ≠ .jobs ∧ p ≠ .ctx ∧
    p ≠ .tir ∧ p ≠ .chn ∧ p ≠ .lnw ∧ p ≠ .ing ∧ p ≠ .trc ∧ p ≠ .xh ∧ p ≠ .eth ∧ p ≠ .prf ∧ p ≠ .brn) (inst : Nat)
    (logical : Nat) (spare : Bool) (s : State) (z : State) :
    p.Same z (State.loseGolent inst logical spare s) ↔ p.Same z s := by
  refine Part.same_iff ?_; unfold State.loseGolent; dsimp only; simp [h]

/-! ### Channels -/

@[simp] theorem State.retrainNow_same (p : Part) (h : p ≠ .chn) (ch : Channel) (s : State) (z : State) :
    p.Same z (State.retrainNow ch s) ↔ p.Same z s := by
  refine Part.same_iff ?_; unfold State.retrainNow; simp [h]

@[simp] theorem State.startDeferred_same (p : Part) (h : p ≠ .chn) (ch : Channel) (s : State) (z : State) :
    p.Same z (State.startDeferred ch s) ↔ p.Same z s := by
  refine Part.same_iff ?_; unfold State.startDeferred; dsimp only; split <;> simp [h]

@[simp] theorem State.deferRetrain_same (p : Part) (h : p ≠ .chn) (ch : Channel) (s : State) (z : State) :
    p.Same z (State.deferRetrain ch s) ↔ p.Same z s := by
  refine Part.same_iff ?_; unfold State.deferRetrain; dsimp only; split <;> simp [h]

@[simp] theorem State.burstCorrected_same (p : Part) (h : p ≠ .counts ∧ p ≠ .chn) (ch : Channel) (s : State)
    (z : State) :
    p.Same z (State.burstCorrected ch s) ↔ p.Same z s := by
  refine Part.same_iff ?_; unfold State.burstCorrected; dsimp only; split <;> simp [h]

@[simp] theorem State.decodeBurst_same (p : Part) (h : p ≠ .fresh) (n : Nat) (s : State) (z : State) :
    p.Same z (State.decodeBurst n s).2 ↔ p.Same z s := by
  refine Part.same_iff ?_; unfold State.decodeBurst; dsimp only; (repeat' split) <;> simp [h]

@[simp] theorem State.unitBad_same (p : Part) (h : p ≠ .chn) (ch : Channel) (unit : Nat) (s : State) (z : State) :
    p.Same z (State.unitBad ch unit s) ↔ p.Same z s := by
  refine Part.same_iff ?_; unfold State.unitBad; simp [h]

@[simp] theorem State.escalate_same (p : Part) (h : p ≠ .chn) (ch : Channel) (unit : Nat) (s : State) (z : State) :
    p.Same z (State.escalate ch unit s) ↔ p.Same z s := by
  refine Part.same_iff ?_; unfold State.escalate; simp [h]

@[simp] theorem State.receive_same (p : Part) (h : p ≠ .fresh ∧ p ≠ .counts ∧ p ≠ .chn) (ch : Channel) (unit : Nat)
    (x1 : Nat) (x2 : List BurstTry) (x3 : State) (z : State) :
    p.Same z (State.receive ch unit x1 x2 x3) ↔ p.Same z x3 := by
  induction x2 generalizing x1 x3 z with
  | nil => unfold State.receive; simp [h]
  | cons t r ih =>
    refine Part.same_iff ?_; unfold State.receive; dsimp only
    (repeat' split) <;> simp [ih, h]

@[simp] theorem State.receiveAgain_same (p : Part) (h : p ≠ .fresh ∧ p ≠ .counts ∧ p ≠ .chn) (ch : Channel)
    (unit : Nat) (ts : List BurstTry) (s : State) (z : State) :
    p.Same z (State.receiveAgain ch unit ts s) ↔ p.Same z s := by
  refine Part.same_iff ?_; unfold State.receiveAgain; dsimp only; (repeat' split) <;> simp [h]

@[simp] theorem State.readBurst_same (p : Part) (h : p ≠ .fresh ∧ p ≠ .counts ∧ p ≠ .chn) (ch : Channel) (unit : Nat)
    (burst : Nat) (ts : List BurstTry) (s : State) (z : State) :
    p.Same z (State.readBurst ch unit burst ts s) ↔ p.Same z s := by
  refine Part.same_iff ?_; unfold State.readBurst; dsimp only; (repeat' split) <;> simp [h]

@[simp] theorem State.bursts_same (p : Part) {α : Type} (ch : Channel) (f : Nat → α → State → State) (k : Nat)
    (l : List α) (s z : State)
    (hg : ∀ n b u, p.Same u (f n b u)) :
    p.Same z (State.bursts ch f k l s) ↔ p.Same z s := by
  induction l generalizing s k with
  | nil => simp [State.bursts]
  | cons b l ih =>
    unfold State.bursts; split
    · exact (ih _ _).trans (Part.same_iff (hg k b s))
    · exact Iff.rfl

@[simp] theorem State.blockRead_same (p : Part) (h : p ≠ .counts ∧ p ≠ .tir ∧ p ≠ .chn ∧ p ≠ .lnw) (ch : Channel)
    (unit : Nat) (block : Nat) (s : State) (z : State) :
    p.Same z (State.blockRead ch unit block s) ↔ p.Same z s := by
  refine Part.same_iff ?_; unfold State.blockRead; dsimp only; (repeat' split) <;> simp [h]

theorem execTierReadTransaction_same (p : Part) (h : p ≠ .fresh ∧ p ≠ .counts ∧ p ≠ .tir ∧ p ≠ .chn ∧ p ≠ .lnw)
    (ch : Channel) (at_ : BurstPlace) (bursts : List (List BurstTry)) (s : State) {t : State} :
    execTierReadTransaction ch at_ bursts s = .next t → p.Same s t := by
  intro g; unfold execTierReadTransaction at g; injection g with g; subst g; dsimp only
  have k : p.Same s (State.bursts ch (fun k => State.readBurst ch at_.unit k) at_.first.val bursts s) :=
    (State.bursts_same p _ _ _ _ _ _ (fun n b u => by simp [h])).2 (Part.same_refl ..)
  (repeat' split) <;> simp [h, k]

@[simp] theorem State.writeTry_same (p : Part) (h : p ≠ .counts ∧ p ≠ .chn) (ch : Channel) (unit : Nat) (burst : Nat)
    (x1 : Nat) (x2 : List Bool) (x3 : State) (z : State) :
    p.Same z (State.writeTry ch unit burst x1 x2 x3) ↔ p.Same z x3 := by
  induction x2 generalizing x1 x3 z with
  | nil => unfold State.writeTry; simp [h]
  | cons t r ih =>
    refine Part.same_iff ?_; unfold State.writeTry; dsimp only
    (repeat' split) <;> simp [ih, h]

@[simp] theorem State.writeBurst_same (p : Part) (h : p ≠ .counts ∧ p ≠ .chn) (ch : Channel) (unit : Nat) (burst : Nat)
    (l : List Bool) (s : State) (z : State) :
    p.Same z (State.writeBurst ch unit burst l s) ↔ p.Same z s := by
  refine Part.same_iff ?_; unfold State.writeBurst; split <;> simp [h]

theorem execTierWriteTransaction_same (p : Part) (h : p ≠ .counts ∧ p ≠ .chn) (ch : Channel) (at_ : BurstPlace)
    (bursts : List (List Bool)) (s : State) {t : State} :
    execTierWriteTransaction ch at_ bursts s = .next t → p.Same s t := by
  intro g; unfold execTierWriteTransaction at g; injection g with g; subst g
  split
  · exact (State.bursts_same p _ _ _ _ _ _ (fun n b u => by simp [h])).2 (Part.same_refl ..)
  · simp

@[simp] theorem State.readMirror_same (p : Part) (h : p ≠ .counts ∧ p ≠ .tir ∧ p ≠ .chn ∧ p ≠ .lnw) (unit : Nat)
    (o : ObjVersion) (s : State) (z : State) :
    p.Same z (State.readMirror unit o s) ↔ p.Same z s := by
  refine Part.same_iff ?_; unfold State.readMirror; dsimp only; split <;> simp [h]

@[simp] theorem State.loseUnit_same (p : Part) (h : p ≠ .fresh ∧ p ≠ .counts ∧ p ≠ .cores ∧ p ≠ .jobs ∧ p ≠ .ctx ∧ p
    ≠ .tir ∧ p ≠ .chn ∧ p ≠ .lnw ∧ p ≠ .ing ∧ p ≠ .trc ∧ p ≠ .xh ∧ p ≠ .eth ∧ p ≠ .prf ∧ p ≠ .brn) (kind : Nat)
    (inst : Nat) (unit : Nat) (o : ObjVersion) (s : State) (z : State) :
    p.Same z (State.loseUnit kind inst unit o s) ↔ p.Same z s := by
  refine Part.same_iff ?_; unfold State.loseUnit; dsimp only; (repeat' split) <;> simp [h]

theorem execUnitUncorrectable_same (p : Part) (h : p ≠ .fresh ∧ p ≠ .counts ∧ p ≠ .cores ∧ p ≠ .jobs ∧ p ≠ .ctx ∧ p ≠
    .tir ∧ p ≠ .chn ∧ p ≠ .lnw ∧ p ≠ .ing ∧ p ≠ .trc ∧ p ≠ .xh ∧ p ≠ .eth ∧ p ≠ .prf ∧ p ≠ .brn) (ch : Channel)
    (unit : Nat) (s : State) {t : State} :
    execUnitUncorrectable ch unit s = .next t → p.Same s t := by
  intro g; unfold execUnitUncorrectable at g; injection g with g; subst g; dsimp only; (repeat' split) <;> simp [h]

@[simp] theorem State.trained_same (p : Part) (h : p ≠ .chn) (ch : Channel) (train : BitVec 24) (s : State)
    (z : State) :
    p.Same z (State.trained ch train s) ↔ p.Same z s := by
  refine Part.same_iff ?_; unfold State.trained; (repeat' split) <;> simp [h]

@[simp] theorem State.golentFails_same (p : Part) (h : p ≠ .fresh ∧ p ≠ .counts ∧ p ≠ .cores ∧ p ≠ .jobs ∧ p ≠ .ctx ∧
    p ≠ .tir ∧ p ≠ .chn ∧ p ≠ .lnw ∧ p ≠ .ing ∧ p ≠ .trc ∧ p ≠ .xh ∧ p ≠ .eth ∧ p ≠ .prf ∧ p ≠ .brn) (c : Fin 66)
    (s : State) (z : State) :
    p.Same z (State.golentFails c s) ↔ p.Same z s := by
  refine Part.same_iff ?_; unfold State.golentFails; dsimp only; (repeat' split) <;> simp [h]

@[simp] theorem State.boardFails_same (p : Part) (h : p ≠ .fresh ∧ p ≠ .counts ∧ p ≠ .cores ∧ p ≠ .jobs ∧ p ≠ .ctx ∧
    p ≠ .tir ∧ p ≠ .chn ∧ p ≠ .lnw ∧ p ≠ .ing ∧ p ≠ .trc ∧ p ≠ .xh ∧ p ≠ .eth ∧ p ≠ .prf ∧ p ≠ .brn) (b : Fin 16)
    (s : State) (z : State) :
    p.Same z (State.boardFails b s) ↔ p.Same z s := by
  refine Part.same_iff ?_; unfold State.boardFails; dsimp only; simp [h]

@[simp] theorem State.nextDeferred_same (p : Part) (h : p ≠ .chn) (g : Nat) (s : State) (z : State) :
    p.Same z (State.nextDeferred g s) ↔ p.Same z s := by
  refine Part.same_iff ?_; unfold State.nextDeferred; split <;> simp [h]

theorem execRetrainDone_same (p : Part) (h : p ≠ .fresh ∧ p ≠ .counts ∧ p ≠ .cores ∧ p ≠ .jobs ∧ p ≠ .ctx ∧ p ≠ .tir
    ∧ p ≠ .chn ∧ p ≠ .lnw ∧ p ≠ .ing ∧ p ≠ .trc ∧ p ≠ .xh ∧ p ≠ .eth ∧ p ≠ .prf ∧ p ≠ .brn) (ch : Channel)
    (pass : Bool) (train : BitVec 24) (s : State) {t : State} :
    execRetrainDone ch pass train s = .next t → p.Same s t := by
  intro g; unfold execRetrainDone at g; injection g with g; subst g; dsimp only; (repeat' split) <;> simp [h]

theorem execPeriodicRetrain_same (p : Part) (h : p ≠ .chn) (ch : Channel) (s : State) {t : State} :
    execPeriodicRetrain ch s = .next t → p.Same s t := by
  intro g; unfold execPeriodicRetrain at g; injection g with g; subst g; split <;> simp [h]

theorem execDriftRetrain_same (p : Part) (h : p ≠ .chn) (ch : Channel) (s : State) {t : State} :
    execDriftRetrain ch s = .next t → p.Same s t := by
  intro g; unfold execDriftRetrain at g; injection g with g; subst g; (try dsimp only)
  repeat'
    first
    | (simp [h]; done)
    | intro _
    | split
    | refine Part.same_foldl ?_ ?_
    | refine (Part.same_foldl_snd _ _ _ _ _ ?_).2 ?_
    | refine (State.withRoom_same _ (by simp [h]) _ _ _ _ _ _ _ _ _ ?_).2 ?_
    | refine (State.act_same _ _ _ _ _ _ _ _ ?_).2 ?_
    | refine (State.resume_same _ _ _ _ _ _ _ ?_).2 ?_
    | refine (State.request_same _ (by simp [h]) _ _ _ _ ?_).2 ?_
    | refine (State.hint_same _ (by simp [h]) _ _ _ _ _ _ ?_).2 ?_
    | refine (State.ctxCommand_same _ (by simp [h]) _ _ _ _ _ _ ?_).2 ?_
    | refine (State.onContext_same _ _ _ _ _ _ _ ?_).2 ?_
    | refine (State.fire_same _ (by simp [h]) _ _ _ _ _ _ ?_).2 ?_
    | refine (State.bursts_same _ _ _ _ _ _ _ ?_).2 ?_
    | refine (State.withEpilogue_same _ (by simp [h]) _ _ _ _ _ _ _ _ _ ?_).2 ?_
    | simp [h]

theorem execChnRetrain_same (p : Part) (h : p ≠ .chn) (v : Word) (s : State) {t : State} :
    execChnRetrain v s = .next t → p.Same s t := by
  intro g; unfold execChnRetrain at g; injection g with g; subst g; split <;> simp [h]

theorem execLineworkPacketDelivered_same (p : Part) (h : p ≠ .fresh ∧ p ≠ .counts ∧ p ≠ .cores ∧ p ≠ .jobs ∧ p ≠ .tir
    ∧ p ≠ .chn ∧ p ≠ .lnw) (node : Fin 16) (tag : BitVec 16) (err : LaneError) (s : State) {t : State} :
    execLineworkPacketDelivered node tag err s = .next t → p.Same s t := by
  intro g; unfold execLineworkPacketDelivered at g; injection g with g; subst g; dsimp only; (repeat' split) <;> simp [h]

theorem execLineworkTimeout_same (p : Part) (h : p ≠ .fresh ∧ p ≠ .counts ∧ p ≠ .cores ∧ p ≠ .jobs ∧ p ≠ .ctx ∧ p ≠
    .tir ∧ p ≠ .chn ∧ p ≠ .lnw ∧ p ≠ .ing ∧ p ≠ .trc ∧ p ≠ .xh ∧ p ≠ .eth ∧ p ≠ .prf ∧ p ≠ .brn) (tag : BitVec 16)
    (s : State) {t : State} :
    execLineworkTimeout tag s = .next t → p.Same s t := by
  intro g; unfold execLineworkTimeout at g; injection g with g; subst g; split <;> simp [h]

theorem execRegulationWindow_same (p : Part) (h : p ≠ .fresh ∧ p ≠ .counts ∧ p ≠ .lnw) (s : State) {t : State} :
    execRegulationWindow s = .next t → p.Same s t := by
  intro g; unfold execRegulationWindow at g; injection g with g; subst g; dsimp only; split <;> simp [h]

theorem execLnwBudget_same (p : Part) (h : p ≠ .counts ∧ p ≠ .lnw) (m : Fin 32) (v : Word) (s : State) {t : State} :
    execLnwBudget m v s = .next t → p.Same s t := by
  intro g; unfold execLnwBudget at g; injection g with g; subst g; (try dsimp only)
  repeat'
    first
    | (simp [h]; done)
    | intro _
    | split
    | refine Part.same_foldl ?_ ?_
    | refine (Part.same_foldl_snd _ _ _ _ _ ?_).2 ?_
    | refine (State.withRoom_same _ (by simp [h]) _ _ _ _ _ _ _ _ _ ?_).2 ?_
    | refine (State.act_same _ _ _ _ _ _ _ _ ?_).2 ?_
    | refine (State.resume_same _ _ _ _ _ _ _ ?_).2 ?_
    | refine (State.request_same _ (by simp [h]) _ _ _ _ ?_).2 ?_
    | refine (State.hint_same _ (by simp [h]) _ _ _ _ _ _ ?_).2 ?_
    | refine (State.ctxCommand_same _ (by simp [h]) _ _ _ _ _ _ ?_).2 ?_
    | refine (State.onContext_same _ _ _ _ _ _ _ ?_).2 ?_
    | refine (State.fire_same _ (by simp [h]) _ _ _ _ _ _ ?_).2 ?_
    | refine (State.bursts_same _ _ _ _ _ _ _ ?_).2 ?_
    | refine (State.withEpilogue_same _ (by simp [h]) _ _ _ _ _ _ _ _ _ ?_).2 ?_
    | simp [h]

@[simp] theorem State.switchLane_same (p : Part) (h : p ≠ .counts ∧ p ≠ .lnw ∧ p ≠ .brn) (node : Nat) (s : State)
    (z : State) :
    p.Same z (State.switchLane node s) ↔ p.Same z s := by
  refine Part.same_iff ?_; unfold State.switchLane; dsimp only; (repeat' split) <;> simp [h]

theorem execRouterLaneSwitch_same (p : Part) (h : p ≠ .counts ∧ p ≠ .lnw ∧ p ≠ .brn) (node : Fin 16)
    (s : State) {t : State} :
    execRouterLaneSwitch node s = .next t → p.Same s t := by
  intro g; unfold execRouterLaneSwitch at g; injection g with g; subst g; split <;> simp [h]

/-! ### Stylus -/

@[simp] theorem State.updStyChannel_same (p : Part) (h : p ≠ .sty) (c : Nat) (f : StyChannel → StyChannel) (s : State)
    (z : State) :
    p.Same z (State.updStyChannel c f s) ↔ p.Same z s := by
  refine Part.same_iff ?_; unfold State.updStyChannel; simp [h]

@[simp] theorem State.updStyGroup_same (p : Part) (h : p ≠ .sty) (g : Nat) (f : StyGroup → StyGroup) (s : State)
    (z : State) :
    p.Same z (State.updStyGroup g f s) ↔ p.Same z s := by
  refine Part.same_iff ?_; unfold State.updStyGroup; simp [h]

@[simp] theorem State.missSample_same (p : Part) (h : p ≠ .counts ∧ p ≠ .sty ∧ p ≠ .brn) (c : ChanEntry) (s : State)
    (z : State) :
    p.Same z (State.missSample c s) ↔ p.Same z s := by
  refine Part.same_iff ?_; unfold State.missSample; dsimp only; (repeat' split) <;> simp [h]

@[simp] theorem State.latchSample_same (p : Part) (h : p ≠ .counts ∧ p ≠ .sty ∧ p ≠ .brn) (o : Outline) (g : Nat)
    (c : ChanEntry) (s : State) (z : State) :
    p.Same z (State.latchSample o g c s) ↔ p.Same z s := by
  refine Part.same_iff ?_; unfold State.latchSample; dsimp only; (repeat' split) <;> simp [h]

@[simp] theorem State.bindReference_same (p : Part) (h : p ≠ .counts ∧ p ≠ .sty) (o : Outline) (g : Nat) (s : State)
    (z : State) :
    p.Same z (State.bindReference o g s) ↔ p.Same z s := by
  refine Part.same_iff ?_; unfold State.bindReference; dsimp only; (repeat' split) <;> simp [h]

theorem execStylusGuard_same (p : Part) (h : p ≠ .counts ∧ p ≠ .sty ∧ p ≠ .brn) (group : Fin 16)
    (s : State) {t : State} :
    execStylusGuard group s = .next t → p.Same s t := by
  intro g; unfold execStylusGuard at g; injection g with g; subst g; dsimp only; (repeat' split) <;> simp [h]

@[simp] theorem State.updateChannel_same (p : Part) (h : p ≠ .counts ∧ p ≠ .sty) (c : ChanEntry) (s : State)
    (z : State) :
    p.Same z (State.updateChannel c s) ↔ p.Same z s := by
  refine Part.same_iff ?_; unfold State.updateChannel; dsimp only; (repeat' split) <;> simp [h]

@[simp] theorem State.launchStylus_same (p : Part) (h : p ≠ .counts ∧ p ≠ .sty ∧ p ≠ .brn) (k : Int) (e : RegEntry)
    (s : State) (z : State) :
    p.Same z (State.launchStylus k e s) ↔ p.Same z s := by
  refine Part.same_iff ?_; unfold State.launchStylus; dsimp only; (repeat' split) <;> simp [h]

theorem execStylusLaunch_same (p : Part) (h : p ≠ .counts ∧ p ≠ .rgn ∧ p ≠ .sty ∧ p ≠ .prf ∧ p ≠ .brn)
    (e : BitVec 12) (s : State) {t : State} :
    execStylusLaunch e s = .next t → p.Same s t := by
  intro g; unfold execStylusLaunch at g; injection g with g; subst g; simp [h]

@[simp] theorem State.dropUnfinished_same (p : Part) (h : p ≠ .sty) (serves : Nat) (s : State) (z : State) :
    p.Same z (State.dropUnfinished serves s) ↔ p.Same z s := by
  refine Part.same_iff ?_; unfold State.dropUnfinished; simp [h]

@[simp] theorem State.retireEngine_same (p : Part) (h : p ≠ .counts ∧ p ≠ .sty ∧ p ≠ .brn) (n : Nat) (s : State)
    (z : State) :
    p.Same z (State.retireEngine n s) ↔ p.Same z s := by
  refine Part.same_iff ?_; unfold State.retireEngine; dsimp only; (repeat' split) <;> simp [h]

@[simp] theorem State.channelDone_same (p : Part) (h : p ≠ .sty) (fault : BitVec 5) (c : ChanEntry) (s : State)
    (z : State) :
    p.Same z (State.channelDone fault c s) ↔ p.Same z s := by
  refine Part.same_iff ?_; unfold State.channelDone; (repeat' split) <;> simp [h]

theorem execStylusEngineDone_same (p : Part) (h : p ≠ .counts ∧ p ≠ .sty ∧ p ≠ .brn) (group : Fin 16)
    (residueFault : BitVec 5) (s : State) {t : State} :
    execStylusEngineDone group residueFault s = .next t → p.Same s t := by
  intro g; unfold execStylusEngineDone at g; injection g with g; subst g; dsimp only; split <;> simp [h]

@[simp] theorem State.formEntry_same (p : Part) (h : p ≠ .counts ∧ p ≠ .sty) (g : Nat) (c : ChanEntry) (s : State)
    (z : State) :
    p.Same z (State.formEntry g c s).2 ↔ p.Same z s := by
  refine Part.same_iff ?_; unfold State.formEntry; dsimp only; (repeat' split) <;> simp [h]

@[simp] theorem State.formEntries_same (p : Part) (h : p ≠ .counts ∧ p ≠ .sty) (g : Nat) (x1 : List ChanEntry)
    (x2 : State) (z : State) :
    p.Same z (State.formEntries g x1 x2).2 ↔ p.Same z x2 := by
  fun_induction State.formEntries g x1 x2 <;> (repeat' (first | (simp_all; done) | (simp_all +zetaDelta; done) | split))

@[simp] theorem State.formFrame_same (p : Part) (h : p ≠ .counts ∧ p ≠ .sty ∧ p ≠ .eth) (g : Nat) (stream : Nat)
    (s : State) (z : State) :
    p.Same z (State.formFrame g stream s) ↔ p.Same z s := by
  refine Part.same_iff ?_; unfold State.formFrame; dsimp only; simp [h]

theorem execOutputFrameForm_same (p : Part) (h : p ≠ .counts ∧ p ≠ .sty ∧ p ≠ .eth) (group : Fin 16)
    (s : State) {t : State} :
    execOutputFrameForm group s = .next t → p.Same s t := by
  intro g; unfold execOutputFrameForm at g; injection g with g; subst g; dsimp only; split <;> simp [h]

end Sys2Proof.Machine
end

