-- ==== Sys2Proof/Laws/FrameSequencer.lean ====
section
/-!
SUPPORT. Frames (Laws/Frame.lean): sequencers and Proof.
-/

-- One thread elaborates: many small proofs at once would ask for more memory than the check allows.
set_option Elab.async false

namespace Sys2Proof.Machine

open Sys2Proof

set_option linter.unusedTactic false
set_option linter.unreachableTactic false
set_option linter.unnecessarySeqFocus false

/-! ### ContextOps -/

@[simp] theorem State.updContext_same (p : Part) (h : p ≠ .ctx) (n : Nat) (f : Context → Context) (s : State)
    (z : State) :
    p.Same z (State.updContext n f s) ↔ p.Same z s := by
  refine Part.same_iff ?_; unfold State.updContext; (repeat' split) <;> simp [h]

@[simp] theorem State.swapOutNow_same (p : Part) (h : p ≠ .fresh ∧ p ≠ .counts ∧ p ≠ .cores ∧ p ≠ .jobs ∧ p ≠ .ctx ∧
    p ≠ .tir ∧ p ≠ .chn ∧ p ≠ .lnw) (c : Context) (r : StateRegion) (reply : Option (Nat × Word)) (s : State)
    (z : State) :
    p.Same z (State.swapOutNow c r reply s).2 ↔ p.Same z s := by
  refine Part.same_iff ?_; unfold State.swapOutNow; dsimp only; (repeat' split) <;> simp [h]

@[simp] theorem State.swapFor_same (p : Part) (h : p ≠ .fresh ∧ p ≠ .counts ∧ p ≠ .cores ∧ p ≠ .jobs ∧ p ≠ .ctx ∧ p ≠
    .tir ∧ p ≠ .chn ∧ p ≠ .lnw) (p₁ : Nat) (need : Nat) (x1 : List (Context × StateRegion)) (x2 : State) (z : State) :
    p.Same z (State.swapFor p₁ need x1 x2) ↔ p.Same z x2 := by
  fun_induction State.swapFor p₁ need x1 x2 <;> simp_all

@[simp] theorem State.stateRoom_same (p : Part) (h : p ≠ .fresh ∧ p ≠ .counts ∧ p ≠ .cores ∧ p ≠ .jobs ∧ p ≠ .ctx ∧ p
    ≠ .tir ∧ p ≠ .chn ∧ p ≠ .lnw) (p₁ : Nat) (need : Nat) (keep : List Nat) (s : State) (z : State) :
    p.Same z (State.stateRoom p₁ need keep s).2 ↔ p.Same z s := by
  refine Part.same_iff ?_; unfold State.stateRoom; dsimp only; split <;> simp [h]

@[simp] theorem State.beginSwapIn_same (p : Part) (h : p ≠ .ctx) (n : Nat) (reply : Option (Nat × Word)) (s : State)
    (z : State) :
    p.Same z (State.beginSwapIn n reply s) ↔ p.Same z s := by
  refine Part.same_iff ?_; unfold State.beginSwapIn; simp [h]

@[simp] theorem State.hold_same (p : Part) (h : p ≠ .ctx) (id : Word) (ns : List Nat) (s : State) (z : State) :
    p.Same z (State.hold id ns s) ↔ p.Same z s := by
  refine Part.same_iff ?_; unfold State.hold; (repeat' split) <;> simp [h]

@[simp] theorem State.workCopies_same (p : Part) (h : p ≠ .fresh ∧ p ≠ .jobs) (j : Job) (rs : List Nat) (ns : List Nat)
    (s : State) (z : State) :
    p.Same z (State.workCopies j rs ns s) ↔ p.Same z s := by
  refine Part.same_iff ?_; unfold State.workCopies; dsimp only; (repeat' split) <;> simp [h]

@[simp] theorem State.takeContexts_same (p : Part) (h : p ≠ .fresh ∧ p ≠ .counts ∧ p ≠ .cores ∧ p ≠ .jobs ∧ p ≠ .ctx
    ∧ p ≠ .tir ∧ p ≠ .chn ∧ p ≠ .lnw) (j : Job) (slot : Nat) (d : Descriptor) (s : State) (z : State) :
    p.Same z (State.takeContexts j slot d s).2 ↔ p.Same z s := by
  refine Part.same_iff ?_; unfold State.takeContexts; dsimp only; (repeat' split) <;> simp [h]

/-! ### Sequencer -/

@[simp] theorem State.layerChain_same (p : Part) (h : p ≠ .fresh ∧ p ≠ .counts ∧ p ≠ .cores ∧ p ≠ .jobs ∧ p ≠ .tir ∧
    p ≠ .chn ∧ p ≠ .lnw) (j : Job) (d : Descriptor) (s : State) (z : State) :
    p.Same z (State.layerChain j d s) ↔ p.Same z s := by
  refine Part.same_iff ?_; unfold State.layerChain; dsimp only
  repeat'
    first
    | (simp [h]; done)
    | intro _
    | split
    | refine Part.same_foldl ?_ ?_
    | refine (Part.same_foldl_snd _ _ _ _ _ ?_).2 ?_
    | simp [h]

@[simp] theorem State.issue_same (p : Part) (h : p ≠ .fresh ∧ p ≠ .counts ∧ p ≠ .cores ∧ p ≠ .jobs ∧ p ≠ .tir ∧ p ≠
    .chn ∧ p ≠ .lnw) (j : Job) (slot : Nat) (x : SlotState) (d : Descriptor) (s : State) (z : State) :
    p.Same z (State.issue j slot x d s) ↔ p.Same z s := by
  refine Part.same_iff ?_; unfold State.issue; dsimp only; (repeat' split) <;> simp [h]

theorem execDescriptorIssue_same (p : Part) (h : p ≠ .fresh ∧ p ≠ .counts ∧ p ≠ .cores ∧ p ≠ .jobs ∧ p ≠ .ctx ∧ p ≠
    .tir ∧ p ≠ .chn ∧ p ≠ .lnw ∧ p ≠ .ing ∧ p ≠ .trc ∧ p ≠ .xh ∧ p ≠ .eth ∧ p ≠ .prf ∧ p ≠ .brn) (job : Word)
    (slot : Fin 32) (s : State) {t : State} :
    execDescriptorIssue job slot s = .next t → p.Same s t := by
  intro g; unfold execDescriptorIssue at g; injection g with g; subst g; dsimp only; (repeat' split) <;> simp [h]

@[simp] theorem State.maybeSeal_same (p : Part) (h : p ≠ .jobs) (id : Word) (s : State) (z : State) :
    p.Same z (State.maybeSeal id s) ↔ p.Same z s := by
  refine Part.same_iff ?_; unfold State.maybeSeal; (repeat' split) <;> simp [h]

@[simp] theorem State.t1Conflicts_same (p : Part) (h : p ≠ .fresh ∧ p ≠ .counts) (core : Nat) (d : Descriptor)
    (s : State) (z : State) :
    p.Same z (State.t1Conflicts core d s) ↔ p.Same z s := by
  refine Part.same_iff ?_; unfold State.t1Conflicts; (repeat' split) <;> simp [h]

@[simp] theorem State.readsDone_same (p : Part) (h : p ≠ .tir) (i : InFlight) (s : State) (z : State) :
    p.Same z (State.readsDone i s) ↔ p.Same z s := by
  refine Part.same_iff ?_; unfold State.readsDone; simp [h]

theorem execDescriptorComplete_same (p : Part) (h : p ≠ .fresh ∧ p ≠ .counts ∧ p ≠ .jobs ∧ p ≠ .tir) (job : Word)
    (slot : Fin 32) (s : State) {t : State} :
    execDescriptorComplete job slot s = .next t → p.Same s t := by
  intro g; unfold execDescriptorComplete at g; injection g with g; subst g; dsimp only; (repeat' split) <;> simp [h]

theorem execSignal_same (p : Part) (h : p ≠ .jobs) (job : Word) (slot : Fin 32) (s : State) {t : State} :
    execSignal job slot s = .next t → p.Same s t := by
  intro g; unfold execSignal at g; injection g with g; subst g; dsimp only; simp [h]

@[simp] theorem State.holdDesc_same (p : Part) (h : p ≠ .jobs) (j : Job) (slot : Nat) (i : InFlight) (s : State)
    (z : State) :
    p.Same z (State.holdDesc j slot i s) ↔ p.Same z s := by
  refine Part.same_iff ?_; unfold State.holdDesc; simp [h]

theorem execWaits_same (p : Part) (h : p ≠ .jobs) (job : Word) (slot : Fin 32) (s : State) {t : State} :
    execWaits job slot s = .next t → p.Same s t := by
  intro g; unfold execWaits at g; injection g with g; subst g
  repeat'
    first
    | (simp [h]; done)
    | intro _
    | split
    | refine (State.act_same _ _ _ _ _ _ _ _ ?_).2 ?_
    | simp [h]

@[simp] theorem State.resume_same (p : Part) (id : Word) (slot op : Nat) (f : Job → InFlight → State → State)
    (s z : State)
    (hg : ∀ j i u, p.Same u (f j i u)) :
    p.Same z (s.resume id slot op f) ↔ p.Same z s := by
  refine Part.same_iff ?_; unfold State.resume; (repeat' split) <;> first | (simp; done) | exact hg _ _ _

theorem execWaitsSatisfied_same (p : Part) (h : p ≠ .jobs) (job : Word) (slot : Fin 32) (s : State) {t : State} :
    execWaitsSatisfied job slot s = .next t → p.Same s t := by
  intro g; unfold execWaitsSatisfied at g; injection g with g; subst g
  repeat'
    first
    | (simp [h]; done)
    | intro _
    | split
    | refine (State.resume_same _ _ _ _ _ _ _ ?_).2 ?_
    | simp [h]

@[simp] theorem State.waitT_same (p : Part) (h : p ≠ .jobs) (j : Job) (slot : Nat) (i : InFlight) (s : State)
    (z : State) :
    p.Same z (State.waitT j slot i s) ↔ p.Same z s := by
  refine Part.same_iff ?_; unfold State.waitT; split <;> simp [h]

theorem execWaittAbsolute_same (p : Part) (h : p ≠ .jobs) (job : Word) (slot : Fin 32) (s : State) {t : State} :
    execWaittAbsolute job slot s = .next t → p.Same s t := by
  intro g; unfold execWaittAbsolute at g; injection g with g; subst g; simp [h]

theorem execWaittRelative_same (p : Part) (h : p ≠ .jobs) (job : Word) (slot : Fin 32) (s : State) {t : State} :
    execWaittRelative job slot s = .next t → p.Same s t := by
  intro g; unfold execWaittRelative at g; injection g with g; subst g; simp [h]

theorem execWaittComplete_same (p : Part) (h : p ≠ .jobs) (job : Word) (slot : Fin 32) (s : State) {t : State} :
    execWaittComplete job slot s = .next t → p.Same s t := by
  intro g; unfold execWaittComplete at g; injection g with g; subst g
  repeat'
    first
    | (simp [h]; done)
    | intro _
    | split
    | refine (State.resume_same _ _ _ _ _ _ _ ?_).2 ?_
    | simp [h]

@[simp] theorem State.tellProof_same (p : Part) (h : p ≠ .prf) (m : ProofMsg) (s : State) (z : State) :
    p.Same z (State.tellProof m s) ↔ p.Same z s := by
  refine Part.same_iff ?_; unfold State.tellProof; simp [h]

@[simp] theorem State.checkSent_same (p : Part) (h : p ≠ .jobs ∧ p ≠ .prf) (j : Job) (slot : Nat) (i : InFlight)
    (m : ProofMsg) (flags : NumFlags) (cycles : Nat) (s : State) (z : State) :
    p.Same z (State.checkSent j slot i m flags cycles s) ↔ p.Same z s := by
  refine Part.same_iff ?_; unfold State.checkSent; simp [h]

theorem execCheckResidue_same (p : Part) (h : p ≠ .jobs ∧ p ≠ .prf) (job : Word) (slot : Fin 32)
    (s : State) {t : State} :
    execCheckResidue job slot s = .next t → p.Same s t := by
  intro g; unfold execCheckResidue at g; injection g with g; subst g; simp [h]

theorem execCheckStats_same (p : Part) (h : p ≠ .jobs ∧ p ≠ .prf) (job : Word) (slot : Fin 32)
    (s : State) {t : State} :
    execCheckStats job slot s = .next t → p.Same s t := by
  intro g; unfold execCheckStats at g; injection g with g; subst g; dsimp only; simp [h]

/-! ### Proof -/

@[simp] theorem State.rawMetres_same (p : Part) (h : p ≠ .fresh) (set : Nat) (tap : Nat) (mask : Nat) (s : State)
    (z : State) :
    p.Same z (State.rawMetres set tap mask s).2 ↔ p.Same z s := by
  refine Part.same_iff ?_; unfold State.rawMetres; dsimp only; split <;> simp [h]

@[simp] theorem State.ruleAt_same (p : Part) (h : p ≠ .fresh) (set : Nat) (r : RuleWords) (s : State) (z : State) :
    p.Same z (State.ruleAt set r s).2 ↔ p.Same z s := by
  refine Part.same_iff ?_; unfold State.ruleAt; dsimp only; split <;> simp [h]

@[simp] theorem State.evalRules_same (p : Part) (h : p ≠ .fresh ∧ p ≠ .counts) (set : Nat) (x1 : List RuleWords)
    (x2 : Finding) (x3 : State) (z : State) :
    p.Same z (State.evalRules set x1 x2 x3).2 ↔ p.Same z x3 := by
  fun_induction State.evalRules set x1 x2 x3 <;> (repeat' (first | (simp_all; done) | (simp_all +zetaDelta; done) | split))

@[simp] theorem State.proofFiring_same (p : Part) (h : p ≠ .fresh ∧ p ≠ .counts ∧ p ≠ .sty ∧ p ≠ .prf ∧ p ≠ .brn)
    (n : Nat) (s : State) (z : State) :
    p.Same z (State.proofFiring n s) ↔ p.Same z s := by
  refine Part.same_iff ?_; unfold State.proofFiring; dsimp only; (repeat' split) <;> simp [h]

theorem execProofCheckLaunch_same (p : Part) (h : p ≠ .fresh ∧ p ≠ .counts ∧ p ≠ .rgn ∧ p ≠ .sty ∧ p ≠ .prf ∧ p ≠
    .brn) (e : BitVec 12) (s : State) {t : State} :
    execProofCheckLaunch e s = .next t → p.Same s t := by
  intro g; unfold execProofCheckLaunch at g; injection g with g; subst g; simp [h]

@[simp] theorem State.ruleOnCheck_same (p : Part) (h : p ≠ .fresh) (set : Nat) (r : RuleWords) (m : ProofMsg)
    (s : State) (z : State) :
    p.Same z (State.ruleOnCheck set r m s).2 ↔ p.Same z s := by
  refine Part.same_iff ?_; unfold State.ruleOnCheck; dsimp only; (repeat' split) <;> simp [h]

@[simp] theorem State.judgeCheck_same (p : Part) (h : p ≠ .fresh) (set : Nat) (m : ProofMsg) (x1 : List RuleWords)
    (x2 : Finding) (x3 : State) (z : State) :
    p.Same z (State.judgeCheck set m x1 x2 x3).2 ↔ p.Same z x3 := by
  fun_induction State.judgeCheck set m x1 x2 x3 <;> (repeat' (first | (simp_all; done) | (simp_all +zetaDelta; done) | split))

@[simp] theorem State.passCheck_same (p : Part) (h : p ≠ .jobs ∧ p ≠ .prf) (job : Word) (slot : Nat) (set : Nat)
    (tag : BitVec 16) (s : State) (z : State) :
    p.Same z (State.passCheck job slot set tag s) ↔ p.Same z s := by
  refine Part.same_iff ?_; unfold State.passCheck; dsimp only; simp [h]

@[simp] theorem State.disagreeCheck_same (p : Part) (h : p ≠ .fresh ∧ p ≠ .counts ∧ p ≠ .cores ∧ p ≠ .jobs ∧ p ≠ .ctx
    ∧ p ≠ .tir ∧ p ≠ .chn ∧ p ≠ .lnw ∧ p ≠ .ing ∧ p ≠ .trc ∧ p ≠ .xh ∧ p ≠ .eth ∧ p ≠ .prf ∧ p ≠ .brn) (job : Word)
    (set : Nat) (f : Finding) (s : State) (z : State) :
    p.Same z (State.disagreeCheck job set f s) ↔ p.Same z s := by
  refine Part.same_iff ?_; unfold State.disagreeCheck; dsimp only; (repeat' split) <;> simp [h]

@[simp] theorem State.checkArrives_same (p : Part) (h : p ≠ .fresh ∧ p ≠ .counts ∧ p ≠ .cores ∧ p ≠ .jobs ∧ p ≠ .ctx
    ∧ p ≠ .tir ∧ p ≠ .chn ∧ p ≠ .lnw ∧ p ≠ .ing ∧ p ≠ .trc ∧ p ≠ .xh ∧ p ≠ .eth ∧ p ≠ .prf ∧ p ≠ .brn)
    (m : ProofMsg) (job : Word) (slot : Nat) (set : Nat) (tag : BitVec 16) (s : State) (z : State) :
    p.Same z (State.checkArrives m job slot set tag s) ↔ p.Same z s := by
  refine Part.same_iff ?_; unfold State.checkArrives; dsimp only; split <;> simp [h]

theorem execCheckMessage_same (p : Part) (h : p ≠ .fresh ∧ p ≠ .counts ∧ p ≠ .cores ∧ p ≠ .jobs ∧ p ≠ .ctx ∧ p ≠ .tir
    ∧ p ≠ .chn ∧ p ≠ .lnw ∧ p ≠ .ing ∧ p ≠ .trc ∧ p ≠ .xh ∧ p ≠ .eth ∧ p ≠ .prf ∧ p ≠ .brn) (s : State) {t : State} :
    execCheckMessage s = .next t → p.Same s t := by
  intro g; unfold execCheckMessage at g; injection g with g; subst g; (try dsimp only)
  repeat'
    first
    | (simp [h]; done)
    | intro _
    | split
    | refine Part.same_foldl ?_ ?_
    | refine (Part.same_foldl_snd _ _ _ _ _ ?_).2 ?_
    | refine (State.withRoom_same _ (by simp [h]) _ _ _ _ _ _ _ _ _ ?_).2 ?_
    | refine (State.act_same _ _ _ _ _ _ _ _ ?_).2 ?_
    | refine (State.resume_same _ _ _ _ _ _ _ ?_).2 ?_
    | refine (State.request_same _ (by simp [h]) _ _ _ _ ?_).2 ?_
    | refine (State.hint_same _ (by simp [h]) _ _ _ _ _ _ ?_).2 ?_
    | refine (State.ctxCommand_same _ (by simp [h]) _ _ _ _ _ _ ?_).2 ?_
    | refine (State.onContext_same _ _ _ _ _ _ _ ?_).2 ?_
    | refine (State.fire_same _ (by simp [h]) _ _ _ _ _ _ ?_).2 ?_
    | refine (State.bursts_same _ _ _ _ _ _ _ ?_).2 ?_
    | refine (State.withEpilogue_same _ (by simp [h]) _ _ _ _ _ _ _ _ _ ?_).2 ?_
    | simp [h]

theorem execGateSampleMessage_same (p : Part) (h : p ≠ .counts ∧ p ≠ .prf ∧ p ≠ .brn) (s : State) {t : State} :
    execGateSampleMessage s = .next t → p.Same s t := by
  intro g; unfold execGateSampleMessage at g; injection g with g; subst g; dsimp only; (repeat' split) <;> simp [h]

theorem execConflictBoxExpire_same (p : Part) (h : p ≠ .prf) (n : Fin 64) (s : State) {t : State} :
    execConflictBoxExpire n s = .next t → p.Same s t := by
  intro g; unfold execConflictBoxExpire at g; injection g with g; subst g; (repeat' split) <;> simp [h]

theorem execSensorFaultClear_same (p : Part) (h : p ≠ .prf) (s : State) {t : State} :
    execSensorFaultClear s = .next t → p.Same s t := by
  intro g; unfold execSensorFaultClear at g; injection g with g; subst g; (repeat' split) <;> simp [h]

theorem execWdiEdge_same (p : Part) (h : p ≠ .prf) (s : State) {t : State} :
    execWdiEdge s = .next t → p.Same s t := by
  intro g; unfold execWdiEdge at g; injection g with g; subst g; (repeat' split) <;> simp [h]

theorem execWdoToggle_same (p : Part) (h : p ≠ .prf ∧ p ≠ .brn) (heartbeat : Bool) (s : State) {t : State} :
    execWdoToggle heartbeat s = .next t → p.Same s t := by
  intro g; unfold execWdoToggle at g; injection g with g; subst g; (repeat' split) <;> simp [h]

theorem execPrfRelease_same (p : Part) (h : p ≠ .counts ∧ p ≠ .prf) (v : Word) (s : State) {t : State} :
    execPrfRelease v s = .next t → p.Same s t := by
  intro g; unfold execPrfRelease at g; injection g with g; subst g; (try dsimp only)
  repeat'
    first
    | (simp [h]; done)
    | intro _
    | split
    | refine Part.same_foldl ?_ ?_
    | refine (Part.same_foldl_snd _ _ _ _ _ ?_).2 ?_
    | refine (State.withRoom_same _ (by simp [h]) _ _ _ _ _ _ _ _ _ ?_).2 ?_
    | refine (State.act_same _ _ _ _ _ _ _ _ ?_).2 ?_
    | refine (State.resume_same _ _ _ _ _ _ _ ?_).2 ?_
    | refine (State.request_same _ (by simp [h]) _ _ _ _ ?_).2 ?_
    | refine (State.hint_same _ (by simp [h]) _ _ _ _ _ _ ?_).2 ?_
    | refine (State.ctxCommand_same _ (by simp [h]) _ _ _ _ _ _ ?_).2 ?_
    | refine (State.onContext_same _ _ _ _ _ _ _ ?_).2 ?_
    | refine (State.fire_same _ (by simp [h]) _ _ _ _ _ _ ?_).2 ?_
    | refine (State.bursts_same _ _ _ _ _ _ _ ?_).2 ?_
    | refine (State.withEpilogue_same _ (by simp [h]) _ _ _ _ _ _ _ _ _ ?_).2 ?_
    | simp [h]

theorem execLockstepMismatch_same (p : Part) (h : p ≠ .prf ∧ p ≠ .brn) (s : State) {t : State} :
    execLockstepMismatch s = .next t → p.Same s t := by
  intro g; unfold execLockstepMismatch at g; injection g with g; subst g; simp [h]

theorem execProofSramUncorrectable_same (p : Part) (h : p ≠ .prf ∧ p ≠ .brn) (s : State) {t : State} :
    execProofSramUncorrectable s = .next t → p.Same s t := by
  intro g; unfold execProofSramUncorrectable at g; injection g with g; subst g; simp [h]

theorem execProofClockWindow_same (p : Part) (h : p ≠ .prf ∧ p ≠ .brn) (ctrl : BitVec 16) (aon : BitVec 16)
    (s : State) {t : State} :
    execProofClockWindow ctrl aon s = .next t → p.Same s t := by
  intro g; unfold execProofClockWindow at g; injection g with g; subst g; dsimp only; split <;> simp [h]

theorem execVoltageTrip_same (p : Part) (h : p ≠ .prf ∧ p ≠ .brn) (rail : Rail) (microvolts : Nat)
    (s : State) {t : State} :
    execVoltageTrip rail microvolts s = .next t → p.Same s t := by
  intro g; unfold execVoltageTrip at g; split at g
  · cases g
  · injection g with g; subst g; (repeat' split) <;> simp [h]

theorem execStopReadbackMismatch_same (p : Part) (h : p ≠ .prf ∧ p ≠ .brn) (line : StopLine) (s : State) {t : State} :
    execStopReadbackMismatch line s = .next t → p.Same s t := by
  intro g; unfold execStopReadbackMismatch at g; injection g with g; subst g; (try dsimp only)
  repeat'
    first
    | (simp [h]; done)
    | intro _
    | split
    | refine Part.same_foldl ?_ ?_
    | refine (Part.same_foldl_snd _ _ _ _ _ ?_).2 ?_
    | refine (State.withRoom_same _ (by simp [h]) _ _ _ _ _ _ _ _ _ ?_).2 ?_
    | refine (State.act_same _ _ _ _ _ _ _ _ ?_).2 ?_
    | refine (State.resume_same _ _ _ _ _ _ _ ?_).2 ?_
    | refine (State.request_same _ (by simp [h]) _ _ _ _ ?_).2 ?_
    | refine (State.hint_same _ (by simp [h]) _ _ _ _ _ _ ?_).2 ?_
    | refine (State.ctxCommand_same _ (by simp [h]) _ _ _ _ _ _ ?_).2 ?_
    | refine (State.onContext_same _ _ _ _ _ _ _ ?_).2 ?_
    | refine (State.fire_same _ (by simp [h]) _ _ _ _ _ _ ?_).2 ?_
    | refine (State.bursts_same _ _ _ _ _ _ _ ?_).2 ?_
    | refine (State.withEpilogue_same _ (by simp [h]) _ _ _ _ _ _ _ _ _ ?_).2 ?_
    | simp [h]

end Sys2Proof.Machine
end

