-- ==== Sys2Proof/Laws/FrameUnits.lean ====
section
/-!
SUPPORT. Frames (Laws/Frame.lean): Tracing, the planner, spares and vision.
-/

-- One thread elaborates: many small proofs at once would ask for more memory than the check allows.
set_option Elab.async false

namespace Sys2Proof.Machine

open Sys2Proof

set_option linter.unusedTactic false
set_option linter.unreachableTactic false
set_option linter.unnecessarySeqFocus false

/-! ### Tracing -/

@[simp] theorem State.fuseGo_same (p : Part) (h : p ≠ .fresh ∧ p ≠ .counts ∧ p ≠ .cores ∧ p ≠ .jobs ∧ p ≠ .ctx ∧ p ≠
    .tir ∧ p ≠ .chn ∧ p ≠ .lnw ∧ p ≠ .ing ∧ p ≠ .trc ∧ p ≠ .xh ∧ p ≠ .eth ∧ p ≠ .prf ∧ p ≠ .brn) (j : Job)
    (slot : Nat) (i : InFlight) (s : State) (z : State) :
    p.Same z (State.fuseGo j slot i s) ↔ p.Same z s := by
  refine Part.same_iff ?_; unfold State.fuseGo; dsimp only; (repeat' split) <;> simp [h]

theorem execFuse_same (p : Part) (h : p ≠ .fresh ∧ p ≠ .counts ∧ p ≠ .cores ∧ p ≠ .jobs ∧ p ≠ .ctx ∧ p ≠ .tir ∧ p ≠
    .chn ∧ p ≠ .lnw ∧ p ≠ .ing ∧ p ≠ .trc ∧ p ≠ .xh ∧ p ≠ .eth ∧ p ≠ .prf ∧ p ≠ .brn) (job : Word) (slot : Fin 32)
    (s : State) {t : State} :
    execFuse job slot s = .next t → p.Same s t := by
  intro g; unfold execFuse at g; injection g with g; subst g
  repeat'
    first
    | (simp [h]; done)
    | intro _
    | split
    | refine (State.act_same _ _ _ _ _ _ _ _ ?_).2 ?_
    | simp [h]

theorem execTracingQueueStart_same (p : Part) (h : p ≠ .jobs ∧ p ≠ .trc) (s : State) {t : State} :
    execTracingQueueStart s = .next t → p.Same s t := by
  intro g; unfold execTracingQueueStart at g; injection g with g; subst g; dsimp only; (repeat' split) <;> simp [h]

@[simp] theorem State.conflictReport_same (p : Part) (h : p ≠ .prf) (ego : List Word) (t : Track) (s : State)
    (z : State) :
    p.Same z (State.conflictReport ego t s) ↔ p.Same z s := by
  refine Part.same_iff ?_; unfold State.conflictReport; dsimp only; simp [h]

@[simp] theorem State.sensorFaultReport_same (p : Part) (h : p ≠ .counts ∧ p ≠ .trc ∧ p ≠ .prf ∧ p ≠ .brn) (a : Nat)
    (b : Nat) (s : State) (z : State) :
    p.Same z (State.sensorFaultReport a b s) ↔ p.Same z s := by
  refine Part.same_iff ?_; unfold State.sensorFaultReport; dsimp only; split <;> simp [h]

@[simp] theorem State.demoteSensor_same (p : Part) (h : p ≠ .counts ∧ p ≠ .trc) (k : Nat) (box : List Word)
    (s : State) (z : State) :
    p.Same z (State.demoteSensor k box s) ↔ p.Same z s := by
  refine Part.same_iff ?_; unfold State.demoteSensor; dsimp only; simp [h]

@[simp] theorem State.sealTracks_same (p : Part) (h : p ≠ .counts ∧ p ≠ .trc ∧ p ≠ .prf ∧ p ≠ .brn) (id : Word)
    (s : State) (z : State) :
    p.Same z (State.sealTracks id s) ↔ p.Same z s := by
  refine Part.same_iff ?_; unfold State.sealTracks; dsimp only; (repeat' split) <;> simp [h]

theorem execTrackCoastExpire_same (p : Part) (h : p ≠ .trc) (track : BitVec 16) (s : State) {t : State} :
    execTrackCoastExpire track s = .next t → p.Same s t := by
  intro g; unfold execTrackCoastExpire at g; injection g with g; subst g; dsimp only; split <;> simp [h]

@[simp] theorem State.draws_same (p : Part) (h : p ≠ .fresh) (x1 : Nat) (x2 : State) (z : State) :
    p.Same z (State.draws x1 x2).2 ↔ p.Same z x2 := by
  fun_induction State.draws x1 x2 <;> (repeat' (first | (simp_all; done) | (simp_all +zetaDelta; done) | split))

theorem execCalibrationRefine_same (p : Part) (h : p ≠ .fresh ∧ p ≠ .counts ∧ p ≠ .trc) (sensor : Fin 48)
    (s : State) {t : State} :
    execCalibrationRefine sensor s = .next t → p.Same s t := by
  intro g; unfold execCalibrationRefine at g; injection g with g; subst g; dsimp only; (repeat' split) <;> simp [h]

theorem execDemotionExpire_same (p : Part) (h : p ≠ .trc) (sensor : Fin 48) (s : State) {t : State} :
    execDemotionExpire sensor s = .next t → p.Same s t := by
  intro g; unfold execDemotionExpire at g; injection g with g; subst g; (try dsimp only)
  repeat'
    first
    | (simp [h]; done)
    | intro _
    | split
    | refine Part.same_foldl ?_ ?_
    | refine (Part.same_foldl_snd _ _ _ _ _ ?_).2 ?_
    | refine (State.withRoom_same _ (by simp [h]) _ _ _ _ _ _ _ _ _ ?_).2 ?_
    | refine (State.act_same _ _ _ _ _ _ _ _ ?_).2 ?_
    | refine (State.resume_same _ _ _ _ _ _ _ ?_).2 ?_
    | refine (State.request_same _ (by simp [h]) _ _ _ _ ?_).2 ?_
    | refine (State.hint_same _ (by simp [h]) _ _ _ _ _ _ ?_).2 ?_
    | refine (State.ctxCommand_same _ (by simp [h]) _ _ _ _ _ _ ?_).2 ?_
    | refine (State.onContext_same _ _ _ _ _ _ _ ?_).2 ?_
    | refine (State.fire_same _ (by simp [h]) _ _ _ _ _ _ ?_).2 ?_
    | refine (State.bursts_same _ _ _ _ _ _ _ ?_).2 ?_
    | refine (State.withEpilogue_same _ (by simp [h]) _ _ _ _ _ _ _ _ _ ?_).2 ?_
    | simp [h]

theorem execEgoPropagate_same (p : Part) (h : p ≠ .trc) (x : EgoSample) (frameTime : Int) (s : State) {t : State} :
    execEgoPropagate x frameTime s = .next t → p.Same s t := by
  intro g; unfold execEgoPropagate at g; injection g with g; subst g; (repeat' split) <;> simp [h]

theorem execEgoMeasure_same (p : Part) (h : p ≠ .trc) (x : EgoSample) (frameTime : Int) (s : State) {t : State} :
    execEgoMeasure x frameTime s = .next t → p.Same s t := by
  intro g; unfold execEgoMeasure at g; injection g with g; subst g; (repeat' split) <;> simp [h]

theorem execEgoPublish_same (p : Part) (h : p ≠ .trc) (s : State) {t : State} :
    execEgoPublish s = .next t → p.Same s t := by
  intro g; unfold execEgoPublish at g; injection g with g; subst g; (repeat' split) <;> simp [h]

theorem execEgoTimeout_same (p : Part) (h : p ≠ .trc) (s : State) {t : State} :
    execEgoTimeout s = .next t → p.Same s t := by
  intro g; unfold execEgoTimeout at g; injection g with g; subst g; split <;> simp [h]

theorem execTrcEgoCapture_same (p : Part) (h : p ≠ .trc) (v : Word) (s : State) {t : State} :
    execTrcEgoCapture v s = .next t → p.Same s t := by
  intro g; unfold execTrcEgoCapture at g; injection g with g; subst g; split <;> simp [h]

/-! ### Planner -/

@[simp] theorem State.planq_same (p : Part) (h : p ≠ .fresh ∧ p ≠ .counts ∧ p ≠ .cores ∧ p ≠ .jobs ∧ p ≠ .ctx ∧ p ≠
    .tir ∧ p ≠ .chn ∧ p ≠ .lnw ∧ p ≠ .ing ∧ p ≠ .trc ∧ p ≠ .xh ∧ p ≠ .eth ∧ p ≠ .prf ∧ p ≠ .brn) (kind : QueryKind)
    (job : Word) (slot : Nat) (s : State) (z : State) :
    p.Same z (State.planq kind job slot s) ↔ p.Same z s := by
  refine Part.same_iff ?_; unfold State.planq; dsimp only
  repeat'
    first
    | (simp [h]; done)
    | intro _
    | split
    | refine (State.act_same _ _ _ _ _ _ _ _ ?_).2 ?_
    | simp [h]

theorem execPlanqSearch_same (p : Part) (h : p ≠ .fresh ∧ p ≠ .counts ∧ p ≠ .cores ∧ p ≠ .jobs ∧ p ≠ .ctx ∧ p ≠ .tir
    ∧ p ≠ .chn ∧ p ≠ .lnw ∧ p ≠ .ing ∧ p ≠ .trc ∧ p ≠ .xh ∧ p ≠ .eth ∧ p ≠ .prf ∧ p ≠ .brn) (job : Word)
    (slot : Fin 32) (s : State) {t : State} :
    execPlanqSearch job slot s = .next t → p.Same s t := by
  intro g; unfold execPlanqSearch at g; injection g with g; subst g; simp [h]

theorem execPlanqRevalidate_same (p : Part) (h : p ≠ .fresh ∧ p ≠ .counts ∧ p ≠ .cores ∧ p ≠ .jobs ∧ p ≠ .ctx ∧ p ≠
    .tir ∧ p ≠ .chn ∧ p ≠ .lnw ∧ p ≠ .ing ∧ p ≠ .trc ∧ p ≠ .xh ∧ p ≠ .eth ∧ p ≠ .prf ∧ p ≠ .brn) (job : Word)
    (slot : Fin 32) (s : State) {t : State} :
    execPlanqRevalidate job slot s = .next t → p.Same s t := by
  intro g; unfold execPlanqRevalidate at g; injection g with g; subst g; simp [h]

theorem execPlanqReadPlan_same (p : Part) (h : p ≠ .fresh ∧ p ≠ .counts ∧ p ≠ .cores ∧ p ≠ .jobs ∧ p ≠ .ctx ∧ p ≠
    .tir ∧ p ≠ .chn ∧ p ≠ .lnw ∧ p ≠ .ing ∧ p ≠ .trc ∧ p ≠ .xh ∧ p ≠ .eth ∧ p ≠ .prf ∧ p ≠ .brn) (job : Word)
    (slot : Fin 32) (s : State) {t : State} :
    execPlanqReadPlan job slot s = .next t → p.Same s t := by
  intro g; unfold execPlanqReadPlan at g; injection g with g; subst g; simp [h]

theorem execPlanqPublish_same (p : Part) (h : p ≠ .fresh ∧ p ≠ .counts ∧ p ≠ .cores ∧ p ≠ .jobs ∧ p ≠ .ctx ∧ p ≠ .tir
    ∧ p ≠ .chn ∧ p ≠ .lnw ∧ p ≠ .ing ∧ p ≠ .trc ∧ p ≠ .xh ∧ p ≠ .eth ∧ p ≠ .prf ∧ p ≠ .brn) (job : Word)
    (slot : Fin 32) (s : State) {t : State} :
    execPlanqPublish job slot s = .next t → p.Same s t := by
  intro g; unfold execPlanqPublish at g; injection g with g; subst g; simp [h]

@[simp] theorem State.planResult_same (p : Part) (h : p ≠ .jobs) (q : Query) (r : PlanResult) (s : State)
    (z : State) :
    p.Same z (State.planResult q r s) ↔ p.Same z s := by
  refine Part.same_iff ?_; unfold State.planResult; dsimp only; (repeat' split) <;> simp [h]

@[simp] theorem State.planEnds_same (p : Part) (h : p ≠ .counts ∧ p ≠ .jobs ∧ p ≠ .xh) (q : Query) (r : PlanResult)
    (s : State) (z : State) :
    p.Same z (State.planEnds q r s) ↔ p.Same z s := by
  refine Part.same_iff ?_; unfold State.planEnds; dsimp only; split <;> simp [h]

@[simp] theorem State.checkPath_same (p : Part) (h : p ≠ .counts ∧ p ≠ .jobs ∧ p ≠ .xh) (q : Query) (word0 : Nat)
    (path : List (Nat × Word)) (s : State) (z : State) :
    p.Same z (State.checkPath q word0 path s) ↔ p.Same z s := by
  refine Part.same_iff ?_; unfold State.checkPath; dsimp only; (repeat' split) <;> simp [h]

@[simp] theorem State.searchEnds_same (p : Part) (h : p ≠ .counts ∧ p ≠ .jobs ∧ p ≠ .xh) (q : Query) (budget : Bool)
    (r : SearchState) (s : State) (z : State) :
    p.Same z (State.searchEnds q budget r s) ↔ p.Same z s := by
  refine Part.same_iff ?_; unfold State.searchEnds; dsimp only; (repeat' split) <;> simp [h]

@[simp] theorem State.repairEnds_same (p : Part) (h : p ≠ .counts ∧ p ≠ .jobs ∧ p ≠ .xh) (q : Query) (s : State)
    (z : State) :
    p.Same z (State.repairEnds q s) ↔ p.Same z s := by
  refine Part.same_iff ?_; unfold State.repairEnds; dsimp only; (repeat' split) <;> simp [h]

@[simp] theorem State.cacheMisses_same (p : Part) (h : p ≠ .fresh ∧ p ≠ .counts) (s : State) (z : State) :
    p.Same z (State.cacheMisses s) ↔ p.Same z s := by
  refine Part.same_iff ?_; unfold State.cacheMisses; dsimp only; simp [h]

theorem execPlannerQueryStart_same (p : Part) (h : p ≠ .counts ∧ p ≠ .jobs ∧ p ≠ .xh) (s : State) {t : State} :
    execPlannerQueryStart s = .next t → p.Same s t := by
  intro g; unfold execPlannerQueryStart at g; injection g with g; subst g; dsimp only; (repeat' split) <;> simp [h]

theorem execSearchEnd_same (p : Part) (h : p ≠ .fresh ∧ p ≠ .counts ∧ p ≠ .jobs ∧ p ≠ .xh) (s : State) {t : State} :
    execSearchEnd s = .next t → p.Same s t := by
  intro g; unfold execSearchEnd at g; injection g with g; subst g; dsimp only; (repeat' split) <;> simp [h]

theorem execSearchBudgetExpire_same (p : Part) (h : p ≠ .fresh ∧ p ≠ .counts ∧ p ≠ .jobs ∧ p ≠ .xh)
    (s : State) {t : State} :
    execSearchBudgetExpire s = .next t → p.Same s t := by
  intro g; unfold execSearchBudgetExpire at g; injection g with g; subst g; dsimp only; (repeat' split) <;> simp [h]

theorem execRepairBudgetExpire_same (p : Part) (h : p ≠ .fresh ∧ p ≠ .counts ∧ p ≠ .jobs ∧ p ≠ .xh) (s : State) {t : State} :
    execRepairBudgetExpire s = .next t → p.Same s t := by
  intro g; unfold execRepairBudgetExpire at g; injection g with g; subst g; (repeat' split) <;> simp [h]

theorem execPlannerFault_same (p : Part) (h : p ≠ .fresh ∧ p ≠ .counts ∧ p ≠ .cores ∧ p ≠ .jobs ∧ p ≠ .ctx ∧ p ≠ .tir
    ∧ p ≠ .chn ∧ p ≠ .lnw ∧ p ≠ .ing ∧ p ≠ .trc ∧ p ≠ .xh ∧ p ≠ .eth ∧ p ≠ .prf ∧ p ≠ .brn) (s : State) {t : State} :
    execPlannerFault s = .next t → p.Same s t := by
  intro g; unfold execPlannerFault at g; injection g with g; subst g; split <;> simp [h]

theorem execPublishCopyStart_same (p : Part) (h : p ≠ .xh) (s : State) {t : State} :
    execPublishCopyStart s = .next t → p.Same s t := by
  intro g; unfold execPublishCopyStart at g; injection g with g; subst g; dsimp only; (repeat' split) <;> simp [h]

theorem execPublishCopyDone_same (p : Part) (h : p ≠ .counts ∧ p ≠ .jobs ∧ p ≠ .xh) (s : State) {t : State} :
    execPublishCopyDone s = .next t → p.Same s t := by
  intro g; unfold execPublishCopyDone at g; injection g with g; subst g; dsimp only; (repeat' split) <;> simp [h]

@[simp] theorem State.sealPlans_same (p : Part) (h : p ≠ .counts ∧ p ≠ .xh) (j : Job) (s : State) (z : State) :
    p.Same z (State.sealPlans j s) ↔ p.Same z s := by
  refine Part.same_iff ?_; unfold State.sealPlans; dsimp only
  repeat'
    first
    | (simp [h]; done)
    | intro _
    | split
    | refine Part.same_foldl ?_ ?_
    | refine (Part.same_foldl_snd _ _ _ _ _ ?_).2 ?_
    | simp [h]

@[simp] theorem State.sealMap_same (p : Part) (h : p ≠ .xh) (j : Job) (s : State) (z : State) :
    p.Same z (State.sealMap j s) ↔ p.Same z s := by
  refine Part.same_iff ?_; unfold State.sealMap; dsimp only; split <;> simp [h]

/-! ### Spares -/

@[simp] theorem State.updSlice_same (p : Part) (h : p ≠ .prf) (u : Nat) (f : SliceState → SliceState) (s : State)
    (z : State) :
    p.Same z (State.updSlice u f s) ↔ p.Same z s := by
  refine Part.same_iff ?_; unfold State.updSlice; simp [h]

@[simp] theorem State.startSlice_same (p : Part) (h : p ≠ .counts ∧ p ≠ .xh ∧ p ≠ .prf) (i : Nat) (e : RegEntry)
    (x : SelftestEntry) (s : State) (z : State) :
    p.Same z (State.startSlice i e x s) ↔ p.Same z s := by
  refine Part.same_iff ?_; unfold State.startSlice; dsimp only; (repeat' split) <;> simp [h]

theorem execSelftestSlice_same (p : Part) (h : p ≠ .counts ∧ p ≠ .rgn ∧ p ≠ .xh ∧ p ≠ .prf ∧ p ≠ .brn)
    (e : BitVec 12) (s : State) {t : State} :
    execSelftestSlice e s = .next t → p.Same s t := by
  intro g; unfold execSelftestSlice at g; injection g with g; subst g
  repeat'
    first
    | (simp [h]; done)
    | intro _
    | split
    | refine (State.fire_same _ (by simp [h]) _ _ _ _ _ _ ?_).2 ?_
    | simp [h]

@[simp] theorem State.slicePassed_same (p : Part) (h : p ≠ .prf) (u : Nat) (s : State) (z : State) :
    p.Same z (State.slicePassed u s) ↔ p.Same z s := by
  refine Part.same_iff ?_; unfold State.slicePassed; dsimp only; (repeat' split) <;> simp [h]

@[simp] theorem State.sliceFailed_same (p : Part) (h : p ≠ .fresh ∧ p ≠ .counts ∧ p ≠ .cores ∧ p ≠ .jobs ∧ p ≠ .ctx ∧
    p ≠ .tir ∧ p ≠ .chn ∧ p ≠ .lnw ∧ p ≠ .ing ∧ p ≠ .trc ∧ p ≠ .xh ∧ p ≠ .sty ∧ p ≠ .eth ∧ p ≠ .prf ∧ p ≠ .brn)
    (u : Nat) (n : Nat) (s : State) (z : State) :
    p.Same z (State.sliceFailed u n s) ↔ p.Same z s := by
  refine Part.same_iff ?_; unfold State.sliceFailed; dsimp only; (repeat' split) <;> simp [h]

theorem execSliceDone_same (p : Part) (h : p ≠ .fresh ∧ p ≠ .counts ∧ p ≠ .cores ∧ p ≠ .jobs ∧ p ≠ .ctx ∧ p ≠ .tir ∧
    p ≠ .chn ∧ p ≠ .lnw ∧ p ≠ .ing ∧ p ≠ .trc ∧ p ≠ .xh ∧ p ≠ .sty ∧ p ≠ .eth ∧ p ≠ .prf ∧ p ≠ .brn) (unit : Fin 8)
    (pass : Bool) (instance_ : Nat) (s : State) {t : State} :
    execSliceDone unit pass instance_ s = .next t → p.Same s t := by
  intro g; unfold execSliceDone at g; injection g with g; subst g; (try dsimp only)
  repeat'
    first
    | (simp [h]; done)
    | intro _
    | split
    | refine Part.same_foldl ?_ ?_
    | refine (Part.same_foldl_snd _ _ _ _ _ ?_).2 ?_
    | refine (State.withRoom_same _ (by simp [h]) _ _ _ _ _ _ _ _ _ ?_).2 ?_
    | refine (State.act_same _ _ _ _ _ _ _ _ ?_).2 ?_
    | refine (State.resume_same _ _ _ _ _ _ _ ?_).2 ?_
    | refine (State.request_same _ (by simp [h]) _ _ _ _ ?_).2 ?_
    | refine (State.hint_same _ (by simp [h]) _ _ _ _ _ _ ?_).2 ?_
    | refine (State.ctxCommand_same _ (by simp [h]) _ _ _ _ _ _ ?_).2 ?_
    | refine (State.onContext_same _ _ _ _ _ _ _ ?_).2 ?_
    | refine (State.fire_same _ (by simp [h]) _ _ _ _ _ _ ?_).2 ?_
    | refine (State.bursts_same _ _ _ _ _ _ _ ?_).2 ?_
    | refine (State.withEpilogue_same _ (by simp [h]) _ _ _ _ _ _ _ _ _ ?_).2 ?_
    | simp [h]

theorem execSliceAbort_same (p : Part) (h : p ≠ .counts ∧ p ≠ .xh ∧ p ≠ .prf) (s : State) {t : State} :
    execSliceAbort s = .next t → p.Same s t := by
  intro g; unfold execSliceAbort at g; injection g with g; subst g; (try dsimp only)
  repeat'
    first
    | (simp [h]; done)
    | intro _
    | split
    | refine Part.same_foldl ?_ ?_
    | refine (Part.same_foldl_snd _ _ _ _ _ ?_).2 ?_
    | refine (State.withRoom_same _ (by simp [h]) _ _ _ _ _ _ _ _ _ ?_).2 ?_
    | refine (State.act_same _ _ _ _ _ _ _ _ ?_).2 ?_
    | refine (State.resume_same _ _ _ _ _ _ _ ?_).2 ?_
    | refine (State.request_same _ (by simp [h]) _ _ _ _ ?_).2 ?_
    | refine (State.hint_same _ (by simp [h]) _ _ _ _ _ _ ?_).2 ?_
    | refine (State.ctxCommand_same _ (by simp [h]) _ _ _ _ _ _ ?_).2 ?_
    | refine (State.onContext_same _ _ _ _ _ _ _ ?_).2 ?_
    | refine (State.fire_same _ (by simp [h]) _ _ _ _ _ _ ?_).2 ?_
    | refine (State.bursts_same _ _ _ _ _ _ _ ?_).2 ?_
    | refine (State.withEpilogue_same _ (by simp [h]) _ _ _ _ _ _ _ _ _ ?_).2 ?_
    | simp [h]

theorem execDiagIntervalMissed_same (p : Part) (h : p ≠ .counts ∧ p ≠ .prf ∧ p ≠ .brn) (unit : Nat)
    (s : State) {t : State} :
    execDiagIntervalMissed unit s = .next t → p.Same s t := by
  intro g; unfold execDiagIntervalMissed at g; injection g with g; subst g; dsimp only; (repeat' split) <;> simp [h]

@[simp] theorem State.endSuspension_same (p : Part) (h : p ≠ .clusters ∧ p ≠ .prf) (c : Nat) (s : State) (z : State) :
    p.Same z (State.endSuspension c s) ↔ p.Same z s := by
  refine Part.same_iff ?_; unfold State.endSuspension; split <;> simp [h]

@[simp] theorem State.rotate_same (p : Part) (h : p ≠ .glb ∧ p ≠ .cores ∧ p ≠ .clusters ∧ p ≠ .prf) (c : Nat)
    (s : State) (z : State) :
    p.Same z (State.rotate c s) ↔ p.Same z s := by
  refine Part.same_iff ?_; unfold State.rotate; dsimp only; (repeat' split) <;> simp [h]

@[simp] theorem State.rotateOrWait_same (p : Part) (h : p ≠ .counts ∧ p ≠ .glb ∧ p ≠ .cores ∧ p ≠ .clusters ∧ p ≠
    .prf) (c : Nat) (s : State) (z : State) :
    p.Same z (State.rotateOrWait c s) ↔ p.Same z s := by
  refine Part.same_iff ?_; unfold State.rotateOrWait; dsimp only; (repeat' split) <;> simp [h]

@[simp] theorem State.rotationInstant_same (p : Part) (h : p ≠ .counts ∧ p ≠ .glb ∧ p ≠ .cores ∧ p ≠ .clusters ∧ p ≠
    .prf) (c : Nat) (s : State) (z : State) :
    p.Same z (State.rotationInstant c s) ↔ p.Same z s := by
  refine Part.same_iff ?_; unfold State.rotationInstant; dsimp only; split <;> simp [h]

theorem execRotationInstant_same (p : Part) (h : p ≠ .counts ∧ p ≠ .glb ∧ p ≠ .rgn ∧ p ≠ .cores ∧ p ≠ .clusters ∧ p ≠
    .prf ∧ p ≠ .brn) (e : BitVec 12) (s : State) {t : State} :
    execRotationInstant e s = .next t → p.Same s t := by
  intro g; unfold execRotationInstant at g; injection g with g; subst g; (repeat' split) <;> simp [h]

theorem execRotationHandoverDone_same (p : Part) (h : p ≠ .glb ∧ p ≠ .cores ∧ p ≠ .clusters ∧ p ≠ .prf) (cl : Fin 4)
    (s : State) {t : State} :
    execRotationHandoverDone cl s = .next t → p.Same s t := by
  intro g; unfold execRotationHandoverDone at g; injection g with g; subst g; (try dsimp only)
  repeat'
    first
    | (simp [h]; done)
    | intro _
    | split
    | refine Part.same_foldl ?_ ?_
    | refine (Part.same_foldl_snd _ _ _ _ _ ?_).2 ?_
    | refine (State.withRoom_same _ (by simp [h]) _ _ _ _ _ _ _ _ _ ?_).2 ?_
    | refine (State.act_same _ _ _ _ _ _ _ _ ?_).2 ?_
    | refine (State.resume_same _ _ _ _ _ _ _ ?_).2 ?_
    | refine (State.request_same _ (by simp [h]) _ _ _ _ ?_).2 ?_
    | refine (State.hint_same _ (by simp [h]) _ _ _ _ _ _ ?_).2 ?_
    | refine (State.ctxCommand_same _ (by simp [h]) _ _ _ _ _ _ ?_).2 ?_
    | refine (State.onContext_same _ _ _ _ _ _ _ ?_).2 ?_
    | refine (State.fire_same _ (by simp [h]) _ _ _ _ _ _ ?_).2 ?_
    | refine (State.bursts_same _ _ _ _ _ _ _ ?_).2 ?_
    | refine (State.withEpilogue_same _ (by simp [h]) _ _ _ _ _ _ _ _ _ ?_).2 ?_
    | simp [h]

theorem execSpareSelftestDone_same (p : Part) (h : p ≠ .cores ∧ p ≠ .clusters ∧ p ≠ .prf ∧ p ≠ .brn) (cl : Fin 4)
    (pass : Bool) (s : State) {t : State} :
    execSpareSelftestDone cl pass s = .next t → p.Same s t := by
  intro g; unfold execSpareSelftestDone at g; injection g with g; subst g; dsimp only; (repeat' split) <;> simp [h]

@[simp] theorem State.rejoin_same (p : Part) (h : p ≠ .cores ∧ p ≠ .clusters) (n : Nat) (s : State) (z : State) :
    p.Same z (State.rejoin n s) ↔ p.Same z s := by
  refine Part.same_iff ?_; unfold State.rejoin; dsimp only; split <;> simp [h]

@[simp] theorem State.toRetire_same (p : Part) (h : p ≠ .cores) (n : Nat) (s : State) (z : State) :
    p.Same z (State.toRetire n s) ↔ p.Same z s := by
  refine Part.same_iff ?_; unfold State.toRetire; simp [h]

@[simp] theorem State.repairArray_same (p : Part) (h : p ≠ .counts ∧ p ≠ .cores ∧ p ≠ .clusters ∧ p ≠ .brn) (n : Nat)
    (a : Fin 4) (col : Bool) (phys : BitVec 7) (s : State) (z : State) :
    p.Same z (State.repairArray n a col phys s) ↔ p.Same z s := by
  refine Part.same_iff ?_; unfold State.repairArray; split <;> simp [h]

theorem execDiagnosisDone_same (p : Part) (h : p ≠ .counts ∧ p ≠ .cores ∧ p ≠ .clusters ∧ p ≠ .brn) (core : Fin 36)
    (result : DiagResult) (s : State) {t : State} :
    execDiagnosisDone core result s = .next t → p.Same s t := by
  intro g; unfold execDiagnosisDone at g; injection g with g; subst g; dsimp only; (repeat' split) <;> simp [h]

@[simp] theorem State.giveUpCore_same (p : Part) (h : p ≠ .fresh ∧ p ≠ .glb ∧ p ≠ .cores ∧ p ≠ .clusters ∧ p ≠ .prf)
    (c : Nat) (s : State) (z : State) :
    p.Same z (State.giveUpCore c s) ↔ p.Same z s := by
  refine Part.same_iff ?_; unfold State.giveUpCore; dsimp only; (repeat' split) <;> simp [h]

@[simp] theorem State.retireCore_same (p : Part) (h : p ≠ .fresh ∧ p ≠ .counts ∧ p ≠ .glb ∧ p ≠ .cores ∧ p ≠
    .clusters ∧ p ≠ .prf ∧ p ≠ .brn) (n : Nat) (s : State) (z : State) :
    p.Same z (State.retireCore n s) ↔ p.Same z s := by
  refine Part.same_iff ?_; unfold State.retireCore; dsimp only; (repeat' split) <;> simp [h]

theorem execCoreRetire_same (p : Part) (h : p ≠ .fresh ∧ p ≠ .counts ∧ p ≠ .glb ∧ p ≠ .cores ∧ p ≠ .clusters ∧ p ≠
    .jobs ∧ p ≠ .trc ∧ p ≠ .xh ∧ p ≠ .prf ∧ p ≠ .brn) (u : RetireUnit) (s : State) {t : State} :
    execCoreRetire u s = .next t → p.Same s t := by
  intro g; unfold execCoreRetire at g; injection g with g; subst g; (repeat' split) <;> simp [h]

@[simp] theorem State.updPlate_same (p : Part) (h : p ≠ .plt) (k : Nat) (f : PlateSlice → PlateSlice) (s : State)
    (z : State) :
    p.Same z (State.updPlate k f s) ↔ p.Same z s := by
  refine Part.same_iff ?_; unfold State.updPlate; simp [h]

theorem execPlateScrub_same (p : Part) (h : p ≠ .counts ∧ p ≠ .plt) (slice : Fin 4) (corrected : List Nat)
    (s : State) {t : State} :
    execPlateScrub slice corrected s = .next t → p.Same s t := by
  intro g; unfold execPlateScrub at g; injection g with g; subst g; split <;> simp [h]

@[simp] theorem State.retireBank_same (p : Part) (h : p ≠ .counts ∧ p ≠ .plt) (slice : Nat) (bank : Nat) (s : State)
    (z : State) :
    p.Same z (State.retireBank slice bank s).2 ↔ p.Same z s := by
  refine Part.same_iff ?_; unfold State.retireBank; dsimp only; split <;> simp [h]

@[simp] theorem State.loseFrame_same (p : Part) (h : p ≠ .counts ∧ p ≠ .ing ∧ p ≠ .prf) (n : Nat) (f : LandedFrame)
    (s : State) (z : State) :
    p.Same z (State.loseFrame n f s) ↔ p.Same z s := by
  refine Part.same_iff ?_; unfold State.loseFrame; simp [h]

@[simp] theorem State.pick_same (p : Part) (h : p ≠ .fresh) {α : Type} (l : List α) (s z : State) :
    p.Same z ((s.pick l).2) ↔ p.Same z s := by
  refine Part.same_iff ?_; unfold State.pick; dsimp only; simp [h]

@[simp] theorem State.loseBank_same (p : Part) (h : p ≠ .fresh ∧ p ≠ .counts ∧ p ≠ .cores ∧ p ≠ .jobs ∧ p ≠ .ctx ∧ p
    ≠ .tir ∧ p ≠ .chn ∧ p ≠ .lnw ∧ p ≠ .ing ∧ p ≠ .trc ∧ p ≠ .xh ∧ p ≠ .eth ∧ p ≠ .prf ∧ p ≠ .brn) (s : State)
    (z : State) :
    p.Same z (State.loseBank s) ↔ p.Same z s := by
  refine Part.same_iff ?_; unfold State.loseBank; dsimp only; (repeat' split) <;> simp [h]

theorem execPlateUncorrectable_same (p : Part) (h : p ≠ .fresh ∧ p ≠ .counts ∧ p ≠ .cores ∧ p ≠ .jobs ∧ p ≠ .ctx ∧ p
    ≠ .tir ∧ p ≠ .chn ∧ p ≠ .lnw ∧ p ≠ .ing ∧ p ≠ .trc ∧ p ≠ .xh ∧ p ≠ .eth ∧ p ≠ .prf ∧ p ≠ .brn ∧ p ≠ .plt)
    (slice : Fin 4) (bank : Nat) (s : State) {t : State} :
    execPlateUncorrectable slice bank s = .next t → p.Same s t := by
  intro g; unfold execPlateUncorrectable at g; injection g with g; subst g; dsimp only; (repeat' split) <;> simp [h]

theorem execPlateCorrectedLimit_same (p : Part) (h : p ≠ .counts ∧ p ≠ .brn ∧ p ≠ .plt) (slice : Fin 4) (bank : Nat)
    (s : State) {t : State} :
    execPlateCorrectedLimit slice bank s = .next t → p.Same s t := by
  intro g; unfold execPlateCorrectedLimit at g; injection g with g; subst g; dsimp only; (repeat' split) <;> simp [h]

@[simp] theorem State.restartHandled_same (p : Part) (h : p ≠ .fresh ∧ p ≠ .counts ∧ p ≠ .cores ∧ p ≠ .jobs ∧ p ≠
    .ctx ∧ p ≠ .tir ∧ p ≠ .chn ∧ p ≠ .lnw ∧ p ≠ .ing ∧ p ≠ .trc ∧ p ≠ .xh ∧ p ≠ .eth ∧ p ≠ .prf ∧ p ≠ .brn)
    (x1 : List Job) (x2 : State) (z : State) :
    p.Same z (State.restartHandled x1 x2) ↔ p.Same z x2 := by
  induction x1 generalizing x2 with
  | nil => simp [State.restartHandled]
  | cons j l ih =>
    unfold State.restartHandled; dsimp only
    refine (ih _).trans (Part.same_iff ?_); split <;> simp [h]

theorem execCtrlWatchdogExpire_same (p : Part) (h : p ≠ .fresh ∧ p ≠ .counts ∧ p ≠ .cores ∧ p ≠ .jobs ∧ p ≠ .ctx ∧ p
    ≠ .tir ∧ p ≠ .chn ∧ p ≠ .lnw ∧ p ≠ .ing ∧ p ≠ .trc ∧ p ≠ .xh ∧ p ≠ .eth ∧ p ≠ .prf ∧ p ≠ .brn) (core : Fin 5)
    (s : State) {t : State} :
    execCtrlWatchdogExpire core s = .next t → p.Same s t := by
  intro g; unfold execCtrlWatchdogExpire at g; injection g with g; subst g; dsimp only; (repeat' split) <;> simp [h]

theorem execErrorReport_same (p : Part) (h : p ≠ .counts ∧ p ≠ .eth ∧ p ≠ .brn) (s : State) {t : State} :
    execErrorReport s = .next t → p.Same s t := by
  intro g; unfold execErrorReport at g; injection g with g; subst g; dsimp only; (repeat' split) <;> simp [h]

theorem execBrnLogPop_same (p : Part) (h : p ≠ .brn) (v : Word) (s : State) {t : State} :
    execBrnLogPop v s = .next t → p.Same s t := by
  intro g; unfold execBrnLogPop at g; injection g with g; subst g; split <;> simp [h]

theorem execCntClear_same (p : Part) (h : p ≠ .counts) (b : Block) (v : Word) (s : State) {t : State} :
    execCntClear b v s = .next t → p.Same s t := by
  intro g; unfold execCntClear at g; injection g with g; subst g; split <;> simp [h]

theorem execLockSet_same (p : Part) (h : p ≠ .regs) (b : Block) (v : Word) (s : State) {t : State} :
    execLockSet b v s = .next t → p.Same s t := by
  intro g; unfold execLockSet at g; injection g with g; subst g; (repeat' split) <;> simp [h]

theorem execGlbAvsLimit_same (p : Part) (h : p ≠ .regs) (v : Word) (s : State) {t : State} :
    execGlbAvsLimit v s = .next t → p.Same s t := by
  intro g; unfold execGlbAvsLimit at g; injection g with g; subst g; (try dsimp only)
  repeat'
    first
    | (simp [h]; done)
    | intro _
    | split
    | refine Part.same_foldl ?_ ?_
    | refine (Part.same_foldl_snd _ _ _ _ _ ?_).2 ?_
    | refine (State.withRoom_same _ (by simp [h]) _ _ _ _ _ _ _ _ _ ?_).2 ?_
    | refine (State.act_same _ _ _ _ _ _ _ _ ?_).2 ?_
    | refine (State.resume_same _ _ _ _ _ _ _ ?_).2 ?_
    | refine (State.request_same _ (by simp [h]) _ _ _ _ ?_).2 ?_
    | refine (State.hint_same _ (by simp [h]) _ _ _ _ _ _ ?_).2 ?_
    | refine (State.ctxCommand_same _ (by simp [h]) _ _ _ _ _ _ ?_).2 ?_
    | refine (State.onContext_same _ _ _ _ _ _ _ ?_).2 ?_
    | refine (State.fire_same _ (by simp [h]) _ _ _ _ _ _ ?_).2 ?_
    | refine (State.bursts_same _ _ _ _ _ _ _ ?_).2 ?_
    | refine (State.withEpilogue_same _ (by simp [h]) _ _ _ _ _ _ _ _ _ ?_).2 ?_
    | simp [h]

@[simp] theorem State.voutCommand_same (p : Part) (h : p ≠ .glb) (target : Nat) (ack : Bool) (s : State) (z : State) :
    p.Same z (State.voutCommand target ack s) ↔ p.Same z s := by
  refine Part.same_iff ?_; unfold State.voutCommand; split <;> simp [h]

theorem execAvsStep_same (p : Part) (h : p ≠ .glb) (target : Nat) (ack : Bool) (s : State) {t : State} :
    execAvsStep target ack s = .next t → p.Same s t := by
  intro g; unfold execAvsStep at g; injection g with g; subst g; split <;> simp [h]

theorem execPmbusRetry_same (p : Part) (h : p ≠ .glb) (ack : Bool) (s : State) {t : State} :
    execPmbusRetry ack s = .next t → p.Same s t := by
  intro g; unfold execPmbusRetry at g; injection g with g; subst g; (repeat' split) <;> simp [h]

/-! ### Vision -/

@[simp] theorem State.convGo_same (p : Part) (h : p ≠ .fresh ∧ p ≠ .cores ∧ p ≠ .jobs) (j : Job) (slot : Nat)
    (i : InFlight) (steps : List EpiStep) (s : State) (z : State) :
    p.Same z (State.convGo j slot i steps s) ↔ p.Same z s := by
  refine Part.same_iff ?_; unfold State.convGo; dsimp only; (repeat' split) <;> simp [h]

@[simp] theorem State.convDone_same (p : Part) (h : p ≠ .fresh ∧ p ≠ .counts ∧ p ≠ .cores ∧ p ≠ .jobs ∧ p ≠ .ctx ∧ p
    ≠ .tir ∧ p ≠ .chn ∧ p ≠ .lnw ∧ p ≠ .ing ∧ p ≠ .trc ∧ p ≠ .xh ∧ p ≠ .eth ∧ p ≠ .prf ∧ p ≠ .brn) (j : Job)
    (slot : Nat) (i : InFlight) (s : State) (z : State) :
    p.Same z (State.convDone j slot i s) ↔ p.Same z s := by
  refine Part.same_iff ?_; unfold State.convDone; dsimp only; (repeat' split) <;> simp [h]

@[simp] theorem State.poolGo_same (p : Part) (h : p ≠ .jobs) (j : Job) (slot : Nat) (i : InFlight)
    (steps : List EpiStep) (s : State) (z : State) :
    p.Same z (State.poolGo j slot i steps s) ↔ p.Same z s := by
  refine Part.same_iff ?_; unfold State.poolGo; dsimp only; (repeat' split) <;> simp [h]

@[simp] theorem State.marginActs_same (p : Part) (h : p ≠ .jobs) (j : Job) (slot : Nat) (i : InFlight) (status : Byte)
    (flags : NumFlags) (cycles : Nat) (s : State) (z : State) :
    p.Same z (State.marginActs j slot i status flags cycles s) ↔ p.Same z s := by
  refine Part.same_iff ?_; unfold State.marginActs; simp [h]

@[simp] theorem State.marginGo_same (p : Part) (h : p ≠ .fresh ∧ p ≠ .counts ∧ p ≠ .cores ∧ p ≠ .jobs ∧ p ≠ .ctx ∧ p
    ≠ .tir ∧ p ≠ .chn ∧ p ≠ .lnw ∧ p ≠ .ing ∧ p ≠ .trc ∧ p ≠ .xh ∧ p ≠ .eth ∧ p ≠ .prf ∧ p ≠ .brn) (j : Job)
    (slot : Nat) (i : InFlight) (steps : List EpiStep) (s : State) (z : State) :
    p.Same z (State.marginGo j slot i steps s) ↔ p.Same z s := by
  refine Part.same_iff ?_; unfold State.marginGo; dsimp only; (repeat' split) <;> simp [h]

theorem execConv_same (p : Part) (h : p ≠ .fresh ∧ p ≠ .counts ∧ p ≠ .cores ∧ p ≠ .jobs ∧ p ≠ .ctx ∧ p ≠ .tir ∧ p ≠
    .chn ∧ p ≠ .lnw ∧ p ≠ .ing ∧ p ≠ .trc ∧ p ≠ .xh ∧ p ≠ .eth ∧ p ≠ .prf ∧ p ≠ .brn) (job : Word) (slot : Fin 32)
    (s : State) {t : State} :
    execConv job slot s = .next t → p.Same s t := by
  intro g; unfold execConv at g; injection g with g; subst g
  repeat'
    first
    | (simp [h]; done)
    | intro _
    | split
    | refine (State.act_same _ _ _ _ _ _ _ _ ?_).2 ?_
    | refine (State.withEpilogue_same _ (by simp [h]) _ _ _ _ _ _ _ _ _ ?_).2 ?_
    | simp [h]

theorem execPool_same (p : Part) (h : p ≠ .fresh ∧ p ≠ .counts ∧ p ≠ .cores ∧ p ≠ .jobs ∧ p ≠ .ctx ∧ p ≠ .tir ∧ p ≠
    .chn ∧ p ≠ .lnw ∧ p ≠ .ing ∧ p ≠ .trc ∧ p ≠ .xh ∧ p ≠ .eth ∧ p ≠ .prf ∧ p ≠ .brn) (job : Word) (slot : Fin 32)
    (s : State) {t : State} :
    execPool job slot s = .next t → p.Same s t := by
  intro g; unfold execPool at g; injection g with g; subst g
  repeat'
    first
    | (simp [h]; done)
    | intro _
    | split
    | refine (State.act_same _ _ _ _ _ _ _ _ ?_).2 ?_
    | refine (State.withEpilogue_same _ (by simp [h]) _ _ _ _ _ _ _ _ _ ?_).2 ?_
    | simp [h]

theorem execMarginQueueStart_same (p : Part) (h : p ≠ .jobs) (s : State) {t : State} :
    execMarginQueueStart s = .next t → p.Same s t := by
  intro g; unfold execMarginQueueStart at g; injection g with g; subst g; dsimp only; (repeat' split) <;> simp [h]

theorem execMarginDescriptorDone_same (p : Part) (h : p ≠ .jobs) (s : State) {t : State} :
    execMarginDescriptorDone s = .next t → p.Same s t := by
  intro g; unfold execMarginDescriptorDone at g; injection g with g; subst g; (repeat' split) <;> simp [h]

theorem execMarginResidueFault_same (p : Part) (h : p ≠ .fresh ∧ p ≠ .counts ∧ p ≠ .cores ∧ p ≠ .jobs ∧ p ≠ .ctx ∧ p
    ≠ .tir ∧ p ≠ .chn ∧ p ≠ .lnw ∧ p ≠ .ing ∧ p ≠ .trc ∧ p ≠ .xh ∧ p ≠ .eth ∧ p ≠ .prf ∧ p ≠ .brn)
    (s : State) {t : State} :
    execMarginResidueFault s = .next t → p.Same s t := by
  intro g; unfold execMarginResidueFault at g; injection g with g; subst g; split <;> simp [h]

end Sys2Proof.Machine
end

