-- ==== Sys2Proof/Laws/FrameMemory.lean ====
section
/-!
SUPPORT. Frames (Laws/Frame.lean): the cores, contexts and tiers.
-/

-- One thread elaborates: many small proofs at once would ask for more memory than the check allows.
set_option Elab.async false

namespace Sys2Proof.Machine

open Sys2Proof

set_option linter.unusedTactic false
set_option linter.unreachableTactic false
set_option linter.unnecessarySeqFocus false
set_option linter.unusedSimpArgs false

/-! ### Attention -/

@[simp] theorem State.updJournal_same (p : Part) (h : p ≠ .jobs) (id : Word) (f : Journal → Journal) (s : State)
    (z : State) :
    p.Same z (State.updJournal id f s) ↔ p.Same z s := by
  refine Part.same_iff ?_; unfold State.updJournal; simp [h]

@[simp] theorem State.tableFrames_same (p : Part) (h : p ≠ .fresh ∧ p ≠ .jobs ∧ p ≠ .ctx) (id : Word) (c : Context)
    (lg : Nat) (n : Nat) (s : State) (z : State) :
    p.Same z (State.tableFrames id c lg n s).2 ↔ p.Same z s := by
  refine Part.same_iff ?_; unfold State.tableFrames; dsimp only; (repeat' split) <;> simp [h]

@[simp] theorem State.openAt_same (p : Part) (h : p ≠ .fresh ∧ p ≠ .counts ∧ p ≠ .jobs ∧ p ≠ .ctx) (id : Word)
    (c : Context) (lg : Nat) (n : Nat) (old : Option Pte) (s : State) (z : State) :
    p.Same z (State.openAt id c lg n old s).2 ↔ p.Same z s := by
  refine Part.same_iff ?_; unfold State.openAt; dsimp only; (repeat' split) <;> simp [h]

@[simp] theorem State.appendRow_same (p : Part) (h : p ≠ .fresh ∧ p ≠ .counts ∧ p ≠ .jobs ∧ p ≠ .ctx) (id : Word)
    (c : Context) (lg : Nat) (k : List Byte) (v : List Byte) (s : State) (z : State) :
    p.Same z (State.appendRow id c lg k v s).2 ↔ p.Same z s := by
  refine Part.same_iff ?_; unfold State.appendRow; dsimp only; (repeat' split) <;> simp [h]

theorem State.attnPosition_same (p : Part) (h : p ≠ .fresh ∧ p ≠ .counts ∧ p ≠ .glb ∧ p ≠ .cores ∧ p ≠ .clusters ∧ p ≠ .jobs ∧ p ≠ .ctx ∧ p ≠ .tir ∧ p ≠ .chn ∧ p ≠ .lnw ∧ p ≠ .ing ∧ p ≠ .trc ∧ p ≠ .xh ∧ p ≠ .eth ∧ p ≠ .prf ∧ p ≠ .brn) (id : Word) (d : Descriptor) (lg n row rows : Nat)
    (ma mkv : Memory) (kvOff : Nat) (acc : AttnRun × List (Nat × Word)) :
    p.Same acc.1.state (State.attnPosition id d lg n row rows ma mkv kvOff acc).1.state := by
  unfold State.attnPosition; dsimp only
  split
  · exact Part.same_refl ..
  · split
    · simp [h]
    · refine Part.same_foldl_by (fun y : AttnRun × List (Nat × Word) => y.1.state) (fun _ _ => Part.same_refl ..) ?_
      simp [h]

theorem AttnRun.context_same (p : Part) (h : p ≠ .fresh ∧ p ≠ .counts ∧ p ≠ .glb ∧ p ≠ .cores ∧ p ≠ .clusters ∧ p ≠ .jobs ∧ p ≠ .ctx ∧ p ≠ .tir ∧ p ≠ .chn ∧ p ≠ .lnw ∧ p ≠ .ing ∧ p ≠ .trc ∧ p ≠ .xh ∧ p ≠ .eth ∧ p ≠ .prf ∧ p ≠ .brn) (j : Job) (d : Descriptor) (ma mkv : Memory) (rows : Nat)
    (r : AttnRun) (x : Nat × Nat × Nat) : p.Same r.state (AttnRun.context j d ma mkv rows r x).state := by
  unfold AttnRun.context; dsimp only
  split
  · exact Part.same_refl ..
  · split
    · exact Part.same_refl ..
    · split
      · simp [h]
      · split
        · exact Part.same_foldl_by (fun y : AttnRun × List (Nat × Word) => y.1.state)
            (fun _ _ => State.attnPosition_same p h ..) (Part.same_refl ..)
        · simp only [State.updJournal_same p (by simp [h])]
          exact Part.same_foldl_by (fun y : AttnRun × List (Nat × Word) => y.1.state)
            (fun _ _ => State.attnPosition_same p h ..) (Part.same_refl ..)

@[simp] theorem State.attnGo_same (p : Part) (h : p ≠ .fresh ∧ p ≠ .counts ∧ p ≠ .glb ∧ p ≠ .cores ∧ p ≠ .clusters ∧
    p ≠ .jobs ∧ p ≠ .ctx ∧ p ≠ .tir ∧ p ≠ .chn ∧ p ≠ .lnw ∧ p ≠ .ing ∧ p ≠ .trc ∧ p ≠ .xh ∧ p ≠ .eth ∧ p ≠ .prf ∧ p ≠
    .brn) (j : Job) (slot : Nat) (i : InFlight) (laneFault : Bool) (s : State) (z : State) :
    p.Same z (State.attnGo j slot i laneFault s) ↔ p.Same z s := by
  refine Part.same_iff ?_; unfold State.attnGo; dsimp only
  split
  · simp [h]
  · split
    · simp [h]
    · generalize hr : List.foldl _ _ _ = run
      have k : p.Same s run.state :=
        hr ▸ Part.same_foldl_by AttnRun.state (fun _ _ => AttnRun.context_same p (by simp [h]) ..) (Part.same_refl ..)
      (repeat' split) <;> simp [h, k]

theorem execAttnDecode_same (p : Part) (h : p ≠ .fresh ∧ p ≠ .counts ∧ p ≠ .glb ∧ p ≠ .cores ∧ p ≠ .clusters ∧ p ≠
    .jobs ∧ p ≠ .ctx ∧ p ≠ .tir ∧ p ≠ .chn ∧ p ≠ .lnw ∧ p ≠ .ing ∧ p ≠ .trc ∧ p ≠ .xh ∧ p ≠ .eth ∧ p ≠ .prf ∧ p ≠
    .brn) (job : Word) (run : LaneSlot) (s : State) {t : State} :
    execAttnDecode job run s = .next t → p.Same s t := by
  intro g; unfold execAttnDecode at g; injection g with g; subst g; simp [h]

theorem execAttnPrefill_same (p : Part) (h : p ≠ .fresh ∧ p ≠ .counts ∧ p ≠ .glb ∧ p ≠ .cores ∧ p ≠ .clusters ∧ p ≠
    .jobs ∧ p ≠ .ctx ∧ p ≠ .tir ∧ p ≠ .chn ∧ p ≠ .lnw ∧ p ≠ .ing ∧ p ≠ .trc ∧ p ≠ .xh ∧ p ≠ .eth ∧ p ≠ .prf ∧ p ≠
    .brn) (job : Word) (slot : Fin 32) (s : State) {t : State} :
    execAttnPrefill job slot s = .next t → p.Same s t := by
  intro g; unfold execAttnPrefill at g; injection g with g; subst g; simp [h]

/-! ### GraverCore -/

theorem execWeightBufferReady_same (p : Part) (h : p ≠ .counts ∧ p ≠ .cores) (core : Fin 36) (buf : Fin 2)
    (s : State) {t : State} :
    execWeightBufferReady core buf s = .next t → p.Same s t := by
  intro g; unfold execWeightBufferReady at g; injection g with g; subst g; dsimp only; (repeat' split) <;> simp [h]

theorem execWeightLoadDone_same (p : Part) (h : p ≠ .counts ∧ p ≠ .cores ∧ p ≠ .jobs) (core : Fin 36)
    (s : State) {t : State} :
    execWeightLoadDone core s = .next t → p.Same s t := by
  intro g; unfold execWeightLoadDone at g; injection g with g; subst g; dsimp only; (repeat' split) <;> simp [h]

@[simp] theorem State.tileFaults_same (p : Part) (h : p ≠ .fresh ∧ p ≠ .counts ∧ p ≠ .glb ∧ p ≠ .cores ∧ p ≠
    .clusters ∧ p ≠ .jobs ∧ p ≠ .ctx ∧ p ≠ .tir ∧ p ≠ .chn ∧ p ≠ .lnw ∧ p ≠ .ing ∧ p ≠ .trc ∧ p ≠ .xh ∧ p ≠ .eth ∧ p
    ≠ .prf ∧ p ≠ .brn) (core : Fin 36) (arrays : List PendingFault) (s : State) (z : State) :
    p.Same z (State.tileFaults core arrays s) ↔ p.Same z s := by
  refine Part.same_iff ?_; unfold State.tileFaults; dsimp only; simp [h]

theorem execTileComplete_same (p : Part) (h : p ≠ .fresh ∧ p ≠ .counts ∧ p ≠ .glb ∧ p ≠ .cores ∧ p ≠ .clusters ∧ p ≠
    .jobs ∧ p ≠ .ctx ∧ p ≠ .tir ∧ p ≠ .chn ∧ p ≠ .lnw ∧ p ≠ .ing ∧ p ≠ .trc ∧ p ≠ .xh ∧ p ≠ .eth ∧ p ≠ .prf ∧ p ≠
    .brn) (core : Fin 36) (mismatch : BitVec 4) (row : Word) (s : State) {t : State} :
    execTileComplete core mismatch row s = .next t → p.Same s t := by
  intro g; unfold execTileComplete at g; injection g with g; subst g; dsimp only; (repeat' split) <;> simp [h]

@[simp] theorem State.arraysDone_same (p : Part) (h : p ≠ .fresh ∧ p ≠ .counts ∧ p ≠ .cores ∧ p ≠ .jobs ∧ p ≠ .ctx ∧
    p ≠ .tir ∧ p ≠ .chn ∧ p ≠ .lnw ∧ p ≠ .ing ∧ p ≠ .trc ∧ p ≠ .xh ∧ p ≠ .eth ∧ p ≠ .prf ∧ p ≠ .brn) (j : Job)
    (slot : Nat) (i : InFlight) (s : State) (z : State) :
    p.Same z (State.arraysDone j slot i s) ↔ p.Same z s := by
  refine Part.same_iff ?_; unfold State.arraysDone; split <;> simp [h]

@[simp] theorem State.bankDrained_same (p : Part) (h : p ≠ .fresh ∧ p ≠ .counts ∧ p ≠ .cores ∧ p ≠ .jobs ∧ p ≠ .ctx ∧
    p ≠ .tir ∧ p ≠ .chn ∧ p ≠ .lnw ∧ p ≠ .ing ∧ p ≠ .trc ∧ p ≠ .xh ∧ p ≠ .eth ∧ p ≠ .prf ∧ p ≠ .brn) (core : Nat)
    (b : AccBank) (s : State) (z : State) :
    p.Same z (State.bankDrained core b s) ↔ p.Same z s := by
  refine Part.same_iff ?_; unfold State.bankDrained; dsimp only; (repeat' split) <;> simp [h]

theorem execAccBankFree_same (p : Part) (h : p ≠ .fresh ∧ p ≠ .counts ∧ p ≠ .cores ∧ p ≠ .jobs ∧ p ≠ .ctx ∧ p ≠ .tir
    ∧ p ≠ .chn ∧ p ≠ .lnw ∧ p ≠ .ing ∧ p ≠ .trc ∧ p ≠ .xh ∧ p ≠ .eth ∧ p ≠ .prf ∧ p ≠ .brn) (core : Fin 36)
    (bank : Fin 2) (s : State) {t : State} :
    execAccBankFree core bank s = .next t → p.Same s t := by
  intro g; unfold execAccBankFree at g; injection g with g; subst g; dsimp only; (repeat' split) <;> simp [h]

theorem execWashResidueFault_same (p : Part) (h : p ≠ .fresh ∧ p ≠ .counts ∧ p ≠ .glb ∧ p ≠ .cores ∧ p ≠ .clusters ∧
    p ≠ .jobs ∧ p ≠ .ctx ∧ p ≠ .tir ∧ p ≠ .chn ∧ p ≠ .lnw ∧ p ≠ .ing ∧ p ≠ .trc ∧ p ≠ .xh ∧ p ≠ .eth ∧ p ≠ .prf ∧ p ≠
    .brn) (core : Fin 36) (s : State) {t : State} :
    execWashResidueFault core s = .next t → p.Same s t := by
  intro g; unfold execWashResidueFault at g; injection g with g; subst g; simp [h]

@[simp] theorem State.faultyJob_same (p : Part) (h : p ≠ .fresh) (s : State) (core : Nat) (z : State) :
    p.Same z (State.faultyJob s core).2 ↔ p.Same z s := by
  refine Part.same_iff ?_; unfold State.faultyJob; dsimp only; (repeat' split) <;> simp [h]

theorem execT1Uncorrectable_same (p : Part) (h : p ≠ .fresh ∧ p ≠ .counts ∧ p ≠ .cores ∧ p ≠ .jobs ∧ p ≠ .ctx ∧ p ≠
    .tir ∧ p ≠ .chn ∧ p ≠ .lnw ∧ p ≠ .ing ∧ p ≠ .trc ∧ p ≠ .xh ∧ p ≠ .eth ∧ p ≠ .prf ∧ p ≠ .brn) (core : Fin 36)
    (bank : Fin 8) (s : State) {t : State} :
    execT1Uncorrectable core bank s = .next t → p.Same s t := by
  intro g; unfold execT1Uncorrectable at g; injection g with g; subst g; (try dsimp only)
  repeat'
    first
    | (simp [h]; done)
    | intro _
    | split
    | refine Part.same_foldl ?_ ?_
    | refine (Part.same_foldl_snd _ _ _ _ _ ?_).2 ?_
    | refine (State.withRoom_same _ (by simp [h]) _ _ _ _ _ _ _ _ _ ?_).2 ?_
    | refine (State.act_same _ _ _ _ _ _ _ _ ?_).2 ?_
    | refine (State.resume_same _ _ _ _ _ _ _ ?_).2 ?_
    | refine (State.request_same _ (by simp [h]) _ _ _ _ ?_).2 ?_
    | refine (State.hint_same _ (by simp [h]) _ _ _ _ _ _ ?_).2 ?_
    | refine (State.ctxCommand_same _ (by simp [h]) _ _ _ _ _ _ ?_).2 ?_
    | refine (State.onContext_same _ _ _ _ _ _ _ ?_).2 ?_
    | refine (State.fire_same _ (by simp [h]) _ _ _ _ _ _ ?_).2 ?_
    | refine (State.bursts_same _ _ _ _ _ _ _ ?_).2 ?_
    | refine (State.withEpilogue_same _ (by simp [h]) _ _ _ _ _ _ _ _ _ ?_).2 ?_
    | simp [h]

/-! ### Contexts -/

@[simp] theorem State.ctxCommand_same (p : Part) (h : p ≠ .counts ∧ p ≠ .eth) (sess : Nat) (tag : Word) (b : CtxBody)
    (go : Nat → Nat → State → Option Byte × State) (s z : State) (hg : ∀ q n u, p.Same u (go q n u).2) :
    p.Same z (s.ctxCommand sess tag b go) ↔ p.Same z s := by
  unfold State.ctxCommand
  apply State.request_same _ (by simp [h])
  intro x u
  dsimp only; (repeat' split) <;> simp [h, hg]

@[simp] theorem State.onContext_same (p : Part) (n : Nat) (damaged held : Bool) (go : Context → Option Byte × State)
    (s z : State)
    (hg : ∀ c, p.Same s (go c).2) :
    p.Same z ((s.onContext n damaged held go).2) ↔ p.Same z s := by
  refine Part.same_iff ?_; unfold State.onContext; (repeat' split) <;> simp [hg]

@[simp] theorem State.withRoom_same (p : Part) (h : p ≠ .fresh ∧ p ≠ .counts ∧ p ≠ .cores ∧ p ≠ .jobs ∧ p ≠ .ctx ∧ p
    ≠ .tir ∧ p ≠ .chn ∧ p ≠ .lnw) (sess : Nat) (tag : Word) (b : CtxBody) (q need : Nat) (keep : List Nat)
    (go : State → Option Byte × State) (s z : State) (hg : ∀ u, p.Same u (go u).2) :
    p.Same z ((s.withRoom sess tag b q need keep go).2) ↔ p.Same z s := by
  refine Part.same_iff ?_; unfold State.withRoom; dsimp only; split
  · exact Part.same_trans (by simp [h]) (hg _)
  · split <;> simp [h]

@[simp] theorem State.addContext_same (p : Part) (h : p ≠ .fresh ∧ p ≠ .ctx) (c : Context) (s : State) (z : State) :
    p.Same z (State.addContext c s) ↔ p.Same z s := by
  refine Part.same_iff ?_; unfold State.addContext; dsimp only; simp [h]

theorem execCtxOpen_same (p : Part) (h : p ≠ .fresh ∧ p ≠ .counts ∧ p ≠ .ctx ∧ p ≠ .eth) (sess : Fin 16)
    (tag : Word) (b : CtxBody) (s : State) {t : State} :
    execCtxOpen sess tag b s = .next t → p.Same s t := by
  intro g; unfold execCtxOpen at g; injection g with g; subst g
  repeat'
    first
    | (simp [h]; done)
    | intro _
    | split
    | refine (State.ctxCommand_same _ (by simp [h]) _ _ _ _ _ _ ?_).2 ?_
    | simp [h]

@[simp] theorem State.shareEntry_same (p : Part) (h : p ≠ .fresh ∧ p ≠ .counts ∧ p ≠ .ctx) (part : Nat) (e : Pte)
    (s : State) (z : State) :
    p.Same z (State.shareEntry part e s).2 ↔ p.Same z s := by
  refine Part.same_iff ?_; unfold State.shareEntry; dsimp only; (repeat' split) <;> simp [h]

@[simp] theorem State.shareEntries_same (p : Part) (h : p ≠ .fresh ∧ p ≠ .counts ∧ p ≠ .ctx) (part : Nat)
    (x1 : List Pte) (x2 : State) (z : State) :
    p.Same z (State.shareEntries part x1 x2).2 ↔ p.Same z x2 := by
  fun_induction State.shareEntries part x1 x2 <;> (repeat' (first | (simp_all; done) | (simp_all +zetaDelta; done) | split))

@[simp] theorem State.forkGroups_same (p : Part) (h : p ≠ .fresh ∧ p ≠ .counts ∧ p ≠ .ctx) (part : Nat) (length : Nat)
    (c : Context) (x1 : List LayerGroup) (x2 : State) (z : State) :
    p.Same z (State.forkGroups part length c x1 x2).2 ↔ p.Same z x2 := by
  fun_induction State.forkGroups part length c x1 x2 <;> (repeat' (first | (simp_all; done) | (simp_all +zetaDelta; done) | split))

@[simp] theorem State.forkContext_same (p : Part) (h : p ≠ .fresh ∧ p ≠ .counts ∧ p ≠ .ctx) (p₁ : Nat) (n : Nat)
    (length : Nat) (c : Context) (s : State) (z : State) :
    p.Same z (State.forkContext p₁ n length c s).2 ↔ p.Same z s := by
  refine Part.same_iff ?_; unfold State.forkContext; dsimp only; (repeat' split) <;> simp [h]

@[simp] theorem State.forkCmd_same (p : Part) (h : p ≠ .fresh ∧ p ≠ .counts ∧ p ≠ .cores ∧ p ≠ .jobs ∧ p ≠ .ctx ∧ p ≠
    .tir ∧ p ≠ .chn ∧ p ≠ .lnw) (sess : Nat) (tag : Word) (b : CtxBody) (p₁ : Nat) (n : Nat) (s : State) (z : State) :
    p.Same z (State.forkCmd sess tag b p₁ n s).2 ↔ p.Same z s := by
  refine Part.same_iff ?_; unfold State.forkCmd; dsimp only
  repeat'
    first
    | (simp [h]; done)
    | intro _
    | split
    | refine (State.withRoom_same _ (by simp [h]) _ _ _ _ _ _ _ _ _ ?_).2 ?_
    | refine (State.onContext_same _ _ _ _ _ _ _ ?_).2 ?_
    | simp [h]

theorem execCtxFork_same (p : Part) (h : p ≠ .fresh ∧ p ≠ .counts ∧ p ≠ .cores ∧ p ≠ .jobs ∧ p ≠ .ctx ∧ p ≠ .tir ∧ p
    ≠ .chn ∧ p ≠ .lnw ∧ p ≠ .eth) (sess : Fin 16) (tag : Word) (b : CtxBody) (s : State) {t : State} :
    execCtxFork sess tag b s = .next t → p.Same s t := by
  intro g; unfold execCtxFork at g; injection g with g; subst g; simp [h]

theorem execCtxTruncate_same (p : Part) (h : p ≠ .counts ∧ p ≠ .ctx ∧ p ≠ .tir ∧ p ≠ .eth) (sess : Fin 16)
    (tag : Word) (b : CtxBody) (s : State) {t : State} :
    execCtxTruncate sess tag b s = .next t → p.Same s t := by
  intro g; unfold execCtxTruncate at g; injection g with g; subst g; dsimp only
  repeat'
    first
    | (simp [h]; done)
    | intro _
    | split
    | refine Part.same_foldl ?_ ?_
    | refine (Part.same_foldl_snd _ _ _ _ _ ?_).2 ?_
    | refine (State.ctxCommand_same _ (by simp [h]) _ _ _ _ _ _ ?_).2 ?_
    | refine (State.onContext_same _ _ _ _ _ _ _ ?_).2 ?_
    | simp [h]

@[simp] theorem State.dropSnapshot_same (p : Part) (h : p ≠ .tir) (r : StateRegion) (s : State) (z : State) :
    p.Same z (State.dropSnapshot r s) ↔ p.Same z s := by
  refine Part.same_iff ?_; unfold State.dropSnapshot; simp [h]

@[simp] theorem State.resetContext_same (p : Part) (h : p ≠ .fresh ∧ p ≠ .ctx ∧ p ≠ .tir) (n : Nat) (c : Context)
    (fresh : Bool) (s : State) (z : State) :
    p.Same z (State.resetContext n c fresh s) ↔ p.Same z s := by
  refine Part.same_iff ?_; unfold State.resetContext; dsimp only; (repeat' split) <;> simp [h]

@[simp] theorem State.resetCmd_same (p : Part) (h : p ≠ .fresh ∧ p ≠ .counts ∧ p ≠ .cores ∧ p ≠ .jobs ∧ p ≠ .ctx ∧ p
    ≠ .tir ∧ p ≠ .chn ∧ p ≠ .lnw) (sess : Nat) (tag : Word) (b : CtxBody) (p₁ : Nat) (n : Nat) (s : State) (z : State) :
    p.Same z (State.resetCmd sess tag b p₁ n s).2 ↔ p.Same z s := by
  refine Part.same_iff ?_; unfold State.resetCmd
  repeat'
    first
    | (simp [h]; done)
    | intro _
    | split
    | refine (State.withRoom_same _ (by simp [h]) _ _ _ _ _ _ _ _ _ ?_).2 ?_
    | refine (State.onContext_same _ _ _ _ _ _ _ ?_).2 ?_
    | simp [h]

theorem execCtxReset_same (p : Part) (h : p ≠ .fresh ∧ p ≠ .counts ∧ p ≠ .cores ∧ p ≠ .jobs ∧ p ≠ .ctx ∧ p ≠ .tir ∧ p
    ≠ .chn ∧ p ≠ .lnw ∧ p ≠ .eth) (sess : Fin 16) (tag : Word) (b : CtxBody) (s : State) {t : State} :
    execCtxReset sess tag b s = .next t → p.Same s t := by
  intro g; unfold execCtxReset at g; injection g with g; subst g; simp [h]

theorem execCtxClose_same (p : Part) (h : p ≠ .counts ∧ p ≠ .ctx ∧ p ≠ .tir ∧ p ≠ .eth) (sess : Fin 16) (tag : Word)
    (b : CtxBody) (s : State) {t : State} :
    execCtxClose sess tag b s = .next t → p.Same s t := by
  intro g; unfold execCtxClose at g; injection g with g; subst g
  repeat'
    first
    | (simp [h]; done)
    | intro _
    | split
    | refine (State.ctxCommand_same _ (by simp [h]) _ _ _ _ _ _ ?_).2 ?_
    | refine (State.onContext_same _ _ _ _ _ _ _ ?_).2 ?_
    | simp [h]

@[simp] theorem State.attachCmd_same (p : Part) (h : p ≠ .fresh ∧ p ≠ .counts ∧ p ≠ .cores ∧ p ≠ .jobs ∧ p ≠ .ctx ∧ p
    ≠ .tir ∧ p ≠ .chn ∧ p ≠ .lnw) (sess : Nat) (tag : Word) (b : CtxBody) (p₁ : Nat) (n : Nat) (s : State) (z : State) :
    p.Same z (State.attachCmd sess tag b p₁ n s).2 ↔ p.Same z s := by
  refine Part.same_iff ?_; unfold State.attachCmd; dsimp only; (repeat' split) <;> simp [h]

theorem execCtxAttach_same (p : Part) (h : p ≠ .fresh ∧ p ≠ .counts ∧ p ≠ .cores ∧ p ≠ .jobs ∧ p ≠ .ctx ∧ p ≠ .tir ∧
    p ≠ .chn ∧ p ≠ .lnw ∧ p ≠ .eth) (sess : Fin 16) (tag : Word) (b : CtxBody) (s : State) {t : State} :
    execCtxAttach sess tag b s = .next t → p.Same s t := by
  intro g; unfold execCtxAttach at g; injection g with g; subst g; simp [h]

@[simp] theorem State.drawIv_same (p : Part) (h : p ≠ .fresh) (s : State) (z : State) :
    p.Same z (State.drawIv s).2 ↔ p.Same z s := by
  refine Part.same_iff ?_; unfold State.drawIv; dsimp only; simp [h]

theorem execCtxExport_same (p : Part) (h : p ≠ .counts ∧ p ≠ .ctx ∧ p ≠ .eth ∧ p ≠ .sec) (sess : Fin 16)
    (tag : Word) (b : CtxBody) (s : State) {t : State} :
    execCtxExport sess tag b s = .next t → p.Same s t := by
  intro g; unfold execCtxExport at g; injection g with g; subst g; dsimp only
  repeat'
    first
    | (simp [h]; done)
    | intro _
    | split
    | refine (State.ctxCommand_same _ (by simp [h]) _ _ _ _ _ _ ?_).2 ?_
    | refine (State.onContext_same _ _ _ _ _ _ _ ?_).2 ?_
    | simp [h]

theorem execExportDone_same (p : Part) (h : p ≠ .fresh ∧ p ≠ .counts ∧ p ≠ .cores ∧ p ≠ .jobs ∧ p ≠ .ctx ∧ p ≠ .tir ∧
    p ≠ .chn ∧ p ≠ .lnw ∧ p ≠ .eth) (ctx : BitVec 14) (s : State) {t : State} :
    execExportDone ctx s = .next t → p.Same s t := by
  intro g; unfold execExportDone at g; injection g with g; subst g; dsimp only; (repeat' split) <;> simp [h]

@[simp] theorem State.importInto_same (p : Part) (h : p ≠ .fresh ∧ p ≠ .ctx ∧ p ≠ .tir) (n : Nat) (r : StateRegion)
    (x : BitVec 64 × Memory) (s : State) (z : State) :
    p.Same z (State.importInto n r x s) ↔ p.Same z s := by
  refine Part.same_iff ?_; unfold State.importInto; dsimp only; (repeat' split) <;> simp [h]

@[simp] theorem State.importCmd_same (p : Part) (h : p ≠ .fresh ∧ p ≠ .counts ∧ p ≠ .cores ∧ p ≠ .jobs ∧ p ≠ .ctx ∧ p
    ≠ .tir ∧ p ≠ .chn ∧ p ≠ .lnw) (sess : Nat) (tag : Word) (b : CtxBody) (p₁ : Nat) (n : Nat) (s : State) (z : State) :
    p.Same z (State.importCmd sess tag b p₁ n s).2 ↔ p.Same z s := by
  refine Part.same_iff ?_; unfold State.importCmd; dsimp only; (repeat' split) <;> simp [h]

theorem execCtxImport_same (p : Part) (h : p ≠ .fresh ∧ p ≠ .counts ∧ p ≠ .cores ∧ p ≠ .jobs ∧ p ≠ .ctx ∧ p ≠ .tir ∧
    p ≠ .chn ∧ p ≠ .lnw ∧ p ≠ .eth) (sess : Fin 16) (tag : Word) (b : CtxBody) (s : State) {t : State} :
    execCtxImport sess tag b s = .next t → p.Same s t := by
  intro g; unfold execCtxImport at g; injection g with g; subst g; simp [h]

theorem execCtxSwapOut_same (p : Part) (h : p ≠ .fresh ∧ p ≠ .counts ∧ p ≠ .cores ∧ p ≠ .jobs ∧ p ≠ .ctx ∧ p ≠ .tir ∧
    p ≠ .chn ∧ p ≠ .lnw ∧ p ≠ .eth) (sess : Fin 16) (tag : Word) (b : CtxBody) (s : State) {t : State} :
    execCtxSwapOut sess tag b s = .next t → p.Same s t := by
  intro g; unfold execCtxSwapOut at g; injection g with g; subst g; dsimp only
  repeat'
    first
    | (simp [h]; done)
    | intro _
    | split
    | refine (State.ctxCommand_same _ (by simp [h]) _ _ _ _ _ _ ?_).2 ?_
    | refine (State.onContext_same _ _ _ _ _ _ _ ?_).2 ?_
    | simp [h]

@[simp] theorem State.swapInCmd_same (p : Part) (h : p ≠ .fresh ∧ p ≠ .counts ∧ p ≠ .cores ∧ p ≠ .jobs ∧ p ≠ .ctx ∧ p
    ≠ .tir ∧ p ≠ .chn ∧ p ≠ .lnw) (sess : Nat) (tag : Word) (b : CtxBody) (p₁ : Nat) (n : Nat) (s : State) (z : State) :
    p.Same z (State.swapInCmd sess tag b p₁ n s).2 ↔ p.Same z s := by
  refine Part.same_iff ?_; unfold State.swapInCmd
  repeat'
    first
    | (simp [h]; done)
    | intro _
    | split
    | refine (State.withRoom_same _ (by simp [h]) _ _ _ _ _ _ _ _ _ ?_).2 ?_
    | refine (State.onContext_same _ _ _ _ _ _ _ ?_).2 ?_
    | simp [h]

theorem execCtxSwapIn_same (p : Part) (h : p ≠ .fresh ∧ p ≠ .counts ∧ p ≠ .cores ∧ p ≠ .jobs ∧ p ≠ .ctx ∧ p ≠ .tir ∧
    p ≠ .chn ∧ p ≠ .lnw ∧ p ≠ .eth) (sess : Fin 16) (tag : Word) (b : CtxBody) (s : State) {t : State} :
    execCtxSwapIn sess tag b s = .next t → p.Same s t := by
  intro g; unfold execCtxSwapIn at g; injection g with g; subst g; simp [h]

@[simp] theorem State.retryCommand_same (p : Part) (h : p ≠ .fresh ∧ p ≠ .counts ∧ p ≠ .cores ∧ p ≠ .jobs ∧ p ≠ .ctx
    ∧ p ≠ .tir ∧ p ≠ .chn ∧ p ≠ .lnw ∧ p ≠ .eth) (w : CtxWait) (s : State) (z : State) :
    p.Same z (State.retryCommand w s) ↔ p.Same z s := by
  refine Part.same_iff ?_; unfold State.retryCommand; dsimp only; (repeat' split) <;> simp [h]

theorem execSwapDone_same (p : Part) (h : p ≠ .fresh ∧ p ≠ .counts ∧ p ≠ .cores ∧ p ≠ .jobs ∧ p ≠ .ctx ∧ p ≠ .tir ∧ p
    ≠ .chn ∧ p ≠ .lnw ∧ p ≠ .eth) (ctx : BitVec 14) (s : State) {t : State} :
    execSwapDone ctx s = .next t → p.Same s t := by
  intro g; unfold execSwapDone at g; injection g with g; subst g; dsimp only; (repeat' split) <;> simp [h]

theorem execPageSeal_same (p : Part) (h : p ≠ .ctx) (index : BitVec 21) (s : State) {t : State} :
    execPageSeal index s = .next t → p.Same s t := by
  intro g; unfold execPageSeal at g; injection g with g; subst g; (repeat' split) <;> simp [h]

theorem execKvPageDemote_same (p : Part) (h : p ≠ .fresh ∧ p ≠ .counts ∧ p ≠ .cores ∧ p ≠ .jobs ∧ p ≠ .tir ∧ p ≠ .chn
    ∧ p ≠ .lnw) (part : Fin 8) (s : State) {t : State} :
    execKvPageDemote part s = .next t → p.Same s t := by
  intro g; unfold execKvPageDemote at g; injection g with g; subst g; dsimp only; (repeat' split) <;> simp [h]

/-! ### Recurrent -/

@[simp] theorem State.gateSample_same (p : Part) (h : p ≠ .counts ∧ p ≠ .cores ∧ p ≠ .prf) (j : Job) (slot : Nat)
    (tanh : Bool) (t : PwlTable) (zs : List Word) (s : State) (z : State) :
    p.Same z (State.gateSample j slot tanh t zs s) ↔ p.Same z s := by
  refine Part.same_iff ?_; unfold State.gateSample; dsimp only; (repeat' split) <;> simp [h]

@[simp] theorem State.scanGo_same (p : Part) (h : p ≠ .fresh ∧ p ≠ .counts ∧ p ≠ .cores ∧ p ≠ .jobs ∧ p ≠ .ctx ∧ p ≠
    .tir ∧ p ≠ .chn ∧ p ≠ .lnw ∧ p ≠ .ing ∧ p ≠ .trc ∧ p ≠ .xh ∧ p ≠ .eth ∧ p ≠ .prf ∧ p ≠ .brn) (j : Job)
    (slot : Nat) (i : InFlight) (s : State) (z : State) :
    p.Same z (State.scanGo j slot i s) ↔ p.Same z s := by
  refine Part.same_iff ?_; unfold State.scanGo; dsimp only; (repeat' split) <;> simp [h]

theorem execScan_same (p : Part) (h : p ≠ .fresh ∧ p ≠ .counts ∧ p ≠ .cores ∧ p ≠ .jobs ∧ p ≠ .ctx ∧ p ≠ .tir ∧ p ≠
    .chn ∧ p ≠ .lnw ∧ p ≠ .ing ∧ p ≠ .trc ∧ p ≠ .xh ∧ p ≠ .eth ∧ p ≠ .prf ∧ p ≠ .brn) (job : Word) (slot : Fin 32)
    (s : State) {t : State} :
    execScan job slot s = .next t → p.Same s t := by
  intro g; unfold execScan at g; injection g with g; subst g; simp [h]

theorem execGate_same (p : Part) (h : p ≠ .fresh ∧ p ≠ .counts ∧ p ≠ .cores ∧ p ≠ .jobs ∧ p ≠ .ctx ∧ p ≠ .tir ∧ p ≠
    .chn ∧ p ≠ .lnw ∧ p ≠ .ing ∧ p ≠ .trc ∧ p ≠ .xh ∧ p ≠ .eth ∧ p ≠ .prf ∧ p ≠ .brn) (job : Word) (slot : Fin 32)
    (s : State) {t : State} :
    execGate job slot s = .next t → p.Same s t := by
  intro g; unfold execGate at g; injection g with g; subst g; dsimp only
  repeat'
    first
    | (simp [h]; done)
    | intro _
    | split
    | refine Part.same_foldl ?_ ?_
    | refine (Part.same_foldl_snd _ _ _ _ _ ?_).2 ?_
    | refine (State.act_same _ _ _ _ _ _ _ _ ?_).2 ?_
    | simp [h]

/-! ### Tiers -/

@[simp] theorem State.prefetch_same (p : Part) (h : p ≠ .fresh ∧ p ≠ .counts ∧ p ≠ .cores ∧ p ≠ .jobs ∧ p ≠ .tir ∧ p
    ≠ .chn ∧ p ≠ .lnw) (entry : Nat) (part : Nat) (obj : Word) (s : State) (z : State) :
    p.Same z (State.prefetch entry part obj s) ↔ p.Same z s := by
  refine Part.same_iff ?_; unfold State.prefetch; split <;> simp [h]

@[simp] theorem State.prefetchNow_same (p : Part) (h : p ≠ .fresh ∧ p ≠ .counts ∧ p ≠ .cores ∧ p ≠ .jobs ∧ p ≠ .tir ∧
    p ≠ .chn ∧ p ≠ .lnw) (entry : Nat) (part : Nat) (obj : Word) (s : State) (z : State) :
    p.Same z (State.prefetchNow entry part obj s) ↔ p.Same z s := by
  refine Part.same_iff ?_; unfold State.prefetchNow; simp [h]

@[simp] theorem State.launchPrefetch_same (p : Part) (h : p ≠ .fresh ∧ p ≠ .counts ∧ p ≠ .rgn ∧ p ≠ .cores ∧ p ≠
    .jobs ∧ p ≠ .tir ∧ p ≠ .chn ∧ p ≠ .lnw) (i : Nat) (r : RegEntry) (s : State) (z : State) :
    p.Same z (State.launchPrefetch i r s) ↔ p.Same z s := by
  refine Part.same_iff ?_; unfold State.launchPrefetch; (repeat' split) <;> simp [h]

theorem execTierPrefetch_same (p : Part) (h : p ≠ .fresh ∧ p ≠ .counts ∧ p ≠ .rgn ∧ p ≠ .cores ∧ p ≠ .jobs ∧ p ≠ .tir
    ∧ p ≠ .chn ∧ p ≠ .lnw ∧ p ≠ .prf ∧ p ≠ .brn) (e : BitVec 12) (s : State) {t : State} :
    execTierPrefetch e s = .next t → p.Same s t := by
  intro g; unfold execTierPrefetch at g; injection g with g; subst g; (repeat' split) <;> simp [h]

@[simp] theorem State.hint_same (p : Part) (h : p ≠ .counts ∧ p ≠ .eth) (sess : Nat) (tag : Word) (b : HintBody)
    (go : ObjVersion → State → Byte × State) (s z : State)
    (hg : ∀ o u, p.Same u (go o u).2) :
    p.Same z (s.hint sess tag b go) ↔ p.Same z s := by
  unfold State.hint
  apply State.request_same _ (by simp [h])
  intro x u
  dsimp only; (repeat' split) <;> simp [h, hg]

@[simp] theorem State.setHostRef_same (p : Part) (h : p ≠ .counts ∧ p ≠ .cores ∧ p ≠ .tir ∧ p ≠ .chn ∧ p ≠ .lnw)
    (tier : Nat) (on : Bool) (o : ObjVersion) (s : State) (z : State) :
    p.Same z (State.setHostRef tier on o s) ↔ p.Same z s := by
  refine Part.same_iff ?_; unfold State.setHostRef; dsimp only; (repeat' split) <;> simp [h]

@[simp] theorem State.dropHost_same (p : Part) (h : p ≠ .counts ∧ p ≠ .cores ∧ p ≠ .tir ∧ p ≠ .chn ∧ p ≠ .lnw)
    (tier : Nat) (o : ObjVersion) (s : State) (z : State) :
    p.Same z (State.dropHost tier o s) ↔ p.Same z s := by
  refine Part.same_iff ?_; unfold State.dropHost; split <;> simp [h]

@[simp] theorem State.dropOther_same (p : Part) (h : p ≠ .counts ∧ p ≠ .cores ∧ p ≠ .tir ∧ p ≠ .chn ∧ p ≠ .lnw)
    (tier : Nat) (o : ObjVersion) (s : State) (z : State) :
    p.Same z (State.dropOther tier o s) ↔ p.Same z s := by
  refine Part.same_iff ?_; unfold State.dropOther; split <;> simp [h]

theorem execPromote_same (p : Part) (h : p ≠ .fresh ∧ p ≠ .counts ∧ p ≠ .cores ∧ p ≠ .jobs ∧ p ≠ .tir ∧ p ≠ .chn ∧ p
    ≠ .lnw ∧ p ≠ .eth) (sess : Fin 16) (tag : Word) (b : HintBody) (s : State) {t : State} :
    execPromote sess tag b s = .next t → p.Same s t := by
  intro g; unfold execPromote at g; injection g with g; subst g; dsimp only
  repeat'
    first
    | (simp [h]; done)
    | intro _
    | split
    | refine (State.hint_same _ (by simp [h]) _ _ _ _ _ _ ?_).2 ?_
    | simp [h]

@[simp] theorem State.dropHint_same (p : Part) (h : p ≠ .counts ∧ p ≠ .cores ∧ p ≠ .tir ∧ p ≠ .chn ∧ p ≠ .lnw)
    (b : HintBody) (o : ObjVersion) (s : State) (z : State) :
    p.Same z (State.dropHint b o s).2 ↔ p.Same z s := by
  refine Part.same_iff ?_; unfold State.dropHint; dsimp only; split <;> simp [h]

theorem execRelease_same (p : Part) (h : p ≠ .counts ∧ p ≠ .cores ∧ p ≠ .tir ∧ p ≠ .chn ∧ p ≠ .lnw ∧ p ≠ .eth)
    (sess : Fin 16) (tag : Word) (b : HintBody) (s : State) {t : State} :
    execRelease sess tag b s = .next t → p.Same s t := by
  intro g; unfold execRelease at g; injection g with g; subst g; simp [h]

theorem execPin_same (p : Part) (h : p ≠ .counts ∧ p ≠ .tir ∧ p ≠ .eth) (sess : Fin 16) (tag : Word) (b : HintBody)
    (s : State) {t : State} :
    execPin sess tag b s = .next t → p.Same s t := by
  intro g; unfold execPin at g; injection g with g; subst g; simp [h]

theorem execUnpin_same (p : Part) (h : p ≠ .counts ∧ p ≠ .tir ∧ p ≠ .eth) (sess : Fin 16) (tag : Word)
    (b : HintBody) (s : State) {t : State} :
    execUnpin sess tag b s = .next t → p.Same s t := by
  intro g; unfold execUnpin at g; injection g with g; subst g; simp [h]

theorem execDemote_same (p : Part) (h : p ≠ .counts ∧ p ≠ .cores ∧ p ≠ .tir ∧ p ≠ .chn ∧ p ≠ .lnw ∧ p ≠ .eth)
    (sess : Fin 16) (tag : Word) (b : HintBody) (s : State) {t : State} :
    execDemote sess tag b s = .next t → p.Same s t := by
  intro g; unfold execDemote at g; injection g with g; subst g; dsimp only; (repeat' split) <;> simp [h]

theorem execDrop_same (p : Part) (h : p ≠ .counts ∧ p ≠ .cores ∧ p ≠ .tir ∧ p ≠ .chn ∧ p ≠ .lnw ∧ p ≠ .eth)
    (sess : Fin 16) (tag : Word) (b : HintBody) (s : State) {t : State} :
    execDrop sess tag b s = .next t → p.Same s t := by
  intro g; unfold execDrop at g; injection g with g; subst g
  repeat'
    first
    | (simp [h]; done)
    | intro _
    | split
    | refine (State.hint_same _ (by simp [h]) _ _ _ _ _ _ ?_).2 ?_
    | simp [h]

@[simp] theorem State.readAhead_same (p : Part) (h : p ≠ .fresh ∧ p ≠ .counts ∧ p ≠ .cores ∧ p ≠ .jobs ∧ p ≠ .tir ∧ p
    ≠ .chn ∧ p ≠ .lnw) (part : Nat) (obj : Word) (ver : Nat) (extent : Nat) (s : State) (z : State) :
    p.Same z (State.readAhead part obj ver extent s) ↔ p.Same z s := by
  refine Part.same_iff ?_; unfold State.readAhead; dsimp only
  repeat'
    first
    | (simp [h]; done)
    | intro _
    | split
    | refine Part.same_foldl ?_ ?_
    | refine (Part.same_foldl_snd _ _ _ _ _ ?_).2 ?_
    | simp [h]

theorem execExtentMiss_same (p : Part) (h : p ≠ .fresh ∧ p ≠ .counts ∧ p ≠ .cores ∧ p ≠ .jobs ∧ p ≠ .tir ∧ p ≠ .chn ∧
    p ≠ .lnw) (job : Word) (slot : Fin 32) (obj : Word) (extent : Nat) (s : State) {t : State} :
    execExtentMiss job slot obj extent s = .next t → p.Same s t := by
  intro g; unfold execExtentMiss at g; injection g with g; subst g; dsimp only; (repeat' split) <;> simp [h]

theorem execExtentFetchDone_same (p : Part) (h : p ≠ .fresh ∧ p ≠ .counts ∧ p ≠ .cores ∧ p ≠ .jobs ∧ p ≠ .tir ∧ p ≠
    .chn ∧ p ≠ .lnw) (tag : BitVec 16) (s : State) {t : State} :
    execExtentFetchDone tag s = .next t → p.Same s t := by
  intro g; unfold execExtentFetchDone at g; injection g with g; subst g; dsimp only; (repeat' split) <;> simp [h]

theorem execTierRequestTimeout_same (p : Part) (h : p ≠ .fresh ∧ p ≠ .counts ∧ p ≠ .cores ∧ p ≠ .jobs ∧ p ≠ .ctx ∧ p
    ≠ .tir ∧ p ≠ .chn ∧ p ≠ .lnw ∧ p ≠ .ing ∧ p ≠ .trc ∧ p ≠ .xh ∧ p ≠ .eth ∧ p ≠ .prf ∧ p ≠ .brn) (tag : BitVec 16)
    (s : State) {t : State} :
    execTierRequestTimeout tag s = .next t → p.Same s t := by
  intro g; unfold execTierRequestTimeout at g; injection g with g; subst g; (repeat' split) <;> simp [h]

theorem execLateCompletion_same (p : Part) (h : p ≠ .counts) (linework : Bool) (tag : BitVec 16)
    (s : State) {t : State} :
    execLateCompletion linework tag s = .next t → p.Same s t := by
  intro g; unfold execLateCompletion at g; injection g with g; subst g; (repeat' split) <;> simp [h]

theorem execTagRelease_same (p : Part) (h : p ≠ .tir ∧ p ≠ .lnw) (tag : BitVec 16) (s : State) {t : State} :
    execTagRelease tag s = .next t → p.Same s t := by
  intro g; unfold execTagRelease at g; injection g with g; subst g; (try dsimp only)
  repeat'
    first
    | (simp [h]; done)
    | intro _
    | split
    | refine Part.same_foldl ?_ ?_
    | refine (Part.same_foldl_snd _ _ _ _ _ ?_).2 ?_
    | refine (State.withRoom_same _ (by simp [h]) _ _ _ _ _ _ _ _ _ ?_).2 ?_
    | refine (State.act_same _ _ _ _ _ _ _ _ ?_).2 ?_
    | refine (State.resume_same _ _ _ _ _ _ _ ?_).2 ?_
    | refine (State.request_same _ (by simp [h]) _ _ _ _ ?_).2 ?_
    | refine (State.hint_same _ (by simp [h]) _ _ _ _ _ _ ?_).2 ?_
    | refine (State.ctxCommand_same _ (by simp [h]) _ _ _ _ _ _ ?_).2 ?_
    | refine (State.onContext_same _ _ _ _ _ _ _ ?_).2 ?_
    | refine (State.fire_same _ (by simp [h]) _ _ _ _ _ _ ?_).2 ?_
    | refine (State.bursts_same _ _ _ _ _ _ _ ?_).2 ?_
    | refine (State.withEpilogue_same _ (by simp [h]) _ _ _ _ _ _ _ _ _ ?_).2 ?_
    | simp [h]

@[simp] theorem State.endWait_same (p : Part) (h : p ≠ .fresh ∧ p ≠ .counts ∧ p ≠ .cores ∧ p ≠ .jobs ∧ p ≠ .tir ∧ p ≠
    .chn ∧ p ≠ .lnw) (w : AllocWait) (s : State) (z : State) :
    p.Same z (State.endWait w s) ↔ p.Same z s := by
  refine Part.same_iff ?_; unfold State.endWait; dsimp only; (repeat' split) <;> simp [h]

@[simp] theorem State.firstWait_same (p : Part) (h : p ≠ .fresh ∧ p ≠ .counts ∧ p ≠ .cores ∧ p ≠ .jobs ∧ p ≠ .tir ∧ p
    ≠ .chn ∧ p ≠ .lnw) (s : State) (x1 : List AllocWait) (z : State) :
    p.Same z (State.firstWait s x1) ↔ p.Same z s := by
  fun_induction State.firstWait s x1 <;> (repeat' (first | (simp_all; done) | (simp_all +zetaDelta; done) | split))

theorem execAllocationWaitEnd_same (p : Part) (h : p ≠ .fresh ∧ p ≠ .counts ∧ p ≠ .cores ∧ p ≠ .jobs ∧ p ≠ .tir ∧ p ≠
    .chn ∧ p ≠ .lnw) (s : State) {t : State} :
    execAllocationWaitEnd s = .next t → p.Same s t := by
  intro g; unfold execAllocationWaitEnd at g; injection g with g; subst g; simp [h]

@[simp] theorem State.pageReadable_same (p : Part) (h : p ≠ .ctx ∧ p ≠ .tir) (w : TierWrite) (s : State) (z : State) :
    p.Same z (State.pageReadable w s) ↔ p.Same z s := by
  refine Part.same_iff ?_; unfold State.pageReadable; (repeat' split) <;> simp [h]

@[simp] theorem State.snapshotReadable_same (p : Part) (h : p ≠ .counts ∧ p ≠ .ctx ∧ p ≠ .tir) (w : TierWrite)
    (s : State) (z : State) :
    p.Same z (State.snapshotReadable w s) ↔ p.Same z s := by
  refine Part.same_iff ?_; unfold State.snapshotReadable; dsimp only; (repeat' split) <;> simp [h]

@[simp] theorem State.rebuilt_same (p : Part) (h : p ≠ .ctx) (w : TierWrite) (s : State) (z : State) :
    p.Same z (State.rebuilt w s) ↔ p.Same z s := by
  refine Part.same_iff ?_; unfold State.rebuilt; dsimp only; (repeat' split) <;> simp [h]

@[simp] theorem State.loadReadable_same (p : Part) (h : p ≠ .cores ∧ p ≠ .jobs ∧ p ≠ .tir ∧ p ≠ .chn ∧ p ≠ .lnw ∧ p ≠
    .eth) (w : TierWrite) (s : State) (z : State) :
    p.Same z (State.loadReadable w s) ↔ p.Same z s := by
  refine Part.same_iff ?_; unfold State.loadReadable; dsimp only; (repeat' split) <;> simp [h]

@[simp] theorem State.mirrorReadable_same (p : Part) (h : p ≠ .tir) (w : TierWrite) (s : State) (z : State) :
    p.Same z (State.mirrorReadable w s) ↔ p.Same z s := by
  refine Part.same_iff ?_; unfold State.mirrorReadable; (repeat' split) <;> simp [h]

@[simp] theorem State.versionReadable_same (p : Part) (h : p ≠ .counts ∧ p ≠ .tir) (w : TierWrite) (s : State)
    (z : State) :
    p.Same z (State.versionReadable w s) ↔ p.Same z s := by
  refine Part.same_iff ?_; unfold State.versionReadable; dsimp only; (repeat' split) <;> simp [h]

@[simp] theorem State.copyReadable_same (p : Part) (h : p ≠ .counts ∧ p ≠ .cores ∧ p ≠ .jobs ∧ p ≠ .ctx ∧ p ≠ .tir ∧
    p ≠ .chn ∧ p ≠ .lnw ∧ p ≠ .eth) (w : TierWrite) (s : State) (z : State) :
    p.Same z (State.copyReadable w s) ↔ p.Same z s := by
  refine Part.same_iff ?_; unfold State.copyReadable; split <;> simp [h]

theorem execTierWriteDone_same (p : Part) (h : p ≠ .counts ∧ p ≠ .cores ∧ p ≠ .jobs ∧ p ≠ .ctx ∧ p ≠ .tir ∧ p ≠ .chn
    ∧ p ≠ .lnw ∧ p ≠ .eth) (crcGood : Bool) (s : State) {t : State} :
    execTierWriteDone crcGood s = .next t → p.Same s t := by
  intro g; unfold execTierWriteDone at g; injection g with g; subst g; (repeat' split) <;> simp [h]

theorem execDirectoryMirrorWrite_same (p : Part) (h : p ≠ .tir) (s : State) {t : State} :
    execDirectoryMirrorWrite s = .next t → p.Same s t := by
  intro g; unfold execDirectoryMirrorWrite at g; injection g with g; subst g; dsimp only; (repeat' split) <;> simp [h]

theorem execRebuildDone_same (p : Part) (h : p ≠ .tir) (part : Fin 8) (obj : Word) (ver : BitVec 16)
    (s : State) {t : State} :
    execRebuildDone part obj ver s = .next t → p.Same s t := by
  intro g; unfold execRebuildDone at g; injection g with g; subst g; (try dsimp only)
  repeat'
    first
    | (simp [h]; done)
    | intro _
    | split
    | refine Part.same_foldl ?_ ?_
    | refine (Part.same_foldl_snd _ _ _ _ _ ?_).2 ?_
    | refine (State.withRoom_same _ (by simp [h]) _ _ _ _ _ _ _ _ _ ?_).2 ?_
    | refine (State.act_same _ _ _ _ _ _ _ _ ?_).2 ?_
    | refine (State.resume_same _ _ _ _ _ _ _ ?_).2 ?_
    | refine (State.request_same _ (by simp [h]) _ _ _ _ ?_).2 ?_
    | refine (State.hint_same _ (by simp [h]) _ _ _ _ _ _ ?_).2 ?_
    | refine (State.ctxCommand_same _ (by simp [h]) _ _ _ _ _ _ ?_).2 ?_
    | refine (State.onContext_same _ _ _ _ _ _ _ ?_).2 ?_
    | refine (State.fire_same _ (by simp [h]) _ _ _ _ _ _ ?_).2 ?_
    | refine (State.bursts_same _ _ _ _ _ _ _ ?_).2 ?_
    | refine (State.withEpilogue_same _ (by simp [h]) _ _ _ _ _ _ _ _ _ ?_).2 ?_
    | simp [h]

@[simp] theorem State.dirQuery_same (p : Part) (h : p ≠ .tir) (part : Nat) (obj : Word) (s : State) (z : State) :
    p.Same z (State.dirQuery part obj s) ↔ p.Same z s := by
  refine Part.same_iff ?_; unfold State.dirQuery; split <;> simp [h]

theorem execTirDirQuery_same (p : Part) (h : p ≠ .counts ∧ p ≠ .tir ∧ p ≠ .eth) (sess : Fin 16) (v : Word)
    (s : State) {t : State} :
    execTirDirQuery sess v s = .next t → p.Same s t := by
  intro g; unfold execTirDirQuery at g; injection g with g; subst g; simp [h]

@[simp] theorem State.tierMove_same (p : Part) (h : p ≠ .fresh ∧ p ≠ .counts ∧ p ≠ .cores ∧ p ≠ .jobs ∧ p ≠ .tir ∧ p
    ≠ .chn ∧ p ≠ .lnw) (j : Job) (target : Nat) (o : ObjVersion) (s : State) (z : State) :
    p.Same z (State.tierMove j target o s) ↔ p.Same z s := by
  refine Part.same_iff ?_; unfold State.tierMove; dsimp only; (repeat' split) <;> simp [h]

theorem execMoveTier_same (p : Part) (h : p ≠ .fresh ∧ p ≠ .counts ∧ p ≠ .cores ∧ p ≠ .jobs ∧ p ≠ .ctx ∧ p ≠ .tir ∧ p
    ≠ .chn ∧ p ≠ .lnw ∧ p ≠ .ing ∧ p ≠ .trc ∧ p ≠ .xh ∧ p ≠ .eth ∧ p ≠ .prf ∧ p ≠ .brn) (job : Word) (slot : Fin 32)
    (s : State) {t : State} :
    execMoveTier job slot s = .next t → p.Same s t := by
  intro g; unfold execMoveTier at g; injection g with g; subst g; dsimp only
  repeat'
    first
    | (simp [h]; done)
    | intro _
    | split
    | refine (State.act_same _ _ _ _ _ _ _ _ ?_).2 ?_
    | simp [h]

end Sys2Proof.Machine
end

