-- ==== Sys2Proof/Laws/FrameHost.lean ====
section
/-!
SUPPORT. Frames (Laws/Frame.lean): sessions, keys and objects.
-/

-- One thread elaborates: many small proofs at once would ask for more memory than the check allows.
set_option Elab.async false

namespace Sys2Proof.Machine

open Sys2Proof

set_option linter.unusedTactic false
set_option linter.unreachableTactic false
set_option linter.unnecessarySeqFocus false

/-! ### Limian -/

@[simp] theorem State.closeSession_same (p : Part) (h : p ≠ .jobs ∧ p ≠ .ctx ∧ p ≠ .tir ∧ p ≠ .eth) (i : Nat)
    (s : State) (z : State) :
    p.Same z (State.closeSession i s) ↔ p.Same z s := by
  refine Part.same_iff ?_; unfold State.closeSession; dsimp only; (repeat' split) <;> simp [h]

@[simp] theorem State.refuseOpen_same (p : Part) (h : p ≠ .eth) (p₁ : Port) (seq : Word) (st : Byte) (s : State)
    (z : State) :
    p.Same z (State.refuseOpen p₁ seq st s) ↔ p.Same z s := by
  refine Part.same_iff ?_; unfold State.refuseOpen; simp [h]

theorem execLimianOpen_same (p : Part) (h : p ≠ .fresh ∧ p ≠ .counts ∧ p ≠ .eth) (p₁ : Port) (seq : Word)
    (w0 : Word) (credits : BitVec 16) (s : State) {t : State} :
    execLimianOpen p₁ seq w0 credits s = .next t → p.Same s t := by
  intro g; unfold execLimianOpen at g; injection g with g; subst g; dsimp only; (repeat' split) <;> simp [h]

theorem execLimianClose_same (p : Part) (h : p ≠ .counts ∧ p ≠ .jobs ∧ p ≠ .ctx ∧ p ≠ .tir ∧ p ≠ .eth)
    (sess : Fin 16) (s : State) {t : State} :
    execLimianClose sess s = .next t → p.Same s t := by
  intro g; unfold execLimianClose at g; injection g with g; subst g; simp [h]

theorem execLimianAck_same (p : Part) (h : p ≠ .counts ∧ p ≠ .eth) (sess : Fin 16) (ack : Word)
    (credits : BitVec 16) (s : State) {t : State} :
    execLimianAck sess ack credits s = .next t → p.Same s t := by
  intro g; unfold execLimianAck at g; injection g with g; subst g; (try dsimp only)
  repeat'
    first
    | (simp [h]; done)
    | intro _
    | split
    | refine Part.same_foldl ?_ ?_
    | refine (Part.same_foldl_snd _ _ _ _ _ ?_).2 ?_
    | refine (State.withRoom_same _ (by simp [h]) _ _ _ _ _ _ _ _ _ ?_).2 ?_
    | refine (State.act_same _ _ _ _ _ _ _ _ ?_).2 ?_
    | refine (State.resume_same _ _ _ _ _ _ _ ?_).2 ?_
    | refine (State.request_same _ (by simp [h]) _ _ _ _ ?_).2 ?_
    | refine (State.hint_same _ (by simp [h]) _ _ _ _ _ _ ?_).2 ?_
    | refine (State.ctxCommand_same _ (by simp [h]) _ _ _ _ _ _ ?_).2 ?_
    | refine (State.onContext_same _ _ _ _ _ _ _ ?_).2 ?_
    | refine (State.fire_same _ (by simp [h]) _ _ _ _ _ _ ?_).2 ?_
    | refine (State.bursts_same _ _ _ _ _ _ _ ?_).2 ?_
    | refine (State.withEpilogue_same _ (by simp [h]) _ _ _ _ _ _ _ _ _ ?_).2 ?_
    | simp [h]

theorem execAckDelay_same (p : Part) (h : p ≠ .eth) (sess : Fin 16) (s : State) {t : State} :
    execAckDelay sess s = .next t → p.Same s t := by
  intro g; unfold execAckDelay at g; injection g with g; subst g; (try dsimp only)
  repeat'
    first
    | (simp [h]; done)
    | intro _
    | split
    | refine Part.same_foldl ?_ ?_
    | refine (Part.same_foldl_snd _ _ _ _ _ ?_).2 ?_
    | refine (State.withRoom_same _ (by simp [h]) _ _ _ _ _ _ _ _ _ ?_).2 ?_
    | refine (State.act_same _ _ _ _ _ _ _ _ ?_).2 ?_
    | refine (State.resume_same _ _ _ _ _ _ _ ?_).2 ?_
    | refine (State.request_same _ (by simp [h]) _ _ _ _ ?_).2 ?_
    | refine (State.hint_same _ (by simp [h]) _ _ _ _ _ _ ?_).2 ?_
    | refine (State.ctxCommand_same _ (by simp [h]) _ _ _ _ _ _ ?_).2 ?_
    | refine (State.onContext_same _ _ _ _ _ _ _ ?_).2 ?_
    | refine (State.fire_same _ (by simp [h]) _ _ _ _ _ _ ?_).2 ?_
    | refine (State.bursts_same _ _ _ _ _ _ _ ?_).2 ?_
    | refine (State.withEpilogue_same _ (by simp [h]) _ _ _ _ _ _ _ _ _ ?_).2 ?_
    | simp [h]

@[simp] theorem State.resend_same (p : Part) (h : p ≠ .counts ∧ p ≠ .eth) (i : Nat) (s : State) (z : State) :
    p.Same z (State.resend i s) ↔ p.Same z s := by
  refine Part.same_iff ?_; unfold State.resend; dsimp only; simp [h]

theorem execRetransmitTimeout_same (p : Part) (h : p ≠ .counts ∧ p ≠ .jobs ∧ p ≠ .ctx ∧ p ≠ .tir ∧ p ≠ .eth)
    (sess : Fin 16) (s : State) {t : State} :
    execRetransmitTimeout sess s = .next t → p.Same s t := by
  intro g; unfold execRetransmitTimeout at g; injection g with g; subst g; (try dsimp only)
  repeat'
    first
    | (simp [h]; done)
    | intro _
    | split
    | refine Part.same_foldl ?_ ?_
    | refine (Part.same_foldl_snd _ _ _ _ _ ?_).2 ?_
    | refine (State.withRoom_same _ (by simp [h]) _ _ _ _ _ _ _ _ _ ?_).2 ?_
    | refine (State.act_same _ _ _ _ _ _ _ _ ?_).2 ?_
    | refine (State.resume_same _ _ _ _ _ _ _ ?_).2 ?_
    | refine (State.request_same _ (by simp [h]) _ _ _ _ ?_).2 ?_
    | refine (State.hint_same _ (by simp [h]) _ _ _ _ _ _ ?_).2 ?_
    | refine (State.ctxCommand_same _ (by simp [h]) _ _ _ _ _ _ ?_).2 ?_
    | refine (State.onContext_same _ _ _ _ _ _ _ ?_).2 ?_
    | refine (State.fire_same _ (by simp [h]) _ _ _ _ _ _ ?_).2 ?_
    | refine (State.bursts_same _ _ _ _ _ _ _ ?_).2 ?_
    | refine (State.withEpilogue_same _ (by simp [h]) _ _ _ _ _ _ _ _ _ ?_).2 ?_
    | simp [h]

theorem execSessionIdleTimeout_same (p : Part) (h : p ≠ .jobs ∧ p ≠ .ctx ∧ p ≠ .tir ∧ p ≠ .eth) (sess : Fin 16)
    (s : State) {t : State} :
    execSessionIdleTimeout sess s = .next t → p.Same s t := by
  intro g; unfold execSessionIdleTimeout at g; injection g with g; subst g; (try dsimp only)
  repeat'
    first
    | (simp [h]; done)
    | intro _
    | split
    | refine Part.same_foldl ?_ ?_
    | refine (Part.same_foldl_snd _ _ _ _ _ ?_).2 ?_
    | refine (State.withRoom_same _ (by simp [h]) _ _ _ _ _ _ _ _ _ ?_).2 ?_
    | refine (State.act_same _ _ _ _ _ _ _ _ ?_).2 ?_
    | refine (State.resume_same _ _ _ _ _ _ _ ?_).2 ?_
    | refine (State.request_same _ (by simp [h]) _ _ _ _ ?_).2 ?_
    | refine (State.hint_same _ (by simp [h]) _ _ _ _ _ _ ?_).2 ?_
    | refine (State.ctxCommand_same _ (by simp [h]) _ _ _ _ _ _ ?_).2 ?_
    | refine (State.onContext_same _ _ _ _ _ _ _ ?_).2 ?_
    | refine (State.fire_same _ (by simp [h]) _ _ _ _ _ _ ?_).2 ?_
    | refine (State.bursts_same _ _ _ _ _ _ _ ?_).2 ?_
    | refine (State.withEpilogue_same _ (by simp [h]) _ _ _ _ _ _ _ _ _ ?_).2 ?_
    | simp [h]

/-! ### Security -/

@[simp] theorem State.refuseKey_same (p : Part) (h : p ≠ .sec) (s : State) (z : State) :
    p.Same z (State.refuseKey s) ↔ p.Same z s := by
  refine Part.same_iff ?_; unfold State.refuseKey; simp [h]

theorem execSecBootWriteFirmware_same (p : Part) (h : p ≠ .sec) (v : Word) (s : State) {t : State} :
    execSecBootWriteFirmware v s = .next t → p.Same s t := by
  intro g; unfold execSecBootWriteFirmware at g; injection g with g; subst g; (repeat' split) <;> simp [h]

theorem execSecBootWriteOutline_same (p : Part) (h : p ≠ .sec) (v : Word) (s : State) {t : State} :
    execSecBootWriteOutline v s = .next t → p.Same s t := by
  intro g; unfold execSecBootWriteOutline at g; injection g with g; subst g; (repeat' split) <;> simp [h]

theorem execBootWriteDone_same (p : Part) (h : p ≠ .sec) (readBackGood : Bool) (s : State) {t : State} :
    execBootWriteDone readBackGood s = .next t → p.Same s t := by
  intro g; unfold execBootWriteDone at g; injection g with g; subst g; dsimp only; (repeat' split) <;> simp [h]

theorem execSecRollbackCommit_same (p : Part) (h : p ≠ .sec) (v : Word) (s : State) {t : State} :
    execSecRollbackCommit v s = .next t → p.Same s t := by
  intro g; unfold execSecRollbackCommit at g; injection g with g; subst g; split <;> simp [h]

theorem execSecKeyInstall_same (p : Part) (h : p ≠ .sec) (v : Word) (s : State) {t : State} :
    execSecKeyInstall v s = .next t → p.Same s t := by
  intro g; unfold execSecKeyInstall at g; injection g with g; subst g; (try dsimp only)
  repeat'
    first
    | (simp [h]; done)
    | intro _
    | split
    | refine Part.same_foldl ?_ ?_
    | refine (Part.same_foldl_snd _ _ _ _ _ ?_).2 ?_
    | refine (State.withRoom_same _ (by simp [h]) _ _ _ _ _ _ _ _ _ ?_).2 ?_
    | refine (State.act_same _ _ _ _ _ _ _ _ ?_).2 ?_
    | refine (State.resume_same _ _ _ _ _ _ _ ?_).2 ?_
    | refine (State.request_same _ (by simp [h]) _ _ _ _ ?_).2 ?_
    | refine (State.hint_same _ (by simp [h]) _ _ _ _ _ _ ?_).2 ?_
    | refine (State.ctxCommand_same _ (by simp [h]) _ _ _ _ _ _ ?_).2 ?_
    | refine (State.onContext_same _ _ _ _ _ _ _ ?_).2 ?_
    | refine (State.fire_same _ (by simp [h]) _ _ _ _ _ _ ?_).2 ?_
    | refine (State.bursts_same _ _ _ _ _ _ _ ?_).2 ?_
    | refine (State.withEpilogue_same _ (by simp [h]) _ _ _ _ _ _ _ _ _ ?_).2 ?_
    | simp [h]

theorem execSecRevoke_same (p : Part) (h : p ≠ .sec) (v : Word) (s : State) {t : State} :
    execSecRevoke v s = .next t → p.Same s t := by
  intro g; unfold execSecRevoke at g; injection g with g; subst g; (repeat' split) <;> simp [h]

theorem execSecLockAdvance_same (p : Part) (h : p ≠ .sec) (v : Word) (s : State) {t : State} :
    execSecLockAdvance v s = .next t → p.Same s t := by
  intro g; unfold execSecLockAdvance at g; injection g with g; subst g; (try dsimp only)
  repeat'
    first
    | (simp [h]; done)
    | intro _
    | split
    | refine Part.same_foldl ?_ ?_
    | refine (Part.same_foldl_snd _ _ _ _ _ ?_).2 ?_
    | refine (State.withRoom_same _ (by simp [h]) _ _ _ _ _ _ _ _ _ ?_).2 ?_
    | refine (State.act_same _ _ _ _ _ _ _ _ ?_).2 ?_
    | refine (State.resume_same _ _ _ _ _ _ _ ?_).2 ?_
    | refine (State.request_same _ (by simp [h]) _ _ _ _ ?_).2 ?_
    | refine (State.hint_same _ (by simp [h]) _ _ _ _ _ _ ?_).2 ?_
    | refine (State.ctxCommand_same _ (by simp [h]) _ _ _ _ _ _ ?_).2 ?_
    | refine (State.onContext_same _ _ _ _ _ _ _ ?_).2 ?_
    | refine (State.fire_same _ (by simp [h]) _ _ _ _ _ _ ?_).2 ?_
    | refine (State.bursts_same _ _ _ _ _ _ _ ?_).2 ?_
    | refine (State.withEpilogue_same _ (by simp [h]) _ _ _ _ _ _ _ _ _ ?_).2 ?_
    | simp [h]

/-! ### Objects -/

@[simp] theorem State.loadRoom_same (p : Part) (h : p ≠ .fresh ∧ p ≠ .counts ∧ p ≠ .cores ∧ p ≠ .jobs ∧ p ≠ .tir ∧ p
    ≠ .chn ∧ p ≠ .lnw) (part : Nat) (home : Nat) (n : Nat) (mirrored : Bool) (s : State) (z : State) :
    p.Same z (State.loadRoom part home n mirrored s).2 ↔ p.Same z s := by
  refine Part.same_iff ?_; unfold State.loadRoom; dsimp only; (repeat' split) <;> simp [h]

@[simp] theorem State.beginLoad_same (p : Part) (h : p ≠ .fresh ∧ p ≠ .counts ∧ p ≠ .cores ∧ p ≠ .jobs ∧ p ≠ .tir ∧ p
    ≠ .chn ∧ p ≠ .lnw) (i : Nat) (x : Session) (tag : Word) (obj : Word) (total : Word) (w3 : Word) (iv : BitVec 96)
    (s : State) (z : State) :
    p.Same z (State.beginLoad i x tag obj total w3 iv s).2 ↔ p.Same z s := by
  refine Part.same_iff ?_; unfold State.beginLoad; dsimp only; (repeat' split) <;> simp [h]

theorem execObjLoadBegin_same (p : Part) (h : p ≠ .fresh ∧ p ≠ .counts ∧ p ≠ .cores ∧ p ≠ .jobs ∧ p ≠ .tir ∧ p ≠ .chn
    ∧ p ≠ .lnw ∧ p ≠ .eth) (sess : Fin 16) (tag : Word) (obj : Word) (totalBytes : Word) (w3 : Word)
    (iv : BitVec 96) (s : State) {t : State} :
    execObjLoadBegin sess tag obj totalBytes w3 iv s = .next t → p.Same s t := by
  intro g; unfold execObjLoadBegin at g; injection g with g; subst g; dsimp only
  repeat'
    first
    | (simp [h]; done)
    | intro _
    | split
    | refine (State.request_same _ (by simp [h]) _ _ _ _ ?_).2 ?_
    | simp [h]

@[simp] theorem State.dropLoad_same (p : Part) (h : p ≠ .tir) (l : LoadOp) (s : State) (z : State) :
    p.Same z (State.dropLoad l s) ↔ p.Same z s := by
  refine Part.same_iff ?_; unfold State.dropLoad; simp [h]

@[simp] theorem State.stageBytes_same (p : Part) (h : p ≠ .otl) (off : Nat) (data : List Byte) (s : State) (z : State) :
    p.Same z (State.stageBytes off data s) ↔ p.Same z s := by
  refine Part.same_iff ?_; unfold State.stageBytes; split <;> simp [h]

theorem execObjData_same (p : Part) (h : p ≠ .counts ∧ p ≠ .otl ∧ p ≠ .tir ∧ p ≠ .lnw ∧ p ≠ .eth) (sess : Fin 16)
    (offset : Word) (data : List Byte) (s : State) {t : State} :
    execObjData sess offset data s = .next t → p.Same s t := by
  intro g; unfold execObjData at g; injection g with g; subst g; dsimp only
  repeat'
    first
    | (simp [h]; done)
    | intro _
    | split
    | refine (State.request_same _ (by simp [h]) _ _ _ _ ?_).2 ?_
    | simp [h]

@[simp] theorem State.placeLoad_same (p : Part) (h : p ≠ .fresh ∧ p ≠ .counts ∧ p ≠ .cores ∧ p ≠ .jobs ∧ p ≠ .tir ∧ p
    ≠ .chn ∧ p ≠ .lnw ∧ p ≠ .eth) (l : LoadOp) (tag : Word) (p₁ : List Byte) (s : State) (z : State) :
    p.Same z (State.placeLoad l tag p₁ s) ↔ p.Same z s := by
  refine Part.same_iff ?_; unfold State.placeLoad; dsimp only; (repeat' split) <;> simp [h]

theorem execObjLoadEnd_same (p : Part) (h : p ≠ .fresh ∧ p ≠ .counts ∧ p ≠ .otl ∧ p ≠ .cores ∧ p ≠ .jobs ∧ p ≠ .tir ∧
    p ≠ .chn ∧ p ≠ .lnw ∧ p ≠ .eth) (sess : Fin 16) (tag : Word) (crc : Word) (gcmTag : BitVec 128)
    (s : State) {t : State} :
    execObjLoadEnd sess tag crc gcmTag s = .next t → p.Same s t := by
  intro g; unfold execObjLoadEnd at g; injection g with g; subst g; dsimp only
  repeat'
    first
    | (simp [h]; done)
    | intro _
    | split
    | refine (State.request_same _ (by simp [h]) _ _ _ _ ?_).2 ?_
    | simp [h]

@[simp] theorem State.serveRead_same (p : Part) (h : p ≠ .tir ∧ p ≠ .eth) (sess : Nat) (tag : Word) (part : Nat)
    (obj : Word) (ver : Nat) (s : State) (z : State) :
    p.Same z (State.serveRead sess tag part obj ver s) ↔ p.Same z s := by
  refine Part.same_iff ?_; unfold State.serveRead; dsimp only; (repeat' split) <;> simp [h]

theorem execObjRead_same (p : Part) (h : p ≠ .counts ∧ p ≠ .tir ∧ p ≠ .eth) (sess : Fin 16) (tag : Word)
    (obj : Word) (ver : BitVec 16) (s : State) {t : State} :
    execObjRead sess tag obj ver s = .next t → p.Same s t := by
  intro g; unfold execObjRead at g; injection g with g; subst g
  repeat'
    first
    | (simp [h]; done)
    | intro _
    | split
    | refine (State.request_same _ (by simp [h]) _ _ _ _ ?_).2 ?_
    | simp [h]

@[simp] theorem State.pushFrames_same (p : Part) (h : p ≠ .fresh ∧ p ≠ .eth) (tag : Word) (part : Nat) (obj : Word)
    (o : ObjVersion) (s : State) (z : State) :
    p.Same z (State.pushFrames tag part obj o s) ↔ p.Same z s := by
  refine Part.same_iff ?_; unfold State.pushFrames; dsimp only; simp [h]

@[simp] theorem State.servePush_same (p : Part) (h : p ≠ .fresh ∧ p ≠ .tir ∧ p ≠ .eth) (sess : Nat) (tag : Word)
    (part : Nat) (obj : Word) (ver : Nat) (to_ : Nat × Word × Byte) (s : State) (z : State) :
    p.Same z (State.servePush sess tag part obj ver to_ s) ↔ p.Same z s := by
  refine Part.same_iff ?_; unfold State.servePush; (repeat' split) <;> simp [h]

theorem execObjPush_same (p : Part) (h : p ≠ .fresh ∧ p ≠ .counts ∧ p ≠ .tir ∧ p ≠ .eth) (sess : Fin 16)
    (tag : Word) (obj : Word) (ver : BitVec 16) (remotePart : Fin 8) (remoteObj : Word) (remoteStatus : Byte)
    (s : State) {t : State} :
    execObjPush sess tag obj ver remotePart remoteObj remoteStatus s = .next t → p.Same s t := by
  intro g; unfold execObjPush at g; injection g with g; subst g; dsimp only
  repeat'
    first
    | (simp [h]; done)
    | intro _
    | split
    | refine (State.request_same _ (by simp [h]) _ _ _ _ ?_).2 ?_
    | simp [h]

@[simp] theorem State.afterCheck_same (p : Part) (h : p ≠ .fresh ∧ p ≠ .counts ∧ p ≠ .cores ∧ p ≠ .jobs ∧ p ≠ .ctx ∧
    p ≠ .tir ∧ p ≠ .chn ∧ p ≠ .lnw ∧ p ≠ .eth) (w : CheckWait) (s : State) (z : State) :
    p.Same z (State.afterCheck w s) ↔ p.Same z s := by
  refine Part.same_iff ?_; unfold State.afterCheck; dsimp only; (repeat' split) <;> simp [h]

@[simp] theorem State.moveHome_same (p : Part) (h : p ≠ .fresh ∧ p ≠ .counts ∧ p ≠ .cores ∧ p ≠ .jobs ∧ p ≠ .tir ∧ p
    ≠ .chn ∧ p ≠ .lnw) (o : ObjVersion) (s : State) (z : State) :
    p.Same z (State.moveHome o s) ↔ p.Same z s := by
  refine Part.same_iff ?_; unfold State.moveHome; (repeat' split) <;> simp [h]

theorem execReadoptVerifyDone_same (p : Part) (h : p ≠ .fresh ∧ p ≠ .counts ∧ p ≠ .cores ∧ p ≠ .jobs ∧ p ≠ .ctx ∧ p ≠
    .tir ∧ p ≠ .chn ∧ p ≠ .lnw ∧ p ≠ .eth) (part : Fin 8) (obj : Word) (ver : BitVec 16) (crc : Word)
    (s : State) {t : State} :
    execReadoptVerifyDone part obj ver crc s = .next t → p.Same s t := by
  intro g; unfold execReadoptVerifyDone at g; injection g with g; subst g; dsimp only; (repeat' split) <;> simp [h]

end Sys2Proof.Machine
end

