-- ==== Sys2Proof/Laws/FrameBoot.lean ====
section
/-!
SUPPORT. Frames (Laws/Frame.lean): commits, bring-up, seals and registers.
-/

-- One thread elaborates: many small proofs at once would ask for more memory than the check allows.
set_option Elab.async false

namespace Sys2Proof.Machine

open Sys2Proof

set_option linter.unusedTactic false
set_option linter.unreachableTactic false
set_option linter.unnecessarySeqFocus false
set_option linter.unusedSimpArgs false

/-! ### Commit -/

@[simp] theorem State.endJobs_same (p : Part) (h : p ≠ .fresh ∧ p ≠ .counts ∧ p ≠ .cores ∧ p ≠ .jobs ∧ p ≠ .ctx ∧ p ≠
    .tir ∧ p ≠ .chn ∧ p ≠ .lnw ∧ p ≠ .ing ∧ p ≠ .trc ∧ p ≠ .xh ∧ p ≠ .eth ∧ p ≠ .prf ∧ p ≠ .brn) (p₁ : Nat)
    (status : Byte) (s : State) (z : State) :
    p.Same z (State.endJobs p₁ status s) ↔ p.Same z s := by
  refine Part.same_iff ?_; unfold State.endJobs; simp [h]

@[simp] theorem State.releaseContextsOf_same (p : Part) (h : p ≠ .ctx ∧ p ≠ .tir) (p₁ : Nat) (s : State) (z : State) :
    p.Same z (State.releaseContextsOf p₁ s) ↔ p.Same z s := by
  refine Part.same_iff ?_; unfold State.releaseContextsOf; dsimp only; simp [h]

@[simp] theorem State.restartGroup_same (p : Part) (h : p ≠ .sty) (g : Nat) (s : State) (z : State) :
    p.Same z (State.restartGroup g s) ↔ p.Same z s := by
  refine Part.same_iff ?_; unfold State.restartGroup; simp [h]

@[simp] theorem State.clearTracing_same (p : Part) (h : p ≠ .trc) (f : Option FusionRec) (s : State) (z : State) :
    p.Same z (State.clearTracing f s) ↔ p.Same z s := by
  refine Part.same_iff ?_; unfold State.clearTracing; simp [h]

@[simp] theorem State.loadLattice_same (p : Part) (h : p ≠ .xh) (l : Option LatticeRec) (s : State) (z : State) :
    p.Same z (State.loadLattice l s) ↔ p.Same z s := by
  refine Part.same_iff ?_; unfold State.loadLattice; simp [h]

@[simp] theorem State.restartStream_same (p : Part) (h : p ≠ .ing ∧ p ≠ .prf) (n : Nat) (s : State) (z : State) :
    p.Same z (State.restartStream n s) ↔ p.Same z s := by
  refine Part.same_iff ?_; unfold State.restartStream; simp [h]

@[simp] theorem State.resetPartition_same (p : Part) (h : p ≠ .fresh ∧ p ≠ .counts ∧ p ≠ .cores ∧ p ≠ .jobs ∧ p ≠
    .ctx ∧ p ≠ .tir ∧ p ≠ .chn ∧ p ≠ .lnw ∧ p ≠ .ing ∧ p ≠ .trc ∧ p ≠ .xh ∧ p ≠ .sty ∧ p ≠ .eth ∧ p ≠ .prf ∧ p ≠
    .brn) (p₁ : Nat) (s : State) (z : State) :
    p.Same z (State.resetPartition p₁ s) ↔ p.Same z s := by
  refine Part.same_iff ?_; unfold State.resetPartition; dsimp only; (repeat' split) <;> simp [h]

@[simp] theorem State.placeSpare_same (p : Part) (h : p ≠ .cores ∧ p ≠ .clusters) (new : Outline) (kept : List Nat)
    (c : Nat) (s : State) (z : State) :
    p.Same z (State.placeSpare new kept c s) ↔ p.Same z s := by
  refine Part.same_iff ?_; unfold State.placeSpare; dsimp only; (repeat' split) <;> simp [h]

@[simp] theorem State.powerCores_same (p : Part) (h : p ≠ .cores) (new : Outline) (s : State) (z : State) :
    p.Same z (State.powerCores new s) ↔ p.Same z s := by
  refine Part.same_iff ?_; unfold State.powerCores; (repeat' split) <;> simp [h]

@[simp] theorem State.mapParts_same (p : Part) (h : p ≠ .glb ∧ p ≠ .cores ∧ p ≠ .clusters) (new : Outline)
    (keep : Nat → Bool) (s : State) (z : State) :
    p.Same z (State.mapParts new keep s) ↔ p.Same z s := by
  refine Part.same_iff ?_; unfold State.mapParts; dsimp only; simp [h]

@[simp] theorem State.placeEngines_same (p : Part) (h : p ≠ .sty) (new : Outline) (s : State) (z : State) :
    p.Same z (State.placeEngines new s) ↔ p.Same z s := by
  refine Part.same_iff ?_; unfold State.placeEngines; dsimp only; (repeat' split) <;> simp [h]

@[simp] theorem State.placeChannels_same (p : Part) (h : p ≠ .sty) (new : Outline) (s : State) (z : State) :
    p.Same z (State.placeChannels new s) ↔ p.Same z s := by
  refine Part.same_iff ?_; unfold State.placeChannels; dsimp only; (repeat' split) <;> simp [h]

@[simp] theorem State.placeStreams_same (p : Part) (h : p ≠ .ing ∧ p ≠ .prf) (new : Outline) (s : State) (z : State) :
    p.Same z (State.placeStreams new s) ↔ p.Same z s := by
  refine Part.same_iff ?_; unfold State.placeStreams; dsimp only
  repeat'
    first
    | (simp [h]; done)
    | intro _
    | split
    | refine Part.same_foldl ?_ ?_
    | refine (Part.same_foldl_snd _ _ _ _ _ ?_).2 ?_
    | simp [h]

@[simp] theorem State.placePins_same (p : Part) (h : p ≠ .tb) (new : Outline) (s : State) (z : State) :
    p.Same z (State.placePins new s) ↔ p.Same z s := by
  refine Part.same_iff ?_; unfold State.placePins; simp [h]

@[simp] theorem State.placeBudgets_same (p : Part) (h : p ≠ .lnw) (new : Outline) (keep : Nat → Bool) (s : State)
    (z : State) :
    p.Same z (State.placeBudgets new keep s) ↔ p.Same z s := by
  refine Part.same_iff ?_; unfold State.placeBudgets; simp [h]

@[simp] theorem State.changeHome_same (p : Part) (h : p ≠ .fresh ∧ p ≠ .counts ∧ p ≠ .cores ∧ p ≠ .jobs ∧ p ≠ .tir ∧
    p ≠ .chn ∧ p ≠ .lnw) (o : ObjVersion) (s : State) (z : State) :
    p.Same z (State.changeHome o s) ↔ p.Same z s := by
  refine Part.same_iff ?_; unfold State.changeHome; (repeat' split) <;> simp [h]

@[simp] theorem State.changeMirror_same (p : Part) (h : p ≠ .fresh ∧ p ≠ .tir) (o : ObjVersion) (s : State)
    (z : State) :
    p.Same z (State.changeMirror o s) ↔ p.Same z s := by
  refine Part.same_iff ?_; unfold State.changeMirror; dsimp only; (repeat' split) <;> simp [h]

@[simp] theorem State.placeObjects_same (p : Part) (h : p ≠ .fresh ∧ p ≠ .counts ∧ p ≠ .cores ∧ p ≠ .jobs ∧ p ≠ .tir
    ∧ p ≠ .chn ∧ p ≠ .lnw) (new : Outline) (s : State) (z : State) :
    p.Same z (State.placeObjects new s) ↔ p.Same z s := by
  refine Part.same_iff ?_; unfold State.placeObjects; dsimp only; simp [h]

@[simp] theorem State.placeNet_same (p : Part) (h : p ≠ .cores ∧ p ≠ .tir ∧ p ≠ .chn ∧ p ≠ .lnw ∧ p ≠ .eth)
    (new : Outline) (net : Option NetTable) (keep : Nat → Bool) (s : State) (z : State) :
    p.Same z (State.placeNet new net keep s) ↔ p.Same z s := by
  refine Part.same_iff ?_; unfold State.placeNet; dsimp only; (repeat' split) <;> simp [h]

@[simp] theorem State.placePorts_same (p : Part) (h : p ≠ .counts ∧ p ≠ .tb ∧ p ≠ .eth) (s : State) (z : State) :
    p.Same z (State.placePorts s) ↔ p.Same z s := by
  refine Part.same_iff ?_; unfold State.placePorts; dsimp only
  repeat'
    first
    | (simp [h]; done)
    | intro _
    | split
    | refine Part.same_foldl ?_ ?_
    | refine (Part.same_foldl_snd _ _ _ _ _ ?_).2 ?_
    | simp [h]

@[simp] theorem State.placeRules_same (p : Part) (h : p ≠ .prf) (new : Outline) (keep : Nat → Bool) (s : State)
    (z : State) :
    p.Same z (State.placeRules new keep s) ↔ p.Same z s := by
  refine Part.same_iff ?_; unfold State.placeRules; dsimp only; (repeat' split) <;> simp [h]

@[simp] theorem State.placeTable_same (p : Part) (h : p ≠ .rgn ∧ p ≠ .cores ∧ p ≠ .jobs ∧ p ≠ .tir ∧ p ≠ .chn ∧ p ≠
    .lnw ∧ p ≠ .prf) (new : Outline) (keep : Nat → Bool) (s : State) (z : State) :
    p.Same z (State.placeTable new keep s) ↔ p.Same z s := by
  refine Part.same_iff ?_; unfold State.placeTable; dsimp only; (repeat' split) <;> simp [h]

@[simp] theorem State.discardFrames_same (p : Part) (h : p ≠ .counts ∧ p ≠ .eth) (new : Outline) (s : State)
    (z : State) :
    p.Same z (State.discardFrames new s) ↔ p.Same z s := by
  refine Part.same_iff ?_; unfold State.discardFrames; dsimp only
  repeat'
    first
    | (simp [h]; done)
    | intro _
    | split
    | refine Part.same_foldl ?_ ?_
    | refine (Part.same_foldl_snd _ _ _ _ _ ?_).2 ?_
    | simp [h]

@[simp] theorem State.judgeDegraded_same (p : Part) (h : p ≠ .brn) (keep : Nat → Bool) (s : State) (z : State) :
    p.Same z (State.judgeDegraded keep s) ↔ p.Same z s := by
  refine Part.same_iff ?_; unfold State.judgeDegraded; dsimp only; (repeat' split) <;> simp [h]

@[simp] theorem State.install_same (p : Part) (h : p ≠ .fresh ∧ p ≠ .counts ∧ p ≠ .glb ∧ p ≠ .tb ∧ p ≠ .rgn ∧ p ≠
    .otl ∧ p ≠ .cores ∧ p ≠ .clusters ∧ p ≠ .jobs ∧ p ≠ .ctx ∧ p ≠ .tir ∧ p ≠ .chn ∧ p ≠ .lnw ∧ p ≠ .ing ∧ p ≠ .trc ∧
    p ≠ .xh ∧ p ≠ .sty ∧ p ≠ .eth ∧ p ≠ .prf ∧ p ≠ .brn) (new : Outline) (net : Option NetTable) (image : List Word)
    (keep : Nat → Bool) (s : State) (z : State) :
    p.Same z (State.install new net image keep s) ↔ p.Same z s := by
  refine Part.same_iff ?_; unfold State.install; dsimp only; (repeat' split) <;> simp [h]

/-! ### Launch -/

@[simp] theorem State.launchEntry_same (p : Part) (h : p ≠ .fresh ∧ p ≠ .counts ∧ p ≠ .glb ∧ p ≠ .tb ∧ p ≠ .rgn ∧ p ≠
    .cores ∧ p ≠ .clusters ∧ p ≠ .jobs ∧ p ≠ .ctx ∧ p ≠ .tir ∧ p ≠ .chn ∧ p ≠ .lnw ∧ p ≠ .ing ∧ p ≠ .trc ∧ p ≠ .xh ∧
    p ≠ .sty ∧ p ≠ .eth ∧ p ≠ .prf ∧ p ≠ .brn) (i : Nat) (instant : Int) (e : RegEntry) (s : State) (z : State) :
    p.Same z (State.launchEntry i instant e s) ↔ p.Same z s := by
  refine Part.same_iff ?_; unfold State.launchEntry; (repeat' split) <;> simp [h]

@[simp] theorem State.launchLate_same (p : Part) (h : p ≠ .fresh ∧ p ≠ .counts ∧ p ≠ .glb ∧ p ≠ .tb ∧ p ≠ .rgn ∧ p ≠
    .cores ∧ p ≠ .clusters ∧ p ≠ .jobs ∧ p ≠ .ctx ∧ p ≠ .tir ∧ p ≠ .chn ∧ p ≠ .lnw ∧ p ≠ .ing ∧ p ≠ .trc ∧ p ≠ .xh ∧
    p ≠ .sty ∧ p ≠ .eth ∧ p ≠ .prf ∧ p ≠ .brn) (i : Nat) (instant : Int) (e : RegEntry) (s : State) (z : State) :
    p.Same z (State.launchLate i instant e s) ↔ p.Same z s := by
  refine Part.same_iff ?_; unfold State.launchLate; (repeat' split) <;> simp [h]

theorem execCarriedFiringLaunch_same (p : Part) (h : p ≠ .fresh ∧ p ≠ .counts ∧ p ≠ .glb ∧ p ≠ .tb ∧ p ≠ .rgn ∧ p ≠
    .cores ∧ p ≠ .clusters ∧ p ≠ .jobs ∧ p ≠ .ctx ∧ p ≠ .tir ∧ p ≠ .chn ∧ p ≠ .lnw ∧ p ≠ .ing ∧ p ≠ .trc ∧ p ≠ .xh ∧
    p ≠ .sty ∧ p ≠ .eth ∧ p ≠ .prf ∧ p ≠ .brn) (s : State) {t : State} :
    execCarriedFiringLaunch s = .next t → p.Same s t := by
  intro g; unfold execCarriedFiringLaunch at g; injection g with g; subst g; dsimp only; (repeat' split) <;> simp [h]

theorem execDeferredFiringLaunch_same (p : Part) (h : p ≠ .fresh ∧ p ≠ .counts ∧ p ≠ .glb ∧ p ≠ .tb ∧ p ≠ .rgn ∧ p ≠
    .cores ∧ p ≠ .clusters ∧ p ≠ .jobs ∧ p ≠ .ctx ∧ p ≠ .tir ∧ p ≠ .chn ∧ p ≠ .lnw ∧ p ≠ .ing ∧ p ≠ .trc ∧ p ≠ .xh ∧
    p ≠ .sty ∧ p ≠ .eth ∧ p ≠ .prf ∧ p ≠ .brn) (e : BitVec 12) (s : State) {t : State} :
    execDeferredFiringLaunch e s = .next t → p.Same s t := by
  intro g; unfold execDeferredFiringLaunch at g; injection g with g; subst g; (try dsimp only)
  repeat'
    first
    | (simp [h]; done)
    | intro _
    | split
    | refine Part.same_foldl ?_ ?_
    | refine (Part.same_foldl_snd _ _ _ _ _ ?_).2 ?_
    | refine (State.withRoom_same _ (by simp [h]) _ _ _ _ _ _ _ _ _ ?_).2 ?_
    | refine (State.act_same _ _ _ _ _ _ _ _ ?_).2 ?_
    | refine (State.resume_same _ _ _ _ _ _ _ ?_).2 ?_
    | refine (State.request_same _ (by simp [h]) _ _ _ _ ?_).2 ?_
    | refine (State.hint_same _ (by simp [h]) _ _ _ _ _ _ ?_).2 ?_
    | refine (State.ctxCommand_same _ (by simp [h]) _ _ _ _ _ _ ?_).2 ?_
    | refine (State.onContext_same _ _ _ _ _ _ _ ?_).2 ?_
    | refine (State.fire_same _ (by simp [h]) _ _ _ _ _ _ ?_).2 ?_
    | refine (State.bursts_same _ _ _ _ _ _ _ ?_).2 ?_
    | refine (State.withEpilogue_same _ (by simp [h]) _ _ _ _ _ _ _ _ _ ?_).2 ?_
    | simp [h]

/-! ### Epoch -/

@[simp] theorem State.powerBoard_same (p : Part) (h : p ≠ .chn) (s : State) (z : State) :
    p.Same z (State.powerBoard s) ↔ p.Same z s := by
  refine Part.same_iff ?_; unfold State.powerBoard; dsimp only; (repeat' split) <;> simp [h]

@[simp] theorem State.powerUp_same (p : Part) (h : p ≠ .glb ∧ p ≠ .chn ∧ p ≠ .plt) (d : Nat) (s : State) (z : State) :
    p.Same z (State.powerUp d s) ↔ p.Same z s := by
  refine Part.same_iff ?_; unfold State.powerUp; dsimp only; (repeat' split) <;> simp [h]

@[simp] theorem State.clearStylus_same (p : Part) (h : p ≠ .sty) (s : State) (z : State) :
    p.Same z (State.clearStylus s) ↔ p.Same z s := by
  refine Part.same_iff ?_; unfold State.clearStylus; (repeat' split) <;> simp [h]

@[simp] theorem State.clearNet_same (p : Part) (h : p ≠ .counts ∧ p ≠ .tb ∧ p ≠ .eth) (s : State) (z : State) :
    p.Same z (State.clearNet s) ↔ p.Same z s := by
  refine Part.same_iff ?_; unfold State.clearNet; simp [h]

@[simp] theorem State.clearCsi_same (p : Part) (h : p ≠ .ing) (s : State) (z : State) :
    p.Same z (State.clearCsi s) ↔ p.Same z s := by
  refine Part.same_iff ?_; unfold State.clearCsi; (repeat' split) <;> simp [h]

@[simp] theorem State.loseSlice_same (p : Part) (h : p ≠ .fresh ∧ p ≠ .counts ∧ p ≠ .cores ∧ p ≠ .jobs ∧ p ≠ .tir ∧ p
    ≠ .chn ∧ p ≠ .lnw ∧ p ≠ .eth) (l : List ObjVersion) (s z : State) :
    p.Same z (State.loseSlice l s) ↔ p.Same z s := by
  induction l generalizing s with
  | nil => simp [State.loseSlice]
  | cons o l ih =>
    unfold State.loseSlice; dsimp only
    refine (ih _).trans (Part.same_iff ?_); (repeat' split) <;> simp [h]

@[simp] theorem State.powerDown_same (p : Part) (h : p ≠ .fresh ∧ p ≠ .counts ∧ p ≠ .glb ∧ p ≠ .tb ∧ p ≠ .cores ∧ p ≠
    .jobs ∧ p ≠ .ctx ∧ p ≠ .tir ∧ p ≠ .chn ∧ p ≠ .lnw ∧ p ≠ .ing ∧ p ≠ .trc ∧ p ≠ .xh ∧ p ≠ .sty ∧ p ≠ .eth ∧ p ≠
    .prf ∧ p ≠ .brn ∧ p ≠ .plt) (d : Nat) (s : State) (z : State) :
    p.Same z (State.powerDown d s) ↔ p.Same z s := by
  refine Part.same_iff ?_; unfold State.powerDown; dsimp only; (repeat' split) <;> simp [h]

theorem execDomainPowerDown_same (p : Part) (h : p ≠ .fresh ∧ p ≠ .counts ∧ p ≠ .glb ∧ p ≠ .tb ∧ p ≠ .cores ∧ p ≠
    .jobs ∧ p ≠ .ctx ∧ p ≠ .tir ∧ p ≠ .chn ∧ p ≠ .lnw ∧ p ≠ .ing ∧ p ≠ .trc ∧ p ≠ .xh ∧ p ≠ .sty ∧ p ≠ .eth ∧ p ≠
    .prf ∧ p ≠ .brn ∧ p ≠ .plt) (d : Fin 24) (s : State) {t : State} :
    execDomainPowerDown d s = .next t → p.Same s t := by
  intro g; unfold execDomainPowerDown at g; injection g with g; subst g; split <;> simp [h]

theorem execDomainPowerUp_same (p : Part) (h : p ≠ .glb ∧ p ≠ .chn ∧ p ≠ .plt) (d : Fin 24) (s : State) {t : State} :
    execDomainPowerUp d s = .next t → p.Same s t := by
  intro g; unfold execDomainPowerUp at g; injection g with g; subst g; split <;> simp [h]

@[simp] theorem State.powerFor_same (p : Part) (h : p ≠ .glb ∧ p ≠ .rgn ∧ p ≠ .chn ∧ p ≠ .plt) (new : Outline)
    (s : State) (z : State) :
    p.Same z (State.powerFor new s) ↔ p.Same z s := by
  refine Part.same_iff ?_; unfold State.powerFor
  generalize hr : List.foldl _ _ _ = u
  have k : p.Same s u := hr ▸ Part.same_foldl (fun u d => by split <;> simp [h]) (Part.same_refl ..)
  simp [h, k]

@[simp] theorem State.prepare_same (p : Part) (h : p ≠ .glb ∧ p ≠ .rgn ∧ p ≠ .otl ∧ p ≠ .chn ∧ p ≠ .plt)
    (new : Outline) (s : State) (z : State) :
    p.Same z (State.prepare new s) ↔ p.Same z s := by
  refine Part.same_iff ?_; unfold State.prepare; dsimp only; split <;> simp [h]

theorem execCommitPrepare_same (p : Part) (h : p ≠ .glb ∧ p ≠ .rgn ∧ p ≠ .otl ∧ p ≠ .chn ∧ p ≠ .plt)
    (s : State) {t : State} :
    execCommitPrepare s = .next t → p.Same s t := by
  intro g; unfold execCommitPrepare at g; injection g with g; subst g; (repeat' split) <;> simp [h]

@[simp] theorem State.epochReset_same (p : Part) (h : p ≠ .fresh ∧ p ≠ .counts ∧ p ≠ .cores ∧ p ≠ .jobs ∧ p ≠ .ctx ∧
    p ≠ .tir ∧ p ≠ .chn ∧ p ≠ .lnw ∧ p ≠ .ing ∧ p ≠ .trc ∧ p ≠ .xh ∧ p ≠ .eth ∧ p ≠ .prf ∧ p ≠ .brn) (new : Outline)
    (p₁ : Nat) (s : State) (z : State) :
    p.Same z (State.epochReset new p₁ s) ↔ p.Same z s := by
  refine Part.same_iff ?_; unfold State.epochReset; dsimp only; (repeat' split) <;> simp [h]

@[simp] theorem State.coverNew_same (p : Part) (h : p ≠ .cores ∧ p ≠ .prf) (old : Outline) (s : State) (z : State) :
    p.Same z (State.coverNew old s) ↔ p.Same z s := by
  refine Part.same_iff ?_; unfold State.coverNew; dsimp only; (repeat' split) <;> simp [h]

@[simp] theorem State.commitBypass_same (p : Part) (h : p ≠ .eth) (s : State) (z : State) :
    p.Same z (State.commitBypass s) ↔ p.Same z s := by
  refine Part.same_iff ?_; unfold State.commitBypass; (repeat' split) <;> simp [h]

@[simp] theorem State.dropSessions_same (p : Part) (h : p ≠ .jobs ∧ p ≠ .ctx ∧ p ≠ .tir ∧ p ≠ .eth) (s : State)
    (z : State) :
    p.Same z (State.dropSessions s) ↔ p.Same z s := by
  refine Part.same_iff ?_; unfold State.dropSessions; dsimp only
  repeat'
    first
    | (simp [h]; done)
    | intro _
    | split
    | refine Part.same_foldl ?_ ?_
    | refine (Part.same_foldl_snd _ _ _ _ _ ?_).2 ?_
    | simp [h]

@[simp] theorem State.commit_same (p : Part) (h : p ≠ .fresh ∧ p ≠ .counts ∧ p ≠ .glb ∧ p ≠ .tb ∧ p ≠ .rgn ∧ p ≠ .otl
    ∧ p ≠ .cores ∧ p ≠ .clusters ∧ p ≠ .jobs ∧ p ≠ .ctx ∧ p ≠ .tir ∧ p ≠ .chn ∧ p ≠ .lnw ∧ p ≠ .ing ∧ p ≠ .trc ∧ p ≠
    .xh ∧ p ≠ .sty ∧ p ≠ .eth ∧ p ≠ .prf ∧ p ≠ .brn) (new : Outline) (s : State) (z : State) :
    p.Same z (State.commit new s) ↔ p.Same z s := by
  refine Part.same_iff ?_; unfold State.commit; dsimp only; (repeat' split) <;> simp [h]

theorem execEpochCommit_same (p : Part) (h : p ≠ .fresh ∧ p ≠ .counts ∧ p ≠ .glb ∧ p ≠ .tb ∧ p ≠ .rgn ∧ p ≠ .otl ∧ p
    ≠ .cores ∧ p ≠ .clusters ∧ p ≠ .jobs ∧ p ≠ .ctx ∧ p ≠ .tir ∧ p ≠ .chn ∧ p ≠ .lnw ∧ p ≠ .ing ∧ p ≠ .trc ∧ p ≠ .xh
    ∧ p ≠ .sty ∧ p ≠ .eth ∧ p ≠ .prf ∧ p ≠ .brn ∧ p ≠ .plt) (s : State) {t : State} :
    execEpochCommit s = .next t → p.Same s t := by
  intro g; unfold execEpochCommit at g; injection g with g; subst g; dsimp only; (repeat' split) <;> simp [h]

/-! ### Bringup -/

@[simp] theorem State.scheduleReset_same (p : Part) (h : p ≠ .glb) (k : ResetKind) (s : State) (z : State) :
    p.Same z (State.scheduleReset k s) ↔ p.Same z s := by
  refine Part.same_iff ?_; unfold State.scheduleReset; split <;> simp [h]

theorem execGlbResetCold_same (p : Part) (h : p ≠ .glb) (v : Word) (s : State) {t : State} :
    execGlbResetCold v s = .next t → p.Same s t := by
  intro g; unfold execGlbResetCold at g; injection g with g; subst g; split <;> simp [h]

theorem execGlbResetWarm_same (p : Part) (h : p ≠ .glb) (v : Word) (s : State) {t : State} :
    execGlbResetWarm v s = .next t → p.Same s t := by
  intro g; unfold execGlbResetWarm at g; injection g with g; subst g; split <;> simp [h]

theorem execGlbPartReset_same (p : Part) (h : p ≠ .fresh ∧ p ≠ .counts ∧ p ≠ .glb ∧ p ≠ .rgn ∧ p ≠ .otl ∧ p ≠ .cores
    ∧ p ≠ .jobs ∧ p ≠ .ctx ∧ p ≠ .tir ∧ p ≠ .chn ∧ p ≠ .lnw ∧ p ≠ .ing ∧ p ≠ .trc ∧ p ≠ .xh ∧ p ≠ .sty ∧ p ≠ .eth ∧ p
    ≠ .prf ∧ p ≠ .brn) (v : Word) (s : State) {t : State} :
    execGlbPartReset v s = .next t → p.Same s t := by
  intro g; unfold execGlbPartReset at g; injection g with g; subst g; dsimp only; split <;> simp [h]

theorem execPartitionResetDone_same (p : Part) (h : p ≠ .glb) (s : State) {t : State} :
    execPartitionResetDone s = .next t → p.Same s t := by
  intro g; unfold execPartitionResetDone at g; injection g with g; subst g; simp [h]

@[simp] theorem State.toStage_same (p : Part) (h : p ≠ .glb) (b : BootStage) (s : State) (z : State) :
    p.Same z (State.toStage b s) ↔ p.Same z s := by
  refine Part.same_iff ?_; unfold State.toStage; simp [h]

theorem execPllLocked_same (p : Part) (h : p ≠ .glb) (primary : Bool) (standby : Bool) (s : State) {t : State} :
    execPllLocked primary standby s = .next t → p.Same s t := by
  intro g; unfold execPllLocked at g; injection g with g; subst g; (try dsimp only)
  repeat'
    first
    | (simp [h]; done)
    | intro _
    | split
    | refine Part.same_foldl ?_ ?_
    | refine (Part.same_foldl_snd _ _ _ _ _ ?_).2 ?_
    | refine (State.withRoom_same _ (by simp [h]) _ _ _ _ _ _ _ _ _ ?_).2 ?_
    | refine (State.act_same _ _ _ _ _ _ _ _ ?_).2 ?_
    | refine (State.resume_same _ _ _ _ _ _ _ ?_).2 ?_
    | refine (State.request_same _ (by simp [h]) _ _ _ _ ?_).2 ?_
    | refine (State.hint_same _ (by simp [h]) _ _ _ _ _ _ ?_).2 ?_
    | refine (State.ctxCommand_same _ (by simp [h]) _ _ _ _ _ _ ?_).2 ?_
    | refine (State.onContext_same _ _ _ _ _ _ _ ?_).2 ?_
    | refine (State.fire_same _ (by simp [h]) _ _ _ _ _ _ ?_).2 ?_
    | refine (State.bursts_same _ _ _ _ _ _ _ ?_).2 ?_
    | refine (State.withEpilogue_same _ (by simp [h]) _ _ _ _ _ _ _ _ _ ?_).2 ?_
    | simp [h]

theorem execFuseMapLoaded_same (p : Part) (h : p ≠ .glb ∧ p ≠ .cores) (s : State) {t : State} :
    execFuseMapLoaded s = .next t → p.Same s t := by
  intro g; unfold execFuseMapLoaded at g; injection g with g; subst g; dsimp only; (repeat' split) <;> simp [h]

theorem execMbistDone_same (p : Part) (h : p ≠ .glb ∧ p ≠ .cores ∧ p ≠ .brn ∧ p ≠ .plt) (failedCores : List
    (Fin 36)) (failedCtrl : List (Fin 5)) (s : State) {t : State} :
    execMbistDone failedCores failedCtrl s = .next t → p.Same s t := by
  intro g; unfold execMbistDone at g; injection g with g; subst g; dsimp only; (repeat' split) <;> simp [h]

@[simp] theorem State.trainChannel_same (p : Part) (h : p ≠ .fresh ∧ p ≠ .counts ∧ p ≠ .chn) (ch : Channel)
    (logical : BitVec 7) (s : State) (z : State) :
    p.Same z (State.trainChannel ch logical s) ↔ p.Same z s := by
  refine Part.same_iff ?_; unfold State.trainChannel; dsimp only; (repeat' split) <;> simp [h]

@[simp] theorem State.trainAll_same (p : Part) (h : p ≠ .fresh ∧ p ≠ .counts ∧ p ≠ .chn) (s : State) (z : State) :
    p.Same z (State.trainAll s) ↔ p.Same z s := by
  refine Part.same_iff ?_; unfold State.trainAll; dsimp only; simp [h]

@[simp] theorem State.trainFails_same (p : Part) (h : p ≠ .fresh ∧ p ≠ .counts ∧ p ≠ .cores ∧ p ≠ .jobs ∧ p ≠ .ctx ∧
    p ≠ .tir ∧ p ≠ .chn ∧ p ≠ .lnw ∧ p ≠ .ing ∧ p ≠ .trc ∧ p ≠ .xh ∧ p ≠ .eth ∧ p ≠ .prf ∧ p ≠ .brn) (ch : Channel)
    (s : State) (z : State) :
    p.Same z (State.trainFails ch s) ↔ p.Same z s := by
  refine Part.same_iff ?_; unfold State.trainFails; dsimp only; (repeat' split) <;> simp [h]

theorem execTrainingDone_same (p : Part) (h : p ≠ .fresh ∧ p ≠ .counts ∧ p ≠ .glb ∧ p ≠ .cores ∧ p ≠ .jobs ∧ p ≠ .ctx
    ∧ p ≠ .tir ∧ p ≠ .chn ∧ p ≠ .lnw ∧ p ≠ .ing ∧ p ≠ .trc ∧ p ≠ .xh ∧ p ≠ .eth ∧ p ≠ .prf ∧ p ≠ .brn)
    (failed : List Channel) (s : State) {t : State} :
    execTrainingDone failed s = .next t → p.Same s t := by
  intro g; unfold execTrainingDone at g; injection g with g; subst g; dsimp only; split <;> simp [h]

theorem execFirmwareVerified_same (p : Part) (h : p ≠ .glb ∧ p ≠ .prf ∧ p ≠ .sec) (s : State) {t : State} :
    execFirmwareVerified s = .next t → p.Same s t := by
  intro g; unfold execFirmwareVerified at g; injection g with g; subst g; (repeat' split) <;> simp [h]

@[simp] theorem State.recoveryCode_same (p : Part) (h : p ≠ .fresh ∧ p ≠ .otl) (s : State) (z : State) :
    p.Same z (State.recoveryCode s) ↔ p.Same z s := by
  refine Part.same_iff ?_; unfold State.recoveryCode; dsimp only; (repeat' split) <;> simp [h]

@[simp] theorem State.readopt_same (p : Part) (h : p ≠ .tir) (s : State) (z : State) :
    p.Same z (State.readopt s) ↔ p.Same z s := by
  refine Part.same_iff ?_; unfold State.readopt; dsimp only; split <;> simp [h]

@[simp] theorem State.bootInto_same (p : Part) (h : p ≠ .fresh ∧ p ≠ .counts ∧ p ≠ .glb ∧ p ≠ .tb ∧ p ≠ .rgn ∧ p ≠
    .otl ∧ p ≠ .cores ∧ p ≠ .clusters ∧ p ≠ .jobs ∧ p ≠ .ctx ∧ p ≠ .tir ∧ p ≠ .chn ∧ p ≠ .lnw ∧ p ≠ .ing ∧ p ≠ .trc ∧
    p ≠ .xh ∧ p ≠ .sty ∧ p ≠ .eth ∧ p ≠ .prf ∧ p ≠ .brn ∧ p ≠ .sec) (k : Nat) (o : Outline) (net : Option NetTable)
    (ws : List Word) (s : State) (z : State) :
    p.Same z (State.bootInto k o net ws s) ↔ p.Same z s := by
  refine Part.same_iff ?_; unfold State.bootInto; dsimp only; simp [h]

theorem execBootOutlineLoad_same (p : Part) (h : p ≠ .fresh ∧ p ≠ .counts ∧ p ≠ .glb ∧ p ≠ .tb ∧ p ≠ .rgn ∧ p ≠ .otl
    ∧ p ≠ .cores ∧ p ≠ .clusters ∧ p ≠ .jobs ∧ p ≠ .ctx ∧ p ≠ .tir ∧ p ≠ .chn ∧ p ≠ .lnw ∧ p ≠ .ing ∧ p ≠ .trc ∧ p ≠
    .xh ∧ p ≠ .sty ∧ p ≠ .eth ∧ p ≠ .prf ∧ p ≠ .brn ∧ p ≠ .sec) (s : State) {t : State} :
    execBootOutlineLoad s = .next t → p.Same s t := by
  intro g; unfold execBootOutlineLoad at g; injection g with g; subst g; dsimp only; (repeat' split) <;> simp [h]

@[simp] theorem State.startCoverage_same (p : Part) (h : p ≠ .cores ∧ p ≠ .clusters ∧ p ≠ .prf) (s : State)
    (z : State) :
    p.Same z (State.startCoverage s) ↔ p.Same z s := by
  refine Part.same_iff ?_; unfold State.startCoverage; dsimp only
  rw [State.updPrf_same p (by simp [h]), State.updCores_same p (by simp [h])]
  refine Part.same_foldl (fun u a => ?_) (Part.same_refl ..)
  split <;> simp [h]

theorem execJobsReady_same (p : Part) (h : p ≠ .glb ∧ p ≠ .rgn ∧ p ≠ .cores ∧ p ≠ .clusters ∧ p ≠ .prf)
    (s : State) {t : State} :
    execJobsReady s = .next t → p.Same s t := by
  intro g; unfold execJobsReady at g; injection g with g; subst g; split <;> simp [h]

/-! ### Seal -/

@[simp] theorem State.sealOne_same (p : Part) (h : p ≠ .fresh ∧ p ≠ .counts ∧ p ≠ .cores ∧ p ≠ .jobs ∧ p ≠ .tir ∧ p ≠
    .chn ∧ p ≠ .lnw) (j : Job) (o : OutputState) (s : State) (z : State) :
    p.Same z (State.sealOne j o s) ↔ p.Same z s := by
  refine Part.same_iff ?_; unfold State.sealOne; simp [h]

@[simp] theorem State.applyContext_same (p : Part) (h : p ≠ .ctx ∧ p ≠ .tir) (j : Job) (new : Context) (s : State)
    (z : State) :
    p.Same z (State.applyContext j new s) ↔ p.Same z s := by
  refine Part.same_iff ?_; unfold State.applyContext; dsimp only; (repeat' split) <;> simp [h]

@[simp] theorem State.sealContexts_same (p : Part) (h : p ≠ .jobs ∧ p ≠ .ctx ∧ p ≠ .tir) (j : Job) (s : State)
    (z : State) :
    p.Same z (State.sealContexts j s) ↔ p.Same z s := by
  refine Part.same_iff ?_; unfold State.sealContexts; dsimp only; simp [h]

theorem execJobSealEdge_same (p : Part) (h : p ≠ .fresh ∧ p ≠ .counts ∧ p ≠ .cores ∧ p ≠ .jobs ∧ p ≠ .ctx ∧ p ≠ .tir
    ∧ p ≠ .chn ∧ p ≠ .lnw ∧ p ≠ .ing ∧ p ≠ .trc ∧ p ≠ .xh ∧ p ≠ .eth ∧ p ≠ .prf ∧ p ≠ .brn) (job : Word)
    (s : State) {t : State} :
    execJobSealEdge job s = .next t → p.Same s t := by
  intro g; unfold execJobSealEdge at g; injection g with g; subst g; dsimp only; (repeat' split) <;> simp [h]

/-! ### Regs -/

@[simp] theorem State.readEffect_same (p : Part) (h : p ≠ .fresh ∧ p ≠ .tb) (a : Nat) (s : State) (z : State) :
    p.Same z (State.readEffect a s) ↔ p.Same z s := by
  refine Part.same_iff ?_; unfold State.readEffect; dsimp only; (repeat' split) <;> simp [h]

@[simp] theorem State.readWords_same (p : Part) (h : p ≠ .fresh ∧ p ≠ .tb) (viewer : Option Nat) (x1 : Nat) (x2 : Nat)
    (x3 : State) (z : State) :
    p.Same z (State.readWords viewer x1 x2 x3).2.2 ↔ p.Same z x3 := by
  fun_induction State.readWords viewer x1 x2 x3 <;> (repeat' (first | (simp_all; done) | (simp_all +zetaDelta; done) | split))

@[simp] theorem State.after_same (p : Part) (o : Host.Outcome State Fault Refusal) (s z : State)
    (hg : ∀ t, o = .next t → p.Same s t) :
    p.Same z (s.after o) ↔ p.Same z s := by
  refine Part.same_iff ?_; unfold State.after; split
  · exact hg _ rfl
  · simp

@[simp] theorem State.setIf_same (p : Part) (h : p ≠ .regs) (ok : Bool) (f : HostRegs → HostRegs) (s : State)
    (z : State) :
    p.Same z (State.setIf ok f s) ↔ p.Same z s := by
  refine Part.same_iff ?_; unfold State.setIf; split <;> simp [h]

@[simp] theorem State.writeGlb_same (p : Part) (h : p ≠ .fresh ∧ p ≠ .counts ∧ p ≠ .regs ∧ p ≠ .glb ∧ p ≠ .rgn ∧ p ≠
    .otl ∧ p ≠ .cores ∧ p ≠ .jobs ∧ p ≠ .ctx ∧ p ≠ .tir ∧ p ≠ .chn ∧ p ≠ .lnw ∧ p ≠ .ing ∧ p ≠ .trc ∧ p ≠ .xh ∧ p ≠
    .sty ∧ p ≠ .eth ∧ p ≠ .prf ∧ p ≠ .brn) (o : Nat) (v : Word) (s : State) (z : State) :
    p.Same z (State.writeGlb o v s) ↔ p.Same z s := by
  refine Part.same_iff ?_; unfold State.writeGlb; dsimp only
  repeat'
    first
    | (simp [h]; done)
    | intro _
    | split
    | refine (State.after_same _ _ _ _ (fun t g => execGlbResetCold_same p (by simp [h]) _ _ g)).2 ?_
    | refine (State.after_same _ _ _ _ (fun t g => execGlbResetWarm_same p (by simp [h]) _ _ g)).2 ?_
    | refine (State.after_same _ _ _ _ (fun t g => execGlbPartReset_same p (by simp [h]) _ _ g)).2 ?_
    | refine (State.after_same _ _ _ _ (fun t g => execGlbAvsLimit_same p (by simp [h]) _ _ g)).2 ?_
    | refine (State.after_same _ _ _ _ (fun t g => execLockSet_same p (by simp [h]) _ _ _ g)).2 ?_
    | simp [h]

@[simp] theorem State.writeTb_same (p : Part) (h : p ≠ .fresh ∧ p ≠ .counts ∧ p ≠ .regs ∧ p ≠ .tb ∧ p ≠ .rgn ∧ p ≠
    .sty ∧ p ≠ .prf ∧ p ≠ .brn) (o : Nat) (v : Word) (s : State) (z : State) :
    p.Same z (State.writeTb o v s) ↔ p.Same z s := by
  refine Part.same_iff ?_; unfold State.writeTb; dsimp only
  repeat'
    first
    | (simp [h]; done)
    | intro _
    | split
    | refine (State.after_same _ _ _ _ (fun t g => execTbCapture_same p (by simp [h]) _ _ g)).2 ?_
    | refine (State.after_same _ _ _ _ (fun t g => execTbStepAccept_same p (by simp [h]) _ _ g)).2 ?_
    | refine (State.after_same _ _ _ _ (fun t g => execTbSetGo_same p (by simp [h]) _ _ g)).2 ?_
    | refine (State.after_same _ _ _ _ (fun t g => execTbAdj_same p (by simp [h]) _ _ g)).2 ?_
    | refine (State.after_same _ _ _ _ (fun t g => execTbGpioOut_same p (by simp [h]) _ _ g)).2 ?_
    | refine (State.after_same _ _ _ _ (fun t g => execLockSet_same p (by simp [h]) _ _ _ g)).2 ?_
    | refine (State.after_same _ _ _ _ (fun t g => execCntClear_same p (by simp [h]) _ _ _ g)).2 ?_
    | simp [h]

@[simp] theorem State.writeRgn_same (p : Part) (h : p ≠ .counts ∧ p ≠ .rgn) (o : Nat) (v : Word) (s : State)
    (z : State) :
    p.Same z (State.writeRgn o v s) ↔ p.Same z s := by
  refine Part.same_iff ?_; unfold State.writeRgn
  repeat'
    first
    | (simp [h]; done)
    | intro _
    | split
    | refine (State.after_same _ _ _ _ (fun t g => execRgnEntryDisable_same p (by simp [h]) _ _ g)).2 ?_
    | refine (State.after_same _ _ _ _ (fun t g => execRgnEntryEnable_same p (by simp [h]) _ _ g)).2 ?_
    | refine (State.after_same _ _ _ _ (fun t g => execCntClear_same p (by simp [h]) _ _ _ g)).2 ?_
    | simp [h]

@[simp] theorem State.commitTimeWrite_same (p : Part) (h : p ≠ .counts ∧ p ≠ .regs) (f : Compact → Compact)
    (s : State) (z : State) :
    p.Same z (State.commitTimeWrite f s) ↔ p.Same z s := by
  refine Part.same_iff ?_; unfold State.commitTimeWrite; split <;> simp [h]

@[simp] theorem State.writeOtl_same (p : Part) (h : p ≠ .counts ∧ p ≠ .regs ∧ p ≠ .rgn ∧ p ≠ .otl ∧ p ≠ .tir)
    (o : Nat) (v : Word) (s : State) (z : State) :
    p.Same z (State.writeOtl o v s) ↔ p.Same z s := by
  refine Part.same_iff ?_; unfold State.writeOtl
  repeat'
    first
    | (simp [h]; done)
    | intro _
    | split
    | refine (State.after_same _ _ _ _ (fun t g => execOtlStageBegin_same p (by simp [h]) _ _ g)).2 ?_
    | refine (State.after_same _ _ _ _ (fun t g => execOtlValidate_same p (by simp [h]) _ _ g)).2 ?_
    | refine (State.after_same _ _ _ _ (fun t g => execOtlCommitArm_same p (by simp [h]) _ _ g)).2 ?_
    | refine (State.after_same _ _ _ _ (fun t g => execOtlCancel_same p (by simp [h]) _ _ g)).2 ?_
    | refine (State.after_same _ _ _ _ (fun t g => execCntClear_same p (by simp [h]) _ _ _ g)).2 ?_
    | simp [h]

@[simp] theorem State.writeTir_same (p : Part) (h : p ≠ .counts ∧ p ≠ .regs ∧ p ≠ .tir) (o : Nat) (v : Word)
    (s : State) (z : State) :
    p.Same z (State.writeTir o v s) ↔ p.Same z s := by
  refine Part.same_iff ?_; unfold State.writeTir
  repeat'
    first
    | (simp [h]; done)
    | intro _
    | split
    | refine (State.after_same _ _ _ _ (fun t g => execCntClear_same p (by simp [h]) _ _ _ g)).2 ?_
    | simp [h]

@[simp] theorem State.writeChn_same (p : Part) (h : p ≠ .counts ∧ p ≠ .chn) (o : Nat) (v : Word) (s : State)
    (z : State) :
    p.Same z (State.writeChn o v s) ↔ p.Same z s := by
  refine Part.same_iff ?_; unfold State.writeChn
  repeat'
    first
    | (simp [h]; done)
    | intro _
    | split
    | refine (State.after_same _ _ _ _ (fun t g => execChnRetrain_same p (by simp [h]) _ _ g)).2 ?_
    | refine (State.after_same _ _ _ _ (fun t g => execCntClear_same p (by simp [h]) _ _ _ g)).2 ?_
    | simp [h]

@[simp] theorem State.writeLnw_same (p : Part) (h : p ≠ .counts ∧ p ≠ .regs ∧ p ≠ .lnw) (o : Nat) (v : Word)
    (s : State) (z : State) :
    p.Same z (State.writeLnw o v s) ↔ p.Same z s := by
  refine Part.same_iff ?_; unfold State.writeLnw
  repeat'
    first
    | (simp [h]; done)
    | intro _
    | split
    | refine (State.after_same _ _ _ _ (fun t g => execCntClear_same p (by simp [h]) _ _ _ g)).2 ?_
    | refine (State.after_same _ _ _ _ (fun t g => execLnwBudget_same p (by simp [h]) _ _ _ g)).2 ?_
    | simp [h]

@[simp] theorem State.writeIng_same (p : Part) (h : p ≠ .counts ∧ p ≠ .ing) (o : Nat) (v : Word) (s : State)
    (z : State) :
    p.Same z (State.writeIng o v s) ↔ p.Same z s := by
  refine Part.same_iff ?_; unfold State.writeIng
  repeat'
    first
    | (simp [h]; done)
    | intro _
    | split
    | refine (State.after_same _ _ _ _ (fun t g => execCntClear_same p (by simp [h]) _ _ _ g)).2 ?_
    | simp [h]

@[simp] theorem State.writeTrc_same (p : Part) (h : p ≠ .counts ∧ p ≠ .trc) (o : Nat) (v : Word) (s : State)
    (z : State) :
    p.Same z (State.writeTrc o v s) ↔ p.Same z s := by
  refine Part.same_iff ?_; unfold State.writeTrc
  repeat'
    first
    | (simp [h]; done)
    | intro _
    | split
    | refine (State.after_same _ _ _ _ (fun t g => execCntClear_same p (by simp [h]) _ _ _ g)).2 ?_
    | refine (State.after_same _ _ _ _ (fun t g => execTrcEgoCapture_same p (by simp [h]) _ _ g)).2 ?_
    | simp [h]

@[simp] theorem State.writeEth_same (p : Part) (h : p ≠ .counts ∧ p ≠ .regs ∧ p ≠ .eth) (o : Nat) (v : Word)
    (s : State) (z : State) :
    p.Same z (State.writeEth o v s) ↔ p.Same z s := by
  refine Part.same_iff ?_; unfold State.writeEth; dsimp only
  repeat'
    first
    | (simp [h]; done)
    | intro _
    | split
    | refine (State.after_same _ _ _ _ (fun t g => execCntClear_same p (by simp [h]) _ _ _ g)).2 ?_
    | simp [h]

@[simp] theorem State.writeBrn_same (p : Part) (h : p ≠ .counts ∧ p ≠ .brn) (o : Nat) (v : Word) (s : State)
    (z : State) :
    p.Same z (State.writeBrn o v s) ↔ p.Same z s := by
  refine Part.same_iff ?_; unfold State.writeBrn
  repeat'
    first
    | (simp [h]; done)
    | intro _
    | split
    | refine (State.after_same _ _ _ _ (fun t g => execBrnLogPop_same p (by simp [h]) _ _ g)).2 ?_
    | refine (State.after_same _ _ _ _ (fun t g => execCntClear_same p (by simp [h]) _ _ _ g)).2 ?_
    | simp [h]

@[simp] theorem State.writeSec_same (p : Part) (h : p ≠ .regs ∧ p ≠ .sec) (o : Nat) (v : Word) (s : State) (z : State) :
    p.Same z (State.writeSec o v s) ↔ p.Same z s := by
  refine Part.same_iff ?_; unfold State.writeSec; dsimp only
  repeat'
    first
    | (simp [h]; done)
    | intro _
    | split
    | refine (State.after_same _ _ _ _ (fun t g => execSecLockAdvance_same p (by simp [h]) _ _ g)).2 ?_
    | refine (State.after_same _ _ _ _ (fun t g => execSecKeyInstall_same p (by simp [h]) _ _ g)).2 ?_
    | refine (State.after_same _ _ _ _ (fun t g => execSecRevoke_same p (by simp [h]) _ _ g)).2 ?_
    | refine (State.after_same _ _ _ _ (fun t g => execSecRollbackCommit_same p (by simp [h]) _ _ g)).2 ?_
    | refine (State.after_same _ _ _ _ (fun t g => execSecBootWriteFirmware_same p (by simp [h]) _ _ g)).2 ?_
    | refine (State.after_same _ _ _ _ (fun t g => execSecBootWriteOutline_same p (by simp [h]) _ _ g)).2 ?_
    | simp [h]

@[simp] theorem State.writeCtx_same (p : Part) (h : p ≠ .counts ∧ p ≠ .ctx) (o : Nat) (v : Word) (s : State)
    (z : State) :
    p.Same z (State.writeCtx o v s) ↔ p.Same z s := by
  refine Part.same_iff ?_; unfold State.writeCtx
  repeat'
    first
    | (simp [h]; done)
    | intro _
    | split
    | refine (State.after_same _ _ _ _ (fun t g => execCntClear_same p (by simp [h]) _ _ _ g)).2 ?_
    | simp [h]

@[simp] theorem State.writeReg_same (p : Part) (h : p ≠ .fresh ∧ p ≠ .counts ∧ p ≠ .regs ∧ p ≠ .glb ∧ p ≠ .tb ∧ p ≠
    .rgn ∧ p ≠ .otl ∧ p ≠ .cores ∧ p ≠ .jobs ∧ p ≠ .ctx ∧ p ≠ .tir ∧ p ≠ .chn ∧ p ≠ .lnw ∧ p ≠ .ing ∧ p ≠ .trc ∧ p ≠
    .xh ∧ p ≠ .sty ∧ p ≠ .eth ∧ p ≠ .prf ∧ p ≠ .brn ∧ p ≠ .sec) (b : Block) (o : Nat) (v : Word) (s : State)
    (z : State) :
    p.Same z (State.writeReg b o v s) ↔ p.Same z s := by
  refine Part.same_iff ?_; unfold State.writeReg
  repeat'
    first
    | (simp [h]; done)
    | intro _
    | split
    | refine (State.after_same _ _ _ _ (fun t g => execCntClear_same p (by simp [h]) _ _ _ g)).2 ?_
    | refine (State.after_same _ _ _ _ (fun t g => execCntClear_same p (by simp [h]) _ _ _ g)).2 ?_
    | refine (State.after_same _ _ _ _ (fun t g => execCntClear_same p (by simp [h]) _ _ _ g)).2 ?_
    | refine (State.after_same _ _ _ _ (fun t g => execCntClear_same p (by simp [h]) _ _ _ g)).2 ?_
    | refine (State.after_same _ _ _ _ (fun t g => execPrfRelease_same p (by simp [h]) _ _ g)).2 ?_
    | simp [h]

@[simp] theorem State.writeWords_same (p : Part) (h : p ≠ .fresh ∧ p ≠ .counts ∧ p ≠ .regs ∧ p ≠ .glb ∧ p ≠ .tb ∧ p ≠
    .rgn ∧ p ≠ .otl ∧ p ≠ .cores ∧ p ≠ .jobs ∧ p ≠ .ctx ∧ p ≠ .tir ∧ p ≠ .chn ∧ p ≠ .lnw ∧ p ≠ .ing ∧ p ≠ .trc ∧ p ≠
    .xh ∧ p ≠ .sty ∧ p ≠ .eth ∧ p ≠ .prf ∧ p ≠ .brn ∧ p ≠ .sec) (x1 : List Word) (x2 : Nat) (x3 : State) (z : State) :
    p.Same z (State.writeWords x1 x2 x3).2.2 ↔ p.Same z x3 := by
  induction x1 generalizing x2 x3 with
  | nil => exact Iff.rfl
  | cons v l ih =>
    unfold State.writeWords
    split
    · split
      · exact Iff.rfl
      · exact (ih _ _).trans (State.writeReg_same p h _ _ _ _ _)
    · exact Iff.rfl

theorem execRegRead_same (p : Part) (h : p ≠ .fresh ∧ p ≠ .counts ∧ p ≠ .tb ∧ p ≠ .eth) (sess : Fin 16) (tag : Word)
    (addr : Word) (count : Nat) (s : State) {t : State} :
    execRegRead sess tag addr count s = .next t → p.Same s t := by
  intro g; unfold execRegRead at g; injection g with g; subst g; dsimp only; (repeat' split) <;> simp [h]

theorem execRegWrite_same (p : Part) (h : p ≠ .fresh ∧ p ≠ .counts ∧ p ≠ .regs ∧ p ≠ .glb ∧ p ≠ .tb ∧ p ≠ .rgn ∧ p ≠
    .otl ∧ p ≠ .cores ∧ p ≠ .jobs ∧ p ≠ .ctx ∧ p ≠ .tir ∧ p ≠ .chn ∧ p ≠ .lnw ∧ p ≠ .ing ∧ p ≠ .trc ∧ p ≠ .xh ∧ p ≠
    .sty ∧ p ≠ .eth ∧ p ≠ .prf ∧ p ≠ .brn ∧ p ≠ .sec) (sess : Fin 16) (tag : Word) (addr : Word)
    (values : List Word) (s : State) {t : State} :
    execRegWrite sess tag addr values s = .next t → p.Same s t := by
  intro g; unfold execRegWrite at g; injection g with g; subst g; dsimp only
  repeat'
    first
    | (simp [h]; done)
    | intro _
    | split
    | refine (State.request_same _ (by simp [h]) _ _ _ _ ?_).2 ?_
    | simp [h]

/-! ### Tick -/

@[simp] theorem State.edgeAdvance_same (p : Part) (h : p ≠ .edge ∧ p ≠ .tb ∧ p ≠ .rgn) (s : State) (z : State) :
    p.Same z (State.edgeAdvance s) ↔ p.Same z s := by
  refine Part.same_iff ?_; cases p <;> simp_all [State.edgeAdvance, Part.Same]

@[simp] theorem State.readTemp_same (p : Part) (h : p ≠ .fresh ∧ p ≠ .glb) (s : State) (z : State) :
    p.Same z (State.readTemp s) ↔ p.Same z s := by
  unfold State.readTemp; dsimp only
  split
  · refine Part.same_iff ?_; cases p <;> simp_all [Part.Same]
  · exact Iff.rfl

@[simp] theorem State.applyChanges_same (p : Part) (h : p ≠ .rgn) (s : State) (z : State) :
    p.Same z (State.applyChanges s) ↔ p.Same z s := by
  refine Part.same_iff ?_; unfold State.applyChanges; dsimp only; (repeat' split) <;> simp [h]

end Sys2Proof.Machine
end

