-- ==== Sys2Proof/Laws/Firing.lean ====
section
/-!
SUPPORT. What a firing that may launch comes to (R56, R57): its target acts on a state in which only the launch place
has been taken.
-/

-- One thread elaborates: many small proofs at once would ask for more memory than the check allows.
set_option Elab.async false

namespace Sys2Proof.Machine

open Sys2Proof

/-- The state in which a launch of entry `i` acts. -/
def State.placeTaken (i : Nat) (s : State) : State :=
  ((if s.rgn.deferred.contains i then s.bump .rgnLateDrop else s)).updRgn (Rgn.launched i)

theorem State.fire_launches {s : State} {tgt i : Nat} {e : RegEntry} (h : s.Launches tgt i e)
    (busy : RegEntry → Bool) (hb : busy e = false) (go : RegEntry → State → State) :
    s.fire tgt i busy go = go e (s.placeTaken i) := by
  unfold State.fire State.placeTaken State.dropDeferred
  have hp : ¬ (e.target != 6 && e.target != 9 && s.resetting e.part) = true := by
    rw [h.target]
    rcases h.part with g | g | g <;> simp [g]
  have hpl : ¬ 4 ≤ s.rgn.launches := Nat.not_le.2 h.place
  have h0 : ¬ (!s.launching || !e.valid || e.target != tgt || s.rgn.disabled.contains i) = true := by
    simp [h.launching, h.valid, h.target, h.enabled]
  rw [h.entry]
  simp only [h0, hp, hpl, hb, if_false, Bool.false_eq_true]
  split
  · rfl
  · rename_i g
    have hf : s.rgn.deferred.filter (· != i) = s.rgn.deferred := by
      refine List.filter_eq_self.2 fun x hx => ?_
      have : x ≠ i := fun hi => g (by simpa [hi] using hx)
      simpa using this
    congr 1
    simp only [State.updRgn, Rgn.launched, hf]

@[simp] theorem State.placeTaken_same (p : Part) (h : p ≠ .counts ∧ p ≠ .rgn) (i : Nat) (s z : State) :
    p.Same z (s.placeTaken i) ↔ p.Same z s := by
  refine Part.same_iff ?_; unfold State.placeTaken; split <;> simp [h]

@[simp] theorem State.placeTaken_rgn (i : Nat) (s : State) : (s.placeTaken i).rgn = s.rgn.launched i := by
  unfold State.placeTaken; split <;> simp

@[simp] theorem State.placeTaken_edge (i : Nat) (s : State) : (s.placeTaken i).edge = s.edge :=
  (State.placeTaken_same .edge (by simp) i s s).2 rfl
@[simp] theorem State.placeTaken_tb (i : Nat) (s : State) : (s.placeTaken i).tb = s.tb :=
  (State.placeTaken_same .tb (by simp) i s s).2 rfl
@[simp] theorem State.placeTaken_otl (i : Nat) (s : State) : (s.placeTaken i).otl = s.otl :=
  (State.placeTaken_same .otl (by simp) i s s).2 rfl
@[simp] theorem State.placeTaken_jobs (i : Nat) (s : State) : (s.placeTaken i).jobs = s.jobs :=
  (State.placeTaken_same .jobs (by simp) i s s).2 rfl
@[simp] theorem State.placeTaken_tir (i : Nat) (s : State) : (s.placeTaken i).tir = s.tir :=
  (State.placeTaken_same .tir (by simp) i s s).2 rfl
@[simp] theorem State.placeTaken_glb (i : Nat) (s : State) : (s.placeTaken i).glb = s.glb :=
  (State.placeTaken_same .glb (by simp) i s s).2 rfl
@[simp] theorem State.placeTaken_eth (i : Nat) (s : State) : (s.placeTaken i).eth = s.eth :=
  (State.placeTaken_same .eth (by simp) i s s).2 rfl
@[simp] theorem State.placeTaken_prf (i : Nat) (s : State) : (s.placeTaken i).prf = s.prf :=
  (State.placeTaken_same .prf (by simp) i s s).2 rfl
@[simp] theorem State.placeTaken_sty (i : Nat) (s : State) : (s.placeTaken i).sty = s.sty :=
  (State.placeTaken_same .sty (by simp) i s s).2 rfl
@[simp] theorem State.placeTaken_cores (i : Nat) (s : State) : (s.placeTaken i).cores = s.cores :=
  (State.placeTaken_same .cores (by simp) i s s).2 rfl
@[simp] theorem State.placeTaken_clusters (i : Nat) (s : State) : (s.placeTaken i).clusters = s.clusters :=
  (State.placeTaken_same .clusters (by simp) i s s).2 rfl

end Sys2Proof.Machine
end

