-- ==== Sys2Proof/Laws/Mem.lean ====
section
/-!
SUPPORT. The canonical form of a memory is kept by every memory operation, and what a byte reads as after a write.
-/

-- One thread elaborates: many small proofs at once would ask for more memory than the check allows.
set_option Elab.async false

namespace Sys2Proof.Machine

open Sys2Proof

/-- The canonical form, said of the list as a whole. -/
theorem Memory.wf_iff (m : Memory) :
    Memory.wf m = true ↔ m.Pairwise (fun c d => c.1 < d.1) ∧ ∀ c ∈ m, c.2 ≠ 0 := by
  induction m with
  | nil => simp [Memory.wf]
  | cons c r ih =>
    obtain ⟨a, b⟩ := c
    cases r with
    | nil => simp [Memory.wf]
    | cons d r =>
      obtain ⟨a', b'⟩ := d
      simp only [Memory.wf, Bool.and_eq_true, bne_iff_ne, ne_eq, decide_eq_true_eq, ih]
      simp only [List.pairwise_cons, List.mem_cons, forall_eq_or_imp]
      constructor
      · rintro ⟨hb, hlt, ⟨⟨h1, h2⟩, h3, h4⟩⟩
        exact ⟨⟨⟨hlt, fun x hx => Nat.lt_trans hlt (h1 x hx)⟩, h1, h2⟩, hb, h3, h4⟩
      · rintro ⟨⟨⟨hlt, _⟩, h1, h2⟩, hb, h3, h4⟩
        exact ⟨hb, hlt, ⟨h1, h2⟩, h3, h4⟩

/-- Filtering keeps the canonical form. -/
theorem Memory.filter_wf {m : Memory} (p : Nat × Byte → Bool) (h : Memory.wf m = true) :
    Memory.wf (m.filter p) = true := by
  rw [Memory.wf_iff] at *
  exact ⟨h.1.sublist List.filter_sublist, fun c hc => h.2 c (List.mem_of_mem_filter hc)⟩

theorem Memory.truncate_wf {m : Memory} (n : Nat) (h : Memory.wf m = true) :
    Memory.wf (Memory.truncate m n) = true := Memory.filter_wf _ h

theorem Memory.clear_wf {m : Memory} (a n : Nat) (h : Memory.wf m = true) :
    Memory.wf (Memory.clear m a n) = true := Memory.filter_wf _ h

/-- A write lists only the address written and addresses that were listed. -/
theorem Memory.mem_write {m : Memory} {a : Nat} {b : Byte} {c : Nat × Byte} (h : c ∈ Memory.write m a b) :
    c ∈ m ∨ c = (a, b) ∧ b ≠ 0 := by
  induction m with
  | nil =>
    unfold Memory.write at h
    split at h
    · cases h
    · rename_i hb; exact .inr ⟨by simpa using h, hb⟩
  | cons d r ih =>
    obtain ⟨x, y⟩ := d
    unfold Memory.write at h
    split at h
    · split at h
      · exact .inl h
      · rename_i hb
        rcases List.mem_cons.1 h with g | g
        · exact .inr ⟨g, hb⟩
        · exact .inl g
    · split at h
      · split at h
        · exact .inl (List.mem_cons_of_mem _ h)
        · rename_i hb
          rcases List.mem_cons.1 h with g | g
          · exact .inr ⟨g, hb⟩
          · exact .inl (List.mem_cons_of_mem _ g)
      · rcases List.mem_cons.1 h with g | g
        · exact .inl (g ▸ List.mem_cons_self)
        · exact (ih g).imp (List.mem_cons_of_mem _) id

theorem Memory.write_wf {m : Memory} (a : Nat) (b : Byte) (h : Memory.wf m = true) :
    Memory.wf (Memory.write m a b) = true := by
  induction m with
  | nil => unfold Memory.write; split <;> simp_all [Memory.wf]
  | cons d r ih =>
    obtain ⟨x, y⟩ := d
    rw [Memory.wf_iff, List.pairwise_cons] at h
    obtain ⟨⟨hx, hp⟩, hn⟩ := h
    have hr : Memory.wf r = true := (Memory.wf_iff r).2 ⟨hp, fun c hc => hn c (List.mem_cons_of_mem _ hc)⟩
    unfold Memory.write
    rw [Memory.wf_iff]
    split
    · rename_i hlt
      split
      · exact ⟨List.pairwise_cons.2 ⟨hx, hp⟩, hn⟩
      · rename_i hb
        refine ⟨List.pairwise_cons.2 ⟨fun c hc => ?_, List.pairwise_cons.2 ⟨hx, hp⟩⟩, ?_⟩
        · rcases List.mem_cons.1 hc with g | g
          · exact g ▸ hlt
          · exact Nat.lt_trans hlt (hx c g)
        · intro c hc
          rcases List.mem_cons.1 hc with g | g
          · exact g ▸ hb
          · exact hn c g
    · rename_i hge
      split
      · rename_i he
        split
        · exact (Memory.wf_iff r).1 hr
        · rename_i hb
          refine ⟨List.pairwise_cons.2 ⟨fun c hc => he ▸ hx c hc, hp⟩, fun c hc => ?_⟩
          rcases List.mem_cons.1 hc with g | g
          · exact g ▸ hb
          · exact hn c (List.mem_cons_of_mem _ g)
      · rename_i hne
        have hw := (Memory.wf_iff _).1 (ih hr)
        refine ⟨List.pairwise_cons.2 ⟨fun c hc => ?_, hw.1⟩, fun c hc => ?_⟩
        · have hlt : x < a := by omega
          rcases Memory.mem_write hc with g | ⟨g, _⟩
          · exact hx c g
          · rw [g]; exact hlt
        · rcases List.mem_cons.1 hc with g | g
          · exact hn c (g ▸ List.mem_cons_self)
          · exact hw.2 c g

theorem Memory.writeBytes_wf (bs : List Byte) : ∀ {m : Memory} (a : Nat), Memory.wf m = true →
    Memory.wf (Memory.writeBytes m a bs) = true := by
  induction bs with
  | nil => exact fun a h => h
  | cons b bs ih => exact fun a h => ih (a + 1) (Memory.write_wf a b h)

theorem Memory.ofBytes_wf (bs : List Byte) : Memory.wf (Memory.ofBytes bs) = true :=
  Memory.writeBytes_wf bs 0 rfl

@[simp] theorem Memory.read_nil (a : Nat) : Memory.read [] a = 0 := rfl

/-- A byte below every listed address reads 0. -/
theorem Memory.read_below {m : Memory} {a : Nat} (h : ∀ c ∈ m, a < c.1) : Memory.read m a = 0 := by
  induction m with
  | nil => rfl
  | cons c r ih =>
    obtain ⟨x, y⟩ := c
    have hx : a < x := h (x, y) List.mem_cons_self
    have hb : (a == x) = false := by simp; omega
    have := ih fun c hc => h c (List.mem_cons_of_mem _ hc)
    unfold Memory.read at *
    rw [List.lookup_cons, hb]; exact this

/-- What a byte reads as after a write of one. -/
theorem Memory.read_write {m : Memory} (a : Nat) (b : Byte) (x : Nat) (h : Memory.wf m = true) :
    Memory.read (Memory.write m a b) x = if x = a then b else Memory.read m x := by
  induction m with
  | nil =>
    unfold Memory.write
    by_cases hb : b = 0
    · rw [if_pos hb, Memory.read_nil, hb]; split <;> rfl
    · rw [if_neg hb]; unfold Memory.read; rw [List.lookup_cons]
      by_cases hx : x = a
      · simp [hx]
      · have : (x == a) = false := by simpa using hx
        simp [this, hx]
  | cons d r ih =>
    obtain ⟨k, y⟩ := d
    have hw := (Memory.wf_iff _).1 h
    have hk := (List.pairwise_cons.1 hw.1).1
    have hr : Memory.wf r = true :=
      (Memory.wf_iff r).2 ⟨(List.pairwise_cons.1 hw.1).2, fun c hc => hw.2 c (List.mem_cons_of_mem _ hc)⟩
    have hbelow : ∀ z, z < k → Memory.read ((k, y) :: r) z = 0 := fun z hz => Memory.read_below fun c hc => by
      rcases List.mem_cons.1 hc with g | g
      · exact g ▸ hz
      · exact Nat.lt_trans hz (hk c g)
    have hcons : ∀ (l : Memory) (j : Nat) (v : Byte) (z : Nat),
        Memory.read ((j, v) :: l) z = if z = j then v else Memory.read l z := by
      intro l j v z
      unfold Memory.read; rw [List.lookup_cons]
      by_cases hz : z = j
      · simp [hz]
      · have : (z == j) = false := by simpa using hz
        simp [this, hz]
    unfold Memory.write
    split
    · rename_i hlt
      split
      · rename_i hb
        split
        · rename_i hx; rw [hx, hb]; exact hbelow a hlt
        · rfl
      · rw [hcons]
    · split
      · rename_i he
        subst he
        split
        · rename_i hb
          rw [hcons r a y x]
          split
          · rename_i hx; rw [hx, hb]; exact Memory.read_below fun c hc => hk c hc
          · rfl
        · rw [hcons, hcons r a y x]; split <;> rfl
      · rename_i hne
        rw [hcons, hcons r k y x, ih hr]
        by_cases h1 : x = k
        · have : ¬ x = a := by omega
          simp [h1, show ¬ k = a by omega]
        · simp [h1]

end Sys2Proof.Machine
end

