-- ==== Sys2Proof/Laws/Registers.lean ====
section
/-!
SUPPORT. What any command may do to the registers of the host (R485, R489): the ranges hold on, and what a set lock
protects does not change. One lemma for each operation that writes one of them.
-/

-- One thread elaborates: many small proofs at once would ask for more memory than the check allows.
set_option Elab.async false

namespace Sys2Proof.Machine

open Sys2Proof

set_option linter.unusedTactic false
set_option linter.unreachableTactic false

/-- A change of the registers that the manual allows. -/
structure HostRegs.Allows (r q : HostRegs) : Prop where
  range : r.InRange → q.InRange
  tb : r.tbLock = true → r.TbLocked q
  glb : r.glbLock = true → r.GlbLocked q

theorem HostRegs.Allows.refl (r : HostRegs) : r.Allows r :=
  ⟨id, fun h => ⟨h, rfl, rfl, rfl, rfl, rfl, rfl⟩, fun h => ⟨h, rfl, rfl⟩⟩

theorem HostRegs.Allows.trans {r q u : HostRegs} (a : r.Allows q) (b : q.Allows u) : r.Allows u where
  range h := b.range (a.range h)
  tb h := by
    have x := a.tb h; have y := b.tb x.tbLock
    exact ⟨y.1, y.2.trans x.2, y.3.trans x.3, y.4.trans x.4, y.5.trans x.5, y.6.trans x.6, y.7.trans x.7⟩
  glb h := by
    have x := a.glb h; have y := b.glb x.glbLock
    exact ⟨y.1, y.2.trans x.2, y.3.trans x.3⟩

theorem HostRegs.Allows.of_same {s t : State} (h : Part.regs.Same s t) : s.regs.Allows t.regs := by
  rw [show t.regs = s.regs from h]; exact .refl _

/-- A write of fields that no range and no lock concerns. -/
theorem HostRegs.allows_free {r q : HostRegs} (h1 : q.avsMin = r.avsMin) (h2 : q.avsMax = r.avsMax)
    (h3 : q.glbLock = r.glbLock) (h4 : q.syncThresh = r.syncThresh) (h5 : q.stepLimit = r.stepLimit)
    (h6 : q.setNs.toNat < 1000000000 ∨ q.setNs = r.setNs) (h7 : q.ppsOutEn = r.ppsOutEn)
    (h8 : q.ppsInMode = r.ppsInMode) (h9 : q.ppsWidth = r.ppsWidth) (h10 : q.gpioFilter = r.gpioFilter)
    (h11 : q.tbLock = r.tbLock) (h12 : q.readahead = r.readahead)
    (h13 : 100 ≤ q.limRto.toNat ∧ q.limRto.toNat ≤ 100000 ∨ q.limRto = r.limRto)
    (h14 : 1 ≤ q.lead.toNat ∧ q.lead.toNat ≤ 10 ∨ q.lead = r.lead) : r.Allows q where
  range h := ⟨h1 ▸ h.1, h1 ▸ h2 ▸ h.2, h2 ▸ h.3, h4 ▸ h.4, h5 ▸ h.5, h6.elim id (· ▸ h.6), h9 ▸ h.7, h12 ▸ h.8,
    h12 ▸ h.9, h13.elim id (· ▸ h.10), h14.elim id (· ▸ h.11)⟩
  tb h := ⟨h11 ▸ h, h4, h5, h7, h8, h9, h10⟩
  glb h := ⟨h3 ▸ h, h1, h2⟩

theorem State.after_allows {o : Host.Outcome State Fault Refusal} {s : State}
    (h : ∀ t, o = .next t → s.regs.Allows t.regs) : s.regs.Allows (s.after o).regs := by
  unfold State.after; split
  · exact h _ rfl
  · exact .refl _

theorem execLockSet_allows (b : Block) (v : Word) {s t : State} (h : execLockSet b v s = .next t) :
    s.regs.Allows t.regs := by
  unfold execLockSet at h; injection h with h; subst h
  split
  · exact .refl _
  · split
    · exact ⟨fun h => ⟨h.1, h.2, h.3, h.4, h.5, h.6, h.7, h.8, h.9, h.10, h.11⟩,
        fun h => ⟨h, rfl, rfl, rfl, rfl, rfl, rfl⟩, fun _ => ⟨rfl, rfl, rfl⟩⟩
    · exact ⟨fun h => ⟨h.1, h.2, h.3, h.4, h.5, h.6, h.7, h.8, h.9, h.10, h.11⟩,
        fun _ => ⟨rfl, rfl, rfl, rfl, rfl, rfl, rfl⟩, fun h => ⟨h, rfl, rfl⟩⟩
    · exact .refl _

theorem toNat_ofNat_le {w n m : Nat} (h : n ≤ m) (hm : m < 2 ^ w) : (BitVec.ofNat w n).toNat = n := by
  rw [BitVec.toNat_ofNat, Nat.mod_eq_of_lt (Nat.lt_of_le_of_lt h hm)]

theorem execGlbAvsLimit_allows (v : Word) {s t : State} (h : execGlbAvsLimit v s = .next t) :
    s.regs.Allows t.regs := by
  unfold execGlbAvsLimit at h; injection h with h; subst h
  split
  · exact .refl _
  · rename_i g
    simp only [not_or, Bool.not_eq_true, Nat.not_lt] at g
    obtain ⟨g0, g1, g2, g3⟩ := g
    have e1 : (BitVec.ofNat 10 (fld v 9 0)).toNat = fld v 9 0 := toNat_ofNat_le (le_trans g1 g3) (by norm_num)
    have e2 : (BitVec.ofNat 10 (fld v 25 16)).toNat = fld v 25 16 := toNat_ofNat_le g3 (by norm_num)
    refine ⟨fun h => ⟨?_, ?_, ?_, h.4, h.5, h.6, h.7, h.8, h.9, h.10, h.11⟩,
      fun h => ⟨h, rfl, rfl, rfl, rfl, rfl, rfl⟩, fun h => ?_⟩
    · simpa [e1] using g2
    · simpa [e1, e2] using g1
    · simpa [e2] using g3
    · rw [g0] at h; cases h

theorem execTbGpioOut_allows (v : Word) {s t : State} (h : execTbGpioOut v s = .next t) : s.regs.Allows t.regs := by
  unfold execTbGpioOut at h; injection h with h; subst h
  exact HostRegs.allows_free rfl rfl rfl rfl rfl (.inr rfl) rfl rfl rfl rfl rfl rfl (.inr rfl) (.inr rfl)

theorem State.bypassCtrl_allows (v : Word) (s : State) : s.regs.Allows (s.bypassCtrl v).regs := by
  unfold State.bypassCtrl; dsimp only
  generalize hu : (if 1 ≤ fld v 3 0 ∧ fld v 3 0 ≤ 10 then
    s.updRegs fun r => { r with lead := BitVec.ofNat 4 (fld v 3 0) } else s) = u
  have h : s.regs.Allows u.regs := by
    subst hu; split
    · rename_i g
      have e : (BitVec.ofNat 4 (fld v 3 0)).toNat = fld v 3 0 := toNat_ofNat_le g.2 (by norm_num)
      exact HostRegs.allows_free rfl rfl rfl rfl rfl (.inr rfl) rfl rfl rfl rfl rfl rfl (.inr rfl)
        (.inl (by simpa [e] using g))
    · exact .refl _
  refine h.trans (HostRegs.Allows.of_same ?_)
  (repeat' split) <;> simp

theorem execBypassCloseReq_allows (v : Word) {s t : State} (h : execBypassCloseReq v s = .next t) :
    s.regs.Allows t.regs := by
  injection h with h; subst h; split
  · exact State.bypassCtrl_allows v s
  · exact .refl _

theorem execBypassRetry_allows (v : Word) {s t : State} (h : execBypassRetry v s = .next t) :
    s.regs.Allows t.regs := by
  injection h with h; subst h; split
  · exact State.bypassCtrl_allows v s
  · exact .refl _

theorem State.commitTimeWrite_allows (f : Compact → Compact) (s : State) :
    s.regs.Allows (s.commitTimeWrite f).regs := by
  unfold State.commitTimeWrite; split
  · exact HostRegs.Allows.of_same (by simp)
  · exact HostRegs.allows_free rfl rfl rfl rfl rfl (.inr rfl) rfl rfl rfl rfl rfl rfl (.inr rfl) (.inr rfl)

theorem State.setIf_allows {ok : Bool} {f : HostRegs → HostRegs} {s : State}
    (h : ok = true → s.regs.Allows (f s.regs)) : s.regs.Allows (s.setIf ok f).regs := by
  unfold State.setIf; split
  · exact h (by assumption)
  · exact .refl _

@[simp] theorem State.setInMode_regs (on : Bool) (s : State) :
    (s.setInMode on).regs = { s.regs with ppsInMode := on } := by
  unfold State.setInMode State.watchPps; dsimp only; split <;> rfl

theorem State.writeTb_allows (o : Nat) (v : Word) (s : State) : s.regs.Allows (s.writeTb o v).regs := by
  unfold State.writeTb; dsimp only
  split
  case h_3 =>
    refine State.setIf_allows fun h => ?_
    simp only [Bool.and_eq_true, Bool.not_eq_true', decide_eq_true_eq] at h
    obtain ⟨⟨h0, h1⟩, h2⟩ := h
    have e : (BitVec.ofNat 20 (fld v 19 0)).toNat = fld v 19 0 := toNat_ofNat_le h2 (by norm_num)
    exact ⟨fun h => ⟨h.1, h.2, h.3, by simpa [e] using ⟨h1, h2⟩, h.5, h.6, h.7, h.8, h.9, h.10, h.11⟩,
      fun h => (by rw [h0] at h; cases h), fun h => ⟨h, rfl, rfl⟩⟩
  case h_4 =>
    refine State.setIf_allows fun h => ?_
    simp only [Bool.and_eq_true, Bool.not_eq_true', decide_eq_true_eq] at h
    obtain ⟨⟨h0, h1⟩, h2⟩ := h
    have e : (BitVec.ofNat 30 (fld v 29 0)).toNat = fld v 29 0 := toNat_ofNat_le h2 (by norm_num)
    exact ⟨fun h => ⟨h.1, h.2, h.3, h.4, by simpa [e] using ⟨h1, h2⟩, h.6, h.7, h.8, h.9, h.10, h.11⟩,
      fun h => (by rw [h0] at h; cases h), fun h => ⟨h, rfl, rfl⟩⟩
  case h_8 =>
    refine State.setIf_allows fun h => ?_
    simp only [decide_eq_true_eq] at h
    have e : (BitVec.ofNat 30 (fld v 29 0)).toNat = fld v 29 0 := toNat_ofNat_le h.le (by norm_num)
    exact HostRegs.allows_free rfl rfl rfl rfl rfl (.inl (by simpa [e] using h)) rfl rfl rfl rfl rfl rfl (.inr rfl)
      (.inr rfl)
  case h_11 =>
    split
    case isFalse => exact .refl _
    rename_i h0
    simp only [Bool.not_eq_true'] at h0
    rw [State.setInMode_regs]
    exact ⟨fun h => ⟨h.1, h.2, h.3, h.4, h.5, h.6, h.7, h.8, h.9, h.10, h.11⟩,
      fun h => (by rw [h0] at h; cases h), fun h => ⟨h, rfl, rfl⟩⟩
  case h_12 =>
    refine State.setIf_allows fun h => ?_
    simp only [Bool.and_eq_true, Bool.not_eq_true', decide_eq_true_eq] at h
    obtain ⟨⟨h0, h1⟩, h2⟩ := h
    have e : (BitVec.ofNat 19 (fld v 18 0)).toNat = fld v 18 0 := toNat_ofNat_le h2 (by norm_num)
    exact ⟨fun h => ⟨h.1, h.2, h.3, h.4, h.5, h.6, by simpa [e] using ⟨h1, h2⟩, h.8, h.9, h.10, h.11⟩,
      fun h => (by rw [h0] at h; cases h), fun h => ⟨h, rfl, rfl⟩⟩
  case h_13 =>
    refine State.setIf_allows fun h0 => ?_
    simp only [Bool.not_eq_true'] at h0
    exact ⟨fun h => ⟨h.1, h.2, h.3, h.4, h.5, h.6, h.7, h.8, h.9, h.10, h.11⟩,
      fun h => (by rw [h0] at h; cases h), fun h => ⟨h, rfl, rfl⟩⟩
  case h_14 => exact State.after_allows fun t g => execTbGpioOut_allows v g
  case h_15 => exact State.after_allows fun t g => execLockSet_allows _ v g
  all_goals first
    | exact HostRegs.Allows.of_same (by simp)
    | exact State.after_allows fun t g => .of_same (execTbCapture_same .regs (by simp) _ _ g)
    | exact State.after_allows fun t g => .of_same (execTbStepAccept_same .regs (by simp) _ _ g)
    | exact State.after_allows fun t g => .of_same (execTbSetGo_same .regs (by simp) _ _ g)
    | exact State.after_allows fun t g => .of_same (execTbAdj_same .regs (by simp) _ _ g)
    | exact State.after_allows fun t g => .of_same (execCntClear_same .regs (by simp) _ _ _ g)
    | exact HostRegs.allows_free rfl rfl rfl rfl rfl (.inr rfl) rfl rfl rfl rfl rfl rfl (.inr rfl) (.inr rfl)

theorem State.writeTir_allows (o : Nat) (v : Word) (s : State) : s.regs.Allows (s.writeTir o v).regs := by
  unfold State.writeTir
  split
  · exact HostRegs.Allows.of_same (by simp)
  · exact State.after_allows fun t g => .of_same (execCntClear_same .regs (by simp) _ _ _ g)
  · exact HostRegs.allows_free rfl rfl rfl rfl rfl (.inr rfl) rfl rfl rfl rfl rfl rfl (.inr rfl) (.inr rfl)
  · exact HostRegs.Allows.of_same (by simp)
  · split
    · refine State.setIf_allows fun h => ?_
      simp only [decide_eq_true_eq] at h
      refine ⟨fun r => ⟨r.1, r.2, r.3, r.4, r.5, r.6, r.7, by simpa using r.8, fun x hx => ?_, r.10, r.11⟩,
        fun h => ⟨h, rfl, rfl, rfl, rfl, rfl, rfl⟩, fun h => ⟨h, rfl, rfl⟩⟩
      rcases List.mem_or_eq_of_mem_set hx with hx | hx
      · exact r.9 x hx
      · subst hx; simpa [fld] using h
    · exact .refl _

theorem State.writeEth_allows (o : Nat) (v : Word) (s : State) : s.regs.Allows (s.writeEth o v).regs := by
  unfold State.writeEth; dsimp only
  split
  · exact State.after_allows fun t g => .of_same (execCntClear_same .regs (by simp) _ _ _ g)
  · exact HostRegs.allows_free rfl rfl rfl rfl rfl (.inr rfl) rfl rfl rfl rfl rfl rfl (.inr rfl) (.inr rfl)
  · refine State.setIf_allows fun h => ?_
    simp only [Bool.and_eq_true, decide_eq_true_eq] at h
    have e : (BitVec.ofNat 17 (fld v 16 0)).toNat = fld v 16 0 := toNat_ofNat_le h.2 (by norm_num)
    exact HostRegs.allows_free rfl rfl rfl rfl rfl (.inr rfl) rfl rfl rfl rfl rfl rfl
      (.inl (by simpa [e] using h)) (.inr rfl)
  · exact HostRegs.Allows.of_same (by simp)
  · exact State.bypassCtrl_allows v s
  · exact .refl _

theorem State.writeGlb_allows (o : Nat) (v : Word) (s : State) : s.regs.Allows (s.writeGlb o v).regs := by
  unfold State.writeGlb; dsimp only
  split
  · exact (State.after_allows fun t g => .of_same (execGlbResetCold_same .regs (by simp) _ _ g)).trans
      (State.after_allows fun t g => .of_same (execGlbResetWarm_same .regs (by simp) _ _ g))
  · exact State.after_allows fun t g => .of_same (execGlbPartReset_same .regs (by simp) _ _ g)
  · exact State.after_allows fun t g => execGlbAvsLimit_allows _ g
  · exact State.after_allows fun t g => execLockSet_allows _ _ g
  · exact .refl _

theorem State.writeOtl_allows (o : Nat) (v : Word) (s : State) : s.regs.Allows (s.writeOtl o v).regs := by
  unfold State.writeOtl
  split
  · exact State.after_allows fun t g => .of_same (execOtlStageBegin_same .regs (by simp) _ _ g)
  · exact State.after_allows fun t g => .of_same (execOtlValidate_same .regs (by simp) _ _ g)
  · exact State.commitTimeWrite_allows _ s
  · exact State.commitTimeWrite_allows _ s
  · exact State.after_allows fun t g => .of_same (execOtlCommitArm_same .regs (by simp) _ _ g)
  · exact State.after_allows fun t g => .of_same (execOtlCancel_same .regs (by simp) _ _ g)
  · exact State.after_allows fun t g => .of_same (execCntClear_same .regs (by simp) _ _ _ g)
  · exact .refl _

theorem State.writeLnw_allows (o : Nat) (v : Word) (s : State) : s.regs.Allows (s.writeLnw o v).regs := by
  unfold State.writeLnw
  split
  · exact State.after_allows fun t g => .of_same (execCntClear_same .regs (by simp) _ _ _ g)
  · exact HostRegs.allows_free rfl rfl rfl rfl rfl (.inr rfl) rfl rfl rfl rfl rfl rfl (.inr rfl) (.inr rfl)
  · split
    · exact State.after_allows fun t g => .of_same (execLnwBudget_same .regs (by simp) _ _ _ g)
    · exact .refl _

theorem State.writeSec_allows (o : Nat) (v : Word) (s : State) : s.regs.Allows (s.writeSec o v).regs := by
  unfold State.writeSec; dsimp only
  split
  · exact HostRegs.Allows.of_same (by simp)
  · exact State.after_allows fun t g => .of_same (execSecLockAdvance_same .regs (by simp) _ _ g)
  · exact State.after_allows fun t g => .of_same (execSecKeyInstall_same .regs (by simp) _ _ g)
  · exact State.after_allows fun t g => .of_same (execSecRevoke_same .regs (by simp) _ _ g)
  · exact State.after_allows fun t g => .of_same (execSecRollbackCommit_same .regs (by simp) _ _ g)
  · exact (State.after_allows fun t g => .of_same (execSecBootWriteFirmware_same .regs (by simp) _ _ g)).trans
      (State.after_allows fun t g => .of_same (execSecBootWriteOutline_same .regs (by simp) _ _ g))
  · exact HostRegs.allows_free rfl rfl rfl rfl rfl (.inr rfl) rfl rfl rfl rfl rfl rfl (.inr rfl) (.inr rfl)
  · exact .refl _

/-- A write of any register of the control space. -/
theorem State.writeReg_allows (b : Block) (o : Nat) (v : Word) (s : State) : s.regs.Allows (s.writeReg b o v).regs := by
  unfold State.writeReg
  split
  · exact State.writeGlb_allows o v s
  · exact State.writeTb_allows o v s
  · exact .of_same ((State.writeRgn_same .regs (by simp) o v s s).2 rfl)
  · exact State.writeOtl_allows o v s
  · split
    · exact State.after_allows fun t g => .of_same (execCntClear_same .regs (by simp) _ _ _ g)
    · exact .refl _
  · split
    · exact State.after_allows fun t g => .of_same (execCntClear_same .regs (by simp) _ _ _ g)
    · exact .refl _
  · exact State.writeTir_allows o v s
  · exact .of_same ((State.writeChn_same .regs (by simp) o v s s).2 rfl)
  · exact State.writeLnw_allows o v s
  · exact .of_same ((State.writeIng_same .regs (by simp) o v s s).2 rfl)
  · exact .of_same ((State.writeTrc_same .regs (by simp) o v s s).2 rfl)
  · split
    · exact State.after_allows fun t g => .of_same (execCntClear_same .regs (by simp) _ _ _ g)
    · exact .refl _
  · split
    · exact State.after_allows fun t g => .of_same (execCntClear_same .regs (by simp) _ _ _ g)
    · exact .refl _
  · exact State.writeEth_allows o v s
  · split
    · exact State.after_allows fun t g => .of_same (execPrfRelease_same .regs (by simp) _ _ g)
    · exact .refl _
  · exact .of_same ((State.writeBrn_same .regs (by simp) o v s s).2 rfl)
  · exact State.writeSec_allows o v s
  · exact .of_same ((State.writeCtx_same .regs (by simp) o v s s).2 rfl)

theorem State.writeWords_allows (l : List Word) (a : Nat) (s : State) :
    s.regs.Allows (State.writeWords l a s).2.2.regs := by
  induction l generalizing a s with
  | nil => exact .refl _
  | cons v l ih =>
    unfold State.writeWords
    split
    · split
      · exact .refl _
      · exact (State.writeReg_allows _ _ v s).trans (ih _ _)
    · exact .refl _

theorem execRegWrite_allows (sess : Fin 16) (tag addr : Word) (l : List Word) {s t : State}
    (h : execRegWrite sess tag addr l s = .next t) : s.regs.Allows t.regs := by
  injection h with h; subst h
  unfold State.request; dsimp only
  split
  · split
    · exact .of_same (by simp)
    · split
      · exact .of_same (by simp)
      · have h0 : (s.delivered sess.val).regs = s.regs := (State.delivered_same .regs (by simp) _ s s).2 rfl
        have h1 := State.writeWords_allows l addr.toNat (s.delivered sess.val)
        rw [h0] at h1
        refine h1.trans (.of_same ?_)
        simp
  · exact .of_same (by simp)

end Sys2Proof.Machine
end

