-- ==== Sys2Proof/Laws/Resets.lean ====
section
/-!
SUPPORT. What a reset leaves (R470, R480): the queue, the registers of the host at their reset values, and the count
of edges at P0; and the commands that may bring one.
-/

-- One thread elaborates: many small proofs at once would ask for more memory than the check allows.
set_option Elab.async false

namespace Sys2Proof.Machine

open Sys2Proof

@[simp] theorem State.restart_pending (k : ResetKind) (b : BootStage) (s : State) :
    (s.restart k b).pending = s.pending := by
  unfold State.restart; dsimp only; split <;> rfl

@[simp] theorem State.restart_regs (k : ResetKind) (b : BootStage) (s : State) : (s.restart k b).regs = {} := by
  unfold State.restart; dsimp only; split <;> rfl

@[simp] theorem State.restart_edge (k : ResetKind) (b : BootStage) (s : State) : (s.restart k b).edge = 0 := by
  unfold State.restart; dsimp only; split <;> rfl

@[simp] theorem State.restart_fresh (k : ResetKind) (b : BootStage) (s : State) : (s.restart k b).fresh = s.fresh := by
  unfold State.restart; dsimp only; split <;> rfl

@[simp] theorem State.restart_counts (k : ResetKind) (b : BootStage) (s : State) : (s.restart k b).counts = [] := by
  unfold State.restart; dsimp only; split <;> rfl

@[simp] theorem State.restart_sec (k : ResetKind) (b : BootStage) (s : State) :
    (s.restart k b).sec = s.sec.survive k.warm := by
  unfold State.restart; dsimp only; split <;> rfl

@[simp] theorem State.restart_stage (k : ResetKind) (b : BootStage) (s : State) : (s.restart k b).glb.stage = b := by
  unfold State.restart; dsimp only; split <;> rfl

@[simp] theorem State.restart_lastReset (k : ResetKind) (b : BootStage) (s : State) :
    (s.restart k b).glb.lastReset = k := by
  unfold State.restart; dsimp only; split <;> rfl

/-- `t` is a restart of a state with the queue of `s`, but for what a command does to GLB after it. -/
structure Restarts (s t : State) : Prop where
  pending : t.pending = s.pending
  regs : t.regs = {}
  edge : t.edge = 0
  counts : t.counts = []

theorem State.restart_restarts {s u : State} (k : ResetKind) (b : BootStage) (h : u.pending = s.pending) :
    Restarts s (u.restart k b) := ⟨by simp [h], by simp, by simp, by simp⟩

theorem execPowerOn_restarts {s t : State} (h : execPowerOn s = .next t) : Restarts s t := by
  injection h with h; subst h; exact State.restart_restarts _ _ rfl

theorem execVddAonLoss_restarts {s t : State} (h : execVddAonLoss s = .next t) : Restarts s t := by
  injection h with h; subst h; exact ⟨by simp, by simp, by simp, by simp⟩

theorem execResetNAssert_restarts (n : Nat) {s t : State} (h : execResetNAssert n s = .next t) :
    Only [.counts, .tb, .eth] s t ∨ Restarts s t := by
  injection h with h; subst h
  split
  · exact .inl fun p _ => Part.same_refl p s
  · split
    · exact .inl fun p hp => by simp at hp; simp [hp]
    · exact .inr (State.restart_restarts _ _ rfl)

theorem execResetNRelease_restarts {s t : State} (h : execResetNRelease s = .next t) : t = s ∨ Restarts s t := by
  injection h with h; subst h
  split
  · exact .inr (State.restart_restarts _ _ rfl)
  · exact .inl rfl

theorem execSupplyOutOfRange_restarts (r : Rail) {s t : State} (h : execSupplyOutOfRange r s = .next t) :
    t = s ∨ Restarts s t := by
  injection h with h; subst h
  split
  · exact .inr (State.restart_restarts _ _ rfl)
  · exact .inl rfl

theorem execRecoveryImageLoad_restarts (sess : Fin 16) (tag : Word) (image : List Byte) {s t : State}
    (h : execRecoveryImageLoad sess tag image s = .next t) : Only [.counts, .eth] s t ∨ Restarts s t := by
  injection h with h; subst h
  split
  · exact .inl fun p _ => Part.same_refl p s
  · unfold State.request; dsimp only; split
    · split
      · exact .inl fun p hp => by simp at hp; simp [hp]
      · split
        · exact .inl fun p hp => by simp at hp; simp [hp]
        · refine .inr (State.restart_restarts _ _ ?_)
          exact (State.delivered_same .pending (by simp) _ s s).2 rfl
    · exact .inl fun p hp => by simp at hp; simp [hp]

theorem State.takeReset_restarts (s : State) : s.takeReset = s ∨ Restarts s s.takeReset := by
  unfold State.takeReset; split
  · split
    · exact .inr (State.restart_restarts _ _ rfl)
    · exact .inl rfl
  · exact .inl rfl

end Sys2Proof.Machine
end

