-- ==== Sys2Proof/Tests/Slice0.lean ====
section
/-!
SUPPORT. The author's tests: ill-formed commands that the checks refuse, values of the manual's worked cases, and for
each obligation that has hypotheses a concrete state and operands that meet all of them together. A name
`wit_<obligation>_<number>` is the witness of that clause of the obligation; fixtures are built from State.reset.
-/

-- One thread elaborates: many small proofs at once would ask for more memory than the check allows.
set_option Elab.async false

set_option linter.unusedVariables false

namespace Sys2Proof.Tests

open Sys2Proof Sys2Proof.Machine Sys2Proof.Laws

/-! ## Ill-formed commands are refused -/

/-- Each row of a CTX_COMMAND body refuses the CMD code of another row (R211, R228). -/
theorem smoke_ctx_command :
    ([.ctxOpen 0 0 { w0 := 2 }, .ctxFork 0 0 { w0 := 1 }, .ctxTruncate 0 0 { w0 := 1 }, .ctxReset 0 0 { w0 := 1 }, .ctxClose 0 0 { w0 := 1 }, .ctxAttach 0 0 { w0 := 1 }, .ctxExport 0 0 { w0 := 1 }, .ctxImport 0 0 { w0 := 1 }, .ctxSwapOut 0 0 { w0 := 1 }, .ctxSwapIn 0 0 { w0 := 1 }] : List Instr).all (fun i => !i.WellFormed) = true := by decide +kernel

/-- Each row of a TIER_HINT body refuses the ACTION code of another row (R262). -/
theorem smoke_tier_hint :
    ([.promote 0 0 { w1 := 2 }, .release 0 0 { w1 := 1 }, .pin 0 0 { w1 := 1 }, .unpin 0 0 { w1 := 1 }, .demote 0 0 { w1 := 1 }, .drop 0 0 { w1 := 1 }] : List Instr).all (fun i => !i.WellFormed) = true := by decide +kernel

/-- An extent beyond those of the largest object (R265). -/
theorem smoke_extent_miss :
    ([.extentMiss 0 0 0 262144] : List Instr).all (fun i => !i.WellFormed) = true := by decide +kernel

/-- A transaction without a burst, one of 17, and one across a boundary of 1 KiB (R286). -/
theorem smoke_transactions :
    ([.tierReadTransaction (.golent 0) ⟨0, 0⟩ [], .tierWriteTransaction (.golent 0) ⟨0, 0⟩ [],
      .tierReadTransaction (.golent 0) ⟨0, 0⟩ (List.replicate 17 [{ data := List.replicate 72 0 }]),
      .tierWriteTransaction (.golent 0) ⟨0, 0⟩ (List.replicate 17 [true]),
      .tierWriteTransaction (.golent 0) ⟨0, 15⟩ (List.replicate 2 [true])] : List Instr).all (fun i => !i.WellFormed) = true := by decide +kernel

/-- A CSI link has one to four lanes (R307). -/
theorem smoke_csi_lanes :
    ([.csiFrameStart 0 0 0 0 0 0, .csiFrameStart 0 0 0 5 0 0] : List Instr).all (fun i => !i.WellFormed) = true := by decide +kernel

/-- A write without the bit of the row (R404). -/
theorem smoke_bypass :
    ([.bypassCloseReq 0x100, .bypassRetry 0x200] : List Instr).all (fun i => !i.WellFormed) = true := by decide +kernel

/-- OBJ_DATA carries at most 1,448 bytes (R401). -/
theorem smoke_obj_data :
    ([.objData 0 0 (List.replicate 1449 0)] : List Instr).all (fun i => !i.WellFormed) = true := by decide +kernel

/-- Unit 0 has no test (R426), and 0 and 0x124 are no units of an interval (R429). -/
theorem smoke_units :
    ([.sliceDone 0 true 0, .diagIntervalMissed 0, .diagIntervalMissed 8, .diagIntervalMissed 0x124] : List Instr).all (fun i => !i.WellFormed) = true := by decide +kernel

/-- A slice has 168 banks, numbered from 0 (R437). -/
theorem smoke_plate_banks :
    ([.plateScrub 0 [168], .plateUncorrectable 0 168, .plateCorrectedLimit 0 168] : List Instr).all (fun i => !i.WellFormed) = true := by decide +kernel

/-- Blocks without a CNT_CLEAR, and without a LOCK (R447, R489). -/
theorem smoke_block_registers :
    ([.cntClear .glb 1, .cntClear .prf 1, .cntClear .sec 1, .lockSet .rgn 1] : List Instr).all (fun i => !i.WellFormed) = true := by decide +kernel

/-- AVS stays within 460 mV and 600 mV (R469). -/
theorem smoke_avs_targets :
    ([.avsStep 459 true, .avsStep 601 true] : List Instr).all (fun i => !i.WellFormed) = true := by decide +kernel

/-- A boot write without its bit (R455, R456). -/
theorem smoke_boot_writes :
    ([.secBootWriteFirmware 2, .secBootWriteOutline 1] : List Instr).all (fun i => !i.WellFormed) = true := by decide +kernel

/-- A reset write with another value than the code of its row (R470). -/
theorem smoke_reset_codes :
    ([.glbResetCold 0x5741524D, .glbResetWarm 0x434F4C44] : List Instr).all (fun i => !i.WellFormed) = true := by decide +kernel

/-! ## Values of the manual's worked cases -/

/-- The peak estimate of the three-partition Outline is 64.9 W (the worked case of the Outline chapter). -/
theorem test_peak_estimate :
    ({ domainOn := 0xFFFF7F, coreRun := 0xFFFFFFFFF, unitRun := 0x7FF8,
       ports := List.replicate 4 { enable := true } } : Outline).peak = 64900000 := by decide +kernel

/-- A STYLUS entry of REPEAT 20,000 fires 800 times in a hyperperiod of 100 ms (R55). -/
theorem test_firings_per_hyperperiod :
    ({ repeatTicks := 20000 } : RegEntry).perH 16000000 = 800 := by decide +kernel

/-- The apply-at time 1,234.300175 s on the wire (the worked case of the time chapter). -/
theorem test_apply_at_bytes : ptpBytes (1234 * unitsSec + 300175000 * unitsNs) =
    [0, 0, 0, 0, 0x04, 0xD2, 0x11, 0xE4, 0x4E, 0x98] := by decide +kernel

/-- The commit time 1,240 s as a compact stamp (the worked case of the control chapter). -/
theorem test_commit_time : compactOf (1240 * unitsSec) = { w0 := 0, w1 := 0x136 } := by decide +kernel

/-- One update of the joint loop: an error of 1,024 under KP 0x4000 and KI 0x21 (the worked case of Stylus). -/
theorem test_joint_update :
    let r := pidStep [0x4000, 0x21, 0, 0, 0x7FFF, 0x8000, 0x7FFF, 0x8000, 0] 1024 {}
    r.law.i = 1 ∧ r.law.res = 2048 ∧ r.out = 513 := by decide +kernel

/-- A replan whose primitive 20 of 37 collides repairs primitives 4 to 36 (the worked case of Crosshatch). -/
theorem test_repair_window : repairWindows 37 [20] = [(4, 36)] := by decide

/-- A slice of state width 256 takes 1,536 bytes, so twelve layers take 18,496 with the page header (R227). -/
theorem test_state_region : 64 + 12 * sliceBase 256 = 18496 := by decide

/-- CORE_REPAIR_A2 with row 17 retired (the worked case of the spares chapter). -/
theorem test_repair_word : ({ rowA := 17 } : RepairMap).word = 0x007F7F11 := by decide

/-! ## Witnesses of the obligations: time and the schedule, and the fixtures -/

/-- A device after jobs-ready whose Registration engine fires, with a running Outline. -/
def ready (o : Outline) : State :=
  { State.reset with glb := { stage := .ready }, rgn := { firing := true }, otl := { running := o } }

/-- A running Outline with one entry, a template and a MOVE record. -/
def oneEntry (r : RegEntry) : State :=
  ready { table := [r], templates := [{ chain := 5, part := 1 }], moves := [[0, 0, 0, 0, 7]] }

/-- A device after jobs-ready with every session open, for a partition or for the device. -/
def opened (p : Option Nat) : State :=
  { State.reset with
    glb := { stage := .ready }
    eth := { sessions := List.replicate 16 { open_ := true, part := p, peerCredits := 8 } } }

/-- A state with a time base. -/
def timed (t : Tb) : State := { State.reset with tb := t }

/-- UPLINK enabled with gPTP, its link up, and a time base. -/
def uplinkUp (t : Tb) : State :=
  { State.reset with
    otl := { running := { ports := [{ port := 3, enable := true, gptp := true, priority1 := 100, role := 0 }] } }
    eth := { ports := [{}, {}, {}, { link := true, speed := 2 }] }
    tb := t }

theorem wit_step_runs_the_front_command_1 : ∃ (s : State) (c : Instr) (rest : List Instr), s.pending = c :: rest :=
  ⟨{ State.reset with pending := [.bypassOpen, .bypassArm] }, .bypassOpen, [.bypassArm], rfl⟩

theorem wit_idle_step_is_one_clock_edge_1 : ∃ (s : State), s.pending = [] :=
  ⟨State.reset, rfl⟩

theorem wit_commands_leave_queue_and_clock_1 : ∃ (c : Instr) (s t : State), exec c s = .next t :=
  ⟨.tbStepAccept 0, State.reset, State.reset, rfl⟩

theorem wit_commands_change_only_their_parts_1 : ∃ (c : Instr) (s t : State), exec c s = .next t :=
  ⟨.tbStepAccept 0, State.reset, State.reset, rfl⟩

theorem wit_step_keeps_registers_in_range_1 : ∃ (s t : State), s.regs.InRange ∧ step s = .next t :=
  ⟨{ State.reset with pending := [.tbStepAccept 0] }, State.reset, ⟨by decide, by decide, by decide, by decide,
     by decide, by decide, by decide, by decide, by decide, by decide, by decide⟩, rfl⟩

theorem wit_lock_bits_freeze_their_registers_3 : ∃ (s : State) (v : Word), bit v 0 = true :=
  ⟨State.reset, 1, by decide⟩

theorem wit_lock_bits_freeze_their_registers_4 : ∃ (s : State) (v : Word), bit v 0 = true :=
  ⟨State.reset, 0xFFFFFFFF, by decide⟩

theorem wit_lock_bits_freeze_their_registers_5 : ∃ (s : State) (b : Block) (v : Word), bit v 0 = false :=
  ⟨State.reset, .tb, 0xFFFFFFFE, by decide⟩

theorem wit_lock_bits_freeze_their_registers_6 : ∃ (s t : State), s.regs.tbLock = true ∧ step s = .next t :=
  ⟨{ State.reset with pending := [.tbStepAccept 0], regs := { tbLock := true } },
     { State.reset with regs := { tbLock := true } }, by decide, rfl⟩

theorem wit_lock_bits_freeze_their_registers_7 : ∃ (s t : State), s.regs.glbLock = true ∧ step s = .next t :=
  ⟨{ State.reset with pending := [.tbStepAccept 0], regs := { glbLock := true } },
     { State.reset with regs := { glbLock := true } }, by decide, rfl⟩

theorem wit_lock_bits_freeze_their_registers_8 : ∃ (s t : State) (i : Fin 16) (tag v : Word) (vs : List Word),
    (s.session i).open_ = true ∧ (s.session i).part = none ∧ s.glb.stage ≠ .firmwareRecovery ∧ bit v 0 = true :=
  ⟨opened none, State.reset, 0, 0, 1, [5], by decide⟩

theorem wit_registers_are_read_and_written_1 : ∃ (s : State) (i : Fin 16) (tag a : Word) (w : Word), (s.session
    i).open_ = true ∧ (s.delivered i).readWord (s.session i).part a.toNat = some w :=
  ⟨opened (some 0), 0, 0, 0x10020, 250, by decide, by decide⟩

theorem wit_registers_are_read_and_written_2 : ∃ (s : State) (i : Fin 16) (tag a : Word) (n : Nat), (s.session
    i).open_ = true ∧ 1 ≤ n ∧ n ≤ 64 ∧ (a.toNat % 4 ≠ 0 ∨ blockOf a.toNat = none) :=
  ⟨opened none, 0, 0, 2, 64, by decide⟩

theorem wit_registers_are_read_and_written_3 : ∃ (s : State) (i : Fin 16) (tag a : Word) (n : Nat), (s.session
    i).open_ = true ∧ (n = 0 ∨ 64 < n) :=
  ⟨opened none, 0, 0, 0, 65, by decide⟩

theorem wit_registers_are_read_and_written_4 : ∃ (s : State) (i : Fin 16) (tag a : Word) (p : Nat) (ws : List Word),
    (s.session i).open_ = true ∧ (s.session i).part = some p :=
  ⟨opened (some 7), 15, 0, 0x2C, 7, [1], by decide⟩

theorem wit_registers_are_read_and_written_5 : ∃ (s : State) (i : Fin 16) (tag v : Word), (s.session i).open_ = true ∧
    (s.session i).part = none ∧ s.glb.stage ≠ .firmwareRecovery :=
  ⟨opened none, 15, 0, 10, by decide⟩

theorem wit_registers_are_read_and_written_6 : ∃ (s : State) (v : Word), s.regs.glbLock = false ∧ 460 ≤ fld v 9 0 ∧
    fld v 9 0 ≤ fld v 25 16 ∧ fld v 25 16 ≤ 600 :=
  ⟨State.reset, 0x025801CC, by decide⟩

theorem wit_registers_are_read_and_written_7 : ∃ (s : State) (v : Word), (s.regs.glbLock = true ∨ fld v 9 0 < 460 ∨
    fld v 25 16 < fld v 9 0 ∨ 600 < fld v 25 16) :=
  ⟨State.reset, 0x025901CC, by decide⟩

theorem wit_partition_sessions_read_all_but_foreign_contexts_1 : ∃ (s : State) (p a : Nat), (a < 0x1000000 ∨ 0x1000000
    + 64 * 16384 ≤ a) :=
  ⟨State.reset, 0, 0x1100000, by decide⟩

theorem wit_partition_sessions_read_all_but_foreign_contexts_2 : ∃ (s : State) (p n k : Nat), n < 16384 ∧ k < 16 ∧
    s.inRange p n = true :=
  ⟨ready { pools := [{ part := 1, contexts := 4 }] }, 1, 3, 15, by decide⟩

theorem wit_partition_sessions_read_all_but_foreign_contexts_3 : ∃ (s : State) (p n k : Nat), n < 16384 ∧ k < 16 ∧
    s.inRange p n = false ∧ s.glb.stage ≠ .firmwareRecovery :=
  ⟨ready { pools := [{ part := 1, contexts := 4 }] }, 1, 4, 15, by decide⟩

theorem wit_partition_sessions_read_all_but_foreign_contexts_4 : ∃ (s : State) (i : Fin 16) (tag a : Word) (p n k :
    Nat), (s.session i).open_ = true ∧ (s.session i).part = some p ∧ n < 16384 ∧ k < 16 ∧ s.inRange p n = false ∧
    s.glb.stage ≠ .firmwareRecovery ∧ a.toNat = 0x1000000 + 64 * n + 4 * k :=
  ⟨opened (some 1), 0, 0, 0x10FFFFC, 1, 16383, 15, by decide⟩

theorem wit_partition_sessions_read_all_but_foreign_contexts_5 : ∃ (s : State) (n k : Nat), n < 16384 ∧ k < 16 ∧
    s.glb.stage ≠ .firmwareRecovery :=
  ⟨State.reset, 16383, 15, by decide⟩

theorem wit_memories_read_what_was_written_1 : ∃ (m : Memory) (a : Nat) (bs : List Byte), Memory.wf m = true :=
  ⟨[(3, 1)], 2, [0, 5], by decide⟩

theorem wit_memories_read_what_was_written_2 : ∃ (m : Memory) (n x : Nat), Memory.wf m = true :=
  ⟨[(3, 1)], 3, 3, by decide⟩

theorem wit_memories_read_what_was_written_3 : ∃ (m : Memory) (a n x : Nat), Memory.wf m = true :=
  ⟨[(3, 1)], 3, 1, 3, by decide⟩

theorem wit_memories_read_what_was_written_4 : ∃ (m n : Memory), Memory.wf m = true ∧ Memory.wf n = true ∧ (∀ x,
    Memory.read m x = Memory.read n x) :=
  ⟨[(3, 1)], [(3, 1)], by decide, by decide, fun _ => rfl⟩

theorem wit_memories_read_what_was_written_5 : ∃ (m : Memory) (a : Nat) (w : Word), Memory.wf m = true :=
  ⟨[(3, 1)], 0, 0x01000000, by decide⟩

theorem wit_registered_firings_launch_their_targets_1 : ∃ (s : State) (e : BitVec 12) (r : RegEntry) (x :
    TemplateRec), s.Launches 1 e.toNat r ∧ s.entryJob e.toNat = false ∧ s.otl.running.templates[r.arg.toNat]? = some x
    :=
  ⟨oneEntry { target := 1 }, 0, { target := 1 }, { chain := 5, part := 1 }, ⟨by decide, by decide, by decide,
     by decide, by decide, by decide, by decide⟩, by decide⟩

theorem wit_registered_firings_launch_their_targets_2 : ∃ (s : State) (e : BitVec 12) (r : RegEntry) (x :
    TemplateRec), s.Launches 2 e.toNat r ∧ s.entryJob e.toNat = false ∧ s.otl.running.templates[r.arg.toNat]? = some x
    :=
  ⟨oneEntry { target := 2 }, 0, { target := 2 }, { chain := 5, part := 1 }, ⟨by decide, by decide, by decide,
     by decide, by decide, by decide, by decide⟩, by decide⟩

theorem wit_registered_firings_launch_their_targets_3 : ∃ (s : State) (e : BitVec 12) (r : RegEntry) (w : List Word)
    (o : ObjVersion), s.Launches 3 e.toNat r ∧ s.entryJob e.toNat = false ∧ s.otl.running.moves[r.arg.toNat]? = some w
    ∧ ((s.tir.objs.find? fun o => o.obj = w.getD 4 0 && o.part = r.part && o.newest && o.state = .sealed) = some o) :=
  ⟨{ oneEntry { target := 3 } with tir := { objs := [{ obj := 7 }] } }, 0, { target := 3 }, [0, 0, 0, 0, 7],
     { obj := 7 }, ⟨by decide, by decide, by decide, by decide, by decide, by decide, by decide⟩, by decide⟩

theorem wit_registered_firings_launch_their_targets_4 : ∃ (s : State) (e : BitVec 12) (r : RegEntry), s.Launches 8
    e.toNat r ∧ r.action = 0 :=
  ⟨oneEntry { target := 8 }, 0, { target := 8 }, ⟨by decide, by decide, by decide, by decide, by decide, by decide,
     by decide⟩, by decide⟩

theorem wit_registered_firings_launch_their_targets_5 : ∃ (s : State) (e : BitVec 12) (r : RegEntry), s.Launches 8
    e.toNat r ∧ r.action = 1 :=
  ⟨oneEntry { target := 8, action := 1 }, 0, { target := 8, action := 1 }, ⟨by decide, by decide, by decide,
     by decide, by decide, by decide, by decide⟩, by decide⟩

theorem wit_registered_firings_launch_their_targets_6 : ∃ (s : State) (e : BitVec 12) (r : RegEntry), s.Launches 8
    e.toNat r ∧ r.action = 2 :=
  ⟨oneEntry { target := 8, action := 2 }, 0, { target := 8, action := 2 }, ⟨by decide, by decide, by decide,
     by decide, by decide, by decide, by decide⟩, by decide⟩

theorem wit_registered_firings_launch_their_targets_7 : ∃ (s : State) (e : BitVec 12) (r : RegEntry), s.Launches 8
    e.toNat r ∧ r.action = 3 :=
  ⟨oneEntry { target := 8, action := 3, arg := 160 }, 0, { target := 8, action := 3, arg := 160 }, ⟨by decide,
     by decide, by decide, by decide, by decide, by decide, by decide⟩, by decide⟩

theorem wit_engine_firings_start_their_work_1 : ∃ (s : State) (e : BitVec 12) (r : RegEntry), s.Launches 4 e.toNat r ∧
    s.stylusOn = false :=
  ⟨{ oneEntry { target := 4 } with glb := { pdState := 0 } }, 0, { target := 4 }, ⟨by decide, by decide, by decide,
     by decide, by decide, by decide, by decide⟩, by decide⟩

theorem wit_engine_firings_start_their_work_2 : ∃ (s : State) (e : BitVec 12) (r : RegEntry), s.Launches 4 e.toNat r ∧
    s.stylusOn = true :=
  ⟨oneEntry { target := 4 }, 0, { target := 4 }, ⟨by decide, by decide, by decide, by decide, by decide, by decide,
     by decide⟩, by decide⟩

theorem wit_engine_firings_start_their_work_3 : ∃ (s : State) (e : BitVec 12) (r : RegEntry) (rec : RuleSetRec),
    s.Launches 5 e.toNat r ∧ (s.prf.sets.getD r.arg.toNat {}).busyUntil ≤ s.edge ∧ s.ruleSet r.arg.toNat = some rec ∧
    r.arg.toNat < s.prf.sets.length :=
  ⟨ready { table := [{ target := 5, arg := 15 }], ruleSets := [{ set := 15 }] }, 0, { target := 5, arg := 15 },
     { set := 15 }, ⟨by decide, by decide, by decide, by decide, by decide, by decide, by decide⟩, by decide⟩

theorem wit_engine_firings_start_their_work_4 : ∃ (s : State) (e : BitVec 12) (r : RegEntry), s.Launches 6 e.toNat r
    :=
  ⟨oneEntry { target := 6 }, 0, { target := 6 }, ⟨by decide, by decide, by decide, by decide, by decide, by decide,
     by decide⟩⟩

theorem wit_engine_firings_start_their_work_5 : ∃ (s : State) (e : BitVec 12) (r : RegEntry) (p : PlaceEntry) (o :
    ObjVersion), s.Launches 7 e.toNat r ∧ (s.rgn.tierWait.any fun x => x.1 = e.toNat) = false ∧ s.edge % 5 = 0 ∧
    s.otl.running.places[r.arg.toNat]? = some p ∧ (s.tir.tierRefs.all fun x => x.entry != some e.toNat) = true ∧
    s.newestOf p.part p.obj = some o ∧ o.full = true ∧ (s.tir.objs.filter (isVer o.part o.obj o.ver)) = [o] :=

     ⟨{ ready { table := [{ target := 7 }], places := [{ obj := 9 }] } with tir := { objs := [{ obj := 9, present := [0] }] } },
     0, { target := 7 }, { obj := 9 }, { obj := 9, present := [0] }, ⟨by decide, by decide, by decide, by decide,
     by decide, by decide, by decide⟩, by decide⟩

theorem wit_engine_firings_start_their_work_6 : ∃ (s : State) (e : BitVec 12) (r : RegEntry) (p : PlaceEntry),
    s.Launches 7 e.toNat r ∧ (s.rgn.tierWait.any fun x => x.1 = e.toNat) = false ∧ s.edge % 5 ≠ 0 ∧
    s.otl.running.places[r.arg.toNat]? = some p :=
  ⟨{ ready { table := [{ target := 7 }], places := [{ obj := 9 }] } with edge := 1 }, 0, { target := 7 }, { obj := 9 },
     ⟨by decide, by decide, by decide, by decide, by decide,
     by decide, by decide⟩, by decide⟩

theorem wit_engine_firings_start_their_work_7 : ∃ (s : State) (e : BitVec 12) (x : Nat × Nat × Word) (o : ObjVersion),
    (s.rgn.tierWait.find? fun x => x.1 = e.toNat) = some x ∧ s.edge % 5 = 0 ∧ (s.tir.tierRefs.all fun y => y.entry !=
    some e.toNat) = true ∧ s.newestOf x.2.1 x.2.2 = some o ∧ o.full = true ∧ (s.tir.objs.filter (isVer o.part o.obj
    o.ver)) = [o] :=
  ⟨{ ready {} with rgn := { firing := true, tierWait := [(0, 0, 9)] }, tir := { objs := [{ obj := 9, present := [0] }] } },
     0, (0, 0, 9), { obj := 9, present := [0] }, by decide⟩

theorem wit_engine_firings_start_their_work_8 : ∃ (s : State) (e : BitVec 12) (r : RegEntry) (x : SelftestEntry),
    s.Launches 9 e.toNat r ∧ r.action = 0 ∧ s.sliceEntry r.unit = some x ∧ r.unit ≠ 6 ∧ (s.slice r.unit).running =
    false ∧ ((s.nextSafety (tickOf s.now + 1)).all (fun n => decide (tickOf s.now + x.sliceTicks ≤ n)) = true) :=
  ⟨ready
     { table := [{ target := 9, unit := 7 }], unitRun := 0x7FFF, domainOn := 0xFFFFFF, selftest := [{ unit := 7 }] },
     0, { target := 9, unit := 7 }, { unit := 7 }, ⟨by decide, by decide, by decide, by decide, by decide, by decide,
     by decide⟩, by decide⟩

theorem wit_engine_firings_start_their_work_9 : ∃ (s : State) (e : BitVec 12) (r : RegEntry) (x : SelftestEntry) (q :
    Query), s.Launches 9 e.toNat r ∧ r.action = 0 ∧ s.sliceEntry r.unit = some x ∧ r.unit = 6 ∧ (s.slice
    r.unit).running = false ∧ s.xh.run = some q ∧ (s.nextSafety (tickOf s.now + 1)).all (fun n => decide (tickOf s.now
    + x.sliceTicks ≤ n)) = true :=
  ⟨{ ready
     { table := [{ target := 9, unit := 6 }], unitRun := 0x7FFF, domainOn := 0xFFFFFF, selftest := [{ unit := 6 }] } with
     xh := { run := some {} } }, 0, { target := 9, unit := 6 }, { unit := 6 }, {}, ⟨by decide, by decide, by decide, by decide, by decide,
     by decide, by decide⟩, by decide⟩

theorem wit_firings_that_do_not_launch_now_follow_their_policy_1 : ∃ (s : State) (e : BitVec 12) (r : RegEntry),
    s.regEntry e.toNat = some r ∧ s.launching = true ∧ r.valid = true ∧ r.target = 1 ∧ e.toNat ∉ s.rgn.disabled ∧
    s.resetting r.part = false ∧ 4 ≤ s.rgn.launches ∧ e.toNat ∉ s.rgn.deferred :=
  ⟨{ oneEntry { target := 1 } with rgn := { firing := true, launches := 4 } }, 0, { target := 1 }, by decide⟩

theorem wit_firings_that_do_not_launch_now_follow_their_policy_2 : ∃ (s : State) (e : BitVec 12) (r : RegEntry),
    s.Launches 1 e.toNat r ∧ s.entryJob e.toNat = true ∧ r.late = 0 ∧ e.toNat ∉ s.rgn.deferred :=
  ⟨{ oneEntry { target := 1 } with jobs := { list := [{ id := 1 }] } }, 0, { target := 1 }, ⟨by decide, by decide,
     by decide, by decide, by decide, by decide, by decide⟩, by decide⟩

theorem wit_firings_that_do_not_launch_now_follow_their_policy_4 : ∃ (s : State) (e : BitVec 12) (r : RegEntry),
    s.Launches 1 e.toNat r ∧ s.entryJob e.toNat = true ∧ r.late = 1 ∧ e.toNat ∉ s.rgn.deferred :=
  ⟨{ oneEntry { target := 1, late := 1 } with jobs := { list := [{ id := 1 }] } }, 0, { target := 1, late := 1 },
     ⟨by decide, by decide, by decide, by decide, by decide, by decide, by decide⟩, by decide⟩

theorem wit_firings_that_do_not_launch_now_follow_their_policy_5 : ∃ (s : State) (e : BitVec 12) (r : RegEntry),
    s.Launches 1 e.toNat r ∧ s.entryJob e.toNat = true ∧ r.late = 2 ∧ s.supervised r.part = false ∧ e.toNat ∉
    s.rgn.deferred :=
  ⟨{ oneEntry { target := 1, late := 2 } with jobs := { list := [{ id := 1 }] } }, 0, { target := 1, late := 2 },
     ⟨by decide, by decide, by decide, by decide, by decide,
     by decide, by decide⟩, by decide⟩

theorem wit_firings_that_do_not_launch_now_follow_their_policy_3 : ∃ (s : State) (e : BitVec 12) (r : RegEntry),
    s.Launches 1 e.toNat r ∧ s.entryJob e.toNat = true ∧ r.late = 1 ∧ e.toNat ∈ s.rgn.deferred :=
  ⟨{ oneEntry { target := 1, late := 1 } with
     jobs := { list := [{ id := 1 }] }, rgn := { firing := true, deferred := [0] } }, 0, { target := 1, late := 1 },
     ⟨by decide, by decide, by decide, by decide, by decide,
     by decide, by decide⟩, by decide⟩

theorem wit_firings_that_do_not_launch_now_follow_their_policy_6 : ∃ (s : State) (e : BitVec 12), e.toNat ∈
    s.rgn.disabled :=
  ⟨{ State.reset with rgn := { disabled := [4095] } }, 4095, by decide⟩

theorem wit_firings_that_do_not_launch_now_follow_their_policy_7 : ∃ (s : State) (e : BitVec 12) (r : RegEntry),
    s.regEntry e.toNat = some r ∧ s.resetting r.part = true ∧ s.supervised r.part = false ∧ e.toNat ∉ s.rgn.deferred
    :=
  ⟨{ oneEntry { target := 1, part := 7 } with glb := { partReset := some 0x80 } }, 0, { target := 1, part := 7 },
     by decide⟩

theorem wit_firings_that_do_not_launch_now_follow_their_policy_8 : ∃ (s : State) (x : Int × Nat) (rest : List (Int ×
    Nat)) (r : RegEntry), s.rgn.carried = x :: rest ∧ s.placeFree = true ∧ s.regEntry x.2 = some r ∧ r.target = 8 ∧
    s.resetting r.part = false :=
  ⟨{ oneEntry { target := 8 } with rgn := { firing := true, carried := [(5, 0)] } }, (5, 0), [], { target := 8 },
     by decide⟩

theorem wit_firings_that_do_not_launch_now_follow_their_policy_9 : ∃ (s : State) (x : Int × Nat) (rest : List (Int ×
    Nat)) (r : RegEntry) (m : TemplateRec), s.rgn.carried = x :: rest ∧ s.placeFree = true ∧ s.regEntry x.2 = some r ∧
    r.target = 1 ∧ s.resetting r.part = false ∧ s.entryJob x.2 = false ∧ s.otl.running.templates[r.arg.toNat]? = some
    m :=
  ⟨{ oneEntry { target := 1 } with rgn := { firing := true, carried := [(5, 0)] } }, (5, 0), [], { target := 1 },
     { chain := 5, part := 1 }, by decide⟩

theorem wit_firings_that_do_not_launch_now_follow_their_policy_10 : ∃ (s : State) (e : BitVec 12) (r : RegEntry) (m :
    TemplateRec), s.regEntry e.toNat = some r ∧ r.target = 1 ∧ s.placeFree = true ∧ e.toNat ∈ s.rgn.deferred ∧
    s.rgn.carried = [] ∧ s.entryJob e.toNat = false ∧ s.resetting r.part = false ∧
    s.otl.running.templates[r.arg.toNat]? = some m :=
  ⟨{ oneEntry { target := 1 } with rgn := { firing := true, deferred := [0] } }, 0, { target := 1 },
     { chain := 5, part := 1 }, by decide⟩

theorem wit_firings_that_do_not_launch_now_follow_their_policy_12 : ∃ (s : State) (v : Word) (r : RegEntry),
    s.regEntry (fld v 11 0) = some r ∧ r.valid = true ∧ s.entryProtected r = false :=
  ⟨oneEntry {}, 0, {}, by decide⟩

theorem wit_firings_that_do_not_launch_now_follow_their_policy_11 : ∃ (s : State) (v : Word) (r : RegEntry),
    s.regEntry (fld v 11 0) = some r ∧ r.valid = true ∧ s.entryProtected r = false :=
  ⟨oneEntry {}, 0, {}, by decide⟩

theorem wit_firings_that_do_not_launch_now_follow_their_policy_13 : ∃ (s : State) (v : Word) (r : RegEntry),
    s.regEntry (fld v 11 0) = some r ∧ r.valid = true ∧ s.entryProtected r = true :=
  ⟨oneEntry { target := 9 }, 0, { target := 9 }, by decide⟩

theorem wit_time_is_set_captured_and_adjusted_1 : ∃ (s : State), s.glb.pllSpare = true :=
  ⟨State.reset, by decide⟩

theorem wit_time_is_set_captured_and_adjusted_2 : ∃ (s : State), s.glb.pllSpare = false :=
  ⟨{ State.reset with glb := { pllSpare := false } }, by decide⟩

theorem wit_time_is_set_captured_and_adjusted_3 : ∃ (s : State) (v : Word), bit v 0 = true :=
  ⟨State.reset, 1, by decide⟩

theorem wit_time_is_set_captured_and_adjusted_4 : ∃ (s : State) (v : Word), bit v 0 = true ∧ s.tb.stepPending = true
    :=
  ⟨timed { stepPending := true }, 1, by decide⟩

theorem wit_time_is_set_captured_and_adjusted_5 : ∃ (s : State) (v : Word), bit v 0 = true ∧ s.tb.state = .freeRun :=
  ⟨State.reset, 1, by decide⟩

theorem wit_time_is_set_captured_and_adjusted_6 : ∃ (s : State) (v : Word), s.tb.state ≠ .freeRun :=
  ⟨timed { state := .locked }, 1, by decide⟩

theorem wit_time_is_set_captured_and_adjusted_7 : ∃ (s : State) (v : Word), (s.tb.state = .freeRun ∨ s.tb.state =
    .holdover ∨ s.tb.state = .grandmaster) :=
  ⟨timed { state := .grandmaster }, 0x80000000, by decide⟩

theorem wit_time_is_set_captured_and_adjusted_8 : ∃ (s : State) (v : Word), (s.tb.state = .acquiring ∨ s.tb.state =
    .locked) :=
  ⟨timed { state := .locked }, 5, by decide⟩

theorem wit_time_is_set_captured_and_adjusted_10 : ∃ (s : State) (u : Int) (e : Nat), s.tb.stepHold = some (u, e) ∧ u
    < s.now :=
  ⟨timed { time := { ns := 1 }, stepHold := some (0, 0) }, 0, 0, by decide⟩

theorem wit_pins_are_stamped_and_driven_1 : ∃ (s : State), s.regs.ppsOutEn = true ∧ (∀ e, s.tb.ppsHighUntil = some e →
    e ≤ s.edge) :=
  ⟨{ State.reset with regs := { ppsOutEn := true } }, by decide⟩

theorem wit_pins_are_stamped_and_driven_2 : ∃ (s : State) (e : Nat), (s.regs.ppsOutEn = false ∨ s.tb.ppsHighUntil =
    some e ∧ s.edge < e) :=
  ⟨{ timed { ppsHighUntil := some 1 } with regs := { ppsOutEn := true } }, 1, Or.inr (by decide)⟩



theorem wit_pins_are_stamped_and_driven_3 : ∃ (s : State) (e : Nat), s.tb.ppsHighUntil = some e ∧ e ≤ s.edge :=
  ⟨timed { ppsHighUntil := some 0 }, 0, by decide⟩

theorem wit_pins_are_stamped_and_driven_4 : ∃ (s : State) (u : Int) (e : Nat), s.tb.ppsLast = some (u, e) ∧ (s.now - u
    - unitsSec).natAbs ≤ 100000 * 4294967296 ∧ s.disciplines = false :=
  ⟨timed { time := { sec := 1, ns := 100000 }, ppsLast := some (0, 0) }, 0, 0, by decide⟩

theorem wit_pins_are_stamped_and_driven_5 : ∃ (s : State) (u : Int) (e : Nat), s.tb.ppsLast = some (u, e) ∧ (s.now - u
    - unitsSec).natAbs ≤ 100000 * 4294967296 ∧ s.disciplines = true :=
  ⟨{ timed { time := { sec := 1, ns := 100000 }, ppsLast := some (0, 0) } with regs := { ppsInMode := true } }, 0, 0,
     by decide⟩

theorem wit_pins_are_stamped_and_driven_6 : ∃ (s : State) (u : Int) (e : Nat), s.tb.ppsLast = some (u, e) ∧ s.now - u
    < unitsSec - 100000 * 4294967296 :=
  ⟨timed { time := { ns := 999899999 }, ppsLast := some (0, 0) }, 0, 0, by decide⟩

theorem wit_pins_are_stamped_and_driven_7 : ∃ (s : State), (∀ u e, s.tb.ppsLast = some (u, e) → unitsSec + 100000 *
    4294967296 < s.now - u) :=
  ⟨timed { ppsLast := some (0, 0), time := timeOfUnits (2 * unitsSec) }, by intro u e h; cases h; decide⟩

theorem wit_pins_are_stamped_and_driven_8 : ∃ (s : State), s.disciplines = true ∧ s.tb.ppsWatch + 480000000 ≤ s.edge
    :=
  ⟨{ State.reset with edge := 480000000, regs := { ppsInMode := true } }, by decide⟩

theorem wit_pins_are_stamped_and_driven_9 : ∃ (s : State) (pin : Fin 16) (rising : Bool) (q : GpioPin),
    s.tb.pins[pin.val]? = some q ∧ q.dir = .input ∧ q.level ≠ rising ∧ (∀ e, q.lastEdge = some e → e +
    s.regs.gpioFilter.toNat ≤ s.edge) ∧ q.fifo.length < 16 :=
  ⟨State.reset, 15, true, {}, by decide⟩

theorem wit_pins_are_stamped_and_driven_10 : ∃ (s : State) (pin : Fin 16) (rising : Bool) (q : GpioPin),
    s.tb.pins[pin.val]? = some q ∧ q.dir = .input ∧ q.level ≠ rising ∧ (∀ e, q.lastEdge = some e → e +
    s.regs.gpioFilter.toNat ≤ s.edge) ∧ 16 ≤ q.fifo.length :=
  ⟨timed { pins := List.replicate 16 { fifo := List.replicate 16 ({}, true) } }, 15, true,
     { fifo := List.replicate 16 ({}, true) }, by decide⟩

theorem wit_pins_are_stamped_and_driven_11 : ∃ (s : State) (pin : Fin 16) (rising : Bool) (q : GpioPin) (e : Nat),
    s.tb.pins[pin.val]? = some q ∧ (q.dir ≠ .input ∨ q.level = rising ∨ q.lastEdge = some e ∧ s.edge < e +
    s.regs.gpioFilter.toNat) :=
  ⟨timed { pins := List.replicate 16 { dir := .input, level := true } }, 15, true, { dir := .input, level := true }, 0,
     by decide, by decide⟩

theorem wit_pins_are_stamped_and_driven_12 : ∃ (s : State) (pin : Fin 16) (q : GpioPin), s.tb.pins[pin.val]? = some q
    :=
  ⟨State.reset, 0, {}, by decide⟩

theorem wit_pins_are_stamped_and_driven_14 : ∃ (s : State) (pin : Fin 16) (q : GpioPin) (e : Nat), s.tb.pins[pin.val]?
    = some q ∧ q.pulseEnd = some e ∧ e ≤ s.edge :=
  ⟨timed { pins := List.replicate 16 { pulseEnd := some 0 } }, 15, { pulseEnd := some 0 }, 0, by decide⟩

theorem wit_syncs_steer_the_clock_1 : ∃ (s : State) (o : Int) (trim : Int) (n : Nat), s.tb.stepAccepted = false ∧
    s.tb.state = .acquiring ∧ s.tb.stepped = false :=
  ⟨timed { state := .acquiring }, -5, 3, 0, by decide⟩

theorem wit_syncs_steer_the_clock_2 : ∃ (s : State) (o : Int) (trim : Int) (n : Nat), s.tb.stepAccepted = false ∧
    s.tb.state = .acquiring ∧ s.tb.stepped = true ∧ s.tb.everLocked = false ∧ o.natAbs ≤ s.regs.syncThresh.toNat *
    4294967296 :=
  ⟨timed { state := .acquiring, stepped := true }, 250 * 4294967296, 3, 0, by decide⟩

theorem wit_syncs_steer_the_clock_3 : ∃ (s : State) (o : Int) (trim : Int) (n : Nat), s.tb.stepAccepted = false ∧
    s.tb.state = .locked ∧ o.natAbs ≤ s.regs.stepLimit.toNat * 4294967296 ∧ s.regs.syncThresh.toNat * 4294967296 <
    o.natAbs :=
  ⟨timed { state := .locked }, 1000 * 4294967296, 3, 0, by decide⟩

theorem wit_syncs_steer_the_clock_4 : ∃ (s : State) (o : Int) (trim : Int) (n : Nat), s.tb.stepAccepted = false ∧
    s.tb.stepPending = false ∧ s.tb.state = .locked ∧ s.regs.stepLimit.toNat * 4294967296 < o.natAbs :=
  ⟨timed { state := .locked, outliers := 2 }, 1000 * 4294967296 + 1, 3, 0, by decide⟩

theorem wit_syncs_steer_the_clock_5 : ∃ (s : State) (o : Int) (trim : Int) (n : Nat), s.tb.stepAccepted = false ∧
    s.tb.stepPending = true ∧ s.tb.state = .holdover ∧ s.regs.stepLimit.toNat * 4294967296 < o.natAbs :=
  ⟨timed { stepPending := true, state := .holdover }, 2 ^ 70, 0, 1, by decide⟩

theorem wit_syncs_steer_the_clock_6 : ∃ (s : State) (o : Int) (trim : Int) (n : Nat), s.tb.stepAccepted = false ∧
    s.tb.state = .holdover ∧ o.natAbs ≤ s.regs.stepLimit.toNat * 4294967296 :=
  ⟨timed { state := .holdover }, 1000 * 4294967296, 3, 0, by decide⟩

theorem wit_syncs_steer_the_clock_7 : ∃ (s : State) (o : Int) (trim : Int) (n : Nat), s.tb.stepAccepted = true :=
  ⟨timed { stepAccepted := true }, -7, 3, 0, by decide⟩

theorem wit_gptp_messages_reach_the_clock_and_are_sent_1 : ∃ (s : State) (p : Port) (m : SyncMsg), s.gptpCapable p =
    true ∧ m.domain = 0 ∧ s.tb.slave = some p ∧ m.twoStep = false :=
  ⟨uplinkUp { slave := some .uplink, ports := List.replicate 4 { asCapable := true } }, .uplink, { twoStep := false }, by decide⟩

theorem wit_gptp_messages_reach_the_clock_and_are_sent_2 : ∃ (s : State) (p : Port) (m : SyncMsg), s.gptpCapable p =
    true ∧ m.domain = 0 ∧ s.tb.slave = some p ∧ m.twoStep = true :=
  ⟨uplinkUp { slave := some .uplink, ports := List.replicate 4 { asCapable := true } }, .uplink, {}, by decide⟩

theorem wit_gptp_messages_reach_the_clock_and_are_sent_3 : ∃ (s : State) (p : Port) (m : SyncMsg), s.gptpOn p = true ∧
    m.domain ≠ 0 :=
  ⟨uplinkUp {}, .uplink, { domain := 1 }, by decide⟩

theorem wit_gptp_messages_reach_the_clock_and_are_sent_4 : ∃ (s : State) (p : Port) (m : FollowUpMsg) (y : SyncMsg),
    s.gptpCapable p = true ∧ m.domain = 0 ∧ s.tb.slave = some p ∧ (s.gptpPort p).pendingSync = some y ∧ y.seq = m.seq
    :=
  ⟨uplinkUp { slave := some .uplink, ports := List.replicate 4 { asCapable := true, pendingSync := some {} } }, .uplink, {}, {},
     by decide⟩

theorem wit_gptp_messages_reach_the_clock_and_are_sent_5 : ∃ (s : State) (p : Port), s.tb.slave = some p ∧ (s.gptpPort
    p).rxSyncEdge + 3 * intervalEdges (s.gptpPort p).logInterval ≤ s.edge :=
  ⟨{ uplinkUp { slave := some .uplink } with edge := 480000000 }, .uplink, by decide⟩

theorem wit_gptp_messages_reach_the_clock_and_are_sent_6 : ∃ (s : State) (p : Port), s.tb.slave = some p ∧ s.edge <
    (s.gptpPort p).rxSyncEdge + 3 * intervalEdges (s.gptpPort p).logInterval :=
  ⟨uplinkUp { slave := some .uplink }, .uplink, by decide⟩

theorem wit_gptp_messages_reach_the_clock_and_are_sent_7 : ∃ (s : State) (p : Port), s.syncLate p = true ∧ s.tb.state
    = .locked ∧ s.gmCapable = false ∧ s.allMaster = false ∧ s.tb.everLocked = true ∧ (∀ q, q ≠ p → (s.gptpPort
    q).foreign = none) :=
  ⟨{ timed { slave := some .peer, state := .locked, everLocked := true } with edge := 480000000 }, .peer, by decide, by decide,
     by decide, by decide, by decide, by intro q _; cases q <;> rfl⟩

theorem wit_gptp_messages_reach_the_clock_and_are_sent_8 : ∃ (s : State) (p : Port) (m : AnnounceMsg), s.gptpCapable p
    = true ∧ m.domain = 0 ∧ m.identity ≠ clockIdentity ∧ m.stepsRemoved ≠ 255 :=
  ⟨uplinkUp { ports := List.replicate 4 { asCapable := true } }, .uplink, { identity := clockIdentity + 1 }, by decide, by decide, by simp, by decide⟩

theorem wit_gptp_messages_reach_the_clock_and_are_sent_10 : ∃ (s : State) (p : Port), s.announceLate p = true ∧
    s.gmCapable = true ∧ s.tb.state = .freeRun ∧ (∀ q, q ≠ p → (s.gptpPort q).foreign = none) :=
  ⟨{ uplinkUp {} with edge := 480000000 }, .uplink, by decide, by decide, by decide, by intro q _; cases q <;> rfl⟩

theorem wit_gptp_messages_reach_the_clock_and_are_sent_11 : ∃ (s : State) (p : Port) (seq : BitVec 16) (requester :
    BitVec 80) (stamp : Int), s.gptpOn p = true :=
  ⟨uplinkUp {}, .uplink, 0xFFFF, 0, -1, by decide⟩

theorem wit_gptp_messages_reach_the_clock_and_are_sent_12 : ∃ (s : State) (p : Port) (m : PdelayResp) (g : GptpPort)
    (t1 : Int), s.tb.ports[portNum p]? = some g ∧ g.pdelaySent = some t1 ∧ s.gptpOn p = true ∧ m.seq = g.pdelaySeq ∧
    g.lastPdelay = none ∧ g.neighborRate = none ∧ g.asCapable = false :=
  ⟨uplinkUp { ports := List.replicate 4 { pdelaySent := some 9 } }, .uplink, {}, { pdelaySent := some 9 }, 9, by decide⟩

theorem wit_gptp_messages_reach_the_clock_and_are_sent_9 : ∃ (s : State) (p : Port), s.gptpOn p = true ∧ (s.gptpPort
    p).rxAnnounceEdge + 3 * 160000000 ≤ s.edge :=
  ⟨{ uplinkUp {} with edge := 480000000 }, .uplink, by decide⟩

theorem wit_gptp_messages_reach_the_clock_and_are_sent_13 : ∃ (s : State) (p : Port), s.gptpOn p = true ∧ (s.gptpPort
    p).txPdelayEdge + 160000000 ≤ s.edge ∧ (s.gptpPort p).pdelaySent = none :=
  ⟨{ uplinkUp {} with edge := 160000000 }, .uplink, by decide⟩

theorem wit_gptp_messages_reach_the_clock_and_are_sent_14 : ∃ (s : State) (p : Port), s.gptpOn p = true ∧ s.edge <
    (s.gptpPort p).txPdelayEdge + 160000000 :=
  ⟨uplinkUp {}, .uplink, by decide⟩

theorem wit_gptp_messages_reach_the_clock_and_are_sent_18 : ∃ (s : State) (p : Port), s.portRole p = 1 ∧ (s.gptpPort
    p).txAnnounceEdge + 160000000 ≤ s.edge :=
  ⟨{ uplinkUp { state := .grandmaster, ports := List.replicate 4 { asCapable := true } } with edge := 160000000 }, .uplink, by decide⟩

theorem wit_gptp_messages_reach_the_clock_and_are_sent_15 : ∃ (s : State) (p : Port), s.portRole p = 1 ∧ s.tb.state =
    .grandmaster ∧ (s.gptpPort p).txSyncEdge + intervalEdges (s.netPort p).logSync ≤ s.edge :=
  ⟨{ uplinkUp { state := .grandmaster, ports := List.replicate 4 { asCapable := true } } with edge := 160000000 }, .uplink, by decide⟩

theorem wit_gptp_messages_reach_the_clock_and_are_sent_16 : ∃ (s : State) (p : Port) (g : GptpPort), s.portRole p = 1
    ∧ s.tb.state = .grandmaster ∧ g.txSyncEdge + intervalEdges (s.netPort p).logSync ≤ s.edge ∧ s.tb.ports[portNum p]?
    = some g ∧ 7 ≤ g.syncsSent :=
  ⟨{ uplinkUp { state := .grandmaster, ports := List.replicate 4 { asCapable := true, syncsSent := 7 } } with edge := 160000000 },
     .uplink, { asCapable := true, syncsSent := 7 }, by decide⟩

theorem wit_gptp_messages_reach_the_clock_and_are_sent_17 : ∃ (s : State) (p : Port) (x : SyncSource), s.portRole p =
    1 ∧ s.tb.state ≠ .grandmaster ∧ s.tb.relay = some x ∧ x.logInterval ≠ (s.netPort p).logSync ∧ (s.gptpPort
    p).txSyncEdge + intervalEdges (s.netPort p).logSync ≤ s.edge :=
  ⟨{ uplinkUp { state := .locked, relay := some { logInterval := 1 }, ports := List.replicate 4 { asCapable := true } } with edge := 160000000 }, .uplink,
     { logInterval := 1 }, by decide⟩



/-! ## Witnesses, continued -/

/-- A descriptor of given words, the others 0. -/
def desc (l : List (Nat × Word)) : Descriptor := { w := (List.range 16).map fun k => (l.lookup k).getD 0 }

/-- A running job of one slot on core 0 with one issued descriptor, and T1 scratch of given bytes. -/
def jobOn (d : Descriptor) (t1 : Memory) : Job :=
  { id := 1, state := .running, slots := [{ inFlight := [{ desc := d }], t1 := t1 }], counters := List.replicate 16 0 }

/-- The running job, and what its core holds. -/
def runs (d : Descriptor) (t1 : Memory) : State := { State.reset with jobs := { list := [jobOn d t1] } }

/-- One job. -/
def hasJob (j : Job) : State :=
  { opened (some 0) with jobs := { list := [j] }, cores := List.replicate 36 { state := .idle } }

/-- A core in a state, as all 36. -/
def allCores (c : Core) : State := { State.reset with cores := List.replicate 36 c }

/-- A job on core 0 whose descriptor waits for its last tile. -/
def tileFlight (n : Nat) : InFlight := { stage := .waiting, work := { tiles := [{ bank := some 0 }], tile := n } }

/-- A running job with one descriptor whose only output tile has taken bank 0 after `n` tiles were loaded. -/
def tileJob (n : Nat) : Job := { id := 1, state := .running, slots := [{ inFlight := [tileFlight n] }] }

/-- A core whose bank 0 computes that tile and whose comparators have compared. -/
def tileCore : Core :=
  { job := some 1, banks := [{ state := .computing, owner := some (1, 0, 0), compared := 0xF }, {}] }

/-- Every core holds that job. -/
def tileState (c : Core) (n edge : Nat) : State := { allCores c with jobs := { list := [tileJob n] }, edge := edge }

/-- A job that starts: an object holds a chain of one slot and one descriptor, and slot 0 is on core 0. -/
def starts : State :=
  { hasJob { id := 1, chainObj := 5 } with
    glb := { stage := .ready, slotMap := [(0, 0, 0)] }
    tir := { objs := [{ obj := 5, len := 192, data := [(0, 1), (12, 1), (64, 2), (68, 1)] }] } }

/-- An armed Outline whose boundary is now. -/
def armed (new : Outline) : State :=
  { State.reset with
    glb := { stage := .ready, pdState := 0xFFFFF8 }
    otl := { state := .armed, staged := some new, running := { partitions := [{ slots := 1 }] } } }

/-- A job on T1 scratch that has taken context 0. -/
def ctxJobOn (c : Context) (d : Descriptor) (t1 : Memory) : Job := { jobOn d t1 with journal := { ctxs := [c] } }

/-- Context 0 of partition 0, with its pool and the job that has taken it. -/
def ctxJob (c : Context) (d : Descriptor) (t1 : Memory) : State :=
  { State.reset with
    jobs := { list := [ctxJobOn c d t1] }
    otl := { running := { pools := [{ contexts := 1, kvPages := 16, recStreams := 1 }] } }
    ctx := { enabled := true, table := [c] } }

theorem wit_outlines_are_staged_validated_armed_and_cancelled_1 : ∃ (s : State) (v : Word), bit v 0 = true ∧
    (s.otl.state = .idle ∨ s.otl.state = .staging ∨ s.otl.state = .valid ∨ s.otl.state = .rejected) :=
  ⟨{ State.reset with otl := { state := .rejected } }, 1, by decide⟩

theorem wit_outlines_are_staged_validated_armed_and_cancelled_2 : ∃ (s : State) (v : Word), bit v 0 = true ∧
    s.otl.state = .armed ∧ s.lastMs = false :=
  ⟨{ State.reset with otl := { state := .armed }, rgn := { epochTime := { w0 := 1000000 } } }, 1, by decide⟩

theorem wit_outlines_are_staged_validated_armed_and_cancelled_3 : ∃ (s : State) (v : Word), bit v 0 = true ∧
    (s.otl.state = .validating ∨ s.otl.state = .armed ∧ s.lastMs = true) :=
  ⟨{ State.reset with otl := { state := .armed }, rgn := { epochTime := { w0 := 999999 } } }, 1, by decide⟩

theorem wit_outlines_are_staged_validated_armed_and_cancelled_4 : ∃ (s : State) (v : Word), bit v 0 = true ∧
    s.otl.state = .staging :=
  ⟨{ State.reset with otl := { state := .staging } }, 1, by decide⟩

theorem wit_outlines_are_staged_validated_armed_and_cancelled_5 : ∃ (s : State) (code word : Nat), s.otl.state =
    .validating ∧ s.validate s.stagedImage s.otl.stagedWords false = .fail code word :=
  ⟨{ State.reset with otl := { state := .validating } }, 1, 0, by decide⟩

theorem wit_outlines_are_staged_validated_armed_and_cancelled_7 : ∃ (s : State) (v : Word) (o : Outline), bit v 0 =
    true ∧ s.otl.state = .valid ∧ s.otl.staged = some o ∧ compactOk s.regs.commitTime = true ∧ wholeH (compactNear
    s.regs.commitTime s.now) o.h = true ∧ wholeH (compactNear s.regs.commitTime s.now) s.otl.running.h = true ∧ s.now
    + 1000000 * unitsNs ≤ compactNear s.regs.commitTime s.now :=

     ⟨{ State.reset with otl := { state := .valid, staged := some { h := 160 }, running := { h := 160 } }, regs := { commitTime := { w0 := 1000000 } } },
     1, { h := 160 }, by decide⟩

theorem wit_outlines_are_staged_validated_armed_and_cancelled_8 : ∃ (s : State) (v : Word) (o : Outline), bit v 0 =
    true ∧ s.otl.state = .valid ∧ s.otl.staged = some o ∧ compactNear s.regs.commitTime s.now < s.now + 1000000 *
    unitsNs :=
  ⟨{ State.reset with otl := { state := .valid, staged := some {} }, regs := { commitTime := { w0 := 999999 } } }, 1,
     {}, by decide⟩

theorem wit_outlines_are_staged_validated_armed_and_cancelled_9 : ∃ (s : State) (v : Word), bit v 0 = true ∧
    s.otl.state ≠ .idle ∧ s.otl.state ≠ .validating ∧ s.lastMs = false :=
  ⟨{ State.reset with otl := { state := .rejected } }, 1, by decide⟩

theorem wit_rejected_images_stay_and_are_never_armed_1 : ∃ (c : Instr) (s t : State), s.otl.state = .rejected ∧
    s.glb.stage ≠ .outline ∧ exec c s = .next t :=
  ⟨.tbStepAccept 0, { State.reset with otl := { state := .rejected } },
     { State.reset with otl := { state := .rejected } }, by decide, by decide, rfl⟩

theorem wit_boundaries_commit_the_new_outline_1 : ∃ (s : State) (new : Outline), s.otl.staged = some new ∧ s.lastMs =
    true ∧ s.rgn.shadowLoaded = false ∧ (s.powerFor new).resourcesLeft new = true :=
  ⟨armed { domainOn := 0xFFFF7F }, { domainOn := 0xFFFF7F }, by decide +kernel⟩

theorem wit_boundaries_commit_the_new_outline_2 : ∃ (s : State) (new : Outline), s.otl.staged = some new ∧ s.lastMs =
    true ∧ s.rgn.shadowLoaded = false ∧ (s.powerFor new).resourcesLeft new = false :=

     ⟨{ armed {} with otl := { state := .armed, staged := some {}, stagedWords := 46, staging := [(8, 46), (64, 4), (66, 16), (67, 13)] } },
     {}, by decide⟩

theorem wit_boundaries_commit_the_new_outline_3 : ∃ (s : State) (new : Outline) (b : Int), s.otl.staged = some new ∧
    s.boundary = some b ∧ b ≤ s.now ∧ s.rgn.shadowLoaded = true :=
  ⟨{ armed {} with rgn := { shadowLoaded := true } }, {}, 0, by decide⟩

theorem wit_boundaries_commit_the_new_outline_4 : ∃ (s : State) (new : Outline) (b : Int), s.otl.staged = some new ∧
    s.boundary = some b ∧ s.now < b :=
  ⟨{ armed {} with rgn := { epochTime := { w0 := 1 } } }, {}, unitsNs, by decide⟩

theorem wit_boundaries_commit_the_new_outline_5 : ∃ (s : State) (d : Fin 24) (new : Outline), s.lastMs = true ∧
    s.glb.pdState.getLsbD d = false ∧ s.otl.staged = some new ∧ new.domainOn.getLsbD d = true :=
  ⟨armed { domainOn := 7 }, 2, { domainOn := 7 }, by decide⟩

theorem wit_boundaries_commit_the_new_outline_6 : ∃ (s : State) (d : Fin 24), s.outlineRuns = true ∧ fixedDomain d =
    false ∧ s.glb.pdState.getLsbD d = true ∧ s.otl.running.domainOn.getLsbD d = false ∧ s.lastMs = false :=
  ⟨ready { domainOn := 0 }, 22, by decide⟩

theorem wit_jobs_run_restart_and_end_1 : ∃ (s : State) (i : Fin 16) (b : JobBody) (p : Nat), (s.session i).open_ =
    true ∧ (s.session i).part = some p ∧ s.glb.stage = .ready ∧ s.resetting p = false ∧ jobBodyBad b = false ∧
    s.submitted p < 256 ∧ bit b.w2 27 = false :=
  ⟨opened (some 7), 15, { w2 := 1000 }, 7, by decide⟩

theorem wit_jobs_run_restart_and_end_2 : ∃ (s : State) (i : Fin 16) (tag job : Word) (j : Job) (sess : Nat) (g :
    Word), (s.session i).open_ = true ∧ (s.session i).part = some j.part ∧ s.job? job = some j ∧ j.origin = .submitted
    sess g ∧ j.state ≠ .sealing :=
  ⟨hasJob { id := 1, origin := .submitted 0 0 }, 0, 0, 1, { id := 1, origin := .submitted 0 0 }, 0, 0, by decide⟩

theorem wit_jobs_run_restart_and_end_3 : ∃ (s : State) (job : Word) (j : Job), s.job? job = some j ∧ j.state = .armed
    ∧ j.launch ≤ s.now :=
  ⟨hasJob { id := 1, state := .armed }, 1, { id := 1, state := .armed }, by decide⟩

theorem wit_jobs_run_restart_and_end_4 : ∃ (s : State) (part : Fin 8) (j : Job) (l : List Job) (o : ObjVersion) (c :
    Chain) (bs : List Binding), s.resetting part = false ∧ s.order part = j :: l ∧ (∀ x ∈ s.order part, s.tooWide x =
    false) ∧ ((s.tir.waits.any fun w => w.job = j.id && w.slot = 32) = false) ∧ s.newestOf j.part j.chainObj = some o
    ∧ o.state = .sealed ∧ parseChain o.data o.len = some c ∧ c.width ≤ (s.startSlots j c).length ∧ (bindAll (s.bindOne
    j ((c.inputs.filter isAlias) ++ c.aliases).dedup) (c.inputs ++ (((c.inputs.filter isAlias) ++
    c.aliases).dedup).filter fun a => !c.inputs.contains a).dedup = .ok bs) ∧ s.dirUsed + (c.outputs + toBit c.log) ≤
    65536 ∧ (c.plateLocal + total ((s.outputsOf j c).map fun o => unitsOf (o.fixedLen.getD 0)) ≤ s.t2Free) :=
  ⟨starts, 0, { id := 1, chainObj := 5 }, [], { obj := 5, len := 192, data := [(0, 1), (12, 1), (64, 2), (68, 1)] },
     { slots := [[{ w := List.replicate 16 0 }]] }, [], by decide⟩

theorem wit_jobs_run_restart_and_end_5 : ∃ (s : State) (job : Word) (j : Job), s.job? job = some j ∧ (j.state =
    .launched ∨ j.state = .running ∨ j.state = .restarting) ∧ j.launchEdge + j.deadlineUs * 160 ≤ s.edge :=
  ⟨{ hasJob { id := 1 } with edge := 160000 }, 1, { id := 1 }, by decide⟩

theorem wit_jobs_run_restart_and_end_6 : ∃ (s : State) (job : Word) (j : Job), s.job? job = some j ∧ j.state =
    .restarting ∧ j.waitsForCore = none ∧ (∀ x ∈ j.slots, s.restartCore j x = some x.core) :=
  ⟨hasJob { id := 1, state := .restarting, slots := [{}] }, 1, { id := 1, state := .restarting, slots := [{}] },
     by decide⟩

theorem wit_jobs_run_restart_and_end_7 : ∃ (s : State) (job : Word) (j : Job) (e : Nat), s.job? job = some j ∧ j.state
    = .sealing ∧ j.origin = .fired e ∧ ((s.eth.sessions.any fun x => x.open_ && x.subscribe && x.part = some j.part) =
    false) ∧ (s.jobs.queues.getD j.part []).length < 1024 :=
  ⟨hasJob { id := 1, state := .sealing }, 1, { id := 1, state := .sealing }, 0, by decide⟩

theorem wit_jobs_run_restart_and_end_8 : ∃ (s : State) (j : Job), s.job? j.id = some j ∧ j.state = .running ∧
    j.attempt < j.budget ∧ s.edge + (j.chain.wcet + 200) * 160 ≤ j.launchEdge + j.deadlineUs * 160 :=
  ⟨{ hasJob { id := 1, state := .running } with edge := 127840 }, { id := 1, state := .running }, by decide⟩

theorem wit_jobs_run_restart_and_end_9 : ∃ (s : State) (j : Job), s.job? j.id = some j ∧ j.state = .running ∧ j.budget
    ≤ j.attempt :=
  ⟨hasJob { id := 1, state := .running, attempt := 1 }, { id := 1, state := .running, attempt := 1 }, by decide⟩

theorem wit_slots_issue_wait_and_complete_1 : ∃ (s : State) (job : Word) (slot : Fin 32) (j : Job) (d : Descriptor),
    s.job? job = some j ∧ j.state = .running ∧ slot.val < j.slots.length ∧ (j.chain.slots.getD slot [])[(j.slots.getD
    slot {}).next]? = some d ∧ s.mayIssue j slot (j.slots.getD slot {}) d = true ∧ s.issueFault j d = none ∧ d.op ≠ 6
    ∧ d.op ≠ 7 ∧ j.growth (s.touchesOf d) = 0 :=
  ⟨hasJob { id := 1, state := .running, slots := [{}], chain := { slots := [[desc [(0, 0x0C), (11, 1)]]] } }, 1, 0,
     { id := 1, state := .running, slots := [{}], chain := { slots := [[desc [(0, 0x0C), (11, 1)]]] } }, desc [(0,
     0x0C), (11, 1)], by decide⟩

theorem wit_slots_issue_wait_and_complete_2 : ∃ (s : State) (job : Word) (slot : Fin 32) (j : Job) (i : InFlight)
    (rest : List InFlight), s.job? job = some j ∧ j.state = .running ∧ (j.slots.getD slot {}).inFlight = i :: rest ∧
    i.stage = .acted :=
  ⟨hasJob { id := 1, state := .running, slots := [{ inFlight := [{ stage := .acted }] }] }, 1, 0,
     { id := 1, state := .running, slots := [{ inFlight := [{ stage := .acted }] }] }, { stage := .acted }, [],
     by decide⟩

theorem wit_slots_issue_wait_and_complete_3 : ∃ (s : State) (job : Word) (slot : Fin 32) (j : Job) (i : InFlight),
    (s.Issued job slot 0x0C (fun _ => true) j i) :=
  ⟨runs (desc [(0, 0x0C), (11, 0xFFFF)]) [], 1, 0, jobOn (desc [(0, 0x0C), (11, 0xFFFF)]) [],
     { desc := desc [(0, 0x0C), (11, 0xFFFF)] }, ⟨by decide, by decide, by decide⟩⟩

theorem wit_slots_issue_wait_and_complete_4 : ∃ (s : State) (job : Word) (slot : Fin 32) (j : Job) (i : InFlight),
    (s.Issued job slot 0x0D (fun _ => true) j i) ∧ (i.desc.word 11).toNat ≤ (j.counters.getD (i.desc.param0 % 16)
    0).toNat :=
  ⟨runs (desc [(0, 0x0D)]) [], 1, 0, jobOn (desc [(0, 0x0D)]) [], { desc := desc [(0, 0x0D)] }, ⟨by decide, by decide,
     by decide⟩, by decide⟩

theorem wit_slots_issue_wait_and_complete_5 : ∃ (s : State) (job : Word) (slot : Fin 32) (j : Job) (i : InFlight),
    (s.Issued job slot 0x0D (fun _ => true) j i) ∧ (j.counters.getD (i.desc.param0 % 16) 0).toNat < (i.desc.word
    11).toNat :=
  ⟨runs (desc [(0, 0x0D), (11, 1)]) [], 1, 0, jobOn (desc [(0, 0x0D), (11, 1)]) [],
     { desc := desc [(0, 0x0D), (11, 1)] }, ⟨by decide, by decide, by decide⟩, by decide⟩

theorem wit_slots_issue_wait_and_complete_6 : ∃ (s : State) (job : Word) (slot : Fin 32) (j : Job) (i : InFlight),
    s.job? job = some j ∧ j.waiting slot 0x0D = some i ∧ (i.desc.word 11).toNat ≤ (j.counters.getD (i.desc.param0 %
    16) 0).toNat :=
  ⟨hasJob
     { id := 1, state := .running, slots := [{ inFlight := [{ desc := desc [(0, 0x0D)], stage := .waiting }] }] }, 1,
     0, { id := 1, state := .running, slots := [{ inFlight := [{ desc := desc [(0, 0x0D)], stage := .waiting }] }] },
     { desc := desc [(0, 0x0D)], stage := .waiting }, by decide⟩

theorem wit_slots_issue_wait_and_complete_7 : ∃ (s : State) (job : Word) (slot : Fin 32) (j : Job) (i : InFlight),
    (s.Issued job slot 0x0B (fun d => d.sub = 0) j i) :=
  ⟨runs (desc [(0, 0x0B)]) [], 1, 0, jobOn (desc [(0, 0x0B)]) [], { desc := desc [(0, 0x0B)] }, ⟨by decide, by decide,
     by decide⟩⟩

theorem wit_slots_issue_wait_and_complete_8 : ∃ (s : State) (job : Word) (slot : Fin 32) (j : Job) (i : InFlight),
    (s.Issued job slot 0x0B (fun d => d.sub = 1) j i) :=
  ⟨runs (desc [(0, 0x0B), (2, 0x10000000)]) [], 1, 0, jobOn (desc [(0, 0x0B), (2, 0x10000000)]) [],
     { desc := desc [(0, 0x0B), (2, 0x10000000)] }, ⟨by decide, by decide, by decide⟩⟩

theorem wit_slots_issue_wait_and_complete_9 : ∃ (s : State) (job : Word) (slot : Fin 32) (j : Job) (i : InFlight),
    s.job? job = some j ∧ j.waiting slot 0x0B = some i ∧ s.waitInstant j i.desc ≤ s.now :=
  ⟨hasJob
     { id := 1, state := .running, slots := [{ inFlight := [{ desc := desc [(0, 0x0B)], stage := .waiting }] }] }, 1,
     0, { id := 1, state := .running, slots := [{ inFlight := [{ desc := desc [(0, 0x0B)], stage := .waiting }] }] },
     { desc := desc [(0, 0x0B)], stage := .waiting }, by decide⟩

theorem wit_operations_write_their_results_1 : ∃ (s : State) (job : Word) (slot : Fin 32) (lane : Bool) (j : Job) (i :
    InFlight) (steps : List EpiStep), (s.Issued job slot 1 (fun _ => true) j i) ∧ s.epilogue j slot i.desc.epilogue
    i.desc.m i.desc.n false = .ok steps ∧ j.writable i.desc.cObj = true ∧ i.desc.route j.chain.drypoint = .kZero :=
  ⟨runs (desc [(0, 1), (1, 1), (2, 2), (8, 0xFFFFFFFE), (10, 1)]) [], 1, 0, false, jobOn (desc [(0, 1), (1, 1), (2,
     2), (8, 0xFFFFFFFE), (10, 1)]) [], { desc := desc [(0, 1), (1, 1), (2, 2), (8, 0xFFFFFFFE), (10, 1)] }, [],
     ⟨by decide, by decide, by decide⟩, by rfl, by decide⟩

theorem wit_operations_write_their_results_2 : ∃ (s : State) (job : Word) (slot : Fin 32) (j : Job) (i : InFlight)
    (steps : List EpiStep), (s.Issued job slot 1 (fun _ => true) j i) ∧ s.epilogue j slot i.desc.epilogue i.desc.m
    i.desc.n false = .ok steps ∧ j.writable i.desc.cObj = true ∧ (i.desc.route j.chain.drypoint = .swapped ∨
    i.desc.route j.chain.drypoint = .drypoint) ∧ i.desc.laneFaulty (j.bytes slot i.desc.aObj) (j.bytes slot
    i.desc.bObj) false = false :=
  ⟨runs (desc [(0, 1), (1, 1), (2, 1), (3, 4), (8, 0xFFFFFFFE), (10, 1)]) [], 1, 0, jobOn (desc [(0, 1), (1, 1), (2,
     1), (3, 4), (8, 0xFFFFFFFE), (10, 1)]) [],
     { desc := desc [(0, 1), (1, 1), (2, 1), (3, 4), (8, 0xFFFFFFFE), (10, 1)] }, [], ⟨by decide, by decide,
     by decide⟩, by rfl, by decide +kernel⟩

theorem wit_operations_write_their_results_3 : ∃ (s : State) (job : Word) (slot : Fin 32) (lane : Bool) (j : Job) (i :
    InFlight) (steps : List EpiStep), (s.Issued job slot 1 (fun _ => true) j i) ∧ s.epilogue j slot i.desc.epilogue
    i.desc.m i.desc.n false = .ok steps ∧ j.writable i.desc.cObj = true ∧ i.desc.route j.chain.drypoint = .arrays :=
  ⟨runs (desc [(0, 1), (1, 256), (2, 256), (3, 64), (8, 0xFFFFFFFE), (10, 1)]) [], 1, 0, false, jobOn (desc [(0, 1),
     (1, 256), (2, 256), (3, 64), (8, 0xFFFFFFFE), (10, 1)]) [],
     { desc := desc [(0, 1), (1, 256), (2, 256), (3, 64), (8, 0xFFFFFFFE), (10, 1)] }, [], ⟨by decide, by decide,
     by decide⟩, by rfl, by decide⟩

theorem wit_operations_write_their_results_4 : ∃ (s : State) (job : Word) (slot : Fin 32) (j : Job) (i : InFlight)
    (steps : List EpiStep), (s.Issued job slot 2 (fun _ => true) j i) ∧ s.epilogue j slot i.desc.epilogue i.desc.m
    i.desc.n false = .ok steps ∧ j.writable i.desc.cObj = true ∧ i.desc.flag 13 = false ∧ i.desc.flag 11 = false ∧
    i.desc.geo.depthwise = true ∧ i.desc.n ≠ 0 ∧ i.desc.batch ≠ 0 ∧ i.desc.k ≠ 0 :=
  ⟨runs (desc [(0, 2), (1, 1), (2, 1), (3, 1), (8, 0xFFFFFFFE), (10, 1), (11, 0x2001), (12, 0x01000000)]) [], 1, 0,
     jobOn (desc [(0, 2), (1, 1), (2, 1), (3, 1), (8, 0xFFFFFFFE), (10, 1), (11, 0x2001), (12, 0x01000000)]) [],
     { desc := desc [(0, 2), (1, 1), (2, 1), (3, 1), (8, 0xFFFFFFFE), (10, 1), (11, 0x2001), (12, 0x01000000)] }, [],
     ⟨by decide, by decide, by decide⟩, by rfl, by decide⟩

theorem wit_operations_write_their_results_5 : ∃ (s : State) (job : Word) (slot : Fin 32) (j : Job) (i : InFlight)
    (steps : List EpiStep), (s.Issued job slot 3 (fun _ => true) j i) ∧ s.epilogue j slot i.desc.epilogue i.desc.m
    i.desc.n false = .ok steps ∧ j.writable i.desc.cObj = true ∧ i.desc.flag 13 = false ∧ i.desc.n ≠ 0 ∧ i.desc.batch
    ≠ 0 :=
  ⟨runs (desc [(0, 3), (1, 1), (2, 1), (8, 0xFFFFFFFE), (10, 1), (11, 0x2001)]) [], 1, 0, jobOn (desc [(0, 3), (1, 1),
     (2, 1), (8, 0xFFFFFFFE), (10, 1), (11, 0x2001)]) [],
     { desc := desc [(0, 3), (1, 1), (2, 1), (8, 0xFFFFFFFE), (10, 1), (11, 0x2001)] }, [], ⟨by decide, by decide,
     by decide⟩, by rfl, by decide⟩

theorem wit_operations_write_their_results_6 : ∃ (s : State) (job : Word) (slot : Fin 32) (j : Job) (i : InFlight),
    (s.Issued job slot 5 (fun _ => true) j i) ∧ i.desc.epilogue = 0 ∧ j.writable i.desc.cObj = true ∧ i.desc.m = 1 ∧
    i.desc.batch ≤ 1 ∧ i.desc.sub ≠ 1 ∧ i.desc.bObj = 0 :=
  ⟨runs (desc [(0, 5), (1, 1), (2, 64), (8, 0xFFFFFFFE)]) [], 1, 0, jobOn (desc [(0, 5), (1, 1), (2, 64), (8,
     0xFFFFFFFE)]) [], { desc := desc [(0, 5), (1, 1), (2, 64), (8, 0xFFFFFFFE)] }, ⟨by decide, by decide, by decide⟩,
     by decide⟩

theorem wit_operations_write_their_results_7 : ∃ (s : State) (job : Word) (slot : Fin 32) (j : Job) (i : InFlight)
    (steps : List EpiStep), (s.Issued job slot 4 (fun d => d.sub = 0) j i) ∧ s.epilogue j slot i.desc.epilogue
    i.desc.m i.desc.n true = .ok steps ∧ j.writable i.desc.cObj = true ∧ ((steps.any fun e => e.src = 3) = false ∨
    i.desc.bObj ≠ 0) ∧ i.desc.flag 10 = false ∧ i.desc.batch ≠ 0 :=
  ⟨runs (desc [(0, 4), (1, 1), (2, 1), (8, 0xFFFFFFFE), (10, 1)]) [], 1, 0, jobOn (desc [(0, 4), (1, 1), (2, 1), (8,
     0xFFFFFFFE), (10, 1)]) [], { desc := desc [(0, 4), (1, 1), (2, 1), (8, 0xFFFFFFFE), (10, 1)] }, [], ⟨by decide,
     by decide, by decide⟩, by rfl, by decide⟩

theorem wit_operations_write_their_results_8 : ∃ (s : State) (job : Word) (slot : Fin 32) (j : Job) (i : InFlight) (x
    : PwlTable), (s.Issued job slot 4 (fun d => d.sub = 1) j i) ∧ j.readFault i.desc.aObj i.desc.aOff (4 * (2 + 3 *
    fld (Memory.readWord (j.bytes slot i.desc.aObj) i.desc.aOff) 6 0)) = none ∧ parsePwl (j.bytes slot i.desc.aObj)
    i.desc.aOff = some x :=
  ⟨runs (desc [(0, 4), (2, 0x10000000), (4, 0xFFFFFFFE)]) [(0, 1)], 1, 0, jobOn (desc [(0, 4), (2, 0x10000000), (4,
     0xFFFFFFFE)]) [(0, 1)], { desc := desc [(0, 4), (2, 0x10000000), (4, 0xFFFFFFFE)] }, { segments := [(0, 0, 0)] },
     ⟨by decide, by decide, by decide⟩, by decide⟩

theorem wit_operations_write_their_results_9 : ∃ (s : State) (job : Word) (slot : Fin 32) (j : Job) (i : InFlight)
    (best : List (Nat × Word)), (s.Issued job slot 9 (fun _ => true) j i) ∧ j.writable i.desc.cObj = true ∧ sortSelect
    (i.desc.sub = 1) (i.desc.word 13) i.desc.n (readRowF32 (j.bytes slot i.desc.aObj) i.desc.aOff i.desc.fmtA 1
    i.desc.m 0) = best :=
  ⟨runs (desc [(0, 9), (1, 0x0C000002), (2, 1), (4, 0xFFFFFFFE), (8, 0xFFFFFFFE)]) [(7, 0x40)], 1, 0, jobOn (desc [(0,
     9), (1, 0x0C000002), (2, 1), (4, 0xFFFFFFFE), (8, 0xFFFFFFFE)]) [(7, 0x40)],
     { desc := desc [(0, 9), (1, 0x0C000002), (2, 1), (4, 0xFFFFFFFE), (8, 0xFFFFFFFE)] }, [(1, 0x40000000)],
     ⟨by decide, by decide, by decide⟩, by decide⟩

theorem wit_operations_write_their_results_10 : ∃ (s : State) (job : Word) (slot : Fin 32) (j : Job) (i : InFlight),
    (s.Issued job slot 10 (fun d => d.sub = 0) j i) ∧ j.writable i.desc.cObj = true ∧ fmtMx i.desc.fmtA = false :=
  ⟨runs (desc [(0, 10), (1, 0x0A000001), (2, 1), (4, 0xFFFFFFFE), (8, 0xFFFFFFFE)]) [], 1, 0, jobOn (desc [(0, 10),
     (1, 0x0A000001), (2, 1), (4, 0xFFFFFFFE), (8, 0xFFFFFFFE)]) [],
     { desc := desc [(0, 10), (1, 0x0A000001), (2, 1), (4, 0xFFFFFFFE), (8, 0xFFFFFFFE)] }, ⟨by decide, by decide,
     by decide⟩, by decide⟩

theorem wit_operations_write_their_results_11 : ∃ (s : State) (job : Word) (slot : Fin 32) (j : Job) (i : InFlight),
    (s.Issued job slot 10 (fun d => d.sub = 1) j i) ∧ j.writable i.desc.cObj = true ∧ i.desc.batch = 1 :=
  ⟨runs (desc [(0, 10), (1, 0x0A000001), (2, 0x10000001), (4, 0xFFFFFFFE), (8, 0xFFFFFFFE), (10, 1)]) [], 1, 0, jobOn
     (desc [(0, 10), (1, 0x0A000001), (2, 0x10000001), (4, 0xFFFFFFFE), (8, 0xFFFFFFFE), (10, 1)]) [],
     { desc := desc [(0, 10), (1, 0x0A000001), (2, 0x10000001), (4, 0xFFFFFFFE), (8, 0xFFFFFFFE), (10, 1)] },
     ⟨by decide, by decide, by decide⟩, by decide⟩

theorem wit_operations_write_their_results_12 : ∃ (s : State) (job : Word) (slot : Fin 32) (j : Job) (i : InFlight),
    (s.Issued job slot 10 (fun d => d.sub = 3) j i) ∧ j.writable i.desc.cObj = true ∧ fmtMx i.desc.fmtA = false :=
  ⟨runs (desc [(0, 10), (1, 0x0A000001), (2, 0x30000001), (4, 0xFFFFFFFE), (8, 0xFFFFFFFE)]) [], 1, 0, jobOn (desc
     [(0, 10), (1, 0x0A000001), (2, 0x30000001), (4, 0xFFFFFFFE), (8, 0xFFFFFFFE)]) [],
     { desc := desc [(0, 10), (1, 0x0A000001), (2, 0x30000001), (4, 0xFFFFFFFE), (8, 0xFFFFFFFE)] }, ⟨by decide,
     by decide, by decide⟩, by decide⟩

theorem wit_context_descriptors_act_1 : ∃ (s : State) (job : Word) (slot : Fin 32) (j : Job) (i : InFlight) (heads :
    List (Nat × Nat)) (run : AttnRun), (s.Issued job slot 6 (fun d => d.sub = 0) j i) ∧ s.attnFault j i.desc
    (i.desc.attnCtxs (j.bytes slot i.desc.bObj)) = none ∧ (heads = (i.desc.attnCtxs (j.bytes slot i.desc.bObj)).map
    (fun n => (n, ((s.seenBy j n).map (·.heads)).getD 0))) ∧ j.touchFault [
    { obj := i.desc.aObj, off := i.desc.aOff, len := tensorBytes i.desc.fmtA (i.desc.m * total (heads.map (·.2))) i.desc.n },
    { obj := i.desc.word 11, off := (i.desc.word 12).toNat, len := heads.length * i.desc.m * 256 },
    { obj := i.desc.cObj, off := i.desc.cOff, len := tensorBytes i.desc.fmtC (i.desc.m * total (heads.map (·.2))) i.desc.n, write := true }]
    = none ∧ run = (attnPlaces i.desc.m 0 0 heads).foldl (AttnRun.context j i.desc (j.bytes slot i.desc.aObj) (j.bytes
    slot (i.desc.word 11)) (i.desc.m * total (heads.map (·.2)))) { state := s, out := j.bytes slot i.desc.cObj } ∧
    run.failed = false ∧ run.damaged = none ∧ run.limit = none ∧ run.lane.2 = false :=
  ⟨ctxJob { state := .active, kv := true, layers := 1, groups := 1, fmt := 2, heads := 1, lgs := [{}] }
       (desc [(0, 6), (1, 0x22000001), (2, 0x02000080), (4, 0xFFFFFFFE), (5, 256), (6, 0xFFFFFFFE),
       (8, 0xFFFFFFFE), (10, 1), (11, 0xFFFFFFFE), (12, 4096)]) ((List.range 128).map fun k => (256 + k, 0x7F)),
     1, 0,
     ctxJobOn { state := .active, kv := true, layers := 1, groups := 1, fmt := 2, heads := 1, lgs := [{}] }
       (desc [(0, 6), (1, 0x22000001), (2, 0x02000080), (4, 0xFFFFFFFE), (5, 256), (6, 0xFFFFFFFE),
       (8, 0xFFFFFFFE), (10, 1), (11, 0xFFFFFFFE), (12, 4096)]) ((List.range 128).map fun k => (256 + k, 0x7F)),
     { desc := (desc [(0, 6), (1, 0x22000001), (2, 0x02000080), (4, 0xFFFFFFFE), (5, 256), (6, 0xFFFFFFFE),
       (8, 0xFFFFFFFE), (10, 1), (11, 0xFFFFFFFE), (12, 4096)]) },
     [(0, 1)], _, ⟨by decide +kernel, by decide +kernel, by decide +kernel⟩, by decide +kernel, by decide +kernel,
     by decide +kernel, rfl, by decide +kernel⟩

theorem wit_context_descriptors_act_2 : ∃ (s : State) (job : Word) (slot : Fin 32) (j : Job) (i : InFlight) (heads :
    List (Nat × Nat)) (run : AttnRun), (s.Issued job slot 6 (fun d => d.sub = 1) j i) ∧ s.attnFault j i.desc
    (i.desc.attnCtxs (j.bytes slot i.desc.bObj)) = none ∧ (heads = (i.desc.attnCtxs (j.bytes slot i.desc.bObj)).map
    (fun n => (n, ((s.seenBy j n).map (·.heads)).getD 0))) ∧ j.touchFault [
    { obj := i.desc.aObj, off := i.desc.aOff, len := tensorBytes i.desc.fmtA (i.desc.m * total (heads.map (·.2))) i.desc.n },
    { obj := i.desc.word 11, off := (i.desc.word 12).toNat, len := heads.length * i.desc.m * 256 },
    { obj := i.desc.cObj, off := i.desc.cOff, len := tensorBytes i.desc.fmtC (i.desc.m * total (heads.map (·.2))) i.desc.n, write := true }]
    = none ∧ run = (attnPlaces i.desc.m 0 0 heads).foldl (AttnRun.context j i.desc (j.bytes slot i.desc.aObj) (j.bytes
    slot (i.desc.word 11)) (i.desc.m * total (heads.map (·.2)))) { state := s, out := j.bytes slot i.desc.cObj } ∧
    run.failed = false ∧ run.damaged = none ∧ run.limit = none ∧ run.tiles ≠ [] :=
  ⟨ctxJob { state := .active, kv := true, layers := 1, groups := 1, fmt := 2, heads := 1, lgs := [{}] } (desc [(0, 6),
     (1, 0x22000001), (2, 0x12000080), (4, 0xFFFFFFFE), (6, 0xFFFFFFFE), (8, 0xFFFFFFFE), (10, 1), (11, 0xFFFFFFFE),
     (12, 4096)]) [], 1, 0, ctxJobOn
     { state := .active, kv := true, layers := 1, groups := 1, fmt := 2, heads := 1, lgs := [{}] } (desc [(0, 6), (1,
     0x22000001), (2, 0x12000080), (4, 0xFFFFFFFE), (6, 0xFFFFFFFE), (8, 0xFFFFFFFE), (10, 1), (11, 0xFFFFFFFE), (12,
     4096)]) [],
     { desc := desc [(0, 6), (1, 0x22000001), (2, 0x12000080), (4, 0xFFFFFFFE), (6, 0xFFFFFFFE), (8, 0xFFFFFFFE), (10, 1), (11, 0xFFFFFFFE), (12, 4096)] },
     [(0, 1)], _, ⟨by decide +kernel, by decide +kernel, by decide +kernel⟩, by decide +kernel, by decide +kernel,
     by decide +kernel, rfl, by decide +kernel⟩

theorem wit_context_descriptors_act_3 : ∃ (s : State) (job : Word) (slot : Fin 32) (j : Job) (i : InFlight) (n : Nat)
    (c : Context) (r : StateRegion), (s.Issued job slot 7 (fun _ => true) j i) ∧ i.desc.m ≠ 0 ∧ i.desc.word 12 = 0 ∧
    (parseStateList (j.bytes slot (i.desc.word 11)) i.desc.batch).streams = [(n, 64)] ∧ (parseStateList (j.bytes slot
    (i.desc.word 11)) i.desc.batch).gates = false ∧ s.scanFault j i.desc (parseStateList (j.bytes slot (i.desc.word
    11)) i.desc.batch) true = none ∧ s.seenBy j n = some c ∧ c.state = .active ∧ c.id = n ∧ c.rec_ = some r :=
  ⟨ctxJob { state := .active, rec_ := some { units := 64 } } (desc [(0, 7), (1, 0x0C000001), (2, 0x0C000001), (4,
     0xFFFFFFFE), (6, 0xFFFFFFFE), (8, 0xFFFFFFFE), (10, 1), (11, 0xFFFFFFFE)]) [(0, 1), (20, 64)], 1, 0, ctxJobOn
     { state := .active, rec_ := some { units := 64 } } (desc [(0, 7), (1, 0x0C000001), (2, 0x0C000001), (4,
     0xFFFFFFFE), (6, 0xFFFFFFFE), (8, 0xFFFFFFFE), (10, 1), (11, 0xFFFFFFFE)]) [(0, 1), (20, 64)],
     { desc := desc [(0, 7), (1, 0x0C000001), (2, 0x0C000001), (4, 0xFFFFFFFE), (6, 0xFFFFFFFE), (8, 0xFFFFFFFE), (10, 1), (11, 0xFFFFFFFE)] },
     0, { state := .active, rec_ := some { units := 64 } }, { units := 64 }, ⟨by decide +kernel, by decide +kernel,
     by decide +kernel⟩, by decide +kernel⟩

theorem wit_context_descriptors_act_4 : ∃ (s : State) (job : Word) (slot : Fin 32) (j : Job) (i : InFlight), (s.Issued
    job slot 8 (fun _ => true) j i) ∧ j.writable i.desc.cObj = true ∧ i.desc.flag 12 = true :=
  ⟨runs (desc [(0, 0x1008), (1, 1), (2, 1), (4, 0xFFFFFFFE), (8, 0xFFFFFFFE)]) [], 1, 0, jobOn (desc [(0, 0x1008), (1,
     1), (2, 1), (4, 0xFFFFFFFE), (8, 0xFFFFFFFE)]) [],
     { desc := desc [(0, 0x1008), (1, 1), (2, 1), (4, 0xFFFFFFFE), (8, 0xFFFFFFFE)] }, ⟨by decide, by decide,
     by decide⟩, by decide⟩

theorem wit_checks_and_the_margin_engine_act_1 : ∃ (s : State) (job : Word) (slot : Fin 32) (j : Job) (i : InFlight),
    (s.Issued job slot 0x0E (fun d => d.sub = 0) j i) :=
  ⟨runs (desc [(0, 0x0E), (10, 0x000F0000)]) [], 1, 0, jobOn (desc [(0, 0x0E), (10, 0x000F0000)]) [],
     { desc := desc [(0, 0x0E), (10, 0x000F0000)] }, ⟨by decide, by decide, by decide⟩⟩

theorem wit_checks_and_the_margin_engine_act_2 : ∃ (s : State) (job : Word) (slot : Fin 32) (j : Job) (i : InFlight),
    (s.Issued job slot 0x0E (fun d => d.sub = 1) j i) :=
  ⟨runs (desc [(0, 0x0E), (1, 1), (2, 0x10000001), (4, 0xFFFFFFFE)]) [], 1, 0, jobOn (desc [(0, 0x0E), (1, 1), (2,
     0x10000001), (4, 0xFFFFFFFE)]) [], { desc := desc [(0, 0x0E), (1, 1), (2, 0x10000001), (4, 0xFFFFFFFE)] },
     ⟨by decide, by decide, by decide⟩⟩

theorem wit_checks_and_the_margin_engine_act_3 : ∃ (s : State) (e : Word × Nat) (l : List (Word × Nat)),
    s.jobs.marginRun = none ∧ (s.jobs.marginQueue.foldl (fun acc e => insertBy s.marginBefore e acc) [] = e :: l) :=

     ⟨{ State.reset with jobs := { list := [{ id := 2, deadlineUs := 2000 }, { id := 1 }], marginQueue := [(2, 0), (1, 0)] } },
     (1, 0), [(2, 0)], by decide⟩

theorem wit_checks_and_the_margin_engine_act_4 : ∃ (s : State) (job : Word) (slot : Fin 32) (j : Job) (i : InFlight),
    s.jobs.marginRun = some (job, slot.val) ∧ s.job? job = some j ∧ j.marginFlight slot = some i :=

     ⟨{ State.reset with jobs := { marginRun := some (1, 0), list := [{ id := 1, slots := [{ inFlight := [{ desc := desc [(0, 0x2003)], stage := .waiting }] }] }] } },
     1, 0, { id := 1, slots := [{ inFlight := [{ desc := desc [(0, 0x2003)], stage := .waiting }] }] },
     { desc := desc [(0, 0x2003)], stage := .waiting }, by decide⟩

theorem wit_checks_and_the_margin_engine_act_5 : ∃ (s : State) (e : Word × Nat), s.jobs.marginRun = some e :=
  ⟨{ State.reset with jobs := { marginRun := some (1, 0) } }, (1, 0), by decide⟩

theorem wit_cores_load_compute_and_fault_1 : ∃ (s : State) (core : Fin 36) (buf : Fin 2) (c : Core),
    s.cores[core.val]? = some c ∧ c.job.isSome = true ∧ c.bufFull.getD buf false = false ∧ c.loadWaits = false :=
  ⟨allCores { job := some 1 }, 35, 1, { job := some 1 }, by decide⟩

theorem wit_cores_load_compute_and_fault_2 : ∃ (s : State) (core : Fin 36) (buf : Fin 2) (c : Core),
    s.cores[core.val]? = some c ∧ c.job.isSome = true ∧ c.bufFull.getD buf false = false ∧ c.loadWaits = true ∧
    c.nextBuf = buf :=
  ⟨allCores { job := some 1, loadWaits := true, nextBuf := 1 }, 35, 1,
     { job := some 1, loadWaits := true, nextBuf := 1 }, by decide⟩

theorem wit_cores_load_compute_and_fault_3 : ∃ (s : State) (core : Fin 36) (c : Core) (j : Job) (k : Nat) (i :
    InFlight) (x : ArrayTile), s.cores[core.val]? = some c ∧ s.loadOf core = some (j, k, i) ∧ c.loading = true ∧
    c.loadStart + 32 ≤ s.edge ∧ i.work.tiles.getD i.work.tile {} = x :=
  ⟨tileState { job := some 1, loading := true, bufFull := [true, false] } 0 32, 0,
     { job := some 1, loading := true, bufFull := [true, false] }, tileJob 0, 0, tileFlight 0, { bank := some 0 }, by decide⟩

theorem wit_cores_load_compute_and_fault_4 : ∃ (s : State) (core : Fin 36) (row : Word) (c : Core) (j : Job) (k : Fin
    32) (i : InFlight) (n : Nat), s.cores[core.val]? = some c ∧ s.tileOf core = some (j, k.val, i) ∧ c.tail = none ∧
    c.pendingFaults = [] ∧ s.tileBank core i = some n ∧ (c.flush.banks.getD n {}).mismatch = 0 :=
  ⟨tileState tileCore 1 0, 0, 0, tileCore, tileJob 1, 0, tileFlight 1, 0, by decide⟩

theorem wit_cores_load_compute_and_fault_5 : ∃ (s : State) (core : Fin 36) (a : Fin 4) (row : Word) (c : Core) (j :
    Job) (k : Nat) (i : InFlight) (n : Nat), s.cores[core.val]? = some c ∧ s.tileOf core = some (j, k, i) ∧ c.tail =
    none ∧ c.pendingFaults = [] ∧ s.tileBank core i = some n ∧ (c.flush.banks.getD n {}).mismatch = 0 ∧
    (c.flush.banks.getD n {}).compared.getLsbD a = true :=
  ⟨tileState tileCore 1 0, 0, 3, 65, tileCore, tileJob 1, 0, tileFlight 1, 0, by decide⟩



theorem wit_cores_load_compute_and_fault_6 : ∃ (s : State) (core : Fin 36) (bank : Fin 2) (c : Core) (b : AccBank),
    s.cores[core.val]? = some c ∧ c.banks.getD bank {} = b ∧ b.state = .draining ∧ b.drained ≤ s.edge ∧ (c.banks.getD
    (1 - bank.val) {}).state ≠ .draining ∧ c.bankWait = none :=
  ⟨allCores { banks := [{}, { state := .draining }] }, 35, 1, { banks := [{}, { state := .draining }] },
     { state := .draining }, by decide⟩

theorem wit_cores_load_compute_and_fault_7 : ∃ (s : State) (core : Fin 36) (bank : Fin 2) (c : Core) (b : AccBank),
    s.cores[core.val]? = some c ∧ c.banks.getD bank {} = b ∧ b.state = .draining ∧ b.drained ≤ s.edge ∧ b.owner = none
    ∧ (c.banks.getD (1 - bank.val) {}).state ≠ .draining ∧ c.bankWait = some bank.val :=
  ⟨allCores { banks := [{}, { state := .draining }], bankWait := some 1 }, 35, 1,
     { banks := [{}, { state := .draining }], bankWait := some 1 }, { state := .draining }, by decide⟩

theorem wit_cores_load_compute_and_fault_8 : ∃ (s : State) (core : Nat) (b : AccBank) (j : Job) (slot : Fin 32) (i :
    InFlight), b.owner = some (j.id, slot.val, i.index) ∧ s.job? j.id = some j ∧ (j.slots.getD slot {}).inFlight = [i]
    ∧ i.stage = .waiting ∧ i.desc.op ≠ 1 ∧ i.desc.op ≠ 2 ∧ i.work.tiles = [] ∧ (∀ x ∈ (s.core core).banks, x.owner ≠
    b.owner) :=
  ⟨{ State.reset with jobs := { list := [{ id := 1, slots := [{ inFlight := [{ desc := desc [(0, 10)], stage := .waiting }] }] }] } },
     0, { owner := some (1, 0, 0) }, { id := 1, slots := [{ inFlight := [{ desc := desc [(0, 10)], stage := .waiting }] }] }, 0,
     { desc := desc [(0, 10)], stage := .waiting }, by decide⟩

theorem wit_cores_load_compute_and_fault_11 : ∃ (s : State) (core : Fin 36) (bank : Fin 8) (id : Word), s.coreJobs
    core = [id] :=
  ⟨allCores { dryJob := some 1 }, 35, 7, 1, by decide⟩

theorem wit_cores_load_compute_and_fault_9 : ∃ (s : State) (core : Fin 36) (id : Word), s.coreJobs core = [id] ∧
    (s.core core).inTile = false :=
  ⟨allCores { job := some 1 }, 35, 1, by decide⟩

theorem wit_cores_load_compute_and_fault_10 : ∃ (s : State) (core : Fin 36) (c : Core) (id : Word), s.cores[core.val]?
    = some c ∧ s.coreJobs core = [id] ∧ c.inTile = true :=
  ⟨allCores tileCore, 35, tileCore, 1, by decide⟩

/-! ## Witnesses, continued -/

/-- The four Plate slices with power. -/
def plateOn : List PlateSlice := List.replicate 4 { powered := true }

/-- A session of partition 0 with a context pool, contexts, and objects. -/
def ctxs (l : List Context) (objs : List ObjVersion) : State :=
  { opened (some 0) with
    otl := { running := { pools := [{ contexts := 2, kvPages := 16, recStreams := 1 }] } }
    ctx := { enabled := true, table := l }
    tir := { objs := objs }
    sec := { slots := List.replicate 16 { valid := true, state := true } }
    plt := plateOn }

/-- A session of partition 0 and one object. -/
def hasObj (o : ObjVersion) : State := { opened (some 0) with tir := { objs := [o] }, plt := plateOn }

/-- A tier manager. -/
def tier (t : Tir) (edge : Nat) : State := { State.reset with tir := t, edge := edge, plt := plateOn }

/-- Every Golent and board channel alike, but for the last Golent channel. -/
def chans (c d : MemChannel) : State :=
  { State.reset with chn := { golent := List.replicate 65 c ++ [d], board := List.replicate 16 c } }

/-- 16 routers alike. -/
def routers (r : Router) : State := { State.reset with lnw := { routers := List.replicate 16 r } }

/-- Stream 47 in a state, and its STREAM entry. -/
def sensing (x : IngStream) (e : StreamEntry) : State :=
  { ready { streams := [{ e with id := 47 }] } with ing := { streams := List.replicate 48 x }, plt := plateOn }

/-- A frame of one byte from an Ethernet sensor. -/
def oneByte : List Byte := [0x10, 0, 0, 0, 0, 0, 0, 1] ++ List.replicate 16 0 ++ [7]

/-- The Tracing unit with power and a FUSION record. -/
def tracing (t : Trc) (f : FusionRec) : State :=
  { ready { domainOn := 0x100000, unitRun := 2, fusion := some f } with trc := t }

theorem all_channels {p : Channel → Prop} (g : ∀ c, p (.golent c)) (b : ∀ c, p (.board c)) (o : Channel) : p o := by
  cases o
  · exact g _
  · exact b _

/-- The plain header of a snapshot of two units, no other bytes, and its GCM tag under the key 0 and the IV 0. -/
def snapshotBytes : Memory :=
  [(0, 0x53), (1, 0x4E), (2, 0x54), (3, 0x53), (4, 1), (8, 144), (12, 2)] ++
  ([0xE9, 0x4A, 0x74, 0x34, 0xFE, 0x0D, 0x73, 0xD5, 0x2D, 0x5D, 0xBA, 0x29, 0x8B, 0x43, 0xB5, 0x65] : List Byte).zipIdx.map
    fun x => (128 + x.2, x.1)

theorem wit_contexts_are_opened_forked_and_closed_1 : ∃ (s : State) (i : Fin 16) (tag : Word) (b : CtxBody) (p : Nat)
    (c : Context), s.CtxCommand i b p ∧ s.context? (bodyCtx b) = none ∧ openFields b (bodyCtx b) p = some c ∧
    s.freeFrames p ≠ 0 :=
  ⟨ctxs [] [], 15, 0, { w0 := 1 }, 0, { part := 0, state := .active, gen := 1 }, ⟨by decide, by decide, by decide,
     by decide⟩, by decide⟩

theorem wit_contexts_are_opened_forked_and_closed_2 : ∃ (s : State) (i : Fin 16) (tag : Word) (b : CtxBody) (p : Nat),
    s.CtxCommand i b p ∧ (s.context? (bodyCtx b)).isSome = true :=
  ⟨ctxs [{ state := .active }] [], 0, 0, { w0 := 1 }, 0, ⟨by decide, by decide, by decide, by decide⟩, by decide⟩

theorem wit_contexts_are_opened_forked_and_closed_3 : ∃ (s : State) (i : Fin 16) (tag : Word) (b : CtxBody) (p : Nat)
    (c : Context), s.CtxCommand i b p ∧ s.context? (bodyCtx b) = none ∧ s.inRange p (fld b.w2 13 0) = true ∧
    s.context? (fld b.w2 13 0) = some c ∧ c.state = .active ∧ c.holder = 0 ∧ bodyUnused b 0x3FFFF 0x3FFF 0 0 0 = false
    ∧ fld b.w1 17 0 ≤ c.length ∧ c.kv = false ∧ c.lgs = [] ∧ c.rec_ = none :=
  ⟨ctxs [{ state := .active }] [], 0, 0, { w0 := 0x00010002 }, 0, { state := .active }, ⟨by decide, by decide,
     by decide, by decide⟩, by decide⟩

theorem wit_contexts_are_opened_forked_and_closed_4 : ∃ (s : State) (i : Fin 16) (tag : Word) (b : CtxBody) (p : Nat)
    (c : Context), s.CtxCommand i b p ∧ s.context? (bodyCtx b) = some c ∧ c.state = .active ∧ c.holder = 0 ∧
    bodyUnused b 0x3FFFF 0 0 0 0 = false ∧ fld b.w1 17 0 ≤ c.length ∧ c.rec_ = none :=
  ⟨ctxs [{ state := .active }] [], 0, 0, { w0 := 3 }, 0, { state := .active }, ⟨by decide, by decide, by decide,
     by decide⟩, by decide⟩

theorem wit_contexts_are_opened_forked_and_closed_5 : ∃ (s : State) (i : Fin 16) (tag : Word) (b : CtxBody) (p : Nat)
    (c : Context), s.CtxCommand i b p ∧ s.context? (bodyCtx b) = some c ∧ c.holder = 0 ∧ bodyUnused b 0 0 0 0 0 =
    false ∧ c.rec_ = none :=
  ⟨ctxs [{ state := .active }] [], 0, 0, { w0 := 4 }, 0, { state := .active }, ⟨by decide, by decide, by decide,
     by decide⟩, by decide⟩

theorem wit_contexts_are_opened_forked_and_closed_6 : ∃ (s : State) (i : Fin 16) (tag : Word) (b : CtxBody) (p : Nat)
    (c : Context), s.CtxCommand i b p ∧ s.context? (bodyCtx b) = some c ∧ c.holder = 0 ∧ bodyUnused b 0 0 0 0 0 =
    false :=
  ⟨ctxs [{ state := .active }] [], 0, 0, { w0 := 5 }, 0, { state := .active }, ⟨by decide, by decide, by decide,
     by decide⟩, by decide⟩

theorem wit_contexts_are_opened_forked_and_closed_7 : ∃ (s : State) (i : Fin 16) (tag : Word) (b : CtxBody) (p : Nat)
    (c : Context) (o : ObjVersion), s.CtxCommand i b p ∧ s.context? (bodyCtx b) = some c ∧ c.state = .active ∧ c.rec_
    = none ∧ c.holder = 0 ∧ bodyUnused b 0x3FFFF 0xFFFFFFFF 0x00FFFFFF 0 0 = false ∧ 2 ≤ fld b.w1 17 0 ∧ fld b.w1 17 0
    ≤ 131072 ∧ fld b.w3 23 16 ≤ 128 ∧ 128 * fld b.w1 17 0 ≤ s.budgetBytes p ∧ s.newestOf p b.w2 = some o ∧ (o.state =
    .sealed ∨ o.state = .rebuilding) ∧ o.part = p ∧ isDevice o.obj = false ∧ s.regionBytes p + 64 * fld b.w1 17 0 ≤
    s.budgetBytes p :=
  ⟨ctxs [{ state := .active }] [{ obj := 9 }], 0, 0, { w0 := 6, w1 := 64, w2 := 9 }, 0, { state := .active },
     { obj := 9 }, ⟨by decide, by decide, by decide, by decide⟩, by decide⟩

theorem wit_state_regions_are_exported_imported_and_swapped_1 : ∃ (s : State) (i : Fin 16) (tag : Word) (b : CtxBody)
    (p : Nat) (c : Context) (r : StateRegion) (k : BitVec 256), s.CtxCommand i b p ∧ s.context? (bodyCtx b) = some c ∧
    c.state = .active ∧ c.rec_ = some r ∧ bodyUnused b 0 0xFFFFFFFF 0xF 0 0 = false ∧ b.w2 ≠ 0 ∧ b.w2.toNat <
    0xFB000000 ∧ s.slotKey (fld b.w3 3 0) (·.state) = some k ∧ (s.sec.slots.getD (fld b.w3 3 0) {}).exports_ ≠
    0xFFFFFFFF :=
  ⟨ctxs [{ state := .active, rec_ := some {} }] [], 0, 0, { w0 := 7, w2 := 9, w3 := 1 }, 0,
     { state := .active, rec_ := some {} }, {}, 0, ⟨by decide, by decide, by decide, by decide⟩, by decide⟩

theorem wit_state_regions_are_exported_imported_and_swapped_2 : ∃ (s : State) (ctx : BitVec 14) (e : ExportOp),
    s.ctx.exports_.find? (·.ctx = ctx.toNat) = some e ∧ bankUnits (144 + 64 * e.region.units) ≤ s.t2Free ∧ s.dirUsed +
    1 ≤ 65536 :=
  ⟨{ ctxs [] [] with ctx := { table := [{ state := .active, rec_ := some {} }], exports_ := [{ obj := 9 }] } }, 0,
     { obj := 9 }, by decide⟩

theorem wit_state_regions_are_exported_imported_and_swapped_3 : ∃ (s : State) (i : Fin 16) (tag : Word) (b : CtxBody)
    (p : Nat) (c : Context) (r : StateRegion) (x : BitVec 64 × Memory), s.CtxCommand i b p ∧
    s.context? (bodyCtx b) = some c ∧ c.state = .active ∧ c.rec_ = some r ∧ c.holder = 0 ∧ r.swapBusy = false ∧
    bodyUnused b 0 0xFFFFFFFF 0xF 0 0 = false ∧ (s.delivered i).readSnapshot p b.w2 (fld b.w3 3 0) r = .ok x ∧
    r.resident = true :=
  ⟨ctxs [{ state := .active, rec_ := some {} }] [{ obj := 9, len := 144, data := snapshotBytes }], 0, 0,
     { w0 := 8, w2 := 9, w3 := 1 }, 0, { state := .active, rec_ := some {} }, {}, (0, []), ⟨by decide, by decide,
     by decide, by decide⟩, by decide +kernel⟩

theorem wit_state_regions_are_exported_imported_and_swapped_4 : ∃ (s : State) (i : Fin 16) (tag : Word) (b : CtxBody)
    (p : Nat) (c : Context) (r : StateRegion) (st : Byte), s.CtxCommand i b p ∧ s.context? (bodyCtx b) = some c ∧
    c.state = .active ∧ c.rec_ = some r ∧ c.holder = 0 ∧ r.swapBusy = false ∧ bodyUnused b 0 0xFFFFFFFF 0xF 0 0 =
    false ∧ (s.delivered i).readSnapshot p b.w2 (fld b.w3 3 0) r = .error st :=
  ⟨ctxs [{ state := .active, rec_ := some {} }] [], 0, 0, { w0 := 8, w2 := 9, w3 := 1 }, 0,
     { state := .active, rec_ := some {} }, {}, cxIncomplete, ⟨by decide, by decide, by decide, by decide⟩, by decide⟩

theorem wit_state_regions_are_exported_imported_and_swapped_5 : ∃ (s : State) (i : Fin 16) (tag : Word) (b : CtxBody)
    (p : Nat) (c : Context) (r : StateRegion), s.CtxCommand i b p ∧ s.context? (bodyCtx b) = some c ∧ c.state =
    .active ∧ c.holder = 0 ∧ c.rec_ = some r ∧ bodyUnused b 0 0 0 0 0 = false ∧ r.swapBusy = false ∧ r.resident = true
    ∧ r.droppable = true :=
  ⟨ctxs [{ state := .active, rec_ := some { clean := true, snapshot := some 33 } }] [], 0, 0, { w0 := 9 }, 0,
     { state := .active, rec_ := some { clean := true, snapshot := some 33 } }, { clean := true, snapshot := some 33 },
     ⟨by decide, by decide, by decide, by decide⟩, by decide⟩

theorem wit_state_regions_are_exported_imported_and_swapped_6 : ∃ (s : State) (i : Fin 16) (tag : Word) (b : CtxBody)
    (p : Nat) (c : Context) (r : StateRegion), s.CtxCommand i b p ∧ s.context? (bodyCtx b) = some c ∧ c.state =
    .active ∧ c.holder = 0 ∧ c.rec_ = some r ∧ bodyUnused b 0 0 0 0 0 = false ∧ r.swapBusy = false ∧ r.resident = true
    ∧ r.droppable = false ∧ ((s.delivered i).swapOutNow c r (some (i.val, tag))).1 = true :=
  ⟨ctxs [{ state := .active, rec_ := some {} }] [], 0, 0, { w0 := 9 }, 0, { state := .active, rec_ := some {} }, {},
     ⟨by decide, by decide, by decide, by decide⟩, by decide +kernel⟩

theorem wit_state_regions_are_exported_imported_and_swapped_7 : ∃ (s : State) (i : Fin 16) (tag : Word) (b : CtxBody)
    (p : Nat) (c : Context) (r : StateRegion), s.CtxCommand i b p ∧ s.context? (bodyCtx b) = some c ∧ c.state =
    .active ∧ c.rec_ = some r ∧ bodyUnused b 0 0 0 0 0 = false ∧ r.swapBusy = false ∧ r.resident = false ∧
    s.regionBytes p + 64 * r.units ≤ s.budgetBytes p :=
  ⟨ctxs [{ state := .active, rec_ := some { resident := false } }] [], 0, 0, { w0 := 10 }, 0,
     { state := .active, rec_ := some { resident := false } }, { resident := false }, ⟨by decide, by decide,
     by decide, by decide⟩, by decide⟩

theorem wit_state_regions_are_exported_imported_and_swapped_8 : ∃ (s : State) (ctx : BitVec 14) (w : SwapOp)
    (c : Context) (r : StateRegion) (sess : Nat) (tag : Word), s.ctx.swaps.find? (·.ctx = ctx.toNat) = some w ∧
    s.context? ctx.toNat = some c ∧ c.rec_ = some r ∧ w.swapIn = true ∧ w.reply = some (sess, tag) :=

     ⟨{ ctxs [] [] with ctx := { table := [{ state := .active, rec_ := some {} }], swaps := [{ reply := some (15, 5) }] } },
     0, { reply := some (15, 5) }, { state := .active, rec_ := some {} }, {}, 15, 5, by decide⟩

theorem wit_state_regions_are_exported_imported_and_swapped_9 : ∃ (s : State) (ctx : BitVec 14) (w : SwapOp) (c :
    Context) (r : StateRegion) (sess : Nat) (tag : Word), s.ctx.swaps.find? (·.ctx = ctx.toNat) = some w ∧ s.context?
    ctx.toNat = some c ∧ c.rec_ = some r ∧ w.swapIn = false ∧ w.reply = some (sess, tag) ∧ r.resident = false ∧
    s.ctx.waits = [] :=
  ⟨{ ctxs [{ state := .active, rec_ := some { resident := false } }] [] with ctx := {
     table := [{ state := .active, rec_ := some { resident := false } }],
     swaps := [{ swapIn := false, reply := some (0, 0) }] } }, 0, { swapIn := false, reply := some (0, 0) }, { state := .active, rec_ := some { resident := false } }, { resident := false }, 0, 0, by decide⟩

theorem wit_state_regions_are_exported_imported_and_swapped_10 : ∃ (s : State) (i : BitVec 21) (g : PageRecord),
    s.page? i.toNat = some g ∧ g.awaits = true :=
  ⟨{ State.reset with ctx := { pages := [{ awaits := true }] } }, 0, { awaits := true }, by decide⟩

theorem wit_state_regions_are_exported_imported_and_swapped_11 : ∃ (s : State) (part : Fin 8) (pool : PoolRec) (g :
    PageRecord) (l : List PageRecord) (u : Nat), s.poolOf part = some pool ∧ 16 * s.freeFrames part < pool.kvPages ∧
    (sortOn (·.sealEdge) (s.ctx.pages.filter fun g => g.part = part.val && g.sealed && g.inPlate && !(s.tir.writer.any
    fun w => w.kind = .kvPage && w.obj = wd (0xFD000000 + g.index))) = g :: l) ∧ s.mirrors (s.pageMirrored g) = false
    ∧ s.roomSoon 3 1 false = true ∧ (s.allocUnits 3 1).1 = some u :=
  ⟨{ ctxs [] [] with ctx := { pages := (List.range 16).map fun k => { index := k, sealed := true, sealEdge := k } } },
     0, { contexts := 2, kvPages := 16, recStreams := 1 }, { index := 0, sealed := true }, (List.range 15).map fun k
     => { index := k + 1, sealed := true, sealEdge := k + 1 }, (State.allocUnits _ 3 1).1.get (by decide), by decide,
     by decide, by decide, by decide, by decide, (Option.some_get _).symm⟩

theorem wit_hints_act_on_the_named_version_1 : ∃ (s : State) (i : Fin 16) (tag : Word) (b : HintBody) (p : Nat) (o :
    ObjVersion), (s.session i).open_ = true ∧ (s.session i).part = some p ∧ hintReserved b = false ∧ s.hinted p b =
    some o ∧ hintTier b = 2 ∧ 2 < o.home ∧ o.state = .sealed ∧ (s.delivered i).fitsFloors 2 o.part (s.promoUnits 2 o)
    = true ∧ (∀ x ∈ s.tir.objs, x.part = o.part → x.obj = o.obj → x.hostT2 = false) ∧ s.version? o.part o.obj o.ver =
    some o ∧ o.full = true :=
  ⟨hasObj { obj := 9, home := 3, present := [0] }, 15, 0, { w0 := 9, w1 := 0x201 }, 0,
     { obj := 9, home := 3, present := [0] }, by decide⟩

theorem wit_hints_act_on_the_named_version_2 : ∃ (s : State) (i : Fin 16) (tag : Word) (b : HintBody) (p : Nat) (o :
    ObjVersion), (s.session i).open_ = true ∧ (s.session i).part = some p ∧ hintReserved b = false ∧ s.hinted p b =
    some o ∧ hintTier b = 2 ∧ s.hostHolder 2 o.part o.obj = some o ∧ (∀ x ∈ s.tir.objs, x.newest = true) :=
  ⟨hasObj { obj := 9, hostT2 := true }, 0, 0, { w0 := 9, w1 := 0x202 }, 0, { obj := 9, hostT2 := true }, by decide⟩

theorem wit_hints_act_on_the_named_version_3 : ∃ (s : State) (i : Fin 16) (tag : Word) (b : HintBody) (p : Nat)
    (o : ObjVersion), (s.session i).open_ = true ∧ (s.session i).part = some p ∧ hintReserved b = false ∧ s.hinted p b
    = some o :=
  ⟨hasObj { obj := 9 }, 0, 0, { w0 := 9, w1 := 3, w2 := 1 }, 0, { obj := 9 }, by decide⟩

theorem wit_hints_act_on_the_named_version_4 : ∃ (s : State) (i : Fin 16) (tag : Word) (b : HintBody) (p : Nat) (o :
    ObjVersion), (s.session i).open_ = true ∧ (s.session i).part = some p ∧ hintReserved b = false ∧ s.hinted p b =
    some o ∧ hintTier b = 2 ∧ s.hostHolder 2 o.part o.obj = none :=
  ⟨hasObj { obj := 9 }, 0, 0, { w0 := 9, w1 := 0x205 }, 0, { obj := 9 }, by decide⟩

theorem wit_hints_act_on_the_named_version_5 : ∃ (s : State) (i : Fin 16) (tag : Word) (b : HintBody) (p : Nat)
    (o : ObjVersion), (s.session i).open_ = true ∧ (s.session i).part = some p ∧ hintReserved b = false ∧ s.hinted p b
    = some o ∧ o.vrefs = 0 ∧ o.refsT2 = 0 ∧ o.refsT3 = 0 ∧ o.promoting = false :=
  ⟨hasObj { obj := 9 }, 0, 0, { w0 := 9, w1 := 6 }, 0, { obj := 9 }, by decide⟩

theorem wit_hints_act_on_the_named_version_6 : ∃ (s : State) (i : Fin 16) (tag : Word) (b : HintBody) (p : Nat)
    (o : ObjVersion), (s.session i).open_ = true ∧ (s.session i).part = some p ∧ hintReserved b = false ∧ s.hinted p b
    = some o ∧ o.vrefs ≠ 0 :=
  ⟨hasObj { obj := 9, vrefs := 1 }, 0, 0, { w0 := 9, w1 := 6 }, 0, { obj := 9, vrefs := 1 }, by decide⟩

theorem wit_the_tier_manager_fetches_writes_and_checks_1 : ∃ (s : State) (job : Word) (slot : Fin 32) (obj : Word)
    (extent : Nat) (j : Job) (b : Binding) (o : ObjVersion), job ≠ 0 ∧ s.job? job = some j ∧ (j.bound.find? (fun b =>
    b.obj = obj && !b.gone) = some b) ∧ s.version? b.part b.obj b.ver = some o ∧ j.state = .running ∧ slot.val <
    j.slots.length ∧ extent < o.extents ∧ extent ∉ o.present ∧ s.fetchOf o extent = none ∧ s.asked job slot extent o =
    false ∧ (s.core (j.coreOf slot)).state = .running ∧ s.portFree (j.coreOf slot) (readMaster j.chain.drypoint) =
    true ∧ extentUnits ≤ s.t2Free ∧ (s.otl.running.tierPools.find? (·.part = o.part)).any (·.onDemand) = false :=

     ⟨{ tier { objs := [{ obj := 9 }] } 0 with cores := List.replicate 36 { state := .running }, jobs := { list := [{ id := 1, state := .running, slots := [{}], bound := [{ obj := 9, ver := 1 }] }] } },
     1, 0, 9, 0, { id := 1, state := .running, slots := [{}], bound := [{ obj := 9, ver := 1 }] },
     { obj := 9, ver := 1 }, { obj := 9 }, by decide⟩

theorem wit_the_tier_manager_fetches_writes_and_checks_2 : ∃ (s : State) (tag : BitVec 16) (r : TierRequest) (job :
    Word) (slot n : Nat), s.tir.requests.find? (·.tag = tag) = some r ∧ r.left = [] ∧ r.askers = [(job, slot)] ∧
    s.askerCore (job, slot) = some n ∧ (s.core n).state = .waitWeights ∧ s.lnw.waiting = [] ∧ (∀ q ∈ s.tir.requests,
    q.tag ≠ tag → (job, slot) ∉ q.askers) ∧ (∀ w ∈ s.tir.waits, w.obj = 0 ∨ w.job ≠ job ∨ w.slot ≠ slot) :=
  ⟨{ tier { requests := [{ tag := 7, askers := [(1, 0)] }] } 0 with
       cores := List.replicate 36 { state := .waitWeights }
       jobs := { list := [{ id := 1, state := .running, slots := [{}] }] } },
     7, { tag := 7, askers := [(1, 0)] }, 1, 0, 0, by decide⟩



theorem wit_the_tier_manager_fetches_writes_and_checks_3 : ∃ (s : State) (tag : BitVec 16) (r : TierRequest),
    s.tir.requests.find? (·.tag = tag) = some r ∧ r.issueEdge + 32000 ≤ s.edge ∧ r.askers = [] ∧ s.lnw.waiting = [] ∧
    (∀ o ∈ s.tir.objs, isVer r.part r.obj r.ver o = true → o.promoT2 = false) :=
  ⟨tier { requests := [{}] } 32000, 0, {}, by decide⟩

theorem wit_the_tier_manager_fetches_writes_and_checks_4 : ∃ (s : State) (tag : BitVec 16) (r : TierRequest) (j :
    Job), s.tir.requests.find? (·.tag = tag) = some r ∧ r.issueEdge + 32000 ≤ s.edge ∧ r.jobs = [j.id] ∧ s.job? j.id =
    some j ∧ j.state = .running ∧ j.budget ≤ j.attempt :=
  ⟨{ tier { requests := [{ tag := 7, askers := [(1, 0)] }] } 32000 with
       jobs := { list := [{ id := 1, state := .running, attempt := 1, slots := [{}] }] } },
     7, { tag := 7, askers := [(1, 0)] }, { id := 1, state := .running, attempt := 1, slots := [{}] }, by decide⟩

theorem wit_the_tier_manager_fetches_writes_and_checks_5 : ∃ (s : State) (tag : BitVec 16),
    (s.tir.held.any (·.tag = tag)) = true :=
  ⟨tier { held := [{ tag := 0xFFFF }] } 0, 0xFFFF, by decide⟩

theorem wit_the_tier_manager_fetches_writes_and_checks_6 : ∃ (s : State) (tag : BitVec 16),
    (s.lnw.held.any (·.tag = tag)) = true :=
  ⟨{ State.reset with lnw := { held := [{}] } }, 0, by decide⟩

theorem wit_the_tier_manager_fetches_writes_and_checks_8 : ∃ (s : State) (w : AllocWait) (l : List AllocWait),
    s.tir.waits = w :: l ∧ w.units ≤ s.t2Free ∧ (∀ x ∈ s.tir.waits, x.obj = 0) ∧ (∀ x ∈ s.tir.writer, x.placed = true)
    :=
  ⟨tier { waits := [{}] } 0, {}, [], by decide⟩

theorem wit_the_tier_manager_fetches_writes_and_checks_9 : ∃ (s : State) (w : TierWrite) (o : ObjVersion),
    s.tir.writer.find? (·.placed) = some w ∧ w.kind = .place ∧ w.tier = 3 ∧ s.allStored w = true ∧ s.version? w.part
    w.obj w.ver = some o :=
  ⟨tier { writer := [{ placed := true, ver := 1 }], objs := [{}] } 0, { placed := true, ver := 1 }, {}, by decide⟩

theorem wit_the_tier_manager_fetches_writes_and_checks_11 : ∃ (s : State), s.tir.mirrorDirty = true ∧
    (s.tir.mirrorEdge = 0 ∨ s.tir.mirrorEdge + 1600000 ≤ s.edge) :=
  ⟨tier { mirrorDirty := true } 0, by decide⟩

theorem wit_the_tier_manager_fetches_writes_and_checks_12 : ∃ (s : State) (part : Fin 8) (obj : Word) (ver : BitVec
    16) (o : ObjVersion), s.tir.nextVerify = some o ∧ o.part = part ∧ o.obj = obj ∧ o.ver = ver.toNat ∧ o.rehome =
    false ∧ s.tir.checkWaits = [] :=
  ⟨tier { objs := [{ state := .verifying, part := 7 }] } 0, 7, 0, 1, { state := .verifying, part := 7 }, by decide⟩

theorem wit_the_tier_manager_fetches_writes_and_checks_13 : ∃ (s : State) (part : Fin 8) (obj : Word)
    (ver : BitVec 16),
    ((s.tir.writer.any fun w => w.kind = .rebuild && w.part = part && w.obj = obj && w.ver = ver.toNat) = false) :=
  ⟨tier { objs := [{ state := .rebuilding }] } 0, 0, 0, 1, by decide⟩

theorem wit_the_tier_manager_fetches_writes_and_checks_14 : ∃ (s : State) (i : Fin 16) (p : Nat) (v : Word)
    (o : ObjVersion), (s.session i).open_ = true ∧ (s.session i).part = some p ∧ s.newestOf p v = some o :=
  ⟨hasObj { obj := 9 }, 0, 0, 9, { obj := 9 }, by decide⟩

theorem wit_the_tier_manager_fetches_writes_and_checks_15 : ∃ (s : State) (job : Word) (slot : Fin 32) (j : Job)
    (i : InFlight) (k : Nat) (b : Binding) (o : ObjVersion), (s.Issued job slot 10 (fun d => d.sub = 2) j i) ∧
    j.handle i.desc.aObj = .bound k ∧ j.bound[k]? = some b ∧ s.version? b.part b.obj b.ver = some o ∧ i.desc.param0 =
    2 ∧ 2 < o.home ∧ o.full = true :=

     ⟨{ tier { objs := [{ obj := 9, home := 3, present := [0] }] } 0 with jobs := { list := [{ jobOn (desc [(0, 10), (2, 0x20000000), (4, 9), (10, 0x20000)]) [] with bound := [{ obj := 9, ver := 1 }] }] } },
     1, 0,
     { jobOn (desc [(0, 10), (2, 0x20000000), (4, 9), (10, 0x20000)]) [] with bound := [{ obj := 9, ver := 1 }] },
     { desc := desc [(0, 10), (2, 0x20000000), (4, 9), (10, 0x20000)] }, 0, { obj := 9, ver := 1 },
     { obj := 9, home := 3, present := [0] }, ⟨by decide, by decide, by decide⟩, by decide⟩

theorem wit_channels_retrain_and_are_replaced_1
    (h : ∀ b cs, Config.boardRaw b cs = if cs then 0 else 2 ^ 32) : ∃ (s : State) (b : Fin 16) (unit : Nat) (first : Fin 64) (x :
    BurstTry), s.serves (.board b) unit = true ∧ (s.memChan (.board b)).bad = none ∧ (s.memChan (.board b)).mayRead
    unit = true ∧ (s.memChan (.board b)).reread ≠ some unit ∧ x.errors = 0 :=
  by
  refine ⟨{ chans { state := .active } {} with chn := {
    (chans { state := .active } {}).chn with t4Available := true } }, 0, 0, 0, {}, ?_, by decide, by decide, by decide, rfl⟩
  have hu : boardUnits = 2 ^ 32 * 8 / 9 / 4096 := by simp [boardUnits, boardRaw, h, List.range, List.range.loop]
  simp [State.serves, State.t4Units, hu, burstDevice, h, State.memChan, chans]
  decide

theorem wit_channels_retrain_and_are_replaced_2 : ∃ (s : State) (c : Fin 66) (unit : Nat) (first : Fin 64) (x :
    BurstTry), s.serves (.golent c) unit = true ∧ (s.memChan (.golent c)).bad = none ∧ (s.memChan (.golent c)).mayRead
    unit = true ∧ (s.memChan (.golent c)).reread ≠ some unit ∧ crc8 x.data = x.crc ∧ x.errors = 0 :=
  ⟨chans { state := .active, logical := 63 } {}, 0, 127, 0,
     { data := List.replicate 72 7, crc := crc8 (List.replicate 72 7) }, by decide +kernel⟩

theorem wit_channels_retrain_and_are_replaced_3 : ∃ (s : State) (c : Fin 66) (unit : Nat) (first : Fin 64) (w x y z :
    BurstTry), s.serves (.golent c) unit = true ∧ (s.memChan (.golent c)).bad = none ∧ (s.memChan (.golent c)).mayRead
    unit = true ∧ (s.memChan (.golent c)).reread ≠ some unit ∧ (∀ b ∈ [w, x, y, z], crc8 b.data ≠ b.crc) :=
  ⟨chans { state := .active, logical := 63 } {}, 0, 127, 0, {}, {}, {}, { data := [7] }, by decide +kernel⟩

theorem wit_channels_retrain_and_are_replaced_4 : ∃ (s : State) (c : Fin 66) (unit : Nat) (first : Fin 64), s.serves
    (.golent c) unit = true ∧ (s.memChan (.golent c)).bad = none :=
  ⟨chans { state := .active, logical := 63 } {}, 0, 127, by decide⟩

theorem wit_channels_retrain_and_are_replaced_5 : ∃ (s : State) (c : Fin 66) (unit : Nat) (first : Fin 64), s.serves
    (.golent c) unit = true ∧ (s.memChan (.golent c)).bad = none :=
  ⟨chans { state := .active, logical := 63 } {}, 0, 127, by decide⟩

theorem wit_channels_retrain_and_are_replaced_6 : ∃ (s : State) (c : Fin 66) (unit : Nat) (o : ObjVersion), (s.memChan
    (.golent c)).bad = some unit ∧ s.ownerOf 3 unit = some o ∧ o.mirrorHolds (unit % 64) = true ∧ s.tir.requests = []
    :=
  ⟨{ chans { state := .active, bad := some 5 } {} with tir := { objs := [{ t3 := some 5, t3Mirror := some 9 }] } },
     0, 5, { t3 := some 5, t3Mirror := some 9 }, by decide⟩

theorem wit_channels_retrain_and_are_replaced_7 : ∃ (s : State) (ch : Channel) (train : BitVec 24), (s.memChan
    ch).state = .retraining ∧ latencyOk ch train = true ∧ (∀ o, o ≠ ch → (s.memChan o).deferred = false) :=
  ⟨chans { state := .retraining } {}, .board 0, 0, by decide, by decide,
     fun o _ => all_channels (p := fun o => ((chans { state := .retraining } {}).memChan o).deferred = false)
       (by decide) (by decide) o⟩

theorem wit_channels_retrain_and_are_replaced_8 : ∃ (s : State) (c sp : Fin 66) (train : BitVec 24),
    (s.memChan (.golent c)).state = .retraining ∧ (s.memChan (.golent c)).logical ≠ 0x7F ∧ s.golentSpare = some sp ∧
    (∀ o, (s.memChan o).deferred = false) :=
  ⟨chans { state := .retraining, logical := 3 } { state := .spare }, 0, 65, 0, by decide, by decide, by decide,
     all_channels (by decide) (by decide)⟩

theorem wit_channels_retrain_and_are_replaced_9 : ∃ (s : State) (ch : Channel), (s.memChan ch).lastTrain + 160000000 ≤
    s.edge ∧ (s.memChan ch).state = .active ∧ (∀ o, (s.memChan o).state ≠ .retraining) :=
  ⟨{ chans { state := .active } {} with edge := 160000000 }, .golent 0, by decide, by decide, all_channels (by decide)
     (by decide)⟩

theorem wit_channels_retrain_and_are_replaced_10 : ∃ (s : State) (ch : Channel), 128 ≤
    (s.glb.tempNow.toInt - (s.memChan ch).trainTemp).natAbs ∧ (s.memChan ch).state = .active ∧
    (∀ o, (s.memChan o).state ≠ .retraining) :=
  ⟨{ chans { state := .active } {} with glb := { tempNow := 0xFF80 } }, .golent 0, by decide, by decide, all_channels
     (by decide) (by decide)⟩

theorem wit_channels_retrain_and_are_replaced_11 : ∃ (s : State) (v : Word) (ch : Channel), retrainTarget v = some ch ∧
    (s.memChan ch).state = .active ∧ (∀ o, (s.memChan o).state ≠ .retraining) :=
  ⟨chans { state := .active } {}, 0x8F, .board 15, by decide, by decide, all_channels (by decide) (by decide)⟩

theorem wit_linework_delivers_times_out_and_regulates_1 : ∃ (s : State) (node : Fin 16) (tag : BitVec 16),
    s.routerLost node = false ∧ (s.lnw.txs.any (·.tag = tag)) = true ∧ s.lnw.waiting = [] :=
  ⟨{ State.reset with lnw := { txs := [{ tag := 0xFFFF }] } }, 15, 0xFFFF, by decide⟩

theorem wit_linework_delivers_times_out_and_regulates_2 : ∃ (s : State) (node : Fin 16) (tag : BitVec 16),
    s.routerLost node = false ∧ (s.lnw.txs.any (·.tag = tag)) = true ∧ s.lnw.waiting = [] :=
  ⟨{ State.reset with lnw := { txs := [{ tag := 0xFFFF }] } }, 15, 0xFFFF, by decide⟩

theorem wit_linework_delivers_times_out_and_regulates_3 : ∃ (s : State) (node : Fin 16) (tag : BitVec 16),
    s.routerLost node = false ∧ (s.lnw.txs.any (·.tag = tag)) = false ∧ (s.lnw.held.any (·.tag = tag)) = true :=
  ⟨{ State.reset with lnw := { held := [{}] } }, 0, 0, by decide⟩

theorem wit_linework_delivers_times_out_and_regulates_4 : ∃ (s : State) (node : Fin 16) (tag : BitVec 16),
    s.routerLost node = false :=
  ⟨State.reset, 0, 0, by decide⟩

theorem wit_linework_delivers_times_out_and_regulates_5 : ∃ (s : State) (tag : BitVec 16) (x : LineworkTx),
    (s.lnw.txs.find? (fun y => y.tag = tag && decide (y.issueEdge + 80000 ≤ s.edge)) = some x) ∧ s.job? x.job = none ∧
    s.lnw.waiting = [] :=
  ⟨{ State.reset with lnw := { txs := [{}] }, edge := 80000 }, 0, {}, by decide⟩

theorem wit_linework_delivers_times_out_and_regulates_6 : ∃ (s : State), s.lnw.windowEdge + 256 ≤ s.edge :=
  ⟨{ State.reset with edge := 256 }, by decide⟩

theorem wit_linework_delivers_times_out_and_regulates_7 : ∃ (s : State) (m : Fin 32) (v : Word) (b : Budget),
    budgetMaster m = true ∧ b =
    { part := s.regs.sel.toNat, master := m, min := BitVec.ofNat 12 (fld v 11 0), share := BitVec.ofNat 8 (fld v 23 16) }
    ∧
    (overBudget (putBudget b (s.lnw.pending.foldl (fun acc x => putBudget x acc) s.lnw.budgets)) s.regs.sel.toNat m = false)
    :=
  ⟨State.reset, 1, 0x00010800, { master := 1, min := 2048 }, by decide⟩

theorem wit_linework_delivers_times_out_and_regulates_8 : ∃ (s : State) (m : Fin 32) (v : Word) (b : Budget),
    budgetMaster m = true ∧ b =
    { part := s.regs.sel.toNat, master := m, min := BitVec.ofNat 12 (fld v 11 0), share := BitVec.ofNat 8 (fld v 23 16) }
    ∧
    (overBudget (putBudget b (s.lnw.pending.foldl (fun acc x => putBudget x acc) s.lnw.budgets)) s.regs.sel.toNat m = true)
    :=
  ⟨State.reset, 1, 0x00010801, { master := 1, min := 2049 }, by decide⟩

theorem wit_linework_delivers_times_out_and_regulates_9 : ∃ (s : State) (node : Fin 16) (r : Router),
    s.lnw.routers[node.val]? = some r ∧ 4 ≤ r.uncorrEdges.length ∧ r.lost = false ∧ r.onShadow = false :=
  ⟨routers { uncorrEdges := [0, 0, 0, 0] }, 15, { uncorrEdges := [0, 0, 0, 0] }, by decide⟩

theorem wit_linework_delivers_times_out_and_regulates_10 : ∃ (s : State) (node : Fin 16) (r : Router),
    s.lnw.routers[node.val]? = some r ∧ 4 ≤ r.uncorrEdges.length ∧ r.lost = false ∧ r.onShadow = true :=
  ⟨routers { uncorrEdges := [0, 0, 0, 0], onShadow := true }, 15, { uncorrEdges := [0, 0, 0, 0], onShadow := true },
     by decide⟩

theorem wit_sensor_frames_are_assembled_1 : ∃ (s : State) (port : Fin 12) (vc : Fin 4) (counter : BitVec 16)
    (lanes rate n : Nat) (stamp : Int), s.csiStream port vc = some n ∧ n < s.ing.streams.length ∧ (s.stream n).open_ =
    none ∧ frameUnits 0 ≤ s.t2Free :=
  ⟨sensing {} { port := 11, vc := 3, dataType := 0x2A }, 11, 3, 0xFFFF, 4, 150, 47, 0, by decide⟩

theorem wit_sensor_frames_are_assembled_2 : ∃ (s : State) (port : Fin 12) (vc : Fin 4) (dt : BitVec 6)
    (data : List Byte) (n pitch : Nat) (f g : OpenFrame), s.csiStream port vc = some n ∧ (s.stream n).open_ = some f ∧
    f.ended = false ∧ dt.toNat = (s.streamEntry n).dataType ∧ (0 < f.lines → data.length ≤ f.lineBytes) ∧ pitch =
    ((if f.lines = 0 then data.length else f.lineBytes) + 15) / 16 * 16 ∧ g =
    { f with payload := f.payload ++ data ++ List.replicate (pitch - data.length) 0, raw := f.raw ++ data, lines := f.lines + 1, lineBytes := if f.lines = 0 then data.length else f.lineBytes, lastEdge := s.edge }
    ∧ s.HasRoom f g :=
  ⟨sensing { open_ := some {} } { port := 11, vc := 3, dataType := 0x2A }, 11, 3, 0x2A, [1, 2], 47, 16, {}, _,
     by decide, by decide, by decide, by decide, by decide, by decide, rfl, ⟨by decide, by decide⟩⟩

theorem wit_sensor_frames_are_assembled_3 : ∃ (s : State) (port : Fin 12) (vc : Fin 4) (dt : BitVec 6)
    (header crc : Bool) (data : List Byte) (n : Nat) (f : OpenFrame), s.csiStream port vc = some n ∧
    (s.stream n).open_ = some f ∧ f.ended = false ∧ (header = false ∨ crc = false) :=
  ⟨sensing { open_ := some {} } { port := 11, vc := 3, dataType := 0x2A }, 11, 3, 0x2A, false, true, [], 47, {},
     by decide⟩

theorem wit_sensor_frames_are_assembled_4 : ∃ (s : State) (port : Fin 12) (vc : Fin 4) (data : List Byte) (n : Nat)
    (f : OpenFrame), s.csiStream port vc = some n ∧ (s.stream n).open_ = some f ∧ f.ended = false ∧ f.sensorTime =
    none ∧ 8 ≤ data.length :=
  ⟨sensing { open_ := some {} } { port := 11, vc := 3, dataType := 0x2A }, 11, 3, List.replicate 8 1, 47, {},
     by decide⟩

theorem wit_sensor_frames_are_assembled_5 : ∃ (s : State) (port : Fin 12) (vc : Fin 4) (n : Nat) (f : OpenFrame),
    s.csiStream port vc = some n ∧ (s.stream n).open_ = some f :=
  ⟨sensing { open_ := some {} } { port := 11, vc := 3, dataType := 0x2A }, 11, 3, 47, {}, by decide⟩

theorem wit_sensor_frames_are_assembled_6 : ∃ (s : State) (p : Port) (tsn : BitVec 12) (stamp : Int)
    (data : List Byte) (e : StreamEntry) (h : SensorHeader) (f g : OpenFrame), s.tsnStream tsn.toNat = some e ∧
    s.listens e p = true ∧ sensorHeader data = some h ∧ (s.stream e.id).open_ = some f ∧ f.ended = false ∧ f.counter =
    h.seq ∧ f.nextFrag = h.frag ∧ g =
    { f with payload := f.payload ++ h.payload, raw := f.raw ++ h.payload, lines := f.lines + 1, nextFrag := f.nextFrag + 1, lastEdge := s.edge, ended := h.last }
    ∧ s.HasRoom f g :=
  ⟨sensing { open_ := some {} } { ethernet := true, tsn := 5, port := 3 }, .uplink, 5, 0, oneByte,
     { ethernet := true, tsn := 5, port := 3, id := 47 }, { payload := [7] }, {}, _, by decide, by decide, by decide,
     by decide, by decide, by decide, by decide, rfl, ⟨by decide, by decide⟩⟩

theorem wit_sensor_frames_are_assembled_7 : ∃ (s : State) (p : Port) (tsn : BitVec 12) (stamp : Int)
    (data : List Byte) (e : StreamEntry) (h : SensorHeader) (f g : OpenFrame), s.tsnStream tsn.toNat = some e ∧
    s.listens e p = true ∧ sensorHeader data = some h ∧ (s.stream e.id).open_ = none ∧ e.id < s.ing.streams.length ∧
    h.frag = 0 ∧ frameUnits 0 ≤ s.t2Free ∧ f =
    { counter := h.seq, arrival := s.rxStamp p stamp, sensorTime := some h.time, gptp := h.gptp, lastEdge := s.edge }
    ∧ g = { f with payload := h.payload, raw := h.payload, lines := 1, nextFrag := 1, ended := h.last } :=
  ⟨sensing {} { ethernet := true, tsn := 5, port := 3 }, .uplink, 5, 0, oneByte,
     { ethernet := true, tsn := 5, port := 3, id := 47 }, { payload := [7] }, _, _, by decide, by decide, by decide,
     by decide, by decide, by decide, by decide, rfl, rfl⟩

theorem wit_sensor_frames_are_assembled_8 : ∃ (s : State) (p : Port) (tsn : BitVec 12) (stamp : Int)
    (data : List Byte) (e : StreamEntry) (h : SensorHeader) (f : OpenFrame), s.tsnStream tsn.toNat = some e ∧
    s.listens e p = true ∧ sensorHeader data = some h ∧ (s.stream e.id).open_ = some f ∧ f.ended = false ∧ f.counter =
    h.seq ∧ f.nextFrag ≠ h.frag :=
  ⟨sensing { open_ := some { nextFrag := 1 } } { ethernet := true, tsn := 5, port := 3 }, .uplink, 5, 0, oneByte,
     { ethernet := true, tsn := 5, port := 3, id := 47 }, { payload := [7] }, { nextFrag := 1 }, by decide⟩

theorem wit_sensor_frames_are_assembled_9 : ∃ (s : State) (n : Fin 48) (f : OpenFrame), (s.stream n).open_ = some f ∧
    f.ended = false ∧ (s.streamEntry n).ethernet = true ∧ f.lastEdge + 2 * (s.streamEntry n).periodEdges ≤ s.edge :=
  ⟨{ sensing { open_ := some {} } { ethernet := true, tsn := 5, port := 3 } with edge := 320 }, 47, {}, by decide⟩

theorem wit_frames_are_sealed_and_watched_1 : ∃ (s : State) (n : Fin 48) (f : OpenFrame) (q : SeqCheck) (rep : Bool)
    (run : Nat), (s.stream n).open_ = some f ∧ f.ended = true ∧ q = seqCheck (s.streamEntry n).ethernet (s.stream n)
    f.counter ∧ q.outOfOrder = false ∧ rep =
    ((s.stream n).hasPrev && (q.same || crc64 f.raw = (s.stream n).lastSignature)) ∧ run =
    (if rep then (s.stream n).repeatRun + 1 else 0) :=
  ⟨sensing { open_ := some { ended := true } } { ethernet := true, tsn := 5, port := 3 }, 47, { ended := true }, _, _,
     _, by decide, by decide, rfl, by decide, rfl, rfl⟩

theorem wit_frames_are_sealed_and_watched_2 : ∃ (s : State) (n : Fin 48) (f : OpenFrame), (s.stream n).open_ = some f
    ∧ f.ended = true ∧ (seqCheck (s.streamEntry n).ethernet (s.stream n) f.counter).outOfOrder = true :=
  ⟨sensing { open_ := some { ended := true }, hasPrev := true, lastCounter := 1 }
     { ethernet := true, tsn := 5, port := 3 }, 47, { ended := true }, by decide⟩

theorem wit_frames_are_sealed_and_watched_3 : ∃ (s : State) (n : Fin 48),
    ((s.stream n).state = .active ∨ (s.stream n).state = .waiting) ∧ (s.stream n).lastSealEdge + 2 *
    (s.streamEntry n).periodEdges ≤ s.edge :=
  ⟨{ sensing { state := .active } { ethernet := true, tsn := 5, port := 3 } with edge := 320 }, 47, by decide⟩

theorem wit_the_tracing_unit_fuses_and_moves_1 : ∃ (s : State) (job : Word) (slot : Fin 32) (j : Job) (i : InFlight)
    (f : FusionRec) (k : Nat) (time : Int) (ds : List Detection) (r : ListResult),
    (s.Issued job slot 0x10 (fun _ => true) j i) ∧ (s.trc.holder = job ∨ s.trc.holder = 0 ∧ s.trc.queue = []) ∧
    s.otl.running.fusion = some f ∧
    (firstIdx f.entries.length (fun k => (f.entries.getD k {}).stream = i.desc.param0) = some k) ∧ parseList
    (j.bytes slot i.desc.aObj) i.desc.aOff s.now = some (time, ds) ∧ j.readFault i.desc.aObj i.desc.aOff
    (listBytes (j.bytes slot i.desc.aObj) i.desc.aOff) = none ∧ i.desc.cObj = 0 ∧ r =
    (if s.lateList i.desc.param0 time then { table := s.trc.seen } else (s.listView f k time).apply (s.ignored k) ds s.trc.seen)
    :=

     ⟨{ tracing { holder := 1 } { entries := [{ stream := 5 }] } with jobs := { list := [jobOn (desc [(0, 0x10), (4, 0xFFFFFFFE), (10, 0x50000)]) []] } },
     1, 0, jobOn (desc [(0, 0x10), (4, 0xFFFFFFFE), (10, 0x50000)]) [],
     { desc := desc [(0, 0x10), (4, 0xFFFFFFFE), (10, 0x50000)] }, { entries := [{ stream := 5 }] }, 0, 0, [], _,
     ⟨by decide, by decide, by decide⟩, by decide, by decide, by decide, by decide, by decide, by decide, rfl⟩

theorem wit_the_tracing_unit_fuses_and_moves_2 : ∃ (s : State) (job : Word) (slot : Fin 32) (j : Job) (i : InFlight),
    (s.Issued job slot 0x10 (fun _ => true) j i) ∧ s.trc.holder ≠ job ∧ (s.trc.holder ≠ 0 ∨ s.trc.queue ≠ []) :=
  ⟨{ tracing { holder := 2 } {} with jobs := { list := [jobOn (desc [(0, 0x10)]) []] } }, 1, 0, jobOn
     (desc [(0, 0x10)]) [], { desc := desc [(0, 0x10)] }, ⟨by decide, by decide, by decide⟩, by decide⟩

theorem wit_the_tracing_unit_fuses_and_moves_3 : ∃ (s : State) (e : Word × Nat) (l : List (Word × Nat)), s.trc.holder
    = 0 ∧ (s.trc.queue.foldl (fun acc e => insertBy s.marginBefore e acc) [] = e :: l) :=
  ⟨{ State.reset with trc := { queue := [(1, 0)] } }, (1, 0), [], by decide⟩

theorem wit_the_tracing_unit_fuses_and_moves_4 : ∃ (s : State) (track : BitVec 16) (f : FusionRec) (coast : Nat),
    s.otl.running.fusion = some f ∧ coast = fld ((s.sensor f 0).header.getD 3 0) 31 16 :=
  ⟨tracing {} {}, 1, {}, 0, by decide⟩

theorem wit_the_tracing_unit_fuses_and_moves_5 : ∃ (s : State) (x : EgoSample) (time : Int) (f : FusionRec), s.egoOn =
    some f ∧ x.values.length = 6 ∧ s.egoFrame f.inertialStream x time = true :=
  ⟨{ tracing {} { egoHz := 100 } with ing := { streams := [{ versions := [{ payload := List.replicate 24 0 }] }] } },
     { values := [0, 0, 0, 0, 0, 0] }, 0, { egoHz := 100 }, by decide⟩

theorem wit_the_tracing_unit_fuses_and_moves_6 : ∃ (s : State) (x : EgoSample) (time : Int) (f : FusionRec), s.egoOn =
    some f ∧ x.values.length = 3 ∧ s.egoFrame f.wheelStream x time = true :=
  ⟨{ tracing {} { egoHz := 100 } with ing := { streams := [{ versions := [{ payload := List.replicate 12 0 }] }] } },
     { values := [0, 0, 0] }, 0, { egoHz := 100 }, by decide⟩

theorem wit_the_tracing_unit_fuses_and_moves_7 : ∃ (s : State) (f : FusionRec), s.egoOn = some f ∧
    s.trc.ego.published ≠ s.egoInstant f :=
  ⟨tracing { ego := { published := 1 } } { egoHz := 100 }, { egoHz := 100 }, by decide⟩

theorem wit_the_tracing_unit_fuses_and_moves_8 : ∃ (s : State), s.trc.ego.lastInertial + 50 * edgesMs ≤ s.edge :=
  ⟨{ State.reset with edge := 8000000 }, by decide⟩

theorem wit_the_tracing_unit_fuses_and_moves_9 : ∃ (s : State) (v : Word), bit v 0 = true :=
  ⟨State.reset, 1, by decide⟩

theorem wit_the_tracing_unit_fuses_and_moves_10 : ∃ (s : State) (k : Fin 48) (c : Calibration), s.trcOn = true ∧
    s.trc.cal[k.val]? = some c ∧ c.refineEdge + edgesSec ≤ s.edge ∧ c.residuals < 32 :=
  ⟨{ tracing { cal := List.replicate 48 { residuals := 31 } } {} with edge := 160000000 }, 47, { residuals := 31 },
     by decide⟩

theorem wit_the_tracing_unit_fuses_and_moves_11 : ∃ (s : State) (k : Fin 48) (c : Calibration), s.trcOn = true ∧
    s.trc.cal[k.val]? = some c ∧ c.refineEdge + edgesSec ≤ s.edge ∧ 32 ≤ c.residuals :=
  ⟨{ tracing { cal := List.replicate 48 { residuals := 32 } } {} with edge := 160000000 }, 47, { residuals := 32 },
     by decide⟩

theorem wit_the_tracing_unit_fuses_and_moves_12 : ∃ (s : State) (k : Fin 48) (c : Calibration) (e : Nat)
    (box : List Word), s.trc.cal[k.val]? = some c ∧ c.demotions = [(e, box)] ∧ e ≤ s.edge :=
  ⟨{ State.reset with trc := { cal := [{ demotions := [(0, [])] }] } }, 0, { demotions := [(0, [])] }, 0, [], by decide⟩

/-! ## Witnesses, continued -/

/-- A PLANQ descriptor that waits. -/
def planFlight : InFlight := { desc := desc [(0, 0x0F)], stage := .waiting }

/-- A running job whose slot 0 waits for the planner. -/
def planJob : Job := { id := 1, state := .running, attempt := 1, slots := [{ inFlight := [planFlight] }] }

/-- The planner in a state, with the waiting job. -/
def planning (x : Xh) : State := { State.reset with jobs := { list := [planJob] }, xh := x }

/-- A group of one channel whose firing fell 5,000 ticks before now. -/
def stylusFires : State :=
  { ready { channels := [{ channel := 1 }] } with
    sty := { groups := List.replicate 16 { firing := true, instant := -5000 * unitsEdge } } }

/-- Every port in a state. -/
def ports (x : EthPort) : State := { State.reset with eth := { ports := List.replicate 4 x } }

/-- Every port up, with NET_PORT entries and a network table. -/
def network (o : Outline) (t : NetTable) (f : List FrerState) : State :=
  { ready o with eth := { ports := List.replicate 4 { link := true }, table := t, frer := f }, plt := plateOn }

/-- The by-pass in a state. -/
def bypassIs (e : Eth) : State := { State.reset with eth := e }

/-- Every session alike. -/
def sessionsAre (x : Session) (edge : Nat) : State :=
  { State.reset with eth := { sessions := List.replicate 16 x }, edge := edge }

/-- Every session of partition 0 is open, and a load of one session is in progress. -/
def loading (l : LoadOp) : State :=
  { opened (some 0) with tir := { loads := [l], objs := [{ obj := 9, state := .writing }] }, plt := plateOn }

theorem wit_planner_queries_and_maps_are_served_1 : ∃ (kind : QueryKind) (c : Instr) (s : State) (job : Word) (slot :
    Fin 32) (j : Job) (i : InFlight) (ws : List Word) (q : Query), (kind, c) ∈ [(QueryKind.search, Instr.planqSearch
    job slot), (.revalidate, .planqRevalidate job slot), (.readPlan, .planqReadPlan job slot), (.publish,
    .planqPublish job slot)] ∧ (s.Issued job slot 0x0F (fun d => fld ((j.queryWords slot d).getD 0 0) 1 0 = kind.code)
    j i) ∧ s.queryFail j slot i.desc = none ∧ ws = j.queryWords slot i.desc ∧ q =
    { job := job, slot := slot, kind := kind, plan := fld (ws.getD 0 0) 7 4, install := bit (ws.getD 0 0) 8,
      words := ws } :=
  ⟨.search, .planqSearch 1 0,
     { runs (desc [(0, 0x0F), (4, 0xFFFFFFFE), (8, 0xFFFFFFFE)]) [(16, 1), (21, 1)] with otl := { running := { lattice := some {} } } },
     1, 0, jobOn (desc [(0, 0x0F), (4, 0xFFFFFFFE), (8, 0xFFFFFFFE)]) [(16, 1), (21, 1)],
     { desc := desc [(0, 0x0F), (4, 0xFFFFFFFE), (8, 0xFFFFFFFE)] }, _, _, by decide, ⟨by decide, by decide,
     by decide⟩, by decide, rfl, rfl⟩

theorem wit_planner_queries_and_maps_are_served_2 : ∃ (s : State) (q : Query) (l : List Query), s.xh.run = none ∧
    s.xh.retired = false ∧
    (s.xh.queue.foldl (fun acc q => insertBy (fun a b : Query => s.marginBefore (a.job, a.slot) (b.job, b.slot)) q acc) [] = q :: l)
    ∧ (q.kind = .search ∨ q.kind = .revalidate ∧ (s.planOf q.plan).path ≠ []) :=
  ⟨planning { queue := [{}] }, {}, [], by decide⟩

theorem wit_planner_queries_and_maps_are_served_3 : ∃ (s : State) (q : Query) (l : List Query) (j : Job)
    (i : InFlight), s.xh.run = none ∧ s.xh.retired = false ∧
    (s.xh.queue.foldl (fun acc q => insertBy (fun a b : Query => s.marginBefore (a.job, a.slot) (b.job, b.slot)) q acc) [] = q :: l)
    ∧ q.kind = .readPlan ∧ s.job? q.job = some j ∧ j.planFlight q.slot = some i :=
  ⟨planning { queue := [{ job := 1, kind := .readPlan }] }, { job := 1, kind := .readPlan }, [], planJob, planFlight,
     by decide⟩

theorem wit_planner_queries_and_maps_are_served_4 : ∃ (s : State) (q : Query) (j : Job) (i : InFlight), s.xh.run =
    some q ∧ q.kind = .search ∧ q.repairStart = none ∧ q.budgetOver s.edge = true ∧ q.genBound = s.xh.gen ∧ s.job?
    q.job = some j ∧ j.planFlight q.slot = some i :=
  ⟨planning { run := some { job := 1 } }, { job := 1 }, planJob, planFlight, by decide⟩

theorem wit_planner_queries_and_maps_are_served_5 : ∃ (s : State) (q : Query) (j : Job) (i : InFlight), s.xh.run =
    some q ∧ q.repairOver s.edge = true ∧ s.job? q.job = some j ∧ j.planFlight q.slot = some i :=
  ⟨planning { run := some { job := 1, repairStart := some 0 } }, { job := 1, repairStart := some 0 }, planJob,
     planFlight, by decide⟩

theorem wit_planner_queries_and_maps_are_served_6 : ∃ (s : State) (q : Query) (j : Job) (i : InFlight)
    (r : SearchState) (n : Nat), s.xh.run = some q ∧ q.kind = .search ∧ q.repairStart = none ∧ q.budgetOver s.edge =
    false ∧ r = (s.searchIn q q.genBound).search (latState (q.w 1)) none ∧ r.found = some n ∧ q.genBound = s.xh.gen ∧
    (trace r.nodes r.nodes.length n).length ≤ ((s.otl.running.lattice.map (·.maxPlan)).getD 0) ∧ s.job? q.job = some j
    ∧ j.planFlight q.slot = some i :=
  ⟨planning { run := some { job := 1, words := [0, 0, 0, 0, 1] } }, { job := 1, words := [0, 0, 0, 0, 1] }, planJob,
     planFlight, _, 0, by decide, by decide, by decide, by decide, rfl, rfl, by decide, Nat.zero_le _, by decide⟩

theorem wit_planner_queries_and_maps_are_served_7 : ∃ (s : State) (q : Query) (j : Job), s.xh.run = some q ∧ s.job?
    q.job = some j ∧ j.state = .running ∧ j.budget ≤ j.attempt :=
  ⟨planning { run := some { job := 1 } }, { job := 1 }, planJob, by decide⟩

theorem wit_planner_queries_and_maps_are_served_8 : ∃ (s : State) (q : Query) (l : List Query), s.xh.publish = none ∧
    s.xh.retired = false ∧ (s.xh.run.any fun x => (s.xh.buffer (1 - s.xh.current)).valid && x.genBound = (s.xh.buffer
    (1 - s.xh.current)).gen) = false ∧ s.byDeadline s.xh.publishQueue = q :: l :=
  ⟨planning { publishQueue := [{ kind := .publish }] }, { kind := .publish }, [], by decide⟩

theorem wit_planner_queries_and_maps_are_served_9 : ∃ (s : State) (x : Query), s.xh.run = some x ∧
    (s.xh.buffer (1 - s.xh.current)).valid = true ∧ x.genBound = (s.xh.buffer (1 - s.xh.current)).gen :=
  ⟨planning { run := some { genBound := 1 }, buffers := [{}, { valid := true, gen := 1 }] }, { genBound := 1 },
     by decide⟩

theorem wit_planner_queries_and_maps_are_served_10 : ∃ (s : State) (q : Query) (j : Job) (n : Nat), s.xh.publish =
    some (q, true) ∧ s.job? q.job = some j ∧ n = ((s.otl.running.lattice).map (·.mapBytes)).getD 0 :=
  ⟨planning { publish := some ({ job := 1 }, true) }, { job := 1 }, planJob, _, by decide, by decide, rfl⟩

theorem wit_voxels_are_where_the_map_puts_them_1 : ∃ (r : LatticeRec) (m : Memory) (x y z : Nat), x < r.mapX ∧ y <
    r.mapY ∧ z < r.mapZ :=
  ⟨{ mapX := 1024, mapY := 1024, mapZ := 128 }, [], 1023, 1023, 127, by decide⟩

theorem wit_voxels_are_where_the_map_puts_them_2 : ∃ (r : LatticeRec) (m : Option Memory) (x y : Int) (z : Nat),
    (x < 0 ∨ (r.mapX : Int) ≤ x ∨ y < 0 ∨ (r.mapY : Int) ≤ y ∨ r.mapZ ≤ z) :=
  ⟨{}, none, -1, 0, 0, by decide⟩

theorem wit_voxels_are_where_the_map_puts_them_3 : ∃ (r : LatticeRec) (m : Memory) (x y : Int) (z a : Nat) (b : Byte),
    Memory.wf m = true ∧ 0 ≤ x ∧ 0 ≤ y ∧ x < r.mapX ∧ y < r.mapY ∧ a = 16 * (y.toNat * r.mapX + x.toNat) + r.mapZ / 8
    ∧ (∀ k, k < r.mapZ % 8 → b.getLsbD k = (Memory.read m a).getLsbD k) :=
  ⟨{ mapX := 2, mapY := 2, mapZ := 9 }, [(49, 1)], 1, 1, 0, 49, 3, by decide⟩

theorem wit_voxels_are_where_the_map_puts_them_4 : ∃ (r : LatticeRec), r.mapX = 1024 ∧ r.mapY = 1024 :=
  ⟨{ mapX := 1024, mapY := 1024 }, by decide⟩

theorem wit_guards_latch_and_engines_deliver_1 : ∃ (s : State) (g : Fin 16) (k : Nat) (o : Outline), s.nextStylus
    g.val = some k ∧ k ≤ tickOf s.now + 800 ∧ (s.styGroup g).guardTick ≠ some k ∧ s.stylusOn = true ∧ o = s.outlineAt
    k ∧ g.val < s.sty.groups.length ∧ ((o.sortedGroup g.val).map (·.channel)).Nodup ∧
    (∀ c ∈ o.sortedGroup g.val, c.channel < s.sty.channels.length) :=

     ⟨{ ready { table := [{ target := 4, offset := 800 }], channels := [{ channel := 1 }] } with glb := { stage := .ready, pdState := 8 } },
     0, 800, _, by decide +kernel, by decide +kernel, by decide +kernel, by decide +kernel, rfl, by decide +kernel⟩

theorem wit_guards_latch_and_engines_deliver_2 : ∃ (s : State) (g : Fin 16) (fault : BitVec 5), (s.styGroup g).firing
    = true ∧ (s.styGroup g).delivered = false ∧ (s.styGroup g).skipHold = false ∧ (s.styGroup g).instant +
    (s.otl.running.doneTicks s.sty.lanes g : Int) * unitsEdge ≤ s.now ∧ g.val < s.sty.groups.length ∧
    ((s.otl.running.sortedGroup g.val).map (·.channel)).Nodup ∧ (∀ c ∈ s.otl.running.sortedGroup g.val, c.channel <
    s.sty.channels.length) :=
  ⟨stylusFires, 0, 0, by decide +kernel⟩

theorem wit_output_frames_are_formed_1 : ∃ (s : State) (g : Fin 16) (n : Nat) (cs : List ChanEntry) (p : Port)
    (opens apply : Int), (s.styGroup g).firing = true ∧ cs = s.otl.running.sortedGroup g.val ∧ cs ≠ [] ∧
    (∀ c ∈ cs, c.outStream = n) ∧ (cs.map (·.channel)).Nodup ∧ (∀ c ∈ cs, c.channel < s.sty.channels.length) ∧ g.val <
    s.sty.groups.length ∧ (s.otl.running.frer.find? (·.tsn = (s.streamEntry n).tsn)) = none ∧ p = portOf
    (s.streamEntry n).port ∧ portNum p < s.eth.ports.length ∧ opens = (s.styGroup g).instant +
    (s.otl.running.groupPeriod g : Int) * unitsEdge ∧ opens - 320 * unitsEdge ≤ s.now ∧ apply = opens +
    (((cs.head?.map (·.applyLead)).getD 0 : Nat) : Int) * unitsEdge :=
  ⟨stylusFires, 0, 0, [{ channel := 1 }], .ringA, 0, 0, by decide +kernel⟩

theorem wit_pid_outputs_stay_in_their_bounds_1 : ∃ (c : List (BitVec 16)) (e : Int) (l : LawState) (r : LawStep), r =
    pidStep c e l :=
  ⟨[], 0, {}, _, rfl⟩

theorem wit_laws_act_on_the_saturated_error_2 : ∃ (c : ChanEntry) (y : StyChannel), y.kick = false ∧ c.cascade = true
    :=
  ⟨{ cascade := true }, {}, by decide⟩

theorem wit_laws_act_on_the_saturated_error_3 : ∃ (c : ChanEntry) (y : StyChannel), y.kick = false ∧ c.cascade = false
    :=
  ⟨{}, {}, by decide⟩

theorem wit_laws_act_on_the_saturated_error_4 : ∃ (c : ChanEntry) (x y : StyChannel), lawError x.ref x.sample =
    lawError y.ref y.sample ∧ x.law = y.law ∧ x.kick = y.kick :=
  ⟨{}, { ref := 32767, sample := -1 }, { ref := 32767, sample := -2 }, by decide⟩

theorem wit_frames_are_queued_gated_and_sent_1 : ∃ (s : State) (p : Port) (f : TxFrame), portNum p <
    s.eth.ports.length :=
  ⟨State.reset, .uplink, {}, by decide⟩

theorem wit_frames_are_queued_gated_and_sent_2 : ∃ (s : State) (p : Port) (g : TsnGateRec), s.gateRec p = some g ∧
    g.entries ≠ [] ∧ portNum p < s.eth.ports.length ∧ (s.ethPort p).gateEdge +
    (g.entries.getD (s.ethPort p).gateIndex {}).interval ≤ s.edge :=
  ⟨{ ready { gates := [{ port := 3, entries := [{}] }] } with edge := 1 }, .uplink, { port := 3, entries := [{}] },
     by decide⟩

theorem wit_frames_are_queued_gated_and_sent_3 : ∃ (s : State) (p : Port) (c : Nat) (f : TxFrame), (s.ethPort p).link
    = true ∧ c ≤ 7 ∧ (s.ethPort p).txq.find? (·.tc = c) = some f ∧ (s.accrue p).mayStart p f = true ∧
    (∀ d f', c < d → d ≤ 7 → (s.ethPort p).txq.find? (·.tc = d) = some f' → (s.accrue p).mayStart p f' = false) :=
  ⟨ports { link := true, speed := 2, txq := [{ tc := 7 }] }, .uplink, 7, { tc := 7 }, by decide, by decide, by decide,
     by decide, fun d f h1 h2 => absurd h1 (by omega)⟩

theorem wit_frames_are_queued_gated_and_sent_4 : ∃ (s : State) (p : Port) (n : Nat) (f : TxFrame),
    (s.ethPort p).txq.find? (·.id = n) = some f ∧ s.windowClosed p f = true ∧ f.window.isSome = true :=
  ⟨ports { txq := [{ window := some (-10, 0) }] }, .uplink, 0, { window := some (-10, 0) }, by decide⟩

theorem wit_frames_are_queued_gated_and_sent_5 : ∃ (s : State) (p : Port) (n : Nat) (f : TxFrame),
    (s.ethPort p).txq.find? (·.id = n) = some f ∧ s.windowClosed p f = true ∧ f.window = none ∧ (s.ethPort p).link =
    false :=

     ⟨{ ready { gates := [{ port := 3, entries := [{ gates := 0 }, { gates := 1 }] }] } with eth := { ports := List.replicate 4 { txq := [{}], gateEdge := 1 } } },
     .uplink, 0, {}, by decide⟩

theorem wit_frames_are_queued_gated_and_sent_6 : ∃ (s : State) (p : Port), (s.ethPort p).link = false :=
  ⟨State.reset, .uplink, by decide⟩

theorem wit_frames_are_received_policed_and_forwarded_1 : ∃ (s : State) (p : Port) (f : Frame) (stamp : Int),
    (s.ethPort p).link = true ∧ s.macsecOn p = true ∧ clearType f.etherType.toNat = false ∧ f.macsec ≠ .valid :=
  ⟨network { ports := [{ port := 3, enable := true, macsec := true }] } {} [], .uplink, {}, 0, by decide⟩

theorem wit_frames_are_received_policed_and_forwarded_2 : ∃ (s : State) (p : Port) (f : Frame) (stamp : Int),
    (s.ethPort p).link = true ∧ s.macsecOn p = false ∧ f.macsec = .clear ∧ rxShare p (frameCls f) < (s.ethPort
    p).rxUsed (frameCls f) + frameSize f ∧ s.takesSlot p f = false :=
  ⟨ports { link := true, rxq := [{ bytes := 81920 }] }, .uplink, {}, 0, by decide⟩

theorem wit_frames_are_received_policed_and_forwarded_3 : ∃ (s : State) (p : Port) (f : Frame) (stamp : Int) (b : List
    Byte), (s.ethPort p).link = true ∧ s.macsecOn p = false ∧ f.macsec = .clear ∧ s.takesSlot p f = true ∧
    s.limianPayload f = some b :=
  ⟨network {} {} [], .uplink, { etherType := 0x88B5, payload := [7] }, -5, [7], by decide⟩

theorem wit_frames_are_received_policed_and_forwarded_4 : ∃ (s : State) (p : Port) (f : Frame) (stamp : Int)
    (e : Nat × NetEntry), (s.ethPort p).link = true ∧ s.macsecOn p = false ∧ f.macsec = .clear ∧ (s.ethPort p).rxUsed
    (frameCls f) + frameSize f ≤ rxShare p (frameCls f) ∧ s.eth.table.identify f = some e ∧ e.2.maxSdu ≠ 0 ∧
    e.2.maxSdu < f.payload.length + 6 * toBit f.rtag.isSome :=
  ⟨network {} { entries := [(5, { maxSdu := 1 })] } [], .uplink, { vlan := true, payload := [1, 2] }, 0,
     (5, { maxSdu := 1 }), by decide⟩

theorem wit_frames_are_received_policed_and_forwarded_5 : ∃ (s : State) (f : Frame) (stamp : Int)
    (e : Nat × NetEntry), (s.ethPort .ringA).link = true ∧ f.macsec = .clear ∧ (s.ethPort .ringA).rxUsed (frameCls f)
    + frameSize f ≤ rxShare .ringA (frameCls f) ∧ s.eth.table.identify f = some e ∧ e.2.maxSdu = 0 ∧ e.2.cir = 0 ∧
    e.2.fwd = true ∧ (∀ q, f.src ≠ macOf q) ∧ s.tsnStream e.1 = none ∧ 1 < s.eth.ports.length :=
  ⟨network {} { entries := [(5, { fwd := true })] } [], { vlan := true, src := Config.macBase + 4 }, 0,
     (5, { fwd := true }), by decide, by decide, by decide, by decide, by decide, by decide, by decide,
     (by intro q; cases q <;> simp [macOf, portNum]), by decide, by decide⟩

theorem wit_frames_are_received_policed_and_forwarded_6 : ∃ (s : State) (p : Port) (f : Frame) (stamp : Int)
    (e : Nat × NetEntry) (x : StreamEntry), (s.ethPort p).link = true ∧ s.macsecOn p = false ∧ f.macsec = .clear ∧
    (s.ethPort p).rxUsed (frameCls f) + frameSize f ≤ rxShare p (frameCls f) ∧ s.eth.table.identify f = some e ∧
    e.2.maxSdu = 0 ∧ e.2.cir = 0 ∧ e.2.fwd = false ∧ s.tsnStream e.1 = some x ∧ s.otl.running.frer.find? (·.tsn = e.1)
    = none ∧ s.listens x p = true :=
  ⟨network { streams := [{ ethernet := true, tsn := 5, port := 3, id := 47 }] } { entries := [(5, {})] } [], .uplink,
     { vlan := true }, 0, (5, {}), { ethernet := true, tsn := 5, port := 3, id := 47 }, by decide⟩

theorem wit_frames_are_received_policed_and_forwarded_7 : ∃ (s : State) (p : Port) (f : Frame) (stamp : Int)
    (e : Nat × NetEntry) (x : StreamEntry) (r : FrerEntry) (q : BitVec 16), (s.ethPort p).link = true ∧ s.macsecOn p =
    false ∧ f.macsec = .clear ∧ (s.ethPort p).rxUsed (frameCls f) + frameSize f ≤ rxShare p (frameCls f) ∧
    s.eth.table.identify f = some e ∧ e.2.maxSdu = 0 ∧ e.2.cir = 0 ∧ e.2.fwd = false ∧ s.tsnStream e.1 = some x ∧
    s.otl.running.frer.find? (·.tsn = e.1) = some r ∧ f.rtag = some q ∧ r.ports.getLsbD (portNum p) = true ∧
    (s.frerOf e.1).last = some q ∧ (s.frerOf e.1).seen.getLsbD 0 = true ∧ 0 < r.history :=
  ⟨network
     { streams := [{ ethernet := true, tsn := 5, port := 3, id := 47 }], frer := [{ tsn := 5, ports := 8, history := 1 }] }
     { entries := [(5, {})] } [{ tsn := 5, last := some 9, seen := 1 }], .uplink, { vlan := true, rtag := some 9 }, 0,
     (5, {}), { ethernet := true, tsn := 5, port := 3, id := 47 }, { tsn := 5, ports := 8, history := 1 }, 9,
     by decide⟩

theorem wit_frames_are_received_policed_and_forwarded_8 : ∃ (s : State) (tsn : BitVec 12),
    (s.frerOf tsn.toNat).last.isSome = true ∧ (s.frerOf tsn.toNat).lastEdge + 100 * edgesMs ≤ s.edge :=
  ⟨{ network {} {} [{ tsn := 5, last := some 9 }] with edge := 100 * edgesMs }, 5, by decide⟩

theorem wit_links_and_neighbours_come_and_go_1 : ∃ (s : State) (p : Port) (speed : Fin 3) (master verified : Bool),
    (s.netPort p).enable = true ∧ (s.ethPort p).link = false ∧ speed.val ≤ (s.netPort p).speedMax ∧
    (isRing p = true → s.eth.bypass = .open_) ∧ portNum p < s.eth.ports.length :=
  ⟨ready { ports := [{ port := 3, enable := true, speedMax := 2 }] }, .uplink, 2, true, false, by decide⟩

theorem wit_links_and_neighbours_come_and_go_2 : ∃ (s : State) (p : Port), (s.ethPort p).link = true :=
  ⟨ports { link := true }, .uplink, by decide⟩

theorem wit_links_and_neighbours_come_and_go_3 : ∃ (s : State) (p : Port), (s.ethPort p).link = true ∧ (s.ethPort
    p).preemptVerified = false ∧ s.eth.table.express.getD (portNum p) 0 ≠ 0 ∧ (s.ethPort p).verifyTries < 3 ∧
    (s.ethPort p).verifyEdge + 10 * edgesMs ≤ s.edge :=
  ⟨{ network { ports := [{ port := 3, enable := true, speedMax := 2 }] } { express := [0, 0, 0, 1] } [] with edge := 1600000 },
     .uplink, by decide⟩

theorem wit_links_and_neighbours_come_and_go_4 : ∃ (s : State) (p : Port), (s.netPort p).enable = true ∧ (s.ethPort
    p).link = true ∧ (s.ethPort p).lldpEdge + edgesSec ≤ s.edge ∧ (isRing p = false ∨ s.eth.table.ringLldp = 0) :=
  ⟨{ network { ports := [{ port := 3, enable := true, speedMax := 2 }] } {} [] with edge := 160000000 }, .uplink, by decide⟩

theorem wit_links_and_neighbours_come_and_go_5 : ∃ (s : State) (p : Port) (chassis : BitVec 48) (ttl : BitVec 16)
    (k : Nat), (s.ethPort p).link = true ∧ ttl ≠ 0 ∧
    ((s.eth.partners.any fun x => x.any (·.chassis = chassis)) = false) ∧ s.eth.partners.findIdx? (·.isNone) = some k
    :=
  ⟨ports { link := true }, .uplink, 7, 120, 0, by decide⟩

theorem wit_links_and_neighbours_come_and_go_6 : ∃ (s : State) (p : Port) (chassis : BitVec 48) (ttl : BitVec 16),
    (s.ethPort p).link = true ∧ ttl ≠ 0 ∧ ((s.eth.partners.any fun x => x.any (·.chassis = chassis)) = false) ∧
    s.eth.partners.findIdx? (·.isNone) = none :=
  ⟨bypassIs { ports := List.replicate 4 { link := true }, partners := List.replicate 64 (some { chassis := 1 }) },
     .uplink, 7, 120, by decide⟩

theorem wit_links_and_neighbours_come_and_go_7 : ∃ (s : State) (p : Port) (chassis : BitVec 48), (s.ethPort p).link =
    true :=
  ⟨ports { link := true }, .uplink, 7, by decide⟩

theorem wit_links_and_neighbours_come_and_go_8 : ∃ (s : State) (n : Fin 64) (y : Partner), s.eth.partners[n.val]? =
    some (some y) ∧ (∀ e ∈ y.expiry, e ≤ s.edge) :=
  ⟨bypassIs { partners := List.replicate 64 (some {}) }, 63, {}, by decide⟩

theorem wit_links_and_neighbours_come_and_go_9 : ∃ (s : State) (p : Port) (asker : BitVec 48) (askerIp : Word), isRing
    p = false ∧ (s.ethPort p).link = true ∧ s.regs.ipAddr ≠ 0 :=
  ⟨{ ports { link := true } with regs := { ipAddr := 0x0A000001 } }, .uplink, 7, 0x0A000002, by decide⟩

theorem wit_the_by_pass_opens_and_closes_1 : ∃ (s : State), s.eth.bypass = .closed ∧ s.eth.noReopen = false ∧
    s.eth.attempts.toNat < 3 ∧ s.eth.retryEdge ≤ s.edge ∧ s.tb.everLocked = true ∧ s.outlineRuns = true ∧
    s.ringEnabled = true :=

     ⟨{ ready { ports := [{ port := 0, enable := true }, { port := 1, enable := true }] } with tb := { everLocked := true } },
     by decide⟩

theorem wit_the_by_pass_opens_and_closes_2 : ∃ (s : State), s.bypassPending = true :=
  ⟨bypassIs { instant := some (0, true), bypass := .armed }, by decide⟩

theorem wit_the_by_pass_opens_and_closes_3 : ∃ (s : State) (o : Int), s.eth.instant = some (o, true) ∧ s.eth.bypass =
    .armed ∧ o ≤ s.now :=
  ⟨bypassIs { instant := some (0, true), bypass := .armed }, 0, by decide⟩

theorem wit_the_by_pass_opens_and_closes_4 : ∃ (s : State) (o : Int) (d : Bool), s.eth.instant = some (o, d) ∧
    s.eth.bypass = .open_ ∧ s.eth.opening = true ∧ o + 2 * unitsSec ≤ s.now :=
  ⟨bypassIs { instant := some (-2 * unitsSec, true), bypass := .open_, opening := true }, -2 * unitsSec, true,
     by decide⟩

theorem wit_the_by_pass_opens_and_closes_5 : ∃ (s : State) (o : Int), s.eth.instant = some (o, false) ∧ s.eth.bypass =
    .open_ ∧ o ≤ s.now :=
  ⟨bypassIs { instant := some (0, false), bypass := .open_ }, 0, by decide⟩

theorem wit_the_by_pass_opens_and_closes_6 : ∃ (s : State) (v : Word), bit v 9 = true ∧ bit v 8 = false ∧ s.eth.bypass
    = .open_ ∧ s.bypassPending = false :=
  ⟨bypassIs { bypass := .open_ }, 0x200, by decide⟩

theorem wit_the_by_pass_opens_and_closes_7 : ∃ (s : State) (v : Word), bit v 8 = true ∧ bit v 9 = false ∧ s.eth.bypass
    = .failed :=
  ⟨bypassIs { bypass := .failed }, 0x100, by decide⟩

theorem wit_sessions_are_opened_served_and_closed_1 : ∃ (s : State) (p : Port) (seq w0 : Word) (credits : BitVec 16),
    isRing p = false ∧ (s.ethPort p).link = true ∧ fld w0 31 9 = 0 ∧ fld w0 7 4 = 0 ∧ credits.toNat ≤ 256 ∧ s.openable
    (fld w0 3 0) = true ∧ s.eth.sessions.length = 16 ∧ (∃ x ∈ s.eth.sessions, x.open_ = false) ∧
    (fld w0 3 0 = 15 → s.eth.sessions.all (fun x => !(x.open_ && x.part.isNone)) = true) :=
  ⟨ports { link := true }, .uplink, 0, 15, 256, by decide⟩

theorem wit_sessions_are_opened_served_and_closed_2 : ∃ (s : State) (p : Port) (seq w0 : Word) (credits : BitVec 16),
    isRing p = false ∧ (s.ethPort p).link = true ∧ fld w0 31 9 = 0 ∧ fld w0 7 4 = 0 ∧ credits.toNat ≤ 256 ∧ s.openable
    (fld w0 3 0) = false ∧ portNum p < s.eth.ports.length :=
  ⟨ports { link := true }, .uplink, 0, 0, 256, by decide⟩

theorem wit_sessions_are_opened_served_and_closed_3 : ∃ (s : State) (i : Fin 16), (s.session i).open_ = true :=
  ⟨opened (some 0), 15, by decide⟩

theorem wit_sessions_are_opened_served_and_closed_4 : ∃ (s : State) (i : Fin 16) (ack : Word) (credits : BitVec 16)
    (n : Nat), (s.session i).open_ = true ∧ credits.toNat ≤ 256 ∧ n = (ack - (s.session i).peerAck).toNat ∧ n ≤
    (s.session i).sent :=
  ⟨sessionsAre { open_ := true, sent := 1 } 0, 15, 1, 256, 1, by decide⟩

theorem wit_sessions_are_opened_served_and_closed_5 : ∃ (s : State) (i : Fin 16), (s.session i).open_ = true ∧ 0 <
    (s.session i).undelivered ∧ (s.session i).ackEdge + 20 * edgesUs ≤ s.edge ∧ portNum (s.session i).port <
    s.eth.ports.length :=
  ⟨sessionsAre { open_ := true, undelivered := 1 } (20 * edgesUs), 15, by decide⟩

theorem wit_sessions_are_opened_served_and_closed_6 : ∃ (s : State) (i : Fin 16), (s.session i).open_ = true ∧ 0 <
    (s.session i).sent ∧ (s.session i).oldestEdge + s.regs.limRto.toNat * edgesUs * 2 ^ (s.session i).timeouts ≤
    s.edge ∧ (s.session i).timeouts < 7 :=
  ⟨sessionsAre { open_ := true, sent := 1, timeouts := 6 } 1000000000000, 15, by decide⟩

theorem wit_sessions_are_opened_served_and_closed_7 : ∃ (s : State) (i : Fin 16), (s.session i).open_ = true ∧ 0 <
    (s.session i).sent ∧ (s.session i).oldestEdge + s.regs.limRto.toNat * edgesUs * 2 ^ (s.session i).timeouts ≤
    s.edge ∧ 7 ≤ (s.session i).timeouts :=
  ⟨sessionsAre { open_ := true, sent := 1, timeouts := 7 } 1000000000000, 15, by decide⟩

theorem wit_sessions_are_opened_served_and_closed_8 : ∃ (s : State) (i : Fin 16), (s.session i).open_ = true ∧
    (s.session i).lastValid + 10 * edgesSec ≤ s.edge :=
  ⟨sessionsAre { open_ := true } (10 * edgesSec), 15, by decide⟩

theorem wit_sessions_are_opened_served_and_closed_9 : ∃ (s : State) (i : Fin 16) (tag w addr : Word) (n : Nat)
    (ws : List Word), (s.session i).open_ = false :=
  ⟨State.reset, 15, 0, 0, 0, 1, [], by decide⟩

theorem wit_objects_are_loaded_read_and_pushed_1 : ∃ (s : State) (i : Fin 16) (tag obj total w3 : Word)
    (iv : BitVec 96), (s.session i).open_ = true ∧ s.loadable (s.session i) obj = false :=
  ⟨opened (some 0), 15, 0, 0, 64, 0, 0, by decide⟩

theorem wit_objects_are_loaded_read_and_pushed_2 : ∃ (s : State) (i : Fin 16) (tag obj total : Word) (iv : BitVec 96)
    (part : Nat), (s.session i).open_ = true ∧ s.loadable (s.session i) obj = true ∧ obj ≠ 0 ∧ total ≠ 0 ∧ part =
    loadPart (s.session i) obj ∧ s.tir.loads = [] ∧ s.placeOf part obj = none ∧ s.dirUsed + 1 ≤ 65536 ∧ bankUnits
    (4096 * unitsOf total.toNat) ≤ s.t2Free :=
  ⟨{ opened (some 0) with plt := plateOn }, 0, 0, 9, 64, 0, 0, by decide⟩

theorem wit_objects_are_loaded_read_and_pushed_3 : ∃ (s : State) (i : Fin 16) (offset : Word) (data : List Byte) (l :
    LoadOp), (s.session i).open_ = true ∧ s.sessionLoad i = some l ∧ offset.toNat = l.received.length ∧ l.obj ≠ 0 :=
  ⟨loading { sess := 15, obj := 9, total := 1 }, 15, 0, [7], { sess := 15, obj := 9, total := 1 }, by decide⟩

theorem wit_objects_are_loaded_read_and_pushed_4 : ∃ (s : State) (i : Fin 16) (offset : Word) (data : List Byte) (l :
    LoadOp), (s.session i).open_ = true ∧ s.sessionLoad i = some l ∧ offset.toNat ≠ l.received.length :=
  ⟨loading { sess := 15, obj := 9, total := 1 }, 15, 1, [7], { sess := 15, obj := 9, total := 1 }, by decide⟩

theorem wit_objects_are_loaded_read_and_pushed_5 : ∃ (s : State) (i : Fin 16) (tag crc : Word) (gcm : BitVec 128),
    (s.session i).open_ = true ∧ s.sessionLoad i = none :=
  ⟨opened (some 0), 15, 0, 0, 0, by decide⟩

theorem wit_objects_are_loaded_read_and_pushed_6 : ∃ (s : State) (i : Fin 16) (tag crc : Word) (gcm : BitVec 128) (l :
    LoadOp) (st : Byte), (s.session i).open_ = true ∧ s.sessionLoad i = some l ∧ l.plain crc gcm = .error st :=
  ⟨loading { sess := 15, obj := 9, total := 1 }, 15, 0, 0, 0, { sess := 15, obj := 9, total := 1 }, 0x13, by decide,
     by decide, by rfl⟩

theorem wit_objects_are_loaded_read_and_pushed_7 : ∃ (s : State) (i : Fin 16) (tag crc : Word) (gcm : BitVec 128) (l :
    LoadOp) (p : List Byte), (s.session i).open_ = true ∧ s.sessionLoad i = some l ∧ l.plain crc gcm = .ok p ∧ l.obj ≠
    0 ∧ s.placeOf l.part l.obj = none ∧ bankUnits (4096 * max 1 (unitsOf l.total)) ≤ s.t2Free :=
  ⟨loading { sess := 15, obj := 9, total := 1, received := [7] }, 15, 0, crc32c [7], 0,
     { sess := 15, obj := 9, total := 1, received := [7] }, [7], by decide, by decide, by rfl, by decide⟩

theorem wit_objects_are_loaded_read_and_pushed_8 : ∃ (s : State) (i : Fin 16) (tag crc : Word) (gcm : BitVec 128) (l :
    LoadOp) (p : List Byte), (s.session i).open_ = true ∧ s.sessionLoad i = some l ∧ l.plain crc gcm = .ok p ∧ l.obj =
    0 ∧ s.otl.state = .staging :=

     ⟨{ opened none with tir := { loads := [{ sess := 15, total := 1, received := [7] }] }, otl := { state := .staging } },
     15, 0, crc32c [7], 0, { sess := 15, total := 1, received := [7] }, [7], by decide, by decide, by rfl, by decide⟩

theorem wit_objects_are_loaded_read_and_pushed_9 : ∃ (s : State) (i : Fin 16) (tag obj : Word) (ver : BitVec 16) (p :
    Nat) (o : ObjVersion), (s.session i).open_ = true ∧ (s.session i).part = some p ∧ s.readNamed p obj ver.toNat =
    some o ∧ s.version? o.part o.obj o.ver = some o ∧ (o.state = .sealed ∨ o.state = .rebuilding) ∧ o.len ≤ 1448 ∧ 0 <
    o.len :=
  ⟨hasObj { obj := 9, len := 1, data := [(0, 7)] }, 15, 0, 9, 0, 0, { obj := 9, len := 1, data := [(0, 7)] },
     by decide⟩

theorem wit_objects_are_loaded_read_and_pushed_10 : ∃ (s : State) (i : Fin 16) (tag obj : Word) (ver : BitVec 16) (p :
    Nat) (o : ObjVersion), (s.session i).open_ = true ∧ (s.session i).part = some p ∧ s.readNamed p obj ver.toNat =
    some o ∧ o.state = .verifying :=
  ⟨hasObj { obj := 9, state := .verifying }, 15, 0, 9, 0, 0, { obj := 9, state := .verifying }, by decide⟩

theorem wit_objects_are_loaded_read_and_pushed_11 : ∃ (s : State) (i : Fin 16) (tag obj robj : Word) (ver : BitVec 16)
    (rp : Fin 8) (st : Byte) (p : Nat) (o : ObjVersion), (s.session i).open_ = true ∧ (s.session i).part = some p ∧
    s.readNamed p obj ver.toNat = some o ∧ s.version? o.part o.obj o.ver = some o ∧ (o.state = .sealed ∨ o.state =
    .rebuilding) ∧ (s.ethPort .peer).link = true :=
  ⟨{ hasObj { obj := 9 } with eth := {
     sessions := List.replicate 16 { open_ := true, part := some 0 }, ports := List.replicate 4 { link := true } } },
     15, 0, 9, 5, 0, 7, 0, 0, { obj := 9 }, by decide⟩

theorem wit_objects_are_loaded_read_and_pushed_12 : ∃ (s : State) (i : Fin 16) (tag obj robj : Word) (ver : BitVec 16)
    (rp : Fin 8) (st : Byte) (p : Nat), (s.session i).open_ = true ∧ (s.session i).part = some p ∧ (s.readNamed p obj
    ver.toNat = none ∨ (s.ethPort .peer).link = false ∧ (∀ o, s.readNamed p obj ver.toNat = some o → o.state ≠
    .verifying)) :=
  ⟨opened (some 0), 15, 0, 9, 5, 0, 7, 0, 0, by decide, by decide, .inl (by decide)⟩

/-! ## Witnesses, continued -/

/-- A running Outline whose rule set 0 bounds a residue by 1, and Proof in a state. -/
def judging (p : Prf) : State :=
  { ready { partitions := [{ supervised := true }], ruleSets := [{ rules := [{ e0 := 7, e2 := 0x3F800000 }] }] } with
    prf := p, jobs := { list := [{ id := 1, state := .running, disagrees := 1 }] } }

/-- Unit 2 has slices, and every unit's slice is in a state. -/
def slicing (x : SliceState) : State :=
  { ready { selftest := [{ unit := 2 }] } with prf := { slices := List.replicate 8 x } }

/-- The rotation entry of cluster 3. -/
def rotateEntry : RegEntry := { target := 9, action := 1, unit := 3 }

/-- Clusters alike with rotation in service for 10 ms, and cores alike. -/
def rotating (c : Cluster) (k : Core) : State :=
  { ready { table := [rotateEntry], coreRun := 0xFFFFFFFFF, domainOn := 0xFFFFFF } with
    edge := 1600000, clusters := List.replicate 4 c, cores := List.replicate 36 k }

/-- The four Plate slices in a state. -/
def plates (x : PlateSlice) : State := { State.reset with plt := List.replicate 4 x }

/-- Power-on brought the device to a stage. -/
def atStage (b : BootStage) : State := { State.reset with glb := { stage := b } }

/-- A public key of P-384 for tests: X, then Y. -/
def testKey : List Byte := natBytesBE 96
  0x8ec0a82c6440064bda7279abf3e592bdaee862059fbdcfb71dcc4fa6bcced5038ff6377b30d008eefc3f7b039a9004b52e63ef80f7723cdec4cb2d2b9e3f037d664d7f13f9fe6f7eb2c65b5dea7714e379d8dd31ab66f1c9a5aea0013f25fb80

/-- A signature under that key's private key: every test signature has the same r. -/
def testSignature (s : Nat) : List Byte := natBytesBE 48
  0xc345f6efcf4004575285a73acb4bc4ce67b6a2ea453331f8198ac96be462e4d30cd400bba63bd50ea85cf6459f85ab0f ++ natBytesBE 48 s

/-- A signature block of key 0 from byte `a` on. -/
def signatureAt (a s : Nat) : Memory := (testSignature s).zipIdx.map fun x => (a + 4 + x.2, x.1)

/-- The SHA-384 digest of no bytes. -/
def noBytesDigest : List Byte := natBytesBE 48
  0x38b060a751ac96384cd9327eb1b1e36a21fdb71114be07434c0cc7bf63f6e1da274edebfe76f65fbd51ad2f14898b95b

/-- A firmware image of two empty components under the test key: magic, two components, the key table, and each
component's number and digest; the rest 0; then the signature block (R453). -/
def firmwareBytes : List Byte :=
  [0x54, 0x57, 0x46, 0x4E, 0, 2, 0, 0] ++ testKey ++ List.replicate 384 0 ++ (1 :: List.replicate 11 0) ++ noBytesDigest ++
    (2 :: List.replicate 11 0) ++ noBytesDigest ++ List.replicate 4 0 ++ testSignature
      0xee687a4eb78ec02d4c9b41066daf1fce43c7b6fd264074ca48b4d5587e0bbcf2f172ad199b983a124292686efeb5ee4d

/-- The memory that holds the bytes of a list from byte `k` on. -/
def cells (k : Nat) (l : List Byte) : Memory := (l.zipIdx k).map fun x => (x.2, x.1)

theorem cells_read (l : List Byte) (k n : Nat) (h : k ≤ n) : Memory.read (cells k l) n = l.getD (n - k) 0 := by
  induction l generalizing k with
  | nil => rfl
  | cons b r ih =>
    rcases Nat.eq_or_lt_of_le h with rfl | hk
    · simp [cells, Memory.read]
    · have e : n - k = (n - (k + 1)) + 1 := by omega
      have hb : (n == k) = false := by simp; omega
      rw [e, List.getD_cons_succ, ← ih (k + 1) hk]
      simp [cells, Memory.read, List.lookup, hb]

/-- A security object of given bytes, with key 0 in the key table. -/
def signed (id : Word) (bs : List Byte) : State :=
  { State.reset with
    tir := { objs := [{ obj := id, len := bs.length, data := cells 0 bs }] }, sec := { keys := [some testKey] } }

theorem signed_object (id : Word) (bs : List Byte) : (signed id bs).securityObj id = some bs := by
  have e : Memory.readBytes (cells 0 bs) 0 bs.length = bs := by
    apply List.ext_getElem
    · simp [Memory.readBytes]
    · intro n h1 h2
      simp [Memory.readBytes, cells_read bs 0 n (Nat.zero_le n), h2]
  simp [State.securityObj, State.deviceObj, signed, e]

/-- A key blob for a slot, signed under key 0. -/
def blobFor (slot : Byte) (sig : Nat) : List Byte :=
  [0x42, 0x4C, 0x42, 0x4B, slot] ++ List.replicate 167 0 ++ testSignature sig

/-- Key blobs for slots 3 and 15, and a request to revoke key 4. -/
def blobThree : List Byte := blobFor 3
  0x94efd7d56c2d03497a9b464cdf4f94c31ca469c422b27e4d8c0a3feda8508d6d1ac3304acadab1b96bf0555e21c0bcdd
def blobFifteen : List Byte := blobFor 15
  0xea48dd80a817df0a312e5b184db98a46a07f47343ca735dfaa6171d3c24e449da45c8b6db4529f16faf22bb927d6abf4
def revokeFour : List Byte := [0x52, 0x4B, 0x56, 0x52, 4, 0, 0, 0, 0, 0, 0, 0] ++ testSignature
  0x73c6c93880008ca4d893562596c23c37df8f34777eb43201b310162755bf3c940a55f108095d61beddfaaba95b83877a

/-- The image passes where OTP holds the hash of its key 0. -/
theorem firmware_verifies (h : Config.otpKeyHash 0 = some (sha384 testKey)) (x : Sec) (hx : x.rollback = 0) :
    (x.verify firmwareBytes).isSome = true := by
  have h1 : (firmwareBytes.length < 4 * (firmwareHeader + 25) ∨ imageWord firmwareBytes 0 ≠ 0x4E465754 ∨
      fld (imageWord firmwareBytes 1) 11 8 ≠ 2 ∨ fld (imageWord firmwareBytes 1) 31 12 ≠ 0 ∨
      64 < fld (imageWord firmwareBytes 1) 7 0) = False := by decide +kernel
  have h2 : componentOk firmwareBytes 0 = true := by decide +kernel
  have h3 : componentOk firmwareBytes 1 = true := by decide +kernel
  have h4 : imageKey firmwareBytes 0 = testKey := by decide +kernel
  have h5 : keyUsable testKey 0 = true := by simp [keyUsable, h]
  have h6 : (((List.range 25).map fun k => imageWord firmwareBytes (firmwareHeader + k)).headD 0 ≠ 0 ∨
      !ecdsaVerify testKey (sha384 (firmwareBytes.take (4 * firmwareHeader))) (wordsBytes
        (((List.range 25).map fun k => imageWord firmwareBytes (firmwareHeader + k)).drop 1))) = False := by
    decide +kernel
  simp only [Sec.verify, h1, h2, h3, h4, h5, h6, hx]
  simp

theorem wit_proof_judges_messages_and_releases_1 : ∃ (s : State) (job : Word) (slot index set : Nat) (tag : BitVec 16)
    (digest : Word), s.prf.nextMessage = some (.residue job slot index set tag digest) ∧
    (∀ rec, s.ruleSet set = some rec → ∀ r ∈ rec.rules, r.type = 7 → r.tag = tag → fLt r.e2 (fAbs digest) = false) :=
  ⟨judging { mailbox := [.residue 1 0 0 0 0 0x3F800000] }, 1, 0, 0, 0, 0, 0x3F800000, by decide, fun r h =>
     (Option.some.inj h) ▸ (by decide)⟩

theorem wit_proof_judges_messages_and_releases_2 : ∃ (s : State) (job : Word) (slot index set : Nat) (tag : BitVec 16)
    (digest : Word) (rec : RuleSetRec) (r : RuleWords) (j : Job), s.prf.nextMessage = some
    (.residue job slot index set tag digest) ∧ s.ruleSet set = some rec ∧ r ∈ rec.rules ∧ r.type = 7 ∧ r.tag = tag ∧
    fLt r.e2 (fAbs digest) = true ∧ set < s.prf.sets.length ∧ s.job? job = some j ∧ j.disagrees ≠ 0 :=
  ⟨judging { mailbox := [.residue 1 0 0 0 0 0x40000000] }, 1, 0, 0, 0, 0, 0x40000000,
     { rules := [{ e0 := 7, e2 := 0x3F800000 }] }, { e0 := 7, e2 := 0x3F800000 },
     { id := 1, state := .running, disagrees := 1 }, by decide⟩

theorem wit_proof_judges_messages_and_releases_3 : ∃ (s : State) (job diff : Word) (tanh : Bool) (x : Rat),
    s.prf.nextMessage = some (.gateSample job tanh diff) ∧ f32Rat (fAbs diff) = some x ∧ gateBound tanh < x :=
  ⟨judging { mailbox := [.gateSample 1 true 0x3F800000] }, 1, 0x3F800000, true, 1, by decide +kernel⟩

theorem wit_proof_judges_messages_and_releases_4 : ∃ (s : State) (job diff : Word) (tanh : Bool) (x : Rat) (n : Nat),
    s.prf.nextMessage = some (.gateSample job tanh diff) ∧ f32Rat (fAbs diff) = some x ∧ x ≤ gateBound tanh ∧
    s.prf.gateTable = some n :=
  ⟨judging { mailbox := [.gateSample 1 false 0], gateTable := some 7 }, 1, 0, false, 0, 7, by decide +kernel⟩

theorem wit_proof_judges_messages_and_releases_5 : ∃ (s : State) (n : Fin 64) (b : ConflictBox), s.prf.boxes[n.val]? =
    some (some b) ∧ b.expires ≤ s.edge :=
  ⟨judging { boxes := List.replicate 64 (some {}) }, 63, {}, by decide⟩

theorem wit_proof_judges_messages_and_releases_6 : ∃ (s : State) (e : Nat), s.prf.sensorFault = some e ∧ e + 10 *
    edgesSec ≤ s.edge :=
  ⟨{ judging { sensorFault := some 0 } with edge := 10 * edgesSec }, 0, by decide⟩

theorem wit_proof_judges_messages_and_releases_7 : ∃ (s : State), s.glb.stage ≠ .outlineRecovery ∧ s.prf.state =
    .stopped ∧ (∀ r ∈ s.prf.sets, r.stops = false) ∧ s.prf.safeCause = 0 ∧ (∀ r ∈ s.otl.running.ruleSets, s.supervised
    r.part = true → r.m ≤ (s.prf.sets.getD r.set {}).goodSinceStop) :=
  ⟨judging { sets := List.replicate 16 { goodSinceStop := 10 } }, by decide⟩

theorem wit_proof_judges_messages_and_releases_8 : ∃ (s : State) (v : Word), (s.prf.state ≠ .stopped ∨ v ≠
    s.prf.stopSeq ∨ (∃ r ∈ s.prf.sets, r.stops = true) ∨ s.glb.stage = .outlineRecovery) :=
  ⟨judging {}, 0, .inr (.inl (by decide))⟩



theorem wit_monitors_and_voltage_steps_act_3 : ∃ (s : State) (ctrl aon : BitVec 16), s.prf.clkBad = true ∧
    (ctrl.toNat < 7209 ∨ 9175 < ctrl.toNat ∨ aon.toNat < 1803 ∨ 2293 < aon.toNat) :=
  ⟨judging { clkBad := true }, 0, 0, by decide⟩

theorem wit_monitors_and_voltage_steps_act_4 : ∃ (s : State) (ctrl aon : BitVec 16), 7209 ≤ ctrl.toNat ∧ ctrl.toNat ≤
    9175 ∧ 1803 ≤ aon.toNat ∧ aon.toNat ≤ 2293 :=
  ⟨State.reset, 9175, 1803, by decide⟩

theorem wit_monitors_and_voltage_steps_act_5 : ∃ (s : State) (rail : Rail) (mv lo hi : Nat), tripLimits rail = some
    (lo, hi) ∧ mv ≤ railLimit rail ∧ (mv < lo ∨ hi < mv) :=
  ⟨State.reset, .core, 640001, 440000, 640000, by decide⟩

theorem wit_monitors_and_voltage_steps_act_6 : ∃ (s : State) (rail : Rail) (mv lo hi : Nat), tripLimits rail = some
    (lo, hi) ∧ lo ≤ mv ∧ mv ≤ hi :=
  ⟨State.reset, .core, 640000, 440000, 640000, by decide⟩

theorem wit_monitors_and_voltage_steps_act_8 : ∃ (s : State), s.proofRuns = true ∧ s.prf.state ≠ .safeState ∧
    s.prf.wdoEdge + 490 * edgesUs ≤ s.edge :=
  ⟨{ judging { state := .run } with edge := 490 * edgesUs }, by decide⟩

theorem wit_monitors_and_voltage_steps_act_9 : ∃ (s : State) (e : Nat), s.prf.wdiEdge = some e :=
  ⟨judging { wdiEdge := some 5 }, 5, by decide⟩

theorem wit_monitors_and_voltage_steps_act_10 : ∃ (s : State) (target : Nat), s.proofRuns = true ∧ s.glb.pmbusRetry =
    none ∧ s.avsAllowed target = true ∧ (∀ e, s.glb.avsEdge = some e → e + edgesMs ≤ s.edge) :=
  ⟨judging {}, 510, by decide⟩

theorem wit_monitors_and_voltage_steps_act_11 : ∃ (s : State) (ack : Bool) (r : Nat × Nat), s.glb.pmbusRetry = some r
    ∧ r.2 + 100 * edgesMs ≤ s.edge :=
  ⟨{ State.reset with glb := { pmbusRetry := some (510, 0) }, edge := 100 * edgesMs }, true, (510, 0), by decide⟩

theorem wit_monitors_and_voltage_steps_act_12 : ∃ (s t : State) (target : Nat) (ack : Bool), exec
    (.avsStep target ack) s = .next t :=
  ⟨State.reset, _, 510, true, rfl⟩

theorem wit_slices_pass_fail_and_cover_1 : ∃ (s : State) (u : Fin 8) (k : Nat) (x : SelftestEntry) (n at_ : Nat),
    (s.slice u).running = true ∧ (s.slice u).endEdge ≤ s.edge ∧ s.sliceEntry u = some x ∧ n = max 1 x.slices ∧
    (s.slice u).next.lookup (s.slice u).entry = some at_ ∧ u.val < s.prf.slices.length :=
  ⟨slicing { running := true, next := [(0, 0)] }, 2, 0, { unit := 2 }, 1, 0, by decide⟩

theorem wit_slices_pass_fail_and_cover_2 : ∃ (s : State) (k : Nat), (s.slice 5).running = true ∧ (s.slice 5).endEdge ≤
    s.edge :=
  ⟨slicing { running := true }, 0, by decide⟩

theorem wit_slices_pass_fail_and_cover_3 : ∃ (s : State) (k : Nat), (s.slice 7).running = true ∧ (s.slice 7).endEdge ≤
    s.edge :=
  ⟨slicing { running := true }, 0, by decide⟩

theorem wit_slices_pass_fail_and_cover_5 : ∃ (s : State) (u : Nat), s.glb.stage = .ready ∧ s.uncovered u = true ∧ u <
    8 ∧ u < s.prf.slices.length :=
  ⟨{ slicing {} with edge := 100 * edgesMs }, 2, by decide⟩

theorem wit_rotation_hands_slots_over_1 : ∃ (s : State) (e : BitVec 12) (r : RegEntry) (sp : Fin 9) (o : Nat),
    s.Launches 9 e.toNat r ∧ r.action = 1 ∧ s.glb.readyEdge + 1600000 ≤ s.edge ∧ (s.cluster r.unit).spare = some sp ∧
    (s.cluster r.unit).suspended = false ∧ (s.cluster r.unit).testing = false ∧ s.nextSpare r.unit = some o ∧
    (s.core o).quiet = true :=
  ⟨rotating { spare := some 8 } {}, 0, rotateEntry, 8, 27, ⟨by decide, by decide, by decide, by decide, by decide,
     by decide, by decide⟩, by decide⟩

theorem wit_rotation_hands_slots_over_2 : ∃ (s : State) (e : BitVec 12) (r : RegEntry) (sp : Fin 9) (o : Nat),
    s.Launches 9 e.toNat r ∧ r.action = 1 ∧ s.glb.readyEdge + 1600000 ≤ s.edge ∧ (s.cluster r.unit).spare = some sp ∧
    (s.cluster r.unit).suspended = false ∧ s.nextSpare r.unit = some o ∧ (s.core o).quiet = false :=
  ⟨rotating { spare := some 8 } { job := some 1 }, 0, rotateEntry, 8, 27, ⟨by decide, by decide, by decide, by decide,
     by decide, by decide, by decide⟩, by decide⟩

theorem wit_rotation_hands_slots_over_3 : ∃ (s : State) (cl : Fin 4) (sp : Fin 9) (o : Nat), (s.cluster cl).handover =
    true ∧ (s.cluster cl).testing = false ∧ (s.cluster cl).spare = some sp ∧ (s.cluster cl).suspended = false ∧
    s.nextSpare cl = some o ∧ (s.core o).quiet = true :=
  ⟨rotating { spare := some 8, handover := true } {}, 3, 8, 27, by decide⟩

theorem wit_rotation_hands_slots_over_4 : ∃ (s : State) (cl : Fin 4) (sp : Fin 9), (s.cluster cl).spare = some sp ∧
    (s.cluster cl).testing = true ∧ (s.cluster cl).testStart + 960000 ≤ s.edge :=
  ⟨rotating { spare := some 8, testing := true } {}, 3, 8, by decide⟩

theorem wit_rotation_hands_slots_over_5 : ∃ (s : State) (cl : Fin 4) (sp : Fin 9), (s.cluster cl).spare = some sp ∧
    (s.cluster cl).testing = true ∧ (s.cluster cl).testStart + 960000 ≤ s.edge :=
  ⟨rotating { spare := some 8, testing := true } {}, 3, 8, by decide⟩

theorem wit_failed_units_are_repaired_or_retired_1 : ∃ (s : State) (n : Fin 36) (a : Fin 4) (row : BitVec 7) (m :
    RepairMap), (s.core n).diagnosing = true ∧ (s.core n).retiring = false ∧ (s.core n).repair[a.val]? = some m ∧
    m.rowA = 0x7F ∧ row.toNat ≤ 65 :=
  ⟨allCores { diagnosing := true }, 35, 3, 5, {}, by decide⟩

theorem wit_failed_units_are_repaired_or_retired_2 : ∃ (s : State) (n : Fin 36), (s.core n).diagnosing = true ∧
    (s.core n).retiring = false ∧ (((s.core n).transients.filter fun e => decide (s.edge < e + edgesDay)).length < 2)
    :=
  ⟨allCores { diagnosing := true }, 35, by decide⟩

theorem wit_failed_units_are_repaired_or_retired_3 : ∃ (s : State) (n : Fin 36) (d : DiagResult),
    (s.core n).diagnosing = true ∧ (s.core n).retiring = false ∧
    (d = .notLocalised ∨ d = .outsideArrays ∨ d = .noFault ∧ 2 ≤ ((s.core n).transients.filter fun e => decide (s.edge < e + edgesDay)).length)
    :=
  ⟨allCores { diagnosing := true }, 35, .notLocalised, by decide⟩

theorem wit_failed_units_are_repaired_or_retired_4 : ∃ (s : State) (n : Fin 36), (s.core n).retiring = true ∧
    (s.core n).quiet = true :=
  ⟨allCores { retiring := true }, 35, by decide⟩

theorem wit_failed_units_are_repaired_or_retired_5 : ∃ (s : State), s.jobs.marginRetired = false ∧ s.jobs.marginRun =
    none ∧ s.jobs.marginQueue = [] :=
  ⟨State.reset, by decide⟩

theorem wit_failed_units_are_repaired_or_retired_6 : ∃ (s : State), s.trc.leaving = true ∧ s.trc.retired = false ∧
    s.trc.holder = 0 ∧ s.trc.queue = [] :=
  ⟨{ State.reset with trc := { leaving := true } }, by decide⟩

theorem wit_failed_units_are_repaired_or_retired_7 : ∃ (s : State), s.xh.leaving = true ∧ s.xh.retired = false ∧
    s.xh.run = none ∧ s.xh.queue = [] ∧ s.xh.publish = none ∧ s.xh.publishQueue = [] :=
  ⟨{ State.reset with xh := { leaving := true } }, by decide⟩

theorem wit_failed_units_are_repaired_or_retired_8 : ∃ (s : State) (k : Fin 4) (banks : List Nat), (s.plate k).powered
    = true :=
  ⟨plates { powered := true }, 3, [167], by decide⟩

theorem wit_failed_units_are_repaired_or_retired_9 : ∃ (s : State) (k : Fin 4) (b : Nat), (s.plate k).powered = true ∧
    b < 168 ∧ b ∉ (s.plate k).retired :=
  ⟨plates { powered := true }, 3, 167, by decide⟩

theorem wit_failed_units_are_repaired_or_retired_10 : ∃ (s : State) (k : Fin 4) (b : Nat), (s.plate k).powered = true
    ∧ b < 168 ∧ b ∉ (s.plate k).retired ∧
    (16 ≤ ((s.plate k).corr.filter fun e => e.1 = b && decide (s.edge < e.2 + 160000000)).length) :=
  ⟨plates { powered := true, corr := List.replicate 16 (167, 0) }, 3, 167, by decide⟩

theorem wit_failed_units_are_repaired_or_retired_11 : ∃ (s : State) (n : Fin 5) (spare : Nat), n.val ∈
    s.brn.ctrlActive ∧
    ((firstIdx 5 fun k => !(s.brn.ctrlActive.filter (· != n.val)).contains k && !(s.brn.ctrlRetired ++ [n.val]).contains k) = some spare)
    :=
  ⟨{ State.reset with brn := { ctrlActive := [0, 1, 2, 3] } }, 3, 4, by decide⟩

theorem wit_the_log_and_the_counters_hold_1 : ∃ (s : State) (r : ErrorRecord) (l : List ErrorRecord), s.brn.inbox = r
    :: l ∧ s.brn.log.length < 1024 :=
  ⟨{ State.reset with brn := { inbox := [{}] } }, {}, [], by decide⟩

theorem wit_the_log_and_the_counters_hold_2 : ∃ (s : State) (r : ErrorRecord) (l : List ErrorRecord), s.brn.inbox = r
    :: l ∧ 1024 ≤ s.brn.log.length :=
  ⟨{ State.reset with brn := { inbox := [{}], log := List.replicate 1024 {} } }, {}, [], rfl,
     (List.length_replicate ..).ge⟩

theorem wit_the_log_and_the_counters_hold_3 : ∃ (s : State) (v : Word), bit v 0 = true :=
  ⟨State.reset, 1, by decide⟩

theorem wit_the_log_and_the_counters_hold_4 : ∃ (s : State) (b : Block) (v : Word) (c : Counter), bit v 0 = true ∧ b ≠
    .prf :=
  ⟨State.reset, .tb, 1, .tbOutlier, by decide⟩

theorem wit_security_commands_act_1 (h : Config.otpKeyHash 0 = some (sha384 testKey)) :
    ∃ (s : State) (v : Word) (img : List Byte), bit v 0 = true ∧ s.sec.bootWrite = none ∧ s.securityObj 0xFB000220 =
      some img ∧ (s.sec.verify img).isSome = true :=
  ⟨signed 0xFB000220 firmwareBytes, 1, firmwareBytes, by decide, by decide, signed_object _ _, firmware_verifies h _ rfl⟩

theorem wit_security_commands_act_2 : ∃ (s : State) (v : Word), bit v 1 = true ∧ s.sec.bootWrite = none ∧
    s.otl.running.header.boot = true :=
  ⟨ready { header := { boot := true } }, 2, by decide⟩

theorem wit_security_commands_act_3 : ∃ (s : State) (v : Word), bit v 1 = true ∧ s.sec.bootWrite = none ∧
    s.otl.running.header.boot = false :=
  ⟨ready {}, 2, by decide⟩

theorem wit_security_commands_act_4 : ∃ (s : State) (good : Bool), s.sec.bootWrite = some true :=
  ⟨{ State.reset with sec := { bootWrite := some true } }, true, by decide⟩

theorem wit_security_commands_act_5 : ∃ (s : State), s.sec.bootWrite = some false :=
  ⟨{ State.reset with sec := { bootWrite := some false } }, by decide⟩

theorem wit_security_commands_act_6 : ∃ (s : State) (v : Word), bit v 0 = true :=
  ⟨State.reset, 1, by decide⟩

theorem wit_security_commands_act_7 (hu : ∀ b, Config.unwrapKey b = some 0) :
    ∃ (s : State) (v : Word) (k : KeySlot), s.keyBlob (fld v 3 0) = some k :=
  ⟨signed 0xFB000200 blobThree, 3, { valid := true },
     (by simp only [State.keyBlob, hu, signed_object]; decide +kernel)⟩

theorem wit_security_commands_act_8 : ∃ (s : State) (v : Word), s.keyBlob (fld v 3 0) = none :=
  ⟨State.reset, 3, by decide⟩

theorem wit_security_commands_act_9 : ∃ (s : State) (v : Word) (n : Nat), bit v 0 = true ∧ s.revocation = some n :=
  ⟨signed 0xFB000210 revokeFour, 1, 4, by decide, (by simp only [State.revocation, signed_object]; decide +kernel)⟩

theorem wit_security_commands_act_10 : ∃ (s : State) (v : Word), bit v 0 = true ∧ s.revocation = none :=
  ⟨State.reset, 1, by decide⟩

theorem wit_security_commands_act_11 : ∃ (s : State) (v : Word) (x : LockState), s.sec.lockWrite = none ∧ lockTarget
    s.sec.lockOtp (fld v 1 0) = some x :=
  ⟨State.reset, 1, .customer, by decide⟩

theorem wit_security_commands_act_12 : ∃ (s : State) (v : Word) (w : BitVec 2) (e : Nat) (x : LockState),
    s.sec.lockWrite = some (w, e) ∧ s.edge ≤ e + 160000000 ∧ fld v 1 0 = 3 - w.toNat ∧ lockTarget s.sec.lockOtp
    w.toNat = some x :=
  ⟨{ State.reset with sec := { lockWrite := some (1, 0) }, edge := 160000000 }, 2, 1, 0, .customer, by decide⟩

theorem wit_slot_fifteen_is_installed_once_1 (hu : ∀ b, Config.unwrapKey b = some 0) :
    ∃ (s : State) (v : Word) (k : KeySlot), fld v 3 0 = 15 ∧ s.keyBlob 15 = some k ∧ s.sec.slots.length = 16 :=
  ⟨signed 0xFB000200 blobFifteen, 15, { valid := true }, by decide,
     (by simp only [State.keyBlob, hu, signed_object]; decide +kernel), by decide⟩

theorem wit_slot_fifteen_is_installed_once_2 : ∃ (s : State) (v : Word), fld v 3 0 = 15 ∧
    (s.sec.slots.getD 15 {}).valid = true :=
  ⟨{ State.reset with sec := { slots := List.replicate 16 { valid := true } } }, 15, by decide⟩

theorem wit_slot_fifteen_is_installed_once_3 : ∃ (s : State) (r : ResetKind) (b : BootStage), s.sec.slots.length = 16
    :=
  ⟨State.reset, .coldPower, .plls, by decide⟩

theorem wit_slot_fifteen_is_installed_once_4 : ∃ (c : Instr) (s t : State), s.sec.slots.length = 16 ∧
    (s.sec.slots.getD 15 {}).valid = true ∧ exec c s = .next t :=
  ⟨.tbStepAccept 0, { State.reset with sec := { slots := List.replicate 16 { valid := true } } },
     { State.reset with sec := { slots := List.replicate 16 { valid := true } } }, by decide, by decide, rfl⟩

theorem wit_resets_are_taken_and_partitions_reset_3 : ∃ (s : State) (ns : Nat), s.glb.stage ≠ .unpowered ∧ s.glb.stage
    ≠ .held ∧ 1000 ≤ ns :=
  ⟨State.reset, 1000, by decide⟩

theorem wit_resets_are_taken_and_partitions_reset_4 : ∃ (s : State) (ns : Nat), s.glb.stage ≠ .unpowered ∧ s.glb.stage
    ≠ .held ∧ 100 ≤ ns ∧ ns < 1000 :=
  ⟨State.reset, 999, by decide⟩

theorem wit_resets_are_taken_and_partitions_reset_5 : ∃ (s : State) (ns : Nat), ns < 100 :=
  ⟨State.reset, 99, by decide⟩

theorem wit_resets_are_taken_and_partitions_reset_6 : ∃ (s : State), s.glb.stage = .held :=
  ⟨atStage .held, by decide⟩

theorem wit_resets_are_taken_and_partitions_reset_7 : ∃ (s : State) (rail : Rail), s.glb.stage = .held ∧ coldRail rail
    = true :=
  ⟨atStage .held, .core, by decide⟩

theorem wit_resets_are_taken_and_partitions_reset_8 : ∃ (s : State) (rail : Rail),
    (s.glb.stage ≠ .held ∨ coldRail rail = false) :=
  ⟨State.reset, .core, by decide⟩

theorem wit_resets_are_taken_and_partitions_reset_9 : ∃ (s : State), s.glb.resetDue = none :=
  ⟨State.reset, by decide⟩

theorem wit_resets_are_taken_and_partitions_reset_11 : ∃ (s : State) (v : Word) (p : Nat), p < 8 ∧ v.getLsbD p = true
    ∧ (s.partRec p).isSome = true :=
  ⟨ready { partitions := [{ part := 7 }] }, 0x80, 7, by decide⟩

theorem wit_resets_are_taken_and_partitions_reset_12 : ∃ (s : State) (v : Word),
    (∀ p, p < 8 → v.getLsbD p = true → s.partRec p = none) :=
  ⟨ready { partitions := [{ part := 7 }] }, 0x7F, by decide⟩

theorem wit_resets_keep_what_their_kind_keeps_1 : ∃ (s : State) (k : ResetKind) (b : BootStage) (t : State), t =
    s.restart k b :=
  ⟨State.reset, .warmPin, .held, _, rfl⟩

theorem wit_resets_keep_what_their_kind_keeps_2 : ∃ (s : State) (k : ResetKind) (b : BootStage) (n : Nat),
    (k = .coldPower ∨ k = .coldRegister) ∧ 1 ≤ n ∧ n ≤ 14 :=
  ⟨State.reset, .coldPower, .plls, 1, by decide⟩



theorem wit_resets_keep_what_their_kind_keeps_3 : ∃ (s : State) (k : ResetKind) (b : BootStage),
    (k = .warmPin ∨ k = .warmRegister) :=
  ⟨State.reset, .warmRegister, .plls, by decide⟩

theorem wit_bring_up_runs_in_order_1 : ∃ (s : State) (standby : Bool), s.glb.stage = .plls :=
  ⟨atStage .plls, true, by decide⟩

theorem wit_bring_up_runs_in_order_2 : ∃ (s : State), s.glb.stage = .plls ∧ s.glb.pllSpare = true :=
  ⟨atStage .plls, by decide⟩

theorem wit_bring_up_runs_in_order_3 : ∃ (s : State), s.glb.stage = .fuses :=
  ⟨atStage .fuses, by decide⟩

theorem wit_bring_up_runs_in_order_4 : ∃ (s : State) (cores : List (Fin 36)) (ctrl : List (Fin 5)), s.glb.stage =
    .mbist ∧ (∃ k, k < 5 ∧ k ∉ s.brn.ctrlRetired ∧ ∀ x ∈ ctrl, x.val ≠ k) :=
  ⟨atStage .mbist, [], [0, 1, 2, 3], by decide, ⟨4, by decide⟩⟩

theorem wit_bring_up_runs_in_order_5 : ∃ (s : State) (failed : List Channel), s.glb.stage = .training :=
  ⟨atStage .training, [], by decide⟩

theorem wit_bring_up_runs_in_order_6 (h : Config.otpKeyHash 0 = some (sha384 testKey)) :
    ∃ (s : State) (v : Nat) (keys : List (Option (List Byte))), s.glb.stage = .firmware ∧ s.sec.verify s.sec.firmware =
      some (v, keys) := by
  have h := firmware_verifies h { firmware := firmwareBytes } rfl
  generalize firmwareBytes = img at h
  obtain ⟨r, hr⟩ := Option.isSome_iff_exists.mp h
  exact ⟨{ atStage .firmware with sec := { firmware := img } }, r.1, r.2, rfl, hr⟩

theorem wit_bring_up_runs_in_order_7 : ∃ (s : State), s.glb.stage = .firmware ∧ s.sec.verify s.sec.firmware = none :=
  ⟨atStage .firmware, by decide, rfl⟩

theorem wit_bring_up_runs_in_order_8 (h : Config.otpKeyHash 0 = some (sha384 testKey)) :
    ∃ (s : State) (i : Fin 16) (tag : Word) (img : List Byte), s.glb.stage = .firmwareRecovery ∧ (s.session i).open_ =
      true ∧ (s.session i).part = none ∧ (s.sec.verify img).isSome = true :=
  ⟨{ opened none with glb := { stage := .firmwareRecovery } }, 15, 0, firmwareBytes, by decide, by decide, by decide,
     firmware_verifies h _ rfl⟩

theorem wit_bring_up_runs_in_order_9 : ∃ (s : State) (i : Fin 16) (tag : Word) (img : List Byte), s.glb.stage =
    .firmwareRecovery ∧ (s.session i).open_ = true ∧ (s.session i).part = none ∧ s.sec.verify img = none :=
  ⟨{ opened none with glb := { stage := .firmwareRecovery } }, 15, 0, [], by decide, by decide, by decide, rfl⟩

theorem wit_bring_up_runs_in_order_11 : ∃ (s : State), s.glb.stage = .outline ∧
    (s.sec.bootOrder.findSome? (fun k => (s.bootCheck k).map fun r => (k, r)) = none) :=
  ⟨atStage .outline, by decide⟩

theorem wit_bring_up_runs_in_order_12 : ∃ (s : State), s.glb.stage = .booted ∧
    ((s.netPort .uplink).enable = false ∨ (s.ethPort .uplink).link = true ∨ s.glb.bootEdge + 200 * edgesMs ≤ s.edge)
    :=
  ⟨atStage .booted, by decide⟩

/-! ## A whole Outline image that the validator passes -/

/-- The records of the least Outline: one partition, no core, and slices of units 2, 3, 4 and 7 once in each
hyperperiod of 62.5 ms, and the power of one Plate slice (R76, R77, R78, R465). -/
def leastBody : List Word :=
  [0x01100003, 0, 0, 0] ++ [0x02100003, 0xF, 0x00800147, 700] ++ [0x03100004, 0xF, 0, 0, 0] ++ [0x08100001, 0xF] ++
  [0x0F100014, 0x0004000F, 10000000, 0, 0, 0x80000000, 0x209, 0, 0, 0x80000010, 0x309, 0, 0, 0x80000020, 0x409, 0, 0,
    0x80000030, 0x709, 0, 0] ++ [0x10100002, 0xF, 0] ++
  [0x11100005, 0x0004000F, 0x00101002, 0x00101003, 0x00101004, 0x00101007] ++ [0x7F100000]

/-- Its image, with the header of R73, its CRC-32C, BOOT as asked, and its signature block under key 0 (R80). -/
def leastImage (boot : Word) : List Word :=
  [0x4E4C544F, 0x100, 87, 1, 1, boot, 0xe8d7acaa, 62, 0, 8, 0, 0, 0, 0, 0, 0] ++ leastBody ++
    (0 :: bytesWords 24 (testSignature (if boot = 0 then
      0x7055bc7b3371eea40a3f09525914dd75f0c17e7d014bf0746dc02ffbf1e66e5de51bdfef41af7f8822dd75af0332bc8d
    else
      0x3451afea1d53f599c53bc8f2e8280e4e63f82128c1a6f4d091d36bb4ae5c5f1b21c6cda9cccbec2b4376fe6b8ea7b162)))

/-- A network table without an entry: its magic, and its signature block under key 0 (R380). -/
def emptyTable : ObjVersion :=
  { obj := 0xFB000100, len := 131236
    data := [(0, 0x54), (1, 0x42), (2, 0x54), (3, 0x4E)] ++ cells 131140 (testSignature
      0xce39d4601f8d562c12a63e53c122b585ce304c640b1b0191ae5aafaf5b0c2604eb48f68a0e4da6ef3f3a607f46a361c8) }

/-- The image is staged and validated, with the table sealed and key 0 in the key table. -/
def validating : State :=
  { State.reset with
    otl := { state := .validating, stagedWords := 87, staging := cells 0 (wordsBytes (leastImage 0)) }
    tir := { objs := [emptyTable] }
    sec := { keys := [some testKey] } }

/-- A valid image in copy 1 of the boot store. -/
def bootable : State :=
  { State.reset with
    glb := { stage := .outline }
    sec := { keys := [some testKey], copies := [{}, { headerGood := true, words := leastImage 1 }] } }

theorem cells_below (l : List Byte) (k n : Nat) (h : n < k) : (cells k l).lookup n = none := by
  induction l generalizing k with
  | nil => rfl
  | cons b r ih =>
    have hb : (n == k) = false := by simp; omega
    have e := ih (k + 1) (by omega)
    simp only [cells] at e
    simp [cells, List.lookup, hb, e]

/-- Between its magic and its signature block the table reads 0. -/
theorem empty_table_byte {b : Nat} (h : 4 ≤ b) (hb : b < 131140) : Memory.read emptyTable.data b = 0 := by
  have h0 : (b == 0) = false := by simp; omega
  have h1 : (b == 1) = false := by simp; omega
  have h2 : (b == 2) = false := by simp; omega
  have h3 : (b == 3) = false := by simp; omega
  simp [Memory.read, emptyTable, List.lookup, h0, h1, h2, h3, cells_below _ _ _ hb]

theorem empty_table_reads_zero {a : Nat} (h : 4 ≤ a) (hb : a < 131136) : Memory.readWord emptyTable.data a = 0 := by
  have e : Memory.readBytes emptyTable.data a 4 = [0, 0, 0, 0] := by
    simp [Memory.readBytes, List.range, List.range.loop, empty_table_byte h (by omega),
      empty_table_byte (b := a + 1) (by omega) (by omega), empty_table_byte (b := a + 2) (by omega) (by omega),
      empty_table_byte (b := a + 3) (by omega) (by omega)]
  simp only [Memory.readWord, e]
  decide

/-- The network table that the object holds: no entry. -/
def emptyNet : NetTable :=
  { version := emptyTable.ver, express := List.replicate 4 0, shaped := List.replicate 4 0, idleSlope := List.replicate 8 0 }

theorem empty_table_parses : parseNet emptyTable = some emptyNet := by
  have hok : ∀ n, n < 4096 → netEntryOk emptyTable.data n = true := by
    intro n hn
    simp only [netEntryOk]
    rw [empty_table_reads_zero (by omega) (by omega), empty_table_reads_zero (by omega) (by omega),
      empty_table_reads_zero (by omega) (by omega), empty_table_reads_zero (by omega) (by omega),
      empty_table_reads_zero (by omega) (by omega), empty_table_reads_zero (by omega) (by omega),
      empty_table_reads_zero (by omega) (by omega)]
    decide
  have hall : (List.range 4096).all (netEntryOk emptyTable.data) = true := by
    rw [List.all_eq_true]
    intro n hn
    exact hok n (List.mem_range.mp hn)
  have hv : (List.range 4096).filter (fun n => bit (Memory.readWord emptyTable.data (64 + 32 * n + 4)) 31) = [] := by
    rw [List.filter_eq_nil_iff]
    intro n hn
    have := List.mem_range.mp hn
    rw [empty_table_reads_zero (by omega) (by omega)]
    decide
  have hh : (List.range 16).map (fun k => Memory.readWord emptyTable.data (4 * k)) = 0x4E544254 :: List.replicate 15 0 := by
    decide +kernel
  have h0 : Memory.readWord emptyTable.data (4 * 0) = 0x4E544254 := by decide +kernel
  simp only [parseNet, hv, hall, hh, h0, netWords]
  decide +kernel

theorem empty_table_bytes : Memory.readBytes emptyTable.data 0 (4 * 32784) = tableBytes := by
  have hl : tableBytes.length = 4 * 32784 := by rw [tableBytes, List.length_append, List.length_replicate]; rfl
  apply List.ext_getElem
  · simp [Memory.readBytes, hl]
  · intro n h1 h2
    rw [hl] at h2
    simp only [Memory.readBytes, List.getElem_map, List.getElem_range, Nat.zero_add]
    by_cases h : n < 4
    · have e : ∀ n, (h : n < 4) → Memory.read emptyTable.data n = ([0x54, 0x42, 0x54, 0x4E] : List Byte)[n]'h := by
        decide +kernel
      rw [e n h]
      exact (List.getElem_append_left h).symm
    · rw [empty_table_byte (by omega) (by omega)]
      simp only [tableBytes]
      rw [List.getElem_append_right (by simpa using h), List.getElem_replicate]

theorem table_signed : validating.sigCheck tableBytes (Memory.readWords emptyTable.data (4 * 32784) 25) = .good := by
  simp only [State.sigCheck, table_digest]
  decide +kernel

theorem validating_table (k : Nat) : validating.netFor k = if k = 0 then some emptyNet else none := by
  have hd : validating.deviceObj 0xFB000100 = some emptyTable := rfl
  have hw : netWords emptyTable.data = 32784 := by decide +kernel
  have h0 : fld ((Memory.readWords emptyTable.data (4 * 32784) 25).headD 0) 3 0 = 0 := by decide +kernel
  simp only [State.netFor, hd, hw, empty_table_bytes, empty_table_parses, table_signed, h0, and_true, eq_comm]

theorem staged_image : validating.stagedImage = leastImage 0 := by decide +kernel

theorem staged_signed : validating.sigCheck (wordsBytes ((leastImage 0).take 62)) (((leastImage 0).drop 62).take 25) =
    .good := by
  decide +kernel

/-- The records that the image holds, and their Outline. -/
def leastRecords : List RawRec := (walkRecords 88 (((leastImage 0).take 62).drop 16) 16 62).1
def leastOutline : Outline := parseOutline (leastImage 0) leastRecords

/-- An image that passes the checks before the ninth is judged by its records. -/
theorem validate_accepts (s : State) (ws : List Word) (n total sig : Nat) (ht : (ws.getD 2 0).toNat = total)
    (hg : total - 25 = sig) (h0 : ws.getD 0 0 = 0x4E4C544F)
    (h1 : ¬(fld (ws.getD 1 0) 7 0 ≠ 0 ∨ fld (ws.getD 1 0) 15 8 ≠ 1))
    (h2 : ¬(total < 42 ∨ n < total ∨ 1048576 < total)) (h7 : (ws.getD 7 0).toNat = sig) (h4 : bit (ws.getD 4 0) 0 = true)
    (h6 : crcWords ((ws.take sig).drop 16) = ws.getD 6 0)
    (hs : s.sigCheck (wordsBytes (ws.take sig)) ((ws.drop sig).take 25) = .good)
    (h3 : ¬(ws.getD 3 0 = 0 ∨ (ws.getD 3 0).toNat ≤ s.otl.epoch.toNat))
    (h5 : ¬(bit (ws.getD 5 0) 1 = true ∧ s.sec.lock ≠ .open_))
    (h8 : leastWord (check8 ws (walkRecords (total + 1) ((ws.take sig).drop 16) 16 sig)) = none) :
    s.validate ws n false = s.checkRecords
      (parseOutline ws (walkRecords (total + 1) ((ws.take sig).drop 16) 16 sig).1) false
      (walkRecords (total + 1) ((ws.take sig).drop 16) 16 sig).1 := by
  simp only [State.validate, ht, hg]
  rw [if_neg (not_not_intro h0), if_neg h1, if_neg h2, if_neg (not_not_intro h7), if_neg (by rw [h4]; simp),
    if_neg (not_not_intro h6), hs]
  simp only [h8]
  rw [if_neg (by simpa using h3), if_neg h5]

set_option maxRecDepth 100000 in
theorem least_range : leastWord (leastRecords.flatMap (RawRec.range leastRecords leastOutline.h)) = none := by
  decide +kernel

set_option maxRecDepth 100000 in
theorem least_references : leastWord (leastRecords.flatMap
    (RawRec.references validating leastOutline (some emptyNet) false)) = none := by decide +kernel

set_option maxRecDepth 100000 in
theorem least_resources : leastWord (resourceFaults validating leastOutline leastRecords) = none := by decide +kernel

set_option maxRecDepth 100000 in
theorem least_schedule : leastWord (scheduleFaults validating.liveEngines leastOutline leastRecords) = none := by
  decide +kernel

set_option maxRecDepth 100000 in
theorem least_coverage : leastWord (coverageFaults validating leastOutline leastRecords) = none := by decide +kernel

theorem least_peak : ¬(leastOutline.powerCap * 100000 < leastOutline.peak ∨ 70000000 < leastOutline.peak) := by
  decide +kernel

theorem least_key : leastOutline.header.keyIndex = 0 := by decide +kernel

theorem records_accept (s : State) (o : Outline) (net : Option NetTable) (rs : List RawRec)
    (hn : s.netFor o.header.keyIndex = net) (h1 : leastWord (rs.flatMap (RawRec.range rs o.h)) = none)
    (h2 : leastWord (rs.flatMap (RawRec.references s o net false)) = none)
    (h3 : leastWord (resourceFaults s o rs) = none) (h4 : leastWord (scheduleFaults s.liveEngines o rs) = none)
    (h5 : leastWord (coverageFaults s o rs) = none) (h6 : ¬(o.powerCap * 100000 < o.peak ∨ 70000000 < o.peak)) :
    s.checkRecords o false rs = .pass o net := by
  subst hn
  simp only [State.checkRecords, h1, h2, h3, h4, h5]
  rw [if_neg h6]

theorem least_net : validating.netFor leastOutline.header.keyIndex = some emptyNet := by
  rw [least_key, validating_table]
  decide

theorem least_checks : validating.checkRecords leastOutline false leastRecords = .pass leastOutline (some emptyNet) :=
  records_accept validating leastOutline (some emptyNet) leastRecords least_net least_range least_references least_resources
    least_schedule least_coverage least_peak

set_option maxRecDepth 100000 in
/-- The CRC-32C of the image is the one in its header. -/
theorem least_crc : crcWords (((leastImage 0).take 62).drop 16) = (leastImage 0).getD 6 0 := by decide +kernel

set_option maxRecDepth 100000 in
theorem least_form : leastWord (check8 (leastImage 0)
    (walkRecords (87 + 1) (((leastImage 0).take 62).drop 16) 16 62)) = none := by
  decide +kernel

theorem least_image_passes : validating.validate validating.stagedImage 87 false = .pass leastOutline (some emptyNet) := by
  rw [staged_image]
  exact (validate_accepts validating (leastImage 0) 87 87 62 (by decide +kernel) rfl (by decide +kernel) (by decide +kernel)
    (by decide) (by decide +kernel) (by decide +kernel) least_crc staged_signed
    (by decide +kernel) (by decide +kernel) least_form).trans least_checks

theorem wit_outlines_are_staged_validated_armed_and_cancelled_6 : ∃ (s : State) (o : Outline) (net : Option NetTable),
    s.otl.state = .validating ∧ s.validate s.stagedImage s.otl.stagedWords false = .pass o net :=
  ⟨validating, leastOutline, some emptyNet, rfl, least_image_passes⟩

theorem boot_signed : bootable.sigCheck
    (wordsBytes ((bootable.sec.copies.getD 1 {}).words.take (((bootable.sec.copies.getD 1 {}).words.getD 2 0).toNat - 25)))
    (((bootable.sec.copies.getD 1 {}).words.drop (((bootable.sec.copies.getD 1 {}).words.getD 2 0).toNat - 25)).take 25) =
      .good := by
  decide +kernel

theorem boot_has_no_table (k : Nat) : bootable.netFor k = none := rfl

set_option maxRecDepth 100000 in
theorem boot_image_passes : (bootable.bootCheck 1).isSome = true := by
  simp only [State.bootCheck, State.validate, boot_signed, State.checkRecords, boot_has_no_table]
  decide +kernel

theorem wit_bring_up_runs_in_order_10 : ∃ (s : State) (k : Nat) (o : Outline) (net : Option NetTable) (ws : List
    Word), s.glb.stage = .outline ∧ (s.sec.bootOrder.findSome? (fun k => (s.bootCheck k).map fun r => (k, r)) = some
    (k, o, net, ws)) := by
  obtain ⟨r, hr⟩ := Option.isSome_iff_exists.mp boot_image_passes
  refine ⟨bootable, 1, r.1, r.2.1, r.2.2, rfl, ?_⟩
  have h : bootable.sec.bootOrder = [1] := by decide
  rw [h]
  simp [hr]

/-! ## The conditions of the completion statement

Most of its clauses have the conditions of a clause of another statement, whose witness then serves. -/

theorem wit_firings_images_queries_and_repairs_complete_1 : ∃ (s : State) (e : BitVec 12) (r : RegEntry), s.Launches 4 e.toNat r :=
  have ⟨s, e, r, h, _⟩ := wit_engine_firings_start_their_work_2; ⟨s, e, r, h⟩

theorem wit_firings_images_queries_and_repairs_complete_2 : ∃ (s : State) (e : BitVec 12) (r : RegEntry) (rec : RuleSetRec), s.Launches 5 e.toNat r ∧ (s.prf.sets.getD
    r.arg.toNat {}).busyUntil ≤ s.edge ∧ s.ruleSet r.arg.toNat = some rec ∧ r.arg.toNat < s.prf.sets.length :=
  wit_engine_firings_start_their_work_3

theorem wit_firings_images_queries_and_repairs_complete_3 : ∃ (s : State) (e : BitVec 12) (r : RegEntry), s.Launches 6 e.toNat r :=
  wit_engine_firings_start_their_work_4

theorem wit_firings_images_queries_and_repairs_complete_4 : ∃ (s : State) (e : BitVec 12) (r : RegEntry) (p : PlaceEntry) (o : ObjVersion), s.Launches 7 e.toNat r ∧
    (s.rgn.tierWait.any fun x => x.1 = e.toNat) = false ∧ s.edge % 5 = 0 ∧ s.otl.running.places[r.arg.toNat]? =
    some p ∧ (s.tir.tierRefs.all fun x => x.entry != some e.toNat) = true ∧ s.newestOf p.part p.obj = some o ∧
    o.full = true ∧ (s.tir.objs.filter (isVer o.part o.obj o.ver)) = [o] :=
  wit_engine_firings_start_their_work_5

theorem wit_firings_images_queries_and_repairs_complete_5 : ∃ (s : State) (e : BitVec 12) (r : RegEntry) (p : PlaceEntry), s.Launches 7 e.toNat r ∧ (s.rgn.tierWait.any
    fun x => x.1 = e.toNat) = false ∧ s.edge % 5 ≠ 0 ∧ s.otl.running.places[r.arg.toNat]? = some p :=
  wit_engine_firings_start_their_work_6

theorem wit_firings_images_queries_and_repairs_complete_6 : ∃ (s : State) (e : BitVec 12) (r : RegEntry) (x : SelftestEntry), s.Launches 9 e.toNat r ∧ r.action = 0 ∧
    s.sliceEntry r.unit = some x ∧ r.unit ≠ 6 ∧ (s.slice r.unit).running = false ∧ (s.nextSafety (tickOf s.now +
    1)).all (fun n => decide (tickOf s.now + x.sliceTicks ≤ n)) = true :=
  wit_engine_firings_start_their_work_8

theorem wit_firings_images_queries_and_repairs_complete_7 : ∃ (s : State) (x : Int × Nat) (rest : List (Int × Nat)) (r : RegEntry), s.rgn.carried = x :: rest ∧
    s.placeFree = true ∧ s.regEntry x.2 = some r ∧ r.target = 8 ∧ s.resetting r.part = false :=
  wit_firings_that_do_not_launch_now_follow_their_policy_8

theorem wit_firings_images_queries_and_repairs_complete_8 : ∃ (s : State) (e : BitVec 12) (r : RegEntry) (m : TemplateRec), s.regEntry e.toNat = some r ∧ r.target = 1 ∧
    s.placeFree = true ∧ e.toNat ∈ s.rgn.deferred ∧ s.rgn.carried = [] ∧ s.entryJob e.toNat = false ∧
    s.resetting r.part = false ∧ s.otl.running.templates[r.arg.toNat]? = some m :=
  wit_firings_that_do_not_launch_now_follow_their_policy_10

theorem wit_firings_images_queries_and_repairs_complete_9 : ∃ (s : State) (v : Word) (r : RegEntry), s.regEntry (fld v 11 0) = some r ∧ r.valid = true ∧
    s.entryProtected r = false :=
  wit_firings_that_do_not_launch_now_follow_their_policy_11

theorem wit_firings_images_queries_and_repairs_complete_10 : ∃ (s : State) (v : Word), bit v 0 = true ∧ (s.otl.state = .idle ∨ s.otl.state = .staging ∨ s.otl.state =
    .valid ∨ s.otl.state = .rejected) :=
  wit_outlines_are_staged_validated_armed_and_cancelled_1

theorem wit_firings_images_queries_and_repairs_complete_11 : ∃ (s : State) (v : Word), bit v 0 = true ∧ s.otl.state = .staging :=
  wit_outlines_are_staged_validated_armed_and_cancelled_4

theorem wit_firings_images_queries_and_repairs_complete_12 : ∃ s : State, s.otl.state = .validating :=
  have ⟨s, _, _, h, _⟩ := wit_outlines_are_staged_validated_armed_and_cancelled_5; ⟨s, h⟩

theorem wit_firings_images_queries_and_repairs_complete_13 : ∃ (s : State) (v : Word) (o : Outline), bit v 0 = true ∧ s.otl.state = .valid ∧ s.otl.staged = some o ∧
    compactOk s.regs.commitTime = true ∧ wholeH (compactNear s.regs.commitTime s.now) o.h = true ∧ wholeH
    (compactNear s.regs.commitTime s.now) s.otl.running.h = true ∧ s.now + 1000000 * unitsNs ≤ compactNear
    s.regs.commitTime s.now :=
  wit_outlines_are_staged_validated_armed_and_cancelled_7

theorem wit_firings_images_queries_and_repairs_complete_14 : ∃ (s : State) (v : Word), bit v 0 = true ∧ s.otl.state ≠ .idle ∧ s.otl.state ≠ .validating ∧ s.lastMs =
    false :=
  wit_outlines_are_staged_validated_armed_and_cancelled_9

theorem wit_firings_images_queries_and_repairs_complete_15 : ∃ (kind : QueryKind) (c : Instr) (s : State) (job : Word) (slot : Fin 32) (j : Job) (i : InFlight), (kind,
    c) ∈ [(QueryKind.search, Instr.planqSearch job slot), (.revalidate, .planqRevalidate job slot), (.readPlan,
    .planqReadPlan job slot), (.publish, .planqPublish job slot)] ∧ s.Issued job slot 0x0F (fun d => fld
    ((j.queryWords slot d).getD 0 0) 1 0 = kind.code) j i ∧ s.queryFail j slot i.desc = none :=
  have ⟨kind, c, s, job, slot, j, i, _, _, h1, h2, h3, _⟩ := wit_planner_queries_and_maps_are_served_1; ⟨kind, c, s, job, slot, j, i, h1, h2, h3⟩

theorem wit_firings_images_queries_and_repairs_complete_16 : ∃ (s : State) (q : Query) (l : List Query), s.xh.run = none ∧ s.xh.retired = false ∧ s.xh.queue.foldl (fun
    acc q => insertBy (fun a b : Query => s.marginBefore (a.job, a.slot) (b.job, b.slot)) q acc) [] = q :: l ∧
    q.kind = .search :=
  ⟨planning { queue := [{}] }, {}, [], by decide⟩

theorem wit_firings_images_queries_and_repairs_complete_17 : ∃ (s : State) (q : Query) (j : Job) (i : InFlight), s.xh.run = some q ∧ q.kind = .search ∧ q.repairStart =
    none ∧ q.budgetOver s.edge = true ∧ q.genBound = s.xh.gen ∧ s.job? q.job = some j ∧ j.planFlight q.slot =
    some i :=
  wit_planner_queries_and_maps_are_served_4

theorem wit_firings_images_queries_and_repairs_complete_18 : ∃ (s : State) (q : Query) (j : Job) (i : InFlight), s.xh.run = some q ∧ q.repairOver s.edge = true ∧ s.job?
    q.job = some j ∧ j.planFlight q.slot = some i :=
  wit_planner_queries_and_maps_are_served_5

theorem wit_firings_images_queries_and_repairs_complete_19 : ∃ (s : State) (q : Query) (j : Job) (i : InFlight) (r : SearchState) (n : Nat), s.xh.run = some q ∧ q.kind =
    .search ∧ q.repairStart = none ∧ q.budgetOver s.edge = false ∧ r = (s.searchIn q q.genBound).search
    (latState (q.w 1)) none ∧ r.found = some n ∧ q.genBound = s.xh.gen ∧ (trace r.nodes r.nodes.length n).length
    ≤ ((s.otl.running.lattice.map (·.maxPlan)).getD 0) ∧ s.job? q.job = some j ∧ j.planFlight q.slot = some i :=
  wit_planner_queries_and_maps_are_served_6

theorem wit_firings_images_queries_and_repairs_complete_20 : ∃ (s : State) (q : Query) (j : Job), s.xh.run = some q ∧ s.job? q.job = some j ∧ j.state = .running ∧
    j.budget ≤ j.attempt :=
  wit_planner_queries_and_maps_are_served_7

theorem wit_firings_images_queries_and_repairs_complete_21 : ∃ (s : State) (q : Query) (l : List Query), s.xh.publish = none ∧ s.xh.retired = false ∧ (s.xh.run.any fun x
    => (s.xh.buffer (1 - s.xh.current)).valid && x.genBound = (s.xh.buffer (1 - s.xh.current)).gen) = false ∧
    s.byDeadline s.xh.publishQueue = q :: l :=
  wit_planner_queries_and_maps_are_served_8

theorem wit_firings_images_queries_and_repairs_complete_22 : ∃ (s : State) (q : Query) (j : Job), s.xh.publish = some (q, true) ∧ s.job? q.job = some j :=
  have ⟨s, q, j, _, h1, h2, _⟩ := wit_planner_queries_and_maps_are_served_10; ⟨s, q, j, h1, h2⟩

theorem wit_firings_images_queries_and_repairs_complete_23 : ∃ (s : State) (n : Fin 36), (s.core n).diagnosing = true ∧ (s.core n).retiring = false ∧ ((s.core
    n).transients.filter fun e => decide (s.edge < e + edgesDay)).length < 2 :=
  wit_failed_units_are_repaired_or_retired_2

theorem wit_firings_images_queries_and_repairs_complete_24 : ∃ (s : State) (n : Fin 36), (s.core n).retiring = true ∧ (s.core n).quiet = true :=
  wit_failed_units_are_repaired_or_retired_4

theorem wit_firings_images_queries_and_repairs_complete_25 : ∃ (s : State) (k : Fin 4) (banks : List Nat), (s.plate k).powered = true :=
  wit_failed_units_are_repaired_or_retired_8

theorem wit_firings_images_queries_and_repairs_complete_26 : ∃ (s : State) (k : Fin 4) (b : Nat), (s.plate k).powered = true ∧ b < 168 ∧ b ∉ (s.plate k).retired ∧ 16 ≤
    ((s.plate k).corr.filter fun e => e.1 = b && decide (s.edge < e.2 + 160000000)).length :=
  wit_failed_units_are_repaired_or_retired_10

theorem wit_firings_images_queries_and_repairs_complete_27 : ∃ (s : State) (n : Fin 5) (spare : Nat), n.val ∈ s.brn.ctrlActive ∧ (firstIdx 5 fun k =>
    !(s.brn.ctrlActive.filter (· != n.val)).contains k && !(s.brn.ctrlRetired ++ [n.val]).contains k) = some
    spare :=
  wit_failed_units_are_repaired_or_retired_11

end Sys2Proof.Tests
end

section
/-!
PROOF. The bytes of a memory (R7, R253), the counters of a block (R447) and the error log (R446). Memories and counters
are lists looked up by a key, so both rest on what a lookup finds in a list filtered by its keys.
-/

namespace Sys2Proof.Machine

open Sys2Proof

/-! ### Lookups -/

theorem lookup_cons_ne {α β : Type} [BEq α] [LawfulBEq α] {k a : α} (h : k ≠ a) (b : β) (l : List (α × β)) :
    ((a, b) :: l).lookup k = l.lookup k := by
  rw [List.lookup_cons, beq_false_of_ne h]

/-- Of a list filtered by its keys, a lookup finds what it found at the keys kept, and nothing at the others. -/
theorem lookup_filter_key {α β : Type} [BEq α] [LawfulBEq α] (p : α → Bool) (l : List (α × β)) (k : α) :
    (l.filter fun c => p c.1).lookup k = if p k then l.lookup k else none := by
  induction l with
  | nil => simp
  | cons c l ih =>
    obtain ⟨a, b⟩ := c
    by_cases hka : k = a
    · subst hka
      by_cases hp : p k = true
      · simp [hp]
      · rw [List.filter_cons, if_neg hp, ih, if_neg hp, if_neg hp]
    · rw [lookup_cons_ne hka, ← ih, List.filter_cons]
      split
      · exact lookup_cons_ne hka b _
      · rfl

/-! ### Reads of a memory -/

theorem Memory.read_cons (m : Memory) (a : Nat) (b : Byte) (x : Nat) :
    Memory.read ((a, b) :: m) x = if x = a then b else Memory.read m x := by
  unfold Memory.read
  by_cases hx : x = a
  · simp [hx]
  · rw [lookup_cons_ne hx, if_neg hx]

/-- A memory filtered by its addresses reads 0 where it was filtered out. -/
theorem Memory.read_filter (m : Memory) (p : Nat → Bool) (x : Nat) :
    Memory.read (m.filter fun c => p c.1) x = if p x then Memory.read m x else 0 := by
  unfold Memory.read
  rw [lookup_filter_key]
  split <;> rfl

theorem Memory.read_truncate (m : Memory) (n x : Nat) :
    Memory.read (Memory.truncate m n) x = if x < n then Memory.read m x else 0 := by
  unfold Memory.truncate
  simpa using Memory.read_filter m (fun k => decide (k < n)) x

theorem Memory.read_clear (m : Memory) (a n x : Nat) :
    Memory.read (Memory.clear m a n) x = if a ≤ x ∧ x < a + n then 0 else Memory.read m x := by
  have h := Memory.read_filter m (fun k => decide (k < a) || decide (a + n ≤ k)) x
  unfold Memory.clear
  by_cases hx : a ≤ x ∧ x < a + n
  · simpa [hx, show ¬ x < a by omega, show ¬ a + n ≤ x by omega] using h
  · simpa [hx, show x < a ∨ a + n ≤ x by omega] using h

theorem Memory.read_writeBytes {m : Memory} (a : Nat) (bs : List Byte) (x : Nat) (h : Memory.wf m = true) :
    Memory.read (Memory.writeBytes m a bs) x =
      if a ≤ x ∧ x < a + bs.length then bs.getD (x - a) 0 else Memory.read m x := by
  induction bs generalizing m a with
  | nil => simp [Memory.writeBytes, show ¬ (a ≤ x ∧ x < a) by omega]
  | cons b bs ih =>
    rw [Memory.writeBytes, ih (a + 1) (Memory.write_wf a b h), Memory.read_write a b x h, List.length_cons]
    by_cases hin : a + 1 ≤ x ∧ x < a + 1 + bs.length
    · rw [if_pos hin, if_pos (by omega), show x - a = x - (a + 1) + 1 by omega, List.getD_cons_succ]
    · rw [if_neg hin]
      by_cases hx : x = a
      · simp [hx]
      · rw [if_neg hx, if_neg (by omega)]

/-- The bytes written at an address read back from it. -/
theorem Memory.readBytes_writeBytes {m : Memory} (a : Nat) (bs : List Byte) (h : Memory.wf m = true) :
    Memory.readBytes (Memory.writeBytes m a bs) a bs.length = bs := by
  apply List.ext_getElem
  · simp [Memory.readBytes]
  · intro i _ hi
    simp [Memory.readBytes, Memory.read_writeBytes _ _ _ h, hi]

theorem leNat_wordBytes (w : Word) : leNat (wordBytes w) = w.toNat := by
  simp only [wordBytes, leNat, BitVec.extractLsb'_toNat, Nat.shiftRight_eq_div_pow]
  omega

/-- A word written at an address reads back from it (R7). -/
theorem Memory.readWord_writeBytes {m : Memory} (a : Nat) (w : Word) (h : Memory.wf m = true) :
    Memory.readWord (Memory.writeBytes m a (wordsBytes [w])) a = w := by
  have hb : Memory.readBytes (Memory.writeBytes m a (wordBytes w)) a 4 = wordBytes w :=
    Memory.readBytes_writeBytes a (wordBytes w) h
  rw [show wordsBytes [w] = wordBytes w by simp [wordsBytes], Memory.readWord, hb, leNat_wordBytes, wd,
    BitVec.ofNat_toNat, BitVec.setWidth_eq]

/-! ### The canonical form -/

/-- A canonical memory lists an address with a byte exactly when that byte is not 0 and reads there. -/
theorem Memory.mem_iff_read {m : Memory} (h : Memory.wf m = true) (a : Nat) (b : Byte) :
    (a, b) ∈ m ↔ b ≠ 0 ∧ Memory.read m a = b := by
  induction m with
  | nil => simpa using fun hb => Ne.symm hb
  | cons c m ih =>
    obtain ⟨k, v⟩ := c
    obtain ⟨hsort, hne⟩ := (Memory.wf_iff _).1 h
    obtain ⟨hk, hsort⟩ := List.pairwise_cons.1 hsort
    have hm : Memory.wf m = true := (Memory.wf_iff m).2 ⟨hsort, fun c hc => hne c (List.mem_cons_of_mem _ hc)⟩
    have hv : v ≠ 0 := hne (k, v) List.mem_cons_self
    rw [List.mem_cons, Memory.read_cons, Prod.mk.injEq]
    by_cases ha : a = k
    · subst ha
      have hout : (a, b) ∉ m := fun hc => Nat.lt_irrefl a (hk _ hc)
      simp only [hout, if_true, true_and, or_false]
      exact ⟨fun e => ⟨e ▸ hv, e.symm⟩, fun e => e.2.symm⟩
    · simp [ha, ih hm]

/-- Canonical memories that read alike are equal: they list the same bytes in the same order. -/
theorem Memory.eq_of_read_eq {m n : Memory} (hm : Memory.wf m = true) (hn : Memory.wf n = true)
    (h : ∀ x, Memory.read m x = Memory.read n x) : m = n := by
  have sorted : ∀ {l : Memory}, Memory.wf l = true → l.Pairwise fun c d => c.1 < d.1 :=
    fun hl => ((Memory.wf_iff _).1 hl).1
  have nodup : ∀ {l : Memory}, Memory.wf l = true → l.Nodup :=
    fun hl => (sorted hl).imp fun hlt heq => Nat.ne_of_lt hlt (congrArg Prod.fst heq)
  have hperm : m.Perm n := (List.perm_ext_iff_of_nodup (nodup hm) (nodup hn)).2 fun c => by
    rw [Memory.mem_iff_read hm, Memory.mem_iff_read hn, h]
  exact hperm.eq_of_pairwise (fun _ _ _ _ hlt hgt => absurd hlt (Nat.lt_asymm hgt)) (sorted hm) (sorted hn)

/-- Settles O11: the reads after each operation, and the canonical form as what a memory reads as. -/
theorem memoriesReadWhatWasWritten : Obligations.MemoriesReadWhatWasWritten := by
  unfold Obligations.MemoriesReadWhatWasWritten
  refine ⟨fun m a bs h => ⟨fun i hi => ?_, fun x hx => ?_, Memory.writeBytes_wf bs a h⟩,
    fun m n x _ => Memory.read_truncate m n x, fun m a n x _ => Memory.read_clear m a n x,
    fun m n hm hn h => Memory.eq_of_read_eq hm hn h, fun m a w h => Memory.readWord_writeBytes a w h⟩
  · rw [Memory.read_writeBytes a bs _ h, if_pos (by omega), Nat.add_sub_cancel_left]
  · rw [Memory.read_writeBytes a bs x h, if_neg (by omega)]

/-! ### The counters -/

theorem State.count_clearCounts (s : State) (b : Block) (c : Counter) :
    (s.clearCounts b).count c = if c.block = b then 0 else s.count c := by
  unfold State.count
  rw [State.clearCounts_counts, lookup_filter_key (fun c : Counter => c.block != b)]
  by_cases hc : c.block = b <;> simp [hc]

/-- What the counters read as once one of them is set. -/
theorem lookup_setCount (l : List (Counter × Word)) (c d : Counter) (w : Word) :
    ((setCount l c w).lookup d).getD 0 = if d = c then w else (l.lookup d).getD 0 := by
  have hfilter := lookup_filter_key (fun x => x != c) l d
  unfold setCount
  by_cases hd : d = c
  · subst hd
    split
    · next hw => rw [hfilter]; simp [hw]
    · simp
  · rw [if_neg hd]
    split
    · rw [hfilter]; simp [hd]
    · rw [lookup_cons_ne hd, hfilter]; simp [hd]

theorem State.count_bumpBy (s : State) (c d : Counter) (n : Nat) :
    (s.bumpBy c n).count d = if d = c then wd (min 0xFFFFFFFF ((s.count c).toNat + n)) else s.count d :=
  lookup_setCount s.counts c d _

/-- A counter stops at all ones (R447). -/
theorem State.toNat_count_bumpBy (s : State) (c : Counter) (n : Nat) :
    ((s.bumpBy c n).count c).toNat = min 0xFFFFFFFF ((s.count c).toNat + n) := by
  rw [State.count_bumpBy, if_pos rfl, wd, BitVec.toNat_ofNat, Nat.mod_eq_of_lt (by omega)]

/-! ### The error log -/

@[simp] theorem State.sendWhere_brn (p : Session → Bool) (b : LimBody) (s : State) : (s.sendWhere p b).brn = s.brn :=
  (State.sendWhere_same .brn (by decide) p b s s).2 (Part.same_refl .brn s)

@[simp] theorem State.sendWhere_counts (p : Session → Bool) (b : LimBody) (s : State) :
    (s.sendWhere p b).counts = s.counts :=
  (State.sendWhere_same .counts (by decide) p b s s).2 (Part.same_refl .counts s)

/-- A record joins a log that has room (R446). -/
theorem Brn.append_of_room (r : ErrorRecord) {b : Brn} (h : b.log.length < 1024) :
    Brn.append r b = { b with
      log := b.log ++ [{ r with seq := b.seq }]
      seq := b.seq + 1
      kept := ({ r with seq := b.seq } :: b.kept).take 16 } := by
  simp [Brn.append, h, Nat.not_le.2 h]

/-- A record overwrites the oldest of a full log (R446). -/
theorem Brn.append_of_full (r : ErrorRecord) {b : Brn} (h : 1024 ≤ b.log.length) :
    Brn.append r b = { b with
      log := b.log.drop 1 ++ [{ r with seq := b.seq }]
      overrun := true
      seq := b.seq + 1
      kept := ({ r with seq := b.seq } :: b.kept).take 16 } := by
  simp [Brn.append, h, Nat.not_lt.2 h]

/-- What a report does (R446): it leaves the inbox for the log, is counted as a loss when the log is full, and the
rest of what changes is what the sessions are sent. -/
theorem exec_errorReport_of_inbox {s : State} {r : ErrorRecord} {l : List ErrorRecord} (h : s.brn.inbox = r :: l) :
    ∃ t, exec .errorReport s = .next t ∧ Only [.brn, .eth, .counts] s t ∧
      t.brn = Brn.append r { s.brn with inbox := l } ∧
      t.counts = if 1024 ≤ s.brn.log.length then (s.bump .brnLogLost).counts else s.counts := by
  refine ⟨_, rfl, fun p hp => execErrorReport_same p (by simp_all) s rfl, ?_⟩
  simp only [h]
  by_cases hfull : 1024 ≤ s.brn.log.length
  · simp [hfull, State.count]
  · simp [hfull]

/-- Where the fields that may change do not all change, the frame is as much smaller. -/
theorem Only.erase {p : Part} {ps qs : List Part} {s t : State} (h : Only ps s t) (hp : p.Same s t)
    (hps : ∀ q ∈ ps, q ∈ qs ∨ q = p) : Only qs s t := by
  intro q hq
  by_cases hqp : q = p
  · exact hqp ▸ hp
  · exact h q fun hmem => (hps q hmem).elim hq hqp

theorem exec_brnLogPop {v : Word} (hv : bit v 0 = true) (s : State) :
    exec (.brnLogPop v) s = .next { s with brn := { s.brn with log := s.brn.log.drop 1 } } := by
  rw [show exec (.brnLogPop v) s = execBrnLogPop v s from rfl, execBrnLogPop, if_pos hv, State.updBrn]

/-- Only bit 0 of CNT_CLEAR clears, and Proof has no such register (R423, R447). -/
theorem exec_cntClear (b : Block) (v : Word) (s : State) :
    exec (.cntClear b v) s = .next (if bit v 0 && b != .prf then s.clearCounts b else s) := rfl

/-- Settles O54: the report by whether the log is full, the counters by what a lookup finds after each change. -/
theorem theLogAndTheCountersHold : Obligations.TheLogAndTheCountersHold := by
  unfold Obligations.TheLogAndTheCountersHold
  refine ⟨fun s r l h hroom => ?_, fun s r l h hfull => ?_, fun s v hv => exec_brnLogPop hv s,
    fun s b v c hv hb => ⟨s.clearCounts b, ?_, ?_, s.count_clearCounts b c⟩,
    fun s v => by simp [exec_cntClear],
    fun s c d n => ⟨s.toNat_count_bumpBy c n, fun hd => ?_, ?_⟩⟩
  · obtain ⟨t, hexec, honly, hbrn, hcounts⟩ := exec_errorReport_of_inbox h
    rw [if_neg (Nat.not_le.2 hroom)] at hcounts
    have hbrn := hbrn.trans (Brn.append_of_room r hroom)
    exact ⟨t, hexec, honly.erase (p := .counts) hcounts (by decide), by simp [hbrn]⟩
  · obtain ⟨t, hexec, honly, hbrn, hcounts⟩ := exec_errorReport_of_inbox h
    rw [if_pos hfull] at hcounts
    have hbrn := hbrn.trans (Brn.append_of_full r hfull)
    exact ⟨t, hexec, honly, by simp [hbrn], by simp [hbrn], by simp [hbrn], hcounts⟩
  · simp [exec_cntClear, hv, hb]
  · exact fun p hp => (State.clearCounts_same p (by simpa using hp) b s s).2 (Part.same_refl p s)
  · rw [State.count_bumpBy, if_neg hd]
  · exact fun p hp => (State.bumpBy_same p (by simpa using hp) c n s s).2 (Part.same_refl p s)

end Sys2Proof.Machine
end

section
/-!
PROOF. The frame of a command and the queue and the count of edges (log 30): what a command may change is what its own
frame lemma says, and only a reset puts the count of edges back.
-/

namespace Sys2Proof.Machine

open Sys2Proof

/-- What no field outside of `ps` does, no field outside of a longer list does. -/
theorem Only.mono {ps qs : List Part} {s t : State} (h : Only ps s t) (hsub : ps ⊆ qs) : Only qs s t :=
  fun p hp => h p fun hm => hp (hsub hm)

/-- A reset leaves the one field that no reset may change, the queue. -/
theorem Restarts.same {s t : State} (h : Restarts s t) {p : Part} (hp : p ∉ mayChange .powerOn) : p.Same s t := by
  cases p with
  | pending => exact h.pending
  | _ => exact absurd hp (by decide)

/-- A command that leaves all but some fields, or resets, leaves the field that no reset may change. -/
theorem Restarts.same_or {s t : State} {ps : List Part} (h : Only ps s t ∨ Restarts s t)
    (hps : ps ⊆ mayChange .powerOn) {p : Part} (hp : p ∉ mayChange .powerOn) : p.Same s t :=
  h.elim (·.mono hps p hp) (·.same hp)

/-- No command changes a field outside of its list: each by its frame, the commands that may reset by what a reset
leaves. -/
theorem exec_only {c : Instr} {s t : State} (h : exec c s = .next t) : Only (mayChange c) s t := by
  intro p hp
  cases c with
  | coreJobLaunch e => exact execCoreJobLaunch_same p (by simpa [mayChange] using hp) e s h
  | drypointJobLaunch e => exact execDrypointJobLaunch_same p (by simpa [mayChange] using hp) e s h
  | moveLaunch e => exact execMoveLaunch_same p (by simpa [mayChange] using hp) e s h
  | stylusLaunch e => exact execStylusLaunch_same p (by simpa [mayChange] using hp) e s h
  | proofCheckLaunch e => exact execProofCheckLaunch_same p (by simpa [mayChange] using hp) e s h
  | ethGateAnchor e => exact execEthGateAnchor_same p (by simpa [mayChange] using hp) e s h
  | tierPrefetch e => exact execTierPrefetch_same p (by simpa [mayChange] using hp) e s h
  | gpioHigh e => exact execGpioHigh_same p (by simpa [mayChange] using hp) e s h
  | gpioLow e => exact execGpioLow_same p (by simpa [mayChange] using hp) e s h
  | gpioToggle e => exact execGpioToggle_same p (by simpa [mayChange] using hp) e s h
  | gpioPulse e => exact execGpioPulse_same p (by simpa [mayChange] using hp) e s h
  | gpioPulseEnd pin => exact execGpioPulseEnd_same p (by simpa [mayChange] using hp) pin s h
  | selftestSlice e => exact execSelftestSlice_same p (by simpa [mayChange] using hp) e s h
  | rotationInstant e => exact execRotationInstant_same p (by simpa [mayChange] using hp) e s h
  | carriedFiringLaunch => exact execCarriedFiringLaunch_same p (by simpa [mayChange] using hp) s h
  | deferredFiringLaunch e => exact execDeferredFiringLaunch_same p (by simpa [mayChange] using hp) e s h
  | spareSelftestDone cl pass => exact execSpareSelftestDone_same p (by simpa [mayChange] using hp) cl pass s h
  | rotationHandoverDone cl => exact execRotationHandoverDone_same p (by simpa [mayChange] using hp) cl s h
  | pllLossOfLock => exact execPllLossOfLock_same p (by simpa [mayChange] using hp) s h
  | tbCapture v => exact execTbCapture_same p (by simpa [mayChange] using hp) v s h
  | syncReceived q m => exact execSyncReceived_same p (by simpa [mayChange] using hp) q m s h
  | followUpReceived q m => exact execFollowUpReceived_same p (by simpa [mayChange] using hp) q m s h
  | syncReceiptTimeout q => exact execSyncReceiptTimeout_same p (by simpa [mayChange] using hp) q s h
  | announceReceived q m => exact execAnnounceReceived_same p (by simpa [mayChange] using hp) q m s h
  | announceReceiptTimeout q => exact execAnnounceReceiptTimeout_same p (by simpa [mayChange] using hp) q s h
  | pdelayReqReceived q seq m => exact execPdelayReqReceived_same p (by simpa [mayChange] using hp) q seq m s h
  | pdelayRespReceived q m => exact execPdelayRespReceived_same p (by simpa [mayChange] using hp) q m s h
  | pdelayInterval q => exact execPdelayInterval_same p (by simpa [mayChange] using hp) q s h
  | syncInterval q => exact execSyncInterval_same p (by simpa [mayChange] using hp) q s h
  | announceInterval q => exact execAnnounceInterval_same p (by simpa [mayChange] using hp) q s h
  | tbStepAccept v => exact execTbStepAccept_same p (by simpa [mayChange] using hp) v s h
  | tbSetGo v => exact execTbSetGo_same p (by simpa [mayChange] using hp) v s h
  | tbAdj v => exact execTbAdj_same p (by simpa [mayChange] using hp) v s h
  | tbGpioOut v => exact execTbGpioOut_same p (by simpa [mayChange] using hp) v s h
  | ppsOutRise => exact execPpsOutRise_same p (by simpa [mayChange] using hp) s h
  | ppsOutFall => exact execPpsOutFall_same p (by simpa [mayChange] using hp) s h
  | ppsInEdge => exact execPpsInEdge_same p (by simpa [mayChange] using hp) s h
  | ppsLost => exact execPpsLost_same p (by simpa [mayChange] using hp) s h
  | gpioEdgeCapture pin rising => exact execGpioEdgeCapture_same p (by simpa [mayChange] using hp) pin rising s h
  | gcapPop pin => exact execGcapPop_same p (by simpa [mayChange] using hp) pin s h
  | latchedHiRead q => exact execLatchedHiRead_same p (by simpa [mayChange] using hp) q s h
  | rgnEntryDisable v => exact execRgnEntryDisable_same p (by simpa [mayChange] using hp) v s h
  | rgnEntryEnable v => exact execRgnEntryEnable_same p (by simpa [mayChange] using hp) v s h
  | otlStageBegin v => exact execOtlStageBegin_same p (by simpa [mayChange] using hp) v s h
  | otlValidate v => exact execOtlValidate_same p (by simpa [mayChange] using hp) v s h
  | validationDone => exact execValidationDone_same p (by simpa [mayChange] using hp) s h
  | otlCommitArm v => exact execOtlCommitArm_same p (by simpa [mayChange] using hp) v s h
  | otlCancel v => exact execOtlCancel_same p (by simpa [mayChange] using hp) v s h
  | commitPrepare => exact execCommitPrepare_same p (by simpa [mayChange] using hp) s h
  | epochCommit => exact execEpochCommit_same p (by simpa [mayChange] using hp) s h
  | domainPowerDown d => exact execDomainPowerDown_same p (by simpa [mayChange] using hp) d s h
  | gemm job slot laneFault => exact execGemm_same p (by simpa [mayChange] using hp) job slot laneFault s h
  | conv job slot => exact execConv_same p (by simpa [mayChange] using hp) job slot s h
  | pool job slot => exact execPool_same p (by simpa [mayChange] using hp) job slot s h
  | ewApply job slot => exact execEwApply_same p (by simpa [mayChange] using hp) job slot s h
  | pwlLoad job slot => exact execPwlLoad_same p (by simpa [mayChange] using hp) job slot s h
  | norm job slot => exact execNorm_same p (by simpa [mayChange] using hp) job slot s h
  | attnDecode job run => exact execAttnDecode_same p (by simpa [mayChange] using hp) job run s h
  | attnPrefill job slot => exact execAttnPrefill_same p (by simpa [mayChange] using hp) job slot s h
  | scan job slot => exact execScan_same p (by simpa [mayChange] using hp) job slot s h
  | gate job slot => exact execGate_same p (by simpa [mayChange] using hp) job slot s h
  | sort job slot => exact execSort_same p (by simpa [mayChange] using hp) job slot s h
  | moveCopy job slot => exact execMoveCopy_same p (by simpa [mayChange] using hp) job slot s h
  | moveLayout job slot => exact execMoveLayout_same p (by simpa [mayChange] using hp) job slot s h
  | moveTier job slot => exact execMoveTier_same p (by simpa [mayChange] using hp) job slot s h
  | moveTranspose job slot => exact execMoveTranspose_same p (by simpa [mayChange] using hp) job slot s h
  | waittAbsolute job slot => exact execWaittAbsolute_same p (by simpa [mayChange] using hp) job slot s h
  | waittRelative job slot => exact execWaittRelative_same p (by simpa [mayChange] using hp) job slot s h
  | waittComplete job slot => exact execWaittComplete_same p (by simpa [mayChange] using hp) job slot s h
  | signal job slot => exact execSignal_same p (by simpa [mayChange] using hp) job slot s h
  | waits job slot => exact execWaits_same p (by simpa [mayChange] using hp) job slot s h
  | waitsSatisfied job slot => exact execWaitsSatisfied_same p (by simpa [mayChange] using hp) job slot s h
  | checkResidue job slot => exact execCheckResidue_same p (by simpa [mayChange] using hp) job slot s h
  | checkStats job slot => exact execCheckStats_same p (by simpa [mayChange] using hp) job slot s h
  | planqSearch job slot => exact execPlanqSearch_same p (by simpa [mayChange] using hp) job slot s h
  | planqRevalidate job slot => exact execPlanqRevalidate_same p (by simpa [mayChange] using hp) job slot s h
  | planqReadPlan job slot => exact execPlanqReadPlan_same p (by simpa [mayChange] using hp) job slot s h
  | planqPublish job slot => exact execPlanqPublish_same p (by simpa [mayChange] using hp) job slot s h
  | fuse job slot => exact execFuse_same p (by simpa [mayChange] using hp) job slot s h
  | descriptorIssue job slot => exact execDescriptorIssue_same p (by simpa [mayChange] using hp) job slot s h
  | descriptorComplete job slot => exact execDescriptorComplete_same p (by simpa [mayChange] using hp) job slot s h
  | weightBufferReady core buf => exact execWeightBufferReady_same p (by simpa [mayChange] using hp) core buf s h
  | weightLoadDone core => exact execWeightLoadDone_same p (by simpa [mayChange] using hp) core s h
  | tileComplete core mismatch row =>
    exact execTileComplete_same p (by simpa [mayChange] using hp) core mismatch row s h
  | accBankFree core bank => exact execAccBankFree_same p (by simpa [mayChange] using hp) core bank s h
  | washResidueFault core => exact execWashResidueFault_same p (by simpa [mayChange] using hp) core s h
  | marginResidueFault => exact execMarginResidueFault_same p (by simpa [mayChange] using hp) s h
  | marginQueueStart => exact execMarginQueueStart_same p (by simpa [mayChange] using hp) s h
  | marginDescriptorDone => exact execMarginDescriptorDone_same p (by simpa [mayChange] using hp) s h
  | jobSubmit sess b => exact execJobSubmit_same p (by simpa [mayChange] using hp) sess b s h
  | jobCancel sess tag job => exact execJobCancel_same p (by simpa [mayChange] using hp) sess tag job s h
  | jobLaunchInstant job => exact execJobLaunchInstant_same p (by simpa [mayChange] using hp) job s h
  | jobStart part => exact execJobStart_same p (by simpa [mayChange] using hp) part s h
  | jobSealEdge job => exact execJobSealEdge_same p (by simpa [mayChange] using hp) job s h
  | jobDeadline job => exact execJobDeadline_same p (by simpa [mayChange] using hp) job s h
  | restartIssue job => exact execRestartIssue_same p (by simpa [mayChange] using hp) job s h
  | ctxOpen sess tag b => exact execCtxOpen_same p (by simpa [mayChange] using hp) sess tag b s h
  | ctxFork sess tag b => exact execCtxFork_same p (by simpa [mayChange] using hp) sess tag b s h
  | ctxTruncate sess tag b => exact execCtxTruncate_same p (by simpa [mayChange] using hp) sess tag b s h
  | ctxReset sess tag b => exact execCtxReset_same p (by simpa [mayChange] using hp) sess tag b s h
  | ctxClose sess tag b => exact execCtxClose_same p (by simpa [mayChange] using hp) sess tag b s h
  | ctxAttach sess tag b => exact execCtxAttach_same p (by simpa [mayChange] using hp) sess tag b s h
  | ctxExport sess tag b => exact execCtxExport_same p (by simpa [mayChange] using hp) sess tag b s h
  | exportDone ctx => exact execExportDone_same p (by simpa [mayChange] using hp) ctx s h
  | ctxImport sess tag b => exact execCtxImport_same p (by simpa [mayChange] using hp) sess tag b s h
  | ctxSwapOut sess tag b => exact execCtxSwapOut_same p (by simpa [mayChange] using hp) sess tag b s h
  | ctxSwapIn sess tag b => exact execCtxSwapIn_same p (by simpa [mayChange] using hp) sess tag b s h
  | swapDone ctx => exact execSwapDone_same p (by simpa [mayChange] using hp) ctx s h
  | pageSeal index => exact execPageSeal_same p (by simpa [mayChange] using hp) index s h
  | kvPageDemote part => exact execKvPageDemote_same p (by simpa [mayChange] using hp) part s h
  | promote sess tag b => exact execPromote_same p (by simpa [mayChange] using hp) sess tag b s h
  | release sess tag b => exact execRelease_same p (by simpa [mayChange] using hp) sess tag b s h
  | pin sess tag b => exact execPin_same p (by simpa [mayChange] using hp) sess tag b s h
  | unpin sess tag b => exact execUnpin_same p (by simpa [mayChange] using hp) sess tag b s h
  | demote sess tag b => exact execDemote_same p (by simpa [mayChange] using hp) sess tag b s h
  | drop sess tag b => exact execDrop_same p (by simpa [mayChange] using hp) sess tag b s h
  | extentMiss job slot obj extent =>
    exact execExtentMiss_same p (by simpa [mayChange] using hp) job slot obj extent s h
  | extentFetchDone tag => exact execExtentFetchDone_same p (by simpa [mayChange] using hp) tag s h
  | tierRequestTimeout tag => exact execTierRequestTimeout_same p (by simpa [mayChange] using hp) tag s h
  | lateCompletion linework tag => exact execLateCompletion_same p (by simpa [mayChange] using hp) linework tag s h
  | tagRelease tag => exact execTagRelease_same p (by simpa [mayChange] using hp) tag s h
  | allocationWaitEnd => exact execAllocationWaitEnd_same p (by simpa [mayChange] using hp) s h
  | tierWriteDone crcGood => exact execTierWriteDone_same p (by simpa [mayChange] using hp) crcGood s h
  | directoryMirrorWrite => exact execDirectoryMirrorWrite_same p (by simpa [mayChange] using hp) s h
  | readoptVerifyDone part obj ver crc =>
    exact execReadoptVerifyDone_same p (by simpa [mayChange] using hp) part obj ver crc s h
  | rebuildDone part obj ver => exact execRebuildDone_same p (by simpa [mayChange] using hp) part obj ver s h
  | tirDirQuery sess v => exact execTirDirQuery_same p (by simpa [mayChange] using hp) sess v s h
  | tierReadTransaction ch at_ bursts =>
    exact execTierReadTransaction_same p (by simpa [mayChange] using hp) ch at_ bursts s h
  | tierWriteTransaction ch at_ bursts =>
    exact execTierWriteTransaction_same p (by simpa [mayChange] using hp) ch at_ bursts s h
  | unitUncorrectable ch unit => exact execUnitUncorrectable_same p (by simpa [mayChange] using hp) ch unit s h
  | retrainDone ch pass train => exact execRetrainDone_same p (by simpa [mayChange] using hp) ch pass train s h
  | periodicRetrain ch => exact execPeriodicRetrain_same p (by simpa [mayChange] using hp) ch s h
  | driftRetrain ch => exact execDriftRetrain_same p (by simpa [mayChange] using hp) ch s h
  | chnRetrain v => exact execChnRetrain_same p (by simpa [mayChange] using hp) v s h
  | lineworkPacketDelivered node tag err =>
    exact execLineworkPacketDelivered_same p (by simpa [mayChange] using hp) node tag err s h
  | lineworkTimeout tag => exact execLineworkTimeout_same p (by simpa [mayChange] using hp) tag s h
  | regulationWindow => exact execRegulationWindow_same p (by simpa [mayChange] using hp) s h
  | lnwBudget m v => exact execLnwBudget_same p (by simpa [mayChange] using hp) m v s h
  | csiFrameStart port vc counter lanes rate stamp =>
    exact execCsiFrameStart_same p (by simpa [mayChange] using hp) port vc counter lanes rate stamp s h
  | csiLongPacket port vc dataType headerGood crcGood overflow data =>
    exact execCsiLongPacket_same p (by simpa [mayChange] using hp) port vc dataType headerGood crcGood overflow data s h
  | csiEmbeddedData port vc data => exact execCsiEmbeddedData_same p (by simpa [mayChange] using hp) port vc data s h
  | csiFrameEnd port vc => exact execCsiFrameEnd_same p (by simpa [mayChange] using hp) port vc s h
  | sensorFragment q tsn stamp data =>
    exact execSensorFragment_same p (by simpa [mayChange] using hp) q tsn stamp data s h
  | fragmentTimeout stream => exact execFragmentTimeout_same p (by simpa [mayChange] using hp) stream s h
  | frameSeal stream => exact execFrameSeal_same p (by simpa [mayChange] using hp) stream s h
  | streamStale stream => exact execStreamStale_same p (by simpa [mayChange] using hp) stream s h
  | egoPropagate x frameTime => exact execEgoPropagate_same p (by simpa [mayChange] using hp) x frameTime s h
  | egoMeasure x frameTime => exact execEgoMeasure_same p (by simpa [mayChange] using hp) x frameTime s h
  | egoPublish => exact execEgoPublish_same p (by simpa [mayChange] using hp) s h
  | egoTimeout => exact execEgoTimeout_same p (by simpa [mayChange] using hp) s h
  | trcEgoCapture v => exact execTrcEgoCapture_same p (by simpa [mayChange] using hp) v s h
  | tracingQueueStart => exact execTracingQueueStart_same p (by simpa [mayChange] using hp) s h
  | trackCoastExpire track => exact execTrackCoastExpire_same p (by simpa [mayChange] using hp) track s h
  | calibrationRefine sensor => exact execCalibrationRefine_same p (by simpa [mayChange] using hp) sensor s h
  | demotionExpire sensor => exact execDemotionExpire_same p (by simpa [mayChange] using hp) sensor s h
  | plannerQueryStart => exact execPlannerQueryStart_same p (by simpa [mayChange] using hp) s h
  | searchEnd => exact execSearchEnd_same p (by simpa [mayChange] using hp) s h
  | searchBudgetExpire => exact execSearchBudgetExpire_same p (by simpa [mayChange] using hp) s h
  | repairBudgetExpire => exact execRepairBudgetExpire_same p (by simpa [mayChange] using hp) s h
  | publishCopyStart => exact execPublishCopyStart_same p (by simpa [mayChange] using hp) s h
  | publishCopyDone => exact execPublishCopyDone_same p (by simpa [mayChange] using hp) s h
  | plannerFault => exact execPlannerFault_same p (by simpa [mayChange] using hp) s h
  | stylusGuard group => exact execStylusGuard_same p (by simpa [mayChange] using hp) group s h
  | stylusEngineDone group residueFault =>
    exact execStylusEngineDone_same p (by simpa [mayChange] using hp) group residueFault s h
  | outputFrameForm group => exact execOutputFrameForm_same p (by simpa [mayChange] using hp) group s h
  | gateListAdvance q => exact execGateListAdvance_same p (by simpa [mayChange] using hp) q s h
  | gateWindowClose q id => exact execGateWindowClose_same p (by simpa [mayChange] using hp) q id s h
  | frameTransmit q => exact execFrameTransmit_same p (by simpa [mayChange] using hp) q s h
  | frameReceive q f stamp => exact execFrameReceive_same p (by simpa [mayChange] using hp) q f stamp s h
  | frerRecoveryReset tsn => exact execFrerRecoveryReset_same p (by simpa [mayChange] using hp) tsn s h
  | downLinkDiscard q => exact execDownLinkDiscard_same p (by simpa [mayChange] using hp) q s h
  | linkUp q speed master verified =>
    exact execLinkUp_same p (by simpa [mayChange] using hp) q speed master verified s h
  | linkDown q => exact execLinkDown_same p (by simpa [mayChange] using hp) q s h
  | lldpTransmit q => exact execLldpTransmit_same p (by simpa [mayChange] using hp) q s h
  | lldpReceive q macSubtype chassis ttl =>
    exact execLldpReceive_same p (by simpa [mayChange] using hp) q macSubtype chassis ttl s h
  | partnerExpire n => exact execPartnerExpire_same p (by simpa [mayChange] using hp) n s h
  | arpRequest q target asker askerIp =>
    exact execArpRequest_same p (by simpa [mayChange] using hp) q target asker askerIp s h
  | bypassArm => exact execBypassArm_same p (by simpa [mayChange] using hp) s h
  | bypassAnnounce => exact execBypassAnnounce_same p (by simpa [mayChange] using hp) s h
  | bypassOpen => exact execBypassOpen_same p (by simpa [mayChange] using hp) s h
  | bypassOpenFail => exact execBypassOpenFail_same p (by simpa [mayChange] using hp) s h
  | bypassClose => exact execBypassClose_same p (by simpa [mayChange] using hp) s h
  | bypassCloseReq v => exact execBypassCloseReq_same p (by simpa [mayChange] using hp) v s h
  | bypassRetry v => exact execBypassRetry_same p (by simpa [mayChange] using hp) v s h
  | limianOpen q seq w0 credits => exact execLimianOpen_same p (by simpa [mayChange] using hp) q seq w0 credits s h
  | limianClose sess => exact execLimianClose_same p (by simpa [mayChange] using hp) sess s h
  | limianAck sess ack credits => exact execLimianAck_same p (by simpa [mayChange] using hp) sess ack credits s h
  | ackDelay sess => exact execAckDelay_same p (by simpa [mayChange] using hp) sess s h
  | retransmitTimeout sess => exact execRetransmitTimeout_same p (by simpa [mayChange] using hp) sess s h
  | sessionIdleTimeout sess => exact execSessionIdleTimeout_same p (by simpa [mayChange] using hp) sess s h
  | regRead sess tag addr count => exact execRegRead_same p (by simpa [mayChange] using hp) sess tag addr count s h
  | regWrite sess tag addr values => exact execRegWrite_same p (by simpa [mayChange] using hp) sess tag addr values s h
  | objLoadBegin sess tag obj totalBytes w3 iv =>
    exact execObjLoadBegin_same p (by simpa [mayChange] using hp) sess tag obj totalBytes w3 iv s h
  | objData sess offset data => exact execObjData_same p (by simpa [mayChange] using hp) sess offset data s h
  | objLoadEnd sess tag crc gcmTag =>
    exact execObjLoadEnd_same p (by simpa [mayChange] using hp) sess tag crc gcmTag s h
  | objRead sess tag obj ver => exact execObjRead_same p (by simpa [mayChange] using hp) sess tag obj ver s h
  | objPush sess tag obj ver remotePart remoteObj remoteStatus =>
    exact execObjPush_same p (by simpa [mayChange] using hp) sess tag obj ver remotePart remoteObj remoteStatus s h
  | wdiEdge => exact execWdiEdge_same p (by simpa [mayChange] using hp) s h
  | wdoToggle heartbeat => exact execWdoToggle_same p (by simpa [mayChange] using hp) heartbeat s h
  | checkMessage => exact execCheckMessage_same p (by simpa [mayChange] using hp) s h
  | gateSampleMessage => exact execGateSampleMessage_same p (by simpa [mayChange] using hp) s h
  | conflictBoxExpire n => exact execConflictBoxExpire_same p (by simpa [mayChange] using hp) n s h
  | sensorFaultClear => exact execSensorFaultClear_same p (by simpa [mayChange] using hp) s h
  | prfRelease v => exact execPrfRelease_same p (by simpa [mayChange] using hp) v s h
  | lockstepMismatch => exact execLockstepMismatch_same p (by simpa [mayChange] using hp) s h
  | proofSramUncorrectable => exact execProofSramUncorrectable_same p (by simpa [mayChange] using hp) s h
  | proofClockWindow ctrl aon => exact execProofClockWindow_same p (by simpa [mayChange] using hp) ctrl aon s h
  | voltageTrip rail microvolts => exact execVoltageTrip_same p (by simpa [mayChange] using hp) rail microvolts s h
  | stopReadbackMismatch line => exact execStopReadbackMismatch_same p (by simpa [mayChange] using hp) line s h
  | sliceDone unit pass n => exact execSliceDone_same p (by simpa [mayChange] using hp) unit pass n s h
  | sliceAbort => exact execSliceAbort_same p (by simpa [mayChange] using hp) s h
  | diagIntervalMissed unit => exact execDiagIntervalMissed_same p (by simpa [mayChange] using hp) unit s h
  | diagnosisDone core result => exact execDiagnosisDone_same p (by simpa [mayChange] using hp) core result s h
  | coreRetire u => exact execCoreRetire_same p (by simpa [mayChange] using hp) u s h
  | plateScrub slice corrected => exact execPlateScrub_same p (by simpa [mayChange] using hp) slice corrected s h
  | plateUncorrectable slice bank => exact execPlateUncorrectable_same p (by simpa [mayChange] using hp) slice bank s h
  | plateCorrectedLimit slice bank =>
    exact execPlateCorrectedLimit_same p (by simpa [mayChange] using hp) slice bank s h
  | ctrlWatchdogExpire core => exact execCtrlWatchdogExpire_same p (by simpa [mayChange] using hp) core s h
  | routerLaneSwitch node => exact execRouterLaneSwitch_same p (by simpa [mayChange] using hp) node s h
  | errorReport => exact execErrorReport_same p (by simpa [mayChange] using hp) s h
  | brnLogPop v => exact execBrnLogPop_same p (by simpa [mayChange] using hp) v s h
  | cntClear b v => exact execCntClear_same p (by simpa [mayChange] using hp) b v s h
  | lockSet b v => exact execLockSet_same p (by simpa [mayChange] using hp) b v s h
  | glbAvsLimit v => exact execGlbAvsLimit_same p (by simpa [mayChange] using hp) v s h
  | avsStep target ack => exact execAvsStep_same p (by simpa [mayChange] using hp) target ack s h
  | pmbusRetry ack => exact execPmbusRetry_same p (by simpa [mayChange] using hp) ack s h
  | secBootWriteFirmware v => exact execSecBootWriteFirmware_same p (by simpa [mayChange] using hp) v s h
  | secBootWriteOutline v => exact execSecBootWriteOutline_same p (by simpa [mayChange] using hp) v s h
  | bootWriteDone readBackGood => exact execBootWriteDone_same p (by simpa [mayChange] using hp) readBackGood s h
  | secRollbackCommit v => exact execSecRollbackCommit_same p (by simpa [mayChange] using hp) v s h
  | secKeyInstall v => exact execSecKeyInstall_same p (by simpa [mayChange] using hp) v s h
  | secRevoke v => exact execSecRevoke_same p (by simpa [mayChange] using hp) v s h
  | secLockAdvance v => exact execSecLockAdvance_same p (by simpa [mayChange] using hp) v s h
  | recoveryImageLoad sess tag image =>
    exact Restarts.same_or (execRecoveryImageLoad_restarts sess tag image h) (by decide) hp
  | powerOn => exact (execPowerOn_restarts h).same hp
  | resetNAssert nanoseconds => exact Restarts.same_or (execResetNAssert_restarts nanoseconds h) (by decide) hp
  | resetNRelease => exact (execResetNRelease_restarts h).elim (· ▸ p.same_refl s) (·.same hp)
  | supplyOutOfRange rail => exact (execSupplyOutOfRange_restarts rail h).elim (· ▸ p.same_refl s) (·.same hp)
  | vddAonLoss => exact (execVddAonLoss_restarts h).same hp
  | glbResetCold v => exact execGlbResetCold_same p (by simpa [mayChange] using hp) v s h
  | glbResetWarm v => exact execGlbResetWarm_same p (by simpa [mayChange] using hp) v s h
  | glbPartReset v => exact execGlbPartReset_same p (by simpa [mayChange] using hp) v s h
  | partitionResetDone => exact execPartitionResetDone_same p (by simpa [mayChange] using hp) s h
  | pllLocked primary standby => exact execPllLocked_same p (by simpa [mayChange] using hp) primary standby s h
  | fuseMapLoaded => exact execFuseMapLoaded_same p (by simpa [mayChange] using hp) s h
  | mbistDone failedCores failedCtrl =>
    exact execMbistDone_same p (by simpa [mayChange] using hp) failedCores failedCtrl s h
  | trainingDone failed => exact execTrainingDone_same p (by simpa [mayChange] using hp) failed s h
  | firmwareVerified => exact execFirmwareVerified_same p (by simpa [mayChange] using hp) s h
  | bootOutlineLoad => exact execBootOutlineLoad_same p (by simpa [mayChange] using hp) s h
  | jobsReady => exact execJobsReady_same p (by simpa [mayChange] using hp) s h
  | domainPowerUp d => exact execDomainPowerUp_same p (by simpa [mayChange] using hp) d s h
  | t1Uncorrectable core bank => exact execT1Uncorrectable_same p (by simpa [mayChange] using hp) core bank s h
  | stepHoldEnd => exact execStepHoldEnd_same p (by simpa [mayChange] using hp) s h
  | slewComplete => exact execSlewComplete_same p (by simpa [mayChange] using hp) s h
  | preemptionVerifyTimeout q => exact execPreemptionVerifyTimeout_same p (by simpa [mayChange] using hp) q s h
theorem pending_notMem_mayChange (c : Instr) : .pending ∉ mayChange c := by
  cases c <;> exact of_decide_eq_true rfl

/-- A command that may change the count of edges leaves it, or resets (R454, R470, R471). -/
theorem exec_edge_or_restarts {c : Instr} {s t : State} (hc : .edge ∈ mayChange c) (h : exec c s = .next t) :
    t.edge = s.edge ∨ Restarts s t := by
  have of_only {ps : List Part} (hps : .edge ∉ ps) (ho : Only ps s t) : t.edge = s.edge := ho .edge hps
  cases c with
  | recoveryImageLoad sess tag image =>
    exact (execRecoveryImageLoad_restarts sess tag image h).imp_left (of_only (by decide))
  | powerOn => exact .inr (execPowerOn_restarts h)
  | resetNAssert nanoseconds => exact (execResetNAssert_restarts nanoseconds h).imp_left (of_only (by decide))
  | resetNRelease => exact (execResetNRelease_restarts h).imp_left (congrArg State.edge)
  | supplyOutOfRange rail => exact (execSupplyOutOfRange_restarts rail h).imp_left (congrArg State.edge)
  | vddAonLoss => exact .inr (execVddAonLoss_restarts h)
  | _ => exact absurd hc (of_decide_eq_true rfl)

/-- Settles O4: a command's frame holds the queue, and the count of edges too unless the command may reset. -/
theorem commandsLeaveQueueAndClock : Obligations.CommandsLeaveQueueAndClock := by
  unfold Obligations.CommandsLeaveQueueAndClock
  intro c s t h
  refine ⟨exec_only h .pending (pending_notMem_mayChange c), ?_⟩
  by_cases hc : .edge ∈ mayChange c
  · exact (exec_edge_or_restarts hc h).imp_right fun hr => ⟨hr.edge, hr.regs⟩
  · exact .inl (exec_only h .edge hc)

end Sys2Proof.Machine
end

section
/-!
PROOF. The step of an idle block (log 30): a clock that stands, a register reset that is due, and one edge of the clock.
-/

namespace Sys2Proof.Machine

open Sys2Proof

theorem step_of_idle {s : State} (h : s.pending = []) : step s = .next s.tick := by
  rw [step, h]

theorem State.tick_of_not_clocked {s : State} (h : s.clocked = false) : s.tick = s := by
  simp [State.tick, h]

/-- A register reset whose time has come takes the edge (R471). -/
theorem State.tick_of_reset_due {s : State} {r : Nat × ResetKind} (h : s.clocked = true)
    (hr : s.glb.resetDue = some r) (hdue : r.1 ≤ s.edge) : s.tick = s.restart r.2 .plls := by
  simp [State.tick, State.takeReset, h, hr, hdue]

/-- What an edge makes of the clock and the blocks, before the commands that fall due join the queue. -/
def State.afterEdge (s : State) : State := s.edgeAdvance.readTemp.applyChanges

theorem State.tick_of_running {s : State} (h : s.clocked = true)
    (hr : ∀ r, s.glb.resetDue = some r → s.edge < r.1) :
    s.tick = s.afterEdge.enqueue (s.afterEdge.dueCommands s.now) := by
  have hnone : (s.glb.resetDue.any fun r => decide (r.1 ≤ s.edge)) = false := by
    simpa [Option.any_eq_false] using hr
  simp [State.tick, State.afterEdge, h, hnone]

theorem State.afterEdge_edge (s : State) : s.afterEdge.edge = s.edge + 1 :=
  (State.applyChanges_same .edge (by decide) _ s.edgeAdvance).2
    ((State.readTemp_same .edge (by decide) _ _).2 rfl)

theorem State.afterEdge_tb (s : State) : s.afterEdge.tb = s.edgeAdvance.tb :=
  (State.applyChanges_same .tb (by decide) _ s.edgeAdvance).2
    ((State.readTemp_same .tb (by decide) _ _).2 rfl)

/-- Settles O2: the three ways an idle step goes, and what each part of an edge leaves. -/
theorem idleStepIsOneClockEdge : Obligations.IdleStepIsOneClockEdge := by
  unfold Obligations.IdleStepIsOneClockEdge
  intro s hidle
  refine ⟨s.tick, step_of_idle hidle, State.tick_of_not_clocked, fun hclk hr => ?_,
    fun r hclk hr hdue => State.tick_of_reset_due hclk hr hdue⟩
  rw [State.tick_of_running hclk hr]
  refine ⟨s.afterEdge_edge, congrArg Tb.time s.afterEdge_tb, fun p hp => ?_⟩
  simp only [List.mem_cons, List.not_mem_nil, or_false, not_or] at hp
  simp [State.afterEdge, hp]

end Sys2Proof.Machine
end

section
/-!
PROOF. The adjustment of local time (R38, R45, R47): TRIM_CLAMPED is set by a slew that finds the rate trim at its
clamp.
-/

namespace Sys2Proof.Machine

open Sys2Proof

/-- In the states that honour TB_ADJ, its slew starts at a rate that is free (R47, log 5). -/
theorem exec_tbAdj_of_honoured {s : State} (v : Word)
    (h : s.tb.state = .freeRun ∨ s.tb.state = .holdover ∨ s.tb.state = .grandmaster) :
    exec (.tbAdj v) s =
      .next (s.draw.2.startSlew (v.toInt * unitsNs) (1 + s.draw.1.toNat % slewMax.toNat)) := by
  rw [show exec (.tbAdj v) s = execTbAdj v s from rfl, execTbAdj, if_pos h]

/-- A forward slew on top of a rate trim at its clamp sets TRIM_CLAMPED (R38). -/
theorem State.startSlew_trimClamped {s : State} {o : Int} (rate : Nat) (ho : 0 < o) (htrim : 5368709 ≤ s.tb.trim) :
    (s.startSlew o rate).tb.trimClamped = true := by
  have hslew : 0 < min slewMax (min (max 1 (rate : Int)) o) := by
    unfold slewMax; omega
  have hclamp : atClamp (s.tb.trim + min slewMax (min (max 1 (rate : Int)) o)) = true := by
    unfold atClamp; exact decide_eq_true (by omega)
  simp [State.startSlew, ho, ho.ne', hslew.ne', hclamp]

/-- A device in FREE_RUN whose rate trim stands at its clamp, with TRIM_CLAMPED cleared (W1C). -/
def clampedClock : State := { State.reset with tb := { trim := 5368709 } }

/-- Refutes O15: TB_ADJ = 1 on `clampedClock` sets TRIM_CLAMPED (R38), where the clause of TB_ADJ has every field of TB
but the slew stay as it was. -/
theorem not_timeIsSetCapturedAndAdjusted : ¬ Obligations.TimeIsSetCapturedAndAdjusted := by
  unfold Obligations.TimeIsSetCapturedAndAdjusted
  rintro ⟨-, -, -, -, -, -, hadj, -⟩
  have hfree : clampedClock.tb.state = .freeRun := rfl
  obtain ⟨t, hexec, -, -, -, ht⟩ := hadj clampedClock 1 (.inl hfree)
  rw [exec_tbAdj_of_honoured 1 (.inl hfree)] at hexec
  injection hexec with hexec
  have hset : t.tb.trimClamped = true :=
    hexec ▸ State.startSlew_trimClamped _ (by decide) (by decide)
  have hkept : t.tb.trimClamped = false := congrArg (fun u => u.tb.trimClamped) ht
  exact absurd (hset.symm.trans hkept) (by decide)

end Sys2Proof.Machine
end

section
/-!
PROOF. Self-test slices and coverage (R24, R426 to R429): what an update of a slice leaves, and what a slice that ends,
an abort and a missed interval do.
-/

namespace Sys2Proof.Machine

open Sys2Proof

/-! ### Proof's state and its pins -/

/-- A cause of SAFE_STATE puts Proof into it (R422). -/
theorem Prf.settle_state_of_safeCause {p : Prf} (h : p.safeCause ≠ 0) : (Prf.settle p).state = .safeState :=
  if_pos h

/-- A slice whose coverage was missed is a cause of FAULT_N (R425, R430). -/
theorem Prf.settle_faultN_of_missed {p : Prf} (h : p.slices.any (·.missed) = true) : (Prf.settle p).faultN = true := by
  have hbits : p.faultBits ≠ 0 := by simp [Prf.faultBits, flag, h]
  exact decide_eq_true hbits

theorem getLsbD_ofNat_two_pow {w n : Nat} (hn : n < w) (k : Nat) :
    (BitVec.ofNat w (2 ^ k)).getLsbD n = decide (k = n) := by
  rw [BitVec.getLsbD_ofNat, Nat.testBit_two_pow]
  simp [hn]

/-- The cause that SAFE_STATE is entered by is recorded (R422). -/
theorem State.proofSafe_safeCause_getLsbD {n : Nat} (hn : n < 8) (s : State) :
    (s.proofSafe n).prf.safeCause.getLsbD n = true := by
  change (s.prf.safeCause ||| BitVec.ofNat 8 (2 ^ n)).getLsbD n = true
  rw [BitVec.getLsbD_or, getLsbD_ofNat_two_pow hn]
  simp

theorem State.proofSafe_state {n : Nat} (hn : n < 8) (s : State) : (s.proofSafe n).prf.state = .safeState := by
  refine Prf.settle_state_of_safeCause fun hzero => ?_
  have hbit := State.proofSafe_safeCause_getLsbD hn s
  rw [show (s.proofSafe n).prf.safeCause = 0 from hzero] at hbit
  simp at hbit

/-! ### One slice -/

theorem State.slice_updSlice {s : State} {u : Nat} (f : SliceState → SliceState) (h : u < s.prf.slices.length) :
    (s.updSlice u f).slice u = f (s.slice u) := by
  change (s.prf.slices.modify u f).getD u {} = f (s.prf.slices.getD u {})
  simp [h]

/-- Every slice of a pass has passed once the slice `i` has, with those before it (R429). -/
theorem all_range_passed_iff (n i : Nat) (l : List Nat) :
    (List.range n).all (i :: l.filter (· != i)).contains = true ↔ ∀ m, m < n → m = i ∨ m ∈ l := by
  simp only [List.all_eq_true, List.mem_range, List.contains_iff_mem, List.mem_cons, List.mem_filter, bne_iff_ne]
  exact forall₂_congr fun m _ => by tauto

/-- A slice that passes (R429): the next slice of its entry lies a stride on; the last of a pass starts a new one, and
any other joins those that passed. -/
theorem State.slicePassed_slice {s : State} {u i : Nat} {x : SelftestEntry} (hx : s.sliceEntry u = some x)
    (hi : (s.slice u).next.lookup (s.slice u).entry = some i) (hu : u < s.prf.slices.length) :
    ((s.slicePassed u).slice u).running = false ∧
    ((s.slicePassed u).slice u).next.lookup (s.slice u).entry = some ((i + s.sliceCount u) % max 1 x.slices) ∧
    ((∀ m, m < max 1 x.slices → m = i ∨ m ∈ (s.slice u).passed) →
      ((s.slicePassed u).slice u).passed = [] ∧ ((s.slicePassed u).slice u).passStart = s.edge) ∧
    ((∃ m, m < max 1 x.slices ∧ m ≠ i ∧ m ∉ (s.slice u).passed) →
      i ∈ ((s.slicePassed u).slice u).passed ∧
        ((s.slicePassed u).slice u).passStart = (s.slice u).passStart) := by
  simp only [State.slicePassed, hx, hi, Option.getD_some]
  split
  case isTrue hall =>
    rw [State.slice_updSlice _ hu]
    refine ⟨rfl, List.lookup_cons_self, fun _ => ⟨rfl, rfl⟩, fun ⟨m, hm, hne, hnot⟩ => ?_⟩
    exact absurd ((all_range_passed_iff _ _ _).1 hall m hm) (by simp [hne, hnot])
  case isFalse hsome =>
    rw [State.slice_updSlice _ hu]
    exact ⟨rfl, List.lookup_cons_self, fun hall => absurd ((all_range_passed_iff _ _ _).2 hall) hsome,
      fun _ => ⟨List.mem_cons_self, rfl⟩⟩

theorem exec_sliceDone_of_ended {s : State} {u : Fin 8} (pass : Bool) (k : Nat) (hrun : (s.slice u).running = true)
    (hend : (s.slice u).endEdge ≤ s.edge) :
    exec (.sliceDone u pass k) s = .next (if pass then s.slicePassed u else s.sliceFailed u k) :=
  congrArg Host.Outcome.next (if_pos ⟨hrun, hend⟩)

/-! ### Coverage -/

/-- The state in which the missed coverage of a unit with slices is reported (R24, R429). -/
def State.coverageMissed (u : Nat) (s : State) : State :=
  ((s.updSlice u fun y => { y with missed := true }).report 0x0E 0 5 0 0x0072 none 0 (u % 0x100)).bump .prfDiagMissed

theorem exec_diagIntervalMissed_of_uncovered {s : State} {u : Nat} (hu : u < 0x100) (hstage : s.glb.stage = .ready)
    (h : s.uncovered u = true) : exec (.diagIntervalMissed u) s = .next (s.coverageMissed u) := by
  rw [show exec (.diagIntervalMissed u) s = execDiagIntervalMissed u s from rfl, execDiagIntervalMissed,
    if_pos ⟨hstage, h⟩, if_pos hu, State.coverageMissed]

theorem State.coverageMissed_slice {s : State} {u : Nat} (hu : u < s.prf.slices.length) :
    ((s.coverageMissed u).slice u).missed = true :=
  congrArg SliceState.missed (State.slice_updSlice (fun y => { y with missed := true }) hu)

theorem State.coverageMissed_faultN {s : State} {u : Nat} (hu : u < s.prf.slices.length) :
    (s.coverageMissed u).prf.faultN = true := by
  refine Prf.settle_faultN_of_missed (List.any_eq_true.2 ⟨_, List.getElem_mem (n := u) ?_, ?_⟩)
  · simpa using hu
  · simp

/-- A unit whose missed coverage is noted is not reported again. -/
theorem State.uncovered_eq_false_of_missed {s : State} {u : Nat} (hu : u < 0x100) (h : (s.slice u).missed = true) :
    s.uncovered u = false := by
  simp [State.uncovered, hu, h]

/-- Settles O51: the slice that passes by its stride and its pass, the failures of the Tracing unit and of Proof, the
abort, and the interval that is missed once. -/
theorem slicesPassFailAndCover : Obligations.SlicesPassFailAndCover := by
  unfold Obligations.SlicesPassFailAndCover
  refine ⟨fun s u k x n i hrun hend hx hn hi hu => ?_, fun s k hrun hend => ?_, fun s k hrun hend => ?_, fun s => ?_,
    fun s u hstage h hu8 hu => ?_⟩
  · subst hn
    refine ⟨s.slicePassed u, exec_sliceDone_of_ended true k hrun hend, fun p hp => ?_,
      State.slicePassed_slice hx hi hu⟩
    exact (State.slicePassed_same p (by simpa using hp) u s s).2 (p.same_refl s)
  · exact ⟨s.sliceFailed 5 k, exec_sliceDone_of_ended (u := 5) false k hrun hend, rfl, rfl⟩
  · exact ⟨s.sliceFailed 7 k, exec_sliceDone_of_ended (u := 7) false k hrun hend,
      State.proofSafe_state (by decide) _, State.proofSafe_safeCause_getLsbD (by decide) _⟩
  · refine ⟨_, rfl, (exec_only (c := .sliceAbort) rfl).mono (by decide), fun y hy => ?_, ?_⟩
    · obtain ⟨z, -, rfl⟩ := List.mem_map.1 hy
      rfl
    · split <;> rfl
  · have hexec := exec_diagIntervalMissed_of_uncovered (by omega) hstage h
    have hmissed := State.coverageMissed_slice hu
    exact ⟨_, _, hexec, (exec_only hexec).mono (by simp [mayChange]), hmissed, State.coverageMissed_faultN hu,
      State.uncovered_eq_false_of_missed (by omega) hmissed, rfl, rfl, rfl⟩

end Sys2Proof.Machine
end

section
/-!
PROOF. Bring-up (R36, R97, R449, R453, R454, R466, R474 to R477): one equation or one list of effects for each step,
from the stage in which it acts.
-/

namespace Sys2Proof.Machine

open Sys2Proof

theorem getD_map_zipIdx {α β : Type} (f : α × Nat → β) {l : List α} {n : Nat} (hn : n < l.length) (a : α) (b : β) :
    (l.zipIdx.map f).getD n b = f (l.getD n a, n) := by
  simp [hn]

/-! ### PLLs, fuse map and MBIST -/

/-- A root that has locked takes bring-up on (R36, R475; which root runs is log 28). -/
theorem exec_pllLocked_of_root {s : State} {primary standby : Bool} (hstage : s.glb.stage = .plls)
    (hroot : primary = true ∨ standby = true ∧ s.glb.pllSpare = true) :
    exec (.pllLocked primary standby) s = .next { s with glb := { s.glb with
      stage := .fuses
      pllSpare := primary && (standby && s.glb.pllSpare)
      pllOnStandby := s.glb.pllOnStandby || !primary } } := by
  refine congrArg Host.Outcome.next (if_neg ?_)
  rcases hroot with h | ⟨h, hspare⟩
  · simp [hstage, h]
  · simp [hstage, h, hspare]

/-- The fuse map after a cold reset (R97). -/
theorem exec_fuseMapLoaded_of_stage {s : State} (hstage : s.glb.stage = .fuses) :
    exec .fuseMapLoaded s = .next (State.toStage .mbist (if s.glb.lastReset.warm then s else s.updCores fun cs =>
      cs.zipIdx.map fun x => { x.1 with repair := (List.range 4).map fun a => repairOf (Config.fuseRepair x.2 a) })) :=
  congrArg Host.Outcome.next (if_neg (by simp [hstage]))

/-- The control cores that MBIST leaves. -/
def State.ctrlLeft (s : State) (failed : List (Fin 5)) : List Nat :=
  (List.range 5).filter fun k => !(s.brn.ctrlRetired ++ failed.map (·.val)).dedup.contains k

theorem State.mem_ctrlLeft {s : State} {failed : List (Fin 5)} {k : Nat} :
    k ∈ s.ctrlLeft failed ↔ k < 5 ∧ k ∉ s.brn.ctrlRetired ∧ ∀ x ∈ failed, x.val ≠ k := by
  simp [State.ctrlLeft]

/-- A bit map that gains the bits of a list has them (R449). -/
theorem getLsbD_foldl_setBit (l : List Nat) (m : BitVec 36) {n : Nat} (hn : n < 36) :
    (l.foldl (fun m k => m ||| BitVec.ofNat 36 (2 ^ k)) m).getLsbD n = (m.getLsbD n || decide (n ∈ l)) := by
  induction l generalizing m with
  | nil => simp
  | cons k l ih =>
    rw [List.foldl_cons, ih, BitVec.getLsbD_or, getLsbD_ofNat_two_pow hn, Bool.or_assoc]
    simp [eq_comm (a := k)]

/-- What MBIST leaves where a control core passed (R466, R475, R476). -/
theorem exec_mbistDone_of_ctrlLeft {s : State} (cores : List (Fin 36)) {ctrl : List (Fin 5)}
    (hstage : s.glb.stage = .mbist) (hleft : s.ctrlLeft ctrl ≠ []) :
    ∃ t, exec (.mbistDone cores ctrl) s = .next t ∧ t.glb.stage = .training ∧
      (∀ n ∈ cores, n.val < s.cores.length → (t.core n).state = .retired) ∧
      (∀ n ∈ cores, t.brn.coreRetired.getLsbD n = true) ∧
      t.brn.ctrlActive = (s.ctrlLeft ctrl).take 4 ∧
      t.plt = s.plt.map fun x => { x with powered := true, ready := true, lastScrub := s.edge } := by
  have hbad : ∀ n ∈ cores, n.val ∈ (cores.map (·.val)).dedup := fun n hn =>
    List.mem_dedup.2 (List.mem_map_of_mem hn)
  refine ⟨_, congrArg Host.Outcome.next ((if_neg (by simp [hstage])).trans (if_neg ?_)), rfl, fun n hn hlen => ?_,
    fun n hn => ?_, rfl, rfl⟩
  · exact fun hempty => hleft (List.isEmpty_iff.1 hempty)
  · refine (congrArg Core.state (getD_map_zipIdx _ hlen {} {})).trans ?_
    rw [if_pos (List.contains_iff_mem.2 (hbad n hn))]
  · refine (getLsbD_foldl_setBit _ s.brn.coreRetired n.isLt).trans ?_
    rw [decide_eq_true (hbad n hn), Bool.or_true]

/-! ### Firmware -/

/-- A control image that verifies gives its version and keys, and Proof starts (R452, R453). -/
theorem exec_firmwareVerified_of_good {s : State} {v : Nat} {keys : List (Option (List Byte))}
    (hstage : s.glb.stage = .firmware) (hverify : s.sec.verify s.sec.firmware = some (v, keys)) :
    exec .firmwareVerified s = .next (State.toStage .outline
      ((s.updSec fun x => { x with version := BitVec.ofNat 7 v, keys := keys }).updPrf Prf.settle)) := by
  rw [show exec .firmwareVerified s = execFirmwareVerified s from rfl, execFirmwareVerified, if_neg (by simp [hstage]),
    hverify]

/-- Without one the device waits for a recovery image (R454). -/
theorem exec_firmwareVerified_of_bad {s : State} (hstage : s.glb.stage = .firmware)
    (hverify : s.sec.verify s.sec.firmware = none) :
    exec .firmwareVerified s = .next (s.toStage .firmwareRecovery) := by
  rw [show exec .firmwareVerified s = execFirmwareVerified s from rfl, execFirmwareVerified, if_neg (by simp [hstage]),
    hverify]

/-- A recovery image in an open device session of firmware recovery (R454). -/
theorem exec_recoveryImageLoad_of_session {s : State} {i : Fin 16} (tag : Word) (img : List Byte)
    (hstage : s.glb.stage = .firmwareRecovery) (hopen : (s.session i).open_ = true)
    (hpart : (s.session i).part = none) :
    exec (.recoveryImageLoad i tag img) s = .next (if (s.sec.verify img).isNone
      then State.sendTo i (.objReply tag 0x15) (s.delivered i)
      else
        let k := (s.delivered i).choose 2
        (k.2.updSec fun y => { y with firmware := img }).restart
          (if k.1 = 0 then .warmPin else .warmRegister) .plls) := by
  have hsec : (s.delivered i).sec = s.sec := (State.delivered_same .sec (by decide) i s s).2 rfl
  rw [show exec (.recoveryImageLoad i tag img) s = execRecoveryImageLoad i tag img s from rfl, execRecoveryImageLoad,
    if_neg (by simp [hstage]), State.request]
  simp [hopen, hpart, hsec]

/-! ### The boot Outline -/

/-- The Outline that is installed runs, with its image (R86): what follows in an installation leaves the OTL block. -/
theorem State.install_otl (new : Outline) (net : Option NetTable) (image : List Word) (keep : Nat → Bool) (s : State) :
    (s.install new net image keep).otl.running = new ∧ (s.install new net image keep).otl.image = image := by
  unfold State.install
  extract_lets old fusionNew latticeNew latticeGone s1 s2 s3 s4 s5 s6 s7 s8 s9
  have h7 : s7.otl = s6.otl := by
    unfold s7
    split
    · exact (State.loadLattice_same .otl (by decide) _ s6 s6).2 rfl
    · rfl
  have h9 : s9.otl = s6.otl := ((State.placeObjects_same .otl (by decide) new s7 s7).2 rfl).trans h7
  have hports : (s9.placePorts).otl = s9.otl := (State.placePorts_same .otl (by decide) s9 s9).2 rfl
  have hend := (State.judgeDegraded_same .otl (by decide) keep
    (allPorts.foldl (fun s p => s.restartGates p) s9.placePorts) s9).2
    (Part.same_foldl (fun u p => (State.restartGates_same .otl (by decide) p u u).2 rfl) hports)
  rw [show _ = s6.otl from hend.trans h9]
  exact ⟨rfl, rfl⟩

/-- Re-adoption (R278) reaches the object directory alone. -/
theorem State.readoptIf_same {p : Part} (h : p ≠ .tir) (warm : Bool) (s : State) :
    p.Same s (if warm then s.readopt else s) := by
  split <;> simp [h]

/-- A usable copy takes effect (R94, R474). -/
theorem exec_bootOutlineLoad_of_copy {s : State} {k : Nat} {o : Outline} {net : Option NetTable} {ws : List Word}
    (hstage : s.glb.stage = .outline)
    (hpick : s.sec.bootOrder.findSome? (fun k => (s.bootCheck k).map fun r => (k, r)) = some (k, o, net, ws)) :
    ∃ t, exec .bootOutlineLoad s = .next t ∧ t.otl = (s.bootInto k o net ws).otl ∧
      t.glb = (s.bootInto k o net ws).glb ∧ t.sec = (s.bootInto k o net ws).sec := by
  rw [show exec .bootOutlineLoad s = execBootOutlineLoad s from rfl, execBootOutlineLoad, if_neg (by simp [hstage]),
    hpick]
  exact ⟨_, rfl, State.readoptIf_same (p := .otl) (by decide) _ _, State.readoptIf_same (p := .glb) (by decide) _ _,
    State.readoptIf_same (p := .sec) (by decide) _ _⟩

theorem State.bootInto_otl (k : Nat) (o : Outline) (net : Option NetTable) (ws : List Word) (s : State) :
    (s.bootInto k o net ws).otl.running = o ∧ (s.bootInto k o net ws).otl.image = ws :=
  State.install_otl o net ws (fun _ => false) (s.netRefs addRef net)

/-- Without one the device waits in outline recovery (R95, R474). -/
theorem exec_bootOutlineLoad_of_none {s : State} (hstage : s.glb.stage = .outline)
    (hpick : s.sec.bootOrder.findSome? (fun k => (s.bootCheck k).map fun r => (k, r)) = none) :
    ∃ t, exec .bootOutlineLoad s = .next t ∧ t.otl = { s.recoveryCode.otl with state := .idle, epoch := 0 } ∧
      t.glb = { s.recoveryCode.glb with stage := .outlineRecovery } := by
  rw [show exec .bootOutlineLoad s = execBootOutlineLoad s from rfl, execBootOutlineLoad, if_neg (by simp [hstage]),
    hpick]
  exact ⟨_, rfl, State.readoptIf_same (p := .otl) (by decide) _ _, State.readoptIf_same (p := .glb) (by decide) _ _⟩

/-- Jobs-ready (R477): the firing starts, and then the intervals of coverage, which leave GLB and RGN as they are. -/
theorem exec_jobsReady_of_mayBegin {s : State} (h : s.jobsMayBegin = true) :
    ∃ t, exec .jobsReady s = .next t ∧ t.rgn = { s.rgn with firing := true } ∧ t.glb = { s.glb with
      stage := .ready
      readyMs := s.msNow
      readyEdge := s.edge
      uplinkLate := !(s.ethPort .uplink).link } :=
  ⟨_, congrArg Host.Outcome.next (if_neg (by simp [h])),
    (State.startCoverage_same .rgn (by decide) _ _).2 rfl, (State.startCoverage_same .glb (by decide) _ _).2 rfl⟩

/-- Settles O59: each step by its equation, MBIST by its lists, the boot Outline by what an installation leaves. -/
theorem bringUpRunsInOrder : Obligations.BringUpRunsInOrder := by
  unfold Obligations.BringUpRunsInOrder
  refine ⟨fun s standby hstage => ?_, fun s hstage hspare => ?_, fun s hstage => ?_,
    fun s cores ctrl hstage hleft => ?_, fun s failed hstage => ?_, fun s v keys hstage hverify => ?_,
    fun s hstage hverify => ?_, fun s i tag img hstage hopen hpart hgood => ?_,
    fun s i tag img hstage hopen hpart hbad => ?_, fun s k o net ws hstage hpick => ?_,
    fun s hstage hpick => ?_, fun s hstage hready => ?_⟩
  · simp [exec_pllLocked_of_root hstage (.inl rfl)]
  · simp [exec_pllLocked_of_root hstage (.inr ⟨rfl, hspare⟩)]
  · have hexec := exec_fuseMapLoaded_of_stage hstage
    refine ⟨_, hexec, (exec_only hexec).mono (by simp [mayChange]), ?_, fun n a hn ha hcold => ?_⟩
    · split <;> rfl
    · rw [hcold]
      refine (congrArg (fun c : Core => c.repair.getD a {}) (getD_map_zipIdx _ hn {} {})).trans ?_
      simp [ha]
  · obtain ⟨k, hk⟩ := hleft
    obtain ⟨t, hexec, htraining, hretired, hmap, hactive, hplt⟩ :=
      exec_mbistDone_of_ctrlLeft cores hstage (List.ne_nil_of_mem (State.mem_ctrlLeft.2 hk))
    refine ⟨t, hexec, (exec_only hexec).mono (by simp [mayChange]), htraining, hretired, hmap, fun x hx => ?_, ?_,
      fun k hk => ?_⟩
    · rw [hplt] at hx
      obtain ⟨y, -, rfl⟩ := List.mem_map.1 hx
      exact ⟨rfl, rfl⟩
    · rw [hactive]
      exact List.length_take_le ..
    · rw [hactive] at hk
      exact State.mem_ctrlLeft.1 (List.mem_of_mem_take hk)
  · exact ⟨_, congrArg Host.Outcome.next (if_neg (by simp [hstage])), rfl, rfl⟩
  · have hexec := exec_firmwareVerified_of_good hstage hverify
    exact ⟨_, hexec, (exec_only hexec).mono (by simp [mayChange]), rfl, rfl⟩
  · exact exec_firmwareVerified_of_bad hstage hverify
  · have hexec := exec_recoveryImageLoad_of_session tag img hstage hopen hpart
    rw [if_neg (by simpa [Option.isSome_iff_ne_none] using hgood)] at hexec
    refine ⟨_, hexec, by simp, by simp [Sec.survive], by simp, ?_⟩
    simp only [State.restart_lastReset]
    split <;> rfl
  · rw [exec_recoveryImageLoad_of_session tag img hstage hopen hpart, hbad]
    rfl
  · obtain ⟨t, hexec, hotl, hglb, hsec⟩ := exec_bootOutlineLoad_of_copy hstage hpick
    obtain ⟨hrunning, himage⟩ := State.bootInto_otl k o net ws s
    rw [← hotl] at hrunning himage
    exact ⟨t, hexec, congrArg Glb.stage hglb, hrunning, himage, congrArg Otl.epoch hotl, congrArg Otl.isBoot hotl,
      congrArg Otl.state hotl, congrArg Sec.copyInUse hsec, congrArg Glb.bootEdge hglb⟩
  · obtain ⟨t, hexec, hotl, hglb⟩ := exec_bootOutlineLoad_of_none hstage hpick
    exact ⟨t, hexec, by rw [hglb], by rw [hotl], by rw [hotl]⟩
  · have hbegin : s.jobsMayBegin = true := by
      simpa [State.jobsMayBegin, hstage, or_assoc] using hready
    obtain ⟨t, hexec, hrgn, hglb⟩ := exec_jobsReady_of_mayBegin hbegin
    exact ⟨t, hexec, (exec_only hexec).mono (by simp [mayChange]), by simp [hglb], by simp [hglb], hrgn, by simp [hglb]⟩

end Sys2Proof.Machine
end

section
/-!
PROOF. The ranges of the host's registers (R46, R280, R404, R485, R490, R491): no command writes one but by a change
that the manual allows, and a reset puts each at its reset value.
-/

namespace Sys2Proof.Machine

open Sys2Proof

theorem HostRegs.reset_inRange : ({} : HostRegs).InRange := by
  constructor <;> decide

/-- A command that may change the registers makes a change that the manual allows, or resets. -/
theorem exec_regs_allows_or_restarts {c : Instr} {s t : State} (hc : .regs ∈ mayChange c) (h : exec c s = .next t) :
    s.regs.Allows t.regs ∨ Restarts s t := by
  have of_only {ps : List Part} (hps : .regs ∉ ps) (ho : Only ps s t) : s.regs.Allows t.regs := .of_same (ho .regs hps)
  cases c with
  | tbGpioOut v => exact .inl (execTbGpioOut_allows v h)
  | bypassCloseReq v => exact .inl (execBypassCloseReq_allows v h)
  | bypassRetry v => exact .inl (execBypassRetry_allows v h)
  | regWrite sess tag addr values => exact .inl (execRegWrite_allows sess tag addr values h)
  | lockSet b v => exact .inl (execLockSet_allows b v h)
  | glbAvsLimit v => exact .inl (execGlbAvsLimit_allows v h)
  | recoveryImageLoad sess tag image =>
    exact (execRecoveryImageLoad_restarts sess tag image h).imp_left (of_only (by decide))
  | powerOn => exact .inr (execPowerOn_restarts h)
  | resetNAssert nanoseconds => exact (execResetNAssert_restarts nanoseconds h).imp_left (of_only (by decide))
  | resetNRelease => exact (execResetNRelease_restarts h).imp_left fun e => .of_same (congrArg State.regs e)
  | supplyOutOfRange rail => exact (execSupplyOutOfRange_restarts rail h).imp_left fun e => .of_same (congrArg State.regs e)
  | vddAonLoss => exact .inr (execVddAonLoss_restarts h)
  | _ => exact absurd hc (of_decide_eq_true rfl)

/-- An idle step leaves the registers, or takes a reset (R471). -/
theorem State.tick_regs (s : State) : s.tick.regs = s.regs ∨ s.tick.regs = {} := by
  unfold State.tick
  split
  · exact .inl rfl
  · split
    · exact s.takeReset_restarts.imp (congrArg State.regs) Restarts.regs
    · exact .inl ((State.enqueue_same .regs (by decide) _ _ _).2 ((State.applyChanges_same .regs (by decide) _ _).2
        ((State.readTemp_same .regs (by decide) _ _).2 rfl)))

/-- What one step does to the registers: a change that the manual allows, or their reset values. -/
theorem step_regs {s t : State} (h : step s = .next t) : s.regs.Allows t.regs ∨ t.regs = {} := by
  cases hp : s.pending with
  | nil =>
    rw [step_of_idle hp] at h
    injection h with h
    exact h ▸ s.tick_regs.imp_left .of_same
  | cons c rest =>
    have hexec : exec c { s with pending := rest } = .next t := by rwa [step, hp] at h
    by_cases hc : .regs ∈ mayChange c
    · exact (exec_regs_allows_or_restarts hc hexec).imp_right Restarts.regs
    · exact .inl (.of_same (exec_only hexec .regs hc))

/-- Settles O6. -/
theorem registersInRangeAtReset : Obligations.RegistersInRangeAtReset := by
  unfold Obligations.RegistersInRangeAtReset
  exact HostRegs.reset_inRange

/-- Settles O7: a step changes the registers as the manual allows, or puts them at their reset values. -/
theorem stepKeepsRegistersInRange : Obligations.StepKeepsRegistersInRange := by
  unfold Obligations.StepKeepsRegistersInRange
  exact fun s t hs h => (step_regs h).elim (·.range hs) fun hr => hr ▸ HostRegs.reset_inRange

end Sys2Proof.Machine
end

section
/-!
PROOF. The firings that launch (R56 to R60, R69, R78, R155): a launch place is taken, and then the target acts. Each
target is said once for the state that has taken the place.
-/

namespace Sys2Proof.Machine

open Sys2Proof

/-! ### The launch place -/

@[simp] theorem State.placeTaken_now (i : Nat) (s : State) : (s.placeTaken i).now = s.now := by
  simp [State.now]

@[simp] theorem State.placeTaken_instantOf (i : Nat) (r : RegEntry) (s : State) :
    (s.placeTaken i).instantOf r = s.instantOf r := by
  simp [State.instantOf]

/-- What two changes in a row leave. -/
theorem Only.trans {ps qs rs : List Part} {s t u : State} (h : Only ps s t) (g : Only qs t u) (hps : ps ⊆ rs)
    (hqs : qs ⊆ rs) : Only rs s u :=
  fun p hp => Part.same_trans (h p fun hm => hp (hps hm)) (g p fun hm => hp (hqs hm))

theorem State.placeTaken_only (i : Nat) (s : State) : Only [.counts, .rgn] s (s.placeTaken i) :=
  fun p hp => (State.placeTaken_same p (by simpa using hp) i s s).2 (p.same_refl s)

/-! ### Job templates -/

/-- The job that a template starts (R56, R150, R155). -/
def State.firedJob (s : State) (i : Nat) (instant : Int) (x : TemplateRec) : Job :=
  { id := s.jobs.nextId, part := x.part, origin := .fired i, chainObj := x.chain, deadlineUs := x.deadline
    budget := x.restart, outBase := x.outBase, state := .launched, launch := instant, launchEdge := s.edge }

theorem State.launchTemplate_of_template {s : State} {r : RegEntry} {x : TemplateRec} (i : Nat) (instant : Int)
    (hx : s.otl.running.templates[r.arg.toNat]? = some x) :
    s.launchTemplate i instant r = s.updJobs fun y =>
      { y with nextId := nextJobId y.nextId, list := y.list ++ [s.firedJob i instant x] } := by
  rw [State.launchTemplate, hx]
  rfl

/-- What a template launch leaves: its job in LAUNCHED, under the next job ID. -/
theorem State.placeTaken_launchTemplate {s : State} {r : RegEntry} {x : TemplateRec} (i : Nat) (instant : Int)
    (hx : s.otl.running.templates[r.arg.toNat]? = some x) :
    Only [.counts, .rgn, .jobs] s ((s.placeTaken i).launchTemplate i instant r) ∧
      ((s.placeTaken i).launchTemplate i instant r).rgn = s.rgn.launched i ∧
      ((s.placeTaken i).launchTemplate i instant r).jobs = { s.jobs with
        nextId := nextJobId s.jobs.nextId, list := s.jobs.list ++ [s.firedJob i instant x] } := by
  rw [State.launchTemplate_of_template (x := x) i instant (by simpa using hx)]
  refine ⟨(s.placeTaken_only i).trans (qs := [.jobs]) (fun p hp => ?_) (by simp) (by simp), by simp,
    by simp [State.firedJob]⟩
  exact (State.updJobs_same p (by simpa using hp) _ _ _).2 (p.same_refl _)

theorem exec_coreJobLaunch_of_launches {s : State} {e : BitVec 12} {r : RegEntry} (h : s.Launches 1 e.toNat r)
    (hfree : s.entryJob e.toNat = false) :
    exec (.coreJobLaunch e) s = .next ((s.placeTaken e.toNat).launchTemplate e.toNat (s.instantOf r) r) := by
  rw [show exec (.coreJobLaunch e) s = execCoreJobLaunch e s from rfl, execCoreJobLaunch,
    State.fire_launches h _ hfree, State.placeTaken_instantOf]

theorem exec_drypointJobLaunch_of_launches {s : State} {e : BitVec 12} {r : RegEntry} (h : s.Launches 2 e.toNat r)
    (hfree : s.entryJob e.toNat = false) :
    exec (.drypointJobLaunch e) s = .next ((s.placeTaken e.toNat).launchTemplate e.toNat (s.instantOf r) r) := by
  rw [show exec (.drypointJobLaunch e) s = execDrypointJobLaunch e s from rfl, execDrypointJobLaunch,
    State.fire_launches h _ hfree, State.placeTaken_instantOf]

/-! ### Registered moves -/

theorem exec_moveLaunch_of_launches {s : State} {e : BitVec 12} {r : RegEntry} (h : s.Launches 3 e.toNat r)
    (hfree : s.entryJob e.toNat = false) :
    exec (.moveLaunch e) s = .next ((s.placeTaken e.toNat).launchMove e.toNat (s.instantOf r) r) := by
  rw [show exec (.moveLaunch e) s = execMoveLaunch e s from rfl, execMoveLaunch,
    State.fire_launches h _ hfree, State.placeTaken_instantOf]

/-- The job of a registered Move, before its source is bound (R78). -/
def State.moveJob (s : State) (i : Nat) (instant : Int) (r : RegEntry) (w : List Word) : Job :=
  { id := s.jobs.nextId, part := r.part, origin := .move i, state := .running, deadlineUs := 16777215
    launch := instant, launchEdge := s.edge, counters := List.replicate 16 0
    chain := { width := 1, slots := [[{ w := w }]] }, slots := [{ core := 36 }] }

theorem State.takeVref_jobs (part : Nat) (obj : Word) (ver : Nat) (s : State) :
    (s.takeVref part obj ver).jobs = s.jobs :=
  (State.takeVref_same .jobs (by decide) part obj ver s s).2 rfl

/-- A registered Move whose source is sealed runs with it bound (R78, R149). -/
theorem State.launchMove_of_source {s : State} {r : RegEntry} {w : List Word} {o : ObjVersion} (i : Nat) (instant : Int)
    (hw : s.otl.running.moves[r.arg.toNat]? = some w)
    (ho : (s.tir.objs.find? fun o => o.obj = w.getD 4 0 && o.part = r.part && o.newest && o.state = .sealed) = some o) :
    Only [.counts, .jobs, .tir] s (s.launchMove i instant r) ∧
      { s.moveJob i instant r w with
        bound := [{ obj := w.getD 4 0, part := r.part, ver := o.ver, len := o.len, data := o.data }] } ∈
        (s.launchMove i instant r).jobs.list := by
  have hlaunch : s.launchMove i instant r = ((s.addJob (s.moveJob i instant r w)).updJob s.jobs.nextId fun x =>
      { x with bound := [{ obj := w.getD 4 0, part := r.part, ver := o.ver, len := o.len, data := o.data }] }).takeVref
      r.part (w.getD 4 0) o.ver := by
    simp only [State.launchMove, hw, ho]
    rfl
  rw [hlaunch]
  refine ⟨fun p hp => ?_, ?_⟩
  · simp only [List.mem_cons, List.not_mem_nil, or_false, not_or] at hp
    simp [hp]
  · rw [State.takeVref_jobs]
    simp only [State.updJob, State.addJob, State.updJobs]
    exact List.mem_map.2 ⟨_, List.mem_append_right _ (List.mem_singleton_self _), if_pos rfl⟩

/-! ### GPIO actions -/

/-- A GPIO firing acts on its pin where that is a registered output (R69). -/
theorem State.fireGpio_of_launches {s : State} {i a : Nat} {r : RegEntry} (h : s.Launches 8 i r) (ha : r.action = a)
    (f : RegEntry → GpioPin → GpioPin) :
    s.fireGpio i a f = (s.placeTaken i).updPin r.unit fun p => if p.dir = .registered then f r p else p := by
  rw [State.fireGpio, h.entry]
  simp only [ha, if_true]
  exact State.fire_launches h _ rfl _

theorem State.fireGpio_effect {s : State} {i a : Nat} {r : RegEntry} (h : s.Launches 8 i r) (ha : r.action = a)
    (f : RegEntry → GpioPin → GpioPin) :
    Only [.counts, .rgn, .tb] s (s.fireGpio i a f) ∧ (s.fireGpio i a f).rgn = s.rgn.launched i ∧
      (s.fireGpio i a f).tb = { s.tb with
        pins := s.tb.pins.modify r.unit fun p => if p.dir = .registered then f r p else p } := by
  rw [State.fireGpio_of_launches h ha]
  refine ⟨(s.placeTaken_only i).trans (qs := [.tb]) (fun p hp => ?_) (by simp) (by simp), by simp [State.updPin],
    by simp [State.updPin]⟩
  exact (State.updPin_same p (by simpa using hp) _ _ _ _).2 (p.same_refl _)

/-- Settles O12: each target after the place that its firing takes. -/
theorem registeredFiringsLaunchTheirTargets : Obligations.RegisteredFiringsLaunchTheirTargets := by
  unfold Obligations.RegisteredFiringsLaunchTheirTargets
  refine ⟨fun s e r x h hfree hx => ?_, fun s e r x h hfree hx => ?_, fun s e r w o h hfree hw ho => ?_,
    fun s e r h ha => ⟨_, rfl, State.fireGpio_effect h ha _⟩, fun s e r h ha => ⟨_, rfl, State.fireGpio_effect h ha _⟩,
    fun s e r h ha => ⟨_, rfl, State.fireGpio_effect h ha _⟩, fun s e r h ha => ⟨_, rfl, State.fireGpio_effect h ha _⟩⟩
  · exact ⟨_, exec_coreJobLaunch_of_launches h hfree, State.placeTaken_launchTemplate _ _ hx⟩
  · exact ⟨_, exec_drypointJobLaunch_of_launches h hfree, State.placeTaken_launchTemplate _ _ hx⟩
  · obtain ⟨honly, hjob⟩ := State.launchMove_of_source (s := s.placeTaken e.toNat) e.toNat (s.instantOf r)
      (by simpa using hw) (by simpa using ho)
    exact ⟨_, exec_moveLaunch_of_launches h hfree,
      (s.placeTaken_only e.toNat).trans honly (by simp) (by simp), (honly .rgn (by decide)).trans (s.placeTaken_rgn _),
      _, hjob, by simp [State.moveJob], rfl, rfl, rfl, rfl, rfl⟩

end Sys2Proof.Machine
end

section
/-!
PROOF. The firings of the safety and sensing engines (R56, R58, R264, R360, R383, R416, R426, R428). What a firing does to
the fields that a statement names is said of those fields alone: of the firing data of a channel group, of the
windows and times of a rule set, of the gates of a port.
-/

namespace Sys2Proof.Machine

open Sys2Proof

/-! ### Lists seen through a function -/

theorem map_modify {α β : Type} {f : α → α} {g : α → β} {k : β → β} (h : ∀ x, g (f x) = k (g x)) (l : List α) (n : Nat) :
    (l.modify n f).map g = (l.map g).modify n k := by
  refine List.ext_getElem? fun m => ?_
  rw [List.getElem?_modify, List.getElem?_map, List.getElem?_map, List.getElem?_modify]
  cases l[m]? with
  | none => rfl
  | some x => by_cases hm : n = m <;> simp [hm, h]

theorem map_modify_same {α β : Type} {f : α → α} {g : α → β} (h : ∀ x, g (f x) = g x) (l : List α) (n : Nat) :
    (l.modify n f).map g = l.map g :=
  (map_modify (k := id) h l n).trans (List.modify_id ..)

theorem map_modify_congr {α β : Type} {f f' : α → α} {g : α → β} (h : ∀ x, g (f x) = g (f' x)) (l : List α) (n : Nat) :
    (l.modify n f).map g = (l.modify n f').map g := by
  refine List.ext_getElem? fun m => ?_
  simp only [List.getElem?_map, List.getElem?_modify]
  cases l[m]? with
  | none => rfl
  | some x => by_cases hm : n = m <;> simp [hm, h]

/-- Lists that look alike through a function, changed alike at one place, look alike again. -/
theorem map_modify_of_map_eq {α β : Type} {f : α → α} {g : α → β} {k : β → β} (h : ∀ x, g (f x) = k (g x)) {l m : List α}
    (hl : l.map g = m.map g) (n : Nat) : (l.modify n f).map g = (m.modify n f).map g := by
  rw [map_modify h, map_modify h, hl]

theorem getD_modify {α : Type} (f : α → α) {l : List α} {n : Nat} (h : n < l.length) (d : α) :
    (l.modify n f).getD n d = f (l.getD n d) := by
  simp [h]

theorem getD_modify_ne {α : Type} (f : α → α) (l : List α) {n m : Nat} (h : n ≠ m) (d : α) :
    (l.modify n f).getD m d = l.getD m d := by
  simp [List.getElem?_modify_ne f l h]

/-- What a place of a list reads as, known through a function. -/
theorem getD_of_map_eq {α β : Type} {g : α → β} {l m : List α} (h : l.map g = m.map g) (n : Nat) (d : α) :
    g (l.getD n d) = g (m.getD n d) := by
  have hget := congrArg (fun x : List β => x.getD n (g d)) h
  simpa [List.getD_eq_getElem?_getD, Option.getD_map] using hget

/-! ### STYLUS -/

/-- What a firing sets in its channel group (R360). -/
def StyGroup.firingData (x : StyGroup) : BitVec 16 × Bool × Int × Bool × Bool × List (Nat × Bool × Nat) :=
  (x.seq, x.firing, x.instant, x.skipHold, x.delivered, x.judged)

/-- The firing data of the channel groups. -/
def State.styFirings (s : State) : List (BitVec 16 × Bool × Int × Bool × Bool × List (Nat × Bool × Nat)) :=
  s.sty.groups.map StyGroup.firingData

theorem State.updStyGroup_styFirings {f : StyGroup → StyGroup} (h : ∀ x, (f x).firingData = x.firingData) (g : Nat)
    (s : State) : (s.updStyGroup g f).styFirings = s.styFirings :=
  map_modify_same h _ _

theorem foldl_styFirings {α : Type} {f : State → α → State} (h : ∀ s a, (f s a).styFirings = s.styFirings) (l : List α)
    (s : State) : (l.foldl f s).styFirings = s.styFirings := by
  induction l generalizing s with
  | nil => rfl
  | cons a l ih => exact (ih _).trans (h s a)

theorem State.missSample_styFirings (c : ChanEntry) (s : State) : (s.missSample c).styFirings = s.styFirings := by
  unfold State.missSample
  dsimp only
  split <;> rfl

theorem State.updateChannel_styFirings (c : ChanEntry) (s : State) : (s.updateChannel c).styFirings = s.styFirings := by
  unfold State.updateChannel
  dsimp only
  (repeat' split) <;> rfl

theorem State.bindReference_styFirings (o : Outline) (g : Nat) (s : State) :
    (s.bindReference o g).styFirings = s.styFirings := by
  have hgroup : ∀ (v : Nat) (u : State), (u.updStyGroup g fun x => { x with refVer := some v }).styFirings = u.styFirings :=
    fun v => State.updStyGroup_styFirings (fun _ => by rfl) g
  unfold State.bindReference
  split
  · rfl
  · split
    · rfl
    · dsimp only
      split
      · split
        · rfl
        · exact hgroup _ s
      · exact (foldl_styFirings (fun _ _ => by rfl) _ _).trans
          ((State.updStyGroup_styFirings (fun _ => by rfl) g _).trans (hgroup _ s))

/-- A STYLUS firing begins in its group, with HOLD where PD_STYLUS is off (R360, R373). -/
theorem State.launchStylus_styFirings (k : Int) (e : RegEntry) (s : State) :
    (s.launchStylus k e).styFirings = (s.sty.groups.modify e.arg.toNat fun x =>
      { x with
        seq := x.seq + 1, firing := true, instant := k, delivered := false, skipHold := !s.stylusOn
        judged := [] }).map StyGroup.firingData := by
  unfold State.launchStylus
  dsimp only
  split
  · rfl
  · refine (foldl_styFirings (fun s c => s.updateChannel_styFirings c) _ _).trans ?_
    split
    · rfl
    · exact (State.updStyGroup_styFirings (fun _ => by rfl) _ _).trans
        ((foldl_styFirings (fun s c => s.missSample_styFirings c) _ _).trans (State.bindReference_styFirings _ _ _))

theorem exec_stylusLaunch_of_launches {s : State} {e : BitVec 12} {r : RegEntry} (h : s.Launches 4 e.toNat r) :
    exec (.stylusLaunch e) s = .next ((s.placeTaken e.toNat).launchStylus (s.instantOf r) r) := by
  rw [show exec (.stylusLaunch e) s = execStylusLaunch e s from rfl, execStylusLaunch, State.fire_launches h _ rfl,
    State.placeTaken_instantOf]

@[simp] theorem State.placeTaken_stylusOn (i : Nat) (s : State) : (s.placeTaken i).stylusOn = s.stylusOn := by
  simp [State.stylusOn]

theorem State.launchStylus_rgn (k : Int) (e : RegEntry) (s : State) : (s.launchStylus k e).rgn = s.rgn :=
  (State.launchStylus_same .rgn (by decide) k e s s).2 rfl

/-! ### PROOF -/

/-- What a firing sets in its rule set: the window, and the times that are counted from it (R414, R416). -/
def RuleSetState.firingData (x : RuleSetState) : List RuleFrame × Nat × Option Nat × Nat :=
  (x.window, x.busyUntil, x.wdiMin, x.holdEdges)

/-- A set whose window takes a frame, seen by what a firing sets. -/
theorem set_window_firingData {l : List RuleSetState} {n m : Nat} {f : RuleFrame} {r : RuleSetState}
    (h : r.firingData = RuleSetState.firingData { l.getD n {} with window := (f :: (l.getD n {}).window).take m }) :
    (l.set n r).map RuleSetState.firingData =
      (l.modify n fun r => { r with window := (f :: r.window).take m }).map RuleSetState.firingData := by
  refine List.ext_getElem? fun k => ?_
  rw [List.getElem?_map, List.getElem?_map, List.getElem?_set, List.getElem?_modify]
  by_cases hk : n = k
  · subst hk
    by_cases hlt : n < l.length
    · simp only [if_true, if_pos hlt, Option.map_eq_map, Option.map_some, h]
      simp [hlt]
    · simp [hlt]
  · simp [hk]

theorem State.proofStop_firingData (s : State) :
    s.proofStop.prf.sets.map RuleSetState.firingData = s.prf.sets.map RuleSetState.firingData :=
  List.map_map

/-- A frame joins the window of its set and of no other, whatever Proof does about it (R416, R421). -/
theorem State.closeFrame_firingData {s : State} {n : Nat} {rec : RuleSetRec} (fr : RuleFrame)
    (h : s.ruleSet n = some rec) :
    ∃ f, (s.closeFrame n fr).prf.sets.map RuleSetState.firingData =
      (s.prf.sets.modify n fun r => { r with window := (f :: r.window).take rec.m }).map RuleSetState.firingData := by
  refine ⟨{
    disagreed := fr.disagreed || (s.prf.sets.getD n {}).open_.disagreed
    action := max fr.action (s.prf.sets.getD n {}).open_.action }, ?_⟩
  unfold State.closeFrame
  rw [h]
  dsimp only
  split
  · split
    · exact (State.proofStop_firingData _).trans (set_window_firingData rfl)
    · split
      · exact set_window_firingData rfl
      · exact set_window_firingData rfl
  · exact set_window_firingData rfl

/-- A PROOF firing: a frame, the time for which the set is busy, and the counts that begin again (R416, R418). -/
theorem State.proofFiring_firingData {s : State} {n : Nat} {rec : RuleSetRec} (h : s.ruleSet n = some rec) :
    ∃ f, (s.proofFiring n).prf.sets.map RuleSetState.firingData =
      (s.prf.sets.modify n fun r => { r with
        window := (f :: r.window).take rec.m, busyUntil := s.edge + rec.bound, wdiMin := none, holdEdges := 0 }).map
        RuleSetState.firingData := by
  unfold State.proofFiring
  rw [h]
  dsimp -zeta only
  extract_lets held v f gates done mine s1
  have hprf : s1.prf = s.prf := (State.evalRules_same .prf (by decide) n rec.rules {} s s).2 rfl
  have hset : s1.ruleSet n = some rec := by
    have hotl : s1.otl = s.otl := (State.evalRules_same .otl (by decide) n rec.rules {} s s).2 rfl
    rw [← h, State.ruleSet, State.ruleSet, hotl]
  obtain ⟨g, hg⟩ := s1.closeFrame_firingData { disagreed := f.disagreed, action := f.action } hset
  refine ⟨g, ?_⟩
  have htimes := map_modify_of_map_eq (f := fun r : RuleSetState =>
    { r with busyUntil := done, wdiMin := none, holdEdges := 0 }) (k := fun x => (x.1, done, none, 0))
    (fun _ => rfl) hg n
  rw [hprf, List.modify_modify_eq] at htimes
  exact htimes

theorem exec_proofCheckLaunch_of_launches {s : State} {e : BitVec 12} {r : RegEntry} (h : s.Launches 5 e.toNat r)
    (hfree : (s.prf.sets.getD r.arg.toNat {}).busyUntil ≤ s.edge) :
    exec (.proofCheckLaunch e) s = .next ((s.placeTaken e.toNat).proofFiring r.arg.toNat) := by
  rw [show exec (.proofCheckLaunch e) s = execProofCheckLaunch e s from rfl, execProofCheckLaunch,
    State.fire_launches h _ (decide_eq_false (Nat.not_lt.2 hfree))]

/-! ### ETH_GATE -/

theorem State.ethPort_updPort {s : State} {p : Port} (f : EthPort → EthPort) (h : portNum p < s.eth.ports.length) :
    (s.updPort p f).ethPort p = f (s.ethPort p) :=
  getD_modify f h {}

theorem State.ethPort_updPort_ne {p q : Port} (f : EthPort → EthPort) (h : portNum q ≠ portNum p) (s : State) :
    (s.updPort p f).ethPort q = s.ethPort q :=
  getD_modify_ne f s.eth.ports h.symm {}

theorem State.updPort_updPort (p : Port) (f g : EthPort → EthPort) (s : State) :
    (s.updPort p f).updPort p g = s.updPort p (g ∘ f) := by
  simp only [State.updPort, List.modify_modify_eq]

/-- The port that has accrued its credit up to this edge (R382). -/
def EthPort.accrued (credit : List Int) (edge : Nat) (x : EthPort) : EthPort :=
  { x with credit := credit, creditEdge := edge }

/-- Only the credit of the port is new, so that a change of the port after it is one change (R382). -/
theorem State.updPort_accrue (p : Port) (f : EthPort → EthPort) (s : State) :
    ∃ credit, (s.accrue p).updPort p f = s.updPort p fun x => f (x.accrued credit s.edge) :=
  ⟨_, State.updPort_updPort p _ f s⟩

/-- The list of a port restarts, and no other port changes (R383). -/
theorem State.restartGates_effect (p : Port) (s : State) :
    (s.restartGates p).eth.ports.map (fun x => (x.gateIndex, x.gateEdge)) =
        (s.eth.ports.modify (portNum p) fun x => { x with gateIndex := 0, gateEdge := s.edge }).map
          (fun x => (x.gateIndex, x.gateEdge)) ∧
      ∀ q, portNum q ≠ portNum p → (s.restartGates p).ethPort q = s.ethPort q := by
  obtain ⟨credit, hport⟩ := s.updPort_accrue p fun x => { x with gateIndex := 0, gateEdge := s.edge }
  rw [State.restartGates, hport, State.updPort_eth]
  exact ⟨map_modify_congr (fun _ => by rfl) _ _, fun q hq => State.ethPort_updPort_ne _ hq s⟩

theorem exec_ethGateAnchor_of_launches {s : State} {e : BitVec 12} {r : RegEntry} (h : s.Launches 6 e.toNat r) :
    exec (.ethGateAnchor e) s = .next ((s.placeTaken e.toNat).restartGates (portOf r.unit)) := by
  rw [show exec (.ethGateAnchor e) s = execEthGateAnchor e s from rfl, execEthGateAnchor, State.fire_launches h _ rfl]

/-! ### TIER_PREFETCH -/

/-- References that a test does not name stay (R274). -/
theorem State.releaseRefs_of_none {s : State} {p : TierRef → Bool} (h : ∀ x ∈ s.tir.tierRefs, p x = false) :
    s.releaseRefs p = s := by
  have hgone : s.tir.tierRefs.filter p = [] := List.filter_eq_nil_iff.2 fun x hx => by simp [h x hx]
  have hkept : (s.tir.tierRefs.filter fun r => !p r) = s.tir.tierRefs :=
    List.filter_eq_self.2 fun x hx => by simp [h x hx]
  rw [State.releaseRefs, hgone, State.updTir, hkept]
  rfl

/-- The version of an identity that only one version has. -/
theorem State.version?_of_filter {s : State} {part ver : Nat} {obj : Word} {o : ObjVersion}
    (h : s.tir.objs.filter (isVer part obj ver) = [o]) : s.version? part obj ver = some o := by
  rw [State.version?, ← List.head?_filter, h, List.head?_cons]

/-- The versions with one more T2 reference on one of them. -/
def refTaken (part : Nat) (obj : Word) (ver : Nat) (l : List ObjVersion) : List ObjVersion :=
  l.map fun x => if isVer part obj ver x then { x with refsT2 := addRef x.refsT2 } else x

/-- A promotion has nothing to do for a version whose extents are all in T2 (R272). -/
theorem State.promoteT2_of_full {s : State} {part ver : Nat} {obj : Word} {o : ObjVersion}
    (h : s.version? part obj ver = some o) (hfull : o.full = true) : s.promoteT2 part obj ver = s := by
  rw [State.promoteT2, h]
  exact if_pos (.inl hfull)

/-- A prefetch of a version that is whole in T2 takes its reference for the entry (R264). -/
theorem State.prefetchNow_of_full {s : State} {i part : Nat} {obj : Word} {o : ObjVersion}
    (hrefs : (s.tir.tierRefs.all fun x => x.entry != some i) = true) (ho : s.newestOf part obj = some o)
    (hfull : o.full = true) (hone : s.tir.objs.filter (isVer o.part o.obj o.ver) = [o]) :
    Only [.counts, .tir] s (s.prefetchNow i part obj) ∧ (s.prefetchNow i part obj).tir = { s.tir with
      objs := refTaken o.part o.obj o.ver s.tir.objs
      tierRefs := s.tir.tierRefs ++ [{ entry := some i, part := o.part, obj := o.obj, ver := o.ver }] } := by
  have hnone : ∀ x ∈ s.tir.tierRefs, decide (x.entry = some i) = false := fun x hx => by
    simpa using List.all_eq_true.1 hrefs x hx
  rw [State.prefetchNow, State.releaseRefs_of_none hnone, State.prefetch, ho]
  dsimp only
  have htir : (s.takeRef 2 o.part o.obj o.ver).tir =
      { s.tir with objs := refTaken o.part o.obj o.ver s.tir.objs } := by
    simp only [State.takeRef, if_true]
    split <;> rfl
  rw [State.promoteT2_of_full (o := { o with refsT2 := addRef o.refsT2 }) ?_ hfull]
  · refine ⟨fun p hp => ?_, by rw [State.updTir_tir, htir]⟩
    simp only [List.mem_cons, List.not_mem_nil, or_false, not_or] at hp
    simp [hp]
  · have hver : isVer o.part o.obj o.ver o = true := by simp [isVer]
    rw [State.version?, State.updTir_tir, htir, refTaken, List.find?_map,
      show (isVer o.part o.obj o.ver ∘ fun x : ObjVersion =>
        if isVer o.part o.obj o.ver x then { x with refsT2 := addRef x.refsT2 } else x) = isVer o.part o.obj o.ver from ?_,
      show s.tir.objs.find? (isVer o.part o.obj o.ver) = some o from State.version?_of_filter hone]
    · simp [hver]
    · funext x
      simp only [Function.comp]
      split <;> rfl

theorem exec_tierPrefetch_of_launches {s : State} {e : BitVec 12} {r : RegEntry} (h : s.Launches 7 e.toNat r)
    (hwait : (s.rgn.tierWait.any fun x => x.1 = e.toNat) = false) :
    exec (.tierPrefetch e) s = .next ((s.placeTaken e.toNat).launchPrefetch e.toNat r) := by
  have hnone : s.rgn.tierWait.find? (·.1 = e.toNat) = none :=
    List.find?_eq_none.2 fun x hx => by simpa using List.any_eq_false.1 hwait x hx
  rw [show exec (.tierPrefetch e) s = execTierPrefetch e s from rfl, execTierPrefetch, hnone]
  exact congrArg Host.Outcome.next (State.fire_launches h _ rfl _)

/-! ### SELFTEST -/

@[simp] theorem State.placeTaken_nextSafety (i t : Nat) (s : State) : (s.placeTaken i).nextSafety t = s.nextSafety t := by
  simp [State.nextSafety, State.nextFiring, State.boundary, Rgn.launched]

@[simp] theorem State.placeTaken_slice (i u : Nat) (s : State) : (s.placeTaken i).slice u = s.slice u := by
  simp [State.slice]

@[simp] theorem State.placeTaken_xh (i : Nat) (s : State) : (s.placeTaken i).xh = s.xh :=
  (State.placeTaken_same .xh (by decide) i s s).2 rfl

@[simp] theorem State.placeTaken_trc (i : Nat) (s : State) : (s.placeTaken i).trc = s.trc :=
  (State.placeTaken_same .trc (by decide) i s s).2 rfl

@[simp] theorem State.placeTaken_sliceEntry (i u : Nat) (s : State) : (s.placeTaken i).sliceEntry u = s.sliceEntry u := by
  simp [State.sliceEntry]

theorem exec_selftestSlice_of_launches {s : State} {e : BitVec 12} {r : RegEntry} {x : SelftestEntry}
    (h : s.Launches 9 e.toNat r) (ha : r.action = 0) (hx : s.sliceEntry r.unit = some x) :
    exec (.selftestSlice e) s = .next ((s.placeTaken e.toNat).startSlice e.toNat r x) := by
  rw [show exec (.selftestSlice e) s = execSelftestSlice e s from rfl, execSelftestSlice, h.entry]
  dsimp only
  rw [if_pos ha, State.fire_launches h _ rfl, State.placeTaken_sliceEntry, hx]

theorem any_lt_of_all_le {o : Option Nat} {m : Nat} (h : o.all (fun n => decide (m ≤ n)) = true) :
    (o.any fun n => decide (n < m)) = false := by
  cases o with
  | none => rfl
  | some n => simpa using h

/-- A slice starts where no other of its unit runs and no safety launch is in its way; for the planner's, the query that
runs is paused (R356, R428). -/
theorem State.startSlice_of_free {s : State} {r : RegEntry} {x : SelftestEntry} (i : Nat)
    (hrun : (s.slice r.unit).running = false)
    (hsafe : (s.nextSafety (tickOf s.now + 1)).all (fun n => decide (tickOf s.now + x.sliceTicks ≤ n)) = true) :
    s.startSlice i r x =
      let s1 := s.updSlice r.unit fun y => { y with running := true, entry := i, endEdge := s.edge + x.sliceTicks }
      if r.unit = 6 then
        s1.updXh fun y => { y with run := y.run.map fun q => { q with paused := q.paused + x.sliceTicks } }
      else s1 := by
  have hlate := any_lt_of_all_le hsafe
  rw [State.startSlice]
  dsimp only
  rw [hlate, hrun]
  exact if_neg (by simp)
/-- A slice that has started, where its unit has slices at all. -/
theorem State.slice_started {s t : State} {u i n : Nat} (h : t.prf.slices = s.prf.slices.modify u fun y =>
    { y with running := true, entry := i, endEdge := n }) :
    (t.slice u).running = (s.prf.slices[u]?).isSome ∧ ((s.prf.slices[u]?).isSome = true → (t.slice u).endEdge = n) := by
  rw [State.slice, h, List.getD_eq_getElem?_getD, List.getElem?_modify_eq]
  cases s.prf.slices[u]? <;> simp

/-- Settles O13: each firing by what it does to the fields that the statement names. -/
theorem engineFiringsStartTheirWork : Obligations.EngineFiringsStartTheirWork := by
  unfold Obligations.EngineFiringsStartTheirWork
  refine ⟨fun s e r h hoff => ?_, fun s e r h hon => ?_, fun s e r rec h hfree hset hlt => ?_, fun s e r h => ?_,
    fun s e r p o h hwait hedge hp hrefs ho hfull hone => ?_, fun s e r p h hwait hedge hp => ?_,
    fun s e x o hx hedge hrefs ho hfull hone => ?_, fun s e r x h ha hx hunit hrun hsafe => ?_,
    fun s e r x q h ha hx hunit hrun hq hsafe => ?_⟩
  · have hstyle : (s.placeTaken e.toNat).launchStylus (s.instantOf r) r =
        (s.placeTaken e.toNat).updStyGroup r.arg.toNat fun x => { x with
          seq := x.seq + 1, firing := true, instant := s.instantOf r, delivered := false, skipHold := true
          judged := [] } := by
      simp [State.launchStylus, hoff]
    refine ⟨_, exec_stylusLaunch_of_launches h, ?_, (State.launchStylus_rgn _ _ _).trans (s.placeTaken_rgn _), ?_⟩
    · rw [hstyle]
      exact (s.placeTaken_only _).trans (qs := [.sty])
        (fun p hp => (State.updStyGroup_same p (by simpa using hp) _ _ _ _).2 (p.same_refl _)) (by simp) (by simp)
    · simp [hstyle, State.updStyGroup]
  · refine ⟨_, exec_stylusLaunch_of_launches h, ?_, (State.launchStylus_rgn _ _ _).trans (s.placeTaken_rgn _), ?_⟩
    · exact (s.placeTaken_only _).trans (qs := [.counts, .sty, .brn])
        (fun p hp => (State.launchStylus_same p (by simpa using hp) _ _ _ _).2 (p.same_refl _)) (by simp) (by simp)
    · have hfirings := State.launchStylus_styFirings (s.instantOf r) r (s.placeTaken e.toNat)
      rw [State.placeTaken_sty, State.placeTaken_stylusOn, hon] at hfirings
      exact hfirings
  · obtain ⟨f, hf⟩ := State.proofFiring_firingData (s := s.placeTaken e.toNat) (n := r.arg.toNat)
      (by simpa [State.ruleSet] using hset)
    rw [State.placeTaken_prf, State.placeTaken_edge] at hf
    refine ⟨_, f, exec_proofCheckLaunch_of_launches h hfree, ?_, ?_, ?_, ?_⟩
    · exact (s.placeTaken_only _).trans (qs := [.fresh, .counts, .sty, .prf, .brn])
        (fun p hp => (State.proofFiring_same p (by simpa using hp) _ _ _).2 (p.same_refl _)) (by simp) (by simp)
    · exact ((State.proofFiring_same .rgn (by decide) _ _ _).2 rfl).trans (s.placeTaken_rgn _)
    · have hwindow := congrArg Prod.fst (getD_of_map_eq hf r.arg.toNat {})
      rwa [getD_modify _ hlt] at hwindow
    · have htimes := congrArg (List.map Prod.snd) hf
      rw [List.map_map, List.map_map] at htimes
      exact htimes.trans (map_modify_congr (fun _ => by rfl) _ _)
  · obtain ⟨hgates, hothers⟩ := State.restartGates_effect (portOf r.unit) (s.placeTaken e.toNat)
    rw [State.placeTaken_eth, State.placeTaken_edge] at hgates
    refine ⟨_, exec_ethGateAnchor_of_launches h, ?_, ?_, hgates, fun q hq => (hothers q hq).trans ?_⟩
    · exact (s.placeTaken_only _).trans (qs := [.eth])
        (fun p hp => (State.restartGates_same p (by simpa using hp) _ _ _).2 (p.same_refl _)) (by simp) (by simp)
    · exact ((State.restartGates_same .rgn (by decide) _ _ _).2 rfl).trans (s.placeTaken_rgn _)
    · simp [State.ethPort]
  · obtain ⟨honly, htir⟩ := State.prefetchNow_of_full (s := s.placeTaken e.toNat) (i := e.toNat) (part := p.part)
      (obj := p.obj) (by simpa using hrefs) (by simpa [State.newestOf] using ho) hfull (by simpa using hone)
    have hlaunch : (s.placeTaken e.toNat).launchPrefetch e.toNat r =
        (s.placeTaken e.toNat).prefetchNow e.toNat p.part p.obj := by
      simp [State.launchPrefetch, hp, State.commonEdge, hedge]
    refine ⟨_, exec_tierPrefetch_of_launches h hwait, ?_, ?_, ?_⟩
    · rw [hlaunch]
      exact (s.placeTaken_only _).trans honly (by simp) (by simp)
    · rw [hlaunch]
      exact (honly .rgn (by decide)).trans (s.placeTaken_rgn _)
    · rw [hlaunch, htir, State.placeTaken_tir]
      rfl
  · have hlaunch : (s.placeTaken e.toNat).launchPrefetch e.toNat r =
        (s.placeTaken e.toNat).updRgn fun g => { g with tierWait := g.tierWait ++ [(e.toNat, p.part, p.obj)] } := by
      simp [State.launchPrefetch, hp, State.commonEdge, hedge]
    refine ⟨_, exec_tierPrefetch_of_launches h hwait, ?_, ?_⟩
    · rw [hlaunch]
      exact (s.placeTaken_only _).trans (qs := [.rgn])
        (fun p hp => (State.updRgn_same p (by simpa using hp) _ _ _).2 (p.same_refl _)) (by simp) (by simp)
    · simp [hlaunch, Rgn.launched]
  · have hentry : x.1 = e.toNat := by simpa using List.find?_some hx
    obtain ⟨honly, htir⟩ := State.prefetchNow_of_full
      (s := s.updRgn fun g => { g with tierWait := g.tierWait.erase x }) (i := x.1) (part := x.2.1) (obj := x.2.2)
      (by simpa [hentry] using hrefs) (by simpa [State.newestOf] using ho) hfull (by simpa using hone)
    have hexec : exec (.tierPrefetch e) s =
        .next ((s.updRgn fun g => { g with tierWait := g.tierWait.erase x }).prefetchNow x.1 x.2.1 x.2.2) := by
      rw [show exec (.tierPrefetch e) s = execTierPrefetch e s from rfl, execTierPrefetch, hx]
      simp [State.commonEdge, hedge]
    refine ⟨_, hexec, ?_, ?_, ?_⟩
    · exact Only.trans (ps := [.rgn])
        (fun p hp => (State.updRgn_same p (by simpa using hp) _ _ _).2 (p.same_refl _)) honly (by simp) (by simp)
    · exact honly .rgn (by decide)
    · rw [htir, hentry]
      rfl
  · have hstart : (s.placeTaken e.toNat).startSlice e.toNat r x = (s.placeTaken e.toNat).updSlice r.unit fun y =>
        { y with running := true, entry := e.toNat, endEdge := s.edge + x.sliceTicks } := by
      rw [State.startSlice_of_free _ (by simpa using hrun) (by simpa using hsafe)]
      simp [hunit]
    refine ⟨_, exec_selftestSlice_of_launches h ha hx, ?_, ?_, ?_⟩
    · rw [hstart]
      exact (s.placeTaken_only _).trans (qs := [.prf])
        (fun p hp => (State.updSlice_same p (by simpa using hp) _ _ _ _).2 (p.same_refl _)) (by simp) (by simp)
    · simp [hstart, State.updSlice]
    · simp [hstart, State.updSlice]
  · have hstart : (s.placeTaken e.toNat).startSlice e.toNat r x = ((s.placeTaken e.toNat).updSlice r.unit fun y =>
        { y with running := true, entry := e.toNat, endEdge := s.edge + x.sliceTicks }).updXh fun y =>
        { y with run := y.run.map fun q => { q with paused := q.paused + x.sliceTicks } } := by
      rw [State.startSlice_of_free _ (by simpa using hrun) (by simpa using hsafe)]
      simp [hunit]
    refine ⟨_, exec_selftestSlice_of_launches h ha hx, ?_, ?_, ?_, ?_, ?_⟩
    · rw [hstart]
      refine (s.placeTaken_only e.toNat).trans (qs := [.prf, .xh]) (fun p hp => ?_) (by simp) (by simp)
      simp only [List.mem_cons, List.not_mem_nil, or_false, not_or] at hp
      simp [hp]
    · simp [hstart, State.updSlice]
    · simp [hstart, State.updSlice, hq]
    · exact (State.slice_started (i := e.toNat) (n := s.edge + x.sliceTicks) (by rw [hstart, ← State.placeTaken_prf e.toNat s]; rfl)).1
    · exact (State.slice_started (i := e.toNat) (n := s.edge + x.sliceTicks) (by rw [hstart, ← State.placeTaken_prf e.toNat s]; rfl)).2

end Sys2Proof.Machine
end

section
/-!
PROOF. The firings that do not launch on their instant (R58 to R62, R520): a busy target, a full edge, a partition in
reset and a disabled entry each end a firing in one way; carried and deferred firings launch later.
-/

namespace Sys2Proof.Machine

open Sys2Proof

/-! ### How a firing ends without a launch -/

theorem State.dropDeferred_of_not_mem {i : Nat} {s : State} (h : i ∉ s.rgn.deferred) : s.dropDeferred i = s := by
  simp [State.dropDeferred, h]

theorem State.fire_of_disabled {tgt i : Nat} {s : State} (h : i ∈ s.rgn.disabled) (busy : RegEntry → Bool)
    (go : RegEntry → State → State) : s.fire tgt i busy go = s := by
  unfold State.fire
  cases s.regEntry i <;> simp [h]

/-- A firing that is due passes the first test of R56. -/
theorem State.fire_of_due {tgt i : Nat} {r : RegEntry} {s : State} (hr : s.regEntry i = some r)
    (hl : s.launching = true) (hv : r.valid = true) (ht : r.target = tgt) (hen : i ∉ s.rgn.disabled)
    (hreset : tgt = 6 ∨ tgt = 9 ∨ s.resetting r.part = false) (busy : RegEntry → Bool) (go : RegEntry → State → State) :
    s.fire tgt i busy go = if 4 ≤ s.rgn.launches then
        (s.dropDeferred i).updRgn fun g => { g with carried := g.carried ++ [(s.instantOf r, i)] }
      else if busy r then (s.dropDeferred i).lateFiring i r
      else go r ((s.dropDeferred i).updRgn fun g => { g with launches := g.launches + 1 }) := by
  have hgo : ¬ (r.target != 6 && r.target != 9 && s.resetting r.part) = true := by
    rw [ht]
    rcases hreset with h | h | h <;> simp [h]
  rw [State.fire, hr]
  simp [hl, hv, ht, hen, ht ▸ hgo]

/-- The target of the firing is busy (R58): its LATE policy says what becomes of it. -/
theorem State.fire_of_busy {tgt i : Nat} {r : RegEntry} {s : State} (h : s.Launches tgt i r) {busy : RegEntry → Bool}
    (hbusy : busy r = true) (go : RegEntry → State → State) :
    s.fire tgt i busy go = (s.dropDeferred i).lateFiring i r := by
  rw [State.fire_of_due h.entry h.launching h.valid h.target h.enabled h.part, if_neg (Nat.not_le.2 h.place),
    if_pos hbusy]

theorem State.fire_of_resetting {tgt i : Nat} {r : RegEntry} {s : State} (hr : s.regEntry i = some r)
    (hreset : s.resetting r.part = true) (hsup : s.supervised r.part = false) (hdef : i ∉ s.rgn.deferred)
    (h6 : tgt ≠ 6) (h9 : tgt ≠ 9) (busy : RegEntry → Bool) (go : RegEntry → State → State) :
    s.fire tgt i busy go = s := by
  rw [State.fire, hr]
  by_cases hdue : (!s.launching || !r.valid || r.target != tgt || s.rgn.disabled.contains i) = true
  · simp only [hdue, if_true]
  · have ht : r.target = tgt := by
      by_contra hne
      exact hdue (by simp [hne])
    simp only [hdue, Bool.false_eq_true, if_false, State.dropDeferred_of_not_mem hdef]
    simp [ht, h6, h9, hreset, State.entrySupervised, hsup]

theorem exec_coreJobLaunch_of_busy {s : State} {e : BitVec 12} {r : RegEntry} (h : s.Launches 1 e.toNat r)
    (hbusy : s.entryJob e.toNat = true) :
    exec (.coreJobLaunch e) s = .next ((s.dropDeferred e.toNat).lateFiring e.toNat r) := by
  rw [show exec (.coreJobLaunch e) s = execCoreJobLaunch e s from rfl, execCoreJobLaunch, State.fire_of_busy h hbusy]

/-! ### LATE (R59) -/

theorem State.lateFiring_drop {i : Nat} {r : RegEntry} {s : State} (h : r.late = 0) :
    s.lateFiring i r = s.bump .rgnLateDrop := by
  simp [State.lateFiring, h]

theorem State.lateFiring_defer {i : Nat} {r : RegEntry} {s : State} (h : r.late = 1) :
    s.lateFiring i r =
      (s.bump .rgnLateDefer).updRgn fun g => { g with deferred := g.deferred.filter (· != i) ++ [i] } := by
  simp [State.lateFiring, h]

theorem State.lateFiring_report {i : Nat} {r : RegEntry} {s : State} (h : r.late = 2)
    (hsup : s.supervised r.part = false) :
    s.lateFiring i r = (s.bump .rgnLateReport).report 0x0F 0 5 7 0x0060 (some r.part) 0 i := by
  simp [State.lateFiring, h, State.entrySupervised, hsup]

/-! ### Carried and deferred firings (R59, R520) -/

theorem State.launchLate_of_open {s : State} {i : Nat} {instant : Int} {r : RegEntry}
    (h : s.resetting r.part = false) :
    s.launchLate i instant r =
      (s.updRgn fun g => { g with launches := g.launches + 1 }).launchEntry i instant r := by
  simp [State.launchLate, State.refusedByReset, h]

theorem exec_carriedFiringLaunch_of_free {s : State} {x : Int × Nat} {rest : List (Int × Nat)} {r : RegEntry}
    (hc : s.rgn.carried = x :: rest) (hplace : s.placeFree = true) (hr : s.regEntry x.2 = some r)
    (hreset : s.resetting r.part = false) (hbusy : s.targetBusy x.2 r = false) :
    exec .carriedFiringLaunch s = .next ((s.updRgn fun g =>
      { g with carried := rest, launches := g.launches + 1 }).launchEntry x.2 x.1 r) := by
  rw [show exec .carriedFiringLaunch s = execCarriedFiringLaunch s from rfl, execCarriedFiringLaunch, hc]
  simp only [hplace, hr, hbusy, Bool.not_true, Bool.false_eq_true, if_false, and_false]
  rw [State.launchLate_of_open (by exact hreset)]
  rfl

theorem exec_deferredFiringLaunch_of_free {s : State} {e : BitVec 12} {r : RegEntry}
    (hr : s.regEntry e.toNat = some r) (hplace : s.placeFree = true) (hdef : e.toNat ∈ s.rgn.deferred)
    (hc : s.rgn.carried = []) (hreset : s.resetting r.part = false) (hbusy : s.targetBusy e.toNat r = false) :
    exec (.deferredFiringLaunch e) s = .next ((s.updRgn fun g =>
      { g with deferred := g.deferred.filter (· != e.toNat), launches := g.launches + 1 }).launchEntry e.toNat
        (s.instantOf r) r) := by
  rw [show exec (.deferredFiringLaunch e) s = execDeferredFiringLaunch e s from rfl, execDeferredFiringLaunch]
  simp only [hr, hplace, List.contains_iff_mem.2 hdef, hc, hbusy, List.isEmpty_nil, Bool.not_true, Bool.false_eq_true,
    or_self, if_false]
  rw [State.launchLate_of_open (by exact hreset)]
  rfl

/-! ### Disabling and enabling (R61, R494) -/

theorem State.entryWrite_of_open {s : State} {v : Word} {r : RegEntry} (hr : s.regEntry (fld v 11 0) = some r)
    (hv : r.valid = true) (hp : s.entryProtected r = false) (b : Bool) :
    s.entryWrite v b = s.updRgn fun g => { g with changes := g.changes ++ [(s.edge + 16, fld v 11 0, b)] } := by
  simp [State.entryWrite, hr, hv, hp]

theorem State.entryWrite_of_protected {s : State} {v : Word} {r : RegEntry} (hr : s.regEntry (fld v 11 0) = some r)
    (hv : r.valid = true) (hp : s.entryProtected r = true) (b : Bool) :
    s.entryWrite v b = s.bump .rgnProtectedWrite := by
  simp [State.entryWrite, hr, hv, hp]

theorem State.targetBusy_of_job {s : State} {i : Nat} {r : RegEntry} (ht : r.target = 1)
    (hj : s.entryJob i = false) : s.targetBusy i r = false := by
  simp [State.targetBusy, ht, hj]

/-- Settles O14: each way that a firing ends, and the launches that come later, by their lemmas. -/
theorem firingsThatDoNotLaunchNowFollowTheirPolicy : Obligations.FiringsThatDoNotLaunchNowFollowTheirPolicy := by
  unfold Obligations.FiringsThatDoNotLaunchNowFollowTheirPolicy
  refine ⟨fun s e r hr hl hv ht hen hreset hfull hdef => ?_, fun s e r h hbusy hlate hdef => ?_,
    fun s e r h hbusy hlate hdef => ?_, fun s e r h hbusy hlate hdef => ?_, fun s e r h hbusy hlate hsup hdef => ?_,
    fun s e h => congrArg _ (State.fire_of_disabled h _ _),
    fun s e r hr hreset hsup hdef =>
      congrArg _ (State.fire_of_resetting hr hreset hsup hdef (by decide) (by decide) _ _),
    fun s x rest r hc hplace hr ht hreset => ?_, fun s x rest r m hc hplace hr ht hreset hjob hm => ?_,
    fun s e r m hr ht hplace hdef hc hjob hreset hm => ?_,
    fun s v r hr hv hp => congrArg _ (State.entryWrite_of_open hr hv hp true),
    fun s v r hr hv hp => congrArg _ (State.entryWrite_of_open hr hv hp false),
    fun s v r hr hv hp => ⟨congrArg _ (State.entryWrite_of_protected hr hv hp true),
      congrArg _ (State.entryWrite_of_protected hr hv hp false)⟩⟩
  · rw [show exec (.coreJobLaunch e) s = execCoreJobLaunch e s from rfl, execCoreJobLaunch,
      State.fire_of_due hr hl hv ht hen (.inr (.inr hreset)), if_pos hfull, State.dropDeferred_of_not_mem hdef]
    rfl
  · rw [exec_coreJobLaunch_of_busy h hbusy, State.dropDeferred_of_not_mem hdef, State.lateFiring_drop hlate]
  · rw [exec_coreJobLaunch_of_busy h hbusy, State.lateFiring_defer hlate]
    have hdrop : s.dropDeferred e.toNat =
        (s.bump .rgnLateDrop).updRgn fun g => { g with deferred := g.deferred.filter (· != e.toNat) } :=
      if_pos (List.contains_iff_mem.2 hdef)
    have htwice : (s.rgn.deferred.filter (· != e.toNat)).filter (· != e.toNat) = s.rgn.deferred.filter (· != e.toNat) := by
      simp
    rw [hdrop, ← htwice]
    rfl
  · rw [exec_coreJobLaunch_of_busy h hbusy, State.dropDeferred_of_not_mem hdef, State.lateFiring_defer hlate]
    have hself : s.rgn.deferred.filter (· != e.toNat) = s.rgn.deferred :=
      List.filter_eq_self.2 fun x hx => by simpa using fun hi : x = e.toNat => hdef (hi ▸ hx)
    simp [State.updRgn, hself]
  · rw [exec_coreJobLaunch_of_busy h hbusy, State.dropDeferred_of_not_mem hdef, State.lateFiring_report hlate hsup]
  · rw [exec_carriedFiringLaunch_of_free hc hplace hr hreset (by simp [State.targetBusy, ht])]
    simp only [State.launchEntry, ht]
    rfl
  · rw [exec_carriedFiringLaunch_of_free hc hplace hr hreset (State.targetBusy_of_job ht hjob)]
    simp only [State.launchEntry, ht]
    rw [State.launchTemplate_of_template (x := m) _ _ (by exact hm)]
    rfl
  · rw [exec_deferredFiringLaunch_of_free hr hplace hdef hc hreset (State.targetBusy_of_job ht hjob)]
    simp only [State.launchEntry, ht]
    rw [State.launchTemplate_of_template (x := m) _ _ (by exact hm)]
    rfl

end Sys2Proof.Machine
end

section
/-!
PROOF. The pins of time (R66 to R69, R491, R492): PPS_OUT, PPS_IN, the captures of the input pins, and the outputs.
-/

namespace Sys2Proof.Machine

open Sys2Proof

/-- Changing the element that stands at an index sets it. -/
theorem modify_eq_set_of_getElem? {α : Type} {l : List α} {n : Nat} {x : α} (h : l[n]? = some x) (f : α → α) :
    l.modify n f = l.set n (f x) := by
  simp [List.modify_eq_set_getElem?, h]

/-! ### PPS_IN (R67) -/

theorem State.startSlew_slewRate_le (o : Int) (rate : Nat) (s : State) :
    (s.startSlew o rate).tb.slewRate.natAbs ≤ 1342177 := by
  simp only [State.startSlew, State.updTb, slewMax]
  split
  · simp
  · split <;> omega

theorem trimClamp_natAbs_le (x : Int) : (trimClamp x).natAbs ≤ 5368709 := by
  unfold trimClamp clampInt
  omega

/-- An edge 1 s +- 100 us after the last valid one is stamped (R67). -/
theorem execPpsInEdge_of_valid {s : State} {u : Int} {e : Nat} (h : s.tb.ppsLast = some (u, e))
    (hgap : (s.now - u - unitsSec).natAbs ≤ 100000 * 4294967296) :
    execPpsInEdge s = .next (
      let t := s.updTb fun b => { b with
        ppsLast := some (s.now, s.edge), ppsCap := compactOf s.now, ppsWatch := s.edge }
      if s.disciplines then
        (t.draw.2.draw.2.setTrim (trimClamp t.draw.1.toInt)).startSlew (-(secondPhase s.now))
          (1 + t.draw.2.draw.1.toNat % slewMax.toNat)
      else t) := by
  have hvalid : (s.tb.ppsLast.map fun l => s.now - l.1).any
      (fun g => decide ((g - unitsSec).natAbs ≤ ppsTolerance)) = true := by
    rw [h]
    exact decide_eq_true hgap
  simp only [execPpsInEdge, hvalid, Bool.true_or, if_true]
  rfl

theorem execPpsInEdge_of_early {s : State} {u : Int} {e : Nat} (h : s.tb.ppsLast = some (u, e))
    (hgap : s.now - u < unitsSec - 100000 * 4294967296) : execPpsInEdge s = .next (s.bump .tbPpsBad) := by
  have hvalid : ¬ (s.now - u - unitsSec).natAbs ≤ ppsTolerance := by
    rw [ppsTolerance]
    omega
  have hstale : ¬ unitsSec + ppsTolerance < s.now - u := by
    rw [ppsTolerance]
    omega
  simp [execPpsInEdge, h, hvalid, hstale]

theorem execPpsInEdge_of_stale {s : State}
    (h : ∀ u e, s.tb.ppsLast = some (u, e) → unitsSec + 100000 * 4294967296 < s.now - u) :
    execPpsInEdge s = .next ((s.updTb fun b => { b with ppsLast := some (s.now, s.edge) }).bump .tbPpsBad) := by
  cases hlast : s.tb.ppsLast with
  | none => simp [execPpsInEdge, hlast]
  | some l =>
    have hstale := h l.1 l.2 hlast
    have hlate : unitsSec + ppsTolerance < s.now - l.1 := by
      rw [ppsTolerance]
      omega
    have hvalid : ¬ (s.now - l.1 - unitsSec).natAbs ≤ ppsTolerance := by
      rw [ppsTolerance]
      omega
    simp [execPpsInEdge, hlast, hvalid, hlate]

/-! ### The captures (R68) -/

theorem State.filtered_iff {s : State} {q : GpioPin} {rising : Bool} :
    s.filtered q rising = true ↔
      q.level ≠ rising ∧ ∀ e, q.lastEdge = some e → e + s.regs.gpioFilter.toNat ≤ s.edge := by
  cases hl : q.lastEdge <;> simp [State.filtered, hl]

/-- A filtered edge on an input pin changes its level, and is stamped or counted. -/
theorem execGpioEdgeCapture_of_filtered {s : State} {pin : Fin 16} {rising : Bool} {q : GpioPin}
    (hq : s.tb.pins[pin.val]? = some q) (hdir : q.dir = .input) (hf : s.filtered q rising = true) :
    execGpioEdgeCapture pin rising s = .next (if q.fifo.length < 16 then
        s.updTb fun t => { t with
          pins := t.pins.set pin { q with
            level := rising, lastEdge := some s.edge, fifo := q.fifo ++ [(compactOf s.now, rising)] } }
      else (s.updTb fun t => { t with
        pins := t.pins.set pin { q with level := rising, lastEdge := some s.edge } }).bump (.tbGcapOvf pin)) := by
  have hget : s.tb.pins.getD pin {} = q := by simp [List.getD_eq_getElem?_getD, hq]
  have hset (x : GpioPin) : (s.tb.pins.set pin x)[pin.val]? = some x :=
    List.getElem?_set_self (List.getElem?_eq_some_iff.1 hq).1
  simp only [execGpioEdgeCapture, hget, hdir, hf, and_self, if_true]
  split <;> simp [State.updTb, State.now, modify_eq_set_of_getElem? hq, modify_eq_set_of_getElem? (hset _), hdir]

/-! ### Host outputs (R69, R491) -/

theorem hostMask_prefix (pins : List GpioPin) (i : Nat) : ∀ n ≤ 16,
    ((List.range n).foldl (fun m i => if (pins.getD i {}).dir = .host then m ||| (1#16 <<< i) else m)
      (0 : BitVec 16)).getLsbD i = (decide (i < n) && decide ((pins.getD i {}).dir = .host))
  | 0, _ => by simp
  | n + 1, hn => by
    have hbit : (1#16 <<< n).getLsbD i = decide (i = n) := by
      rw [BitVec.getLsbD_shiftLeft, BitVec.getLsbD_one]
      by_cases h : i = n
      · simp [h]
        omega
      · simp [h]
        omega
    rw [List.range_succ, List.foldl_append, List.foldl_cons, List.foldl_nil,
      apply_ite (fun m : BitVec 16 => m.getLsbD i), BitVec.getLsbD_or, hostMask_prefix pins i n (by omega), hbit]
    by_cases h : i = n
    · subst h
      simp
    · have hlt : i < n + 1 ↔ i < n := by omega
      simp only [h, hlt, decide_false, Bool.or_false, ite_self]

theorem hostMask_getLsbD (pins : List GpioPin) (i : Nat) :
    (hostMask pins).getLsbD i = (decide (i < 16) && decide ((pins.getD i {}).dir = .host)) :=
  hostMask_prefix pins i 16 (by omega)

/-- A write to TB_GPIO_OUT reaches the bits of host outputs only (R491). -/
theorem hostMask_write_getLsbD (g : BitVec 16) (v : Word) (pins : List GpioPin) (i : Nat) :
    ((g &&& ~~~hostMask pins) ||| (v.setWidth 16 &&& hostMask pins)).getLsbD i =
      if i < 16 ∧ (pins.getD i {}).dir = .host then bit v i else g.getLsbD i := by
  rw [BitVec.getLsbD_or, BitVec.getLsbD_and, BitVec.getLsbD_and, BitVec.getLsbD_not, hostMask_getLsbD,
    BitVec.getLsbD_setWidth, bit]
  by_cases hi : i < 16
  · by_cases hh : (pins.getD i {}).dir = .host <;> simp only [hi, hh] <;> simp
  · simp [hi, BitVec.getLsbD_of_ge g i (Nat.not_lt.1 hi)]

theorem driveHostPins_getElem? (bits : BitVec 16) (pins : List GpioPin) (i : Nat) :
    (driveHostPins bits pins)[i]? =
      pins[i]?.map fun q => if q.dir = .host then { q with level := bits.getLsbD i } else q := by
  simp [driveHostPins, List.getElem?_map, List.getElem?_zipIdx, Function.comp_def]

/-- Settles O16: each pin's command by the cases of its definition. -/
theorem pinsAreStampedAndDriven : Obligations.PinsAreStampedAndDriven := by
  unfold Obligations.PinsAreStampedAndDriven
  refine ⟨fun s hen hlow => ?_, fun s e h => ?_, fun s e he hle => ?_, fun s u e hlast hgap hd => ?_,
    fun s u e hlast hgap hd => ?_, fun s u e hlast hgap => execPpsInEdge_of_early hlast hgap,
    fun s h => execPpsInEdge_of_stale h, fun s hd hw => ?_, fun s pin rising q hq hdir hl hf hlen => ?_,
    fun s pin rising q hq hdir hl hf hlen => ?_, fun s pin rising q e hq h => ?_, fun s pin q hq => ?_,
    fun s v => ⟨_, rfl, ?_, rfl, fun i q hi hq hdir => ?_, fun i q hq hdir => ?_⟩, fun s pin q e hq he hle => ?_⟩
  · have hidle : s.tb.ppsHighUntil.any (fun e => decide (s.edge < e)) = false := by
      cases hp : s.tb.ppsHighUntil with
      | none => rfl
      | some e => simpa using hlow e hp
    show Host.Outcome.next s.ppsRise = _
    simp [State.ppsRise, hen, hidle, State.updTb, edgesUs]
  · show Host.Outcome.next s.ppsRise = _
    rcases h with h | ⟨h, hlt⟩
    · simp [State.ppsRise, h]
    · simp [State.ppsRise, h, hlt]
  · show execPpsOutFall s = _
    simp [execPpsOutFall, he, hle, State.updTb]
  · show execPpsInEdge s = _
    simp only [execPpsInEdge_of_valid hlast hgap, hd]
    rfl
  · refine ⟨_, execPpsInEdge_of_valid hlast hgap, ?_⟩
    simp only [hd, if_true]
    exact ⟨rfl, rfl, rfl, State.startSlew_slewRate_le _ _ _, trimClamp_natAbs_le _⟩
  · show execPpsLost s = _
    simp [execPpsLost, hd, edgesSec, hw, State.updTb]
  · exact (execGpioEdgeCapture_of_filtered hq hdir (State.filtered_iff.2 ⟨hl, hf⟩)).trans
      (congrArg _ (if_pos hlen))
  · exact (execGpioEdgeCapture_of_filtered hq hdir (State.filtered_iff.2 ⟨hl, hf⟩)).trans
      (congrArg _ (if_neg (Nat.not_lt.2 hlen)))
  · have hnone : ¬ (q.dir = .input ∧ s.filtered q rising = true) := by
      rw [State.filtered_iff]
      rintro ⟨hdir, hl, hf⟩
      rcases h with h | h | ⟨h, hlt⟩
      · exact h hdir
      · exact hl h
      · exact Nat.not_lt.2 (hf e h) hlt
    show execGpioEdgeCapture pin rising s = _
    simp [execGpioEdgeCapture, List.getD_eq_getElem?_getD, hq, hnone]
  · show execGcapPop pin s = _
    simp [execGcapPop, State.updTb, modify_eq_set_of_getElem? hq]
  · intro p hp
    simp only [List.mem_cons, List.not_mem_nil, or_false, not_or] at hp
    simp [hp]
  · have hget : (s.tb.pins.getD i {}).dir = .host := by simp [List.getD_eq_getElem?_getD, hq, hdir]
    constructor
    · exact (hostMask_write_getLsbD _ v _ i).trans (if_pos ⟨hi, hget⟩)
    · simp [State.updTb, State.updRegs, driveHostPins_getElem?, hq, hdir, hi, bit]
  · have hget : (s.tb.pins.getD i {}).dir ≠ .host := by simp [List.getD_eq_getElem?_getD, hq, hdir]
    constructor
    · exact (hostMask_write_getLsbD _ v _ i).trans (if_neg fun h => hget h.2)
    · simp [State.updTb, State.updRegs, driveHostPins_getElem?, hq, hdir]
  · show Host.Outcome.next (s.updPin pin _) = _
    simp [State.updPin, State.updTb, modify_eq_set_of_getElem? hq, he, hle]

end Sys2Proof.Machine
end

section
/-!
PROOF. The servo's law (R40, R44, R46, R47, R519): a step of local time, the following of an offset and the refusal of
one, each by what it does to the Timebase.
-/

namespace Sys2Proof.Machine

open Sys2Proof

/-! ### A step of local time (R49) -/

theorem State.ppsRise_tb (s : State) : ∃ high, s.ppsRise.tb = { s.tb with ppsHighUntil := high } := by
  unfold State.ppsRise
  split
  · exact ⟨_, rfl⟩
  · exact ⟨_, rfl⟩

theorem State.skipFirings_tb (a b : Nat) (s : State) : (s.skipFirings a b).tb = s.tb :=
  (State.skipFirings_same .tb (by decide) a b s s).2 rfl

/-- What a step leaves of the Timebase: the new time, no slew, and all else but PPS_OUT, the hold and the relayed Sync. -/
theorem State.stepTime_tb (d : Int) (s : State) : ∃ high hold relay, (s.stepTime d).tb = { s.tb with
    time := timeOfUnits (s.now + d), slewLeft := 0, slewRate := 0, relay := relay, ppsHighUntil := high
    stepHold := hold } := by
  unfold State.stepTime
  extract_lets t s1 from_ a z s2 s3
  by_cases hpos : 0 < d
  · have hs2 : s2.tb = s1.tb := by
      unfold s2
      split
      · rfl
      · split
        · split
          · exact State.skipFirings_tb _ _ _
          · exact State.skipFirings_tb _ _ _
        · exact State.skipFirings_tb _ _ _
    have hs3 : s3.tb = s1.tb := hs2
    rw [if_pos hpos]
    split
    · obtain ⟨high, h⟩ := s3.ppsRise_tb
      exact ⟨high, _, _, by rw [h, hs3]; rfl⟩
    · exact ⟨_, _, _, hs3⟩
  · rw [if_neg hpos]
    split
    · exact ⟨_, _, _, rfl⟩
    · exact ⟨_, _, _, rfl⟩

/-! ### The law (R519) -/

/-- An offset that is followed (R40, R45, R47, R519): the slew and the trim are set, and a run of Syncs within
TB_SYNC_THRESH, or beyond it, changes the state. -/
theorem State.followSync_tb (o trim : Int) (n : Nat) (s : State) :
    (s.followSync o trim n).tb.time = s.tb.time ∧ (s.followSync o trim n).tb.slewLeft = o ∧
      (s.followSync o trim n).tb.trim = trimClamp trim := by
  unfold State.followSync
  extract_lets
  split
  · exact ⟨rfl, rfl, rfl⟩
  · split <;> exact ⟨rfl, rfl, rfl⟩

theorem State.followSync_within {o : Int} {s : State} (trim : Int) (n : Nat) (hs : s.tb.state = .acquiring)
    (ho : o.natAbs ≤ s.regs.syncThresh.toNat * 4294967296) :
    (s.followSync o trim n).tb.within = s.tb.within + 1 ∧
      (s.followSync o trim n).tb.state = (if 8 ≤ s.tb.within + 1 then .locked else .acquiring) ∧
      (s.followSync o trim n).tb.everLocked = (s.tb.everLocked || decide (8 ≤ s.tb.within + 1)) := by
  by_cases h8 : 8 ≤ s.tb.within + 1
  · simp [State.followSync, State.ringSync, State.startSlew, State.setTrim, State.updTb, hs, ho, h8]
  · simp [State.followSync, State.startSlew, State.setTrim, State.updTb, hs, ho, h8]

theorem State.followSync_beyond {o : Int} {s : State} (trim : Int) (n : Nat) (hs : s.tb.state = .locked)
    (ho : s.regs.syncThresh.toNat * 4294967296 < o.natAbs) :
    (s.followSync o trim n).tb.state = (if 4 ≤ s.tb.beyond + 1 then .acquiring else .locked) := by
  by_cases h4 : 4 ≤ s.tb.beyond + 1
  · simp [State.followSync, State.enterAcquiring, State.startSlew, State.setTrim, State.updTb, hs, Nat.not_le.2 ho, h4]
  · simp [State.followSync, State.startSlew, State.setTrim, State.updTb, hs, Nat.not_le.2 ho, h4]

/-- Settles O17: the branches of the law by the states of the Timebase. -/
theorem syncsSteerTheClock : Obligations.SyncsSteerTheClock := by
  unfold Obligations.SyncsSteerTheClock
  refine ⟨fun s o trim n ha hs hstep => ?_, fun s o trim n ha hs hstep hever ho => ?_,
    fun s o trim n ha hs hlim ho => ?_, fun s o trim n ha hp hs hlim => ?_, fun s o trim n ha hp hs hlim => ?_,
    fun s o trim n ha hs hlim => ?_, fun s o trim n ha => ?_⟩
  · obtain ⟨high, hold, relay, ht⟩ := (s.updTb fun t => { t with offset := nsClamped o }).stepTime_tb o
    have hlaw : s.syncLaw o trim n =
        ((s.updTb fun t => { t with offset := nsClamped o }).stepTime o).updTb fun t => { t with stepped := true } := by
      simp [State.syncLaw, ha, hs, hstep]
    rw [hlaw]
    exact ⟨congrArg Tb.time ht, (congrArg Tb.state ht).trans hs, rfl, congrArg Tb.offset ht⟩
  · have hlaw : s.syncLaw o trim n = (s.updTb fun t => { t with offset := nsClamped o }).followSync o trim n := by
      simp [State.syncLaw, ha, hs, hstep, hever]
    obtain ⟨htime, hleft, htrim⟩ := (s.updTb fun t => { t with offset := nsClamped o }).followSync_tb o trim n
    obtain ⟨hwithin, hstate, hlocked⟩ :=
      State.followSync_within (s := s.updTb fun t => { t with offset := nsClamped o }) trim n hs ho
    rw [hlaw]
    exact ⟨htime, hleft, htrim, hwithin, hstate, hlocked.trans (by simp [State.updTb, hever])⟩
  · have hlaw : s.syncLaw o trim n = (s.updTb fun t => { t with offset := nsClamped o }).followSync o trim n := by
      simp [State.syncLaw, ha, hs, Nat.not_lt.2 hlim]
    obtain ⟨-, hleft, htrim⟩ := (s.updTb fun t => { t with offset := nsClamped o }).followSync_tb o trim n
    rw [hlaw]
    exact ⟨hleft, htrim, State.followSync_beyond (s := s.updTb fun t => { t with offset := nsClamped o }) trim n hs ho⟩
  · by_cases h2 : s.tb.outliers < 2
    · simp [State.syncLaw, State.refuseSync, State.updTb, ha, hp, hs, hlim, h2]
    · have h3 : ¬ s.tb.outliers + 1 < 3 := by omega
      simp only [State.syncLaw, State.refuseSync, State.updTb, ha, hp, hs, hlim, h2, h3, decide_true, if_true, if_false,
        Bool.false_eq_true]
      rfl
  · simp [State.syncLaw, State.refuseSync, State.updTb, unitsNs, ha, hp, hs, hlim]
  · by_cases h3 : 3 ≤ s.tb.rejoin + 1
    · simp [State.syncLaw, State.enterAcquiring, State.updTb, ha, hs, Nat.not_lt.2 hlim, h3]
    · simp [State.syncLaw, State.updTb, ha, hs, Nat.not_lt.2 hlim, h3]
  · obtain ⟨high, hold, relay, ht⟩ := (s.updTb fun t => { t with offset := nsClamped o }).stepTime_tb o
    have hlaw : s.syncLaw o trim n = (((s.updTb fun t => { t with offset := nsClamped o }).stepTime o).updTb
        fun t => { t with stepAccepted := false, stepPending := false }).enterAcquiring := by
      simp [State.syncLaw, ha]
    rw [hlaw]
    exact ⟨congrArg Tb.time ht, rfl, rfl, rfl⟩

end Sys2Proof.Machine
end

section
/-!
PROOF. gPTP (R40, R42, R43): a completed Sync reaches the servo's law, selection chooses the master, and each message of
a port is queued with its number.
-/

namespace Sys2Proof.Machine

open Sys2Proof

/-! ### A Sync and the offset (R42, R519) -/

theorem State.followSync_offset (o trim : Int) (n : Nat) (s : State) :
    (s.followSync o trim n).tb.offset = s.tb.offset := by
  unfold State.followSync
  extract_lets
  split
  · rfl
  · split <;> rfl

theorem State.refuseSync_offset (o : Int) (s : State) : (s.refuseSync o).tb.offset = s.tb.offset := by
  unfold State.refuseSync
  extract_lets
  split
  · rfl
  · split <;> rfl

theorem State.stepTime_offset (d : Int) (s : State) : (s.stepTime d).tb.offset = s.tb.offset := by
  obtain ⟨_, _, _, h⟩ := s.stepTime_tb d
  rw [h]

/-- In every state of the Timebase TB_OFFSET holds the offset of the latest Sync (R491). -/
theorem State.syncLaw_offset (o trim : Int) (n : Nat) (s : State) : (s.syncLaw o trim n).tb.offset = nsClamped o := by
  unfold State.syncLaw
  extract_lets s0 beyond
  split
  · exact s0.stepTime_offset o
  · split
    · split
      · exact s0.stepTime_offset o
      · split
        · exact s0.refuseSync_offset o
        · exact s0.followSync_offset o trim n
    · split
      · exact s0.refuseSync_offset o
      · exact s0.followSync_offset o trim n
    · split
      · exact s0.refuseSync_offset o
      · split <;> rfl
    · rfl
    · rfl

theorem State.sendGptp_tb (p : Port) (msgType seq : Nat) (logInterval correction : Int) (body : List Byte)
    (use_ : StampUse) (s : State) : (s.sendGptp p msgType seq logInterval correction body use_).tb = s.tb :=
  (State.sendGptp_same .tb (by decide) p msgType seq logInterval correction body use_ s s).2 rfl

theorem State.sendGptp_edge (p : Port) (msgType seq : Nat) (logInterval correction : Int) (body : List Byte)
    (use_ : StampUse) (s : State) : (s.sendGptp p msgType seq logInterval correction body use_).edge = s.edge :=
  (State.sendGptp_same .edge (by decide) p msgType seq logInterval correction body use_ s s).2 rfl

/-- What sending a Sync does to the Timebase: the number and the edge of its port. -/
theorem State.sendSync_tb (p : Port) (source : Option SyncSource) (s : State) :
    (s.sendSync p source).tb = { s.tb with ports := s.tb.ports.modify (portNum p) fun g =>
      { g with syncSeq := g.syncSeq + 1, txSyncEdge := s.edge } } := by
  simp only [State.sendSync, State.updGptp, State.updTb, State.sendGptp_tb, State.sendGptp_edge]

theorem State.relaySync_offset (p : Port) (s : State) : (s.relaySync p).tb.offset = s.tb.offset := by
  unfold State.relaySync
  split
  · rfl
  · rename_i x hx
    clear hx
    generalize allPorts.filter _ = l
    induction l generalizing s with
    | nil => rfl
    | cons q l ih => exact (ih (s.sendSync q (some x))).trans (by rw [State.sendSync_tb])

/-- A Sync that is complete gives its offset to the law and goes on to the other ports. -/
theorem State.syncComplete_effect (p : Port) (m : SyncMsg) (sec : BitVec 48) (ns : Nat) (correction rate : Int)
    (s : State) :
    Only [.counts, .tb, .rgn, .sty, .eth, .prf, .brn] s ((s.syncComplete p m sec ns correction rate).relaySync p) ∧
      ((s.syncComplete p m sec ns correction rate).relaySync p).tb.offset =
        nsClamped (s.syncOffset p m.rawStamp sec ns correction) := by
  refine ⟨fun q hq => ?_, (State.relaySync_offset p _).trans (State.syncLaw_offset _ _ _ _)⟩
  simp only [List.mem_cons, List.not_mem_nil, or_false, not_or] at hq
  simp [hq]

theorem State.gptpOn_of_capable {s : State} {p : Port} (h : s.gptpCapable p = true) :
    s.gptpOn p = true ∧ (s.gptpPort p).asCapable = true := by
  simpa [State.gptpCapable] using h

/-! ### The choice of the master (R42, R43) -/

theorem State.loseMaster_tb (s : State) :
    s.loseMaster.tb.time = s.tb.time ∧ s.loseMaster.tb.ports = s.tb.ports := by
  unfold State.loseMaster
  (repeat' split) <;> exact ⟨rfl, rfl⟩

/-- What selection leaves of the ports: it writes only the edge of the last Sync and the count of Syncs sent. -/
theorem State.reselect_ports {α : Type} {f : GptpPort → α}
    (hedge : ∀ g e, f { g with rxSyncEdge := e } = f g) (hsent : ∀ g n, f { g with syncsSent := n } = f g)
    (timeout : Bool) (s : State) : (s.reselect timeout).tb.ports.map f = s.tb.ports.map f := by
  have hsel := fun n => map_modify_same (hedge · s.edge) s.tb.ports n
  have hgm : (s.tb.ports.map fun g => { g with syncsSent := 0 }).map f = s.tb.ports.map f := by
    simp [Function.comp_def, hsent]
  unfold State.reselect
  split
  · dsimp only
    split
    · rfl
    · split <;> exact hsel _
  · dsimp only
    split
    · split
      · rfl
      · exact congrArg (List.map f) (State.loseMaster_tb _).2
    · split
      · exact hgm
      · split
        · exact congrArg (List.map f) (State.loseMaster_tb _).2
        · rfl

theorem State.reselect_time (timeout : Bool) (s : State) : (s.reselect timeout).tb.time = s.tb.time := by
  unfold State.reselect
  split
  · dsimp only
    split
    · rfl
    · split <;> simp only [State.enterAcquiring, State.updGptp, State.updTb]
  · dsimp only
    split
    · split
      · rfl
      · exact (State.loseMaster_tb _).1
    · split
      · rfl
      · split
        · exact (State.loseMaster_tb _).1
        · rfl

theorem State.reselect_only (timeout : Bool) (s : State) : Only [.tb] s (s.reselect timeout) :=
  fun p hp => (State.reselect_same p (by simpa using hp) timeout s s).2 (p.same_refl s)

theorem State.updGptp_only (p : Port) (f : GptpPort → GptpPort) (s : State) : Only [.tb] s (s.updGptp p f) :=
  fun q hq => (State.updGptp_same q (by simpa using hq) p f s s).2 (q.same_refl s)

/-- A write to a port and the selection after it. -/
theorem State.updGptp_reselect_only (p : Port) (f : GptpPort → GptpPort) (timeout : Bool) (s : State) :
    Only [.tb] s ((s.updGptp p f).reselect timeout) :=
  (s.updGptp_only p f).trans (State.reselect_only _ _) (by simp) (by simp)

theorem exec_syncReceiptTimeout_of_late {s : State} {p : Port} (h : s.syncLate p = true) :
    exec (.syncReceiptTimeout p) s =
      .next ((s.updGptp p fun g => { g with foreign := none, pendingSync := none }).reselect false) := by
  rw [show exec (.syncReceiptTimeout p) s = execSyncReceiptTimeout p s from rfl, execSyncReceiptTimeout, if_pos h]

theorem exec_announceReceiptTimeout_of_late {s : State} {p : Port} (h : s.announceLate p = true) :
    exec (.announceReceiptTimeout p) s =
      .next ((s.updGptp p fun g => { g with foreign := none, rxAnnounceEdge := s.edge }).reselect true) := by
  rw [show exec (.announceReceiptTimeout p) s = execAnnounceReceiptTimeout p s from rfl, execAnnounceReceiptTimeout,
    if_pos h]

theorem State.bestMaster_eq_none {s : State} (h : ∀ p, (s.gptpPort p).foreign = none) : s.bestMaster = none := by
  unfold State.bestMaster
  dsimp only
  simp only [h]
  rfl

theorem portNum_injective {p q : Port} (h : portNum p = portNum q) : p = q := by
  cases p <;> cases q <;> first | rfl | exact absurd h (by decide)

theorem State.gptpPort_updGptp_ne {p q : Port} (h : q ≠ p) (f : GptpPort → GptpPort) (s : State) :
    (s.updGptp p f).gptpPort q = s.gptpPort q :=
  getD_modify_ne f _ (fun hn => h (portNum_injective hn).symm) _

/-- A port that the table does not hold reads as the empty one. -/
theorem State.gptpPort_updGptp {f : GptpPort → GptpPort} (p : Port) (s : State) :
    (s.updGptp p f).gptpPort p = f (s.gptpPort p) ∨ (s.updGptp p f).gptpPort p = {} := by
  by_cases hlt : portNum p < s.tb.ports.length
  · exact .inl (getD_modify f hlt _)
  · exact .inr (List.getD_eq_default _ _ (by simpa [State.updGptp, State.updTb] using hlt))

/-- With the only master that was heard forgotten, there is none to select. -/
theorem State.bestMaster_forget {s : State} {p : Port} {f : GptpPort → GptpPort} (hf : ∀ g, (f g).foreign = none)
    (h : ∀ q, q ≠ p → (s.gptpPort q).foreign = none) : (s.updGptp p f).bestMaster = none := by
  refine State.bestMaster_eq_none fun q => ?_
  by_cases hq : q = p
  · subst hq
    rcases s.gptpPort_updGptp (f := f) q with hport | hport
    · rw [hport, hf]
    · rw [hport]
  · rw [State.gptpPort_updGptp_ne hq, h q hq]

/-! ### The messages of a port (R42) -/

theorem natBytesBE_one (x : Byte) : natBytesBE 1 x.toNat = [x] := by
  simp [natBytesBE, natBytes]

theorem GptpPort.unanswered_of_none {g : GptpPort} (h : g.pdelaySent = none) : g.unanswered = g := by
  simp [GptpPort.unanswered, h]

/-- A change that keeps the value that stands at an index. -/
theorem modify_eq_self {α : Type} {f : α → α} {l : List α} {n : Nat} (h : ∀ x, l[n]? = some x → f x = x) :
    l.modify n f = l := by
  refine List.ext_getElem? fun m => ?_
  rw [List.getElem?_modify]
  cases hx : l[m]? with
  | none => simp
  | some x =>
    by_cases hm : n = m
    · subst hm
      simp [h x hx]
    · simp [hm]

theorem State.sendPdelayReq_tb (p : Port) (s : State) :
    (s.sendPdelayReq p).tb = { s.tb with ports := s.tb.ports.modify (portNum p) fun g =>
      { g with pdelaySeq := (s.gptpPort p).pdelaySeq + 1, pdelaySent := none, txPdelayEdge := s.edge } } := by
  simp only [State.sendPdelayReq, State.updGptp, State.updTb, State.sendGptp_tb, State.sendGptp_edge]

/-- A grandmaster's Sync on a port, counted for the ring-synchronised point (R40). -/
def State.sendOwnSync (p : Port) (s : State) : State :=
  (s.sendSync p none).updGptp p fun g => { g with syncsSent := g.syncsSent + 1 }

theorem State.sendOwnSync_tb (p : Port) (s : State) :
    (s.sendOwnSync p).tb = { s.tb with ports := s.tb.ports.modify (portNum p) fun g =>
      { g with syncSeq := g.syncSeq + 1, txSyncEdge := s.edge, syncsSent := g.syncsSent + 1 } } := by
  simp only [State.sendOwnSync, State.updGptp, State.updTb, State.sendSync_tb, List.modify_modify_eq]
  rfl

theorem State.sendSync_only (p : Port) (source : Option SyncSource) (s : State) :
    Only [.tb, .eth] s (s.sendSync p source) := by
  intro q hq
  simp only [List.mem_cons, List.not_mem_nil, or_false, not_or] at hq
  simp [hq]

theorem State.sendOwnSync_only (p : Port) (s : State) : Only [.tb, .eth] s (s.sendOwnSync p) :=
  (s.sendSync_only p none).trans (State.updGptp_only p _ _) (by simp) (by simp)

/-- The Sync interval of a grandmaster (R40, R42): the 8th Sync of the port is the ring-synchronised point. -/
theorem exec_syncInterval_of_grandmaster {s : State} {p : Port} (hrole : s.portRole p = 1)
    (hs : s.tb.state = .grandmaster)
    (hdue : (s.gptpPort p).txSyncEdge + intervalEdges (s.netPort p).logSync ≤ s.edge) :
    exec (.syncInterval p) s = .next (
      if (!s.tb.everLocked) = true ∧ 8 ≤ ((s.sendOwnSync p).gptpPort p).syncsSent then (s.sendOwnSync p).ringSync
      else s.sendOwnSync p) := by
  have hdue' : s.syncDue p = true := by simp [State.syncDue, State.sendsSync, hrole, hs, hdue]
  rw [show exec (.syncInterval p) s = execSyncInterval p s from rfl, execSyncInterval, if_neg (by simp [hdue']),
    if_pos hs]
  rfl

/-- The Sync interval of a port that sends a master's time on at an interval of its own (R42). -/
theorem exec_syncInterval_of_relay {s : State} {p : Port} {x : SyncSource} (hrole : s.portRole p = 1)
    (hs : s.tb.state ≠ .grandmaster) (hx : s.tb.relay = some x) (hlog : x.logInterval ≠ (s.netPort p).logSync)
    (hdue : (s.gptpPort p).txSyncEdge + intervalEdges (s.netPort p).logSync ≤ s.edge) :
    exec (.syncInterval p) s = .next (s.sendSync p (some x)) := by
  have hdue' : s.syncDue p = true := by simp [State.syncDue, State.sendsSync, hrole, hx, hlog, hdue]
  rw [show exec (.syncInterval p) s = execSyncInterval p s from rfl, execSyncInterval, if_neg (by simp [hdue']),
    if_neg hs, hx]

/-- Settles O18: each message and each interval by the lemmas on what it sends and selects. -/
theorem gptpMessagesReachTheClockAndAreSent : Obligations.GptpMessagesReachTheClockAndAreSent := by
  unfold Obligations.GptpMessagesReachTheClockAndAreSent
  refine ⟨fun s p m hcap hdom hslave htwo => ?_, fun s p m hcap hdom hslave htwo => ?_, fun s p m hon hdom => ?_,
    fun s p m y hcap hdom hslave hy hseq => ?_, fun s p hslave hlate => ?_, fun s p hslave hlate => ?_,
    fun s p hlate hs hgm hall hever hother => ?_, fun s p m hcap hdom hid hsteps => ?_, fun s p hon hlate => ?_,
    fun s p hlate hgm hs hother => ?_, fun s p seq requester stamp hon => ?_,
    fun s p m g t1 hg ht1 hon hseq hlast hrate hcap => ?_, fun s p hon hdue hsent => ?_, fun s p hon hdue => ?_,
    fun s p hrole hs hdue => ?_, fun s p g hrole hs hdue hg h7 => ?_, fun s p x hrole hs hx hlog hdue => ?_,
    fun s p hrole hdue => ?_⟩
  · obtain ⟨hon, hasc⟩ := State.gptpOn_of_capable hcap
    refine ⟨_, ?_, s.syncComplete_effect p m m.originSec m.originNs m.correction m.rateOffset⟩
    show execSyncReceived p m s = _
    simp [execSyncReceived, hon, hdom, hasc, hslave, htwo]
  · obtain ⟨hon, hasc⟩ := State.gptpOn_of_capable hcap
    show execSyncReceived p m s = _
    simp [execSyncReceived, hon, hdom, hasc, hslave, htwo, State.updGptp, State.updTb]
  · show execSyncReceived p m s = _
    rw [execSyncReceived, if_neg (by simp [hon]), if_pos hdom]
  · obtain ⟨hon, hasc⟩ := State.gptpOn_of_capable hcap
    refine ⟨_, ?_, s.syncComplete_effect p y m.originSec m.originNs (y.correction + m.correction) m.rateOffset⟩
    show execFollowUpReceived p m s = _
    simp [execFollowUpReceived, hon, hdom, hasc, hslave, hy, hseq]
  · have hsync : s.syncLate p = true := by simp [State.syncLate, hslave, hlate]
    refine ⟨_, exec_syncReceiptTimeout_of_late hsync, State.updGptp_reselect_only _ _ _ _, State.reselect_time _ _, ?_⟩
    exact State.reselect_ports (fun _ _ => rfl) (fun _ _ => rfl) _ _
  · have hsync : s.syncLate p = false := by simp [State.syncLate, Nat.not_le.2 hlate]
    show execSyncReceiptTimeout p s = _
    simp [execSyncReceiptTimeout, hsync]
  · have hslave : s.tb.slave = some p := by
      have h := hlate
      simp only [State.syncLate, Bool.and_eq_true, decide_eq_true_eq] at h
      exact h.1
    have hbest := State.bestMaster_forget (f := fun g => { g with foreign := none, pendingSync := none })
      (fun _ => rfl) hother
    refine ⟨_, exec_syncReceiptTimeout_of_late hlate, ?_⟩
    have hlost : (s.updGptp p fun g => { g with foreign := none, pendingSync := none }).reselect false =
        ((s.updGptp p fun g => { g with foreign := none, pendingSync := none }).updTb fun t =>
          { t with slave := none, gm := none, relay := none }).loseMaster := by
      simp only [State.reselect, hbest]
      rw [if_neg (by simp [State.updGptp, State.updTb, hs]), if_neg, if_pos (by simp [State.updGptp, State.updTb, hslave])]
      rw [show (s.updGptp p fun g => { g with foreign := none, pendingSync := none }).allMaster = s.allMaster from rfl]
      simp [hall]
    rw [hlost]
    simp [State.loseMaster, State.watchPps, State.updGptp, State.updTb, hs, hever]
  · obtain ⟨hon, hasc⟩ := State.gptpOn_of_capable hcap
    refine ⟨((s.updGptp p fun g => { g with foreign := some m, rxAnnounceEdge := s.edge }).reselect false), ?_,
      State.updGptp_reselect_only _ _ _ _, ?_⟩
    · show execAnnounceReceived p m s = _
      rw [execAnnounceReceived, if_neg (by simp [hon]), if_neg (not_not.2 hdom), if_neg]
      rintro (h | h | h)
      · simp [hasc] at h
      · exact hid h
      · exact hsteps h
    · refine (State.reselect_ports (fun _ _ => rfl) (fun _ _ => rfl) _ _).trans ?_
      exact map_modify_congr (fun _ => by rfl) _ _
  · have hann : s.announceLate p = true := by simp [State.announceLate, hon, edgesSec, hlate]
    refine ⟨_, exec_announceReceiptTimeout_of_late hann, State.updGptp_reselect_only _ _ _ _, ?_⟩
    refine (State.reselect_ports (fun _ _ => rfl) (fun _ _ => rfl) _ _).trans ?_
    exact map_modify_congr (fun _ => by rfl) _ _
  · have hbest := State.bestMaster_forget (f := fun g => { g with foreign := none, rxAnnounceEdge := s.edge })
      (fun _ => rfl) hother
    refine ⟨_, exec_announceReceiptTimeout_of_late hlate, ?_⟩
    have hown : (s.updGptp p fun g => { g with foreign := none, rxAnnounceEdge := s.edge }).gmCapable = true := hgm
    simp only [State.reselect, hbest, hown]
    rw [if_neg (by simp [State.updGptp, State.updTb, hs]), if_pos (by simp)]
    exact ⟨rfl, rfl⟩
  · show execPdelayReqReceived p seq ⟨requester, stamp⟩ s = _
    simp [execPdelayReqReceived, hon]
  · have hport : s.gptpPort p = g := by simp [State.gptpPort, List.getD_eq_getElem?_getD, hg]
    show execPdelayRespReceived p m s = _
    simp [execPdelayRespReceived, hport, ht1, hon, hseq, hlast, hrate, hcap, State.updGptp, State.updTb,
      modify_eq_set_of_getElem? hg]
  · have hdue' : s.pdelayDue p = true := by simp [State.pdelayDue, hon, edgesSec, hdue]
    have hself : s.updGptp p GptpPort.unanswered = s := by
      have hports : s.tb.ports.modify (portNum p) GptpPort.unanswered = s.tb.ports :=
        modify_eq_self fun x hx => GptpPort.unanswered_of_none
          (by simpa [State.gptpPort, List.getD_eq_getElem?_getD, hx] using hsent)
      simp [State.updGptp, State.updTb, hports]
    have hcap : ((s.sendPdelayReq p).gptpPort p).asCapable = (s.gptpPort p).asCapable := by
      rw [State.gptpPort, State.sendPdelayReq_tb]
      exact getD_of_map_eq (map_modify_same (fun _ => by rfl) _ _) _ _
    refine ⟨s.sendPdelayReq p, ?_, fun q hq => ?_, rfl, s.sendPdelayReq_tb p⟩
    · show execPdelayInterval p s = _
      simp [execPdelayInterval, hdue', hself, hcap]
    · simp only [List.mem_cons, List.not_mem_nil, or_false, not_or] at hq
      simp [hq]
  · have hdue' : s.pdelayDue p = false := by simp [State.pdelayDue, edgesSec, Nat.not_le.2 hdue]
    show execPdelayInterval p s = _
    simp [execPdelayInterval, hdue']
  · refine ⟨_, exec_syncInterval_of_grandmaster hrole hs hdue, ?_⟩
    split
    · refine ⟨(s.sendOwnSync_only p).trans (qs := [.tb]) (fun q hq => ?_) (by simp) (by simp), rfl,
        congrArg Tb.ports (s.sendOwnSync_tb p)⟩
      exact (State.ringSync_same q (by simpa using hq) _ _).2 (q.same_refl _)
    · exact ⟨s.sendOwnSync_only p, rfl, congrArg Tb.ports (s.sendOwnSync_tb p)⟩
  · have hport : s.gptpPort p = g := by simp [State.gptpPort, List.getD_eq_getElem?_getD, hg]
    refine ⟨_, exec_syncInterval_of_grandmaster hrole hs (by rwa [hport]), ?_⟩
    split
    · rfl
    · next hnot =>
      have hcount : ((s.sendOwnSync p).gptpPort p).syncsSent = g.syncsSent + 1 := by
        rw [State.gptpPort, State.sendOwnSync_tb]
        simp [List.getD_eq_getElem?_getD, hg]
      have hever : s.tb.everLocked = true := by
        by_contra hlocked
        exact hnot ⟨by simpa using hlocked, by omega⟩
      rw [State.sendOwnSync_tb]
      exact hever
  · exact ⟨_, exec_syncInterval_of_relay hrole hs hx hlog hdue, s.sendSync_only p _, rfl,
      congrArg Tb.ports (s.sendSync_tb p _)⟩
  · have hann : s.announceDue p = true := by simp [State.announceDue, hrole, edgesSec, hdue]
    refine ⟨_, congrArg Host.Outcome.next (if_pos hann), fun q hq => ?_, ?_, ?_⟩
    · simp only [List.mem_cons, List.not_mem_nil, or_false, not_or] at hq
      simp [hq]
    · simp only [State.updGptp, State.updTb, State.sendGptp_tb]
    · simp only [natBytesBE_one]
      rfl

end Sys2Proof.Machine
end

section
/-!
PROOF. Queues, gates and transmission (R64, R377, R382, R383): each command by what it does to its port.
-/

namespace Sys2Proof.Machine

open Sys2Proof

/-! ### A port and its queue -/

/-- A port that the state does not hold reads as the empty one. -/
theorem State.ethPort_of_length_le {s : State} {p : Port} (h : s.eth.ports.length ≤ portNum p) : s.ethPort p = {} :=
  List.getD_eq_default _ _ h

theorem State.port_lt_of_txq {s : State} {p : Port} {f : TxFrame} (h : f ∈ (s.ethPort p).txq) :
    portNum p < s.eth.ports.length := by
  by_contra hlt
  rw [State.ethPort_of_length_le (Nat.le_of_not_lt hlt)] at h
  exact List.not_mem_nil h

theorem State.port_lt_of_link {s : State} {p : Port} (h : (s.ethPort p).link = true) :
    portNum p < s.eth.ports.length := by
  by_contra hlt
  rw [State.ethPort_of_length_le (Nat.le_of_not_lt hlt)] at h
  cases h

@[simp] theorem State.updPort_ports_length (p : Port) (f : EthPort → EthPort) (s : State) :
    (s.updPort p f).eth.ports.length = s.eth.ports.length :=
  List.length_modify ..

@[simp] theorem State.accrue_ports_length (p : Port) (s : State) :
    (s.accrue p).eth.ports.length = s.eth.ports.length :=
  State.updPort_ports_length ..

/-- Accruing credit writes the credit of the port and its edge only (R382). -/
theorem State.ethPort_accrue {s : State} {p : Port} (h : portNum p < s.eth.ports.length) :
    ∃ credit, (s.accrue p).ethPort p = (s.ethPort p).accrued credit s.edge :=
  ⟨_, State.ethPort_updPort _ h⟩

/-- A change of a port after its credit has accrued. -/
theorem State.ethPort_updPort_accrue {s : State} {p : Port} (h : portNum p < s.eth.ports.length)
    (f : EthPort → EthPort) :
    ∃ credit, ((s.accrue p).updPort p f).ethPort p = f ((s.ethPort p).accrued credit s.edge) := by
  obtain ⟨credit, hport⟩ := s.updPort_accrue p f
  exact ⟨credit, by rw [hport]; exact State.ethPort_updPort _ h⟩

theorem State.updPort_accrue_only (p : Port) (f : EthPort → EthPort) (s : State) :
    Only [.eth] s ((s.accrue p).updPort p f) := by
  intro q hq
  simp only [List.mem_cons, List.not_mem_nil, or_false] at hq
  simp [hq]

/-- A frame that is queued joins the end of its port's queue with the next number. -/
theorem State.ethPort_queueFrame {s : State} {p : Port} (f : TxFrame) (h : portNum p < s.eth.ports.length) :
    ∃ credit, (s.queueFrame p f).ethPort p = { (s.ethPort p).accrued credit s.edge with
      txq := (s.ethPort p).txq ++ [{ f with id := s.eth.nextFrame, queuedEdge := s.edge }] } := by
  obtain ⟨credit, hport⟩ := State.ethPort_accrue h
  refine ⟨credit, (State.ethPort_updPort _ (by simpa using h)).trans ?_⟩
  rw [show ({ s.accrue p with eth := { (s.accrue p).eth with nextFrame := s.eth.nextFrame + 1 } } : State).ethPort p =
    (s.accrue p).ethPort p from rfl, hport]
  rfl

/-! ### Transmission (R50, R382, R383) -/

/-- The first number from the top that passes a test is the highest that does. -/
theorem find?_highest {q : Nat → Bool} {c : Nat} (hq : q c = true) : ∀ {n : Nat}, c < n →
    (∀ d, c < d → d < n → q d = false) → (List.range n).reverse.find? q = some c
  | n + 1, hc, hmax => by
    rw [List.range_succ, List.reverse_append, List.reverse_singleton, List.singleton_append]
    rcases Nat.lt_succ_iff_lt_or_eq.1 hc with hlt | rfl
    · rw [List.find?_cons_of_neg (by simp [hmax n hlt (Nat.lt_succ_self n)])]
      exact find?_highest hq hlt fun d hd hdn => hmax d hd (Nat.lt_succ_of_lt hdn)
    · exact List.find?_cons_of_pos hq

/-- The frame that leaves: the oldest of the highest class that may start (R383). -/
theorem find?_heads {l : List TxFrame} {start : TxFrame → Bool} {c : Nat} {f : TxFrame} (hc : c ≤ 7)
    (hf : l.find? (·.tc = c) = some f) (hstart : start f = true)
    (hmax : ∀ d f', c < d → d ≤ 7 → l.find? (·.tc = d) = some f' → start f' = false) :
    ([7, 6, 5, 4, 3, 2, 1, 0].filterMap fun d => l.find? (·.tc = d)).find? start = some f := by
  have hclass : [7, 6, 5, 4, 3, 2, 1, 0].find? (fun d => (l.find? (·.tc = d)).any start) = some c := by
    refine find?_highest (n := 8) (by simp [hf, hstart]) (Nat.lt_succ_of_le hc) fun d hd hd8 => ?_
    cases hd' : l.find? (·.tc = d) with
    | none => rfl
    | some f' => exact hmax d f' hd (Nat.le_of_lt_succ hd8) hd'
  rw [List.find?_filterMap, hclass]
  exact hf

/-- What a frame's send stamp is for queues at most one more frame, and leaves the stamp and the medium (R42, R50). -/
theorem State.ethPort_stampSent {s : State} {p : Port} (u : StampUse) (t : Int) (h : portNum p < s.eth.ports.length) :
    ∃ more, ((s.stampSent p u t).ethPort p).txq = (s.ethPort p).txq ++ more ∧ more.length ≤ 1 ∧
      (u = .none_ → more = []) ∧ ((s.stampSent p u t).ethPort p).txStamp = (s.ethPort p).txStamp ∧
      ((s.stampSent p u t).ethPort p).busyUntil = (s.ethPort p).busyUntil := by
  have hqueue (f : TxFrame) : ∃ more, ((s.queueFrame p f).ethPort p).txq = (s.ethPort p).txq ++ more ∧
      more.length ≤ 1 ∧ ((s.queueFrame p f).ethPort p).txStamp = (s.ethPort p).txStamp ∧
      ((s.queueFrame p f).ethPort p).busyUntil = (s.ethPort p).busyUntil := by
    obtain ⟨credit, hport⟩ := State.ethPort_queueFrame f h
    rw [hport]
    exact ⟨_, rfl, Nat.le_refl 1, rfl, rfl⟩
  cases u with
  | none_ => exact ⟨[], (List.append_nil _).symm, Nat.zero_le 1, fun _ => rfl, rfl, rfl⟩
  | pdelayReq => exact ⟨[], (List.append_nil _).symm, Nat.zero_le 1, fun _ => rfl, rfl, rfl⟩
  | pdelayResp seq requester =>
    obtain ⟨more, htxq, hlen, hrest⟩ := hqueue _
    exact ⟨more, htxq, hlen, nofun, hrest⟩
  | sync seq source =>
    cases source with
    | none =>
      obtain ⟨more, htxq, hlen, hrest⟩ := hqueue _
      exact ⟨more, htxq, hlen, nofun, hrest⟩
    | some x =>
      obtain ⟨more, htxq, hlen, hrest⟩ := hqueue _
      exact ⟨more, htxq, hlen, nofun, hrest⟩

theorem State.stampSent_counts (p : Port) (u : StampUse) (t : Int) (s : State) :
    (s.stampSent p u t).counts = s.counts :=
  (State.stampSent_same .counts (by decide) p u t s s).2 rfl

/-- The port that a frame has left after `ticks` on the medium (R50, R382, R383). -/
def EthPort.sent (f : TxFrame) (edge : Nat) (stamp : Int) (ticks : Nat) (express shaped : Bool) (x : EthPort) : EthPort :=
  { x with
    txq := x.txq.filter (·.id != f.id)
    txStamp := stamp
    busyUntil := max edge x.busyUntil + ticks
    expressUntil :=
      if express then edge + ticks else x.expressUntil
    credit :=
      if shaped then x.credit.modify f.tc (· - (160 * wireBits f.bytes.length : Nat)) else x.credit }

/-- The send stamp of a frame that leaves a port now (R50). -/
def State.sendStamp (s : State) (p : Port) : Int :=
  s.now + (Config.egressDelay s.fresh : Int) + txCorrection (s.ethPort p).speed

/-- The state in which a frame has left its port, before its stamp serves. -/
def State.frameSent (p : Port) (f : TxFrame) (s : State) : State :=
  (({ s.accrue p with fresh := (s.accrue p).fresh + 1 } : State).updPort p (EthPort.sent f s.edge (s.sendStamp p)
    (wireTicks (s.ethPort p).speed (wireBits f.bytes.length)) ((s.accrue p).express p f.tc)
    ((s.accrue p).shaped p f.tc))).bump (.ethTxFrames p)

theorem State.ethPort_frameSent {s : State} {p : Port} (f : TxFrame) (h : portNum p < s.eth.ports.length) :
    ((s.frameSent p f).ethPort p).txq = (s.ethPort p).txq.filter (·.id != f.id) ∧
      ((s.frameSent p f).ethPort p).txStamp = s.sendStamp p ∧
      ((s.frameSent p f).ethPort p).busyUntil =
        max s.edge (s.ethPort p).busyUntil + wireTicks (s.ethPort p).speed (wireBits f.bytes.length) := by
  obtain ⟨credit, hport⟩ := State.ethPort_accrue h
  have hsent : (s.frameSent p f).ethPort p = EthPort.sent f s.edge (s.sendStamp p)
      (wireTicks (s.ethPort p).speed (wireBits f.bytes.length)) ((s.accrue p).express p f.tc)
      ((s.accrue p).shaped p f.tc) ((s.accrue p).ethPort p) :=
    State.ethPort_updPort _ (by simpa using h)
  rw [hsent, hport]
  exact ⟨rfl, rfl, rfl⟩

theorem exec_frameTransmit_of_head {s : State} {p : Port} {c : Nat} {f : TxFrame} (hlink : (s.ethPort p).link = true)
    (hc : c ≤ 7) (hf : (s.ethPort p).txq.find? (·.tc = c) = some f) (hstart : (s.accrue p).mayStart p f = true)
    (hmax : ∀ d f', c < d → d ≤ 7 → (s.ethPort p).txq.find? (·.tc = d) = some f' →
      (s.accrue p).mayStart p f' = false) :
    exec (.frameTransmit p) s = .next ((s.frameSent p f).stampSent p f.stampUse (s.sendStamp p)) := by
  obtain ⟨credit, hport⟩ := State.ethPort_accrue (State.port_lt_of_link hlink)
  have hlink' : ((s.accrue p).ethPort p).link = true := by rw [hport]; exact hlink
  have hspeed : ((s.accrue p).ethPort p).speed = (s.ethPort p).speed := by rw [hport]; rfl
  have htxq : ((s.accrue p).ethPort p).txq = (s.ethPort p).txq := by rw [hport]; rfl
  have hheads := find?_heads hc hf hstart hmax
  rw [← htxq] at hheads
  rw [show exec (.frameTransmit p) s = execFrameTransmit p s from rfl, execFrameTransmit]
  simp only [hlink', hheads, hspeed, Bool.not_true, Bool.false_eq_true, if_false]
  rfl

/-- Settles O43: each command by its change of the port. -/
theorem framesAreQueuedGatedAndSent : Obligations.FramesAreQueuedGatedAndSent := by
  unfold Obligations.FramesAreQueuedGatedAndSent
  refine ⟨fun s p f h => ?_, fun s p g hg hne h hdue => ?_, fun s p c f hlink hc hf hstart hmax => ?_,
    fun s p n f hf hclosed hw => ?_, fun s p n f hf hclosed hw hlink => ?_, fun s p hlink => ?_⟩
  · obtain ⟨credit, hport⟩ := State.ethPort_queueFrame f h
    rw [hport]
  · obtain ⟨credit, hport⟩ := State.ethPort_updPort_accrue h fun x => { x with
      gateIndex := (x.gateIndex + 1) % g.entries.length
      gateEdge := (s.ethPort p).gateEdge + (g.entries.getD (s.ethPort p).gateIndex {}).interval }
    refine ⟨_, ?_, s.updPort_accrue_only p _, congrArg EthPort.gateIndex hport, congrArg EthPort.gateEdge hport,
      by rw [hport]; rfl⟩
    show execGateListAdvance p s = _
    simp only [execGateListAdvance, hg]
    rw [if_neg (not_or.2 ⟨by simpa using hne, Nat.not_lt.2 hdue⟩)]
  · have hlt := State.port_lt_of_link hlink
    obtain ⟨htxq, hstamp, hbusy⟩ := State.ethPort_frameSent f hlt
    obtain ⟨more, htxq', hlen, hnone, hstamp', hbusy'⟩ := State.ethPort_stampSent (s := s.frameSent p f) (p := p)
      f.stampUse (s.sendStamp p) (by simpa [State.frameSent] using hlt)
    refine ⟨_, more, exec_frameTransmit_of_head hlink hc hf hstart hmax, fun q hq => ?_, by rw [htxq', htxq], hlen, hnone,
      hstamp'.trans hstamp, hbusy'.trans hbusy, State.stampSent_counts _ _ _ _⟩
    simp only [List.mem_cons, List.not_mem_nil, or_false, not_or] at hq
    simp [hq, State.frameSent]
  · have hlt := State.port_lt_of_txq (List.mem_of_find?_eq_some hf)
    obtain ⟨credit, hport⟩ := State.ethPort_updPort_accrue hlt fun x => { x with txq := x.txq.filter (·.id != n) }
    refine ⟨(s.dropQueued p n).bump .ethGateMiss, ?_, ?_, congrArg EthPort.txq hport, rfl⟩
    · show execGateWindowClose p n s = _
      simp [execGateWindowClose, hf, hclosed, hw]
    · exact (s.updPort_accrue_only p _).trans (qs := [.counts])
        (fun q hq => (State.bump_same q (by simpa using hq) _ _ _).2 (q.same_refl _)) (by simp) (by simp)
  · have hlt := State.port_lt_of_txq (List.mem_of_find?_eq_some hf)
    obtain ⟨credit, hport⟩ := State.ethPort_updPort_accrue hlt fun x => { x with txq := x.txq.filter (·.id != n) }
    refine ⟨s.dropQueued p n, ?_, s.updPort_accrue_only p _, congrArg EthPort.txq hport⟩
    show execGateWindowClose p n s = _
    simp [execGateWindowClose, hf, hclosed, hw, hlink]
  · refine ⟨_, ?_, s.updPort_accrue_only p fun x => { x with txq := x.txq.filter fun f => !s.heldTooLong p f }, ?_⟩
    · show execDownLinkDiscard p s = _
      simp [execDownLinkDiscard, hlink]
    · have hheld : (fun f => !s.heldTooLong p f) = fun f : TxFrame =>
          f.window.isSome || s.windows p f.tc || decide (s.edge < f.queuedEdge + 160000) := by
        funext f
        have hage : (!decide (f.queuedEdge + edgesMs ≤ s.edge)) = decide (s.edge < f.queuedEdge + 160000) := by
          rw [← decide_not]
          exact decide_eq_decide.2 Nat.not_le
        simp only [State.heldTooLong, Bool.not_and, Bool.not_not, Option.not_isNone, hage]
      by_cases hlt : portNum p < s.eth.ports.length
      · obtain ⟨credit, hport⟩ := State.ethPort_updPort_accrue hlt fun x =>
          { x with txq := x.txq.filter fun f => !s.heldTooLong p f }
        rw [hport, ← hheld]
        rfl
      · rw [State.ethPort_of_length_le (by simpa using hlt), State.ethPort_of_length_le (by simpa using hlt)]
        rfl

end Sys2Proof.Machine
end

section
/-!
PROOF. Jobs in the job list (R150, R157, R159): what an update of one leaves, which jobs are left when one has ended, and
how a descriptor that was issued acts.
-/

namespace Sys2Proof.Machine

open Sys2Proof

/-! ### A job by its ID -/

theorem State.id_of_job? {s : State} {id : Word} {j : Job} (h : s.job? id = some j) : j.id = id := by
  simpa using List.find?_some h

/-- An update of the jobs of one ID that keeps the ID is seen through a look-up. -/
theorem State.job?_updJob {f : Job → Job} (hf : ∀ x, (f x).id = x.id) (id k : Word) (s : State) :
    (s.updJob id f).job? k = (s.job? k).map fun x => if x.id = id then f x else x := by
  have hid (x : Job) : (if x.id = id then f x else x).id = x.id := by
    split
    · exact hf x
    · rfl
  simp only [State.job?, State.updJob, State.updJobs, List.find?_map, Function.comp_def, hid]

theorem State.job?_updJob_of_job? {f : Job → Job} (hf : ∀ x, (f x).id = x.id) {s : State} {id : Word} {j : Job}
    (h : s.job? id = some j) : (s.updJob id f).job? id = some (f j) := by
  rw [State.job?_updJob hf, h, Option.map_some, if_pos (State.id_of_job? h)]

theorem State.job?_updFlight {s : State} {id : Word} {j : Job} (h : s.job? id = some j) (slot index : Nat)
    (f : InFlight → InFlight) :
    (s.updFlight id slot index f).job? id = some { j with slots := j.slots.modify slot fun x =>
      { x with inFlight := x.inFlight.map fun i => if i.index = index then f i else i } } :=
  State.job?_updJob_of_job? (fun _ => by rfl) h

theorem Job.put_id (j : Job) (slot : Nat) (id : Word) (hi : Nat) (f : Memory → Memory) :
    (j.put slot id hi f).id = j.id := by
  unfold Job.put
  split <;> rfl

/-! ### A descriptor that was issued -/

/-- The descriptor that acts is one of its slot (R120). -/
theorem Job.mem_of_ready {j : Job} {slot op : Nat} {p : Descriptor → Bool} {i : InFlight}
    (h : j.ready slot op p = some i) : i ∈ (j.slots.getD slot {}).inFlight := by
  unfold Job.ready at h
  split at h
  · exact List.mem_of_find?_eq_some h
  · cases h

theorem State.act_of_issued {s : State} {job : Word} {slot : Fin 32} {op : Nat} {p : Descriptor → Bool} {j : Job}
    {i : InFlight} (h : s.Issued job slot op p j i) (f : Job → InFlight → State → State) :
    s.act job slot op p f = f j i s := by
  obtain ⟨hjob, hcore, hready⟩ := h
  have hcore' : ¬ (s.core ((j.slots.getD slot {}).core)).state = .waitWeights := hcore
  simp only [State.act, hjob, hready, if_neg hcore']

/-- A descriptor that waits after it was issued. -/
theorem State.waits_of_updFlight {s : State} {job : Word} {slot : Fin 32} {j : Job} {i : InFlight}
    (hjob : s.job? job = some j) (hi : i ∈ (j.slots.getD slot {}).inFlight) :
    (s.updFlight job slot i.index fun x => { x with stage := .waiting }).Waits job slot i i.work.tiles := by
  have hlt : slot.val < j.slots.length := by
    by_contra hge
    rw [List.getD_eq_default _ _ (Nat.le_of_not_lt hge)] at hi
    exact List.not_mem_nil hi
  refine ⟨_, State.job?_updFlight hjob slot i.index _, { i with stage := .waiting }, ?_, rfl, rfl, rfl, rfl⟩
  rw [getD_modify _ hlt]
  exact List.mem_map.2 ⟨i, hi, if_pos rfl⟩

/-! ### The end of a job (R157 to R159) -/

theorem State.sendTo_jobs (i : Nat) (b : LimBody) (s : State) : (s.sendTo i b).jobs = s.jobs :=
  (State.sendTo_same .jobs (by decide) i b s s).2 rfl

theorem State.sendWhere_jobs (p : Session → Bool) (b : LimBody) (s : State) : (s.sendWhere p b).jobs = s.jobs :=
  (State.sendWhere_same .jobs (by decide) p b s s).2 rfl

/-- A completion record changes no job. -/
theorem State.toQueue_list (p : Nat) (r : CompRecord) (s : State) : (s.toQueue p r).jobs.list = s.jobs.list := by
  unfold State.toQueue
  split
  · rw [State.sendWhere_jobs]
  · dsimp only
    split <;> rfl

theorem State.sendDone_list (j : Job) (r : CompRecord) (s : State) : (s.sendDone j r).jobs.list = s.jobs.list := by
  unfold State.sendDone
  split
  · dsimp only
    split
    · rw [State.sendTo_jobs]
    · exact State.toQueue_list _ _ _
  · exact State.toQueue_list _ _ _

/-- A job that has ended is forgotten. -/
theorem State.finishJob_forgets {s : State} {id : Word} {j : Job} (h : s.job? id = some j) (status : Byte)
    (detail : Word) : ∀ x ∈ (s.finishJob id status detail).jobs.list, x.id ≠ id := by
  have hlist : (s.finishJob id status detail).jobs.list = (s.releaseJob j).jobs.list := by
    rw [State.finishJob, h]
    dsimp only
    split
    · rw [State.report_jobs, State.sendDone_list]
    · rw [State.sendDone_list]
  intro x hx
  rw [hlist, State.releaseJob] at hx
  have hne := (List.mem_filter.1 hx).2
  rw [State.id_of_job? h] at hne
  simpa using hne

theorem State.overrun_forgets {s : State} {id : Word} {j : Job} (h : s.job? id = some j) :
    ∀ x ∈ (s.overrun j).jobs.list, x.id ≠ id := by
  have hid := State.id_of_job? h
  subst hid
  exact State.finishJob_forgets h stDeadline 0

/-- With no attempt left a fault ends the job, with whatever status (R155, R158). -/
theorem State.faultJob_forgets {s : State} {id : Word} {j : Job} (h : s.job? id = some j) (hrun : j.state = .running)
    (hspent : j.budget ≤ j.attempt) (wait : Option Nat) : ∀ x ∈ (s.faultJob id wait).jobs.list, x.id ≠ id := by
  rw [State.faultJob, h]
  dsimp only
  rw [if_neg (not_not.2 hrun), if_pos hspent]
  split
  · exact State.overrun_forgets h
  · exact State.finishJob_forgets h _ _

/-! ### What the end of a job leaves of the Burnisher: the control cores in work (R438) -/

/-- The control cores in work and the retired ones. -/
def State.ctrlCores (s : State) : List Nat × List Nat := (s.brn.ctrlActive, s.brn.ctrlRetired)

theorem State.ctrlCores_of_brn {s t : State} (h : t.brn = s.brn) : t.ctrlCores = s.ctrlCores := by
  rw [State.ctrlCores, h]
  rfl

@[simp] theorem State.report_ctrlCores (kind unit cls action code : Nat) (part : Option Nat) (job : Word) (detail : Nat)
    (s : State) : (s.report kind unit cls action code part job detail).ctrlCores = s.ctrlCores := rfl

theorem State.finishJob_ctrlCores (id : Word) (status : Byte) (detail : Word) (s : State) :
    (s.finishJob id status detail).ctrlCores = s.ctrlCores := by
  unfold State.finishJob
  split
  · rfl
  · dsimp only
    split
    · exact (State.report_ctrlCores ..).trans (State.ctrlCores_of_brn (by
        rw [(State.sendDone_same .brn (by decide) _ _ _ _).2 rfl, (State.releaseJob_same .brn (by decide) _ _ _).2 rfl]))
    · exact State.ctrlCores_of_brn (by
        rw [(State.sendDone_same .brn (by decide) _ _ _ _).2 rfl, (State.releaseJob_same .brn (by decide) _ _ _).2 rfl])

theorem State.faultJob_ctrlCores (id : Word) (wait : Option Nat) (s : State) :
    (s.faultJob id wait).ctrlCores = s.ctrlCores := by
  unfold State.faultJob
  split
  · rfl
  · split
    · rfl
    · extract_lets need
      split
      · exact State.finishJob_ctrlCores _ _ _ _
      · split
        · exact State.finishJob_ctrlCores _ _ _ _
        · split
          · exact State.finishJob_ctrlCores _ _ _ _
          · refine State.ctrlCores_of_brn (show Part.Same .brn s _ from ?_)
            simp

theorem State.restartHandled_ctrlCores (l : List Job) (s : State) : (State.restartHandled l s).ctrlCores = s.ctrlCores := by
  induction l generalizing s with
  | nil => rfl
  | cons j l ih =>
    rw [State.restartHandled, ih]
    split
    · rfl
    · exact State.faultJob_ctrlCores _ _ _

end Sys2Proof.Machine
end

section
/-!
PROOF. The commands that complete: the firings and the entry writes as their own statements say; the Outline's commands
(R81, R82, R84), the planner's queries (R344 to R352), and the units that rejoin or are retired (R434 to R440).
-/

namespace Sys2Proof.Machine

open Sys2Proof

/-! ### The planner (R344 to R352) -/

/-- A query that ends leaves the planner idle and nothing else of it changed (R346, R353). -/
theorem State.planEnds_xh (q : Query) (r : PlanResult) (s : State) :
    (s.planEnds q r).xh = { s.xh with run := none } := by
  have hresult : ((s.updXh fun x => { x with run := none }).planResult q r).xh = { s.xh with run := none } :=
    (State.planResult_same .xh (by decide) q r _ _).2 rfl
  unfold State.planEnds
  extract_lets st s1 s2 s3
  have hs3 : s3.xh = { s.xh with run := none } := by
    refine Eq.trans (show Part.Same .xh ((s.updXh fun x => { x with run := none }).planResult q r) s3 from ?_) hresult
    unfold s3 s2 s1
    simp
  split
  · exact ((State.updJob_same .xh (by decide) _ _ _ _).2 rfl).trans hs3
  · exact hs3

theorem State.cacheMisses_xh (s : State) : s.cacheMisses.xh = s.xh :=
  (State.cacheMisses_same .xh (by decide) s s).2 rfl

/-- A search on the newest generation ends with its path: no repair begins (R351). -/
theorem State.checkPath_of_current {s : State} {q : Query} (hkind : q.kind = .search) (hgen : q.genBound = s.xh.gen)
    (word0 : Nat) (path : List (Nat × Word)) :
    s.checkPath q word0 path = s.planEnds q (s.pathResult q word0 path s.xh.gen) :=
  if_pos ⟨hkind, hgen⟩

theorem State.searchEnds_run {s : State} {q : Query} (hkind : q.kind = .search) (hgen : q.genBound = s.xh.gen)
    (budget : Bool) (r : SearchState) : (s.searchEnds q budget r).xh.run = none := by
  have hcheck (word0 : Nat) (path : List (Nat × Word)) :
      (s.checkPath { q with expansions := r.expansions, pushes := r.pushes } word0 path).xh.run = none := by
    rw [State.checkPath_of_current (by exact hkind) (by exact hgen), State.planEnds_xh]
  unfold State.searchEnds
  extract_lets maxPlan q1 more
  split
  · extract_lets p
    split <;> exact hcheck _ _
  · split
    · exact hcheck _ _
    · rw [State.planEnds_xh]

/-- The result of a query keeps the jobs that there are (R346). -/
theorem State.planResult_job? (q : Query) (r : PlanResult) (k : Word) (s : State) :
    ((s.planResult q r).job? k).isSome = (s.job? k).isSome := by
  have hstore (j : Job) (slot : Nat) (id : Word) (hi : Nat) (f : Memory → Memory) (s : State) :
      ((s.store j slot id hi f).job? k).isSome = (s.job? k).isSome := by
    rw [State.store, State.job?_updJob (fun x => x.put_id slot id hi f), Option.isSome_map]
  have hacted (j : Job) (slot : Nat) (i : InFlight) (st : Byte) (fl : NumFlags) (res det : Word) (n : Nat) (s : State) :
      ((s.acted j slot i st fl res det n).job? k).isSome = (s.job? k).isSome := by
    rw [State.acted, State.updFlight, State.updSlot, State.job?_updJob (fun _ => by rfl), Option.isSome_map]
  unfold State.planResult
  split
  · rfl
  · split
    · rfl
    · dsimp only
      split
      · exact hstore _ _ _ _ _ _
      · exact (hacted _ _ _ _ _ _ _ _ _).trans (hstore _ _ _ _ _ _)

/-- A PLANQ that is fit to run waits in one of the planner's two queues (R344, R347). -/
theorem State.planq_of_issued {kind : QueryKind} {s : State} {job : Word} {slot : Fin 32} {j : Job} {i : InFlight}
    (h : s.Issued job slot 0x0F (fun d => fld ((j.queryWords slot d).getD 0 0) 1 0 = kind.code) j i)
    (hfit : s.queryFail j slot i.desc = none) :
    (s.planq kind job slot).Waits job slot i i.work.tiles ∧
      (s.planq kind job slot).xh.queue.length + (s.planq kind job slot).xh.publishQueue.length =
        s.xh.queue.length + s.xh.publishQueue.length + 1 := by
  have hwaits := State.waits_of_updFlight h.job (Job.mem_of_ready h.ready)
  have hxh : (s.updFlight job slot i.index fun x => { x with stage := .waiting }).xh = s.xh :=
    (State.updFlight_same .xh (by decide) job slot i.index _ s s).2 rfl
  rw [State.planq, h.job]
  dsimp only
  rw [State.act_of_issued h, hfit]
  dsimp only
  by_cases hpub : kind = .publish
  · simp only [hpub, if_true]
    refine ⟨hwaits, ?_⟩
    rw [State.updXh_xh, hxh, List.length_append, List.length_singleton, Nat.add_assoc]
  · simp only [hpub, if_false]
    refine ⟨hwaits, ?_⟩
    rw [State.updXh_xh, hxh, List.length_append, List.length_singleton, Nat.add_right_comm]

theorem exec_plannerQueryStart_of_search {s : State} {q : Query} {l : List Query} (hrun : s.xh.run = none)
    (hret : s.xh.retired = false) (hq : s.byDeadline s.xh.queue = q :: l) (hkind : q.kind = .search) :
    exec .plannerQueryStart s = .next (s.updXh fun x => { x with
      queue := x.queue.filter (· != q)
      run := some { q with genBound := s.xh.gen, planSeq := (s.planOf q.plan).seq.toNat, startEdge := s.edge } }) := by
  show execPlannerQueryStart s = _
  simp only [execPlannerQueryStart, hrun, hret, hq, hkind, Option.isSome_none, Bool.false_eq_true, or_self, if_false,
    reduceCtorEq, false_and]

/-- A search whose budget has run out ends with what it has found (R350). -/
theorem exec_searchBudgetExpire_of_over {s : State} {q : Query} (hrun : s.xh.run = some q) (hkind : q.kind = .search)
    (hrep : q.repairStart = none) (hbud : q.budgetOver s.edge = true) (hgen : q.genBound = s.xh.gen) :
    ∃ t, exec .searchBudgetExpire s = .next t ∧ t.xh.run = none := by
  refine ⟨_, ?_, State.searchEnds_run (s := (s.choose (fld (q.w 4) 11 0 * edgesUs / 4 + 1)).2.cacheMisses) hkind
    (by rw [State.cacheMisses_xh]; exact hgen) true
    { (s.searchIn q q.genBound).search (latState (q.w 1)) (some (s.choose (fld (q.w 4) 11 0 * edgesUs / 4 + 1)).1) with
      found := none }⟩
  show execSearchBudgetExpire s = _
  simp only [execSearchBudgetExpire, hrun]
  rw [if_neg (by simp [hrep, hkind, hbud])]

theorem exec_searchEnd_of_found {s : State} {q : Query} {r : SearchState} {n : Nat} (hrun : s.xh.run = some q)
    (hkind : q.kind = .search) (hrep : q.repairStart = none) (hbud : q.budgetOver s.edge = false)
    (hr : r = (s.searchIn q q.genBound).search (latState (q.w 1)) none) (hfound : r.found = some n) :
    exec .searchEnd s = .next (s.cacheMisses.searchEnds q false r) := by
  show execSearchEnd s = _
  simp only [execSearchEnd, hrun]
  rw [if_neg (by simp [hrep]), if_neg (by simp [hkind]), if_neg (by simp [hbud]), ← hr, if_neg (by simp [hfound])]

/-- The first PUBLISH by deadline starts where the inactive buffer is free (R344). -/
theorem exec_publishCopyStart_of_free {s : State} {q : Query} {l : List Query} (hpub : s.xh.publish = none)
    (hret : s.xh.retired = false)
    (hbound : (s.xh.run.any fun x =>
      (s.xh.buffer (1 - s.xh.current)).valid && x.genBound = (s.xh.buffer (1 - s.xh.current)).gen) = false)
    (hq : s.byDeadline s.xh.publishQueue = q :: l) :
    exec .publishCopyStart s = .next (s.updXh fun x => { x with
      publishQueue := l, publish := some ({ q with startEdge := s.edge }, true)
      buffers := x.buffers.modify (1 - x.current) fun b => { b with valid := false } }) := by
  show execPublishCopyStart s = _
  simp only [execPublishCopyStart, hbound, hpub, hret, hq, Option.isSome_none, Bool.false_eq_true, or_self, if_false]

/-- A copy that is done: the job holds the buffer, and its journal holds the PUBLISH (R344, R346). -/
theorem exec_publishCopyDone_of_copying {s : State} {q : Query} {j : Job} (hpub : s.xh.publish = some (q, true))
    (hj : s.job? q.job = some j) :
    ∃ t x, exec .publishCopyDone s = .next t ∧ t.xh.publish = some (q, false) ∧ t.job? q.job = some x ∧
      x.journal.published = true := by
  have hexec : exec .publishCopyDone s = execPublishCopyDone s := rfl
  simp only [execPublishCopyDone, hpub, hj] at hexec
  have hdone : ∃ (u : State) (r : PlanResult), u.xh.publish = some (q, false) ∧ u.jobs = s.jobs ∧ exec .publishCopyDone s =
      .next (((u.planResult q r).bump .xhQueries).updJob q.job fun x =>
        { x with journal := { x.journal with published := true } }) := by
    refine ⟨_, _, ?_, ?_, hexec⟩ <;> rfl
  obtain ⟨u, r, hu, hjobs, hnext⟩ := hdone
  have hsome : (u.job? q.job).isSome = true := by
    rw [State.job?, hjobs]
    exact Option.isSome_iff_exists.2 ⟨j, hj⟩
  obtain ⟨x, hx⟩ := Option.isSome_iff_exists.1 ((State.planResult_job? q r q.job u).trans hsome)
  refine ⟨_, _, hnext, ?_, State.job?_updJob_of_job? (fun _ => by rfl) hx, rfl⟩
  have hxh : (u.planResult q r).xh = u.xh := (State.planResult_same .xh (by decide) q r _ _).2 rfl
  exact (congrArg Xh.publish hxh).trans hu

/-! ### Cores (R434, R440) -/

theorem State.core_updCore {s : State} {n : Nat} (h : n < s.cores.length) (f : Core → Core) :
    (s.updCore n f).core n = f (s.core n) :=
  getD_modify f h {}

theorem State.core_lt_of_diagnosing {s : State} {n : Nat} (h : (s.core n).diagnosing = true) : n < s.cores.length := by
  by_contra hge
  rw [State.core, List.getD_eq_default _ _ (Nat.le_of_not_lt hge)] at h
  cases h

theorem State.core_lt_of_retiring {s : State} {n : Nat} (h : (s.core n).retiring = true) : n < s.cores.length := by
  by_contra hge
  rw [State.core, List.getD_eq_default _ _ (Nat.le_of_not_lt hge)] at h
  cases h

/-- A core that rejoins is idle again (R434, R522). -/
theorem State.rejoin_core {s : State} {n : Nat} (h : n < s.cores.length) :
    ((s.rejoin n).core n).state = .idle ∧ ((s.rejoin n).core n).diagnosing = false := by
  have hback := State.core_updCore h fun x => { x with leaving := false, diagnosing := false, state := .idle }
  unfold State.rejoin
  extract_lets c s1
  have hs1 : s1.core n = { s.core n with leaving := false, diagnosing := false, state := .idle } := hback
  split
  · rw [hs1]
    exact ⟨rfl, rfl⟩
  · have hlast := State.core_updCore (s := s1) (n := n) (by simpa [s1, State.updCore, State.updCores] using h)
      fun x => { x with lastPass := s.edge }
    rw [hs1] at hlast
    exact ⟨congrArg Core.state hlast, congrArg Core.diagnosing hlast⟩

/-- A diagnosis that finds nothing, for the second time of a day at most, lets the core rejoin (R434). -/
theorem exec_diagnosisDone_of_noFault {s : State} {n : Fin 36} (hdiag : (s.core n).diagnosing = true)
    (hret : (s.core n).retiring = false)
    (hfew : ((s.core n).transients.filter fun e => decide (s.edge < e + edgesDay)).length < 2) :
    ∃ t, exec (.diagnosisDone n .noFault) s = .next t ∧ (t.core n).state = .idle ∧ (t.core n).diagnosing = false := by
  have hlt := State.core_lt_of_diagnosing hdiag
  refine ⟨_, congrArg Host.Outcome.next ((if_neg (by simp [hdiag, hret])).trans (if_neg ?_)), State.rejoin_core ?_⟩
  · rw [List.length_cons]
    omega
  · simpa [State.updCore, State.updCores] using hlt

/-- What a choice draws is below its bound. -/
theorem State.choose_lt {n : Nat} (h : 0 < n) (s : State) : (s.choose n).1 < n := Nat.mod_lt _ h

theorem State.core_of_cores {s t : State} (h : t.cores = s.cores) (n : Nat) : t.core n = s.core n := by
  rw [State.core, h]
  rfl

/-- A retired core is not the one that a cluster gives up (R26). -/
theorem State.giveUpCore_core {s : State} {n : Nat} (h : (s.core n).state = .retired) (c : Nat) :
    (s.giveUpCore c).core n = s.core n := by
  unfold State.giveUpCore
  extract_lets l r m idle s1 s2
  split
  · rfl
  · next hne =>
    have hm : m ∈ l := by
      have hlt : r.1 < l.length := State.choose_lt (List.length_pos_iff.2 (by simpa using hne)) s
      rw [show m = l[r.1] from List.getD_eq_getElem _ _ hlt]
      exact List.getElem_mem hlt
    have hnm : m ≠ n := by
      rintro hmn
      have hset := (List.mem_filter.1 (List.mem_filter.1 hm).1).2
      simp [hmn, State.coreRetiredNow, h] at hset
    have hs1 : s1.core n = s.core n := rfl
    have hs2 : s2.core n = s.core n := by
      unfold s2
      split
      · exact (getD_modify_ne _ _ hnm _).trans hs1
      · exact hs1
    refine (State.core_of_cores ?_ n).trans hs2
    exact (show Part.Same .cores s2 _ by simp)

/-- A core that is retired stays so in what follows for its cluster (R26, R440). -/
theorem State.retireCore_core {s : State} {n : Nat} (h : n < s.cores.length) :
    ((s.retireCore n).core n).state = .retired := by
  unfold State.retireCore
  extract_lets c kept spared s1 s2 s3 s4 s5 s6
  have hs1 : (s1.core n).state = .retired := congrArg Core.state (State.core_updCore h _)
  have hs6 : s6.core n = s1.core n := by
    refine State.core_of_cores (show Part.Same .cores s1 s6 from ?_) n
    unfold s6 s5 s4 s3 s2
    split <;> split <;> simp
  have hdegraded (u : State) : u.checkDegraded.core n = u.core n :=
    State.core_of_cores ((State.checkDegraded_same .cores (by decide) u u).2 rfl) n
  rw [hdegraded]
  split
  · rw [State.giveUpCore_core (by rw [hs6, hs1]), hs6, hs1]
  · rw [hs6, hs1]

/-! ### Banks of Plate (R437) -/

theorem State.plate_lt_of_powered {s : State} {k : Nat} (h : (s.plate k).powered = true) : k < s.plt.length := by
  by_contra hge
  rw [State.plate, List.getD_eq_default _ _ (Nat.le_of_not_lt hge)] at h
  cases h

theorem State.plate_updPlate {s : State} {k : Nat} (h : k < s.plt.length) (f : PlateSlice → PlateSlice) :
    (s.updPlate k f).plate k = f (s.plate k) :=
  getD_modify f h {}

theorem State.plate_of_plt {s t : State} (h : t.plt = s.plt) (k : Nat) : t.plate k = s.plate k := by
  rw [State.plate, h]
  rfl

theorem State.checkDegraded_plate (k : Nat) (s : State) : s.checkDegraded.plate k = s.plate k :=
  State.plate_of_plt ((State.checkDegraded_same .plt (by decide) s s).2 rfl) k

theorem State.retireBank_retired {s : State} {k : Nat} (h : k < s.plt.length) (b : Nat) :
    b ∈ (((s.retireBank k b).2).plate k).retired := by
  have hbank := State.plate_updPlate h fun y => { y with
    retired := y.retired ++ [b], sparesLeft := y.sparesLeft - 1, corr := y.corr.filter (·.1 != b) }
  have hmem : b ∈ ((s.updPlate k fun y => { y with
      retired := y.retired ++ [b], sparesLeft := y.sparesLeft - 1, corr := y.corr.filter (·.1 != b) }).plate k).retired := by
    rw [hbank]
    exact List.mem_append_right _ (List.mem_singleton_self b)
  unfold State.retireBank
  extract_lets x s1
  split <;> exact hmem

theorem exec_plateCorrectedLimit_of_hits {s : State} {k : Fin 4} {b : Nat} (hpow : (s.plate k).powered = true)
    (hb : b < 168) (hnot : b ∉ (s.plate k).retired)
    (hhits : 16 ≤ ((s.plate k).corr.filter fun e => e.1 = b && decide (s.edge < e.2 + 160000000)).length) :
    ∃ t, exec (.plateCorrectedLimit k b) s = .next t ∧ b ∈ (t.plate k).retired := by
  have hmem := State.retireBank_retired (State.plate_lt_of_powered hpow) b
  refine ⟨_, congrArg Host.Outcome.next (if_neg ?_), ?_⟩
  · simp only [not_or, List.contains_iff_mem]
    exact ⟨by simp [hpow], Nat.not_le.2 hb, hnot, Nat.not_lt.2 hhits⟩
  · rw [State.checkDegraded_plate]
    split <;> exact hmem

theorem exec_plateUncorrectable_of_powered {s : State} {k : Fin 4} {b : Nat} (hpow : (s.plate k).powered = true)
    (hb : b < 168) (hnot : b ∉ (s.plate k).retired) :
    ∃ t, exec (.plateUncorrectable k b) s = .next t ∧ b ∈ (t.plate k).retired := by
  have hplt : (s.bump (.pltUncorr k)).loseBank.plt = s.plt := (State.loseBank_same .plt (by decide) _ s).2 rfl
  have hmem := State.retireBank_retired (s := (s.bump (.pltUncorr k)).loseBank) (k := k)
    (by rw [hplt]; exact State.plate_lt_of_powered hpow) b
  refine ⟨_, congrArg Host.Outcome.next (if_neg ?_), ?_⟩
  · simp only [not_or, List.contains_iff_mem]
    exact ⟨by simp [hpow], Nat.not_le.2 hb, hnot⟩
  · rw [State.checkDegraded_plate]
    exact hmem

/-! ### Control cores (R438) -/

/-- The spare control core takes the place of one that is lost, and keeps it through the restarts (R438). -/
theorem exec_ctrlWatchdogExpire_of_spare {s : State} {n : Fin 5} {spare : Nat} (hn : n.val ∈ s.brn.ctrlActive)
    (hspare : (firstIdx 5 fun k => !(s.brn.ctrlActive.filter (· != n.val)).contains k &&
      !(s.brn.ctrlRetired ++ [n.val]).contains k) = some spare) :
    ∃ t, exec (.ctrlWatchdogExpire n) s = .next t ∧ spare ∈ t.brn.ctrlActive ∧ n.val ∈ t.brn.ctrlRetired := by
  have hin : ¬ (!s.brn.ctrlActive.contains n.val) = true := by simpa using hn
  refine ⟨_, congrArg Host.Outcome.next (if_neg hin), ?_⟩
  extract_lets s1 s2
  have hs1 : s1.brn.ctrlSpare = some spare := hspare
  have hs2 : s2.ctrlCores = (s.brn.ctrlActive.filter (· != n.val) ++ [spare], s.brn.ctrlRetired ++ [n.val]) := by
    unfold s2
    rw [hs1]
    rfl
  have hkept := (State.restartHandled_ctrlCores
    (s2.jobs.list.filter fun j => j.state = .sealing || j.state = .restarting) s2).trans hs2
  obtain ⟨hactive, hretired⟩ := Prod.mk.inj hkept
  exact ⟨hactive ▸ List.mem_append_right _ (List.mem_singleton_self _),
    hretired ▸ List.mem_append_right _ (List.mem_singleton_self _)⟩

/-! ### The Outline's commands (R81) -/

/-- Outside a validation and an armed boundary staging begins afresh. -/
theorem exec_otlStageBegin_of_open {s : State} {v : Word} (hv : bit v 0 = true)
    (hs : s.otl.state = .idle ∨ s.otl.state = .staging ∨ s.otl.state = .valid ∨ s.otl.state = .rejected) :
    exec (.otlStageBegin v) s = .next (s.stagingNow 0) := by
  show execOtlStageBegin v s = _
  rcases hs with hs | hs | hs | hs <;> simp [execOtlStageBegin, hv, hs]

/-- Settles O60: the firings and the entry writes from O13 and O14, the rest from the lemmas on each unit. -/
theorem firingsImagesQueriesAndRepairsComplete : Obligations.FiringsImagesQueriesAndRepairsComplete := by
  obtain ⟨-, -, hproof, hgate, hfetch, hwait, -, hslice, -⟩ := engineFiringsStartTheirWork
  obtain ⟨-, -, -, -, -, -, -, hcarried, -, hdeferred, hdisable, henable, -⟩ :=
    firingsThatDoNotLaunchNowFollowTheirPolicy
  unfold Obligations.FiringsImagesQueriesAndRepairsComplete
  refine ⟨fun s e r h => ?_, fun s e r rec h hfree hset hlt => ?_, fun s e r h => ?_,
    fun s e r p o h hno hedge hp hrefs ho hfull hone => ?_, fun s e r p h hno hedge hp => ?_,
    fun s e r x h ha hx hunit hrun hsafe => ?_, fun s x rest r hc hplace hr ht hreset => ?_,
    fun s e r m hr ht hplace hdef hc hjob hreset hm => ?_, fun s v r hr hv hp => ?_, fun s v hv hs => ?_,
    fun s v hv hs => ?_, fun s hs => ?_, fun s v o hv hs ho hok hnew hold hlead => ?_, fun s v hv hidle hval hms => ?_,
    fun kind c s job slot j i hkind h hfit => ?_, fun s q l hrun hret hq hkind => ?_,
    fun s q j i hrun hkind hrep hbud hgen hj hi => ?_, fun s q j i hrun hover hj hi => ?_,
    fun s q j i r n hrun hkind hrep hbud hr hfound hgen hlen hj hi => ?_, fun s q j hrun hj hrunning hspent => ?_,
    fun s q l hpub hret hbound hq => ?_, fun s q j hpub hj => ?_, fun s n hdiag hret hfew => ?_,
    fun s n hret hquiet => ?_, fun s k banks hpow => ?_, fun s k b hpow hb hnot hhits => ?_,
    fun s n spare hn hspare => exec_ctrlWatchdogExpire_of_spare hn hspare⟩
  · have hfirings := State.launchStylus_styFirings (s.instantOf r) r (s.placeTaken e.toNat)
    have hseq := congrArg (List.map Prod.fst) hfirings
    rw [State.styFirings, List.map_map, List.map_map, State.placeTaken_sty] at hseq
    exact ⟨_, exec_stylusLaunch_of_launches h, (State.launchStylus_rgn _ _ _).trans (s.placeTaken_rgn _),
      hseq.trans (map_modify_congr (fun _ => by rfl) _ _)⟩
  · obtain ⟨t, f, hexec, -, hrgn, -, htimes⟩ := hproof s e r rec h hfree hset hlt
    refine ⟨t, hexec, hrgn, ?_⟩
    have hbusy := congrArg Prod.fst (getD_of_map_eq htimes r.arg.toNat {})
    rwa [getD_modify _ hlt] at hbusy
  · obtain ⟨t, hexec, -, hrgn, hgates, -⟩ := hgate s e r h
    refine ⟨t, hexec, hrgn, fun hlt => ?_⟩
    have hport := getD_of_map_eq hgates (portNum (portOf r.unit)) {}
    rw [getD_modify _ hlt] at hport
    exact ⟨congrArg Prod.fst hport, congrArg Prod.snd hport⟩
  · obtain ⟨t, hexec, -, hrgn, htir⟩ := hfetch s e r p o h hno hedge hp hrefs ho hfull hone
    exact ⟨t, hexec, hrgn, by rw [htir]⟩
  · obtain ⟨t, hexec, -, hrgn⟩ := hwait s e r p h hno hedge hp
    exact ⟨t, hexec, by rw [hrgn]⟩
  · obtain ⟨t, hexec, -, hrgn, hprf⟩ := hslice s e r x h ha hx hunit hrun hsafe
    exact ⟨t, hexec, hrgn, by rw [hprf]; rfl⟩
  · exact ⟨_, hcarried s x rest r hc hplace hr ht hreset, rfl⟩
  · exact ⟨_, hdeferred s e r m hr ht hplace hdef hc hjob hreset hm, by simp⟩
  · exact ⟨_, _, hdisable s v r hr hv hp, henable s v r hr hv hp, rfl, rfl⟩
  · exact ⟨_, exec_otlStageBegin_of_open hv hs, rfl, rfl, rfl⟩
  · refine ⟨s.updOtl fun o => { o with state := .validating }, ?_, rfl⟩
    show execOtlValidate v s = _
    simp [execOtlValidate, hv, hs]
  · refine ⟨_, congrArg Host.Outcome.next (if_neg (not_not.2 hs)), ?_⟩
    split
    · exact .inr rfl
    · exact .inl ⟨rfl, rfl⟩
  · refine ⟨(s.updOtl fun o => { o with state := .armed, code := 0 }).updRgn fun r =>
      { r with epochTime := s.regs.commitTime, shadowLoaded := false }, ?_, rfl, rfl⟩
    show execOtlCommitArm v s = _
    simp [execOtlCommitArm, hv, hs, ho, hok, hnew, hold, hlead]
  · refine ⟨(s.dropStaged.updOtl fun o => { o with state := .idle, code := 0x12, staging := [] }).updRgn
      fun r => { r with shadowLoaded := false }, ?_, rfl, rfl⟩
    show execOtlCancel v s = _
    simp [execOtlCancel, hv, hidle, hval, hms]
  · obtain ⟨hwaits, hlen⟩ := State.planq_of_issued h hfit
    simp only [List.mem_cons, Prod.mk.injEq, List.not_mem_nil, or_false] at hkind
    rcases hkind with ⟨rfl, rfl⟩ | ⟨rfl, rfl⟩ | ⟨rfl, rfl⟩ | ⟨rfl, rfl⟩ <;> exact ⟨_, rfl, hwaits, hlen⟩
  · exact ⟨_, exec_plannerQueryStart_of_search hrun hret hq hkind, rfl⟩
  · exact exec_searchBudgetExpire_of_over hrun hkind hrep hbud hgen
  · refine ⟨s.cacheMisses.planEnds q (s.pathResult q (q.found / 8 * 8 + xRepairFailed) q.path q.genBound), ?_, ?_⟩
    · show execRepairBudgetExpire s = _
      simp only [execRepairBudgetExpire, hrun, hover, if_true]
    · rw [State.planEnds_xh]
  · exact ⟨_, exec_searchEnd_of_found hrun hkind hrep hbud hr hfound,
      State.searchEnds_run hkind (by rwa [State.cacheMisses_xh]) false r⟩
  · refine ⟨_, ?_, State.faultJob_forgets (s := s.report 0x0D 0 1 2 0x0005 ((s.job? q.job).map (·.part)) q.job 0) hj
      hrunning hspent none⟩
    show execPlannerFault s = _
    simp only [execPlannerFault, hrun]
  · exact ⟨_, exec_publishCopyStart_of_free hpub hret hbound hq, rfl⟩
  · exact exec_publishCopyDone_of_copying hpub hj
  · exact exec_diagnosisDone_of_noFault hdiag hret hfew
  · exact ⟨_, congrArg Host.Outcome.next (if_pos ⟨hret, hquiet⟩),
      State.retireCore_core (State.core_lt_of_retiring hret)⟩
  · refine ⟨_, congrArg Host.Outcome.next (if_pos hpow), ?_⟩
    exact congrArg PlateSlice.lastScrub (State.plate_updPlate (State.plate_lt_of_powered hpow) _)
  · obtain ⟨t, ht, hb1⟩ := exec_plateCorrectedLimit_of_hits hpow hb hnot hhits
    obtain ⟨u, hu, hb2⟩ := exec_plateUncorrectable_of_powered hpow hb hnot
    exact ⟨t, u, ht, hu, hb1, hb2⟩

end Sys2Proof.Machine
end

section
/-!
PROOF. The IDs and partitions of the jobs (R150, R157): what moves, places or releases objects leaves them as they are,
and the end of a job takes its ID from them.
-/

namespace Sys2Proof.Machine

open Sys2Proof

/-- The jobs that exist, by ID and partition. -/
def State.jobKeys (s : State) : List (Word × Nat) := s.jobs.list.map fun j => (j.id, j.part)

theorem State.jobKeys_of_same {s t : State} (h : Part.Same .jobs s t) : t.jobKeys = s.jobKeys :=
  congrArg (fun q : Jobs => q.list.map fun j : Job => (j.id, j.part)) h

/-- An update of the jobs that keeps the ID and the partition of each. -/
theorem State.jobKeys_updJobs_map {f : Jobs → Jobs} {g : Job → Job} (s : State)
    (hf : (f s.jobs).list = s.jobs.list.map g) (hg : ∀ j, ((g j).id, (g j).part) = (j.id, j.part)) :
    (s.updJobs f).jobKeys = s.jobKeys := by
  simp only [State.jobKeys, State.updJobs, hf, List.map_map, Function.comp_def, hg]

theorem State.jobKeys_foldl {α : Type} {f : State → α → State} (hf : ∀ u a, (f u a).jobKeys = u.jobKeys) (l : List α)
    (s : State) : (l.foldl f s).jobKeys = s.jobKeys := by
  induction l generalizing s with
  | nil => rfl
  | cons a l ih => exact (ih _).trans (hf s a)

/-! ### Objects that lose or move copies (R256 to R261) -/

theorem State.jobKeys_markGone (o : ObjVersion) (s : State) : (s.markGone o).jobKeys = s.jobKeys :=
  State.jobKeys_updJobs_map s rfl fun _ => rfl

theorem State.jobKeys_loseCopies (st : DirState) (o : ObjVersion) (s : State) :
    (s.loseCopies st o).jobKeys = s.jobKeys := by
  unfold State.loseCopies
  calc _ = _ := State.jobKeys_of_same ((State.endFetches_same .jobs (by decide) o _ _).2 rfl)
    _ = _ := State.jobKeys_markGone o _
    _ = _ := State.jobKeys_of_same (by simp)

theorem State.jobKeys_makeAbsent (o : ObjVersion) (s : State) : (s.makeAbsent o).jobKeys = s.jobKeys :=
  (State.jobKeys_of_same (by simp [State.makeAbsent])).trans (State.jobKeys_loseCopies .absent o s)

theorem State.jobKeys_dropped (o : ObjVersion) (s : State) :
    ((s.makeAbsent o).bump .tirDropped).jobKeys = s.jobKeys :=
  State.jobKeys_makeAbsent o s

theorem State.jobKeys_evictT2 (q need : Nat) (o : ObjVersion) (s : State) : (s.evictT2 q need o).jobKeys = s.jobKeys := by
  unfold State.evictT2
  dsimp only
  repeat' split
  · exact State.jobKeys_of_same (by simp)
  · rfl
  · exact State.jobKeys_of_same (by simp)
  · exact (State.jobKeys_dropped o _).trans (State.jobKeys_of_same (by simp))

theorem State.jobKeys_evictBelow (tier q : Nat) (o : ObjVersion) (s : State) :
    (s.evictBelow tier q o).jobKeys = s.jobKeys := by
  unfold State.evictBelow
  generalize (if tier = 3 then o.t3Units else o.size) = need
  repeat' split
  · rfl
  · exact State.jobKeys_of_same (by simp)
  · exact State.jobKeys_of_same (by simp)
  · exact (State.jobKeys_dropped o _).trans (State.jobKeys_of_same (by simp))

theorem State.jobKeys_evictFor (tier q need : Nat) (mirrored : Bool) (l : List ObjVersion) (s : State) :
    (State.evictFor tier q need mirrored l s).jobKeys = s.jobKeys := by
  induction l generalizing s with
  | nil => rfl
  | cons o l ih =>
    rw [State.evictFor]
    split
    · rfl
    · rw [ih]
      split
      · exact State.jobKeys_evictT2 q need o s
      · exact State.jobKeys_evictBelow tier q o s

theorem State.jobKeys_roomT2 (q need : Nat) (s : State) : (s.roomT2 q need).2.jobKeys = s.jobKeys := by
  unfold State.roomT2
  split
  · rfl
  · exact State.jobKeys_evictFor ..

theorem State.jobKeys_roomBelow (tier q n : Nat) (mirrored : Bool) (s : State) :
    (s.roomBelow tier q n mirrored).2.jobKeys = s.jobKeys := by
  unfold State.roomBelow
  split
  · rfl
  · exact State.jobKeys_evictFor ..

theorem State.jobKeys_startCopy (kind : TierWriteKind) (o : ObjVersion) (tier : Nat) (s : State) :
    (s.startCopy kind o tier).jobKeys = s.jobKeys := by
  unfold State.startCopy
  extract_lets w r q
  have hr : r.jobKeys = s.jobKeys := State.jobKeys_roomBelow ..
  repeat' split
  · rfl
  · exact (State.jobKeys_of_same (by simp [q])).trans hr
  · exact (State.jobKeys_of_same (by simp [q])).trans hr

theorem State.jobKeys_placeHome (o : ObjVersion) (s : State) : (s.placeHome o).jobKeys = s.jobKeys := by
  unfold State.placeHome
  split
  · rfl
  · exact State.jobKeys_startCopy ..

/-! ### Fetches (R247, R252) -/

theorem State.jobKeys_fetchExtent (job : Word) (slot e : Nat) (o : ObjVersion) (s : State) :
    (s.fetchExtent job slot e o).jobKeys = s.jobKeys := by
  unfold State.fetchExtent
  extract_lets r tag src q
  have hr : r.2.jobKeys = s.jobKeys := State.jobKeys_roomT2 ..
  split
  · rfl
  · split
    · exact State.jobKeys_of_same (by simp)
    · split
      · exact State.jobKeys_of_same (by simp)
      · split
        · split
          · exact hr
          · exact (State.jobKeys_of_same (by simp)).trans hr
        · exact (State.jobKeys_of_same (by simp)).trans hr

theorem State.jobKeys_missExtent (job : Word) (slot core master e : Nat) (o : ObjVersion) (s : State) :
    (s.missExtent job slot core master e o).jobKeys = s.jobKeys := by
  unfold State.missExtent
  extract_lets s1
  have h1 : s1.jobKeys = s.jobKeys := State.jobKeys_fetchExtent ..
  split
  · exact State.jobKeys_of_same (by simp)
  · split
    · exact h1
    · split
      · exact h1
      · exact (State.jobKeys_of_same (by simp)).trans h1

theorem State.jobKeys_issueWaiting (s : State) : s.issueWaiting.jobKeys = s.jobKeys := by
  refine State.jobKeys_foldl (fun u w => ?_) _ _
  extract_lets ready s1
  have h1 : s1.jobKeys = u.jobKeys := State.jobKeys_of_same (by simp [s1])
  split
  · rfl
  · split
    · exact h1
    · split
      · exact (State.jobKeys_fetchExtent ..).trans h1
      · split
        · exact h1
        · exact (State.jobKeys_missExtent ..).trans h1

theorem State.jobKeys_promoteT2 (part : Nat) (obj : Word) (ver : Nat) (s : State) :
    (s.promoteT2 part obj ver).jobKeys = s.jobKeys := by
  unfold State.promoteT2
  split
  · rfl
  · split
    · rfl
    · refine (State.jobKeys_foldl (fun u e => ?_) _ _).trans (State.jobKeys_of_same (by simp))
      split
      · exact State.jobKeys_fetchExtent ..
      · rfl

theorem State.jobKeys_moveHome (o : ObjVersion) (s : State) : (s.moveHome o).jobKeys = s.jobKeys := by
  unfold State.moveHome
  split
  · rfl
  · split
    · exact State.jobKeys_promoteT2 ..
    · exact State.jobKeys_placeHome ..

theorem State.jobKeys_changeHome (o : ObjVersion) (s : State) : (s.changeHome o).jobKeys = s.jobKeys := by
  unfold State.changeHome
  split
  · exact State.jobKeys_of_same (by simp)
  · split
    · exact State.jobKeys_moveHome o s
    · rfl

/-! ### The end of jobs (R89, R157, R161) -/

theorem State.jobKeys_dropRequests (id : Word) (s : State) : (s.dropRequests id).jobKeys = s.jobKeys := by
  unfold State.dropRequests
  exact (State.jobKeys_issueWaiting _).trans (State.jobKeys_of_same (by simp))

theorem State.jobKeys_leaveUnits (id : Word) (s : State) : (s.leaveUnits id).jobKeys = s.jobKeys := by
  unfold State.leaveUnits
  extract_lets s1 s2 s3
  calc _ = _ := State.jobKeys_dropRequests id _
    _ = s1.jobKeys := State.jobKeys_of_same (by simp [s3, s2])
    _ = s.jobKeys := State.jobKeys_updJobs_map (g := fun j => j) s (List.map_id' _).symm fun _ => rfl

theorem State.jobKeys_filter (s : State) (id : Word) :
    (s.jobs.list.filter (·.id != id)).map (fun j => (j.id, j.part)) = s.jobKeys.filter (·.1 != id) := by
  rw [State.jobKeys, List.filter_map]
  rfl

theorem State.jobKeys_releaseJob (j : Job) (s : State) : (s.releaseJob j).jobKeys = s.jobKeys.filter (·.1 != j.id) := by
  unfold State.releaseJob
  extract_lets s1 s2
  have h2 : (s2.updCores fun cs => cs.map (Core.leave j.id)).jobKeys = s.jobKeys :=
    (State.jobKeys_of_same (by simp [s2, s1])).trans (State.jobKeys_leaveUnits j.id s)
  rw [← h2]
  exact State.jobKeys_filter ..

/-- The end of a job takes its ID from the jobs, and no other. -/
theorem State.jobKeys_finishJob (id : Word) (status : Byte) (detail : Word) (s : State) :
    (s.finishJob id status detail).jobKeys = s.jobKeys.filter (·.1 != id) := by
  unfold State.finishJob
  split
  next hnone =>
    refine (List.filter_eq_self.2 fun k hk => ?_).symm
    obtain ⟨j, hj, rfl⟩ := List.mem_map.1 hk
    simpa using List.find?_eq_none.1 hnone j hj
  next j hj =>
    have hid : j.id = id := State.id_of_job? hj
    have hdone (r : CompRecord) : ((s.releaseJob j).sendDone j r).jobKeys = s.jobKeys.filter (·.1 != id) := by
      rw [← hid, ← State.jobKeys_releaseJob, State.jobKeys, State.sendDone_list]
      rfl
    dsimp only
    split
    · exact hdone _
    · exact hdone _

theorem State.mem_jobKeys_finishJobs {ids : List Word} {status : Byte} {k : Word × Nat} {s : State} :
    k ∈ (ids.foldl (fun s id => s.finishJob id status 0) s).jobKeys ↔ k ∈ s.jobKeys ∧ k.1 ∉ ids := by
  induction ids generalizing s with
  | nil => simp
  | cons id ids ih =>
    rw [List.foldl_cons, ih, State.jobKeys_finishJob, List.mem_filter, List.mem_cons, not_or, bne_iff_ne, and_assoc]

/-- With the jobs of a partition ended no job of it is left, and none is new. -/
theorem State.mem_jobKeys_endJobs {p : Nat} {status : Byte} {k : Word × Nat} {s : State}
    (h : k ∈ (s.endJobs p status).jobKeys) : k ∈ s.jobKeys ∧ k.2 ≠ p := by
  obtain ⟨hk, hid⟩ := State.mem_jobKeys_finishJobs.1 h
  refine ⟨hk, fun hp => hid ?_⟩
  obtain ⟨j, hj, rfl⟩ := List.mem_map.1 hk
  exact List.mem_map.2 ⟨j, List.mem_filter.2 ⟨hj, decide_eq_true hp⟩, rfl⟩

end Sys2Proof.Machine
end

section
/-!
PROOF. The boundary (R85 to R90, R465, R466): the domains that power up and down, and what a commit leaves of the OTL
block, of Registration and of the jobs.
-/

namespace Sys2Proof.Machine

open Sys2Proof

/-! ### Power domains (R465, R466) -/

theorem State.powerUp_glb (d : Nat) (s : State) :
    (s.powerUp d).glb = { s.glb with pdState := s.glb.pdState ||| BitVec.ofNat 24 (2 ^ d) } := by
  unfold State.powerUp
  extract_lets s1
  repeat' split
  · exact (State.powerBoard_same .glb (by decide) s1 s1).2 rfl
  · rfl
  · rfl

theorem State.powerUp_pdState_getLsbD {k : Nat} (hk : k < 24) (d : Nat) (s : State) :
    (s.powerUp d).glb.pdState.getLsbD k = (s.glb.pdState.getLsbD k || decide (k = d)) := by
  rw [State.powerUp_glb, BitVec.getLsbD_or, getLsbD_ofNat_two_pow hk]
  simp only [eq_comm (a := d)]

/-- One of the domains that are powered for a new Outline (R85). -/
def State.powerIf (new : Outline) (s : State) (d : Nat) : State :=
  if new.domainOn.getLsbD d && !s.glb.pdState.getLsbD d then s.powerUp d else s

theorem State.powerIf_glb (new : Outline) (s : State) (d : Nat) :
    (s.powerIf new d).glb = { s.glb with pdState := (s.powerIf new d).glb.pdState } := by
  unfold State.powerIf
  split
  · rw [State.powerUp_glb]
  · rfl

theorem State.powerIf_pdState_getLsbD {k : Nat} (hk : k < 24) (new : Outline) (s : State) (d : Nat) :
    (s.powerIf new d).glb.pdState.getLsbD k = (s.glb.pdState.getLsbD k || decide (k = d) && new.domainOn.getLsbD k) := by
  unfold State.powerIf
  split
  next hon =>
    rw [State.powerUp_pdState_getLsbD hk]
    by_cases hkd : k = d <;> simp_all
  next hoff =>
    by_cases hkd : k = d <;> simp_all

theorem State.powerIfs_glb (new : Outline) (l : List Nat) (s : State) :
    (l.foldl (State.powerIf new) s).glb = { s.glb with pdState := (l.foldl (State.powerIf new) s).glb.pdState } := by
  induction l generalizing s with
  | nil => rfl
  | cons d l ih => rw [List.foldl_cons, ih, State.powerIf_glb]

theorem State.powerIfs_pdState_getLsbD {k : Nat} (hk : k < 24) (new : Outline) (l : List Nat) (s : State) :
    (l.foldl (State.powerIf new) s).glb.pdState.getLsbD k =
      (s.glb.pdState.getLsbD k || decide (k ∈ l) && new.domainOn.getLsbD k) := by
  induction l generalizing s with
  | nil => simp
  | cons d l ih =>
    rw [List.foldl_cons, ih, State.powerIf_pdState_getLsbD hk]
    simp only [List.mem_cons, Bool.decide_or, Bool.and_or_distrib_right, Bool.or_assoc]

/-- The domains of a new Outline are on once it is prepared; GLB is else as it was. -/
theorem State.powerFor_glb (new : Outline) (s : State) :
    (s.powerFor new).glb = { s.glb with pdState := s.glb.pdState ||| new.domainOn } := by
  change ((List.range 24).foldl (State.powerIf new) s).glb = _
  have hpd : ((List.range 24).foldl (State.powerIf new) s).glb.pdState = s.glb.pdState ||| new.domainOn := by
    refine BitVec.eq_of_getLsbD_eq fun k hk => ?_
    rw [State.powerIfs_pdState_getLsbD hk, BitVec.getLsbD_or]
    simp [hk]
  rw [State.powerIfs_glb, hpd]

theorem State.powerFor_rgn (new : Outline) (s : State) :
    (s.powerFor new).rgn = { s.rgn with shadowLoaded := true } := by
  have hfold : Part.Same .rgn s ((List.range 24).foldl (State.powerIf new) s) :=
    Part.same_foldl (fun u d => by unfold State.powerIf; split <;> simp) rfl
  change { ((List.range 24).foldl (State.powerIf new) s).rgn with shadowLoaded := true } = _
  rw [show ((List.range 24).foldl (State.powerIf new) s).rgn = s.rgn from hfold]

theorem State.powerFor_only (new : Outline) (s : State) : Only [.glb, .rgn, .chn, .plt] s (s.powerFor new) := by
  intro q hq
  simp only [List.mem_cons, List.not_mem_nil, or_false, not_or] at hq
  simp [hq]

theorem State.powerUp_only (d : Nat) (s : State) : Only [.glb, .chn, .plt] s (s.powerUp d) := by
  intro q hq
  simp only [List.mem_cons, List.not_mem_nil, or_false, not_or] at hq
  simp [hq]

theorem State.prepare_of_resourcesLeft {new : Outline} {s : State} (hleft : (s.powerFor new).resourcesLeft new = true) :
    s.prepare new = s.powerFor new := by
  unfold State.prepare
  dsimp only
  rw [if_pos hleft]

/-- With a resource gone the commit is abandoned; the domains stay on (R85). -/
theorem State.prepare_of_resourceGone {new : Outline} {s : State} (hgone : (s.powerFor new).resourcesLeft new = false) :
    s.prepare new = ((s.powerFor new).updOtl fun o => { o with state := .valid, code := 0x11 }).updRgn
      fun r => { r with shadowLoaded := false } := by
  unfold State.prepare
  dsimp only
  rw [if_neg (by simp [hgone])]

theorem exec_commitPrepare_of_staged {s : State} {new : Outline} (hstaged : s.otl.staged = some new)
    (hlast : s.lastMs = true) (hnot : s.rgn.shadowLoaded = false) : exec .commitPrepare s = .next (s.prepare new) := by
  show execCommitPrepare s = _
  rw [execCommitPrepare, hstaged]
  simp only [hlast, hnot, Bool.not_false, and_self, if_true]

/-- What a domain loses is no part of GLB (R466). -/
theorem State.powerDown_glb (d : Nat) (s : State) :
    (s.powerDown d).glb = { s.glb with pdState := s.glb.pdState &&& ~~~(BitVec.ofNat 24 (2 ^ d)) } := by
  unfold State.powerDown
  extract_lets s1 s2 s3
  show Part.Same .glb s1 _
  (repeat' split) <;> simp [s2, s3]

theorem State.powerDown_pdState_getLsbD {k : Nat} (hk : k < 24) (d : Nat) (s : State) :
    (s.powerDown d).glb.pdState.getLsbD k = (s.glb.pdState.getLsbD k && decide (k ≠ d)) := by
  rw [State.powerDown_glb, BitVec.getLsbD_and, BitVec.getLsbD_not, getLsbD_ofNat_two_pow hk]
  simp [hk, eq_comm (a := d)]

/-! ### The commit (R86 to R91) -/

theorem State.placeTable_rgn (new : Outline) (keep : Nat → Bool) (s : State) :
    (s.placeTable new keep).rgn.disabled = [] ∧ (s.placeTable new keep).rgn.shadowLoaded = false := ⟨rfl, rfl⟩

theorem State.jobKeys_placeTable (new : Outline) (keep : Nat → Bool) (s : State) :
    (s.placeTable new keep).jobKeys = s.jobKeys := by
  unfold State.placeTable
  extract_lets old dest gone s1 s2 s3
  calc _ = s2.jobKeys := State.jobKeys_of_same (by simp [s3])
    _ = s1.jobKeys := State.jobKeys_updJobs_map s1 rfl fun _ => rfl
    _ = s.jobKeys := State.jobKeys_of_same (by simp [s1, gone])

theorem State.jobKeys_placeObjects (new : Outline) (s : State) : (s.placeObjects new).jobKeys = s.jobKeys := by
  unfold State.placeObjects
  extract_lets s1 was s2
  calc _ = s2.jobKeys := State.jobKeys_of_same (by simp)
    _ = s1.jobKeys := State.jobKeys_foldl (fun u o => State.jobKeys_changeHome o u) _ _
    _ = s.jobKeys := State.jobKeys_of_same (by simp [s1])

/-- After its table is placed the rest of an installation leaves Registration. -/
theorem State.install_rgn (new : Outline) (net : Option NetTable) (image : List Word) (keep : Nat → Bool) (s : State) :
    (s.install new net image keep).rgn = ((s.discardFrames new).placeTable new keep).rgn := by
  show Part.Same .rgn _ _
  unfold State.install
  dsimp only
  generalize (s.discardFrames new).placeTable new keep = u
  (repeat' split) <;> simp

theorem State.jobKeys_install (new : Outline) (net : Option NetTable) (image : List Word) (keep : Nat → Bool)
    (s : State) : (s.install new net image keep).jobKeys = s.jobKeys := by
  unfold State.install
  extract_lets old fusionNew latticeNew latticeGone s1 s2 s3 s4 s5 s6 s7 s8 s9
  have hrest (u : State) (h : Part.Same .jobs ((s.discardFrames new).placeTable new keep) u) : u.jobKeys = s.jobKeys :=
    calc _ = _ := State.jobKeys_of_same h
      _ = _ := State.jobKeys_placeTable new keep _
      _ = s.jobKeys := State.jobKeys_of_same (by simp)
  have h7 : s7.jobKeys = s.jobKeys := by
    refine hrest _ ?_
    unfold s7 s6 s5 s4 s3 s2 s1
    (repeat' split) <;> simp
  calc _ = s8.jobKeys := State.jobKeys_of_same (by simp [s9])
    _ = (s7.placeObjects new).jobKeys := State.jobKeys_of_same (by simp [s8])
    _ = s.jobKeys := (State.jobKeys_placeObjects new s7).trans h7

/-- After an epoch reset no job of the partition is left (R89). -/
theorem State.mem_jobKeys_epochReset {new : Outline} {p : Nat} {k : Word × Nat} {s : State}
    (h : k ∈ (s.epochReset new p).jobKeys) : k ∈ s.jobKeys ∧ k.2 ≠ p := by
  have hkeys : (s.epochReset new p).jobKeys = (s.endJobs p stEpochAbort).jobKeys := by
    refine State.jobKeys_of_same ?_
    unfold State.epochReset
    dsimp only
    (repeat' split) <;> simp
  exact State.mem_jobKeys_endJobs (hkeys ▸ h)

theorem State.mem_jobKeys_epochResets {new : Outline} {ps : List Nat} {k : Word × Nat} {s : State}
    (h : k ∈ (ps.foldl (fun s p => s.epochReset new p) s).jobKeys) : k ∈ s.jobKeys ∧ k.2 ∉ ps := by
  induction ps generalizing s with
  | nil => exact ⟨h, List.not_mem_nil⟩
  | cons p ps ih =>
    obtain ⟨hk, hps⟩ := ih h
    obtain ⟨hs, hp⟩ := State.mem_jobKeys_epochReset hk
    exact ⟨hs, fun hm => (List.mem_cons.1 hm).elim hp hps⟩

theorem State.jobKeys_closeSession (i : Nat) (s : State) : (s.closeSession i).jobKeys = s.jobKeys := by
  unfold State.closeSession
  extract_lets s0 s1 s2 s3 port
  calc _ = s2.jobKeys := State.jobKeys_of_same (by simp [s3])
    _ = s1.jobKeys := State.jobKeys_updJobs_map s1 rfl fun _ => rfl
    _ = s.jobKeys := State.jobKeys_of_same (by simp [s1, s0])

theorem State.jobKeys_dropSessions (s : State) : s.dropSessions.jobKeys = s.jobKeys := by
  refine State.jobKeys_foldl (fun u i => ?_) _ _
  dsimp only
  split
  · exact State.jobKeys_closeSession i u
  · rfl

/-- The end of a commit: the by-pass, the sessions and the event of the new epoch (R88, R393, R398). -/
def State.commitEnd (new : Outline) (s : State) : State := s.commitBypass.dropSessions.event none 3 [new.header.epoch]

theorem State.jobKeys_commitEnd (new : Outline) (s : State) : (s.commitEnd new).jobKeys = s.jobKeys :=
  calc _ = s.commitBypass.dropSessions.jobKeys := State.jobKeys_of_same (by simp [State.commitEnd])
    _ = s.commitBypass.jobKeys := State.jobKeys_dropSessions _
    _ = s.jobKeys := State.jobKeys_of_same (by simp)

theorem State.commitEnd_same (p : Part) (h : p ≠ .jobs ∧ p ≠ .ctx ∧ p ≠ .tir ∧ p ≠ .eth) (new : Outline) (s : State) :
    p.Same s (s.commitEnd new) := by
  simp [State.commitEnd, h]

/-- The firings that a step passed by are skipped at the commit (R49, R62). -/
def State.commitSkips (skip : Option Nat) (tick : Nat) (s : State) : State :=
  match skip with
  | some z => (s.skipFirings tick z).updRgn fun r => { r with stepSkip := none }
  | none => s

theorem State.commitSkips_same (p : Part) (h : p ≠ .counts ∧ p ≠ .sty ∧ p ≠ .prf ∧ p ≠ .brn ∧ p ≠ .rgn)
    (skip : Option Nat) (tick : Nat) (s : State) : p.Same s (s.commitSkips skip tick) := by
  cases skip <;> simp [State.commitSkips, h]

theorem State.commitSkips_rgn (skip : Option Nat) (tick : Nat) (s : State) :
    (s.commitSkips skip tick).rgn.disabled = s.rgn.disabled ∧
      (s.commitSkips skip tick).rgn.shadowLoaded = s.rgn.shadowLoaded := by
  cases skip with
  | none => exact ⟨rfl, rfl⟩
  | some z =>
    have hrgn : (s.skipFirings tick z).rgn = s.rgn := (State.skipFirings_same .rgn (by decide) tick z s s).2 rfl
    show (s.skipFirings tick z).rgn.disabled = _ ∧ (s.skipFirings tick z).rgn.shadowLoaded = _
    rw [hrgn]
    exact ⟨rfl, rfl⟩

/-- The changed partitions are reset, the new Outline is installed, and the staged one is in force (R86 to R91). -/
def State.putInForce (new : Outline) (s : State) : State :=
  let keep (p : Nat) : Bool := s.continues new (s.otl.stagedNet.getD {}) p
  let parts := ((s.otl.running.partitions ++ new.partitions).map (·.part)).dedup
  let s1 := (parts.filter fun p => !keep p).foldl (fun s p => s.epochReset new p) s
  let s2 := (s1.install new s.otl.stagedNet (s.stagedImage.take new.header.totalWords) keep).coverNew s.otl.running
  let s3 := s2.updOtl fun o => { o with
    state := .idle, code := 0, epoch := new.header.epoch, isBoot := false, staged := none, stagedNet := none, staging := [] }
  (s3.updGlb fun g => { g with partReset := none }).bump .otlCommitCount

theorem State.commit_eq (new : Outline) (s : State) :
    s.commit new =
      let t := ((s.putInForce new).commitSkips s.rgn.stepSkip (tickOf (s.boundary.getD s.now) - 1)).commitEnd new
      if s.glb.stage = .outlineRecovery then t.updGlb fun g => { g with stage := .booted, bootEdge := s.edge } else t := rfl

theorem State.putInForce_otl (new : Outline) (s : State) :
    (s.putInForce new).otl.running = new ∧ (s.putInForce new).otl.state = .idle ∧ (s.putInForce new).otl.code = 0 ∧
      (s.putInForce new).otl.epoch = new.header.epoch ∧ (s.putInForce new).otl.staged = none ∧
      (s.putInForce new).otl.isBoot = false := by
  unfold State.putInForce
  extract_lets keep parts s1 s2 s3
  refine ⟨?_, rfl, rfl, rfl, rfl, rfl⟩
  show s2.otl.running = new
  rw [show s2.otl = _ from (State.coverNew_same .otl (by decide) _ _ _).2 rfl]
  exact (State.install_otl ..).1

theorem State.putInForce_rgn (new : Outline) (s : State) :
    (s.putInForce new).rgn.disabled = [] ∧ (s.putInForce new).rgn.shadowLoaded = false := by
  unfold State.putInForce
  extract_lets keep parts s1 s2 s3
  have hrgn : s2.rgn = _ := ((State.coverNew_same .rgn (by decide) _ _ _).2 rfl).trans (State.install_rgn ..)
  show s2.rgn.disabled = [] ∧ s2.rgn.shadowLoaded = false
  rw [hrgn]
  exact State.placeTable_rgn ..

/-- The partitions that the new Outline changes: those of either Outline that do not continue (R87, R89). -/
def State.changedParts (new : Outline) (s : State) : List Nat :=
  (((s.otl.running.partitions ++ new.partitions).map (·.part)).dedup).filter fun p =>
    !s.continues new (s.otl.stagedNet.getD {}) p

theorem State.mem_changedParts {new : Outline} {s : State} {r : PartitionRec} (hr : r ∈ s.otl.running.partitions)
    (hgone : s.continues new (s.otl.stagedNet.getD {}) r.part = false) : r.part ∈ s.changedParts new := by
  refine List.mem_filter.2 ⟨List.mem_dedup.2 (List.mem_map.2 ⟨r, List.mem_append_left _ hr, rfl⟩), ?_⟩
  rw [hgone]
  rfl

theorem State.jobKeys_putInForce (new : Outline) (s : State) :
    (s.putInForce new).jobKeys = ((s.changedParts new).foldl (fun s p => s.epochReset new p) s).jobKeys := by
  unfold State.putInForce
  extract_lets keep parts s1 s2 s3
  have hcover : Part.Same .jobs _ s2 := (State.coverNew_same .jobs (by decide) _ _ _).2 (Part.same_refl ..)
  have hkeys : s2.jobKeys = s1.jobKeys := (State.jobKeys_of_same hcover).trans (State.jobKeys_install ..)
  clear_value s2
  exact hkeys

/-- No job of a partition that does not continue outlives the commit (R89). -/
theorem State.part_notMem_of_mem_putInForce {new : Outline} {s : State} {k : Word × Nat}
    (hk : k ∈ (s.putInForce new).jobKeys) : k.2 ∉ s.changedParts new :=
  (State.mem_jobKeys_epochResets (State.jobKeys_putInForce new s ▸ hk)).2

/-- What follows once the new Outline is in force leaves the OTL block. -/
theorem State.commit_otl (new : Outline) (s : State) : (s.commit new).otl = (s.putInForce new).otl := by
  rw [State.commit_eq]
  extract_lets t
  have ht : t.otl = (s.putInForce new).otl :=
    (State.commitEnd_same .otl (by decide) new _).trans (State.commitSkips_same .otl (by decide) _ _ _)
  clear_value t
  split <;> exact ht

theorem State.commit_partReset (new : Outline) (s : State) : (s.commit new).glb.partReset = none := by
  rw [State.commit_eq]
  extract_lets t
  have ht : t.glb = (s.putInForce new).glb :=
    (State.commitEnd_same .glb (by decide) new _).trans (State.commitSkips_same .glb (by decide) _ _ _)
  have hnone : t.glb.partReset = none := by
    rw [ht]
    rfl
  clear_value t
  split <;> exact hnone

theorem State.commit_rgn (new : Outline) (s : State) :
    (s.commit new).rgn.disabled = [] ∧ (s.commit new).rgn.shadowLoaded = false := by
  rw [State.commit_eq]
  extract_lets t
  obtain ⟨hdis, hload⟩ := State.putInForce_rgn new s
  obtain ⟨hdis', hload'⟩ :=
    State.commitSkips_rgn s.rgn.stepSkip (tickOf (s.boundary.getD s.now) - 1) (s.putInForce new)
  have ht : t.rgn.disabled = [] ∧ t.rgn.shadowLoaded = false := by
    rw [show t.rgn = _ from State.commitEnd_same .rgn (by decide) new _]
    exact ⟨hdis'.trans hdis, hload'.trans hload⟩
  clear_value t
  split <;> exact ht

theorem State.jobKeys_commit (new : Outline) (s : State) : (s.commit new).jobKeys = (s.putInForce new).jobKeys := by
  rw [State.commit_eq]
  extract_lets t
  have ht : t.jobKeys = (s.putInForce new).jobKeys :=
    (State.jobKeys_commitEnd new _).trans (State.jobKeys_of_same (State.commitSkips_same .jobs (by decide) _ _ _))
  clear_value t
  split <;> exact ht

theorem State.otl_armed_of_boundary {s : State} {b : Int} (h : s.boundary = some b) : s.otl.state = .armed := by
  unfold State.boundary at h
  split at h
  next harmed => exact harmed
  next => cases h

/-- Prepared, the new Outline is committed on the edge of the boundary. -/
theorem exec_epochCommit_of_due {s : State} {new : Outline} {b : Int} (hstaged : s.otl.staged = some new)
    (hb : s.boundary = some b) (hdue : b ≤ s.now) (hload : s.rgn.shadowLoaded = true) :
    exec .epochCommit s = .next (s.commit new) := by
  show execEpochCommit s = _
  have harmed : s.otl.state = .armed := State.otl_armed_of_boundary hb
  rw [execEpochCommit, hstaged, hb]
  simp only [if_pos hdue, hload, if_true, harmed]

theorem exec_epochCommit_of_early {s : State} {new : Outline} {b : Int} (hstaged : s.otl.staged = some new)
    (hb : s.boundary = some b) (hearly : s.now < b) : exec .epochCommit s = .next s := by
  show execEpochCommit s = _
  rw [execEpochCommit, hstaged, hb]
  simp only [if_neg (not_le.2 hearly)]

theorem exec_domainPowerUp_of_staged {s : State} {d : Fin 24} {new : Outline} (hlast : s.lastMs = true)
    (hoff : s.glb.pdState.getLsbD d = false) (hstaged : s.otl.staged = some new)
    (hon : new.domainOn.getLsbD d = true) : exec (.domainPowerUp d) s = .next (s.powerUp d) := by
  refine congrArg Host.Outcome.next (if_pos ⟨hlast, ?_, ?_⟩)
  · rw [hoff]
    rfl
  · rw [hstaged]
    exact hon

theorem exec_domainPowerDown_of_off {s : State} {d : Fin 24} (hruns : s.outlineRuns = true)
    (hsw : fixedDomain d = false) (hon : s.glb.pdState.getLsbD d = true)
    (hoff : s.otl.running.domainOn.getLsbD d = false) (hlast : s.lastMs = false) :
    exec (.domainPowerDown d) s = .next (s.powerDown d) := by
  refine congrArg Host.Outcome.next (if_pos ⟨hruns, ?_, hon, ?_, ?_⟩)
  · rw [hsw]
    rfl
  · rw [hoff]
    rfl
  · rw [hlast]
    rfl

/-- Settles O21: preparation powers and loads, a commit resets what changes and installs the new Outline, and what a
domain loses is no part of GLB. -/
theorem boundariesCommitTheNewOutline : Obligations.BoundariesCommitTheNewOutline := by
  unfold Obligations.BoundariesCommitTheNewOutline
  refine ⟨?_, ?_, ?_, ?_, ?_, ?_⟩
  · intro s new hstaged hlast hnot hleft
    exact ⟨_, (exec_commitPrepare_of_staged hstaged hlast hnot).trans
      (congrArg Host.Outcome.next (State.prepare_of_resourcesLeft hleft)), State.powerFor_only new s,
      State.powerFor_rgn new s, State.powerFor_glb new s⟩
  · intro s new hstaged hlast hnot hgone
    have hotl : (s.powerFor new).otl = s.otl := State.powerFor_only new s .otl (by decide)
    refine ⟨_, (exec_commitPrepare_of_staged hstaged hlast hnot).trans
      (congrArg Host.Outcome.next (State.prepare_of_resourceGone hgone)), ?_, ?_, ?_, State.powerFor_glb new s⟩
    · intro q hq
      simp only [List.mem_cons, List.not_mem_nil, or_false, not_or] at hq
      simp [hq]
    · rw [State.updRgn_rgn, State.updOtl_rgn, State.powerFor_rgn, ← hnot]
    · rw [State.updRgn_otl, State.updOtl_otl, hotl]
  · intro s new b hstaged hb hdue hload
    obtain ⟨hrun, hidle, hcode, hepoch, hnone, hboot⟩ := State.putInForce_otl new s
    obtain ⟨hdis, hshadow⟩ := State.commit_rgn new s
    refine ⟨_, exec_epochCommit_of_due hstaged hb hdue hload, ?_⟩
    rw [State.commit_otl]
    refine ⟨hrun, hidle, hcode, hepoch, hnone, hboot, State.commit_partReset new s, hdis, hshadow, ?_⟩
    intro r hr hgone j hj
    have hk : (j.id, j.part) ∈ (s.putInForce new).jobKeys := State.jobKeys_commit new s ▸ List.mem_map.2 ⟨j, hj, rfl⟩
    exact fun heq => State.part_notMem_of_mem_putInForce hk (heq ▸ State.mem_changedParts hr hgone)
  · exact fun s new b hstaged hb hearly => exec_epochCommit_of_early hstaged hb hearly
  · exact fun s d new hlast hoff hstaged hon => ⟨_, exec_domainPowerUp_of_staged hlast hoff hstaged hon,
      State.powerUp_only d s, fun k hk => State.powerUp_pdState_getLsbD hk d s⟩
  · exact fun s d hruns hsw hon hoff hlast => ⟨_, exec_domainPowerDown_of_off hruns hsw hon hoff hlast,
      fun k hk => State.powerDown_pdState_getLsbD hk d s⟩

end Sys2Proof.Machine
end

section
/-!
PROOF. The staged image (R81 to R84, R91, R496): what each command of the Outline leaves of the OTL block where its
condition does not hold, and that a REJECTED image is never armed.
-/

namespace Sys2Proof.Machine

open Sys2Proof

/-- Neither a VALID nor an ARMED image is staged: the arming of a boundary finds nothing to arm (R84). -/
structure State.NoneValid (s : State) : Prop where
  valid : s.otl.state ≠ .valid
  armed : s.otl.state ≠ .armed

theorem State.NoneValid.of_otl {s t : State} (h : s.NoneValid) (he : t.otl = s.otl) : t.NoneValid :=
  ⟨he ▸ h.valid, he ▸ h.armed⟩

theorem State.noneValid_of_state {s : State} {x : OtlState} (h : s.otl.state = x) (hv : x ≠ .valid) (ha : x ≠ .armed) :
    s.NoneValid := ⟨h ▸ hv, h ▸ ha⟩

theorem State.boundary_of_not_armed {s : State} (h : s.otl.state ≠ .armed) : s.boundary = none := if_neg h

theorem State.lastMs_of_not_armed {s : State} (h : s.otl.state ≠ .armed) : s.lastMs = false := by
  rw [State.lastMs, State.boundary_of_not_armed h]
  rfl

/-! ### The OTL block under shared operations -/

theorem State.dropStaged_otl (s : State) : s.dropStaged.otl = { s.otl with staged := none, stagedNet := none } := by
  have hrefs : (s.netRefs dropRef s.otl.stagedNet).otl = s.otl := (State.netRefs_same .otl (by decide) _ _ s s).2 rfl
  rw [State.dropStaged, State.updOtl_otl, hrefs]

theorem State.stagingNow_otl (code : Byte) (s : State) : (s.stagingNow code).otl = { s.otl with
    state := .staging, code := code, staging := [], stagedWords := 0, staged := none, stagedNet := none } := by
  rw [State.stagingNow, State.updOtl_otl, State.dropStaged_otl]

theorem State.otlRefuse_otl (s : State) : s.otlRefuse.otl = s.otl := rfl

theorem State.delivered_otl (i : Nat) (s : State) : (s.delivered i).otl = s.otl :=
  (State.delivered_same .otl (by decide) i s s).2 rfl

theorem State.sendTo_otl (i : Nat) (b : LimBody) (s : State) : (s.sendTo i b).otl = s.otl :=
  (State.sendTo_same .otl (by decide) i b s s).2 rfl

/-- A request runs in its session, or is discarded and counted (R395). -/
theorem State.request_cases (i : Nat) (go : Session → State → State) (s : State) :
    s.request i go = go (s.session i) (s.delivered i) ∨ s.request i go = s.bump .ethLimBad := by
  unfold State.request
  dsimp only
  split
  · exact .inl rfl
  · exact .inr rfl

/-- A request leaves the OTL block where what it runs leaves it. -/
theorem State.request_otl {i : Nat} {go : Session → State → State} {s : State}
    (h : (go (s.session i) (s.delivered i)).otl = (s.delivered i).otl) : (s.request i go).otl = s.otl := by
  rcases State.request_cases i go s with e | e
  · rw [e, h, State.delivered_otl]
  · rw [e, State.bump_otl]

theorem State.stageBytes_of_not_staging {s : State} (h : s.otl.state ≠ .staging) (off : Nat) (data : List Byte) :
    s.stageBytes off data = s := if_neg h

/-- What a command that may fault leaves, where both of its outcomes do. -/
theorem State.after_of {o : Host.Outcome State Fault Refusal} {s : State} {P : State → Prop} (hs : P s)
    (ho : ∀ t, o = .next t → P t) : P (s.after o) := by
  unfold State.after
  split
  · exact ho _ rfl
  · exact hs

/-! ### Commands outside of their conditions -/

theorem execOtlValidate_otl_of_not_staging {v : Word} {s t : State} (hs : s.otl.state ≠ .staging)
    (h : execOtlValidate v s = .next t) : t.otl = s.otl := by
  injection h with h
  rw [← h, if_neg hs]
  split <;> rfl

theorem execOtlCommitArm_otl_of_not_valid {v : Word} {s t : State} (hs : s.otl.state ≠ .valid)
    (h : execOtlCommitArm v s = .next t) : t.otl = s.otl := by
  injection h with h
  subst h
  split
  · rfl
  · split
    next hvalid _ => exact absurd hvalid hs
    next => rfl

theorem execValidationDone_of_not_validating {s : State} (hs : s.otl.state ≠ .validating) :
    execValidationDone s = .next s :=
  congrArg Host.Outcome.next (if_pos hs)

theorem execCommitPrepare_of_not_armed {s : State} (hs : s.otl.state ≠ .armed) : execCommitPrepare s = .next s := by
  rw [execCommitPrepare, State.lastMs_of_not_armed hs]
  cases s.otl.staged <;> rfl

theorem execEpochCommit_of_not_armed {s : State} (hs : s.otl.state ≠ .armed) : execEpochCommit s = .next s := by
  rw [execEpochCommit, State.boundary_of_not_armed hs]
  cases s.otl.staged <;> rfl

theorem execBootOutlineLoad_of_stage {s : State} (hs : s.glb.stage ≠ .outline) : execBootOutlineLoad s = .next s :=
  congrArg Host.Outcome.next (if_pos hs)

/-- Bytes reach the staging area in STAGING alone (R81, R401). -/
theorem execObjData_otl_of_not_staging {i : Fin 16} {off : Word} {data : List Byte} {s t : State}
    (hs : s.otl.state ≠ .staging) (h : execObjData i off data s = .next t) : t.otl = s.otl := by
  injection h with h
  subst h
  refine State.request_otl ?_
  generalize hu : s.delivered i = u
  have hstage : u.otl.state ≠ .staging := by
    rw [← hu, State.delivered_otl]
    exact hs
  show Part.Same .otl u _
  split
  · rfl
  · split
    · simp
    · dsimp only
      have hcharge (l : LoadOp) (n : Nat) (f : Tir → Tir) : ((u.charge l.part 0x15 n).2.updTir f).otl = u.otl :=
        (State.charge_same .otl (by decide) _ _ _ u u).2 rfl
      split
      · rw [State.stageBytes_of_not_staging (by rw [hcharge]; exact hstage)]
        exact hcharge ..
      · exact hcharge ..

theorem execObjLoadEnd_otl_of_not_staging {i : Fin 16} {tag crc : Word} {gcm : BitVec 128} {s t : State}
    (hs : s.otl.state ≠ .staging) (h : execObjLoadEnd i tag crc gcm s = .next t) : t.otl = s.otl := by
  injection h with h
  subst h
  refine State.request_otl ?_
  generalize hu : s.delivered i = u
  have hstage : u.otl.state ≠ .staging := by
    rw [← hu, State.delivered_otl]
    exact hs
  show Part.Same .otl u _
  split
  · simp
  · split
    · simp
    · dsimp only
      split
      · rw [if_neg]
        · simp
        · rwa [show (u.dropLoad _).otl = u.otl from (State.dropLoad_same .otl (by decide) _ u u).2 rfl]
      · simp

/-! ### Resets -/

theorem State.restart_otl (k : ResetKind) (b : BootStage) (s : State) : (s.restart k b).otl = State.reset.otl := by
  unfold State.restart
  dsimp only
  split <;> rfl

/-- A command leaves the OTL block, or resets the device. -/
def State.OtlKeptOrReset (s t : State) : Prop := t.otl = s.otl ∨ t.edge = 0 ∧ t.otl = State.reset.otl

theorem State.otlKeptOrReset_restart (k : ResetKind) (b : BootStage) (s u : State) :
    s.OtlKeptOrReset (u.restart k b) :=
  .inr ⟨State.restart_edge k b u, State.restart_otl k b u⟩

theorem execResetNAssert_otl {n : Nat} {s t : State} (h : execResetNAssert n s = .next t) : s.OtlKeptOrReset t := by
  injection h with h
  subst h
  split
  · exact .inl rfl
  · split
    · exact .inl ((State.closeSwitches_same .otl (by decide) .closed s s).2 rfl)
    · exact State.otlKeptOrReset_restart ..

theorem execResetNRelease_otl {s t : State} (h : execResetNRelease s = .next t) : s.OtlKeptOrReset t := by
  injection h with h
  subst h
  split
  · exact State.otlKeptOrReset_restart ..
  · exact .inl rfl

theorem execSupplyOutOfRange_otl {r : Rail} {s t : State} (h : execSupplyOutOfRange r s = .next t) :
    s.OtlKeptOrReset t := by
  injection h with h
  subst h
  split
  · exact State.otlKeptOrReset_restart ..
  · exact .inl rfl

theorem execRecoveryImageLoad_otl {i : Fin 16} {tag : Word} {image : List Byte} {s t : State}
    (h : execRecoveryImageLoad i tag image s = .next t) : s.OtlKeptOrReset t := by
  injection h with h
  subst h
  split
  · exact .inl rfl
  · rcases State.request_cases i _ s with e | e
    · rw [e]
      split
      · exact .inl ((State.sendTo_otl ..).trans (State.delivered_otl ..))
      · split
        · exact .inl ((State.sendTo_otl ..).trans (State.delivered_otl ..))
        · exact State.otlKeptOrReset_restart ..
    · exact .inl (by rw [e, State.bump_otl])

/-! ### Partition resets -/

/-- The partitions that a write of GLB_PART_RESET names: those of the running Outline (R93, R472). -/
def State.resetParts (v : Word) (s : State) : List Nat :=
  (List.range 8).filter fun p => v.getLsbD p && (s.partRec p).isSome

/-- A partition reset begins: the staged image is dropped, and the partitions of the mask are held (R91, R472). -/
def State.partResetBegun (mask : BitVec 8) (s : State) : State :=
  ((s.dropStaged.updOtl fun o => { o with state := .idle, staging := [], stagedWords := 0 }).updRgn fun r =>
    { r with shadowLoaded := false }).updGlb fun g => { g with partReset := some mask }

/-- The partitions of GLB_PART_RESET, with those whose reset still runs. -/
def State.resetMask (v : Word) (s : State) : BitVec 8 :=
  BitVec.ofNat 8 (total ((s.resetParts v).map fun p => 2 ^ p)) ||| s.glb.partReset.getD 0

theorem exec_glbPartReset_of_none {v : Word} {s : State} (h : s.resetParts v = []) :
    exec (.glbPartReset v) s = .next s :=
  congrArg Host.Outcome.next (if_pos (List.isEmpty_iff.2 h))

theorem exec_glbPartReset_of_parts {v : Word} {s : State} (h : s.resetParts v ≠ []) :
    exec (.glbPartReset v) s =
      .next ((s.resetParts v).foldl (fun s p => s.resetPartition p) (s.partResetBegun (s.resetMask v))) :=
  congrArg Host.Outcome.next (if_neg fun he => h (List.isEmpty_iff.1 he))

theorem State.partResetBegun_otl (mask : BitVec 8) (s : State) : (s.partResetBegun mask).otl = { s.otl with
    state := .idle, staging := [], stagedWords := 0, staged := none, stagedNet := none } := by
  rw [State.partResetBegun, State.updGlb_otl, State.updRgn_otl, State.updOtl_otl, State.dropStaged_otl]

/-- What follows once a partition reset has begun leaves the OTL block. -/
theorem State.resetPartitions_otl (ps : List Nat) (s : State) :
    (ps.foldl (fun s p => s.resetPartition p) s).otl = s.otl :=
  Part.same_foldl (p := .otl) (fun u p => (State.resetPartition_same .otl (by decide) p u u).2 rfl) rfl

/-! ### Commands that replace the image -/

theorem execOtlStageBegin_noneValid {v : Word} {s t : State} (hs : s.NoneValid)
    (h : execOtlStageBegin v s = .next t) : t.NoneValid := by
  injection h with h
  subst h
  split
  · exact hs
  · split
    next => exact hs.of_otl s.otlRefuse_otl
    next harmed => exact absurd harmed hs.armed
    next =>
      have hstaging : (s.stagingNow 0).otl.state = .staging := congrArg Otl.state (State.stagingNow_otl 0 s)
      exact State.noneValid_of_state hstaging (by decide) (by decide)

theorem execOtlValidate_noneValid {v : Word} {s t : State} (hs : s.NoneValid)
    (h : execOtlValidate v s = .next t) : t.NoneValid := by
  injection h with h
  subst h
  split
  · exact hs
  · split
    · exact State.noneValid_of_state (x := .validating) rfl (by decide) (by decide)
    · exact hs.of_otl s.otlRefuse_otl

theorem execOtlCancel_noneValid {v : Word} {s t : State} (hs : s.NoneValid)
    (h : execOtlCancel v s = .next t) : t.NoneValid := by
  injection h with h
  subst h
  split
  · exact hs
  · split
    · exact hs.of_otl s.otlRefuse_otl
    · exact State.noneValid_of_state (x := .idle) rfl (by decide) (by decide)

theorem execGlbPartReset_noneValid {v : Word} {s t : State} (hs : s.NoneValid)
    (h : execGlbPartReset v s = .next t) : t.NoneValid := by
  by_cases hp : s.resetParts v = []
  · injection (exec_glbPartReset_of_none hp).symm.trans h with h
    exact h ▸ hs
  · injection (exec_glbPartReset_of_parts hp).symm.trans h with h
    refine State.noneValid_of_state (x := .idle) ?_ (by decide) (by decide)
    rw [← h, State.resetPartitions_otl, State.partResetBegun_otl]

/-! ### Writes of registers -/

/-- A register of the OTL block, or GLB_PART_RESET: no other register write reaches the OTL block. -/
theorem State.writeReg_otl (b : Block) (o : Nat) (v : Word) (s : State) :
    (s.writeReg b o v).otl = s.otl ∨ b = .otl ∨ b = .glb ∧ o = 0x08 := by
  have kept {e : Host.Outcome State Fault Refusal} {u : State} (hu : u.otl = s.otl)
      (ho : ∀ t, e = .next t → t.otl = u.otl) : (u.after e).otl = s.otl :=
    State.after_of (P := fun t => t.otl = s.otl) hu fun t he => (ho t he).trans hu
  have counts (n : Block) : (s.after (execCntClear n v s)).otl = s.otl :=
    kept rfl fun t he => execCntClear_same .otl (by decide) n v s he
  have single {p : Prop} [Decidable p] {n : Block} : (if p then s.after (execCntClear n v s) else s).otl = s.otl := by
    split
    · exact counts n
    · rfl
  cases b with
  | otl => exact .inr (.inl rfl)
  | glb =>
    by_cases ho : o = 0x08
    · exact .inr (.inr ⟨rfl, ho⟩)
    · refine .inl ?_
      show (s.writeGlb o v).otl = s.otl
      unfold State.writeGlb
      split
      · exact kept (kept rfl fun t he => execGlbResetCold_same .otl (by decide) v _ he)
          fun t he => execGlbResetWarm_same .otl (by decide) v _ he
      · exact absurd rfl ho
      · exact kept rfl fun t he => execGlbAvsLimit_same .otl (by decide) v _ he
      · exact kept rfl fun t he => execLockSet_same .otl (by decide) _ v _ he
      · rfl
  | prf =>
    refine .inl ?_
    show (if o = 0x10 then s.after (execPrfRelease v s) else s).otl = s.otl
    split
    · exact kept rfl fun t he => execPrfRelease_same .otl (by decide) v _ he
    · rfl
  | tb => exact .inl ((State.writeTb_same .otl (by decide) o v s s).2 rfl)
  | rgn => exact .inl ((State.writeRgn_same .otl (by decide) o v s s).2 rfl)
  | tir => exact .inl ((State.writeTir_same .otl (by decide) o v s s).2 rfl)
  | chn => exact .inl ((State.writeChn_same .otl (by decide) o v s s).2 rfl)
  | lnw => exact .inl ((State.writeLnw_same .otl (by decide) o v s s).2 rfl)
  | ing => exact .inl ((State.writeIng_same .otl (by decide) o v s s).2 rfl)
  | trc => exact .inl ((State.writeTrc_same .otl (by decide) o v s s).2 rfl)
  | eth => exact .inl ((State.writeEth_same .otl (by decide) o v s s).2 rfl)
  | brn => exact .inl ((State.writeBrn_same .otl (by decide) o v s s).2 rfl)
  | sec => exact .inl ((State.writeSec_same .otl (by decide) o v s s).2 rfl)
  | ctx => exact .inl ((State.writeCtx_same .otl (by decide) o v s s).2 rfl)
  | core n => exact .inl single
  | plt => exact .inl single
  | xh => exact .inl single
  | sty => exact .inl single

theorem State.commitTimeWrite_otl (f : Compact → Compact) (s : State) : (s.commitTimeWrite f).otl = s.otl :=
  (State.commitTimeWrite_same .otl (by decide) f s s).2 rfl

/-- A REJECTED image stays through a write of any register of the OTL block but OTL_STAGE and OTL_CANCEL (R496). -/
theorem State.writeOtl_otl_of_rejected {o : Nat} {s : State} (hs : s.otl.state = .rejected) (hstage : o ≠ 0x04)
    (hcancel : o ≠ 0x20) (v : Word) : (s.writeOtl o v).otl = s.otl := by
  unfold State.writeOtl
  split
  · exact absurd rfl hstage
  · exact State.after_of (P := fun t => t.otl = s.otl) rfl fun t he =>
      execOtlValidate_otl_of_not_staging (by simp [hs]) he
  · exact State.commitTimeWrite_otl ..
  · exact State.commitTimeWrite_otl ..
  · exact State.after_of (P := fun t => t.otl = s.otl) rfl fun t he =>
      execOtlCommitArm_otl_of_not_valid (by simp [hs]) he
  · exact absurd rfl hcancel
  · exact State.after_of (P := fun t => t.otl = s.otl) rfl fun t he => execCntClear_same .otl (by decide) _ v s he
  · rfl

/-- No register write makes an image VALID or ARMED (R82, R84). -/
theorem State.writeReg_noneValid {s : State} (hs : s.NoneValid) (b : Block) (o : Nat) (v : Word) :
    (s.writeReg b o v).NoneValid := by
  rcases s.writeReg_otl b o v with he | rfl | ⟨rfl, rfl⟩
  · exact hs.of_otl he
  · show (s.writeOtl o v).NoneValid
    unfold State.writeOtl
    split
    · exact State.after_of hs fun t he => execOtlStageBegin_noneValid hs he
    · exact State.after_of hs fun t he => execOtlValidate_noneValid hs he
    · exact hs.of_otl (State.commitTimeWrite_otl ..)
    · exact hs.of_otl (State.commitTimeWrite_otl ..)
    · exact State.after_of hs fun t he => hs.of_otl (execOtlCommitArm_otl_of_not_valid hs.valid he)
    · exact State.after_of hs fun t he => execOtlCancel_noneValid hs he
    · exact State.after_of hs fun t he => hs.of_otl (execCntClear_same .otl (by decide) _ v s he)
    · exact hs
  · exact State.after_of hs fun t he => execGlbPartReset_noneValid hs he

theorem State.writeWords_noneValid (vs : List Word) (a : Nat) {s : State} (hs : s.NoneValid) :
    (State.writeWords vs a s).2.2.NoneValid := by
  induction vs generalizing a s with
  | nil => exact hs
  | cons v vs ih =>
    unfold State.writeWords
    split
    · split
      · exact hs
      · exact ih _ (State.writeReg_noneValid hs ..)
    · exact hs

theorem execRegWrite_noneValid {i : Fin 16} {tag a : Word} {vs : List Word} {s t : State} (hs : s.NoneValid)
    (h : execRegWrite i tag a vs s = .next t) : t.NoneValid := by
  injection h with h
  have hd : (s.delivered i).NoneValid := hs.of_otl (State.delivered_otl ..)
  rcases State.request_cases i _ s with e | e
  · rw [← h, e]
    split
    · exact hd.of_otl (State.sendTo_otl ..)
    · split
      · exact hd.of_otl (State.sendTo_otl ..)
      · exact (State.writeWords_noneValid vs a.toNat hd).of_otl (State.sendTo_otl ..)
  · exact hs.of_otl (by rw [← h, e, State.bump_otl])

/-! ### Which addresses replace the image -/

/-- The blocks above 0x400000 that have 1 MB each (R482) are neither OTL nor GLB. -/
theorem getD_wideBlocks_ne (i : Nat) :
    [Block.plt, .tir, .chn, .lnw, .ing, .trc, .xh, .sty, .eth, .prf, .brn, .sec].getD i .sec ≠ .otl ∧
      [Block.plt, .tir, .chn, .lnw, .ing, .trc, .xh, .sty, .eth, .prf, .brn, .sec].getD i .sec ≠ .glb := by
  have hall : ∀ b ∈ [Block.plt, .tir, .chn, .lnw, .ing, .trc, .xh, .sty, .eth, .prf, .brn, .sec],
      b ≠ .otl ∧ b ≠ .glb := by simp
  rw [List.getD_eq_getElem?_getD]
  cases hi : [Block.plt, .tir, .chn, .lnw, .ing, .trc, .xh, .sty, .eth, .prf, .brn, .sec][i]? with
  | none => simp
  | some b => exact hall b (List.mem_of_getElem? hi)

/-- The address of a register of GLB or OTL is the base of its block with its offset (R482). -/
theorem eq_of_blockOf {a o : Nat} :
    (blockOf a = some (.glb, o) → a = o) ∧ (blockOf a = some (.otl, o) → a = 0x40000 + o) := by
  obtain ⟨hotl, hglb⟩ := getD_wideBlocks_ne ((a - 0x400000) / 0x100000)
  unfold blockOf
  constructor <;> intro h <;> (repeat' split at h) <;>
    simp only [Option.some.injEq, Prod.mk.injEq, reduceCtorEq, hotl, hglb, false_and, true_and] at h <;> omega

/-- A REJECTED image stays through the words of a write that reaches none of the three registers. -/
theorem State.writeWords_otl_of_rejected {vs : List Word} {a : Nat} {s : State} (hs : s.otl.state = .rejected)
    (h : ∀ n ∈ [0x40004, 0x40020, 8], ¬ (a ≤ n ∧ n < a + 4 * vs.length)) :
    (State.writeWords vs a s).2.2.otl = s.otl := by
  induction vs generalizing a s with
  | nil => rfl
  | cons v vs ih =>
    simp only [List.mem_cons, List.not_mem_nil, or_false, forall_eq_or_imp, forall_eq, List.length_cons] at h ih
    unfold State.writeWords
    split
    next b o _ hblock =>
      split
      · rfl
      · have hkept : (s.writeReg b o v).otl = s.otl := by
          rcases s.writeReg_otl b o v with he | rfl | ⟨rfl, rfl⟩
          · exact he
          · have ha := eq_of_blockOf.2 hblock
            exact State.writeOtl_otl_of_rejected hs (by omega) (by omega) v
          · have ha := eq_of_blockOf.1 hblock
            omega
        exact (ih (hkept ▸ hs) (by omega)).trans hkept
    next => rfl

theorem execRegWrite_otl_of_rejected {i : Fin 16} {tag a : Word} {vs : List Word} {s t : State}
    (hs : s.otl.state = .rejected) (hr : replacesImage (.regWrite i tag a vs) = false)
    (h : execRegWrite i tag a vs s = .next t) : t.otl = s.otl := by
  injection h with h
  subst h
  refine State.request_otl ?_
  dsimp only
  split
  · exact State.sendTo_otl ..
  · split
    · exact State.sendTo_otl ..
    · refine (State.sendTo_otl ..).trans (State.writeWords_otl_of_rejected ?_ ?_)
      · rw [State.delivered_otl, hs]
      · simpa [replacesImage] using hr

/-! ### Every command -/

/-- A REJECTED image stays through every command that does not replace it, but for a reset of the device (R83). -/
theorem exec_otl_of_rejected {c : Instr} {s t : State} (hs : s.otl.state = .rejected) (hstage : s.glb.stage ≠ .outline)
    (hr : replacesImage c = false) (h : exec c s = .next t) : s.OtlKeptOrReset t := by
  have hstaging : s.otl.state ≠ .staging := by simp [hs]
  have harmed : s.otl.state ≠ .armed := by simp [hs]
  have same {o : Host.Outcome State Fault Refusal} (ho : o = .next s) (h : o = .next t) : s.OtlKeptOrReset t := by
    injection ho.symm.trans h with he
    exact .inl (he ▸ rfl)
  by_cases hc : .otl ∈ mayChange c
  · cases c with
    | otlStageBegin | otlCancel | glbPartReset => cases hr
    | otlValidate v => exact .inl (execOtlValidate_otl_of_not_staging hstaging h)
    | validationDone => exact same (execValidationDone_of_not_validating (by simp [hs])) h
    | otlCommitArm v => exact .inl (execOtlCommitArm_otl_of_not_valid (by simp [hs]) h)
    | commitPrepare => exact same (execCommitPrepare_of_not_armed harmed) h
    | epochCommit => exact same (execEpochCommit_of_not_armed harmed) h
    | regWrite i tag a vs => exact .inl (execRegWrite_otl_of_rejected hs hr h)
    | objData i off data => exact .inl (execObjData_otl_of_not_staging hstaging h)
    | objLoadEnd i tag crc gcm => exact .inl (execObjLoadEnd_otl_of_not_staging hstaging h)
    | bootOutlineLoad => exact same (execBootOutlineLoad_of_stage hstage) h
    | recoveryImageLoad i tag image => exact execRecoveryImageLoad_otl h
    | powerOn =>
      injection h with h
      exact h ▸ State.otlKeptOrReset_restart ..
    | vddAonLoss =>
      injection h with h
      exact h ▸ State.otlKeptOrReset_restart .coldPower .unpowered s s
    | resetNAssert n => exact execResetNAssert_otl h
    | resetNRelease => exact execResetNRelease_otl h
    | supplyOutOfRange r => exact execSupplyOutOfRange_otl h
    | _ => exact absurd hc (of_decide_eq_true rfl)
  · exact .inl (exec_only h .otl hc)

/-- A command that replaces the image makes none VALID or ARMED. -/
theorem exec_noneValid_of_replacesImage {c : Instr} {s t : State} (hs : s.NoneValid) (hr : replacesImage c = true)
    (h : exec c s = .next t) : t.NoneValid := by
  cases c with
  | otlStageBegin v => exact execOtlStageBegin_noneValid hs h
  | otlCancel v => exact execOtlCancel_noneValid hs h
  | glbPartReset v => exact execGlbPartReset_noneValid hs h
  | regWrite i tag a vs => exact execRegWrite_noneValid hs h
  | _ => cases hr

/-- Settles O20: a command replaces the image, or keeps the OTL block, or resets it; none of them arms. -/
theorem rejectedImagesStayAndAreNeverArmed : Obligations.RejectedImagesStayAndAreNeverArmed := by
  unfold Obligations.RejectedImagesStayAndAreNeverArmed
  intro c s t hs hstage h
  cases hr : replacesImage c with
  | true =>
    exact ⟨(exec_noneValid_of_replacesImage (State.noneValid_of_state hs (by decide) (by decide)) hr h).armed,
      fun hf => nomatch hf⟩
  | false =>
    rcases exec_otl_of_rejected hs hstage hr h with he | ⟨hedge, he⟩
    · exact ⟨by simp [he, hs], fun _ => .inl ⟨by rw [he], by rw [he], by rw [he, hs]⟩⟩
    · refine ⟨?_, fun _ => .inr ⟨hedge, he⟩⟩
      rw [he]
      decide

end Sys2Proof.Machine
end

section
/-!
PROOF. The way of an Outline to its boundary (R81, R82, R84, R91, R379, R495, R496): one equation for each command from
the states in which it acts.
-/

namespace Sys2Proof.Machine

open Sys2Proof

/-- The operations on the staged image reach OTL and, for the network table that it binds, the directory (R379). -/
theorem State.stagingNow_only (code : Byte) (s : State) : Only [.otl, .tir] s (s.stagingNow code) := by
  intro p hp
  simp only [List.mem_cons, List.not_mem_nil, or_false, not_or] at hp
  simp [hp]

/-! ### OTL_STAGE_BEGIN (R81, R91) -/

theorem exec_otlStageBegin_of_armed {s : State} {v : Word} (hv : bit v 0 = true) (harmed : s.otl.state = .armed)
    (hlast : s.lastMs = false) : exec (.otlStageBegin v) s = .next (s.stagingNow 0x12) := by
  show execOtlStageBegin v s = _
  simp [execOtlStageBegin, hv, harmed, hlast]

theorem exec_otlStageBegin_of_busy {s : State} {v : Word} (hv : bit v 0 = true)
    (hs : s.otl.state = .validating ∨ s.otl.state = .armed ∧ s.lastMs = true) :
    exec (.otlStageBegin v) s = .next (s.bump .otlRefused) := by
  show execOtlStageBegin v s = _
  rcases hs with hs | ⟨hs, hlast⟩
  · simp [execOtlStageBegin, hv, hs, State.otlRefuse]
  · simp [execOtlStageBegin, hv, hs, hlast, State.otlRefuse]

/-! ### Validation (R81, R82) -/

theorem exec_otlValidate_of_staging {s : State} {v : Word} (hv : bit v 0 = true) (hs : s.otl.state = .staging) :
    exec (.otlValidate v) s = .next (s.updOtl fun o => { o with state := .validating }) := by
  show execOtlValidate v s = _
  simp [execOtlValidate, hv, hs]

theorem exec_validationDone_of_fail {s : State} {code word : Nat} (hs : s.otl.state = .validating)
    (hfail : s.validate s.stagedImage s.otl.stagedWords false = .fail code word) :
    exec .validationDone s =
      .next (s.updOtl fun o => { o with state := .rejected, code := BitVec.ofNat 8 code, errWord := word }) := by
  show execValidationDone s = _
  rw [execValidationDone, if_neg (not_not.2 hs), hfail]

theorem exec_validationDone_of_pass {s : State} {o : Outline} {net : Option NetTable} (hs : s.otl.state = .validating)
    (hpass : s.validate s.stagedImage s.otl.stagedWords false = .pass o net) :
    exec .validationDone s = .next ((s.netRefs addRef net).updOtl fun x =>
      { x with state := .valid, code := 0, staged := some o, stagedNet := net }) := by
  show execValidationDone s = _
  rw [execValidationDone, if_neg (not_not.2 hs), hpass]

/-! ### OTL_COMMIT_ARM (R62, R84) -/

/-- A boundary 1 ms ahead that is a multiple of both hyperperiods is armed. -/
theorem exec_otlCommitArm_of_ahead {s : State} {v : Word} {o : Outline} (hv : bit v 0 = true)
    (hs : s.otl.state = .valid) (ho : s.otl.staged = some o) (hok : compactOk s.regs.commitTime = true)
    (hnew : wholeH (compactNear s.regs.commitTime s.now) o.h = true)
    (hold : wholeH (compactNear s.regs.commitTime s.now) s.otl.running.h = true)
    (hahead : s.now + 1000000 * unitsNs ≤ compactNear s.regs.commitTime s.now) :
    exec (.otlCommitArm v) s = .next ((s.updOtl fun o => { o with state := .armed, code := 0 }).updRgn fun r =>
      { r with epochTime := s.regs.commitTime, shadowLoaded := false }) := by
  show execOtlCommitArm v s = _
  simp [execOtlCommitArm, hv, hs, ho, hok, hnew, hold, hahead]

theorem exec_otlCommitArm_of_near {s : State} {v : Word} {o : Outline} (hv : bit v 0 = true)
    (hs : s.otl.state = .valid) (ho : s.otl.staged = some o)
    (hnear : compactNear s.regs.commitTime s.now < s.now + 1000000 * unitsNs) :
    exec (.otlCommitArm v) s = .next (s.updOtl fun o => { o with code := 0x10 }) := by
  show execOtlCommitArm v s = _
  simp [execOtlCommitArm, hv, hs, ho, not_le.2 hnear]

/-! ### OTL_CANCEL (R91) -/

/-- The state after a cancel: the image is dropped, and the shadow bank is not loaded. -/
def State.cancelled (s : State) : State :=
  (s.dropStaged.updOtl fun o => { o with state := .idle, code := 0x12, staging := [] }).updRgn fun r =>
    { r with shadowLoaded := false }

theorem exec_otlCancel_of_open {s : State} {v : Word} (hv : bit v 0 = true) (hidle : s.otl.state ≠ .idle)
    (hval : s.otl.state ≠ .validating) (hlast : s.lastMs = false) : exec (.otlCancel v) s = .next s.cancelled := by
  show execOtlCancel v s = _
  simp [execOtlCancel, State.cancelled, hv, hidle, hval, hlast]

theorem State.cancelled_only (s : State) : Only [.otl, .tir, .rgn] s s.cancelled := by
  intro p hp
  simp only [List.mem_cons, List.not_mem_nil, or_false, not_or] at hp
  simp [State.cancelled, hp]

theorem State.cancelled_otl (s : State) : s.cancelled.otl =
    { s.otl with state := .idle, code := 0x12, staging := [], staged := none, stagedNet := none } := by
  rw [State.cancelled, State.updRgn_otl, State.updOtl_otl, State.dropStaged_otl]

theorem State.cancelled_rgn (s : State) : s.cancelled.rgn = { s.rgn with shadowLoaded := false } := by
  have hrgn : s.dropStaged.rgn = s.rgn := (State.dropStaged_same .rgn (by decide) s s).2 rfl
  rw [State.cancelled, State.updRgn_rgn, State.updOtl_rgn, hrgn]

/-- Settles O19: each command by its equation from the states that the clause names. -/
theorem outlinesAreStagedValidatedArmedAndCancelled : Obligations.OutlinesAreStagedValidatedArmedAndCancelled := by
  unfold Obligations.OutlinesAreStagedValidatedArmedAndCancelled
  refine ⟨fun s v hv hs => ?_, fun s v hv harmed hlast => ?_, fun s v hv hs => exec_otlStageBegin_of_busy hv hs,
    fun s v hv hs => exec_otlValidate_of_staging hv hs, fun s code word hs hfail => exec_validationDone_of_fail hs hfail,
    fun s o net hs hpass => ?_,
    fun s v o hv hs ho hok hnew hold hahead => exec_otlCommitArm_of_ahead hv hs ho hok hnew hold hahead,
    fun s v o hv hs ho hnear => exec_otlCommitArm_of_near hv hs ho hnear, fun s v hv hidle hval hlast => ?_⟩
  · exact ⟨_, exec_otlStageBegin_of_open hv hs, State.stagingNow_only _ s, State.stagingNow_otl ..⟩
  · exact ⟨_, exec_otlStageBegin_of_armed hv harmed hlast, State.stagingNow_only _ s, State.stagingNow_otl ..⟩
  · have hexec := exec_validationDone_of_pass hs hpass
    have hrefs : (s.netRefs addRef net).otl = s.otl := (State.netRefs_same .otl (by decide) _ _ s s).2 rfl
    exact ⟨_, hexec, exec_only hexec, by rw [State.updOtl_otl, hrefs]⟩
  · exact ⟨_, exec_otlCancel_of_open hv hidle hval hlast, s.cancelled_only, s.cancelled_otl, s.cancelled_rgn⟩

end Sys2Proof.Machine
end

section
/-!
PROOF. Resets (R93, R389, R468, R470 to R472): what brings one, and what a partition reset leaves of the jobs, the
contexts and Proof.
-/

namespace Sys2Proof.Machine

open Sys2Proof

/-! ### RESET_N (R389, R471) -/

/-- A port that is dropped has no link, and no other port loses or gains one (R377). -/
theorem State.link_dropLink (p q : Port) (s : State) :
    ((s.dropLink p).ethPort q).link = ((s.ethPort q).link && decide (portNum q ≠ portNum p)) := by
  unfold State.dropLink
  split
  next hlink =>
    have hlt : portNum p < (s.bump (.ethLinkDown p)).eth.ports.length := State.port_lt_of_link hlink
    rw [(State.updPort_accrue p _ _).choose_spec]
    generalize hu : (s.bump (.ethLinkDown p)).updPort p _ = u
    have hsame : ((u.updGptp p GptpPort.down).reselect false).ethPort q = u.ethPort q :=
      congrArg (fun e : Eth => e.ports.getD (portNum q) {}) ((State.reselect_same .eth (by decide) false _ u).2
        ((State.updGptp_same .eth (by decide) p _ u u).2 rfl))
    rw [hsame, ← hu]
    by_cases hq : portNum q = portNum p
    · rw [show ∀ t : State, t.ethPort q = t.ethPort p from fun t => congrArg (t.eth.ports.getD · {}) hq,
        State.ethPort_updPort _ hlt]
      simp [hq]
    · rw [State.ethPort_updPort_ne _ hq]
      simp [hq, State.ethPort]
  next hlink =>
    by_cases hq : portNum q = portNum p
    · simpa [hq, State.ethPort] using hlink
    · simp [hq]

/-- With the switches closed neither ring port has link (R389). -/
theorem State.closeSwitches_link (st : BypassState) (s : State) :
    ((s.closeSwitches st).ethPort .ringA).link = false ∧ ((s.closeSwitches st).ethPort .ringB).link = false := by
  have hrings (p : Port) : ((s.closeSwitches st).ethPort p).link = _ := State.link_dropLink .ringB p (s.dropLink .ringA)
  simp [hrings, State.link_dropLink, portNum]

/-- A pulse too short for a reset closes the by-pass and does no more (log 28). -/
theorem exec_resetNAssert_of_short {s : State} {ns : Nat} (hup : s.glb.stage ≠ .unpowered) (hheld : s.glb.stage ≠ .held)
    (hlow : 100 ≤ ns) (hshort : ns < 1000) :
    exec (.resetNAssert ns) s = .next ((s.closeSwitches .closed).updEth fun e => { e with instant := none }) := by
  show execResetNAssert ns s = _
  rw [execResetNAssert, if_neg (by simp [hup, hheld, hlow]), if_pos hshort]

theorem exec_resetNAssert_of_long {s : State} {ns : Nat} (hup : s.glb.stage ≠ .unpowered) (hheld : s.glb.stage ≠ .held)
    (hlong : 1000 ≤ ns) : exec (.resetNAssert ns) s = .next (s.restart .warmPin .held) := by
  show execResetNAssert ns s = _
  rw [execResetNAssert, if_neg (by simp [hup, hheld]; omega), if_neg (by omega)]

/-! ### The keys of GLB_RESET (R471) -/

theorem State.scheduleReset_of_none {s : State} (h : s.glb.resetDue = none) (k : ResetKind) :
    s.scheduleReset k = s.updGlb fun g => { g with resetDue := some (s.edge + 1600, k) } := by
  simp [State.scheduleReset, h, edgesUs]

/-! ### Folds that keep what a function sees -/

theorem foldl_eq_of_step {α β γ : Type} {g : β → γ} {f : β → α → β} (h : ∀ b a, g (f b a) = g b) (l : List α) (b : β) :
    g (l.foldl f b) = g b := by
  induction l generalizing b with
  | nil => rfl
  | cons a l ih => exact (ih _).trans (h b a)

/-! ### The contexts by ID and partition (R199, R223) -/

/-- The contexts that exist, by ID and partition. -/
def State.ctxKeys (s : State) : List (Nat × Nat) := s.ctx.table.map fun c => (c.id, c.part)

theorem State.ctxKeys_of_same {s t : State} (h : Part.Same .ctx s t) : t.ctxKeys = s.ctxKeys :=
  congrArg (fun x : CtxMgr => x.table.map fun c : Context => (c.id, c.part)) h

theorem State.ctxKeys_filter (s : State) (id : Nat) :
    (s.ctx.table.filter (·.id != id)).map (fun c => (c.id, c.part)) = s.ctxKeys.filter (·.1 != id) := by
  rw [State.ctxKeys, List.filter_map]
  rfl

theorem State.ctxKeys_freePage (g : PageRecord) (s : State) : (s.freePage g).ctxKeys = s.ctxKeys := by
  unfold State.freePage
  extract_lets s1
  have h1 : s1.ctxKeys = s.ctxKeys := by
    refine State.ctxKeys_of_same ?_
    unfold s1
    split <;> simp
  refine Eq.trans ?_ h1
  exact State.ctxKeys_of_same (s := s1) (t := s1.dropWrites _) (by simp)

theorem State.ctxKeys_freePages (is : List Nat) (s : State) :
    (is.foldl (fun s i => match s.page? i with
      | some g => s.freePage g
      | none => s) s).ctxKeys = s.ctxKeys := by
  refine foldl_eq_of_step (g := State.ctxKeys) (fun u i => ?_) is s
  split
  · exact State.ctxKeys_freePage ..
  · rfl

/-- The release of a context takes its ID from the contexts, and no other (R210, R223). -/
theorem State.ctxKeys_releaseContext (c : Context) (s : State) :
    (s.releaseContext true c).ctxKeys = s.ctxKeys.filter (·.1 != c.id) := by
  unfold State.releaseContext
  extract_lets idx s1 s2
  have h2 : s2.ctxKeys = s.ctxKeys := by
    refine Eq.trans (State.ctxKeys_of_same ?_) (State.ctxKeys_freePages idx s)
    unfold s2
    split
    · exact Part.same_refl ..
    · exact Part.same_foldl (fun u n => (State.giveUp_same .ctx (by decide) ..).2 (Part.same_refl ..)) (Part.same_refl ..)
  rw [← h2]
  have hdrop : (s2.dropSwaps c.id).ctxKeys = s2.ctxKeys :=
    State.ctxKeys_of_same (s := s2) (t := s2.dropWrites _) (by simp)
  rw [← hdrop]
  exact State.ctxKeys_filter ..

/-- The release of every context of a partition leaves none of it, and adds none (R223). -/
theorem State.mem_ctxKeys_releaseContexts {cs : List Context} {k : Nat × Nat} {s : State} :
    k ∈ (cs.foldl (fun s c => s.releaseContext true c) s).ctxKeys ↔ k ∈ s.ctxKeys ∧ k.1 ∉ cs.map (·.id) := by
  induction cs generalizing s with
  | nil => simp
  | cons c cs ih =>
    rw [List.foldl_cons, ih, State.ctxKeys_releaseContext, List.mem_filter, List.map_cons, List.mem_cons, not_or,
      bne_iff_ne, and_assoc]

theorem State.mem_ctxKeys_releaseContextsOf {p : Nat} {k : Nat × Nat} {s : State}
    (h : k ∈ (s.releaseContextsOf p).ctxKeys) : k ∈ s.ctxKeys ∧ k.2 ≠ p := by
  obtain ⟨hk, hid⟩ := State.mem_ctxKeys_releaseContexts.1 h
  refine ⟨hk, fun hp => hid ?_⟩
  obtain ⟨c, hc, rfl⟩ := List.mem_map.1 hk
  exact List.mem_map.2 ⟨c, List.mem_filter.2 ⟨hc, decide_eq_true hp⟩, rfl⟩

theorem State.ctxKeys_discardJournal (j : Job) (s : State) : (s.discardJournal j).ctxKeys = s.ctxKeys :=
  State.ctxKeys_freePages ..

/-- The contexts that a job held are there without a holder (R205). -/
theorem State.ctxKeys_releaseContextsOfJob (id : Word) (s : State) : (s.releaseContexts id).ctxKeys = s.ctxKeys := by
  rw [State.ctxKeys, State.releaseContexts, State.updCtx_ctx, List.map_map]
  refine List.map_congr_left fun c _ => ?_
  show ((if c.holder = id then _ else c : Context).id, (if c.holder = id then _ else c : Context).part) = (c.id, c.part)
  split <;> rfl

/-- The end of a job leaves the contexts, by ID and partition (R157, R206). -/
theorem State.ctxKeys_finishJob (id : Word) (status : Byte) (detail : Word) (s : State) :
    (s.finishJob id status detail).ctxKeys = s.ctxKeys := by
  have hrelease (j : Job) : (s.releaseJob j).ctxKeys = s.ctxKeys := by
    unfold State.releaseJob
    calc _ = _ := State.ctxKeys_of_same (s := (((s.leaveUnits j.id).discardJournal j).unbind j).releaseContexts j.id)
          (by simp)
      _ = _ := State.ctxKeys_releaseContextsOfJob j.id _
      _ = _ := State.ctxKeys_of_same (s := (s.leaveUnits j.id).discardJournal j) (by simp)
      _ = _ := State.ctxKeys_discardJournal j _
      _ = s.ctxKeys := State.ctxKeys_of_same (by simp)
  unfold State.finishJob
  split
  · rfl
  next j _ =>
    refine Eq.trans (State.ctxKeys_of_same ?_) (hrelease j)
    dsimp only
    split <;> simp

theorem State.ctxKeys_endJobs (p : Nat) (status : Byte) (s : State) : (s.endJobs p status).ctxKeys = s.ctxKeys :=
  foldl_eq_of_step (g := State.ctxKeys) (fun u id => State.ctxKeys_finishJob id status 0 u) _ s

/-! ### STOPPED (R422) -/

/-- The end of a job takes its messages from Proof's mailbox, and changes nothing else of Proof (R157, R419). -/
theorem State.finishJob_stopped (id : Word) (status : Byte) (detail : Word) (s : State) :
    (s.finishJob id status detail).prf.stopped = s.prf.stopped := by
  have hleave : (s.leaveUnits id).prf.stopped = s.prf.stopped := by
    unfold State.leaveUnits
    extract_lets s1 s2 s3
    refine Eq.trans (congrArg Prf.stopped (?_ : Part.Same .prf s3 _)) (rfl : s3.prf.stopped = s.prf.stopped)
    simp
  unfold State.finishJob
  split
  · rfl
  next j hj =>
    have hid : j.id = id := State.id_of_job? hj
    have hrelease : Part.Same .prf (s.leaveUnits id) (s.releaseJob j) := by
      rw [← hid]
      simp [State.releaseJob]
    refine Eq.trans (congrArg Prf.stopped (?_ : Part.Same .prf (s.leaveUnits id) _)) hleave
    dsimp only
    split <;> simp [hrelease]

theorem State.endJobs_stopped (p : Nat) (status : Byte) (s : State) :
    (s.endJobs p status).prf.stopped = s.prf.stopped :=
  foldl_eq_of_step (g := fun u : State => u.prf.stopped) (fun u id => State.finishJob_stopped id status 0 u) _ s

/-! ### The reset of one partition (R472) -/

/-- After its jobs and its contexts a partition reset reaches the engines, the streams, the events and Proof. -/
theorem State.resetPartition_rest {q : Part} (h : q ∉ [Part.ing, .trc, .xh, .sty, .eth, .prf]) (p : Nat) (s : State) :
    q.Same ((s.endJobs p stPartitionReset).releaseContextsOf p) (s.resetPartition p) := by
  simp only [List.mem_cons, List.not_mem_nil, or_false, not_or] at h
  unfold State.resetPartition
  dsimp only
  (repeat' split) <;> simp [h]

theorem State.mem_jobKeys_resetPartition {p : Nat} {k : Word × Nat} {s : State}
    (h : k ∈ (s.resetPartition p).jobKeys) : k ∈ s.jobKeys ∧ k.2 ≠ p := by
  rw [State.jobKeys_of_same (State.resetPartition_rest (by decide) p s),
    State.jobKeys_of_same (s := s.endJobs p stPartitionReset) (by simp)] at h
  exact State.mem_jobKeys_endJobs h

theorem State.mem_ctxKeys_resetPartition {p : Nat} {k : Nat × Nat} {s : State}
    (h : k ∈ (s.resetPartition p).ctxKeys) : k ∈ s.ctxKeys ∧ k.2 ≠ p := by
  rw [State.ctxKeys_of_same (State.resetPartition_rest (by decide) p s)] at h
  obtain ⟨hk, hp⟩ := State.mem_ctxKeys_releaseContextsOf h
  exact ⟨State.ctxKeys_endJobs p stPartitionReset s ▸ hk, hp⟩

/-- A partition reset stops a supervised partition, and no partition reset starts one (R422). -/
theorem State.resetPartition_stopped (p : Nat) (s : State) :
    (s.resetPartition p).prf.stopped = (s.supervised p || s.prf.stopped) := by
  unfold State.resetPartition
  extract_lets o chans s1 s2 s3 s4 s5 s6 s7
  have h1 : s1.prf.stopped = s.prf.stopped :=
    (congrArg Prf.stopped ((State.releaseContextsOf_same .prf (by decide) p _ (s.endJobs p stPartitionReset)).2 rfl)).trans
      (State.endJobs_stopped ..)
  have h4 : Part.Same .prf s1 s4 := by
    unfold s4 s3 s2
    (repeat' split) <;> simp
  have h5 : s5.prf.stopped = s4.prf.stopped :=
    foldl_eq_of_step (g := fun u : State => u.prf.stopped)
      (f := fun (u : State) (e : StreamEntry) => u.restartStream e.id) (fun _ _ => rfl) _ s4
  have h7 : Part.Same .prf s5 s7 := by simp [s7, s6]
  have hrest : s7.prf.stopped = s.prf.stopped :=
    (congrArg Prf.stopped h7).trans (h5.trans ((congrArg Prf.stopped h4).trans h1))
  clear_value s7
  cases hsup : s.supervised p with
  | true => rfl
  | false => exact hrest

/-! ### The reset of several partitions (R93, R472) -/

theorem State.supervised_of_otl {s t : State} (h : t.otl.running = s.otl.running) (p : Nat) :
    t.supervised p = s.supervised p := by
  rw [State.supervised, State.partRec, h]
  rfl

theorem State.resetPartition_otl (p : Nat) (s : State) : (s.resetPartition p).otl = s.otl :=
  (State.resetPartition_same .otl (by decide) p s s).2 rfl

/-- Steps each of which takes what has one mark, and adds nothing, take what has one of their marks. -/
theorem mem_foldl_of_step {α : Type} {keys : State → List (α × Nat)} {f : State → Nat → State}
    (hf : ∀ {u p k}, k ∈ keys (f u p) → k ∈ keys u ∧ k.2 ≠ p) {ps : List Nat} {k : α × Nat} {s : State}
    (h : k ∈ keys (ps.foldl f s)) : k ∈ keys s ∧ k.2 ∉ ps := by
  induction ps generalizing s with
  | nil => exact ⟨h, List.not_mem_nil⟩
  | cons p ps ih =>
    obtain ⟨hk, hps⟩ := ih h
    obtain ⟨hs, hp⟩ := hf hk
    exact ⟨hs, fun hm => (List.mem_cons.1 hm).elim hp hps⟩

theorem State.part_notMem_of_mem_jobKeys_resetPartitions {ps : List Nat} {k : Word × Nat} {s : State}
    (h : k ∈ (ps.foldl (fun s p => s.resetPartition p) s).jobKeys) : k.2 ∉ ps :=
  (mem_foldl_of_step (keys := State.jobKeys) State.mem_jobKeys_resetPartition h).2

theorem State.part_notMem_of_mem_ctxKeys_resetPartitions {ps : List Nat} {k : Nat × Nat} {s : State}
    (h : k ∈ (ps.foldl (fun s p => s.resetPartition p) s).ctxKeys) : k.2 ∉ ps :=
  (mem_foldl_of_step (keys := State.ctxKeys) State.mem_ctxKeys_resetPartition h).2

/-- Proof is in STOPPED after the resets if it was before, or one of the partitions is supervised (R422). -/
theorem State.resetPartitions_stopped (ps : List Nat) (s : State) :
    (ps.foldl (fun s p => s.resetPartition p) s).prf.stopped = (ps.any s.supervised || s.prf.stopped) := by
  induction ps generalizing s with
  | nil => rfl
  | cons p ps ih =>
    have hsup : (s.resetPartition p).supervised = s.supervised :=
      funext (State.supervised_of_otl (congrArg Otl.running (State.resetPartition_otl p s)))
    rw [List.foldl_cons, ih, hsup, State.resetPartition_stopped, List.any_cons]
    ac_rfl

theorem State.resetPartitions_partReset (ps : List Nat) (s : State) :
    (ps.foldl (fun s p => s.resetPartition p) s).glb.partReset = s.glb.partReset :=
  congrArg Glb.partReset
    (Part.same_foldl (p := .glb) (fun u p => (State.resetPartition_same .glb (by decide) p u u).2 rfl) rfl)

/-! ### The partitions named (R93) -/

theorem State.mem_resetParts {v : Word} {p : Nat} {s : State} :
    p ∈ s.resetParts v ↔ p < 8 ∧ v.getLsbD p = true ∧ (s.partRec p).isSome = true := by
  simp [State.resetParts]

/-- A sum of distinct powers of 2 has the bits of their exponents. -/
theorem testBit_total_two_pow {l : List Nat} (hl : l.SortedLT) (p : Nat) :
    (total (l.map fun k => 2 ^ k)).testBit p = true ↔ p ∈ l := by
  rw [show total (l.map fun k => 2 ^ k) = (l.map fun k => 2 ^ k).sum from List.sum_eq_foldl.symm, ← Nat.mem_bitIndices,
    Nat.bitIndices_sum_map_two_pow hl]

theorem State.resetMask_getLsbD {v : Word} {p : Nat} {s : State} (h : p ∈ s.resetParts v) :
    (s.resetMask v).getLsbD p = true := by
  have hsorted : (s.resetParts v).SortedLT := ((List.sortedLT_range 8).pairwise.filter _).sortedLT
  have hbit := (testBit_total_two_pow hsorted p).2 h
  rw [State.resetMask, BitVec.getLsbD_or, BitVec.getLsbD_ofNat, hbit]
  simp [(State.mem_resetParts.1 h).1]

/-- What a partition reset leaves of a partition that it names. -/
theorem exec_glbPartReset_of_mem {v : Word} {p : Nat} {s : State} (hp : p ∈ s.resetParts v) :
    ∃ t, exec (.glbPartReset v) s = .next t ∧ (∀ j ∈ t.jobs.list, j.part ≠ p) ∧ (∀ c ∈ t.ctx.table, c.part ≠ p) ∧
      t.resetting p = true ∧ t.otl = (s.partResetBegun (s.resetMask v)).otl ∧
      (s.supervised p = true → t.prf.stopped = true) := by
  refine ⟨_, exec_glbPartReset_of_parts (List.ne_nil_of_mem hp), fun j hj heq => ?_, fun c hc heq => ?_, ?_,
    State.resetPartitions_otl .., fun hsup => ?_⟩
  · exact State.part_notMem_of_mem_jobKeys_resetPartitions (List.mem_map.2 ⟨j, hj, rfl⟩) (heq ▸ hp)
  · exact State.part_notMem_of_mem_ctxKeys_resetPartitions (List.mem_map.2 ⟨c, hc, rfl⟩) (heq ▸ hp)
  · rw [State.resetting, State.resetPartitions_partReset]
    exact State.resetMask_getLsbD hp
  · have hbegun : (s.partResetBegun (s.resetMask v)).supervised p = true :=
      (State.supervised_of_otl (by rw [State.partResetBegun_otl]) p).trans hsup
    rw [State.resetPartitions_stopped, List.any_eq_true.2 ⟨p, hp, hbegun⟩]
    rfl

/-- Settles O57: each reset by its equation, and a partition reset by what it leaves of each partition that it names. -/
theorem resetsAreTakenAndPartitionsReset : Obligations.ResetsAreTakenAndPartitionsReset := by
  unfold Obligations.ResetsAreTakenAndPartitionsReset
  refine ⟨fun s => ⟨_, rfl, rfl⟩, fun s => ⟨_, rfl, rfl, rfl, rfl, rfl, rfl⟩,
    fun s ns hup hheld hlong => exec_resetNAssert_of_long hup hheld hlong, fun s ns hup hheld hlow hshort => ?_,
    fun s ns hns => congrArg Host.Outcome.next (if_pos (.inl hns)),
    fun s hheld => congrArg Host.Outcome.next (if_pos hheld),
    fun s rail hheld hcold => congrArg Host.Outcome.next (if_pos ⟨hheld, hcold⟩), fun s rail hno => ?_,
    fun s hdue => ?_, fun s v => ⟨fun hv => congrArg Host.Outcome.next (if_neg hv),
      fun hv => congrArg Host.Outcome.next (if_neg hv)⟩, fun s v p hp hv hrec => ?_, fun s v hlack => ?_, fun s => rfl⟩
  · refine ⟨_, exec_resetNAssert_of_short hup hheld hlow hshort, fun q hq => ?_, rfl,
      (s.closeSwitches_link .closed).1, (s.closeSwitches_link .closed).2⟩
    simp only [List.mem_cons, List.not_mem_nil, or_false, not_or] at hq
    simp [hq]
  · refine congrArg Host.Outcome.next (if_neg fun h => ?_)
    exact hno.elim (· h.1) fun hwarm => absurd h.2 (by simp [hwarm])
  · exact ⟨congrArg Host.Outcome.next ((if_pos rfl).trans (State.scheduleReset_of_none hdue .coldRegister)),
      congrArg Host.Outcome.next ((if_pos rfl).trans (State.scheduleReset_of_none hdue .warmRegister))⟩
  · obtain ⟨t, hexec, hjobs, hctx, hmask, hotl, hstop⟩ :=
      exec_glbPartReset_of_mem (State.mem_resetParts.2 ⟨hp, hv, hrec⟩)
    rw [State.partResetBegun_otl] at hotl
    exact ⟨t, hexec, hjobs, hctx, hmask, by rw [hotl], by rw [hotl], by rw [hotl], hstop⟩
  · refine exec_glbPartReset_of_none (List.eq_nil_iff_forall_not_mem.2 fun p hp => ?_)
    obtain ⟨hlt, hbit, hrec⟩ := State.mem_resetParts.1 hp
    rw [hlack p hlt hbit] at hrec
    cases hrec

end Sys2Proof.Machine
end

section
/-!
PROOF. The descriptors in flight of a slot (R120, R148): what an operation on them leaves of the job, of the slot's queue
and of the bytes that the slot reads.
-/

namespace Sys2Proof.Machine

open Sys2Proof

/-! ### The descriptors of a slot in a job -/

theorem Job.slot_lt_of_mem_inFlight {j : Job} {slot : Nat} {i : InFlight}
    (h : i ∈ (j.slots.getD slot {}).inFlight) : slot < j.slots.length := by
  by_contra hge
  rw [List.getD_eq_default _ _ (Nat.le_of_not_lt hge)] at h
  exact List.not_mem_nil h

/-- A job whose slot has changed a descriptor in flight, as `State.updFlight` changes it. -/
def Job.withFlight (slot index : Nat) (f : InFlight → InFlight) (j : Job) : Job :=
  { j with slots := j.slots.modify slot fun x =>
    { x with inFlight := x.inFlight.map fun i => if i.index = index then f i else i } }

theorem State.job?_withFlight {s : State} {id : Word} {j : Job} (h : s.job? id = some j) (slot index : Nat)
    (f : InFlight → InFlight) : (s.updFlight id slot index f).job? id = some (j.withFlight slot index f) :=
  State.job?_updFlight h slot index f

theorem Job.mem_withFlight {j : Job} {slot : Nat} {i : InFlight} (h : i ∈ (j.slots.getD slot {}).inFlight)
    (f : InFlight → InFlight) : f i ∈ ((j.withFlight slot i.index f).slots.getD slot {}).inFlight := by
  rw [Job.withFlight, getD_modify _ (Job.slot_lt_of_mem_inFlight h)]
  exact List.mem_map.2 ⟨i, h, if_pos rfl⟩

/-- What a handle reads depends on the slot's T1 region and on no other field of its slot (R148). -/
theorem Job.bytes_modify_slot {f : SlotState → SlotState} (hf : ∀ x, (f x).t1 = x.t1) (j : Job) (slot : Nat)
    (obj : Word) : ({ j with slots := j.slots.modify slot f } : Job).bytes slot obj = j.bytes slot obj := by
  have ht1 : ((j.slots.modify slot f).getD slot {}).t1 = (j.slots.getD slot {}).t1 :=
    getD_of_map_eq (map_modify_same hf j.slots slot) slot {}
  have hhandle : ({ j with slots := j.slots.modify slot f } : Job).handle obj = j.handle obj := rfl
  unfold Job.bytes
  rw [hhandle]
  cases j.handle obj with
  | t1 => exact ht1
  | _ => rfl

theorem Job.bytes_withFlight (slot index : Nat) (f : InFlight → InFlight) (j : Job) (obj : Word) :
    (j.withFlight slot index f).bytes slot obj = j.bytes slot obj :=
  Job.bytes_modify_slot (fun _ => by rfl) j slot obj

/-! ### A write through a handle (R148) -/

/-- What a handle names depends on the objects that the outputs and the bound versions have, not on their bytes. -/
theorem Job.handle_modify_out {g : OutputState → OutputState} (hg : ∀ o, (g o).obj = o.obj) (j : Job) (k : Nat)
    (obj : Word) : ({ j with outs := j.outs.modify k g } : Job).handle obj = j.handle obj := by
  have hfind (l : List OutputState) : l.findIdx? (·.obj = obj) = (l.map (·.obj)).findIdx? (· = obj) :=
    by rw [List.findIdx?_map]; rfl
  simp only [Job.handle, hfind, map_modify_same hg]

theorem Job.out_lt_of_handle {j : Job} {obj : Word} {k : Nat} (h : j.handle obj = .out k) : k < j.outs.length := by
  unfold Job.handle at h
  split at h
  · split at h <;> cases h
  · split at h
    · cases h
    · split at h
      · split at h
        · next hk =>
          cases h
          exact (List.findIdx?_eq_some_iff_findIdx_eq.1 hk).1
        · split at h <;> cases h
      · cases h

theorem Job.inFlight_put (j : Job) (slot k : Nat) (obj : Word) (hi : Nat) (f : Memory → Memory) :
    ((j.put slot obj hi f).slots.getD k {}).inFlight = (j.slots.getD k {}).inFlight := by
  unfold Job.put
  cases j.handle obj with
  | t1 => exact getD_of_map_eq (g := SlotState.inFlight) (map_modify_same (fun _ => by rfl) j.slots slot) k {}
  | _ => rfl

/-- A write through a handle that takes one is read back through it. -/
theorem Job.bytes_put {j : Job} {slot : Nat} {obj : Word} (hslot : slot < j.slots.length)
    (hw : j.writable obj = true) (hi : Nat) (f : Memory → Memory) :
    (j.put slot obj hi f).bytes slot obj = f (j.bytes slot obj) := by
  unfold Job.writable at hw
  cases hh : j.handle obj with
  | t1 =>
    have hafter : ({ j with slots := j.slots.modify slot fun x => { x with t1 := f x.t1 } } : Job).handle obj = .t1 := hh
    simp only [Job.put, hh, Job.bytes, hafter, getD_modify _ hslot]
  | plateLocal =>
    have hafter : ({ j with local_ := f j.local_ } : Job).handle obj = .plateLocal := hh
    simp only [Job.put, hh, Job.bytes, hafter]
  | out k =>
    have hafter := (Job.handle_modify_out (g := fun o => { o with data := f o.data, extent := max o.extent hi })
      (fun _ => by rfl) j k obj).trans hh
    simp only [Job.put, hh, Job.bytes, hafter, getD_modify _ (Job.out_lt_of_handle hh)]
  | _ => simp [hh] at hw

/-! ### What a slot of a job carries -/

/-- The slot of the job has descriptor `i` in flight, and reads the bytes `m` through a handle. -/
def State.Carries (t : State) (job : Word) (slot : Fin 32) (i : InFlight) (obj : Word) (m : Memory) : Prop :=
  ∃ x, t.job? job = some x ∧ i ∈ (x.slots.getD slot {}).inFlight ∧ x.bytes slot obj = m

section
variable {s : State} {job : Word} {slot : Fin 32} {j : Job} {i : InFlight} {obj : Word} {m : Memory}

theorem State.carries_of_job? (hj : s.job? job = some j) (hi : i ∈ (j.slots.getD slot {}).inFlight) (obj : Word) :
    s.Carries job slot i obj (j.bytes slot obj) :=
  ⟨j, hj, hi, rfl⟩

/-- Jobs alone say what a slot carries. -/
theorem State.Carries.of_jobs {t : State} (h : s.Carries job slot i obj m) (ht : t.jobs = s.jobs) :
    t.Carries job slot i obj m := by
  obtain ⟨x, hx, hi, hm⟩ := h
  exact ⟨x, by rw [State.job?, ht]; exact hx, hi, hm⟩

/-- A store through a handle that takes it is read back, and the descriptor stays in flight. -/
theorem State.carries_store (hj : s.job? job = some j) (hi : i ∈ (j.slots.getD slot {}).inFlight)
    (hw : j.writable obj = true) (hi' : Nat) (f : Memory → Memory) :
    (s.store j slot obj hi' f).Carries job slot i obj (f (j.bytes slot obj)) := by
  have hid := State.id_of_job? hj
  subst hid
  refine ⟨_, State.job?_updJob_of_job? (fun x => x.put_id slot obj hi' f) hj, ?_,
    Job.bytes_put (Job.slot_lt_of_mem_inFlight hi) hw hi' f⟩
  rwa [Job.inFlight_put]

/-- The residue digest is no operand (R170). -/
theorem State.Carries.addDigest (h : s.Carries job slot i obj m) (hid : j.id = job) (exact_ : Bool) :
    (s.addDigest j slot exact_).Carries job slot i obj m := by
  subst hid
  unfold State.addDigest
  split
  · exact h
  · obtain ⟨x, hx, hi, hm⟩ := h
    refine ⟨_, State.job?_updJob_of_job? (fun _ => by rfl) (show s.draw.2.job? j.id = some x from hx), ?_,
      (Job.bytes_modify_slot (fun _ => by rfl) x slot obj).trans hm⟩
    rw [getD_modify _ (Job.slot_lt_of_mem_inFlight hi)]
    exact hi

/-- A descriptor that changes in flight changes no byte. -/
theorem State.Carries.updFlight (h : s.Carries job slot i obj m) (f : InFlight → InFlight) :
    (s.updFlight job slot i.index f).Carries job slot (f i) obj m := by
  obtain ⟨x, hx, hi, hm⟩ := h
  exact ⟨_, State.job?_withFlight hx slot i.index f, Job.mem_withFlight hi f, (Job.bytes_withFlight ..).trans hm⟩

theorem State.Carries.reads (h : s.Carries job slot i obj m) : s.Reads job slot obj m := by
  obtain ⟨x, hx, -, hm⟩ := h
  exact ⟨x, hx, hm⟩

/-- A descriptor that has acted carries its status and its RESULT, and what the slot reads stays (R171). -/
theorem State.Carries.acted (h : s.Carries job slot i obj m) (hid : j.id = job) (status : Byte) (flags : NumFlags)
    (result detail : Word) (cycles : Nat) :
    (s.acted j slot i status flags result detail cycles).Acted job slot i status result ∧
      (s.acted j slot i status flags result detail cycles).Reads job slot obj m := by
  subst hid
  have hafter := h.updFlight fun x => { x with
    stage := .acted, status := status, flags := x.flags.or flags, result := result, detail := detail, cycles := cycles }
  refine ⟨?_, hafter.reads⟩
  obtain ⟨x, hx, hi, -⟩ := hafter
  exact ⟨x, hx, _, hi, rfl, rfl, rfl, rfl, rfl⟩

/-- A product that is given to the arrays waits with its tiles, and what the slot reads stays (R107). -/
theorem State.Carries.onArrays (h : s.Carries job slot i obj m) (hid : j.id = job) (flags : NumFlags) (work : ArrayWork)
    (cycles : Nat) :
    (s.onArrays j slot i flags work cycles).Waits job slot i work.tiles ∧
      (s.onArrays j slot i flags work cycles).Reads job slot obj m := by
  subst hid
  have hafter := h.updFlight fun x => { x with
    stage := .waiting, flags := x.flags.or flags, cycles := cycles, work := work }
  have hwoken := hafter.of_jobs (t := s.onArrays j slot i flags work cycles)
    ((State.wakeLoader_same .jobs (by decide) _ _ _).2 rfl)
  refine ⟨?_, hwoken.reads⟩
  obtain ⟨x, hx, hi, -⟩ := hwoken
  exact ⟨x, hx, _, hi, rfl, rfl, rfl, rfl⟩

end

end Sys2Proof.Machine
end

section
/-!
PROOF. The operations of the Drypoint path, the Wash unit and the Move path (R114 to R119, R165, R174 to R186, R194): each
runs to its equation for a descriptor that is issued, and writes C through its handle.
-/

namespace Sys2Proof.Machine

open Sys2Proof

section
variable {s : State} {job : Word} {slot : Fin 32} {j : Job} {i : InFlight} {op : Nat} {p : Descriptor → Bool}

/-! ### A descriptor that is issued -/

theorem State.Issued.mem (h : s.Issued job slot op p j i) : i ∈ (j.slots.getD slot {}).inFlight :=
  Job.mem_of_ready h.ready

theorem State.Issued.id (h : s.Issued job slot op p j i) : j.id = job :=
  State.id_of_job? h.job

theorem State.Issued.form (h : s.Issued job slot op p j i) : p i.desc = true := by
  have hready := h.ready
  unfold Job.ready at hready
  split at hready
  · have hfound := List.find?_some hready
    simp only [Bool.and_eq_true] at hfound
    exact hfound.2
  · cases hready

theorem State.Issued.carries (h : s.Issued job slot op p j i) (obj : Word) :
    s.Carries job slot i obj (j.bytes slot obj) :=
  State.carries_of_job? h.job h.mem obj

/-- A descriptor that writes its result and acts changes its job alone (R148, R171). -/
theorem State.Issued.writes (h : s.Issued job slot op p j i) {obj : Word} (hw : j.writable obj = true) (hi : Nat)
    (f : Memory → Memory) (status : Byte) (flags : NumFlags) (result detail : Word) (cycles : Nat) :
    Only [.jobs] s ((s.store j slot obj hi f).acted j slot i status flags result detail cycles) ∧
      ((s.store j slot obj hi f).acted j slot i status flags result detail cycles).Acted job slot i status result ∧
      ((s.store j slot obj hi f).acted j slot i status flags result detail cycles).Reads job slot obj
        (f (j.bytes slot obj)) := by
  refine ⟨fun q hq => ?_, (State.carries_store h.job h.mem hw hi f).acted h.id status flags result detail cycles⟩
  have hjobs : q ≠ .jobs := by simpa using hq
  simp [hjobs]

theorem State.withEpilogue_of_ok {d : Descriptor} {rows cols : Nat} {ew : Bool} {steps : List EpiStep}
    (h : s.epilogue j slot d.epilogue rows cols ew = .ok steps) (go : List EpiStep → State) :
    s.withEpilogue j slot d rows cols ew go = go steps := by
  rw [State.withEpilogue, h]

/-! ### GEMM (R112, R114) -/

theorem exec_gemm_of_issued {steps : List EpiStep} (lane : Bool) (h : s.Issued job slot 1 (fun _ => true) j i)
    (hepi : s.epilogue j slot i.desc.epilogue i.desc.m i.desc.n false = .ok steps)
    (hlane : i.desc.route j.chain.drypoint = .swapped ∨ i.desc.route j.chain.drypoint = .drypoint →
      i.desc.laneFaulty (j.bytes slot i.desc.aObj) (j.bytes slot i.desc.bObj) lane = false) :
    exec (.gemm job slot lane) s = .next (s.gemmGo j slot i steps) := by
  refine congrArg Host.Outcome.next ((State.act_of_issued h _).trans ((State.withEpilogue_of_ok hepi _).trans
    (if_neg fun hfaulty => ?_)))
  simp only [Bool.and_eq_true, Bool.or_eq_true, decide_eq_true_eq] at hfaulty
  rw [hlane hfaulty.1] at hfaulty
  exact Bool.false_ne_true hfaulty.2

/-- A product that does not go to the arrays is written and the descriptor acts (R114). -/
theorem State.gemmGo_writes {steps : List EpiStep} (h : s.Issued job slot op p j i)
    (hw : j.writable i.desc.cObj = true)
    (hroute : i.desc.route j.chain.drypoint = .kZero ∨ i.desc.route j.chain.drypoint = .swapped ∨
      i.desc.route j.chain.drypoint = .drypoint) :
    (s.gemmGo j slot i steps).Acted job slot i stOk 0 ∧ (s.gemmGo j slot i steps).Reads job slot i.desc.cObj
      (i.desc.gemmWrite (j.bytes slot i.desc.aObj) (j.bytes slot i.desc.bObj) (j.bytes slot i.desc.cObj) steps).1 := by
  unfold State.gemmGo
  extract_lets d ma mb r hi w s1 m count wash rt work
  have hstored : s1.Carries job slot i d.cObj w.1 := State.carries_store h.job h.mem hw hi _
  rcases hroute with hr | hr | hr
  · rw [show r = .kZero from hr]
    exact hstored.acted h.id ..
  · rw [show r = .swapped from hr]
    exact (hstored.addDigest h.id _).acted h.id ..
  · rw [show r = .drypoint from hr]
    exact (hstored.addDigest h.id _).acted h.id ..

/-- A product on the arrays waits for its tiles, and C stays (R106, R107). -/
theorem State.gemmGo_waits (steps : List EpiStep) (h : s.Issued job slot op p j i)
    (hroute : i.desc.route j.chain.drypoint = .arrays) :
    (s.gemmGo j slot i steps).Waits job slot i
        ((i.desc.products (j.bytes slot i.desc.aObj) (j.bytes slot i.desc.bObj)).flatMap fun q =>
          tilesOf (tileRows i.desc.fmtA i.desc.fmtB) (outColumns i.desc.fmtA i.desc.fmtB)
            (rowTime i.desc.fmtA i.desc.fmtB) q.1 q.2) ∧
      (s.gemmGo j slot i steps).Reads job slot i.desc.cObj (j.bytes slot i.desc.cObj) := by
  unfold State.gemmGo
  extract_lets d ma mb r hi w s1 m count wash rt work
  rw [show r = .arrays from hroute]
  exact ((h.carries d.cObj).addDigest h.id _).onArrays h.id ..

/-! ### CONV and POOL on the Wash unit (R175, R185, R186) -/

/-- A depthwise convolution outside the Margin engine. -/
theorem exec_conv_of_depthwise {steps : List EpiStep} (h : s.Issued job slot 2 (fun _ => true) j i)
    (hepi : s.epilogue j slot i.desc.epilogue i.desc.m i.desc.n false = .ok steps)
    (hw : j.writable i.desc.cObj = true) (hmargin : i.desc.flag 13 = false)
    (hdepth : i.desc.geo.depthwise = true) (hn : i.desc.n ≠ 0) (hbatch : i.desc.batch ≠ 0) (hk : i.desc.k ≠ 0) :
    ∃ t, exec (.conv job slot) s = .next t ∧ t.Acted job slot i stOk 0 ∧ t.Reads job slot i.desc.cObj
      (i.desc.writeMaps (j.bytes slot i.desc.cObj) steps ((List.range i.desc.batch).map fun b =>
        i.desc.depthImage (j.bytes slot i.desc.aObj) (j.bytes slot i.desc.bObj) i.desc.padValue.1 b)).1 := by
  have hgo : exec (.conv job slot) s = .next (s.convGo j slot i steps) :=
    congrArg Host.Outcome.next ((State.act_of_issued h _).trans ((State.withEpilogue_of_ok hepi _).trans
      (if_neg (by simp [hmargin]))))
  refine ⟨_, hgo, ?_⟩
  simp only [State.convGo, hn, hbatch, hk, hdepth, or_self, if_false, if_true]
  exact (h.writes hw ..).2

theorem exec_pool_of_wash {steps : List EpiStep} (h : s.Issued job slot 3 (fun _ => true) j i)
    (hepi : s.epilogue j slot i.desc.epilogue i.desc.m i.desc.n false = .ok steps)
    (hw : j.writable i.desc.cObj = true) (hmargin : i.desc.flag 13 = false) (hn : i.desc.n ≠ 0)
    (hbatch : i.desc.batch ≠ 0) :
    ∃ t, exec (.pool job slot) s = .next t ∧ t.Acted job slot i stOk 0 ∧ t.Reads job slot i.desc.cObj
      (i.desc.writeMaps (j.bytes slot i.desc.cObj) steps ((List.range i.desc.batch).map fun b =>
        i.desc.poolImage fun c q x =>
          toF32 (i.desc.tapValue (j.bytes slot i.desc.aObj) i.desc.padValue.1 b c q x))).1 := by
  have hgo : exec (.pool job slot) s = .next (s.poolGo j slot i steps) :=
    congrArg Host.Outcome.next ((State.act_of_issued h _).trans ((State.withEpilogue_of_ok hepi _).trans
      (if_neg (by simp [hmargin]))))
  refine ⟨_, hgo, ?_⟩
  simp only [State.poolGo, hn, hbatch, or_self, if_false]
  exact (h.writes hw ..).2

/-! ### NORM, EW and PWL_LOAD (R117 to R119) -/

/-- Without an epilogue every result goes through as it is (R167). -/
theorem epiRows_nil (b : Nat → Nat → Word) (rows : List (List (Word × NumFlags))) :
    (epiRows [] b rows).1 = rows.map (·.map (·.1)) := by
  have hrow (l : List (Word × NumFlags)) (k : Nat) (f : Nat → Word) :
      (l.zipIdx.map fun x => runSteps [] k x.2 (f x.2) x.1) = l :=
    List.zipIdx_map_fst 0 l
  simp only [epiRows, hrow, List.map_map, Function.comp_def]
  exact (List.map_map ..).symm.trans (congrArg (List.map (List.map (·.1))) (List.zipIdx_map_fst 0 rows))

/-- NORM of one row without a scale and an epilogue. -/
theorem exec_norm_of_row (h : s.Issued job slot 5 (fun _ => true) j i) (hepi : i.desc.epilogue = 0)
    (hw : j.writable i.desc.cObj = true) (hm : i.desc.m = 1) (hbatch : i.desc.batch ≤ 1) (hsub : i.desc.sub ≠ 1)
    (hb : i.desc.bObj = 0) :
    ∃ t, exec (.norm job slot) s = .next t ∧ t.Acted job slot i stOk 0 ∧ t.Reads job slot i.desc.cObj
      (writeRows (j.bytes slot i.desc.cObj) i.desc.cOff i.desc.fmtC i.desc.n i.desc.satFinite
        [(normRow false (i.desc.word 13) none none
          (readRowF32 (j.bytes slot i.desc.aObj) i.desc.aOff i.desc.fmtA 1 i.desc.n 0)).1]).1 := by
  have hok : s.epilogue j slot i.desc.epilogue i.desc.m i.desc.n false = .ok [] := by rw [hepi]; rfl
  have hexec : exec (.norm job slot) s = execNorm job slot s := rfl
  rw [execNorm, State.act_of_issued h] at hexec
  dsimp only at hexec
  rw [State.withEpilogue_of_ok hok] at hexec
  have hitems : max 1 i.desc.batch = 1 := by omega
  refine ⟨_, hexec, ?_⟩
  simp only [hitems, hm, hb, hsub, List.range_one, List.flatMap_singleton, List.map_singleton, epiRows_nil,
    List.map_map, Function.comp_def, Nat.zero_mul, Nat.add_zero, if_true, if_false, List.map_id']
  exact (h.writes hw ..).2

/-- EW on the Wash unit. -/
theorem exec_ewApply_of_wash {steps : List EpiStep} (h : s.Issued job slot 4 (fun d => d.sub = 0) j i)
    (hepi : s.epilogue j slot i.desc.epilogue i.desc.m i.desc.n true = .ok steps)
    (hw : j.writable i.desc.cObj = true) (hsrc : (steps.any fun e => e.src = 3) = false ∨ i.desc.bObj ≠ 0)
    (hwash : i.desc.flag 10 = false) (hbatch : i.desc.batch ≠ 0) :
    ∃ t, exec (.ewApply job slot) s = .next t ∧ Only [.jobs] s t ∧ t.Acted job slot i stOk 0 ∧
      t.Reads job slot i.desc.cObj (i.desc.ewWrite (j.bytes slot i.desc.aObj) (j.bytes slot i.desc.bObj)
        (j.bytes slot i.desc.cObj) steps).1 := by
  have hvalid : ¬ (i.desc.bObj = 0 ∧ (steps.any fun e => e.src = 3) = true) := fun hbad =>
    hsrc.elim (fun hno => Bool.false_ne_true (hno.symm.trans hbad.2)) (fun hne => hne hbad.1)
  have hexec : exec (.ewApply job slot) s = execEwApply job slot s := rfl
  rw [execEwApply, State.act_of_issued h] at hexec
  dsimp only at hexec
  rw [State.withEpilogue_of_ok hepi, if_neg hvalid, if_neg hbatch, if_neg (by simp [hwash])] at hexec
  exact ⟨_, hexec, h.writes hw ..⟩

/-- PWL_LOAD of a table that parses. -/
theorem exec_pwlLoad_of_table {x : PwlTable} (h : s.Issued job slot 4 (fun d => d.sub = 1) j i)
    (hread : j.readFault i.desc.aObj i.desc.aOff
      (4 * (2 + 3 * fld (Memory.readWord (j.bytes slot i.desc.aObj) i.desc.aOff) 6 0)) = none)
    (hparse : parsePwl (j.bytes slot i.desc.aObj) i.desc.aOff = some x) :
    ∃ t, exec (.pwlLoad job slot) s = .next t ∧ Only [.jobs, .cores] s t ∧ t.Acted job slot i stOk 0 ∧
      t.cores = s.cores.modify (j.coreOf slot) fun c => { c with
        pwl := (i.desc.param0 % 32, x) :: c.pwl.filter (·.1 != i.desc.param0 % 32) } := by
  have hexec : exec (.pwlLoad job slot) s = execPwlLoad job slot s := rfl
  simp only [execPwlLoad, State.act_of_issued h, hread, hparse] at hexec
  refine ⟨_, hexec, fun q hq => ?_, ((h.carries i.desc.cObj).acted h.id ..).1, rfl⟩
  simp only [List.mem_cons, List.not_mem_nil, or_false, not_or] at hq
  simp [hq]

/-! ### SORT and MOVE (R165, R174, R194) -/

theorem exec_sort_of_issued {best : List (Nat × Word)} (h : s.Issued job slot 9 (fun _ => true) j i)
    (hw : j.writable i.desc.cObj = true)
    (hbest : sortSelect (i.desc.sub = 1) (i.desc.word 13) i.desc.n
      (readRowF32 (j.bytes slot i.desc.aObj) i.desc.aOff i.desc.fmtA 1 i.desc.m 0) = best) :
    ∃ t, exec (.sort job slot) s = .next t ∧ Only [.jobs] s t ∧ t.Acted job slot i stOk (wd best.length) ∧
      t.Reads job slot i.desc.cObj (Memory.writeBytes (j.bytes slot i.desc.cObj) i.desc.cOff
        (best.flatMap fun x => wordBytes (wd x.1) ++ wordBytes x.2)) := by
  subst hbest
  exact ⟨_, congrArg Host.Outcome.next (State.act_of_issued h _), h.writes hw ..⟩

/-- A copy of plain rows. -/
theorem exec_moveCopy_of_plain (h : s.Issued job slot 10 (fun d => d.sub = 0) j i)
    (hw : j.writable i.desc.cObj = true) (hplain : fmtMx i.desc.fmtA = false) :
    ∃ t, exec (.moveCopy job slot) s = .next t ∧ Only [.jobs] s t ∧ t.Acted job slot i stOk 0 ∧
      t.Reads job slot i.desc.cObj (copyRows i.desc.fmtA i.desc.n (j.bytes slot i.desc.aObj)
        (j.bytes slot i.desc.cObj) i.desc.aOff i.desc.cOff (pitchOf i.desc.fmtA i.desc.n (i.desc.word 11))
        (pitchOf i.desc.fmtA i.desc.n (i.desc.word 13)) i.desc.m) := by
  have hexec : exec (.moveCopy job slot) s = execMoveCopy job slot s := rfl
  simp only [execMoveCopy, State.act_of_issued h, hplain, Bool.false_eq_true, if_false] at hexec
  exact ⟨_, hexec, h.writes hw ..⟩

/-- A conversion between layouts of one image. -/
theorem exec_moveLayout_of_image (h : s.Issued job slot 10 (fun d => d.sub = 1) j i)
    (hw : j.writable i.desc.cObj = true) (hbatch : i.desc.batch = 1) :
    ∃ t, exec (.moveLayout job slot) s = .next t ∧ Only [.jobs] s t ∧ t.Acted job slot i stOk 0 ∧
      t.Reads job slot i.desc.cObj (convertLayout i.desc.fmtA i.desc.param0 i.desc.param1.toNat i.desc.n i.desc.m
        (j.bytes slot i.desc.aObj) (j.bytes slot i.desc.cObj) i.desc.aOff i.desc.cOff) := by
  have hexec : exec (.moveLayout job slot) s = execMoveLayout job slot s := rfl
  simp only [execMoveLayout, State.act_of_issued h, hbatch, List.range_one, List.foldl_cons, List.foldl_nil,
    Nat.zero_mul, Nat.add_zero] at hexec
  exact ⟨_, hexec, h.writes hw ..⟩

/-- A transpose of plain elements. -/
theorem exec_moveTranspose_of_plain (h : s.Issued job slot 10 (fun d => d.sub = 3) j i)
    (hw : j.writable i.desc.cObj = true) (hplain : fmtMx i.desc.fmtA = false) :
    ∃ t, exec (.moveTranspose job slot) s = .next t ∧ Only [.jobs] s t ∧ t.Acted job slot i stOk 0 ∧
      t.Reads job slot i.desc.cObj (transposeElems i.desc.fmtA i.desc.m i.desc.n
        (pitchOf i.desc.fmtA i.desc.n (i.desc.word 11)) (pitchOf i.desc.fmtA i.desc.m (i.desc.word 13))
        (j.bytes slot i.desc.aObj) (j.bytes slot i.desc.cObj) i.desc.aOff i.desc.cOff) := by
  have hexec : exec (.moveTranspose job slot) s = execMoveTranspose job slot s := rfl
  simp only [execMoveTranspose, State.act_of_issued h, hplain, Bool.false_eq_true, if_false] at hexec
  exact ⟨_, hexec, h.writes hw ..⟩

end

/-- Settles O24: each operation by its equation, whose write is read back through C's handle. -/
theorem operationsWriteTheirResults : Obligations.OperationsWriteTheirResults := by
  unfold Obligations.OperationsWriteTheirResults
  refine ⟨fun s job slot lane j i steps h hepi hw hroute => ?_,
    fun s job slot j i steps h hepi hw hroute hlane => ?_,
    fun s job slot lane j i steps h hepi hw hroute => ?_,
    fun s job slot j i steps h hepi hw hmargin _ hdepth hn hbatch hk =>
      exec_conv_of_depthwise h hepi hw hmargin hdepth hn hbatch hk,
    fun s job slot j i steps h hepi hw hmargin hn hbatch => exec_pool_of_wash h hepi hw hmargin hn hbatch,
    fun s job slot j i h hepi hw hm hbatch hsub hb => exec_norm_of_row h hepi hw hm hbatch hsub hb,
    fun s job slot j i steps h hepi hw hsrc hwash hbatch => exec_ewApply_of_wash h hepi hw hsrc hwash hbatch,
    fun s job slot j i x h hread hparse => exec_pwlLoad_of_table h hread hparse,
    fun s job slot j i best h hw hbest => exec_sort_of_issued h hw hbest,
    fun s job slot j i h hw hplain => exec_moveCopy_of_plain h hw hplain,
    fun s job slot j i h hw hbatch => exec_moveLayout_of_image h hw hbatch,
    fun s job slot j i h hw hplain => exec_moveTranspose_of_plain h hw hplain⟩
  · exact ⟨_, exec_gemm_of_issued lane h hepi fun hdry => by simp [hroute] at hdry,
      State.gemmGo_writes h hw (.inl hroute)⟩
  · exact ⟨_, exec_gemm_of_issued false h hepi fun _ => hlane, State.gemmGo_writes h hw (.inr hroute)⟩
  · obtain ⟨hwaits, hreads⟩ := State.gemmGo_waits steps h hroute
    exact ⟨_, exec_gemm_of_issued lane h hepi fun hdry => by simp [hroute] at hdry, hreads, hwaits⟩

end Sys2Proof.Machine
end

section
/-!
PROOF. Units that fail (R97, R432 to R440): a diagnosed core is repaired or is to be retired, a unit that is retired is
noted, and a bank or a control core is replaced.
-/

namespace Sys2Proof.Machine

open Sys2Proof

/-! ### Diagnosis (R434, R435) -/

/-- What an update of a core keeps of it, it keeps of every core. -/
theorem State.core_updCore_same {α : Type} {g : Core → α} {f : Core → Core} (hg : ∀ c, g (f c) = g c) (n k : Nat)
    (s : State) : g ((s.updCore n f).core k) = g (s.core k) :=
  getD_of_map_eq (map_modify_same hg s.cores n) k {}

/-- A core that rejoins keeps its repair maps (R434). -/
theorem State.rejoin_repair (n : Nat) (s : State) : ((s.rejoin n).core n).repair = (s.core n).repair := by
  unfold State.rejoin
  extract_lets c s1
  have hs1 : (s1.core n).repair = (s.core n).repair :=
    State.core_updCore_same (g := Core.repair) (fun _ => by rfl) n n s
  split
  · exact hs1
  · exact (State.core_updCore_same (g := Core.repair) (fun _ => by rfl) n n s1).trans hs1

theorem State.rejoin_counts (n : Nat) (s : State) : (s.rejoin n).counts = s.counts :=
  (State.rejoin_same .counts (by decide) n s s).2 rfl

/-- A first row of the 66 goes into the map of an array that has none (R97). -/
theorem RepairMap.fix_row {m : RepairMap} {row : BitVec 7} (hm : m.rowA = 0x7F) (hrow : row.toNat ≤ 65) :
    m.fix false row = some { m with rowA := row } := by
  simp [RepairMap.fix, Nat.not_lt.2 hrow, hm]

/-- A row that a diagnosis localises is repaired, and the core rejoins. -/
theorem exec_diagnosisDone_of_row {s : State} {n : Fin 36} {a : Fin 4} {row : BitVec 7} {m : RepairMap}
    (hdiag : (s.core n).diagnosing = true) (hret : (s.core n).retiring = false)
    (hmap : (s.core n).repair[a.val]? = some m) (hm : m.rowA = 0x7F) (hrow : row.toNat ≤ 65) :
    ∃ t, exec (.diagnosisDone n (.row a row)) s = .next t ∧
      (t.core n).repair = (s.core n).repair.set a { m with rowA := row } ∧ (t.core n).state = .idle ∧
      (t.core n).diagnosing = false ∧ t.counts = (s.bump .brnSpared).counts := by
  have hlt := State.core_lt_of_diagnosing hdiag
  have hfix : ((s.core n).repair.getD a {}).fix false row = some { m with rowA := row } := by
    rw [List.getD_eq_getElem?_getD, hmap]
    exact RepairMap.fix_row hm hrow
  have hexec : exec (.diagnosisDone n (.row a row)) s = execDiagnosisDone n (.row a row) s := rfl
  simp only [execDiagnosisDone, hdiag, hret, State.repairArray, hfix, Bool.not_true, Bool.false_eq_true, or_self,
    if_false] at hexec
  refine ⟨_, hexec, ?_, ?_⟩
  · rw [State.rejoin_repair]
    exact congrArg Core.repair (State.core_updCore hlt _)
  · obtain ⟨hidle, hdone⟩ := State.rejoin_core (s := ((s.updCore n fun x => { x with
        repair := x.repair.set a { m with rowA := row } }).report 1 (4 * n + a) 2 4 0x0007 none 0
        (row.toNat + flag false 8)).bump .brnSpared) (n := n) (by simpa using hlt)
    exact ⟨hidle, hdone, State.rejoin_counts ..⟩

/-- A diagnosis that finds nothing lets the core rejoin up to the third time in a day, and is counted (R434). -/
theorem exec_diagnosisDone_noFault_counts {s : State} {n : Fin 36} (hdiag : (s.core n).diagnosing = true)
    (hret : (s.core n).retiring = false)
    (hfew : ((s.core n).transients.filter fun e => decide (s.edge < e + edgesDay)).length < 2) :
    ∃ t, exec (.diagnosisDone n .noFault) s = .next t ∧ t.counts = (s.bump .brnTransient).counts := by
  refine ⟨_, congrArg Host.Outcome.next ((if_neg (by simp [hdiag, hret])).trans (if_neg ?_)), State.rejoin_counts ..⟩
  rw [List.length_cons]
  omega

/-- Any other diagnosis marks the core for its job boundary (R433, R434). -/
theorem exec_diagnosisDone_of_lost {s : State} {n : Fin 36} {d : DiagResult} (hdiag : (s.core n).diagnosing = true)
    (hret : (s.core n).retiring = false)
    (hd : d = .notLocalised ∨ d = .outsideArrays ∨ d = .noFault ∧
      2 ≤ ((s.core n).transients.filter fun e => decide (s.edge < e + edgesDay)).length) :
    ∃ t, exec (.diagnosisDone n d) s = .next t ∧ Only [.cores] s t ∧ (t.core n).retiring = true ∧
      (t.core n).diagnosing = true := by
  have hlt := State.core_lt_of_diagnosing hdiag
  have hopen : ¬ ((!(s.core n).diagnosing) = true ∨ (s.core n).retiring = true) := by simp [hdiag, hret]
  have hmarked (u : State) (hu : Only [.cores] s u) (hlen : n.val < u.cores.length)
      (hstill : (u.core n).diagnosing = true) :
      Only [.cores] s (u.toRetire n) ∧ ((u.toRetire n).core n).retiring = true ∧
        ((u.toRetire n).core n).diagnosing = true := by
    refine ⟨fun q hq => ?_, ?_, ?_⟩
    · exact (State.updCore_same q (by simpa using hq) n _ u s).2 (hu q hq)
    · exact congrArg Core.retiring (State.core_updCore hlen _)
    · exact (State.core_updCore_same (g := Core.diagnosing) (fun _ => by rfl) n n u).trans hstill
  have hself : Only [.cores] s s := fun q _ => q.same_refl s
  rcases hd with rfl | rfl | ⟨rfl, hmany⟩
  · exact ⟨_, congrArg Host.Outcome.next (if_neg hopen), hmarked s hself hlt hdiag⟩
  · exact ⟨_, congrArg Host.Outcome.next (if_neg hopen), hmarked s hself hlt hdiag⟩
  · refine ⟨_, congrArg Host.Outcome.next ((if_neg hopen).trans (if_pos ?_)), hmarked _ (fun q hq => ?_) ?_ ?_⟩
    · rw [List.length_cons]
      omega
    · exact (State.updCore_same q (by simpa using hq) n _ s s).2 (q.same_refl s)
    · simpa using hlt
    · exact (State.core_updCore_same (g := Core.diagnosing) (fun _ => by rfl) n n s).trans hdiag

/-! ### Retirement (R432, R433, R440) -/

theorem State.checkDegraded_coreRetired (s : State) : s.checkDegraded.brn.coreRetired = s.brn.coreRetired := by
  refine foldl_eq_of_step (g := fun u : State => u.brn.coreRetired) (fun u p => ?_) (List.range 8) s
  extract_lets now old new s1
  have hs1 : s1.brn.coreRetired = u.brn.coreRetired :=
    foldl_eq_of_step (g := fun u : State => u.brn.coreRetired) (fun _ _ => by rfl) new u
  split
  · exact hs1
  · exact hs1

/-- A core that ROTATE gives up takes entries from the slot map and adds none (R26). -/
theorem State.mem_slotMap_of_giveUpCore {s : State} {c : Nat} {x : Nat × Nat × Nat}
    (h : x ∈ (s.giveUpCore c).glb.slotMap) : x ∈ s.glb.slotMap := by
  unfold State.giveUpCore at h
  extract_lets l r n idle s1 s2 at h
  split at h
  · exact h
  · have hs2 : s2.glb = s1.glb := by
      unfold s2
      split <;> rfl
    have hglb : (((s2.updCluster c fun x => { x with suspended := true }).endSuspension c).updCluster c fun x =>
        { x with spare := some (Fin.ofNat 9 (posOf n)), testing := idle, testStart := s.edge, handover := false }).glb =
        s1.glb := by
      refine Eq.trans (show Part.Same .glb s2 _ from ?_) hs2
      simp
    rw [hglb] at h
    exact (List.mem_filter.1 h).1

theorem State.giveUpCore_brn (c : Nat) (s : State) : (s.giveUpCore c).brn = s.brn :=
  (State.giveUpCore_same .brn (by decide) c s s).2 rfl

/-- A core that is retired is noted, and no slot maps to it any more (R440). -/
theorem State.retireCore_noted (n : Nat) (s : State) :
    (s.retireCore n).brn.coreRetired = s.brn.coreRetired ||| BitVec.ofNat 36 (2 ^ n) ∧
      ∀ x ∈ (s.retireCore n).glb.slotMap, x.2.2 ≠ n := by
  have hdegraded (u : State) : u.checkDegraded.glb = u.glb := (State.checkDegraded_same .glb (by decide) u u).2 rfl
  unfold State.retireCore
  extract_lets c kept spared s1 s2 s3 s4 s5 s6
  have hs6 : s6.brn.coreRetired = s2.brn.coreRetired ∧ s6.glb = s2.glb := by
    unfold s6 s5 s4 s3
    split <;> split <;> exact ⟨rfl, rfl⟩
  have hmap (x : Nat × Nat × Nat) (hx : x ∈ s6.glb.slotMap) : x.2.2 ≠ n := by
    rw [hs6.2] at hx
    simpa using (List.mem_filter.1 hx).2
  rw [State.checkDegraded_coreRetired, hdegraded]
  split
  · exact ⟨(congrArg Brn.coreRetired (s6.giveUpCore_brn c)).trans hs6.1, fun x hx =>
      hmap x (State.mem_slotMap_of_giveUpCore hx)⟩
  · exact ⟨hs6.1, hmap⟩

/-- A core is retired at its job boundary. -/
theorem exec_coreRetire_of_core {s : State} {n : Fin 36} (hret : (s.core n).retiring = true)
    (hquiet : (s.core n).quiet = true) :
    ∃ t, exec (.coreRetire (.core n)) s = .next t ∧ (t.core n).state = .retired ∧
      t.brn.coreRetired.getLsbD n = true ∧ ∀ x ∈ t.glb.slotMap, x.2.2 ≠ n.val := by
  obtain ⟨hnoted, hunmapped⟩ := s.retireCore_noted n
  refine ⟨_, congrArg Host.Outcome.next (if_pos ⟨hret, hquiet⟩), State.retireCore_core (State.core_lt_of_retiring hret),
    ?_, hunmapped⟩
  rw [hnoted, BitVec.getLsbD_or, getLsbD_ofNat_two_pow n.isLt, decide_eq_true rfl, Bool.or_true]

/-- A unit that is retired is counted, and what R440 says of its partitions follows. -/
theorem State.retired_only {p : Part} {s u : State} (h : Only [p] s u) :
    Only [p, .brn, .counts] s (u.bump .brnRetired).checkDegraded := by
  intro q hq
  simp only [List.mem_cons, List.not_mem_nil, or_false, not_or] at hq
  simpa [hq] using h q (by simpa using hq.1)

theorem State.checkDegraded_rest {p : Part} (h : p ≠ .brn) (s : State) : p.Same s s.checkDegraded :=
  (State.checkDegraded_same p h s s).2 (p.same_refl s)

/-- The Margin engine is retired when it is idle. -/
theorem exec_coreRetire_of_margin {s : State} (hin : s.jobs.marginRetired = false) (hrun : s.jobs.marginRun = none)
    (hq : s.jobs.marginQueue = []) :
    ∃ t, exec (.coreRetire .margin) s = .next t ∧ Only [.jobs, .brn, .counts] s t ∧
      t.jobs = { s.jobs with marginRetired := true } := by
  refine ⟨_, congrArg Host.Outcome.next (if_neg (by simp [hin, hrun, hq])), State.retired_only fun q hq => ?_,
    State.checkDegraded_rest (p := .jobs) (by decide) _⟩
  exact (State.updJobs_same q (by simpa using hq) _ s s).2 (q.same_refl s)

/-- The Tracing unit is retired when it is idle. -/
theorem exec_coreRetire_of_tracing {s : State} (hleave : s.trc.leaving = true) (hin : s.trc.retired = false)
    (hheld : s.trc.holder = 0) (hq : s.trc.queue = []) :
    ∃ t, exec (.coreRetire .tracing) s = .next t ∧ Only [.trc, .brn, .counts] s t ∧
      t.trc = { s.trc with
        retired := true
        leaving := false } := by
  refine ⟨_, congrArg Host.Outcome.next (if_neg (by simp [hleave, hin, hheld, hq])), State.retired_only fun q hq => ?_,
    State.checkDegraded_rest (p := .trc) (by decide) _⟩
  exact (State.updTrc_same q (by simpa using hq) _ s s).2 (q.same_refl s)

/-- The planner is retired when it is idle. -/
theorem exec_coreRetire_of_planner {s : State} (hleave : s.xh.leaving = true) (hin : s.xh.retired = false)
    (hrun : s.xh.run = none) (hq : s.xh.queue = []) (hpub : s.xh.publish = none) (hpq : s.xh.publishQueue = []) :
    ∃ t, exec (.coreRetire .planner) s = .next t ∧ Only [.xh, .brn, .counts] s t ∧
      t.xh = { s.xh with
        retired := true
        leaving := false } := by
  refine ⟨_, congrArg Host.Outcome.next (if_neg (by simp [hleave, hin, hrun, hq, hpub, hpq])),
    State.retired_only fun q hq => ?_, State.checkDegraded_rest (p := .xh) (by decide) _⟩
  exact (State.updXh_same q (by simpa using hq) _ s s).2 (q.same_refl s)

/-! ### Banks of Plate (R437) -/

/-- A scrub notes each corrected word with its edge and retires nothing. -/
theorem exec_plateScrub_of_powered {s : State} {k : Fin 4} (banks : List Nat) (hpow : (s.plate k).powered = true) :
    ∃ t, exec (.plateScrub k banks) s = .next t ∧ Only [.plt, .counts] s t ∧ (t.plate k).lastScrub = s.edge ∧
      (∀ b ∈ banks, (b, s.edge) ∈ (t.plate k).corr) ∧ (t.plate k).retired = (s.plate k).retired := by
  have hslice := State.plate_updPlate (State.plate_lt_of_powered hpow) fun x => { x with
    lastScrub := s.edge
    corr := banks.map (fun b => (b, s.edge)) ++ x.corr.filter fun e => decide (s.edge < e.2 + edgesSec) }
  have hkept := congrArg PlateSlice.retired hslice
  refine ⟨_, congrArg Host.Outcome.next (if_pos hpow), fun q hq => ?_, congrArg PlateSlice.lastScrub hslice,
    fun b hb => ?_, hkept⟩
  · simp only [List.mem_cons, List.not_mem_nil, or_false, not_or] at hq
    simp [hq]
  · have hmem : (b, s.edge) ∈ banks.map fun b => (b, s.edge) := List.mem_map.2 ⟨b, hb, rfl⟩
    exact (congrArg PlateSlice.corr hslice) ▸ List.mem_append_left _ hmem

/-- A bank that is retired joins the list of its slice and takes a spare, where one is left. -/
theorem State.retireBank_plate {s : State} {k : Nat} (h : k < s.plt.length) (b : Nat) :
    ((s.retireBank k b).2.plate k).retired = (s.plate k).retired ++ [b] ∧
      ((s.retireBank k b).2.plate k).sparesLeft = (s.plate k).sparesLeft - 1 := by
  have hslice := State.plate_updPlate h fun y => { y with
    retired := y.retired ++ [b], sparesLeft := y.sparesLeft - 1, corr := y.corr.filter (·.1 != b) }
  unfold State.retireBank
  extract_lets x s1
  split <;> exact ⟨congrArg PlateSlice.retired hslice, congrArg PlateSlice.sparesLeft hslice⟩

theorem exec_plateUncorrectable_plate {s : State} {k : Fin 4} {b : Nat} (hpow : (s.plate k).powered = true)
    (hb : b < 168) (hnot : b ∉ (s.plate k).retired) :
    ∃ t, exec (.plateUncorrectable k b) s = .next t ∧ (t.plate k).retired = (s.plate k).retired ++ [b] ∧
      (t.plate k).sparesLeft = (s.plate k).sparesLeft - 1 := by
  have hplt : (s.bump (.pltUncorr k)).loseBank.plt = s.plt := (State.loseBank_same .plt (by decide) _ s).2 rfl
  obtain ⟨hretired, hspares⟩ := State.retireBank_plate (s := (s.bump (.pltUncorr k)).loseBank) (k := k)
    (by rw [hplt]; exact State.plate_lt_of_powered hpow) b
  rw [State.plate_of_plt hplt] at hretired hspares
  refine ⟨_, congrArg Host.Outcome.next (if_neg ?_), ?_⟩
  · simp only [not_or, List.contains_iff_mem]
    exact ⟨by simp [hpow], Nat.not_le.2 hb, hnot⟩
  · rw [State.checkDegraded_plate]
    exact ⟨hretired, hspares⟩

theorem exec_plateCorrectedLimit_plate {s : State} {k : Fin 4} {b : Nat} (hpow : (s.plate k).powered = true)
    (hb : b < 168) (hnot : b ∉ (s.plate k).retired)
    (hhits : 16 ≤ ((s.plate k).corr.filter fun e => e.1 = b && decide (s.edge < e.2 + 160000000)).length) :
    ∃ t, exec (.plateCorrectedLimit k b) s = .next t ∧ Only [.plt, .brn, .counts] s t ∧
      (t.plate k).retired = (s.plate k).retired ++ [b] ∧ (t.plate k).sparesLeft = (s.plate k).sparesLeft - 1 := by
  obtain ⟨hretired, hspares⟩ := State.retireBank_plate (State.plate_lt_of_powered hpow) b
  refine ⟨_, congrArg Host.Outcome.next (if_neg ?_), fun q hq => ?_, ?_⟩
  · simp only [not_or, List.contains_iff_mem]
    exact ⟨by simp [hpow], Nat.not_le.2 hb, hnot, Nat.not_lt.2 hhits⟩
  · simp only [List.mem_cons, List.not_mem_nil, or_false, not_or] at hq
    dsimp only
    split <;> simp [hq]
  · rw [State.checkDegraded_plate]
    split <;> exact ⟨hretired, hspares⟩

/-! ### Control cores (R438) -/

/-- The spare control core joins those in work, and the lost one the retired. -/
theorem exec_ctrlWatchdogExpire_ctrlCores {s : State} {n : Fin 5} {spare : Nat} (hn : n.val ∈ s.brn.ctrlActive)
    (hspare : (firstIdx 5 fun k => !(s.brn.ctrlActive.filter (· != n.val)).contains k &&
      !(s.brn.ctrlRetired ++ [n.val]).contains k) = some spare) :
    ∃ t, exec (.ctrlWatchdogExpire n) s = .next t ∧
      t.brn.ctrlActive = s.brn.ctrlActive.filter (· != n.val) ++ [spare] ∧
      t.brn.ctrlRetired = s.brn.ctrlRetired ++ [n.val] := by
  have hin : ¬ (!s.brn.ctrlActive.contains n.val) = true := by simpa using hn
  refine ⟨_, congrArg Host.Outcome.next (if_neg hin), ?_⟩
  extract_lets s1 s2
  have hs1 : s1.brn.ctrlSpare = some spare := hspare
  have hs2 : s2.ctrlCores = (s.brn.ctrlActive.filter (· != n.val) ++ [spare], s.brn.ctrlRetired ++ [n.val]) := by
    unfold s2
    rw [hs1]
    rfl
  exact Prod.mk.inj ((State.restartHandled_ctrlCores _ s2).trans hs2)

/-- Settles O53: each unit by its lemma, with what O60's lemmas say of the core that rejoins. -/
theorem failedUnitsAreRepairedOrRetired : Obligations.FailedUnitsAreRepairedOrRetired := by
  unfold Obligations.FailedUnitsAreRepairedOrRetired
  refine ⟨fun s n a row m hdiag hret hmap hm hrow => exec_diagnosisDone_of_row hdiag hret hmap hm hrow,
    fun s n hdiag hret hfew => ?_, fun s n d hdiag hret hd => exec_diagnosisDone_of_lost hdiag hret hd,
    fun s n hret hquiet => exec_coreRetire_of_core hret hquiet,
    fun s hin hrun hq => exec_coreRetire_of_margin hin hrun hq,
    fun s hleave hin hheld hq => exec_coreRetire_of_tracing hleave hin hheld hq,
    fun s hleave hin hrun hq hpub hpq => exec_coreRetire_of_planner hleave hin hrun hq hpub hpq,
    fun s k banks hpow => exec_plateScrub_of_powered banks hpow,
    fun s k b hpow hb hnot => exec_plateUncorrectable_plate hpow hb hnot,
    fun s k b hpow hb hnot hhits => exec_plateCorrectedLimit_plate hpow hb hnot hhits,
    fun s n spare hn hspare => exec_ctrlWatchdogExpire_ctrlCores hn hspare⟩
  obtain ⟨t, hexec, hidle, hdone⟩ := exec_diagnosisDone_of_noFault hdiag hret hfew
  obtain ⟨u, hexec', hcounts⟩ := exec_diagnosisDone_noFault_counts hdiag hret hfew
  obtain rfl : t = u := by simpa using hexec.symm.trans hexec'
  exact ⟨t, hexec, hidle, hdone, hcounts⟩

end Sys2Proof.Machine
end

section
/-!
PROOF. Inside a core (R99, R102 to R107, R122, R156): what a load, a tile and a drained bank leave of the core and of the
descriptor that the arrays work for, and the faults of a core.
-/

namespace Sys2Proof.Machine

open Sys2Proof

/-! ### A core by its number -/

theorem State.core_of_getElem? {s : State} {n : Nat} {c : Core} (h : s.cores[n]? = some c) : s.core n = c := by
  rw [State.core, List.getD_eq_getElem?_getD, h]
  rfl

/-- An update of a core that there is sets it. -/
theorem State.updCore_eq_set {s : State} {n : Nat} {c : Core} (h : s.cores[n]? = some c) (f : Core → Core) :
    s.updCore n f = { s with cores := s.cores.set n (f c) } :=
  congrArg (fun l => { s with cores := l }) (modify_eq_set_of_getElem? h f)

theorem State.getElem?_updCore {s : State} {n : Nat} {c : Core} (h : s.cores[n]? = some c) (f : Core → Core) :
    (s.updCore n f).cores[n]? = some (f c) := by
  simp [h]

/-- An update that keeps the core that there is changes nothing. -/
theorem State.updCore_eq_self {s : State} {n : Nat} {f : Core → Core} (h : f (s.core n) = s.core n) :
    s.updCore n f = s := by
  have hself : s.cores.modify n f = s.cores := modify_eq_self fun c hc => by
    rw [State.core_of_getElem? hc] at h
    exact h
  exact congrArg (fun l => { s with cores := l }) hself

/-! ### Weight loads (R102 to R104) -/

section
variable {s : State} {core : Fin 36} {buf : Fin 2} {c : Core}

/-- A staging buffer of a core with a job becomes full only where it is empty. -/
theorem weightBufferReady_guard (hc : s.cores[core.val]? = some c) (hjob : c.job.isSome = true)
    (hempty : c.bufFull.getD buf false = false) :
    ¬((s.core core).job.isNone ∨ (s.core core).bufFull.getD buf false = true) := by
  rw [State.core_of_getElem? hc, hempty]
  simp [Option.isSome_iff_ne_none.1 hjob]

/-- A staging buffer that is full while no load waits for it. -/
theorem exec_weightBufferReady_of_idle (hc : s.cores[core.val]? = some c) (hjob : c.job.isSome = true)
    (hempty : c.bufFull.getD buf false = false) (hwait : c.loadWaits = false) :
    exec (.weightBufferReady core buf) s = .next { s with
      cores := s.cores.set core { c with bufFull := c.bufFull.set buf true } } := by
  refine congrArg Host.Outcome.next ((if_neg (weightBufferReady_guard hc hjob hempty)).trans
    ((if_neg ?_).trans (State.updCore_eq_set hc _)))
  rw [State.core_of_getElem? hc]
  simp [hwait]

/-- A staging buffer that a load waits for: the load starts, and its wait is counted (R103). -/
theorem exec_weightBufferReady_of_waiting (hc : s.cores[core.val]? = some c) (hjob : c.job.isSome = true)
    (hempty : c.bufFull.getD buf false = false) (hwait : c.loadWaits = true) (hnext : c.nextBuf = buf) :
    exec (.weightBufferReady core buf) s = .next (State.bumpBy (.coreLoadWait core) (2 * (s.edge - c.loadWaitEdge)) { s with
      cores := s.cores.set core { c with
        bufFull := c.bufFull.set buf true, loading := true, loadWaits := false
        loadStart := max s.edge c.loadWaitEdge } }) := by
  have hcore := State.core_of_getElem? hc
  refine congrArg Host.Outcome.next ((if_neg (weightBufferReady_guard hc hjob hempty)).trans ((if_pos ?_).trans ?_))
  · rw [hcore]
    exact ⟨hwait, hnext⟩
  · rw [hcore, State.updCore_eq_set (State.getElem?_updCore hc _), State.updCore_cores,
      modify_eq_set_of_getElem? hc, List.set_set]
    rfl

end

/-- The next load changes nothing of a core but the state of its loader. -/
theorem Core.nextLoad_eq (edge : Nat) (next : Option Bool) (c : Core) :
    ∃ l ls lw lwe bw bwe, c.nextLoad edge next = { c with
      loading := l, loadStart := ls, loadWaits := lw, loadWaitEdge := lwe, bankWait := bw, bankWaitEdge := bwe } := by
  unfold Core.nextLoad
  dsimp only
  repeat' split
  all_goals exact ⟨_, _, _, _, _, _, rfl⟩

@[simp] theorem Core.flush_bufFull (c : Core) : c.flush.bufFull = c.bufFull := by
  unfold Core.flush
  split <;> rfl

@[simp] theorem Core.flush_nextBuf (c : Core) : c.flush.nextBuf = c.nextBuf := by
  unfold Core.flush
  split <;> rfl

/-- The K step that streams changes the working weights to the shadow ones where its first row carried the swap mark
(R102). -/
theorem Core.flush_working (c : Core) :
    c.flush.working = if c.feed = [] ∨ c.swapMark = false then c.working else c.shadow := by
  unfold Core.flush
  by_cases hfeed : c.feed = []
  · simp [hfeed]
  · cases hmark : c.swapMark <;> simp [hfeed]

/-- The core of a completed load: its rows stream, and the first K step of a tile takes a bank (R104, R106). -/
def Core.loadDone (edge bank : Nat) (owner : Word × Nat × Nat) (w : ArrayWork) (t : ArrayTile) (c : Core) : Core :=
  (if w.step = 0 then c.flush.takeBank owner else c.flush).stream edge bank w t

/-- A load that is complete counts, and leaves the core with its rows streaming and the next load chosen (R104). -/
theorem exec_weightLoadDone {s : State} {core : Fin 36} {c : Core} {j : Job} {k : Nat} {i : InFlight}
    (hc : s.cores[core.val]? = some c) (hload : s.loadOf core = some (j, k, i)) (hloading : c.loading = true)
    (hstart : c.loadStart + 32 ≤ s.edge) :
    ∃ t bank next, exec (.weightLoadDone core) s = .next t ∧ t.counts = (s.bump (.coreWeightLoads core)).counts ∧
      t.cores[core.val]? = some (Core.nextLoad s.edge next
        (c.loadDone s.edge bank (j.id, k, i.index) i.work (i.work.tiles.getD i.work.tile {}))) := by
  have hexec : exec (.weightLoadDone core) s = execWeightLoadDone core s := rfl
  have hgo : ¬((!c.loading) = true ∨ s.edge < c.loadStart + 32) := by simp [hloading, hstart]
  simp only [execWeightLoadDone, hload, State.core_of_getElem? hc, if_neg hgo] at hexec
  exact ⟨_, _, _, hexec, rfl, State.getElem?_updCore (State.getElem?_updCore hc _) _⟩

/-- A load frees its buffer, puts its weights into the shadow registers, and its rows stream behind the swap mark
(R102 to R104). -/
theorem weightLoadDone_fields {s : State} {core : Fin 36} {c : Core} {j : Job} {k : Nat} {i : InFlight} {x : ArrayTile}
    (hc : s.cores[core.val]? = some c) (hload : s.loadOf core = some (j, k, i)) (hloading : c.loading = true)
    (hstart : c.loadStart + 32 ≤ s.edge) (hx : i.work.tiles.getD i.work.tile {} = x) :
    ∃ t, exec (.weightLoadDone core) s = .next t ∧ Only [.counts, .jobs, .cores] s t ∧
      t.counts = (s.bump (.coreWeightLoads core)).counts ∧ ∃ d, t.cores[core.val]? = some d ∧
        d.bufFull = c.bufFull.set c.nextBuf false ∧ d.nextBuf = 1 - c.nextBuf ∧
        d.working = (if c.feed = [] ∨ c.swapMark = false then c.working else c.shadow) ∧
        d.shadow = x.weights i.work.int i.work.pack i.work.step ∧ d.swapMark = true ∧
        d.feed = x.rows i.work.step ∧ d.enterEdge = s.edge + (x.acts.length * x.rowTime + 1) / 2 := by
  subst hx
  obtain ⟨t, bank, next, hexec, hcounts, hcores⟩ := exec_weightLoadDone hc hload hloading hstart
  have honly : Only [.counts, .jobs, .cores] s t := (exec_only hexec).mono (by simp [mayChange])
  obtain ⟨l, ls, lw, lwe, bw, bwe, hnext⟩ := Core.nextLoad_eq s.edge next
    (c.loadDone s.edge bank (j.id, k, i.index) i.work (i.work.tiles.getD i.work.tile {}))
  rw [hnext] at hcores
  refine ⟨t, hexec, honly, hcounts, _, hcores, ?_, ?_, ?_, rfl, rfl, rfl, rfl⟩
  · simp only [Core.loadDone, Core.stream, apply_ite Core.bufFull, apply_ite Core.nextBuf, Core.takeBank,
      Core.flush_bufFull, Core.flush_nextBuf, ite_self]
  · simp only [Core.loadDone, Core.stream, apply_ite Core.nextBuf, Core.takeBank, Core.flush_nextBuf, ite_self]
  · rw [← Core.flush_working]
    simp only [Core.loadDone, Core.stream, apply_ite Core.working, Core.takeBank, ite_self]

/-! ### Tiles (R99, R107, R122) -/

/-- The job whose tile the arrays of a core work on is there, and its descriptor waits. -/
theorem State.of_tileOf {s : State} {core : Nat} {j : Job} {k : Nat} {i : InFlight}
    (h : s.tileOf core = some (j, k, i)) :
    s.job? j.id = some j ∧ i ∈ (j.slots.getD k {}).inFlight ∧ i.stage = .waiting := by
  unfold State.tileOf at h
  split at h
  · cases h
  · next x hx =>
    split at h
    · cases h
    · split at h
      · obtain ⟨i', hi', heq⟩ := Option.map_eq_some_iff.1 h
        cases heq
        obtain ⟨id, -, hid⟩ := Option.bind_eq_some_iff.1 hx
        have hstage := List.find?_some hi'
        simp only [Bool.and_eq_true, decide_eq_true_eq] at hstage
        exact ⟨State.id_of_job? hid ▸ hid, List.mem_of_find?_eq_some hi', hstage.1⟩
      · cases h

/-- Comparators that agree, and a command that names no array, leave no fault of a tile (R99). -/
theorem arrayFaults_eq_nil (core : Nat) (compared : BitVec 4) (row job : Word) :
    arrayFaults core compared 0 0 row job = [] := by
  simp [arrayFaults]

/-- The one array that a command names is the one fault of a tile, where it has compared (R122). -/
theorem arrayFaults_eq_singleton (core : Nat) {compared : BitVec 4} {a : Fin 4} (ha : compared.getLsbD a = true)
    (row job : Word) :
    arrayFaults core compared 0 (BitVec.ofNat 4 (2 ^ a.val)) row job =
      [{ kind := 1, inst := 4 * core + a, code := 1, detail := row.toNat, jobs := [job] }] := by
  have hfilter : ((List.range 4).filter fun n => (compared &&& (0 ||| BitVec.ofNat 4 (2 ^ a.val))).getLsbD n) =
      (List.range 4).filter fun n => decide (n = a.val) := by
    refine List.filter_congr fun n hn => ?_
    rw [BitVec.getLsbD_and, BitVec.getLsbD_or, getLsbD_ofNat_two_pow (List.mem_range.1 hn)]
    by_cases hna : n = a.val
    · simp [hna, ha]
    · simp [hna, Ne.symm hna]
  have hone : ∀ a : Fin 4, ((List.range 4).filter fun n => decide (n = a.val)) = [a.val] := by decide
  rw [arrayFaults, hfilter, hone]
  rfl

/-- One fault of a core is recorded for its own jobs. -/
theorem State.coreFaults_singleton {f : PendingFault} {id : Word} (hf : f.jobs = [id]) (core : Nat) (s : State) :
    s.coreFaults core [f] = s.coreFault core f.kind f.inst f.code f.detail [id] := by
  have hids : (([f] : List PendingFault).flatMap (·.jobs)).eraseDups = [id] := by
    simp [hf, List.eraseDups, List.eraseDupsBy, List.eraseDupsBy.loop]
  rw [State.coreFaults, hids]
  rfl

section
variable {s : State} {core : Fin 36} {c : Core} {j : Job} {k n : Nat} {i : InFlight}

/-- A tile that ends without a fault drains its bank (R107). -/
theorem exec_tileComplete_of_clean (row : Word) (hc : s.cores[core.val]? = some c)
    (htile : s.tileOf core = some (j, k, i)) (htail : c.tail = none) (hpending : c.pendingFaults = [])
    (hbank : s.tileBank core i = some n) (hclean : (c.flush.banks.getD n {}).mismatch = 0) :
    exec (.tileComplete core 0 row) s =
      .next ((s.updCore core fun x => x.flush.drain s.edge n i.work.drainCycles).updFlight j.id k i.index fun x =>
        { x with work := { x.work with tiles := x.work.tiles.drop 1, tile := x.work.tile - 1 } }) := by
  have hexec : exec (.tileComplete core 0 row) s = execTileComplete core 0 row s := rfl
  simpa only [execTileComplete, State.core_of_getElem? hc, htail, htile, hbank, hclean, arrayFaults_eq_nil, hpending,
    List.append_nil] using hexec

/-- A mismatch in an array is counted for it and is a fault of the core (R122). -/
theorem exec_tileComplete_of_mismatch (a : Fin 4) (row : Word) (hc : s.cores[core.val]? = some c)
    (htile : s.tileOf core = some (j, k, i)) (htail : c.tail = none) (hpending : c.pendingFaults = [])
    (hbank : s.tileBank core i = some n) (hclean : (c.flush.banks.getD n {}).mismatch = 0)
    (hcompared : (c.flush.banks.getD n {}).compared.getLsbD a = true) :
    exec (.tileComplete core (BitVec.ofNat 4 (2 ^ a.val)) row) s =
      .next ((s.bump (.coreCheckFail core a)).coreFault core 1 (4 * core + a.val) 1 row.toNat [j.id]) := by
  have hexec : exec (.tileComplete core (BitVec.ofNat 4 (2 ^ a.val)) row) s =
      execTileComplete core (BitVec.ofNat 4 (2 ^ a.val)) row s := rfl
  have hcore := State.core_of_getElem? hc
  have harray : Fin.ofNat 4 (4 * core.val + a.val) = a := Fin.ext (by simp [Fin.ofNat])
  have hself : ∀ x : Counter, (s.bump x).updCore core (fun c => { c with pendingFaults := [], tail := none }) = s.bump x :=
    fun x => State.updCore_eq_self (by
      change ({ s.core core with pendingFaults := [], tail := none } : Core) = s.core core
      rw [hcore, ← hpending, ← htail])
  simp only [execTileComplete, hcore, htail, htile, hbank, hclean, arrayFaults_eq_singleton core.val hcompared, hpending,
    List.append_nil, State.tileFaults, List.foldl_cons, List.foldl_nil, harray, hself] at hexec
  rw [hexec, State.coreFaults_singleton rfl]

end

/-- The bank of a tile drains, and the descriptor waits for the other tiles. -/
theorem tileComplete_drains {s : State} {core : Fin 36} {row : Word} {c : Core} {j : Job} {k : Fin 32} {i : InFlight}
    {n : Nat} (hc : s.cores[core.val]? = some c) (htile : s.tileOf core = some (j, k.val, i)) (htail : c.tail = none)
    (hpending : c.pendingFaults = []) (hbank : s.tileBank core i = some n)
    (hclean : (c.flush.banks.getD n {}).mismatch = 0) :
    ∃ t, exec (.tileComplete core 0 row) s = .next t ∧ Only [.jobs, .cores] s t ∧
      t.cores = s.cores.set core (c.flush.drain s.edge n i.work.drainCycles) ∧
      t.Waits j.id k i (i.work.tiles.drop 1) := by
  obtain ⟨hjob, hmem, hstage⟩ := State.of_tileOf htile
  refine ⟨_, exec_tileComplete_of_clean row hc htile htail hpending hbank hclean, ?_,
    modify_eq_set_of_getElem? hc _, _, State.job?_withFlight (s := s.updCore core _) hjob k i.index _, _,
    Job.mem_withFlight hmem _, rfl, rfl, hstage, rfl⟩
  intro q hq
  simp only [List.mem_cons, List.not_mem_nil, or_false, not_or] at hq
  simp [hq]

/-! ### Accumulator banks (R107) -/

/-- The core with one of its banks free. -/
def Core.freeBank (bank : Fin 2) (c : Core) : Core := { c with banks := c.banks.set bank {} }

section
variable {s : State} {core : Fin 36} {bank : Fin 2} {c : Core} {b : AccBank}

/-- A bank is free where it drains to its end and the other one does not drain before it. -/
theorem accBankFree_guard (hc : s.cores[core.val]? = some c) (hb : c.banks.getD bank {} = b) (hstate : b.state = .draining)
    (hend : b.drained ≤ s.edge) (hother : (c.banks.getD (1 - bank.val) {}).state ≠ .draining) :
    ¬(((s.core core).banks.getD bank {}).state ≠ .draining ∨ s.edge < ((s.core core).banks.getD bank {}).drained ∨
      (((s.core core).banks.getD (1 - bank.val) {}).state = .draining ∧
        ((s.core core).banks.getD (1 - bank.val) {}).drained < ((s.core core).banks.getD bank {}).drained)) := by
  rw [State.core_of_getElem? hc, hb]
  rintro (h | h | h)
  · exact h hstate
  · omega
  · exact hother h.1

/-- A drained bank that no tile waits for. -/
theorem exec_accBankFree_of_idle (hc : s.cores[core.val]? = some c) (hb : c.banks.getD bank {} = b)
    (hstate : b.state = .draining) (hend : b.drained ≤ s.edge)
    (hother : (c.banks.getD (1 - bank.val) {}).state ≠ .draining) (hwait : c.bankWait = none) :
    exec (.accBankFree core bank) s = .next (State.bankDrained core b { s with
      cores := s.cores.set core { c with banks := c.banks.set bank {} } }) := by
  refine congrArg Host.Outcome.next ((if_neg (accBankFree_guard hc hb hstate hend hother)).trans ((if_neg ?_).trans ?_))
  · rw [State.core_of_getElem? hc, hwait]
    simp
  · rw [State.core_of_getElem? hc, hb, State.updCore_eq_set hc]

/-- A drained bank that a tile waits for: the tile starts, and its wait is counted. -/
theorem exec_accBankFree_of_waiting (hc : s.cores[core.val]? = some c) (hb : c.banks.getD bank {} = b)
    (hstate : b.state = .draining) (hend : b.drained ≤ s.edge) (howner : b.owner = none)
    (hother : (c.banks.getD (1 - bank.val) {}).state ≠ .draining) (hwait : c.bankWait = some bank.val) :
    exec (.accBankFree core bank) s = .next (State.bumpBy (.coreAccWait core) (2 * (s.edge - c.bankWaitEdge))
      ((s.updCore core (Core.freeBank bank)).updCore core
        (Core.nextLoad s.edge ((s.updCore core (Core.freeBank bank)).nextStep core)))) := by
  have hcore := State.core_of_getElem? hc
  have hdrained : ∀ t : State, t.bankDrained core b = t := fun t => by rw [State.bankDrained, howner]
  refine congrArg Host.Outcome.next ((if_neg (accBankFree_guard hc hb hstate hend hother)).trans
    ((if_pos ?_).trans ?_))
  · rw [hcore, hwait]
  · rw [hcore, hb, hdrained]
    rfl

end

/-- The tile that waited for a drained bank starts in it. -/
theorem accBankFree_starts {s : State} {core : Fin 36} {bank : Fin 2} {c : Core} {b : AccBank}
    (hc : s.cores[core.val]? = some c) (hb : c.banks.getD bank {} = b) (hstate : b.state = .draining)
    (hend : b.drained ≤ s.edge) (howner : b.owner = none)
    (hother : (c.banks.getD (1 - bank.val) {}).state ≠ .draining) (hwait : c.bankWait = some bank.val) :
    ∃ t, exec (.accBankFree core bank) s = .next t ∧ Only [.counts, .cores] s t ∧
      t.counts = (s.bumpBy (.coreAccWait core) (2 * (s.edge - c.bankWaitEdge))).counts ∧
      ∃ d, t.cores[core.val]? = some d ∧ d.banks = c.banks.set bank {} := by
  refine ⟨_, exec_accBankFree_of_waiting hc hb hstate hend howner hother hwait, ?_, rfl, _,
    State.getElem?_updCore (State.getElem?_updCore hc _) _, ?_⟩
  · intro q hq
    simp only [List.mem_cons, List.not_mem_nil, or_false, not_or] at hq
    simp [hq]
  · obtain ⟨l, ls, lw, lwe, bw, bwe, hnext⟩ :=
      Core.nextLoad_eq s.edge ((s.updCore core (Core.freeBank bank)).nextStep core) (c.freeBank bank)
    rw [hnext]
    rfl

/-- The end of the arrays' work of a descriptor that is no product writes no bytes of its own. -/
theorem State.arraysDone_of_other {i : InFlight} (h1 : i.desc.op ≠ 1) (h2 : i.desc.op ≠ 2) (j : Job) (slot : Nat)
    (s : State) : s.arraysDone j slot i = s.acted j slot i i.status {} i.result i.detail i.cycles := by
  unfold State.arraysDone
  split
  · next h => exact absurd h h1
  · next h => exact absurd h h2
  · rfl

/-- The results of a bank join the work of the descriptor that owns it. -/
def InFlight.join (b : AccBank) (i : InFlight) : InFlight :=
  { i with work := { i.work with results := i.work.results ++ [b.sums] } }

/-- With its last bank the one descriptor in flight of a slot is done on the arrays (R107). -/
theorem State.bankDrained_of_last {s : State} {core : Nat} {b : AccBank} {j : Job} {slot : Nat} {i : InFlight}
    (howner : b.owner = some (j.id, slot, i.index)) (hj : s.job? j.id = some j)
    (hflight : (j.slots.getD slot {}).inFlight = [i]) (hstage : i.stage = .waiting) (htiles : i.work.tiles = [])
    (hbanks : ∀ x ∈ (s.core core).banks, x.owner ≠ b.owner) :
    s.bankDrained core b = (s.updFlight j.id slot i.index (InFlight.join b)).arraysDone
      (j.withFlight slot i.index (InFlight.join b)) slot (i.join b) := by
  have hmem : i ∈ (j.slots.getD slot {}).inFlight := hflight ▸ List.mem_singleton_self i
  have hjoined : ((j.withFlight slot i.index (InFlight.join b)).slots.getD slot {}).inFlight = [i.join b] := by
    rw [Job.withFlight, getD_modify _ (Job.slot_lt_of_mem_inFlight hmem), hflight]
    exact congrArg (fun x => [x]) (if_pos rfl)
  have hfind : [i.join b].find? (fun x => x.index = i.index && x.stage = .waiting) = some (i.join b) := by
    simp [InFlight.join, hstage]
  have hlast : ((i.join b).work.tiles.isEmpty &&
      !(s.core core).banks.any fun x => decide (x.owner = some (j.id, slot, i.index))) = true := by
    rw [howner] at hbanks
    simpa [InFlight.join, htiles] using hbanks
  have hafter : (s.updFlight j.id slot i.index fun x =>
      { x with work := { x.work with results := x.work.results ++ [b.sums] } }).job? j.id =
        some (j.withFlight slot i.index (InFlight.join b)) := State.job?_withFlight hj slot i.index _
  simp only [State.bankDrained, howner, hafter, hjoined, hfind]
  exact if_pos hlast

/-- The last bank of a descriptor that is no product: the descriptor has acted. -/
theorem State.bankDrained_acted {s : State} {core : Nat} {b : AccBank} {j : Job} {slot : Fin 32} {i : InFlight}
    (howner : b.owner = some (j.id, slot.val, i.index)) (hj : s.job? j.id = some j)
    (hflight : (j.slots.getD slot {}).inFlight = [i]) (hstage : i.stage = .waiting) (h1 : i.desc.op ≠ 1)
    (h2 : i.desc.op ≠ 2) (htiles : i.work.tiles = []) (hbanks : ∀ x ∈ (s.core core).banks, x.owner ≠ b.owner) :
    (s.bankDrained core b).Acted j.id slot i i.status i.result := by
  have hmem : i ∈ (j.slots.getD slot {}).inFlight := hflight ▸ List.mem_singleton_self i
  rw [State.bankDrained_of_last howner hj hflight hstage htiles hbanks, State.arraysDone_of_other (i := i.join b) h1 h2]
  exact (((State.carries_of_job? hj hmem 0).updFlight (InFlight.join b)).acted rfl ..).1

/-! ### Faults of the core itself (R122, R156, R434) -/

section
variable {s : State} {core : Fin 36} {id : Word}

/-- The residue fault of a core with no tile in progress hands its job to restart at once. -/
theorem exec_washResidueFault_of_idle (hjobs : s.coreJobs core = [id]) (htile : (s.core core).inTile = false) :
    exec (.washResidueFault core) s = .next ((s.bump (.coreWashResidue core)).coreFault core 2 core 3 0 [id]) := by
  refine congrArg Host.Outcome.next ((if_neg (?_ : ¬(s.core core).inTile = true)).trans ?_)
  · simp [htile]
  · exact State.coreFaults_singleton hjobs core _

/-- The residue fault of a core with a tile in progress waits for the tile's end. -/
theorem exec_washResidueFault_of_tile {c : Core} (hc : s.cores[core.val]? = some c) (hjobs : s.coreJobs core = [id])
    (htile : c.inTile = true) :
    exec (.washResidueFault core) s = .next (State.bump (.coreWashResidue core) { s with
      cores := s.cores.set core { c with
        pendingFaults := c.pendingFaults ++ [{ kind := 2, inst := core, code := 3, jobs := [id] }] } }) := by
  have hin : (s.core core).inTile = true := by rw [State.core_of_getElem? hc, htile]
  refine congrArg Host.Outcome.next ((if_pos hin).trans ?_)
  rw [hjobs, State.updCore_eq_set (s := s.bump (.coreWashResidue core)) hc]
  rfl

/-- An uncorrectable error in T1 restarts the job that reads it. -/
theorem exec_t1Uncorrectable_of_job (bank : Fin 8) (hjobs : s.coreJobs core = [id]) :
    exec (.t1Uncorrectable core bank) s =
      .next ((s.report 2 core 1 2 0x0012 ((s.job? id).map (·.part)) id bank).faultJob id none) := by
  have hfaulty : s.faultyJob core = ([id], s) := by rw [State.faultyJob, hjobs]
  have hexec : exec (.t1Uncorrectable core bank) s = execT1Uncorrectable core bank s := rfl
  simpa only [execT1Uncorrectable, hfaulty] using hexec

end

/-- Settles O27: the loader's steps by the fields of the core that they change, the ends of tiles and banks by the
descriptor that the arrays work for, and the faults of a core by the jobs on it. -/
theorem coresLoadComputeAndFault : Obligations.CoresLoadComputeAndFault := by
  refine ⟨?_, ?_, ?_, ?_, ?_, ?_, ?_, ?_, ?_, ?_, ?_⟩
  · intro s core buf c
    exact exec_weightBufferReady_of_idle
  · intro s core buf c
    exact exec_weightBufferReady_of_waiting
  · intro s core c j k i x
    exact weightLoadDone_fields
  · intro s core row c j k i n hc htile htail hpending
    exact tileComplete_drains hc htile htail hpending
  · intro s core a row c j k i n hc htile htail hpending
    exact exec_tileComplete_of_mismatch a row hc htile htail hpending
  · intro s core bank c b
    exact exec_accBankFree_of_idle
  · intro s core bank c b
    exact accBankFree_starts
  · intro s core b j slot i howner hj hflight hstage
    exact State.bankDrained_acted howner hj hflight hstage
  · intro s core id
    exact exec_washResidueFault_of_idle
  · intro s core c id
    exact exec_washResidueFault_of_tile
  · intro s core bank id
    exact exec_t1Uncorrectable_of_job bank

end Sys2Proof.Machine
end

section
/-!
PROOF. The sequencer of a slot (R120, R148, R150, R159, R168 to R171): what an issue and a completion leave of the job, and
the descriptors that the sequencer runs itself.
-/

namespace Sys2Proof.Machine

open Sys2Proof

/-! ### What the tiers leave of the jobs (R257, R264)

An object that gives up or takes room changes the binds of the jobs alone, and the layer-order chain notes what it has
promoted: whatever of a job rests on neither stays as it is. -/

/-- What `v` tells of each job that exists. -/
def State.jobsBy {β : Type} (v : Job → β) (s : State) : List β := s.jobs.list.map v

section
variable {β : Type} {v : Job → β}

theorem State.jobsBy_of_same {s t : State} (h : Part.Same .jobs s t) : t.jobsBy v = s.jobsBy v :=
  congrArg (fun q : Jobs => q.list.map v) h

theorem State.jobsBy_updJobs_map {f : Jobs → Jobs} {g : Job → Job} (s : State)
    (hf : (f s.jobs).list = s.jobs.list.map g) (hg : ∀ j, v (g j) = v j) : (s.updJobs f).jobsBy v = s.jobsBy v := by
  simp only [State.jobsBy, State.updJobs, hf, List.map_map, Function.comp_def, hg]

variable (hbound : ∀ (j : Job) b, v { j with bound := b } = v j)
include hbound

theorem State.jobsBy_markGone (o : ObjVersion) (s : State) : (s.markGone o).jobsBy v = s.jobsBy v :=
  State.jobsBy_updJobs_map s rfl fun j => hbound j _

theorem State.jobsBy_loseCopies (st : DirState) (o : ObjVersion) (s : State) :
    (s.loseCopies st o).jobsBy v = s.jobsBy v := by
  unfold State.loseCopies
  calc _ = _ := State.jobsBy_of_same ((State.endFetches_same .jobs (by decide) o _ _).2 rfl)
    _ = _ := State.jobsBy_markGone hbound o _
    _ = _ := State.jobsBy_of_same (by simp)

theorem State.jobsBy_makeAbsent (o : ObjVersion) (s : State) : (s.makeAbsent o).jobsBy v = s.jobsBy v :=
  (State.jobsBy_of_same (by simp [State.makeAbsent])).trans (State.jobsBy_loseCopies hbound .absent o s)

theorem State.jobsBy_dropped (o : ObjVersion) (s : State) : ((s.makeAbsent o).bump .tirDropped).jobsBy v = s.jobsBy v :=
  (State.jobsBy_of_same (s := s.makeAbsent o) (by simp)).trans (State.jobsBy_makeAbsent hbound o s)

theorem State.jobsBy_evictT2 (q need : Nat) (o : ObjVersion) (s : State) : (s.evictT2 q need o).jobsBy v = s.jobsBy v := by
  unfold State.evictT2
  dsimp only
  repeat' split
  · exact State.jobsBy_of_same (by simp)
  · rfl
  · exact State.jobsBy_of_same (by simp)
  · exact (State.jobsBy_dropped hbound o _).trans (State.jobsBy_of_same (by simp))

theorem State.jobsBy_evictFor (q need : Nat) (mirrored : Bool) (l : List ObjVersion) (s : State) :
    (State.evictFor 2 q need mirrored l s).jobsBy v = s.jobsBy v := by
  induction l generalizing s with
  | nil => rfl
  | cons o l ih =>
    rw [State.evictFor]
    split
    · rfl
    · exact (ih _).trans (State.jobsBy_evictT2 hbound q need o s)

theorem State.jobsBy_roomT2 (q need : Nat) (s : State) : (s.roomT2 q need).2.jobsBy v = s.jobsBy v := by
  unfold State.roomT2
  split
  · rfl
  · exact State.jobsBy_evictFor hbound ..

theorem State.jobsBy_fetchExtent (job : Word) (slot e : Nat) (o : ObjVersion) (s : State) :
    (s.fetchExtent job slot e o).jobsBy v = s.jobsBy v := by
  unfold State.fetchExtent
  extract_lets r tag src q
  have hr : r.2.jobsBy v = s.jobsBy v := State.jobsBy_roomT2 hbound ..
  repeat' split
  · rfl
  · exact State.jobsBy_of_same (by simp)
  · exact State.jobsBy_of_same (by simp)
  · exact hr
  · exact (State.jobsBy_of_same (by simp)).trans hr
  · exact (State.jobsBy_of_same (by simp)).trans hr

theorem State.jobsBy_promoteT2 (part : Nat) (obj : Word) (ver : Nat) (s : State) :
    (s.promoteT2 part obj ver).jobsBy v = s.jobsBy v := by
  unfold State.promoteT2
  repeat' split
  · rfl
  · rfl
  · refine (foldl_eq_of_step (fun u e => ?_) _ _).trans (State.jobsBy_of_same (by simp))
    split
    · exact State.jobsBy_fetchExtent hbound ..
    · rfl

theorem State.jobsBy_layerChain (hchained : ∀ (j : Job) c, v { j with chained := c } = v j) (j : Job) (d : Descriptor)
    (s : State) : (s.layerChain j d).jobsBy v = s.jobsBy v := by
  unfold State.layerChain
  split
  · rfl
  · refine foldl_eq_of_step (fun u id => ?_) _ _
    have hupd : (u.updJob j.id fun x => { x with chained := x.chained ++ [id] }).jobsBy v = u.jobsBy v := by
      refine State.jobsBy_updJobs_map u rfl fun x => ?_
      split
      · exact hchained x _
      · rfl
    split
    · rfl
    · split
      · rfl
      · dsimp only
        split
        · exact hupd
        · exact (State.jobsBy_promoteT2 hbound ..).trans ((State.jobsBy_of_same (by simp)).trans hupd)

end

/-- What the sequencer runs of a job. -/
def Job.work (j : Job) : Word × JobState × List SlotState := (j.id, j.state, j.slots)

/-- The jobs' IDs, states and slots say the state and the slots of a job by its ID. -/
theorem State.job?_of_jobsBy {s t : State} {id : Word} {j : Job} (h : t.jobsBy Job.work = s.jobsBy Job.work)
    (hj : s.job? id = some j) : ∃ x, t.job? id = some x ∧ x.state = j.state ∧ x.slots = j.slots := by
  have hfind (u : State) : (u.job? id).map Job.work = (u.jobsBy Job.work).find? fun w => w.1 = id := by
    rw [State.jobsBy, List.find?_map]
    rfl
  have hwork : (t.job? id).map Job.work = some j.work := by rw [hfind, h, ← hfind, hj, Option.map_some]
  obtain ⟨x, hx, heq⟩ := Option.map_eq_some_iff.1 hwork
  exact ⟨x, hx, congrArg (·.2.1) heq, congrArg (·.2.2) heq⟩

/-! ### Issue (R120, R148, R159) -/

theorem State.job?_of_jobs {s t : State} (h : t.jobs = s.jobs) (id : Word) : t.job? id = s.job? id := by
  rw [State.job?, h, State.job?]

theorem State.job?_updSlot {s : State} {id : Word} {j : Job} (h : s.job? id = some j) (slot : Nat)
    (f : SlotState → SlotState) :
    (s.updSlot id slot f).job? id = some { j with slots := j.slots.modify slot f } :=
  State.job?_updJob_of_job? (fun _ => by rfl) h

/-- ATTN and SCAN alone take contexts. -/
theorem Descriptor.contexts_eq_nil {d : Descriptor} (h6 : d.op ≠ 6) (h7 : d.op ≠ 7) (j : Job) (slot : Nat) :
    d.contexts j slot = [] := by
  simp [Descriptor.contexts, h6, h7]

theorem State.takeContexts_of_no_contexts {j : Job} {slot : Nat} {d : Descriptor} (h : d.contexts j slot = [])
    (s : State) : s.takeContexts j slot d = (true, s) := by
  simp [State.takeContexts, h]

theorem State.roomT2_zero (q : Nat) (s : State) : s.roomT2 q 0 = (true, s) := by
  simp [State.roomT2]

theorem exec_descriptorIssue_of_ready {s : State} {job : Word} {slot : Fin 32} {j : Job} {d : Descriptor}
    (hj : s.job? job = some j) (hrun : j.state = .running) (hslot : slot.val < j.slots.length)
    (hd : (j.chain.slots.getD slot [])[(j.slots.getD slot {}).next]? = some d)
    (hmay : s.mayIssue j slot (j.slots.getD slot {}) d = true) (hfault : s.issueFault j d = none)
    (h6 : d.op ≠ 6) (h7 : d.op ≠ 7) (hgrow : j.growth (s.touchesOf d) = 0) :
    exec (.descriptorIssue job slot) s = .next (s.issue j slot (j.slots.getD slot {}) d) := by
  have hgo : ¬(j.state ≠ .running ∨ j.slots.length ≤ slot ∨ !s.mayIssue j slot (j.slots.getD slot {}) d) := by
    rw [hmay]
    simp [hrun, hslot]
  have hexec : exec (.descriptorIssue job slot) s = execDescriptorIssue job slot s := rfl
  simpa only [execDescriptorIssue, hj, hd, if_neg hgo, hfault,
    State.takeContexts_of_no_contexts (Descriptor.contexts_eq_nil h6 h7 j slot), hgrow, State.roomT2_zero, Bool.not_true,
    Bool.false_eq_true, if_false, true_or, if_true] using hexec

/-- An issue moves its slot on to the next descriptor. -/
theorem State.issue_job? {s : State} {job : Word} {slot : Nat} {j : Job} (hj : s.job? job = some j) (x : SlotState)
    (d : Descriptor) : ∃ y, (s.issue j slot x d).job? job = some y ∧ y.state = j.state ∧
      y.slots = j.slots.modify slot fun z => { z with
        next := x.next + 1
        inFlight := z.inFlight ++ [{
          index := x.next, desc := d, issueEdge := s.edge, uses := s.usesOf j d
          stage := if d.engine j.chain.drypoint = .margin then .waiting else .issued }] } := by
  have hid := State.id_of_job? hj
  subst hid
  unfold State.issue
  extract_lets margin s1 s2
  have hs1 : s1.job? j.id = some _ := State.job?_updSlot hj slot _
  have hs2 : s2.jobsBy Job.work = s1.jobsBy Job.work := by
    dsimp only [s2]
    split <;> rfl
  exact State.job?_of_jobsBy ((State.jobsBy_layerChain (fun _ _ => by rfl) (fun _ _ => by rfl) j d s2).trans hs2) hs1

/-! ### Completion (R120, R150, R171) -/

/-- A running job is SEALING when each of its slots is done, and runs otherwise. -/
theorem State.maybeSeal_job? {s : State} {id : Word} {j : Job} (hj : s.job? id = some j) (hrun : j.state = .running) :
    ∃ x, (s.maybeSeal id).job? id = some x ∧ x.slots = j.slots ∧
      x.state = if (List.range x.slots.length).all x.slotDone then .sealing else .running := by
  unfold State.maybeSeal
  rw [hj]
  dsimp only
  by_cases hdone : (List.range j.slots.length).all j.slotDone = true
  · rw [if_pos ⟨hrun, hdone⟩]
    exact ⟨_, State.job?_updJob_of_job? (fun _ => by rfl) hj, rfl, (if_pos hdone).symm⟩
  · rw [if_neg fun h => hdone h.2]
    exact ⟨j, hj, rfl, hrun.trans (if_neg hdone).symm⟩

/-- The counts of a completion, and LAST_USE of what its descriptor read, change no job. -/
theorem State.completed_jobs (core : Nat) (d : Descriptor) (i : InFlight) (s : State) :
    (((if h : core < 36 then s.bump (.coreDescCount ⟨core, h⟩) else s).t1Conflicts core d).readsDone i).jobs =
      s.jobs := by
  calc _ = _ := (State.t1Conflicts_same .jobs (by decide) core d _ _).2 rfl
    _ = _ := by split <;> rfl

/-- A descriptor that has acted at the head of its slot leaves its record (R171). -/
theorem descriptorComplete_records {s : State} {job : Word} {slot : Fin 32} {j : Job} {i : InFlight}
    {rest : List InFlight} (hj : s.job? job = some j) (hrun : j.state = .running)
    (hflight : (j.slots.getD slot {}).inFlight = i :: rest) (hacted : i.stage = .acted) :
    ∃ t, exec (.descriptorComplete job slot) s = .next t ∧ ∃ x, t.job? job = some x ∧
      x.slots.getD slot {} = { j.slots.getD slot {} with
        inFlight := rest, records := (j.slots.getD slot {}).records ++ [s.descRecord j slot i] } ∧
      x.state = if (List.range x.slots.length).all x.slotDone then .sealing else .running := by
  have hslot : slot.val < j.slots.length :=
    Job.slot_lt_of_mem_inFlight (i := i) (hflight ▸ List.mem_cons_self)
  have hexec : exec (.descriptorComplete job slot) s = execDescriptorComplete job slot s := rfl
  simp only [execDescriptorComplete, hj, hflight, hrun, hacted, and_self, if_true] at hexec
  have hafter := State.job?_updSlot hj slot fun y => { y with
    inFlight := rest, records := y.records ++ [s.descRecord j slot i] }
  obtain ⟨x, hx, hslots, hstate⟩ := State.maybeSeal_job?
    ((State.job?_of_jobs (State.completed_jobs (j.slots.getD slot {}).core i.desc i _) job).trans hafter) hrun
  exact ⟨_, hexec, x, hx, by rw [hslots, getD_modify _ hslot], hstate⟩

/-! ### SIGNAL, WAITS and WAITT (R168, R169) -/

theorem Job.mem_of_waiting {j : Job} {slot op : Nat} {i : InFlight} (h : j.waiting slot op = some i) :
    i ∈ (j.slots.getD slot {}).inFlight := by
  unfold Job.waiting at h
  split at h
  · exact List.mem_of_find?_eq_some h
  · cases h

theorem State.resume_of_waiting {s : State} {job : Word} {slot op : Nat} {j : Job} {i : InFlight}
    (hj : s.job? job = some j) (hwait : j.waiting slot op = some i) (f : Job → InFlight → State → State) :
    s.resume job slot op f = f j i s := by
  simp only [State.resume, hj, hwait]

section
variable {s : State} {job : Word} {slot : Fin 32} {j : Job} {i : InFlight}

/-- A descriptor in flight that acts without a result changes its job alone. -/
theorem State.acted_of_mem (hj : s.job? job = some j) (hi : i ∈ (j.slots.getD slot {}).inFlight) (status : Byte)
    (flags : NumFlags) (result detail : Word) (cycles : Nat) :
    Only [.jobs] s (s.acted j slot i status flags result detail cycles) ∧
      (s.acted j slot i status flags result detail cycles).Acted job slot i status result := by
  refine ⟨fun q hq => ?_, ((State.carries_of_job? hj hi 0).acted (State.id_of_job? hj) ..).1⟩
  have hjobs : q ≠ .jobs := by simpa using hq
  simp [hjobs]

/-- A descriptor in flight that waits changes its job alone. -/
theorem State.holdDesc_of_mem (hj : s.job? job = some j) (hi : i ∈ (j.slots.getD slot {}).inFlight) :
    Only [.jobs] s (s.holdDesc j slot i) ∧ (s.holdDesc j slot i).Waits job slot i i.work.tiles := by
  have hid := State.id_of_job? hj
  subst hid
  refine ⟨fun q hq => ?_, State.waits_of_updFlight hj hi⟩
  have hjobs : q ≠ .jobs := by simpa using hq
  simp [State.holdDesc, hjobs]

/-- SIGNAL raises its counter, which saturates. -/
theorem exec_signal_of_issued (h : s.Issued job slot 0x0C (fun _ => true) j i) :
    ∃ t, exec (.signal job slot) s = .next t ∧ t.Acted job slot i stOk 0 ∧
      ∃ x, t.job? job = some x ∧ x.counters = j.counters.modify (i.desc.param0 % 16)
        fun c => wd (min 0xFFFFFFFF (c.toNat + fld (i.desc.word 11) 15 0)) := by
  have hid := h.id
  subst hid
  have hupd := State.job?_updJob_of_job? (f := fun x => { x with
    counters := x.counters.modify (i.desc.param0 % 16) (fun c =>
      wd (min 0xFFFFFFFF (c.toNat + fld (i.desc.word 11) 15 0))) }) (fun _ => by rfl) h.job
  exact ⟨_, congrArg Host.Outcome.next (State.act_of_issued h _),
    ((State.carries_of_job? hupd h.mem 0).acted rfl ..).1, _, State.job?_withFlight hupd slot i.index _, rfl⟩

theorem exec_waits_of_satisfied (h : s.Issued job slot 0x0D (fun _ => true) j i) (hsat : j.satisfied i.desc = true) :
    exec (.waits job slot) s = .next (s.acted j slot i stOk {} 0 0 0) :=
  congrArg Host.Outcome.next ((State.act_of_issued h _).trans (if_pos hsat))

theorem exec_waits_of_not_satisfied (h : s.Issued job slot 0x0D (fun _ => true) j i)
    (hsat : j.satisfied i.desc = false) : exec (.waits job slot) s = .next (s.holdDesc j slot i) :=
  congrArg Host.Outcome.next ((State.act_of_issued h _).trans (if_neg (by simp [hsat])))

theorem exec_waitsSatisfied_of_satisfied (hj : s.job? job = some j) (hwait : j.waiting slot 0x0D = some i)
    (hsat : j.satisfied i.desc = true) : exec (.waitsSatisfied job slot) s = .next (s.acted j slot i stOk {} 0 0 0) :=
  congrArg Host.Outcome.next ((State.resume_of_waiting hj hwait _).trans (if_pos hsat))

theorem exec_waittComplete_of_due (hj : s.job? job = some j) (hwait : j.waiting slot 0x0B = some i)
    (hdue : s.waitInstant j i.desc ≤ s.now) :
    exec (.waittComplete job slot) s = .next (s.acted j slot i stOk {} 0 0 0) :=
  congrArg Host.Outcome.next ((State.resume_of_waiting hj hwait _).trans (if_pos hdue))

/-- A WAITT whose instant has passed does not wait (R169). -/
theorem State.waitT_of_mem (hj : s.job? job = some j) (hi : i ∈ (j.slots.getD slot {}).inFlight) :
    Only [.jobs] s (s.waitT j slot i) ∧
      if s.waitInstant j i.desc ≤ s.now then (s.waitT j slot i).Acted job slot i stOk 0
      else (s.waitT j slot i).Waits job slot i i.work.tiles := by
  unfold State.waitT
  split
  · exact State.acted_of_mem hj hi ..
  · exact State.holdDesc_of_mem hj hi

end

/-- Settles O23: an issue and a completion by what they leave of the slot, and the sequencer's own descriptors by whether
they act or wait. -/
theorem slotsIssueWaitAndComplete : Obligations.SlotsIssueWaitAndComplete := by
  refine ⟨?_, ?_, ?_, ?_, ?_, ?_, ?_, ?_, ?_⟩
  · intro s job slot j d hj hrun hslot hd hmay hfault h6 h7 hgrow
    obtain ⟨y, hy, hstate, hslots⟩ := State.issue_job? hj (j.slots.getD slot {}) d (slot := slot)
    refine ⟨_, exec_descriptorIssue_of_ready hj hrun hslot hd hmay hfault h6 h7 hgrow, y, hy, hstate.trans hrun, ?_⟩
    rw [hslots, getD_modify _ hslot]
  · intro s job slot j i rest hj hrun hflight hacted
    obtain ⟨t, hexec, hrecord⟩ := descriptorComplete_records hj hrun hflight hacted
    exact ⟨t, hexec, (exec_only hexec).mono (by simp [mayChange]), hrecord⟩
  · intro s job slot j i h
    obtain ⟨t, hexec, hacted, hcounter⟩ := exec_signal_of_issued h
    exact ⟨t, hexec, exec_only hexec, hacted, hcounter⟩
  · intro s job slot j i h hsat
    exact ⟨_, exec_waits_of_satisfied h (decide_eq_true hsat), State.acted_of_mem h.job h.mem ..⟩
  · intro s job slot j i h hsat
    exact ⟨_, exec_waits_of_not_satisfied h (decide_eq_false (Nat.not_le_of_lt hsat)),
      State.holdDesc_of_mem h.job h.mem⟩
  · intro s job slot j i hj hwait hsat
    exact ⟨_, exec_waitsSatisfied_of_satisfied hj hwait (decide_eq_true hsat),
      State.acted_of_mem hj (Job.mem_of_waiting hwait) ..⟩
  · intro s job slot j i h
    have hinstant : s.waitInstant j i.desc = _ := if_pos (of_decide_eq_true h.form)
    have hwait := State.waitT_of_mem h.job h.mem
    rw [hinstant] at hwait
    exact ⟨_, congrArg Host.Outcome.next (State.act_of_issued h _), hwait⟩
  · intro s job slot j i h
    have hsub : i.desc.sub = 1 := of_decide_eq_true h.form
    have hinstant : s.waitInstant j i.desc = _ := if_neg (by omega)
    have hwait := State.waitT_of_mem h.job h.mem
    rw [hinstant] at hwait
    exact ⟨_, congrArg Host.Outcome.next (State.act_of_issued h _), hwait⟩
  · intro s job slot j i hj hwait hdue
    exact ⟨_, exec_waittComplete_of_due hj hwait hdue, State.acted_of_mem hj (Job.mem_of_waiting hwait) ..⟩

end Sys2Proof.Machine
end

section
/-!
PROOF. CHECK (R170, R419) and the Margin engine (R191, R192): what a message to Proof leaves of the slot that sent it,
and the descriptors that the engine takes, ends and loses.
-/

namespace Sys2Proof.Machine

open Sys2Proof

section
variable {s : State} {job : Word} {slot : Fin 32} {j : Job} {i : InFlight}

/-! ### CHECK (R170, R419) -/

/-- What is sent stands at the end of Proof's mailbox. -/
theorem State.checkSent_prf (j : Job) (slot : Nat) (i : InFlight) (m : ProofMsg) (flags : NumFlags) (cycles : Nat)
    (s : State) : (s.checkSent j slot i m flags cycles).prf = { s.prf with mailbox := s.prf.mailbox ++ [m] } := rfl

/-- A CHECK acts without its verdict, and its slot waits for one verdict more. -/
theorem State.checkSent_of_mem (hj : s.job? job = some j) (hi : i ∈ (j.slots.getD slot {}).inFlight) (m : ProofMsg)
    (flags : NumFlags) (cycles : Nat) :
    (s.checkSent j slot i m flags cycles).Acted job slot i stOk 0 ∧
      ∃ x, (s.checkSent j slot i m flags cycles).job? job = some x ∧
        (x.slots.getD slot {}).verdicts = (j.slots.getD slot {}).verdicts + 1 := by
  have hid := State.id_of_job? hj
  subst hid
  have hsent := State.job?_updSlot (s := s.tellProof m) hj slot fun x => { x with verdicts := x.verdicts + 1 }
  have hslot := getD_modify (fun x : SlotState => { x with verdicts := x.verdicts + 1 })
    (Job.slot_lt_of_mem_inFlight hi) (d := {})
  have hcarries := State.carries_of_job? (i := i) (slot := slot) hsent (by rw [hslot]; exact hi) 0
  refine ⟨(hcarries.acted rfl ..).1, _, State.job?_withFlight hsent slot i.index _, ?_⟩
  exact (getD_of_map_eq (g := SlotState.verdicts) (map_modify_same (fun _ => by rfl) _ slot) slot {}).trans
    (congrArg SlotState.verdicts hslot)

theorem exec_checkResidue_of_issued (h : s.Issued job slot 0x0E (fun d => d.sub = 0) j i) :
    exec (.checkResidue job slot) s = .next (s.checkSent j slot i (.residue job slot i.index (i.desc.param0 % 16)
      i.desc.param1 (j.slots.getD slot {}).digest) {} 8) :=
  congrArg Host.Outcome.next (State.act_of_issued h _)

/-- The elements of A that CHECK STATS reads, in FP32. -/
def Job.statsElems (j : Job) (slot : Nat) (d : Descriptor) : List Word :=
  (List.range d.m).flatMap fun r => readRowF32 (j.bytes slot d.aObj) d.aOff d.fmtA d.m d.n r

/-- CHECK STATS sends the minimum, the maximum and the sum of the elements that are no NaN, and the number of the
others. -/
theorem exec_checkStats_of_issued (h : s.Issued job slot 0x0E (fun d => d.sub = 1) j i) :
    ∃ flags, exec (.checkStats job slot) s = .next (s.checkSent j slot i
      (.stats job slot i.index (i.desc.param0 % 16) i.desc.param1
        (((j.statsElems slot i.desc).filter fun x => !f32IsNan x).foldl fMin (f32Inf false))
        (((j.statsElems slot i.desc).filter fun x => !f32IsNan x).foldl fMax (f32Inf true))
        (statsSum (j.statsElems slot i.desc)).1 ((j.statsElems slot i.desc).filter f32IsNan).length)
      flags ((i.desc.m * i.desc.n + 63) / 64)) := by
  have hexec : exec (.checkStats job slot) s = execCheckStats job slot s := rfl
  simp only [execCheckStats, State.act_of_issued h, List.map_flatMap] at hexec
  have hnans := List.length_eq_length_filter_add (l := j.statsElems slot i.desc) f32IsNan
  rw [Nat.eq_sub_of_add_eq hnans.symm]
  exact ⟨_, hexec⟩

/-! ### The Margin engine (R191, R192) -/

/-- The idle engine takes the first of its queue in the order of deadlines. -/
theorem exec_marginQueueStart_of_idle {e : Word × Nat} {l : List (Word × Nat)} (hidle : s.jobs.marginRun = none)
    (hfirst : s.jobs.marginQueue.foldl (fun acc e => insertBy s.marginBefore e acc) [] = e :: l) :
    ∃ t, exec .marginQueueStart s = .next t ∧ t.jobs.marginRun = some e ∧
      t.jobs.marginQueue = s.jobs.marginQueue.filter (· != e) := by
  have hexec : exec .marginQueueStart s = execMarginQueueStart s := rfl
  simp only [execMarginQueueStart, hidle, hfirst, Option.isSome_none, Bool.false_eq_true, if_false] at hexec
  refine ⟨_, hexec, ?_⟩
  cases (s.job? e.1).bind fun j => j.marginFlight e.2 with
  | none => exact ⟨rfl, rfl⟩
  | some i => exact ⟨rfl, rfl⟩

theorem Job.mem_of_marginFlight {slot : Nat} (h : j.marginFlight slot = some i) :
    i ∈ (j.slots.getD slot {}).inFlight :=
  List.mem_of_find?_eq_some h

/-- The descriptor that has run to its end acts with the status and the RESULT that it holds. -/
theorem exec_marginDescriptorDone_of_running (hrun : s.jobs.marginRun = some (job, slot.val))
    (hj : s.job? job = some j) (hflight : j.marginFlight slot = some i) :
    ∃ t, exec .marginDescriptorDone s = .next t ∧ t.jobs.marginRun = none ∧
      t.Acted job slot i i.status i.result := by
  have hexec : exec .marginDescriptorDone s = execMarginDescriptorDone s := rfl
  simp only [execMarginDescriptorDone, hrun, hj, Option.bind_some, hflight] at hexec
  have hcarries := State.carries_of_job? (s := s.updJobs fun q => { q with marginRun := none }) hj
    (Job.mem_of_marginFlight hflight) 0
  obtain ⟨x, hx, hi, -⟩ := hcarries.updFlight fun x => { x with stage := .acted }
  exact ⟨_, hexec, rfl, x, hx, _, hi, rfl, rfl, rfl, rfl, rfl⟩

theorem exec_marginResidueFault_of_running {e : Word × Nat} (hrun : s.jobs.marginRun = some e) :
    exec .marginResidueFault s =
      .next ((s.report 0x0B 0 1 2 4 ((s.job? e.1).map (·.part)) e.1 0).faultJob e.1 none) := by
  have hexec : exec .marginResidueFault s = execMarginResidueFault s := rfl
  rw [hexec, execMarginResidueFault, hrun]

end

/-- Settles O26: each CHECK by the message it sends, and each command of the Margin engine by its equation. -/
theorem checksAndTheMarginEngineAct : Obligations.ChecksAndTheMarginEngineAct := by
  refine ⟨?_, ?_, ?_, ?_, ?_⟩
  · intro s job slot j i h
    have hexec := exec_checkResidue_of_issued h
    obtain ⟨hacted, hverdicts⟩ := State.checkSent_of_mem h.job h.mem (.residue job slot i.index (i.desc.param0 % 16)
      i.desc.param1 (j.slots.getD slot {}).digest) {} 8
    exact ⟨_, hexec, exec_only hexec, hacted, State.checkSent_prf .., hverdicts⟩
  · intro s job slot j i h
    obtain ⟨flags, hexec⟩ := exec_checkStats_of_issued h
    exact ⟨_, _, _, _, _, hexec, exec_only hexec, (State.checkSent_of_mem h.job h.mem ..).1,
      State.checkSent_prf .., rfl⟩
  · intro s e l hidle hfirst
    obtain ⟨t, hexec, hrun, hqueue⟩ := exec_marginQueueStart_of_idle hidle hfirst
    exact ⟨t, hexec, exec_only hexec, hrun, hqueue⟩
  · intro s job slot j i hrun hj hflight
    obtain ⟨t, hexec, hidle, hacted⟩ := exec_marginDescriptorDone_of_running hrun hj hflight
    exact ⟨t, hexec, exec_only hexec, hidle, hacted⟩
  · intro s e hrun
    exact exec_marginResidueFault_of_running hrun

end Sys2Proof.Machine
end

section
/-!
PROOF. The frame of a context command (R211, R228), what a command finds in the state that its frame has left, and what
the release of pages and snapshots leaves of the context table (R210).
-/

namespace Sys2Proof.Machine

open Sys2Proof

/-! ### A delivered frame -/

theorem State.eq_of_same {s t : State} (h : ∀ q : Part, q.Same s t) : t = s := by
  cases s
  cases t
  simp only [State.mk.injEq]
  exact ⟨h .pending, h .edge, h .fresh, h .counts, h .regs, h .glb, h .tb, h .rgn, h .otl, h .cores, h .clusters,
    h .jobs, h .ctx, h .tir, h .chn, h .lnw, h .ing, h .trc, h .xh, h .sty, h .eth, h .prf, h .brn, h .sec, h .plt⟩

/-- The delivery of a frame changes the Ethernet block alone (R396). -/
theorem State.delivered_eq (i : Nat) (s : State) : s.delivered i = { s with eth := (s.delivered i).eth } := by
  refine State.eq_of_same fun q => ?_
  by_cases hq : q = .eth
  · subst hq
    rfl
  · have heth : q.Same s { s with eth := (s.delivered i).eth } :=
      (Part.same_with_eth q hq s s _).2 (Part.same_refl q s)
    exact (State.delivered_same q hq i s _).2 ((Part.same_iff heth).1 (Part.same_refl ..))

section
variable (i p n : Nat) (s : State)

theorem State.delivered_ctx : (s.delivered i).ctx = s.ctx := by rw [State.delivered_eq]

@[simp] theorem State.delivered_context? : (s.delivered i).context? n = s.context? n := by
  rw [State.delivered_eq]; rfl

@[simp] theorem State.delivered_inRange : (s.delivered i).inRange p n = s.inRange p n := by
  rw [State.delivered_eq]; rfl

@[simp] theorem State.delivered_freeFrames : (s.delivered i).freeFrames p = s.freeFrames p := by
  rw [State.delivered_eq]; rfl

@[simp] theorem State.delivered_regionBytes : (s.delivered i).regionBytes p = s.regionBytes p := by
  rw [State.delivered_eq]; rfl

@[simp] theorem State.delivered_budgetBytes : (s.delivered i).budgetBytes p = s.budgetBytes p := by
  rw [State.delivered_eq]; rfl

@[simp] theorem State.delivered_newestOf (obj : Word) : (s.delivered i).newestOf p obj = s.newestOf p obj := by
  rw [State.delivered_eq]; rfl

@[simp] theorem State.delivered_edge : (s.delivered i).edge = s.edge := by
  rw [State.delivered_eq]

end

/-! ### The frame of a command (R211, R228) -/

section
variable {s t : State} {i : Fin 16} {b : CtxBody} {p n : Nat} {c : Context} {st : Byte}
  {go : Nat → Nat → State → Option Byte × State}

/-- A command that answers at once. -/
theorem State.CtxCommand.answered (h : s.CtxCommand i b p) (tag : Word)
    (hgo : go p (bodyCtx b) (s.delivered i) = (some st, t)) :
    s.ctxCommand i tag b go = t.sendTo i (.ctxReply tag st (bodyCtx b)) := by
  obtain ⟨hopen, hpart, hrange, hcmd⟩ := h
  have hcode : ¬ (fld b.w0 7 0 = 0 ∨ 10 < fld b.w0 7 0) := by omega
  simp [State.ctxCommand, State.request, hopen, hpart, hrange, hcode, hgo]

theorem State.onContext_of_context? {damaged held : Bool} (hc : s.context? n = some c)
    (hstate : c.state = .damaged → damaged = true) (hheld : c.holder = 0 ∨ held = true)
    (go : Context → Option Byte × State) : s.onContext n damaged held go = go c := by
  have hwhole : ¬ (c.state = .damaged ∧ (!damaged) = true) := fun hbad => by simp [hstate hbad.1] at hbad
  have hfree : ¬ (c.holder ≠ 0 ∧ (!held) = true) := fun hbad =>
    hheld.elim hbad.1 fun hheld => by simp [hheld] at hbad
  simp only [State.onContext, hc, if_neg hwhole, if_neg hfree]

/-- A command on an ACTIVE context that no job holds. -/
theorem State.onContext_of_active (hc : s.context? n = some c) (hactive : c.state = .active) (hfree : c.holder = 0)
    (damaged held : Bool) (go : Context → Option Byte × State) : s.onContext n damaged held go = go c :=
  State.onContext_of_context? hc (fun hdamaged => by simp [hactive] at hdamaged) (.inl hfree) go

/-- Where the state budget has room, a command goes on as it is (R242). -/
theorem State.withRoom_of_fits {need : Nat} (hfits : s.regionBytes p + need ≤ s.budgetBytes p) (sess : Nat)
    (tag : Word) (b : CtxBody) (keep : List Nat) (go : State → Option Byte × State) :
    s.withRoom sess tag b p need keep go = go s := by
  simp [State.withRoom, State.stateRoom, hfits]

theorem State.id_of_context? (h : s.context? n = some c) : c.id = n := by
  simpa using List.find?_some h

/-- An update of the contexts of one ID that keeps the ID is seen through a look-up. -/
theorem State.context?_updContext {f : Context → Context} (hf : ∀ x, (f x).id = x.id) (hc : s.context? n = some c) :
    (s.updContext n f).context? n = some (f c) := by
  have hid (x : Context) : (if x.id = n then f x else x).id = x.id := by
    split
    · exact hf x
    · rfl
  have hmap : (s.updContext n f).context? n = (s.context? n).map fun x => if x.id = n then f x else x := by
    simp only [State.context?, State.updContext, State.updCtx, List.find?_map, Function.comp_def, hid]
  rw [hmap, hc, Option.map_some, if_pos (State.id_of_context? hc)]

end

/-! ### What a release leaves of the context table (R210) -/

/-- The context table alone says what a look-up of a context finds. -/
theorem State.context?_of_table {s t : State} (h : t.ctx.table = s.ctx.table) (n : Nat) : t.context? n = s.context? n :=
  congrArg (List.find? fun c : Context => decide (c.id = n)) h

theorem State.table_of_same {s t : State} (h : Part.Same .ctx s t) : t.ctx.table = s.ctx.table :=
  congrArg CtxMgr.table h

theorem State.freePage_table (g : PageRecord) (s : State) : (s.freePage g).ctx.table = s.ctx.table := by
  unfold State.freePage
  extract_lets s1
  have hpage : Part.Same .ctx s s1 := by
    unfold s1
    split <;> simp
  show (State.dropWrites _ s1).ctx.table = _
  exact State.table_of_same ((State.dropWrites_same .ctx (by decide) _ _ _).2 hpage)

theorem State.dropPage_table (k : Nat) (s : State) : (s.dropPage k).ctx.table = s.ctx.table := by
  unfold State.dropPage
  split
  · rfl
  · split
    · rfl
    · split
      · exact State.freePage_table _ s
      · rfl

theorem State.foldl_dropPage_table (l : List Nat) (s : State) :
    (l.foldl (fun s k => s.dropPage k) s).ctx.table = s.ctx.table :=
  foldl_eq_of_step (g := fun s : State => s.ctx.table) (fun s k => State.dropPage_table k s) l s

theorem State.dropSwaps_table (n : Nat) (s : State) : (s.dropSwaps n).ctx.table = s.ctx.table := by
  show (State.dropWrites _ s).ctx.table = _
  exact State.table_of_same ((State.dropWrites_same .ctx (by decide) _ s s).2 rfl)

/-- The release of a context takes the contexts of its ID out of the table. -/
theorem State.releaseContext_table (c : Context) (s : State) :
    (s.releaseContext false c).ctx.table = s.ctx.table.filter (·.id != c.id) := by
  unfold State.releaseContext
  extract_lets idx s1 s2
  have hpages : s1.ctx.table = s.ctx.table := State.foldl_dropPage_table idx s
  have hsnapshot : s2.ctx.table = s1.ctx.table := by
    unfold s2
    split
    · rfl
    · exact State.table_of_same (by simp)
  show ((s2.dropSwaps c.id).ctx.table).filter _ = _
  rw [State.dropSwaps_table, hsnapshot, hpages]

end Sys2Proof.Machine
end

section
/-!
PROOF. The commands that make, change and end contexts (R199, R206, R210 to R213, R226, R229).
-/

namespace Sys2Proof.Machine

open Sys2Proof

section
variable {s : State} {i : Fin 16} {b : CtxBody} {p : Nat} {c : Context}

theorem State.addContext_ctx (c : Context) (s : State) :
    (s.addContext c).ctx = { s.ctx with table := s.ctx.table ++ [{ c with root := s.draw.1.setWidth 22 }] } := rfl

theorem exec_ctxOpen_of_free (tag : Word) (h : s.CtxCommand i b p) (hnone : s.context? (bodyCtx b) = none)
    (hfields : openFields b (bodyCtx b) p = some c) (hframes : s.freeFrames p ≠ 0) :
    exec (.ctxOpen i tag b) s =
      .next (State.sendTo i (.ctxReply tag cxOk (bodyCtx b)) ((s.delivered i).addContext c)) :=
  congrArg Host.Outcome.next (h.answered tag (by simp [hnone, hfields, hframes]))

theorem exec_ctxOpen_of_used (tag : Word) (h : s.CtxCommand i b p) (hused : (s.context? (bodyCtx b)).isSome = true) :
    exec (.ctxOpen i tag b) s = .next (State.sendTo i (.ctxReply tag cxInUse (bodyCtx b)) (s.delivered i)) :=
  congrArg Host.Outcome.next (h.answered tag (by simp [hused]))

/-- The addresses of the record frames of a fork (R203). -/
def Context.forkFrames (length : Nat) (c : Context) (s : State) : List (Nat × BitVec 22) × State :=
  State.drawAddrs (if length = 0 then [] else c.recFrames.map (·.1)) s

theorem Context.forkFrames_table (length : Nat) (c : Context) (s : State) :
    (c.forkFrames length s).2.ctx.table = s.ctx.table :=
  State.table_of_same ((State.drawAddrs_same .ctx (by decide) _ s s).2 rfl)

/-- A context without pages, layer-groups and a region takes no frame, so its fork always joins the table (R203,
R210). -/
theorem State.forkContext_of_plain (hkv : c.kv = false) (hlgs : c.lgs = []) (hrec : c.rec_ = none)
    (hfree : c.holder = 0) (n length : Nat) (s : State) :
    s.forkContext p n length c = (some cxOk, (c.forkFrames length s).2.addContext { c with
      id := n, recFrames := (c.forkFrames length s).1, gen := 1, lastCommit := {}, damagePending := false }) := by
  simp [State.forkContext, State.forkGroups, Context.forkFrames, Context.frames, hkv, hlgs, hrec, hfree]

theorem exec_ctxFork_of_plain (tag : Word) (h : s.CtxCommand i b p) (hnone : s.context? (bodyCtx b) = none)
    (hrange : s.inRange p (fld b.w2 13 0) = true) (hc : s.context? (fld b.w2 13 0) = some c)
    (hactive : c.state = .active) (hfree : c.holder = 0) (hunused : bodyUnused b 0x3FFFF 0x3FFF 0 0 0 = false)
    (hlength : fld b.w1 17 0 ≤ c.length)
    (hkv : c.kv = false) (hlgs : c.lgs = []) (hrec : c.rec_ = none) :
    ∃ t, exec (.ctxFork i tag b) s = .next (State.sendTo i (.ctxReply tag cxOk (bodyCtx b)) t) ∧
      ∃ root recs, t.ctx.table = s.ctx.table ++ [{ c with
        id := bodyCtx b, root := root, recFrames := recs, gen := 1, lastCommit := {}, damagePending := false }] := by
  have hon := State.onContext_of_active ((State.delivered_context? i _ s).trans hc) hactive hfree false false
  have hvalid : ¬ (bodyUnused b 0x3FFFF 0x3FFF 0 0 0 = true ∨ c.length < fld b.w1 17 0) := by simp [hunused, hlength]
  have hgo : (s.delivered i).forkCmd i tag b p (bodyCtx b) =
      (s.delivered i).forkContext p (bodyCtx b) (fld b.w1 17 0) c := by
    simp [State.forkCmd, hnone, hrange, hon, if_neg hvalid, hrec]
  have htable : (c.forkFrames (fld b.w1 17 0) (s.delivered i)).2.ctx.table = s.ctx.table := by
    rw [Context.forkFrames_table, State.delivered_ctx]
  refine ⟨_, congrArg Host.Outcome.next (h.answered tag
    (hgo.trans (State.forkContext_of_plain hkv hlgs hrec hfree (bodyCtx b) _ _))), ?_⟩
  rw [State.addContext_ctx, htable]
  exact ⟨_, _, rfl⟩

/-- A context whose pages beyond a length are given up. -/
def Context.truncated (length : Nat) (c : Context) : Context :=
  { c with
    gen := c.gen + 1
    lgs := c.lgs.map fun l => { l with
      filled := min l.filled length, ptes := l.ptes.filter fun e => decide (16 * e.index < length) } }

theorem exec_ctxTruncate_of_active (tag : Word) (h : s.CtxCommand i b p) (hc : s.context? (bodyCtx b) = some c)
    (hactive : c.state = .active) (hfree : c.holder = 0) (hunused : bodyUnused b 0x3FFFF 0 0 0 0 = false)
    (hlength : fld b.w1 17 0 ≤ c.length) (hrec : c.rec_ = none) :
    ∃ t, exec (.ctxTruncate i tag b) s = .next (State.sendTo i (.ctxReply tag cxOk (bodyCtx b)) t) ∧
      t.context? (bodyCtx b) = some (c.truncated (fld b.w1 17 0)) := by
  have hc' := (State.delivered_context? i (bodyCtx b) s).trans hc
  have hvalid : ¬ (bodyUnused b 0x3FFFF 0 0 0 0 = true ∨ c.length < fld b.w1 17 0 ∨ c.rec_.isSome = true) := by
    simp [hunused, hrec, hlength]
  refine ⟨_, congrArg Host.Outcome.next (h.answered tag
    ((State.onContext_of_active hc' hactive hfree false false _).trans (if_neg hvalid))), ?_⟩
  exact State.context?_updContext (fun _ => by rfl)
    ((State.context?_of_table (State.foldl_dropPage_table _ _) _).trans hc')

/-- A context without a region is reset in its place. -/
theorem State.resetContext_context? {n : Nat} (hc : s.context? n = some c) (hrec : c.rec_ = none) :
    (s.resetContext n c false).context? n = some { c with
      gen := c.gen + 1, state := .active, lgs := c.lgs.map fun l => { l with filled := 0, ptes := [] } } := by
  simp only [State.resetContext, hrec, Bool.false_eq_true, if_false]
  rw [State.context?_of_table (State.dropSwaps_table n _), State.context?_updContext (fun _ => by rfl)
    ((State.context?_of_table (State.foldl_dropPage_table _ s) n).trans hc)]
  simp [Context.change, hrec]

theorem exec_ctxReset_of_free (tag : Word) (h : s.CtxCommand i b p) (hc : s.context? (bodyCtx b) = some c)
    (hfree : c.holder = 0) (hunused : bodyUnused b 0 0 0 0 0 = false) (hrec : c.rec_ = none) :
    exec (.ctxReset i tag b) s = .next (State.sendTo i (.ctxReply tag cxOk (bodyCtx b))
      ((s.delivered i).resetContext (bodyCtx b) c false)) := by
  refine congrArg Host.Outcome.next (h.answered tag ?_)
  have hon := State.onContext_of_context? (damaged := true) (held := false)
    ((State.delivered_context? i _ s).trans hc) (fun _ => rfl) (.inl hfree)
  simp [State.resetCmd, hon, hunused, hrec]

theorem exec_ctxClose_of_free (tag : Word) (h : s.CtxCommand i b p) (hc : s.context? (bodyCtx b) = some c)
    (hfree : c.holder = 0) (hunused : bodyUnused b 0 0 0 0 0 = false) :
    exec (.ctxClose i tag b) s = .next (State.sendTo i (.ctxReply tag cxOk (bodyCtx b))
      ((s.delivered i).releaseContext false c)) :=
  congrArg Host.Outcome.next (h.answered tag ((State.onContext_of_context? (damaged := true) (held := false)
    ((State.delivered_context? i _ s).trans hc) (fun _ => rfl) (.inl hfree) _).trans (if_neg (by simp [hunused]))))

/-- The region that a CTX_ATTACH gives a context at an address (R226). -/
def attachedRegion (b : CtxBody) (o : ObjVersion) (edge : Nat) (addr : BitVec 22) : StateRegion :=
  { addr := addr, units := fld b.w1 17 0, lookahead := fld b.w3 23 16, model := b.w2
    warm := BitVec.ofNat 16 (fld b.w3 15 0), hash := sha384 (Memory.readBytes o.data 0 o.len), lastSeal := edge }

theorem exec_ctxAttach_of_active {o : ObjVersion} (tag : Word) (h : s.CtxCommand i b p)
    (hc : s.context? (bodyCtx b) = some c) (hactive : c.state = .active) (hrec : c.rec_ = none) (hfree : c.holder = 0)
    (hunused : bodyUnused b 0x3FFFF 0xFFFFFFFF 0x00FFFFFF 0 0 = false) (hleast : 2 ≤ fld b.w1 17 0)
    (hmost : fld b.w1 17 0 ≤ 131072) (hlook : fld b.w3 23 16 ≤ 128)
    (hbudget : 128 * fld b.w1 17 0 ≤ s.budgetBytes p) (hmodel : s.newestOf p b.w2 = some o)
    (hwhole : o.state = .sealed ∨ o.state = .rebuilding) (hpart : o.part = p) (hdevice : isDevice o.obj = false)
    (hfits : s.regionBytes p + 64 * fld b.w1 17 0 ≤ s.budgetBytes p) :
    ∃ t a, exec (.ctxAttach i tag b) s = .next (State.sendTo i (.ctxReply tag cxOk (bodyCtx b)) t) ∧
      t.context? (bodyCtx b) = some { c with gen := c.gen + 1, rec_ := some (attachedRegion b o s.edge a) } := by
  have hc' := (State.delivered_context? i (bodyCtx b) s).trans hc
  have hfields : ¬ (bodyUnused b 0x3FFFF 0xFFFFFFFF 0x00FFFFFF 0 0 = true ∨ fld b.w1 17 0 < 2 ∨
      131072 < fld b.w1 17 0 ∨ 128 < fld b.w3 23 16 ∨ s.budgetBytes p < 128 * fld b.w1 17 0) := by
    simp [hunused, hmost, hlook, hbudget]
    omega
  have hchecked : o.state ≠ .verifying := by rcases hwhole with hw | hw <;> simp [hw]
  have hgo : (s.delivered i).attachCmd i tag b p (bodyCtx b) = (some cxOk,
      (s.delivered i).drawAddr.2.updContext (bodyCtx b) fun x => { x.change with
        rec_ := some (attachedRegion b o s.edge (s.delivered i).drawAddr.1) }) := by
    have hfits' : (s.delivered i).regionBytes p + 64 * fld b.w1 17 0 ≤ (s.delivered i).budgetBytes p := by
      simpa using hfits
    simp only [State.attachCmd, hc', hactive, hrec, hfree, State.delivered_budgetBytes, if_neg hfields,
      State.delivered_newestOf, hmodel, hpart, hdevice, if_neg hchecked, State.withRoom_of_fits hfits']
    rcases hwhole with hw | hw <;> simp [hw, attachedRegion]
  exact ⟨_, _, congrArg Host.Outcome.next (h.answered tag hgo), State.context?_updContext (fun _ => by rfl) hc'⟩

end

/-- Settles O28: each command by its equation, and its context by a look-up in the table that it leaves. -/
theorem contextsAreOpenedForkedAndClosed : Obligations.ContextsAreOpenedForkedAndClosed := by
  unfold Obligations.ContextsAreOpenedForkedAndClosed
  refine ⟨fun s i tag b p c h hnone hfields hframes => ?_,
    fun s i tag b p h hused => exec_ctxOpen_of_used tag h hused,
    fun s i tag b p c h hnone hrange hc hactive hfree hunused hlength hkv hlgs hrec =>
      exec_ctxFork_of_plain tag h hnone hrange hc hactive hfree hunused hlength hkv hlgs hrec,
    fun s i tag b p c h hc hactive hfree hunused hlength hrec =>
      exec_ctxTruncate_of_active tag h hc hactive hfree hunused hlength hrec,
    fun s i tag b p c h hc hfree hunused hrec => ?_,
    fun s i tag b p c h hc hfree hunused => ?_,
    fun s i tag b p c o h hc hactive hrec hfree hunused hleast hmost hlook hbudget hmodel hwhole hpart hdevice hfits =>
      exec_ctxAttach_of_active tag h hc hactive hrec hfree hunused hleast hmost hlook hbudget hmodel hwhole hpart
        hdevice hfits⟩
  · exact ⟨_, exec_ctxOpen_of_free tag h hnone hfields hframes, _, by
      rw [State.addContext_ctx, State.delivered_ctx]⟩
  · exact ⟨_, exec_ctxReset_of_free tag h hc hfree hunused hrec,
      State.resetContext_context? ((State.delivered_context? i _ s).trans hc) hrec⟩
  · refine ⟨_, exec_ctxClose_of_free tag h hc hfree hunused, ?_⟩
    rw [State.releaseContext_table, State.delivered_ctx, State.id_of_context? hc]

end Sys2Proof.Machine
end

section
/-!
PROOF. The descriptors that use contexts and gates (R207, R216 to R219, R226, R232 to R236, R239, R240): what the rows
of an ATTN leave of the jobs, how far a SCAN steps the slice of its stream, and each descriptor as it acts.
-/

namespace Sys2Proof.Machine

open Sys2Proof

/-! ### What an ATTN leaves of the jobs (R206, R207, R219)

Its appends write pages and the journal of its job: the slots of every job stay as they are. -/

section
variable (id : Word) (c : Context) (lg n : Nat) (s : State)

theorem State.updJournal_work (f : Journal → Journal) : (s.updJournal id f).jobsBy Job.work = s.jobsBy Job.work :=
  State.jobsBy_updJobs_map s rfl fun x => by split <;> rfl

theorem State.tableFrames_work : (s.tableFrames id c lg n).2.jobsBy Job.work = s.jobsBy Job.work := by
  unfold State.tableFrames
  extract_lets rf b needR needB r q c1 c2
  split
  · exact State.jobsBy_of_same (by simp)
  · exact (State.updJournal_work ..).trans (State.jobsBy_of_same (by simp [q, r]))

theorem State.openAt_work (old : Option Pte) : (s.openAt id c lg n old).2.jobsBy Job.work = s.jobsBy Job.work := by
  unfold State.openAt
  extract_lets t
  have htables : t.2.jobsBy Job.work = s.jobsBy Job.work := State.tableFrames_work ..
  split
  · exact htables
  · extract_lets l kept data r evict ring gone masked ptes
    have hpage : r.2.jobsBy Job.work = s.jobsBy Job.work := (State.jobsBy_of_same (by simp [r])).trans htables
    split
    · exact hpage
    · extract_lets entry c2 s1 s2
      have hentry : s1.jobsBy Job.work = s.jobsBy Job.work := (State.updJournal_work ..).trans hpage
      have hcopy : s2.jobsBy Job.work = s.jobsBy Job.work := by
        unfold s2
        split
        · exact (State.jobsBy_of_same (by simp)).trans hentry
        · exact hentry
      dsimp only
      split
      · exact (State.jobsBy_of_same (by simp)).trans hcopy
      · exact hcopy

theorem State.appendRow_work (k v : List Byte) :
    (s.appendRow id c lg k v).2.jobsBy Job.work = s.jobsBy Job.work := by
  unfold State.appendRow
  extract_lets l q n e inPlace r
  have hopen : r.2.jobsBy Job.work = s.jobsBy Job.work := by
    unfold r
    split
    · rfl
    · exact State.openAt_work ..
  split
  · exact hopen
  · extract_lets c2 s1
    refine (State.updJournal_work ..).trans (Eq.trans ?_ hopen)
    unfold s1
    split
    · rfl
    · exact State.jobsBy_of_same (by simp)

end

theorem State.attnPosition_work (id : Word) (d : Descriptor) (lg n row rows : Nat) (ma mkv : Memory) (kvOff : Nat)
    (acc : AttnRun × List (Nat × Word)) :
    (State.attnPosition id d lg n row rows ma mkv kvOff acc).1.state.jobsBy Job.work =
      acc.1.state.jobsBy Job.work := by
  unfold State.attnPosition
  extract_lets r
  split
  · rfl
  · extract_lets a
    have happend : a.2.jobsBy Job.work = acc.1.state.jobsBy Job.work := State.appendRow_work ..
    split
    · exact happend
    · extract_lets l keys
      exact (foldl_eq_of_step (g := fun y : AttnRun × List (Nat × Word) => y.1.state.jobsBy Job.work)
        (fun _ _ => by rfl) _ _).trans happend

theorem AttnRun.context_work (j : Job) (d : Descriptor) (ma mkv : Memory) (rows : Nat) (r : AttnRun)
    (x : Nat × Nat × Nat) :
    (r.context j d ma mkv rows x).state.jobsBy Job.work = r.state.jobsBy Job.work := by
  unfold AttnRun.context
  extract_lets n most
  split
  · rfl
  · extract_lets lg filled a c' l src done scored rescore
    split
    · rfl
    · split
      · exact State.jobsBy_of_same (by simp)
      · have hrows : a.1.state.jobsBy Job.work = r.state.jobsBy Job.work :=
          foldl_eq_of_step (g := fun y : AttnRun × List (Nat × Word) => y.1.state.jobsBy Job.work)
            (fun _ _ => State.attnPosition_work ..) _ _
        clear_value scored
        cases scored with
        | none => exact hrows
        | some c1 => exact (State.updJournal_work ..).trans hrows

/-- An ATTN on all its contexts leaves the slots of every job (R216, R219). -/
theorem AttnRun.contexts_work (j : Job) (d : Descriptor) (ma mkv : Memory) (rows : Nat) (l : List (Nat × Nat × Nat))
    (r : AttnRun) :
    (l.foldl (AttnRun.context j d ma mkv rows) r).state.jobsBy Job.work = r.state.jobsBy Job.work :=
  foldl_eq_of_step (g := fun y : AttnRun => y.state.jobsBy Job.work) (fun _ _ => AttnRun.context_work ..) l r

/-! ### A descriptor in flight -/

section
variable {s : State} {job : Word} {slot : Fin 32} {j : Job} {i : InFlight} {obj : Word} {m : Memory}

/-- A descriptor stays in flight where the slots of the jobs stay. -/
theorem State.Issued.carries_of_work {t : State} {op : Nat} {p : Descriptor → Bool} (h : s.Issued job slot op p j i)
    (ht : t.jobsBy Job.work = s.jobsBy Job.work) : ∃ m, t.Carries job slot i 0 m := by
  obtain ⟨x, hx, -, hslots⟩ := State.job?_of_jobsBy ht h.job
  exact ⟨_, x, hx, hslots ▸ h.mem, rfl⟩

/-- A descriptor stays in flight where its job stores an operand. -/
theorem State.Carries.store (h : s.Carries job slot i obj m) (hid : j.id = job) (id : Word) (hi : Nat)
    (f : Memory → Memory) : ∃ m', (s.store j slot id hi f).Carries job slot i obj m' := by
  subst hid
  obtain ⟨x, hx, hmem, -⟩ := h
  exact ⟨_, _, State.job?_updJob_of_job? (fun x => x.put_id slot id hi f) hx, by rwa [Job.inFlight_put], rfl⟩

/-- A descriptor that waits for its tiles takes the status and the RESULT that it will complete with. -/
theorem State.Waits.withResult {tiles : List ArrayTile} (h : s.Waits job slot i tiles) (status : Byte)
    (result detail : Word) :
    (s.updFlight job slot i.index fun x => { x with status := status, result := result, detail := detail }).Waits
      job slot i tiles := by
  obtain ⟨x, hx, y, hy, hindex, hdesc, hstage, htiles⟩ := h
  rw [← hindex]
  exact ⟨_, State.job?_withFlight hx slot y.index _, _, Job.mem_withFlight hy _, hindex, hdesc, hstage, htiles⟩

/-! ### ATTN (R207, R216 to R220) -/

/-- What an ATTN comes to where every check passes, no context is damaged or at its limit and no lane finds a mismatch:
C takes its rows, and it acts, or waits for its tiles. -/
theorem State.attnGo_of_run {heads : List (Nat × Nat)} {run : AttnRun}
    (hfault : s.attnFault j i.desc (i.desc.attnCtxs (j.bytes slot i.desc.bObj)) = none)
    (hheads : heads = (i.desc.attnCtxs (j.bytes slot i.desc.bObj)).map
      fun n => (n, ((s.seenBy j n).map (·.heads)).getD 0))
    (htouch : j.touchFault [
      { obj := i.desc.aObj, off := i.desc.aOff
        len := tensorBytes i.desc.fmtA (i.desc.m * total (heads.map (·.2))) i.desc.n },
      { obj := i.desc.word 11, off := (i.desc.word 12).toNat, len := heads.length * i.desc.m * 256 },
      { obj := i.desc.cObj, off := i.desc.cOff
        len := tensorBytes i.desc.fmtC (i.desc.m * total (heads.map (·.2))) i.desc.n, write := true }] = none)
    (hrun : run = (attnPlaces i.desc.m 0 0 heads).foldl (AttnRun.context j i.desc (j.bytes slot i.desc.aObj)
      (j.bytes slot (i.desc.word 11)) (i.desc.m * total (heads.map (·.2))))
      { state := s, out := j.bytes slot i.desc.cObj })
    (hfailed : run.failed = false) (hdamaged : run.damaged = none) (hlimit : run.limit = none)
    (hlane : i.desc.sub = 0 → run.lane.2 = false) :
    ∃ hi, s.attnGo j slot i false =
      if i.desc.sub = 0 ∨ run.tiles.isEmpty then
        ((run.state.store j slot i.desc.cObj hi fun _ => run.out).addDigest j slot (decide (run.appended = 0))).acted
          j slot i stOk (run.flags.or { drypoint := i.desc.sub = 0 }) (wd run.appended) (wd 0) run.cycles
      else
        (((run.state.store j slot i.desc.cObj hi fun _ => run.out).addDigest j slot
          (decide (run.appended = 0))).onArrays j slot i run.flags { tiles := run.tiles }
            (arrayCycles run.tiles 0)).updFlight j.id slot i.index
          fun x => { x with status := stOk, result := wd run.appended, detail := wd 0 } := by
  have hlength : heads.length = (i.desc.attnCtxs (j.bytes slot i.desc.bObj)).length := by rw [hheads, List.length_map]
  have hclean : ¬ (i.desc.sub = 0 ∧ (run.lane.2 = true ∨ False ∧ run.lane.1 = true)) := fun hbad => by
    simp [hlane hbad.1] at hbad
  rw [hlength] at htouch
  refine ⟨i.desc.cOff + tensorBytes i.desc.fmtC (i.desc.m * total (heads.map (·.2))) i.desc.n, ?_⟩
  simp only [State.attnGo, hfault, ← hheads, htouch, ← hrun, hfailed, hdamaged, hlimit, if_neg hclean,
    Bool.false_eq_true, if_false, Option.isSome_none, Option.getD_none]

/-- The run of an ATTN leaves its descriptor in flight, so that what it stores and its digest do. -/
theorem State.Issued.carries_attn {op : Nat} {p : Descriptor → Bool} {run : AttnRun} {rows : Nat}
    {l : List (Nat × Nat × Nat)} {ma mkv out : Memory} (h : s.Issued job slot op p j i)
    (hrun : run = l.foldl (AttnRun.context j i.desc ma mkv rows) { state := s, out := out }) (hi : Nat)
    (exact_ : Bool) : ∃ m, ((run.state.store j slot i.desc.cObj hi fun _ => run.out).addDigest j slot exact_).Carries
      job slot i 0 m := by
  obtain ⟨m, hm⟩ := h.carries_of_work (t := run.state) (hrun ▸ AttnRun.contexts_work ..)
  obtain ⟨m', hm'⟩ := hm.store h.id i.desc.cObj hi fun _ => run.out
  exact ⟨m', hm'.addDigest h.id exact_⟩

/-! ### SCAN (R232 to R236) -/

theorem State.job?_updJournal (hj : s.job? job = some j) (f : Journal → Journal) :
    (s.updJournal job f).job? job = some { j with journal := f j.journal } :=
  State.job?_updJob_of_job? (fun _ => by rfl) hj

/-- A step without a reset mark is one more since the last zeroing (R236). -/
theorem SliceRun.step_since {e : StepIn} (he : e.mark = false) (n g l : Nat) (x : SliceRun) :
    (x.step n g l e).1.since = x.since + 1 := by
  simp only [SliceRun.step, he, Bool.false_eq_true, if_false]
  split
  · rfl
  · split <;> rfl

/-- Without reset marks a stream takes every step of its SCAN (R235, R236). -/
theorem scanStream_since {d : Descriptor} (hd : d.word 12 = 0) (h : StateList) (ma mb mm : Memory) (pr : Bool)
    (tab : PwlTable) (k : Nat) (x : SliceRun) :
    (scanStream d h ma mb mm pr tab k x).1.since = x.since + d.m := by
  have hsteps (l : List Nat) (acc : SliceRun × List (Nat × List (Word × NumFlags)) × Nat) :
      (l.foldl (fun acc t =>
        let e := scanIn d h ma mb mm pr tab t k
        let r := acc.1.step d.n h.group h.lookahead e.1
        (r.1, acc.2.1 ++ [(t * d.batch + k, r.2.1.map fun y => (y.1, y.2.or e.2))], acc.2.2 + toBit r.2.2))
          acc).1.since = acc.1.since + l.length := by
    induction l generalizing acc with
    | nil => rfl
    | cons t l ih =>
      have hmark : (scanIn d h ma mb mm pr tab t k).1.mark = false := by simp [scanIn, hd]
      rw [List.foldl_cons, ih, List.length_cons, SliceRun.step_since hmark]
      omega
  rw [scanStream, hsteps, List.length_range]

/-- STEPS follows the slice at offset 64, the lead slice (R226, R236). -/
theorem writeSlice_lead_steps (r : StateRegion) (n g l : Nat) (x : SliceRun) :
    (writeSlice r 64 n g l x).steps = BitVec.ofNat 64 x.since := rfl

theorem Journal.find?_put (c : Context) (x : Journal) : (Journal.put c x).ctxs.find? (·.id = c.id) = some c := by
  have hnone : (x.ctxs.filter (·.id != c.id)).find? (fun y => decide (y.id = c.id)) = none := by simp
  rw [Journal.put, List.find?_append, hnone]
  simp

theorem Job.journal_put (j : Job) (slot : Nat) (obj : Word) (hi : Nat) (f : Memory → Memory) :
    (j.put slot obj hi f).journal = j.journal := by
  unfold Job.put
  split <;> rfl

/-- A SCAN of one ACTIVE stream on its lead slice, without gates and reset marks. -/
theorem State.scanGo_of_stream {n : Nat} {c : Context} {r : StateRegion} {h : StateList}
    (hlist : parseStateList (j.bytes slot (i.desc.word 11)) i.desc.batch = h) (hm : i.desc.m ≠ 0)
    (hmarks : i.desc.word 12 = 0) (hstreams : h.streams = [(n, 64)]) (hgates : h.gates = false)
    (hfault : s.scanFault j i.desc h true = none) (hseen : s.seenBy j n = some c) (hactive : c.state = .active)
    (hrec : c.rec_ = some r) :
    ∃ x hi out flags result detail cycles,
      s.scanGo j slot i = ((s.updJournal j.id (Journal.put { c with
        rec_ := some (writeSlice r 64 i.desc.n h.group h.lookahead x) })).store j slot i.desc.cObj hi fun _ => out).acted
          j slot i stOk flags result detail cycles ∧
      x.since = (readSlice r 64 i.desc.n h.group h.lookahead).since + i.desc.m := by
  subst hlist
  unfold State.scanGo
  extract_lets d h tab pr ma mb mm dead runs rows out released s1 s2
  have hone : h.streams = [(n, 64)] := hstreams
  have hgiven : h.gates = false := hgates
  have hok : (!h.gates || pr || tab.isSome) = true := by rw [hgiven]; rfl
  rw [hok, show s.scanFault j d h true = none from hfault]
  dsimp only
  rw [if_neg hm]
  have hdead : dead = [] := by simp [dead, hone, hseen, hactive]
  have hruns : runs = [((c, r), 64, scanStream d h ma mb mm pr (tab.getD {}) 0
      (readSlice r 64 d.n h.group h.lookahead))] := by
    simp [runs, hdead, hone, hseen, hrec]
  have hjournal : s1 = s.updJournal j.id (Journal.put { c with rec_ := some (writeSlice r 64 d.n h.group h.lookahead
      (scanStream d h ma mb mm pr (tab.getD {}) 0 (readSlice r 64 d.n h.group h.lookahead)).1) }) := by
    rw [show s1 = runs.foldl _ s from rfl, hruns]
    rfl
  have hcoarse : s2 = s1 := if_neg (by simp [hgiven])
  rw [hdead, hcoarse, hjournal]
  exact ⟨_, _, _, _, _, _, _, rfl, scanStream_since hmarks ..⟩

/-- What a SCAN of one stream leaves of its job: it has acted, and the journal holds the stepped slice. -/
theorem exec_scan_of_stream {n : Nat} {c : Context} {r : StateRegion} {h : StateList}
    (hissued : s.Issued job slot 7 (fun _ => true) j i)
    (hlist : parseStateList (j.bytes slot (i.desc.word 11)) i.desc.batch = h) (hm : i.desc.m ≠ 0)
    (hmarks : i.desc.word 12 = 0) (hstreams : h.streams = [(n, 64)]) (hgates : h.gates = false)
    (hfault : s.scanFault j i.desc h true = none) (hseen : s.seenBy j n = some c) (hactive : c.state = .active)
    (hid : c.id = n) (hrec : c.rec_ = some r) :
    ∃ t, exec (.scan job slot) s = .next t ∧ Only [.jobs] s t ∧ (∃ q, t.Acted job slot i stOk q) ∧
      ∃ x, t.job? job = some x ∧ ∃ c', (x.journal.ctxs.find? (·.id = n)) = some c' ∧ ∃ r', c'.rec_ = some r' ∧
        r'.steps = BitVec.ofNat 64 ((readSlice r 64 i.desc.n h.group h.lookahead).since + i.desc.m) := by
  obtain ⟨x, hi, out, flags, result, detail, cycles, hgo, hsince⟩ :=
    State.scanGo_of_stream hlist hm hmarks hstreams hgates hfault hseen hactive hrec
  have hjob := hissued.id
  subst hjob hid
  have hput := State.job?_updJournal hissued.job (Journal.put { c with
    rec_ := some (writeSlice r 64 i.desc.n h.group h.lookahead x) })
  have hstored := State.job?_updJob_of_job? (fun y => Job.put_id y slot i.desc.cObj hi fun _ => out) hput
  refine ⟨_, (congrArg Host.Outcome.next (State.act_of_issued hissued _)).trans (congrArg _ hgo), fun q hq => ?_, ?_,
    _, State.job?_withFlight hstored slot i.index _, ?_⟩
  · have hjobs : q ≠ .jobs := by simpa using hq
    simp [hjobs]
  · obtain ⟨m, hm⟩ := hissued.carries_of_work (State.updJournal_work j.id s _)
    obtain ⟨m', hm'⟩ := hm.store rfl i.desc.cObj hi fun _ => out
    exact ⟨result, (hm'.acted rfl ..).1⟩
  · rw [Job.withFlight, Job.journal_put]
    have hfound := Journal.find?_put { c with rec_ := some (writeSlice r 64 i.desc.n h.group h.lookahead x) } j.journal
    exact ⟨_, hfound, _, rfl, (writeSlice_lead_steps ..).trans (congrArg _ hsince)⟩

/-! ### GATE (R239, R240) -/

theorem exec_gate_of_precise (h : s.Issued job slot 8 (fun _ => true) j i) (hw : j.writable i.desc.cObj = true)
    (hprecise : i.desc.flag 12 = true) :
    ∃ t, exec (.gate job slot) s = .next t ∧ Only [.jobs] s t ∧ t.Acted job slot i stOk 0 ∧
      t.Reads job slot i.desc.cObj (writeRows (j.bytes slot i.desc.cObj) i.desc.cOff i.desc.fmtC i.desc.n
        i.desc.satFinite ((List.range i.desc.m).map fun r =>
          (readRowF32 (j.bytes slot i.desc.aObj) i.desc.aOff i.desc.fmtA i.desc.m i.desc.n r).map fun x =>
            (precise (if i.desc.sub = 0 then fnLogistic else fnTanh) x).1)).1 := by
  have hexec : exec (.gate job slot) s = execGate job slot s := rfl
  simp only [execGate, State.act_of_issued h, hprecise, Bool.not_true, Bool.false_eq_true, false_and, if_false,
    if_true, List.map_map, Function.comp_def] at hexec
  exact ⟨_, hexec, h.writes hw ..⟩

end

/-- Settles O25: ATTN by the run of its contexts, SCAN by the steps of its stream, GATE by its equation. -/
theorem contextDescriptorsAct : Obligations.ContextDescriptorsAct := by
  unfold Obligations.ContextDescriptorsAct
  refine ⟨fun s job slot j i heads run h hfault hheads htouch hrun hfailed hdamaged hlimit hlane => ?_,
    fun s job slot j i heads run h hfault hheads htouch hrun hfailed hdamaged hlimit htiles => ?_,
    fun s job slot j i n c r h hm hmarks hstreams hgates hfault hseen hactive hid hrec =>
      exec_scan_of_stream h rfl hm hmarks hstreams hgates hfault hseen hactive hid hrec,
    fun s job slot j i h hw hprecise => exec_gate_of_precise h hw hprecise⟩
  · have hsub : i.desc.sub = 0 := by simpa using h.form
    obtain ⟨hi, hgo⟩ := State.attnGo_of_run hfault hheads htouch hrun hfailed hdamaged hlimit fun _ => hlane
    obtain ⟨m, hm⟩ := h.carries_attn hrun hi (decide (run.appended = 0))
    rw [if_pos (.inl hsub)] at hgo
    exact ⟨_, (congrArg Host.Outcome.next (State.act_of_issued h _)).trans (congrArg _ hgo), (hm.acted h.id ..).1⟩
  · have hsub : i.desc.sub = 1 := by simpa using h.form
    have hwait : ¬ (i.desc.sub = 0 ∨ run.tiles.isEmpty = true) := by simp [hsub, htiles]
    obtain ⟨hi, hgo⟩ := State.attnGo_of_run hfault hheads htouch hrun hfailed hdamaged hlimit fun hzero => by
      rw [hsub] at hzero; cases hzero
    obtain ⟨m, hm⟩ := h.carries_attn hrun hi (decide (run.appended = 0))
    rw [if_neg hwait, h.id] at hgo
    exact ⟨_, (congrArg Host.Outcome.next (State.act_of_issued h _)).trans (congrArg _ hgo),
      (hm.onArrays h.id ..).1.withResult ..⟩

end Sys2Proof.Machine
end

section
/-!
PROOF. State regions that are exported (R245): a sealed snapshot takes the next version number of its object (R253,
R256), and where a version that is to be freed holds that number already, both go.
-/

namespace Sys2Proof.Machine

open Sys2Proof

/-- A snapshot of a region is to be sealed as object 9. The directory holds version 65,535 of it and, not newest and
without a reference, version 1: what a re-adoption can leave after the numbers have wrapped (R256, R278). -/
def wrappedExport : State :=
  { State.reset with
    plt := List.replicate 4 { powered := true }
    ctx := { exports_ := [{ obj := 9 }] }
    tir := {
      objs := [{ obj := 9, ver := 65535, state := .verifying, t3 := some 2112 },
        { obj := 9, ver := 1, newest := false, state := .verifying, t3 := some 2113 }]
      seqs := [((0, 9), 65535)] } }

/-- The snapshot becomes version 1; the old version 1 is freed by its number, and the snapshot with it. -/
theorem exec_exportDone_wrapped : ∃ t, exec (.exportDone 0) wrappedExport = .next t ∧ t.tir.objs = [] :=
  ⟨_, rfl, by decide +kernel⟩

/-- Refutes O29: on `wrappedExport` the second clause fails. T2 and the directory have room, and the snapshot takes the
number after 65,535, which is 1 (R256); the versions before it are freed by their numbers (R253), so the one that was
just sealed goes with the old version 1, and no version of object 9 is left. -/
theorem not_stateRegionsAreExportedImportedAndSwapped : ¬ Obligations.StateRegionsAreExportedImportedAndSwapped := by
  unfold Obligations.StateRegionsAreExportedImportedAndSwapped
  rintro ⟨-, hdone, -⟩
  obtain ⟨t, hexec, -, o, ho, -⟩ := hdone wrappedExport 0 { obj := 9 } (by decide) (by decide) (by decide)
  obtain ⟨u, hu, hnone⟩ := exec_exportDone_wrapped
  have hreply : u = t.sendTo _ _ := Host.Outcome.next.inj (hu.symm.trans hexec)
  have htir : u.tir = t.tir := hreply ▸ (State.sendTo_same .tir (by decide) _ _ t t).2 rfl
  rw [← htir, hnone] at ho
  exact List.not_mem_nil ho

end Sys2Proof.Machine
end

section
/-!
PROOF. The end of a host load (R401): the loaded version takes the next number of its object (R253, R256), and where a
version that is to be freed holds that number already, both go, as for an exported region.
-/

namespace Sys2Proof.Machine

open Sys2Proof

/-- A load of object 9 whose one byte has arrived, in session 0. -/
def wrappedLoadOp : LoadOp := { obj := 9, total := 1, received := [0] }

/-- The directory of `wrappedExport`, whose numbers have wrapped, with sessions of partition 0 and the load in progress. -/
def wrappedLoad : State :=
  { wrappedExport with
    ctx := {}
    eth := { sessions := List.replicate 16 { open_ := true, part := some 0 } }
    tir := { wrappedExport.tir with loads := [wrappedLoadOp] } }

/-- The load becomes version 1; the old version 1 is freed by its number, and the loaded one with it. -/
theorem exec_objLoadEnd_wrapped :
    ∃ t, exec (.objLoadEnd 0 0 (crc32c [0]) 0) wrappedLoad = .next t ∧ t.tir.objs = [] :=
  ⟨_, rfl, by decide +kernel⟩

/-- Refutes O48: on `wrappedLoad` the clause of a load that ends whole fails. The check passes and T2 has room, and the
loaded version takes the number after 65,535, which is 1 (R256); the versions before it are freed by their numbers
(R253), so the one that was just published goes with the old version 1, and no version of object 9 is left. -/
theorem not_objectsAreLoadedReadAndPushed : ¬ Obligations.ObjectsAreLoadedReadAndPushed := by
  unfold Obligations.ObjectsAreLoadedReadAndPushed
  rintro ⟨-, -, -, -, -, -, hend, -⟩
  obtain ⟨t, o, hexec, ho, -⟩ := hend wrappedLoad 0 0 (crc32c [0]) 0 wrappedLoadOp [0] (by decide) (by decide)
    (by rfl) (by decide) (by decide) (by decide)
  obtain ⟨u, hu, hnone⟩ := exec_objLoadEnd_wrapped
  have hreply : u = t.sendTo _ _ := Host.Outcome.next.inj (hu.symm.trans hexec)
  have htir : u.tir = t.tir := hreply ▸ (State.sendTo_same .tir (by decide) _ _ t t).2 rfl
  rw [← htir, hnone] at ho
  exact List.not_mem_nil ho

end Sys2Proof.Machine
end

section
/-!
PROOF. Misses and fetches of the tier manager (R265 to R267, R301): where the port, T2 and the directory allow it, a miss
halts its core and asks for its extent at once, and an extent that has arrived lets the core go on.
-/

namespace Sys2Proof.Machine

open Sys2Proof

/-! ### A version by its identity -/

theorem State.version?_isVer {s : State} {part ver : Nat} {obj : Word} {o : ObjVersion}
    (h : s.version? part obj ver = some o) : o.part = part ∧ o.obj = obj ∧ o.ver = ver := by
  simpa [isVer, and_assoc] using List.find?_some h

/-- A version found by any identity is the one that its own identity finds. -/
theorem State.version?_self {s : State} {part ver : Nat} {obj : Word} {o : ObjVersion}
    (h : s.version? part obj ver = some o) : s.version? o.part o.obj o.ver = some o := by
  obtain ⟨rfl, rfl, rfl⟩ := State.version?_isVer h
  exact h

/-- An update of the versions of one identity that keeps their identity is seen through a look-up. -/
theorem State.version?_updObj {s : State} {part ver : Nat} {obj : Word} {o : ObjVersion} {f : ObjVersion → ObjVersion}
    (hf : ∀ x, isVer part obj ver (f x) = isVer part obj ver x) (h : s.version? part obj ver = some o) :
    (s.updObj (isVer part obj ver) f).version? part obj ver = some (f o) := by
  have hsame : (isVer part obj ver ∘ fun x => if isVer part obj ver x then f x else x) = isVer part obj ver := by
    funext x
    simp only [Function.comp]
    split
    · exact hf x
    · rfl
  have hfind : s.tir.objs.find? (isVer part obj ver) = some o := h
  simp only [State.version?, State.updObj, State.updTir_tir, List.find?_map, hsame, hfind, Option.map_some,
    if_pos (List.find?_some hfind)]

/-! ### Room and limits (R269, R301) -/

theorem State.roomT2_of_fits {s : State} {need : Nat} (h : need ≤ s.t2Free) (q : Nat) : s.roomT2 q need = (true, s) :=
  if_pos h

theorem State.withExtents_tir (es : List Nat) (o : ObjVersion) (s : State) : (s.withExtents es o).2.tir = s.tir :=
  (State.withExtents_same .tir (by decide) es o s s).2 rfl

theorem State.feedQueues_tir (s : State) : s.feedQueues.tir = s.tir :=
  (State.feedQueues_same .tir (by decide) s s).2 rfl

/-! ### The request of a miss (R265, R268) -/

/-- The request that the tier manager issues for an extent that a slot of a job misses. -/
def State.missRequest (s : State) (job : Word) (slot e : Nat) (o : ObjVersion) : TierRequest where
  tag := s.freeTag
  askers := [(job, slot)]
  part := o.part
  obj := o.obj
  ver := o.ver
  extent := e
  raised := true
  issueEdge := s.edge
  tier := (s.sourceUnits o e).1
  left := (s.sourceUnits o e).2

section
variable {s : State} {job : Word} {slot core master e : Nat} {o : ObjVersion}
  (hjob : job ≠ 0) (hnot : e ∉ o.present) (hnone : s.fetchOf o e = none) (hroom : extentUnits ≤ s.t2Free)
  (ho : s.version? o.part o.obj o.ver = some o)
include hjob hnot hnone hroom ho

/-- An extent that no request fetches is asked for at once where T2 has room. -/
theorem State.fetchExtent_of_room :
    (s.fetchExtent job slot e o).tir.requests = s.tir.requests ++ [s.missRequest job slot e o] ∧
      Part.cores.Same s (s.fetchExtent job slot e o) := by
  have hreq : ({ tag := s.freeTag, askers := if job = 0 then [] else [(job, slot)], shared := job = 0, part := o.part
                 obj := o.obj, ver := o.ver, extent := e, raised := job != 0, issueEdge := s.edge
                 tier := (s.sourceUnits o e).1, left := (s.sourceUnits o e).2 } : TierRequest) =
      s.missRequest job slot e o := by
    simp only [State.missRequest, if_neg hjob, decide_eq_false hjob, bne_iff_ne.2 hjob]
  have hfetch : ¬ (o.present.contains e = true) := by simpa using hnot
  have hlimit : ¬ (job = 0 ∧ (!s.prefetchFree) = true) := fun h => hjob h.1
  simp only [State.fetchExtent, if_neg hfetch, hnone, if_neg hlimit, State.roomT2_of_fits hroom, if_true, ho, hreq]
  refine ⟨?_, by simp⟩
  rw [State.feedQueues_tir]
  simp [State.updObj, State.withExtents_tir]

/-- A miss at a free port asks for its extent, as a Linework transaction of the core. -/
theorem State.missExtent_of_room (hport : s.portFree core master = true) :
    (s.missExtent job slot core master e o).tir.requests = s.tir.requests ++ [s.missRequest job slot e o] ∧
      Part.cores.Same s (s.missExtent job slot core master e o) := by
  have hfetch := State.fetchExtent_of_room (slot := slot) hjob hnot hnone hroom ho
  simp only [State.missExtent, hport, Bool.not_true, Bool.false_eq_true, if_false]
  -- whether its transaction is new changes no request and no core
  split
  next => exact hfetch
  next => split <;> exact hfetch

end

/-- Without on-demand mode a miss reads no extent ahead. -/
theorem State.readAhead_of_not_onDemand {s : State} {part : Nat}
    (h : (s.otl.running.tierPools.find? (·.part = part)).any (·.onDemand) = false) (obj : Word) (ver e : Nat) :
    s.readAhead part obj ver e = s := by
  simp [State.readAhead, h]

/-! ### EXTENT_MISS -/

/-- A core halts for weights that T2 does not hold, and the miss is counted (R267). -/
def State.halted (core : Nat) (s : State) : State :=
  let s1 := (s.updCore core fun c =>
    if c.state = .running then { c with state := .waitWeights } else c).bump .tirLateWeights
  if h : core < 36 then s1.bump (.coreLateWeights ⟨core, h⟩) else s1

theorem State.halted_eq (core : Nat) (s : State) :
    s.halted core = { s with cores := (s.halted core).cores, counts := (s.halted core).counts } := by
  unfold State.halted
  dsimp only
  split <;> rfl

theorem State.halted_cores (core : Nat) (s : State) :
    (s.halted core).cores = s.cores.modify core fun c =>
      if c.state = .running then { c with state := .waitWeights } else c := by
  unfold State.halted
  dsimp only
  split <;> rfl

theorem State.core_lt_of_state {s : State} {n : Nat} (h : (s.core n).state ≠ .off) : n < s.cores.length := by
  by_contra hge
  rw [State.core, List.getD_eq_default _ _ (Nat.le_of_not_lt hge)] at h
  exact h rfl

theorem State.halted_core {s : State} {core : Nat} (h : (s.core core).state = .running) :
    ((s.halted core).core core).state = .waitWeights := by
  have hlt : core < s.cores.length := State.core_lt_of_state (by simp [h])
  rw [State.core, State.halted_cores, getD_modify _ hlt]
  exact congrArg Core.state (if_pos h)

section
variable {s : State} {job obj : Word} {slot : Fin 32} {extent : Nat} {j : Job} {b : Binding} {o : ObjVersion}

theorem exec_extentMiss_of_missing (hj : s.job? job = some j)
    (hb : j.bound.find? (fun b => b.obj = obj && !b.gone) = some b) (ho : s.version? b.part b.obj b.ver = some o)
    (hrun : j.state = .running) (hslot : slot.val < j.slots.length) (he : extent < o.extents)
    (hnot : extent ∉ o.present) (hasked : s.asked job slot extent o = false) :
    exec (.extentMiss job slot obj extent) s =
      .next (((s.halted (j.coreOf slot)).missExtent job slot (j.coreOf slot) (readMaster j.chain.drypoint) extent
        o).readAhead o.part o.obj o.ver extent) := by
  have hgo : ¬ (j.state ≠ .running ∨ j.slots.length ≤ slot ∨ o.extents ≤ extent ∨ o.present.contains extent = true ∨
      s.asked job slot extent o = true) := by
    simp [hrun, hslot, he, hnot, hasked]
  rw [show exec (.extentMiss job slot obj extent) s = execExtentMiss job slot obj extent s from rfl]
  simp only [execExtentMiss, hj, hb, Option.bind_some, ho, if_neg hgo]
  rfl

/-- A miss that nothing hinders: the core waits for weights, and the request joins those in flight. -/
theorem exec_extentMiss_asks (hjob : job ≠ 0) (hj : s.job? job = some j)
    (hb : j.bound.find? (fun b => b.obj = obj && !b.gone) = some b) (ho : s.version? b.part b.obj b.ver = some o)
    (hrun : j.state = .running) (hslot : slot.val < j.slots.length) (he : extent < o.extents)
    (hnot : extent ∉ o.present) (hnone : s.fetchOf o extent = none) (hasked : s.asked job slot extent o = false)
    (hcore : (s.core (j.coreOf slot)).state = .running)
    (hport : s.portFree (j.coreOf slot) (readMaster j.chain.drypoint) = true) (hroom : extentUnits ≤ s.t2Free)
    (hmode : (s.otl.running.tierPools.find? (·.part = o.part)).any (·.onDemand) = false) :
    ∃ t, exec (.extentMiss job slot obj extent) s = .next t ∧ (t.core (j.coreOf slot)).state = .waitWeights ∧
      t.tir.requests = s.tir.requests ++ [(s.halted (j.coreOf slot)).missRequest job slot extent o] := by
  have heq := s.halted_eq (j.coreOf slot)
  have hhalted := State.halted_core hcore
  rw [exec_extentMiss_of_missing hj hb ho hrun hslot he hnot hasked]
  generalize s.halted (j.coreOf slot) = u at heq hhalted ⊢
  obtain ⟨hreq, hcores⟩ := State.missExtent_of_room (s := u) (slot := slot) hjob hnot
    (by rw [heq]; exact hnone) (by rw [heq]; exact hroom) (by rw [heq]; exact State.version?_self ho)
    (core := j.coreOf slot) (master := readMaster j.chain.drypoint) (by rw [heq]; exact hport)
  rw [State.readAhead_of_not_onDemand]
  · refine ⟨_, rfl, ?_, hreq.trans (by rw [heq])⟩
    rw [State.core, show (u.missExtent ..).cores = u.cores from hcores]
    exact hhalted
  · rw [show (u.missExtent ..).otl = u.otl from (State.missExtent_same .otl (by decide) ..).2 rfl, heq]
    exact hmode

end

/-! ### EXTENT_FETCH_DONE (R266) -/

/-- Nothing goes on where nothing waits at a limit. -/
theorem State.issueWaiting_of_none {s : State} (h : s.lnw.waiting = []) : s.issueWaiting = s := by
  rw [State.issueWaiting, h]
  rfl

/-- A core that waits for no other extent goes on. -/
theorem State.wake_of_asker {s : State} {a : Word × Nat} {n : Nat} (h : s.awaits a.1 a.2 = false)
    (hn : s.askerCore a = some n) :
    s.wake [a] = s.updCore n fun c => if c.state = .waitWeights then { c with state := .running } else c := by
  simp [State.wake, h, hn]

/-- An extent of a version is in T2. -/
def ObjVersion.arrive (e : Nat) (now : Int) (o : ObjVersion) : ObjVersion :=
  let o1 := { o with present := o.present ++ [e], filling := o.filling.filter (· != e), lastUse := now }
  if o1.full then { o1 with promoT2 := false } else o1

/-- A request has ended with its extent. -/
def State.fetched (r : TierRequest) (s : State) : State :=
  ((s.updTir fun t => { t with requests := t.requests.filter (·.tag != r.tag) }).updObj (isVer r.part r.obj r.ver)
    (ObjVersion.arrive r.extent s.now)).bump .tirPromotions

theorem exec_extentFetchDone_of_arrived {s : State} {tag : BitVec 16} {r : TierRequest}
    (hr : s.tir.requests.find? (·.tag = tag) = some r) (hleft : r.left = []) :
    exec (.extentFetchDone tag) s = .next ((s.fetched r).wake r.askers).issueWaiting := by
  have htag : r.tag = tag := by simpa using List.find?_some hr
  subst htag
  rw [show exec (.extentFetchDone r.tag) s = execExtentFetchDone r.tag s from rfl]
  simp only [execExtentFetchDone, hr, hleft, List.isEmpty_nil, Bool.not_true, Bool.false_eq_true, if_false]
  rfl

theorem State.fetched_objs (r : TierRequest) (s : State) :
    (s.fetched r).tir.objs.map (fun x => (x.obj, x.ver, x.part, x.present)) = s.tir.objs.map fun x =>
      (x.obj, x.ver, x.part, if isVer r.part r.obj r.ver x then x.present ++ [r.extent] else x.present) := by
  have harrive (e : Nat) (now : Int) (o : ObjVersion) : ((o.arrive e now).obj, (o.arrive e now).ver,
      (o.arrive e now).part, (o.arrive e now).present) = (o.obj, o.ver, o.part, o.present ++ [e]) := by
    unfold ObjVersion.arrive
    dsimp only
    split <;> rfl
  simp only [State.fetched, State.updObj, State.bump_tir, State.updTir_tir, List.map_map]
  refine List.map_congr_left fun x _ => ?_
  simp only [Function.comp]
  split
  · exact harrive ..
  · rfl

/-- A slot that waited for the extent that has arrived, and for no other, waits no more. -/
theorem State.fetched_awaits {s : State} {r : TierRequest} {job : Word} {slot : Nat} (hwaiting : s.lnw.waiting = [])
    (hreqs : ∀ q ∈ s.tir.requests, q.tag ≠ r.tag → (job, slot) ∉ q.askers)
    (hwaits : ∀ w ∈ s.tir.waits, w.obj = 0 ∨ w.job ≠ job ∨ w.slot ≠ slot) :
    (s.fetched r).awaits job slot = false := by
  have hothers : ∀ w ∈ s.tir.waits, ¬ w.obj = 0 → w.job = job → ¬ w.slot = slot := fun w hw hobj hjob =>
    ((hwaits w hw).resolve_left hobj).resolve_left (not_not.2 hjob)
  simpa [State.awaits, State.fetched, State.updObj, hwaiting] using ⟨hreqs, hothers⟩

theorem exec_extentFetchDone_of_asker {s : State} {tag : BitVec 16} {r : TierRequest} {job : Word} {slot n : Nat}
    (hr : s.tir.requests.find? (·.tag = tag) = some r) (hleft : r.left = []) (haskers : r.askers = [(job, slot)])
    (hn : s.askerCore (job, slot) = some n) (hwaiting : s.lnw.waiting = [])
    (hreqs : ∀ q ∈ s.tir.requests, q.tag ≠ tag → (job, slot) ∉ q.askers)
    (hwaits : ∀ w ∈ s.tir.waits, w.obj = 0 ∨ w.job ≠ job ∨ w.slot ≠ slot) :
    exec (.extentFetchDone tag) s = .next ((s.fetched r).updCore n fun c =>
      if c.state = .waitWeights then { c with state := .running } else c) := by
  have htag : r.tag = tag := by simpa using List.find?_some hr
  subst htag
  have hwake := State.wake_of_asker (s := s.fetched r) (a := (job, slot))
    (State.fetched_awaits hwaiting hreqs hwaits) hn
  rw [exec_extentFetchDone_of_arrived hr hleft, haskers, hwake, State.issueWaiting_of_none]
  exact hwaiting

end Sys2Proof.Machine
end

section
/-!
PROOF. Requests that time out (R268, R448) and what arrives late: the request is withdrawn and its tag held, and a
requesting job that has no attempt left ends.
-/

namespace Sys2Proof.Machine

open Sys2Proof

/-! ### What a cancelled request leaves of the jobs (R259, R268, R301) -/

section
variable {β : Type} {v : Job → β} (hbound : ∀ (j : Job) b, v { j with bound := b } = v j)
include hbound

theorem State.jobsBy_missExtent (job : Word) (slot core master e : Nat) (o : ObjVersion) (s : State) :
    (s.missExtent job slot core master e o).jobsBy v = s.jobsBy v := by
  unfold State.missExtent
  extract_lets s1
  have h1 : s1.jobsBy v = s.jobsBy v := State.jobsBy_fetchExtent hbound ..
  repeat' split
  · exact State.jobsBy_of_same (by simp)
  · exact h1
  · exact h1
  · exact (State.jobsBy_of_same (by simp)).trans h1

theorem State.jobsBy_issueWaiting (s : State) : s.issueWaiting.jobsBy v = s.jobsBy v := by
  refine foldl_eq_of_step (fun u w => ?_) _ _
  extract_lets ready s1
  have h1 : s1.jobsBy v = u.jobsBy v := State.jobsBy_of_same (by simp [s1])
  repeat' split
  · rfl
  · exact h1
  · exact (State.jobsBy_fetchExtent hbound ..).trans h1
  · exact h1
  · exact (State.jobsBy_missExtent hbound ..).trans h1

theorem State.jobsBy_refetchExtent (r : TierRequest) (s : State) : (s.refetchExtent r).jobsBy v = s.jobsBy v := by
  unfold State.refetchExtent
  repeat' split
  · exact State.jobsBy_fetchExtent hbound ..
  · rfl
  · rfl

theorem State.jobsBy_cancelRequest (r : TierRequest) (s : State) : (s.cancelRequest r).jobsBy v = s.jobsBy v := by
  unfold State.cancelRequest
  extract_lets s1 s2
  have h1 : s1.jobsBy v = s.jobsBy v := State.jobsBy_of_same (by simp [s1])
  have h2 : s2.jobsBy v = s1.jobsBy v := by
    refine foldl_eq_of_step (fun u id => ?_) _ _
    split
    · rfl
    · exact State.jobsBy_of_same (by simp)
  exact (State.jobsBy_issueWaiting hbound _).trans ((State.jobsBy_refetchExtent hbound r s2).trans (h2.trans h1))

end

/-- What a fault reads of a job to say whether it has an attempt left (R156). -/
def Job.attempts (j : Job) : Word × JobState × Nat × Nat := (j.id, j.state, j.budget, j.attempt)

/-- A view of the jobs that tells their IDs tells what a look-up by ID finds. -/
theorem State.job?_map_of_jobsBy {β : Type} {v : Job → β} {key : β → Word} (hkey : ∀ j, key (v j) = j.id) {s t : State}
    (h : t.jobsBy v = s.jobsBy v) (id : Word) : (t.job? id).map v = (s.job? id).map v := by
  have hfind (u : State) : (u.job? id).map v = (u.jobsBy v).find? fun w => key w = id := by
    simp only [State.jobsBy, State.job?, List.find?_map, Function.comp_def, hkey]
  rw [hfind, h, ← hfind]

theorem State.job?_attempts {s t : State} {id : Word} {j : Job} (h : t.jobsBy Job.attempts = s.jobsBy Job.attempts)
    (hj : s.job? id = some j) :
    ∃ x, t.job? id = some x ∧ x.state = j.state ∧ x.budget = j.budget ∧ x.attempt = j.attempt := by
  have hmap := State.job?_map_of_jobsBy (key := Prod.fst) (fun _ => by rfl) h id
  rw [hj, Option.map_some] at hmap
  obtain ⟨x, hx, heq⟩ := Option.map_eq_some_iff.1 hmap
  simp only [Job.attempts, Prod.mk.injEq] at heq
  exact ⟨x, hx, heq.2⟩

/-! ### TIER_REQUEST_TIMEOUT -/

section
variable {s : State} {tag : BitVec 16} {r : TierRequest}

theorem exec_tierRequestTimeout_of_late (hr : s.tir.requests.find? (·.tag = tag) = some r)
    (hlate : r.issueEdge + 32000 ≤ s.edge) : exec (.tierRequestTimeout tag) s = .next (s.timeOutRequest r) := by
  have hdue : s.requestLate r = true := decide_eq_true hlate
  have hexec : exec (.tierRequestTimeout tag) s = execTierRequestTimeout tag s := rfl
  simpa only [execTierRequestTimeout, hr, hdue, if_true] using hexec

/-- No promotion needs an extent of the version: the fetch is not made again. -/
theorem State.refetchExtent_of_not_promoting
    (h : ∀ o ∈ s.tir.objs, isVer r.part r.obj r.ver o = true → o.promoT2 = false) : s.refetchExtent r = s := by
  unfold State.refetchExtent
  split
  next o ho => exact if_neg (by simp [h o (List.mem_of_find?_eq_some ho) (List.find?_some ho)])
  next => rfl

/-- A request that a promotion alone made, and that none needs any more, is withdrawn. -/
theorem State.timeOutRequest_of_no_asker (haskers : r.askers = []) (hwaiting : s.lnw.waiting = [])
    (hpromo : ∀ o ∈ s.tir.objs, isVer r.part r.obj r.ver o = true → o.promoT2 = false) :
    s.timeOutRequest r = (s.withdraw r).bump .tirTimeouts := by
  have hjobs : r.jobs = [] := by simp [TierRequest.jobs, haskers]
  have hkept : ∀ o ∈ ((s.withdraw r).bump .tirTimeouts).tir.objs, isVer r.part r.obj r.ver o = true →
      o.promoT2 = false := by
    intro o ho hver
    obtain ⟨x, hx, rfl⟩ := List.mem_map.1 ho
    by_cases hmine : isVer r.part r.obj r.ver x = true
    · exact (congrArg ObjVersion.promoT2 (if_pos hmine)).trans (hpromo x hx hmine)
    · exact absurd ((congrArg (isVer r.part r.obj r.ver) (if_neg hmine)).symm.trans hver) hmine
  simp only [State.timeOutRequest, State.cancelRequest, hjobs, List.foldl_nil,
    State.refetchExtent_of_not_promoting hkept]
  exact State.issueWaiting_of_none hwaiting

/-- A request whose job has no attempt left ends the job (R156, R158). -/
theorem State.timeOutRequest_forgets {j : Job} (hjobs : r.jobs = [j.id]) (hj : s.job? j.id = some j)
    (hrun : j.state = .running) (hspent : j.budget ≤ j.attempt) : (s.timeOutRequest r).job? j.id = none := by
  obtain ⟨x, hx, hstate, hbudget, hattempt⟩ :=
    State.job?_attempts (State.jobsBy_cancelRequest (v := Job.attempts) (fun _ _ => by rfl) r s) hj
  have hgone := State.faultJob_forgets hx (hstate.trans hrun) (by omega) none
  rw [State.timeOutRequest, hjobs, State.job?]
  exact List.find?_eq_none.2 fun y hy => by simpa using hgone y hy

end

/-! ### LATE_COMPLETION (R268, R448) -/

theorem exec_lateCompletion_of_tier {s : State} {tag : BitVec 16} (h : (s.tir.held.any (·.tag = tag)) = true) :
    exec (.lateCompletion false tag) s = .next (s.bump .tirLateDiscard) :=
  congrArg Host.Outcome.next (if_pos h)

theorem exec_lateCompletion_of_linework {s : State} {tag : BitVec 16} (h : (s.lnw.held.any (·.tag = tag)) = true) :
    exec (.lateCompletion true tag) s = .next (s.bump .lnwLateDiscard) :=
  congrArg Host.Outcome.next (if_pos h)

end Sys2Proof.Machine
end

section
/-!
PROOF. Waits for room, the Tier Writer, the directory mirror, re-adoption, rebuilds, the directory query and tier moves
(R252, R256, R269, R273, R275 to R278, R280).
-/

namespace Sys2Proof.Machine

open Sys2Proof

/-! ### ALLOCATION_WAIT_END (R269) -/

section
variable {s : State}

/-- Without a fetch among them, the waits are served in their order. -/
theorem State.waitOrder_of_no_fetch (h : ∀ x ∈ s.tir.waits, x.obj = 0) : s.waitOrder = s.tir.waits := by
  have hraised : (s.tir.waits.filter fun w => w.obj != 0 && w.job != 0) = [] :=
    List.filter_eq_nil_iff.2 fun w hw => by simp [h w hw]
  have hrest : (s.tir.waits.filter fun w => !(w.obj != 0 && w.job != 0)) = s.tir.waits :=
    List.filter_eq_self.2 fun w hw => by simp [h w hw]
  simp only [State.waitOrder, hraised, hrest, List.nil_append]

/-- A wait of a write or a launch ends where T2 has room for it. -/
theorem State.firstWait_of_fits {w : AllocWait} (hobj : w.obj = 0) (hroom : w.units ≤ s.t2Free) (l : List AllocWait) :
    s.firstWait (w :: l) = s.updTir fun t => { t with waits := t.waits.filter (· != w) } := by
  have hserved : s.served w = false := by simp [State.served, hobj]
  simp [State.firstWait, hserved, State.roomT2_of_fits hroom, State.endWait, hobj]

/-- No write waits for units. -/
theorem State.placeWaiting_of_placed (h : ∀ x ∈ s.tir.writer, x.placed = true) : s.placeWaiting = s := by
  have hnone : s.tir.writer.findIdx? (fun w => !w.placed) = none :=
    List.findIdx?_eq_none_iff.2 fun x hx => by simp [h x hx]
  simp only [State.placeWaiting, hnone]

theorem exec_allocationWaitEnd_of_fits {w : AllocWait} {l : List AllocWait} (hw : s.tir.waits = w :: l)
    (hroom : w.units ≤ s.t2Free) (hobj : ∀ x ∈ s.tir.waits, x.obj = 0) (hplaced : ∀ x ∈ s.tir.writer, x.placed = true) :
    exec .allocationWaitEnd s = .next (s.updTir fun t => { t with waits := t.waits.filter (· != w) }) := by
  have hfirst : w.obj = 0 := hobj w (by simp [hw])
  rw [show exec .allocationWaitEnd s = .next (s.firstWait s.waitOrder).placeWaiting from rfl,
    State.waitOrder_of_no_fetch hobj, hw, State.firstWait_of_fits hfirst hroom,
    State.placeWaiting_of_placed]
  exact hplaced

/-! ### TIER_WRITE_DONE (R252) -/

/-- A stored copy of a version in T3 becomes readable. -/
theorem exec_tierWriteDone_of_stored {w : TierWrite} {o : ObjVersion}
    (hw : s.tir.writer.find? (·.placed) = some w) (hkind : w.kind = .place) (htier : w.tier = 3)
    (hstored : s.allStored w = true) (ho : s.version? w.part w.obj w.ver = some o) :
    exec (.tierWriteDone true) s = .next { s with
      tir := { s.tir with
        writer := s.tir.writer.erase w, mirrorDirty := true
        objs := s.tir.objs.map fun x => if isVer o.part o.obj o.ver x then
          { x with t3 := some w.start, t3Mirror := w.mirrorStart, gone := s.lostNumbers, promoT3 := false }
        else x } } := by
  have hfound : (s.updTir fun t => { t with writer := t.writer.erase w }).version? w.part w.obj w.ver = some o := ho
  have hdemote : ¬ TierWriteKind.place = .demote := by decide
  rw [show exec (.tierWriteDone true) s = execTierWriteDone true s from rfl]
  simp only [execTierWriteDone, hw, hstored, Bool.and_self, if_true, State.copyReadable, hkind, State.versionReadable,
    hfound, htier, if_neg hdemote]
  rfl

/-- A bad CRC leaves the write to be made again (log 16). -/
theorem exec_tierWriteDone_of_bad : exec (.tierWriteDone false) s = .next s := by
  rw [show exec (.tierWriteDone false) s = execTierWriteDone false s from rfl, execTierWriteDone]
  split <;> rfl

/-! ### DIRECTORY_MIRROR_WRITE (R276, R277) -/

/-- The slot that the next image takes: the one that does not hold the newest. -/
def State.nextSlot (s : State) : Nat :=
  match s.newestImage with
  | some x => 1 - x.1
  | none => 0

theorem State.nextSlot_of_image {x : Nat × MirrorSlot} (h : s.newestImage = some x) : s.nextSlot = 1 - x.1 := by
  rw [State.nextSlot, h]

/-- The image of the versions that the mirror lists. -/
def State.nextImage (s : State) : MirrorSlot where
  words := mirrorImage (s.tir.mirrorSeq + 1) (compactOf s.now) (s.tir.listed.map mirrorEntry)
  data := s.tir.listed.map (·.data)

theorem exec_directoryMirrorWrite_of_due (hdirty : s.tir.mirrorDirty = true)
    (hedge : s.tir.mirrorEdge = 0 ∨ s.tir.mirrorEdge + 1600000 ≤ s.edge) :
    exec .directoryMirrorWrite s = .next (s.updTir fun t => { t with
      mirror := t.mirror.set s.nextSlot s.nextImage
      mirrorSeq := t.mirrorSeq + 1
      mirrorDirty := false
      mirrorEdge := s.edge }) := by
  have hdue : ¬ ((!s.tir.mirrorDirty || (s.tir.mirrorEdge != 0 &&
      decide (s.edge < s.tir.mirrorEdge + 10 * edgesMs))) = true) := by
    have hms : edgesMs = 160000 := rfl
    simp [hdirty, hms]
    omega
  exact congrArg Host.Outcome.next (if_neg hdue)

/-! ### READOPT_VERIFY_DONE (R278) -/

/-- A version whose CRC matches is in the directory again, whole or to be rebuilt. -/
theorem exec_readoptVerifyDone_of_match {part : Fin 8} {obj : Word} {ver : BitVec 16} {o : ObjVersion}
    (ho : s.tir.nextVerify = some o) (hpart : o.part = part) (hobj : o.obj = obj) (hver : o.ver = ver.toNat)
    (hhome : o.rehome = false) (hwaits : s.tir.checkWaits = []) :
    exec (.readoptVerifyDone part obj ver o.crc) s = .next (((s.updObj (isVer part obj ver.toNat) fun x => { x with
      state := if x.gone.all s.lostLogical then .sealed else .rebuilding, rehome := false }).updTir fun t =>
        { t with mirrorDirty := true }).bump .tirReadopted) := by
  have hnamed : ¬ (o.part ≠ part ∨ o.obj ≠ obj ∨ o.ver ≠ ver.toNat) := by simp [hpart, hobj, hver]
  rw [show exec (.readoptVerifyDone part obj ver o.crc) s = execReadoptVerifyDone part obj ver o.crc s from rfl]
  simp only [execReadoptVerifyDone, ho, if_neg hnamed, if_true, hhome, Bool.false_eq_true, if_false, State.bump_tir,
    State.updTir_tir, State.updObj, hwaits, List.filter_nil, List.foldl_nil]
  rw [hpart, hobj, hver]

/-! ### REBUILD_DONE (R275) -/

theorem exec_rebuildDone_of_idle {part : Fin 8} {obj : Word} {ver : BitVec 16}
    (h : (s.tir.writer.any fun w => w.kind = .rebuild && w.part = part && w.obj = obj && w.ver = ver.toNat) = false) :
    exec (.rebuildDone part obj ver) s = .next (s.updObj (isVer part obj ver.toNat) fun o => { o with
      state := if o.state = .rebuilding then .sealed else o.state, gone := o.gone.filter s.lostLogical }) :=
  congrArg Host.Outcome.next (if_neg (by rw [h]; decide))

/-! ### TIR_DIR_QUERY (R256, R280) -/

theorem exec_tirDirQuery_of_newest {i : Fin 16} {p : Nat} {v : Word} {o : ObjVersion}
    (hopen : (s.session i).open_ = true) (hpart : (s.session i).part = some p) (ho : s.newestOf p v = some o) :
    exec (.tirDirQuery i v) s = .next ((s.delivered i).updTir fun t => { t with dirResult := o.words }) := by
  rw [show exec (.tirDirQuery i v) s = execTirDirQuery i v s from rfl]
  simp [execTirDirQuery, State.request, hopen, hpart, State.dirQuery, ho]

/-! ### MOVE_TIER (R273, R274) -/

theorem State.takeRef_tir (part : Nat) (obj : Word) (ver : Nat) (s : State) :
    (s.takeRef 2 part obj ver).tir = { s.tir with objs := refTaken part obj ver s.tir.objs } := by
  simp only [State.takeRef, if_true]
  split <;> rfl

/-- A tier reference of a version is seen through a look-up. -/
theorem State.version?_takeRef {part ver : Nat} {obj : Word} {o : ObjVersion} (h : s.version? part obj ver = some o) :
    (s.takeRef 2 part obj ver).version? part obj ver = some { o with refsT2 := addRef o.refsT2 } := by
  have hupd := State.version?_updObj (f := fun x => { x with refsT2 := addRef x.refsT2 }) (fun _ => by rfl) h
  rw [State.version?, State.takeRef_tir]
  exact hupd

/-- A move to T2 of a version that is whole there references it until the job ends. -/
theorem State.tierMove_of_full {j : Job} {o : ObjVersion} (ho : s.version? o.part o.obj o.ver = some o)
    (hhome : 2 < o.home) (hfull : o.full = true) :
    s.tierMove j 2 o = (s.takeRef 2 o.part o.obj o.ver).updTir fun t => { t with
      tierRefs := t.tierRefs ++ [{ job := some j.id, part := o.part, obj := o.obj, ver := o.ver, tier := 2 }] } := by
  simp only [State.tierMove, if_pos hhome, if_true]
  exact State.promoteT2_of_full (State.version?_takeRef ho) hfull

theorem exec_moveTier_of_full {job : Word} {slot : Fin 32} {j : Job} {i : InFlight} {k : Nat} {b : Binding}
    {o : ObjVersion} (h : s.Issued job slot 10 (fun d => d.sub = 2) j i) (hk : j.handle i.desc.aObj = .bound k)
    (hb : j.bound[k]? = some b) (ho : s.version? b.part b.obj b.ver = some o) (htier : i.desc.param0 = 2)
    (hhome : 2 < o.home) (hfull : o.full = true) :
    ∃ t, exec (.moveTier job slot) s = .next t ∧ t.Acted job slot i stOk 0 ∧ t.tir.tierRefs = s.tir.tierRefs ++
      [{ job := some job, part := o.part, obj := o.obj, ver := o.ver, tier := 2 }] := by
  have hid := h.id
  subst hid
  have hbound : j.bound.getD k {} = b := by rw [List.getD_eq_getElem?_getD, hb, Option.getD_some]
  have hmove := State.tierMove_of_full (j := j) (State.version?_self ho) hhome hfull
  have hjobs : (s.tierMove j 2 o).jobs = s.jobs := by
    rw [hmove, State.updTir_jobs]
    exact (State.takeRef_same .jobs (by decide) ..).2 rfl
  have hexec : exec (.moveTier j.id slot) s = .next ((s.tierMove j 2 o).acted j slot i stOk {} 0 0 0) := by
    rw [show exec (.moveTier j.id slot) s = execMoveTier j.id slot s from rfl]
    simp only [execMoveTier, State.act_of_issued h, hk, hbound, ho, htier]
  refine ⟨_, hexec, (((h.carries 0).of_jobs hjobs).acted rfl ..).1, ?_⟩
  show (s.tierMove j 2 o).tir.tierRefs = _
  rw [hmove, State.updTir_tir, State.takeRef_tir]

end

/-- Settles O31: the misses and fetches, the timeouts by what the cancelled request leaves, and each event of the
directory by its equation. -/
theorem theTierManagerFetchesWritesAndChecks : Obligations.TheTierManagerFetchesWritesAndChecks := by
  unfold Obligations.TheTierManagerFetchesWritesAndChecks
  refine ⟨?_, ?_, ?_, ?_, fun s tag h => exec_lateCompletion_of_tier h,
    fun s tag h => exec_lateCompletion_of_linework h, fun s tag => rfl,
    fun s w l hw hroom hobj hplaced => exec_allocationWaitEnd_of_fits hw hroom hobj hplaced,
    fun s w o hw hkind htier hstored ho => exec_tierWriteDone_of_stored hw hkind htier hstored ho,
    fun s => exec_tierWriteDone_of_bad, ?_, ?_, fun s part obj ver h => exec_rebuildDone_of_idle h, ?_,
    fun s job slot j i k b o h hk hb ho htier hhome hfull => exec_moveTier_of_full h hk hb ho htier hhome hfull⟩
  · intro s job slot obj extent j b o hjob hj hb ho hrun hslot he hnot hnone hasked hcore hport hroom hmode
    obtain ⟨t, hexec, hwait, hreq⟩ := exec_extentMiss_asks hjob hj hb ho hrun hslot he hnot hnone hasked hcore hport
      hroom hmode
    refine ⟨t, hexec, hwait, _, hreq, rfl, rfl, rfl, rfl, rfl, rfl, ?_⟩
    rw [State.halted_eq]
    rfl
  · intro s tag r job slot n hr hleft haskers hn hcore hwaiting hreqs hwaits
    have htag : r.tag = tag := by simpa using List.find?_some hr
    refine ⟨_, exec_extentFetchDone_of_asker hr hleft haskers hn hwaiting hreqs hwaits, ?_, ?_, State.fetched_objs r s⟩
    · subst htag
      rfl
    · have hlt : n < (s.fetched r).cores.length := State.core_lt_of_state (s := s) (by simp [hcore])
      rw [State.core_updCore hlt]
      exact congrArg Core.state (if_pos hcore)
  · intro s tag r hr hlate haskers hwaiting hpromo
    have htag : r.tag = tag := by simpa using List.find?_some hr
    subst htag
    refine ⟨_, (exec_tierRequestTimeout_of_late hr hlate).trans
      (congrArg _ (State.timeOutRequest_of_no_asker haskers hwaiting hpromo)), fun p hp => ?_, rfl, ?_, rfl⟩
    · simp only [List.mem_cons, List.not_mem_nil, or_false, not_or] at hp
      simp [hp]
    · exact List.filter_congr fun q _ => by rw [Bool.eq_iff_iff]; simp
  · intro s tag r j hr hlate hjobs hj hrun hspent
    exact ⟨_, exec_tierRequestTimeout_of_late hr hlate, State.timeOutRequest_forgets hjobs hj hrun hspent⟩
  · intro s hdirty hedge
    refine ⟨_, s.nextSlot, exec_directoryMirrorWrite_of_due hdirty hedge, fun p hp => ?_,
      fun x hx => State.nextSlot_of_image hx, rfl⟩
    have htir : p ≠ .tir := by simpa using hp
    simp [htir]
  · intro s part obj ver o ho hpart hobj hver hhome hwaits
    refine ⟨_, exec_readoptVerifyDone_of_match ho hpart hobj hver hhome hwaits, fun p hp => ?_, rfl⟩
    simp only [List.mem_cons, List.not_mem_nil, or_false, not_or] at hp
    simp [hp]
  · intro s i p v o hopen hpart ho
    refine ⟨_, exec_tirDirQuery_of_newest hopen hpart ho, ?_⟩
    rw [State.delivered_eq]
    rfl

end Sys2Proof.Machine
end

section
/-!
PROOF. The memory channels by number (R302), and what the loss of a channel's copies leaves of them: it changes no more
than their queues (R289, R291, R292).
-/

namespace Sys2Proof.Machine

open Sys2Proof

/-! ### A channel by its number (R302) -/

section
variable {s : State} {ch : Channel}

/-- A channel in any state but OFF is in its table, and an update of it is read there. -/
theorem State.memChan_updChan (f : MemChannel → MemChannel) (h : (s.memChan ch).state ≠ .off) :
    (s.updChan ch f).memChan ch = f (s.memChan ch) := by
  have hread (l : List MemChannel) (i : Nat) (hi : (l.getD i {}).state ≠ .off) :
      (l.modify i f).getD i {} = f (l.getD i {}) := by
    have hlt : i < l.length := by
      by_contra hge
      exact hi (by rw [List.getD_eq_default _ _ (Nat.le_of_not_lt hge)])
    simp [List.getD_eq_getElem?_getD, hlt]
  cases ch with
  | golent c => exact hread _ _ h
  | board b => exact hread _ _ h

theorem State.memChan_updChan_ne (f : MemChannel → MemChannel) {o : Channel} (h : o ≠ ch) :
    (s.updChan ch f).memChan o = s.memChan o := by
  have hread (l : List MemChannel) {i j : Nat} (hij : i ≠ j) : (l.modify i f).getD j {} = l.getD j {} := by
    simp [List.getD_eq_getElem?_getD, hij]
  cases ch with
  | golent c =>
    cases o with
    | golent d => exact hread _ fun hcd => h (congrArg Channel.golent (Fin.ext hcd).symm)
    | board d => rfl
  | board b =>
    cases o with
    | golent d => rfl
    | board d => exact hread _ fun hbd => h (congrArg Channel.board (Fin.ext hbd).symm)

theorem State.memChan_of_same {t : State} (h : Part.Same .chn s t) (ch : Channel) : t.memChan ch = s.memChan ch := by
  cases ch with
  | golent c => exact congrArg (fun x : Chn => x.golent.getD c {}) h
  | board b => exact congrArg (fun x : Chn => x.board.getD b {}) h

theorem State.updChan_updChan (f g : MemChannel → MemChannel) (s : State) :
    (s.updChan ch f).updChan ch g = s.updChan ch fun c => g (f c) := by
  cases ch with
  | golent c => exact congrArg (fun l => { s with chn := { s.chn with golent := l } }) (List.modify_modify_eq ..)
  | board b => exact congrArg (fun l => { s with chn := { s.chn with board := l } }) (List.modify_modify_eq ..)

theorem State.bumpBy_updChan (c : Counter) (n : Nat) (f : MemChannel → MemChannel) (s : State) :
    (s.updChan ch f).bumpBy c n = (s.bumpBy c n).updChan ch f := by
  cases ch <;> rfl

/-- The lowest spare is a channel in the state SPARE. -/
theorem State.golentSpare_state {sp : Fin 66} (h : s.golentSpare = some sp) : (s.memChan (.golent sp)).state = .spare :=
  of_decide_eq_true (List.find?_some (p := fun c : Fin 66 => decide ((s.memChan (.golent c)).state = .spare)) h)

end

/-! ### The channels but for their queues -/

def MemChannel.unqueued (c : MemChannel) : MemChannel := { c with queue := [] }

/-- What the channels of both tiers hold but for their queues. -/
def State.links (s : State) : List MemChannel × List MemChannel :=
  (s.chn.golent.map MemChannel.unqueued, s.chn.board.map MemChannel.unqueued)

theorem State.links_of_same {s t : State} (h : Part.Same .chn s t) : t.links = s.links :=
  congrArg (fun c : Chn => (c.golent.map MemChannel.unqueued, c.board.map MemChannel.unqueued)) h

theorem State.unqueued_of_links {s t : State} (h : t.links = s.links) (ch : Channel) :
    (t.memChan ch).unqueued = (s.memChan ch).unqueued := by
  have hread {l m : List MemChannel} (hlm : l.map MemChannel.unqueued = m.map MemChannel.unqueued) (i : Nat) :
      (l.getD i {}).unqueued = (m.getD i {}).unqueued := by
    rw [← List.getD_map (f := MemChannel.unqueued), hlm, List.getD_map]
  obtain ⟨hgolent, hboard⟩ := Prod.mk.inj h
  cases ch with
  | golent c => exact hread hgolent c
  | board b => exact hread hboard b

theorem State.state_of_links {s t : State} (h : t.links = s.links) (ch : Channel) :
    (t.memChan ch).state = (s.memChan ch).state :=
  (congrArg MemChannel.state (State.unqueued_of_links h ch) :)

theorem State.logical_of_links {s t : State} (h : t.links = s.links) (ch : Channel) :
    (t.memChan ch).logical = (s.memChan ch).logical :=
  (congrArg MemChannel.logical (State.unqueued_of_links h ch) :)

theorem State.deferred_of_links {s t : State} (h : t.links = s.links) (ch : Channel) :
    (t.memChan ch).deferred = (s.memChan ch).deferred :=
  (congrArg MemChannel.deferred (State.unqueued_of_links h ch) :)

section
variable {f : MemChannel → MemChannel} (hf : ∀ c, (f c).unqueued = c.unqueued)
include hf

theorem map_unqueued_modify (l : List MemChannel) (i : Nat) :
    (l.modify i f).map MemChannel.unqueued = l.map MemChannel.unqueued := by
  refine List.ext_getElem? fun j => ?_
  rw [List.getElem?_map, List.getElem?_map, List.getElem?_modify]
  by_cases hij : i = j
  · simp [hij, Function.comp_def, hf]
  · simp [hij]

theorem State.links_updChan (ch : Channel) (s : State) : (s.updChan ch f).links = s.links := by
  cases ch with
  | golent c => exact congrArg (·, s.links.2) (map_unqueued_modify hf _ _)
  | board b => exact congrArg (s.links.1, ·) (map_unqueued_modify hf _ _)

theorem State.links_updChn_map (s : State) :
    (s.updChn fun c => { c with golent := c.golent.map f, board := c.board.map f }).links = s.links := by
  have hcomp : MemChannel.unqueued ∘ f = MemChannel.unqueued := funext hf
  simp only [State.links, State.updChn, List.map_map, hcomp]

end

/-! ### What fetches and their ends leave of the channels (R157, R257, R265, R268, R291, R301) -/

theorem State.links_dropTags (ts : List (BitVec 16)) (s : State) : (s.dropTags ts).links = s.links := by
  unfold State.dropTags
  exact (State.links_updChn_map (fun _ => by rfl) _).trans (State.links_of_same (by simp))

theorem State.links_endFetches (o : ObjVersion) (s : State) : (s.endFetches o).links = s.links := by
  unfold State.endFetches
  extract_lets mine rs ws ps as
  exact (State.links_of_same (s := s.dropTags (rs.map (·.tag))) (by simp)).trans (State.links_dropTags ..)

theorem State.links_loseCopies (st : DirState) (o : ObjVersion) (s : State) : (s.loseCopies st o).links = s.links :=
  (State.links_endFetches o _).trans (State.links_of_same (by simp))

theorem State.links_makeAbsent (o : ObjVersion) (s : State) : (s.makeAbsent o).links = s.links :=
  (State.links_of_same (by simp [State.makeAbsent])).trans (State.links_loseCopies .absent o s)

theorem State.links_dropped (o : ObjVersion) (s : State) : ((s.makeAbsent o).bump .tirDropped).links = s.links :=
  (State.links_of_same (s := s.makeAbsent o) (by simp)).trans (State.links_makeAbsent o s)

theorem State.links_evictT2 (q need : Nat) (o : ObjVersion) (s : State) : (s.evictT2 q need o).links = s.links := by
  unfold State.evictT2
  dsimp only
  repeat' split
  · exact State.links_of_same (by simp)
  · rfl
  · exact State.links_of_same (by simp)
  · exact (State.links_dropped o _).trans (State.links_of_same (by simp))

theorem State.links_evictFor (q need : Nat) (mirrored : Bool) (l : List ObjVersion) (s : State) :
    (State.evictFor 2 q need mirrored l s).links = s.links := by
  induction l generalizing s with
  | nil => rfl
  | cons o l ih =>
    rw [State.evictFor]
    split
    · rfl
    · exact (ih _).trans (State.links_evictT2 q need o s)

theorem State.links_roomT2 (q need : Nat) (s : State) : (s.roomT2 q need).2.links = s.links := by
  unfold State.roomT2
  split
  · rfl
  · exact State.links_evictFor ..

theorem State.links_queueUnit (r : TierRequest) (unit : Nat) (s : State) : (s.queueUnit r unit).links = s.links := by
  unfold State.queueUnit
  dsimp only
  repeat' split
  · rfl
  · rfl
  · exact State.links_updChan (fun _ => by rfl) _ _
  · rfl
  · exact (State.links_updChan (fun _ => by rfl) _ _).trans (State.links_of_same (by simp))
  · rfl

theorem State.links_feedQueues (s : State) : s.feedQueues.links = s.links :=
  foldl_eq_of_step (fun u r => foldl_eq_of_step (fun v unit => State.links_queueUnit r unit v) r.left u) _ s

theorem State.links_raiseTag (tag : BitVec 16) (s : State) : (s.raiseTag tag).links = s.links :=
  (State.links_feedQueues _).trans ((State.links_updChn_map (fun _ => by rfl) _).trans (State.links_of_same (by simp)))

theorem State.links_joinFetch (job : Word) (slot : Nat) (r : TierRequest) (s : State) :
    (s.joinFetch job slot r).links = s.links := by
  unfold State.joinFetch
  split
  · exact State.links_of_same (by simp)
  · exact (State.links_raiseTag ..).trans (State.links_of_same (by simp))

theorem State.links_fetchExtent (job : Word) (slot e : Nat) (o : ObjVersion) (s : State) :
    (s.fetchExtent job slot e o).links = s.links := by
  unfold State.fetchExtent
  extract_lets r tag src q
  have hr : r.2.links = s.links := State.links_roomT2 ..
  repeat' split
  · rfl
  · exact State.links_joinFetch ..
  · exact State.links_of_same (by simp)
  · exact hr
  · exact (State.links_feedQueues _).trans ((State.links_of_same (by simp)).trans hr)
  · exact (State.links_of_same (by simp)).trans hr

theorem State.links_missExtent (job : Word) (slot core master e : Nat) (o : ObjVersion) (s : State) :
    (s.missExtent job slot core master e o).links = s.links := by
  unfold State.missExtent
  extract_lets s1
  have h1 : s1.links = s.links := State.links_fetchExtent ..
  repeat' split
  · exact State.links_of_same (by simp)
  · exact h1
  · exact h1
  · exact (State.links_of_same (by simp)).trans h1

theorem State.links_issueWaiting (s : State) : s.issueWaiting.links = s.links := by
  refine foldl_eq_of_step (fun u w => ?_) _ _
  extract_lets ready s1
  have h1 : s1.links = u.links := State.links_of_same (by simp [s1])
  repeat' split
  · rfl
  · exact h1
  · exact (State.links_fetchExtent ..).trans h1
  · exact h1
  · exact (State.links_missExtent ..).trans h1

theorem State.links_withdraw (r : TierRequest) (s : State) : (s.withdraw r).links = s.links :=
  (State.links_of_same (by simp [State.withdraw])).trans (State.links_dropTags [r.tag] s)

/-! ### What the end or the fault of a job leaves of the channels (R156, R157) -/

theorem State.links_dropRequests (id : Word) (s : State) : (s.dropRequests id).links = s.links := by
  unfold State.dropRequests
  extract_lets alone txs s1
  have h1 : s1.links = s.links := foldl_eq_of_step (fun u r => State.links_withdraw r u) _ s
  exact (State.links_issueWaiting _).trans ((State.links_of_same (by simp)).trans h1)

theorem State.links_leaveUnits (id : Word) (s : State) : (s.leaveUnits id).links = s.links :=
  (State.links_dropRequests id _).trans (State.links_of_same (by simp))

theorem State.links_freeVersion (o : ObjVersion) (s : State) : (s.freeVersion o).links = s.links :=
  (State.links_of_same (by simp [State.freeVersion])).trans (State.links_endFetches o s)

theorem State.links_reap (s : State) : s.reap.links = s.links :=
  foldl_eq_of_step (fun u o => State.links_freeVersion o u) _ s

theorem State.links_freeRef (tier part : Nat) (obj : Word) (ver : Nat) (s : State) :
    (s.freeRef tier part obj ver).links = s.links :=
  (State.links_reap _).trans (State.links_of_same (by simp))

theorem State.links_freeVref (part : Nat) (obj : Word) (ver : Nat) (s : State) :
    (s.freeVref part obj ver).links = s.links :=
  (State.links_reap _).trans (State.links_of_same (by simp))

theorem State.links_releaseRefs (p : TierRef → Bool) (s : State) : (s.releaseRefs p).links = s.links := by
  unfold State.releaseRefs
  extract_lets gone s1
  have h1 : s1.links = s.links := State.links_of_same (by simp [s1])
  exact (foldl_eq_of_step (fun u r => State.links_freeRef r.tier r.part r.obj r.ver u) gone s1).trans h1

theorem State.links_unbind (j : Job) (s : State) : (s.unbind j).links = s.links := by
  refine foldl_eq_of_step (fun u b => ?_) _ s
  split
  · exact State.links_of_same (by simp)
  · exact State.links_freeVref ..

theorem State.links_releaseJob (j : Job) (s : State) : (s.releaseJob j).links = s.links := by
  unfold State.releaseJob
  extract_lets s1 s2
  calc _ = s1.links := State.links_of_same (by simp [s2])
    _ = _ := State.links_releaseRefs _ _
    _ = _ := State.links_of_same (s := ((s.leaveUnits j.id).discardJournal j).unbind j) (by simp)
    _ = _ := State.links_unbind j _
    _ = _ := State.links_of_same (s := s.leaveUnits j.id) (by simp)
    _ = s.links := State.links_leaveUnits j.id s

theorem State.links_finishJob (id : Word) (status : Byte) (detail : Word) (s : State) :
    (s.finishJob id status detail).links = s.links := by
  unfold State.finishJob
  split
  · rfl
  next j _ =>
    refine Eq.trans (State.links_of_same (s := s.releaseJob j) ?_) (State.links_releaseJob j s)
    dsimp only
    split <;> simp

theorem State.links_overrun (j : Job) (s : State) : (s.overrun j).links = s.links :=
  (State.links_of_same (by simp [State.overrun])).trans (State.links_finishJob j.id stDeadline 0 s)

theorem State.links_faultJob (id : Word) (wait : Option Nat) (s : State) : (s.faultJob id wait).links = s.links := by
  unfold State.faultJob
  split
  · rfl
  split
  · rfl
  extract_lets need
  repeat' split
  · exact State.links_overrun ..
  · exact State.links_finishJob ..
  · exact State.links_finishJob ..
  · exact (State.links_of_same (s := s.leaveUnits id) (by simp)).trans (State.links_leaveUnits id s)

/-! ### What the loss of a channel's copies leaves of the channels (R275, R292) -/

theorem State.links_failRequests (kind inst : Nat) (lost : Nat → Bool) (o : ObjVersion) (s : State) :
    (s.failRequests kind inst lost o).links = s.links := by
  unfold State.failRequests
  extract_lets rs ids s1 s2
  have h1 : s1.links = s.links := foldl_eq_of_step (fun u r => State.links_withdraw r u) _ s
  have h2 : s2.links = s1.links := State.links_of_same (by simp [s2])
  split
  · rfl
  · exact (foldl_eq_of_step (fun u id => State.links_faultJob id none u) _ _).trans (h2.trans h1)

theorem State.links_mirrorRequests (lost : Nat → Bool) (o : ObjVersion) (s : State) :
    (s.mirrorRequests lost o).links = s.links := by
  unfold State.mirrorRequests
  split
  · exact (State.links_feedQueues _).trans (State.links_of_same (by simp))
  · rfl

theorem State.links_loseVersion (o : ObjVersion) (s : State) : (s.loseVersion o).links = s.links := by
  unfold State.loseVersion
  split
  · exact State.links_loseCopies ..
  · exact (State.links_of_same (by simp)).trans (State.links_makeAbsent o s)

/-- With a spare in the place of the channel that is gone, a copy is rewritten onto it, or the version is lost. -/
theorem State.links_loseT3 (kind inst logical : Nat) (o : ObjVersion) (s : State) :
    (s.loseT3 kind inst logical true o).links = s.links := by
  unfold State.loseT3
  extract_lets lost held s1 s2
  have h1 : s1.links = s.links := by
    unfold s1
    split
    · exact State.links_mirrorRequests ..
    · exact State.links_failRequests ..
  rw [if_pos rfl]
  split
  · exact (State.links_of_same (by simp)).trans h1
  · exact (State.links_loseVersion o _).trans ((State.links_of_same (by simp)).trans h1)

theorem State.links_loseGolent (inst logical : Nat) (s : State) : (s.loseGolent inst logical true).links = s.links := by
  unfold State.loseGolent
  extract_lets hit objs
  exact (State.links_of_same (by simp)).trans
    (foldl_eq_of_step (fun u o => State.links_loseT3 4 inst logical o u) objs s)

end Sys2Proof.Machine
end

section
/-!
PROOF. Bursts that arrive, fail or are not stored, units that a mirror serves, and the starts and ends of retrains
(R284 to R293, R302).
-/

namespace Sys2Proof.Machine

open Sys2Proof

/-! ### Rises of one counter (R447) -/

/-- The value that a counter was given before does not matter once it is given another. -/
theorem setCount_setCount (l : List (Counter × Word)) (c : Counter) (v w : Word) :
    setCount (setCount l c v) c w = setCount l c w := by
  have hfilter : (setCount l c v).filter (·.1 != c) = l.filter (·.1 != c) := by
    unfold setCount
    split <;> simp
  rw [setCount, hfilter]
  rfl

theorem State.bumpBy_bumpBy (c : Counter) (m n : Nat) (s : State) :
    (s.bumpBy c m).bumpBy c n = s.bumpBy c (m + n) := by
  have hcount : min 0xFFFFFFFF (((s.bumpBy c m).count c).toNat + n) = min 0xFFFFFFFF ((s.count c).toNat + (m + n)) := by
    rw [State.toNat_count_bumpBy]
    omega
  rw [State.bumpBy, hcount, State.bumpBy_counts, setCount_setCount]
  rfl

/-! ### TIER_READ_TRANSACTION (R284, R285, R287, R288) -/

section
variable {s : State} {ch : Channel} {unit : Nat}

theorem State.active_of_serves (h : s.serves ch unit = true) : (s.memChan ch).state = .active :=
  of_decide_eq_true (Bool.and_eq_true_iff.1 h).1

theorem State.bursts_single {α : Type} (f : Nat → α → State → State) (k : Nat) (b : α)
    (hserve : s.serves ch unit = true) (hbad : (s.memChan ch).bad = none) : State.bursts ch f k [b] s = f k b s :=
  if_pos ⟨State.active_of_serves hserve, hbad⟩

theorem exec_tierReadTransaction_single {first : Fin 64} (ts : List BurstTry) (hserve : s.serves ch unit = true)
    (hbad : (s.memChan ch).bad = none) (hread : (s.memChan ch).mayRead unit = true) :
    exec (.tierReadTransaction ch ⟨unit, first⟩ [ts]) s = .next (s.readBurst ch unit first ts) := by
  have hexec : exec (.tierReadTransaction ch ⟨unit, first⟩ [ts]) s = execTierReadTransaction ch ⟨unit, first⟩ [ts] s :=
    rfl
  have hburst := State.bursts_single (fun k => State.readBurst ch unit k) first.val ts hserve hbad
  simp [hexec, execTierReadTransaction, hserve, hbad, hread, hburst]

theorem State.readBurst_board {b : Fin 16} (burst : Nat) (ts : List BurstTry)
    (hreread : (s.memChan (.board b)).reread ≠ some unit) :
    s.readBurst (.board b) unit burst ts = s.receive (.board b) unit 0 ts :=
  if_neg hreread

theorem State.readBurst_golent {c : Fin 66} (burst : Nat) (ts : List BurstTry)
    (hreread : (s.memChan (.golent c)).reread ≠ some unit) :
    s.readBurst (.golent c) unit burst ts =
      (s.updChan (.golent c) (MemChannel.sent unit burst)).receive (.golent c) unit 0 ts :=
  if_neg hreread

/-- An intact burst is taken at once. -/
theorem State.receive_of_clean {t : BurstTry} (hlink : linkGood ch t = true) (herr : t.errors = 0) (r : List BurstTry)
    (s : State) : s.receive ch unit 0 (t :: r) = s := by
  simp [State.receive, hlink, State.decodeBurst, herr]

/-- A burst whose CRC fails is received again; every reception after the first counts as a retry. -/
theorem State.receive_of_linkFailure {t : BurstTry} {k : Nat} (hk : k < 4) (hlink : linkGood ch t = false)
    (r : List BurstTry) (s : State) :
    s.receive ch unit k (t :: r) = (if k = 0 then s else s.bump (chRetries ch)).receive ch unit (k + 1) r := by
  simp [State.receive, hlink, Nat.not_le.2 hk]

/-- After three retries the channel retrains (R288). -/
theorem State.receive_of_linkFailures {w x y z : BurstTry} (h : ∀ b ∈ [w, x, y, z], linkGood ch b = false) (s : State) :
    s.receive ch unit 0 [w, x, y, z] = (s.bumpBy (chRetries ch) 3).escalate ch unit := by
  simp only [List.forall_mem_cons] at h
  obtain ⟨hw, hx, hy, hz, -⟩ := h
  rw [State.receive_of_linkFailure (by decide) hw, State.receive_of_linkFailure (by decide) hx,
    State.receive_of_linkFailure (by decide) hy, State.receive_of_linkFailure (by decide) hz]
  simp only [if_true, Nat.zero_add, Nat.reduceAdd, OfNat.ofNat_ne_zero, one_ne_zero, if_false, State.receive,
    State.bump, State.bumpBy_bumpBy]

/-- A channel that escalates retrains, and reads the unit's burst once more (R288). -/
theorem State.escalate_eq (s : State) :
    s.escalate ch unit = s.updChan ch fun c => { c with state := .retraining, reread := some unit } :=
  State.updChan_updChan ..

/-! ### TIER_WRITE_TRANSACTION (R283, R286 to R288) -/

theorem exec_tierWriteTransaction_single {c : Fin 66} {first : Fin 64} (l : List Bool)
    (hserve : s.serves (.golent c) unit = true) (hbad : (s.memChan (.golent c)).bad = none) :
    exec (.tierWriteTransaction (.golent c) ⟨unit, first⟩ [l]) s = .next (s.writeTry (.golent c) unit first 0 l) :=
  (congrArg Host.Outcome.next (if_pos hserve)).trans
    (congrArg Host.Outcome.next (State.bursts_single (fun k => State.writeBurst (.golent c) unit k) _ l hserve hbad))

/-- The device has not stored the burst. -/
def MemChannel.withUnstored (unit burst : Nat) (c : MemChannel) : MemChannel :=
  { c with unstored := (unit, burst) :: c.unstored.filter (· != (unit, burst)) }

theorem MemChannel.withUnstored_withUnstored (unit burst : Nat) (c : MemChannel) :
    (c.withUnstored unit burst).withUnstored unit burst = c.withUnstored unit burst := by
  simp [MemChannel.withUnstored]

/-- A write that is not stored is made again; every rewrite counts as a retry. -/
theorem State.writeTry_of_failure {burst k : Nat} (hk : k < 4) (r : List Bool) (s : State) :
    s.writeTry ch unit burst k (true :: r) =
      ((if k = 0 then s else s.bump (chRetries ch)).updChan ch (MemChannel.withUnstored unit burst)).writeTry
        ch unit burst (k + 1) r := by
  rw [State.writeTry, if_neg (Nat.not_le.2 hk), if_pos rfl]
  rfl

/-- A burst that is never stored is noted as such, and after three rewrites the channel retrains (R287, R288). -/
theorem State.writeTry_of_failures (burst : Nat) (s : State) :
    s.writeTry ch unit burst 0 [true, true, true, true] =
      ((s.bumpBy (chRetries ch) 3).updChan ch (MemChannel.withUnstored unit burst)).escalate ch unit := by
  rw [State.writeTry_of_failure (by decide), State.writeTry_of_failure (by decide),
    State.writeTry_of_failure (by decide), State.writeTry_of_failure (by decide)]
  simp only [if_true, Nat.zero_add, Nat.reduceAdd, OfNat.ofNat_ne_zero, one_ne_zero, if_false, State.writeTry,
    State.bump, State.bumpBy_updChan, State.bumpBy_bumpBy, State.updChan_updChan, MemChannel.withUnstored_withUnstored]

theorem exec_tierWriteTransaction_of_failures {c : Fin 66} {first : Fin 64} (hserve : s.serves (.golent c) unit = true)
    (hbad : (s.memChan (.golent c)).bad = none) :
    ∃ t, exec (.tierWriteTransaction (.golent c) ⟨unit, first⟩ [[true, true, true, true]]) s = .next t ∧
      Only [.counts, .chn] s t ∧ t.counts = (s.bumpBy (.chnGCrcRetry c) 3).counts ∧
      (t.memChan (.golent c)).state = .retraining ∧ (t.memChan (.golent c)).reread = some unit ∧
      (unit, first.val) ∈ (t.memChan (.golent c)).unstored := by
  have hwrite := State.writeTry_of_failures (ch := .golent c) (unit := unit) first.val s
  rw [State.escalate_eq, State.updChan_updChan] at hwrite
  have hactive : ((s.bumpBy (.chnGCrcRetry c) 3).memChan (.golent c)).state = .active := State.active_of_serves hserve
  have hchan := State.memChan_updChan (s := s.bumpBy (.chnGCrcRetry c) 3) (ch := .golent c)
    (fun k => { k.withUnstored unit first.val with state := .retraining, reread := some unit }) (by simp [hactive])
  refine ⟨_, (exec_tierWriteTransaction_single _ hserve hbad).trans (congrArg _ hwrite), fun p hp => ?_, rfl,
    congrArg MemChannel.state hchan, congrArg MemChannel.reread hchan, ?_⟩
  · simp only [List.mem_cons, List.not_mem_nil, or_false, not_or] at hp
    simp [hp]
  · exact (congrArg MemChannel.unstored hchan).symm ▸ List.mem_cons_self

/-! ### UNIT_UNCORRECTABLE (R275, R288) -/

/-- A unit whose version is mirrored is read from the mirror. -/
theorem exec_unitUncorrectable_of_mirrored {c : Fin 66} {o : ObjVersion}
    (hbad : (s.memChan (.golent c)).bad = some unit)
    (howner : s.ownerOf 3 unit = some o) (hmirror : o.mirrorHolds (unit % 64) = true) (hreqs : s.tir.requests = []) :
    exec (.unitUncorrectable (.golent c) unit) s =
      .next (((s.updChan (.golent c) fun k => { k with bad := none, queue := k.queue.filter (·.unit != unit) }).bump
        (.chnGEccUncorr c)).bump .tirMirrorReads) := by
  rw [show exec (.unitUncorrectable (.golent c) unit) s = execUnitUncorrectable (.golent c) unit s from rfl,
    execUnitUncorrectable, if_neg (not_not_intro hbad)]
  extract_lets drop s1 k
  have hreads : s1.readMirror unit o = s1.bump .tirMirrorReads := by
    have hnone : s1.tir.requests = [] := hreqs
    simp [State.readMirror, hnone]
  have hs1 : s1.ownerOf 3 unit = some o := howner
  simp only [hs1, hmirror, if_true, hreads]
  rfl

/-! ### The ends of retrains (R290, R292) -/

/-- No channel has a deferred retrain that waits. -/
theorem State.nextDeferred_of_none {g : Nat} (h : ∀ o, (s.memChan o).deferred = false) : s.nextDeferred g = s := by
  have hnone : allChannels.find? (fun o =>
      (chGroup o) = g && (s.memChan o).deferred && (s.memChan o).state != .retraining) = none :=
    List.find?_eq_none.2 fun o _ => by simp [h o]
  simp only [State.nextDeferred, hnone]

theorem State.memChan_trained {train : BitVec 24} (h : (s.memChan ch).state = .retraining) :
    (s.trained ch train).memChan ch = { s.memChan ch with
      state := if (s.memChan ch).logical = 0x7F then .spare else .active
      train := detected ch train, lastTrain := s.edge
      trainTemp := s.glb.tempNow.toInt, trainVdd := s.glb.avsTarget.toNat, deferred := false, corrEdges := [] } :=
  State.memChan_updChan _ (by simp [h])

/-- A retrain that passes within the latency limit ends its channel's wait, and no other begins. -/
theorem exec_retrainDone_of_pass {train : BitVec 24} (hstate : (s.memChan ch).state = .retraining)
    (hlatency : latencyOk ch train = true) (hothers : ∀ o, o ≠ ch → (s.memChan o).deferred = false) :
    exec (.retrainDone ch true train) s = .next ((s.bump (chRetrains ch)).trained ch train) := by
  have hnone (o : Channel) : (((s.bump (chRetrains ch)).trained ch train).memChan o).deferred = false := by
    by_cases ho : o = ch
    · rw [ho, State.memChan_trained (s := s.bump (chRetrains ch)) hstate]
    · rw [State.trained, State.memChan_updChan_ne _ ho]
      exact hothers o ho
  rw [show exec (.retrainDone ch true train) s = execRetrainDone ch true train s from rfl]
  simp only [execRetrainDone, hstate, ne_eq, not_true_eq_false, if_false, hlatency, Bool.and_self, if_true,
    State.nextDeferred_of_none hnone]

/-- Golent channel `c` is retired, and `sp` takes its number (R292). -/
def State.replaced (c sp : Fin 66) (s : State) : State :=
  (s.updChan (.golent c) fun y =>
    { y with state := .retired, logical := 0x7F, deferred := false, reread := none, bad := none, queue := [] }).updChan
    (.golent sp) fun y => { y with state := .active, logical := (s.memChan (.golent c)).logical }

section
variable {c sp : Fin 66}

theorem State.memChan_replaced_spare (hne : sp ≠ c) (hon : (s.memChan (.golent sp)).state ≠ .off) :
    (s.replaced c sp).memChan (.golent sp) =
      { s.memChan (.golent sp) with state := .active, logical := (s.memChan (.golent c)).logical } := by
  have hother := State.memChan_updChan_ne (s := s) (ch := .golent c) (fun y =>
    { y with state := .retired, logical := 0x7F, deferred := false, reread := none, bad := none, queue := [] })
    (o := .golent sp) (by simpa using hne)
  rw [State.replaced, State.memChan_updChan _ (by rwa [hother]), hother]

theorem State.memChan_replaced_failed (hne : sp ≠ c) (hon : (s.memChan (.golent c)).state ≠ .off) :
    (s.replaced c sp).memChan (.golent c) = { s.memChan (.golent c) with
      state := .retired, logical := 0x7F, deferred := false, reread := none, bad := none, queue := [] } := by
  rw [State.replaced, State.memChan_updChan_ne _ (by simpa using hne.symm), State.memChan_updChan _ hon]

theorem State.memChan_replaced_other {o : Channel} (hc : o ≠ .golent c) (hsp : o ≠ .golent sp) :
    (s.replaced c sp).memChan o = s.memChan o := by
  rw [State.replaced, State.memChan_updChan_ne _ hsp, State.memChan_updChan_ne _ hc]

theorem State.golentFails_of_spare (hlogical : (s.memChan (.golent c)).logical ≠ 0x7F)
    (hspare : s.golentSpare = some sp) :
    s.golentFails c = ((((s.replaced c sp).report 4 c 2 3 0x0020 none 0 sp).loseGolent c
      (s.memChan (.golent c)).logical.toNat true).bump .brnSpared).bump .brnRetired := by
  simp only [State.golentFails, if_neg hlogical, hspare]
  rfl

/-- What the failure of a channel changes of the channels, but for their queues, is the replacement. -/
theorem State.links_golentFails (hlogical : (s.memChan (.golent c)).logical ≠ 0x7F) (hspare : s.golentSpare = some sp) :
    (s.golentFails c).links = (s.replaced c sp).links := by
  rw [State.golentFails_of_spare hlogical hspare]
  calc _ = (((s.replaced c sp).report 4 c 2 3 0x0020 none 0 sp).loseGolent c
        (s.memChan (.golent c)).logical.toNat true).links := State.links_of_same (by simp)
    _ = _ := State.links_loseGolent ..
    _ = _ := State.links_of_same (by simp)

/-- A channel that fails its retrain is replaced by the spare (R292). -/
theorem exec_retrainDone_of_spare {train : BitVec 24} (hstate : (s.memChan (.golent c)).state = .retraining)
    (hlogical : (s.memChan (.golent c)).logical ≠ 0x7F) (hspare : s.golentSpare = some sp)
    (hnone : ∀ o, (s.memChan o).deferred = false) :
    ∃ t, exec (.retrainDone (.golent c) false train) s = .next t ∧ (t.memChan (.golent c)).state = .retired ∧
      (t.memChan (.golent sp)).state = .active ∧
      (t.memChan (.golent sp)).logical = (s.memChan (.golent c)).logical := by
  have hspared := State.golentSpare_state hspare
  have hne : sp ≠ c := by
    rintro rfl
    simp [hstate] at hspared
  have hfailed := State.memChan_replaced_failed (s := s) hne (by simp [hstate])
  have htaken := State.memChan_replaced_spare (s := s) hne (by simp [hspared])
  have hlinks : ((s.bump (.chnGRetrains c)).golentFails c).links = (s.replaced c sp).links :=
    State.links_golentFails (s := s.bump (.chnGRetrains c)) hlogical hspare
  have hquiet (o : Channel) : (((s.bump (.chnGRetrains c)).golentFails c).memChan o).deferred = false := by
    rw [State.deferred_of_links hlinks]
    by_cases hc : o = .golent c
    · rw [hc, hfailed]
    · by_cases hsp : o = .golent sp
      · rw [hsp, htaken]
        exact hnone _
      · rw [State.memChan_replaced_other hc hsp]
        exact hnone o
  have hexec : exec (.retrainDone (.golent c) false train) s = .next ((s.bump (.chnGRetrains c)).golentFails c) := by
    rw [show exec (.retrainDone (.golent c) false train) s = execRetrainDone (.golent c) false train s from rfl]
    simp only [execRetrainDone, hstate, ne_eq, not_true_eq_false, if_false, Bool.false_and, Bool.false_eq_true]
    exact congrArg Host.Outcome.next (State.nextDeferred_of_none hquiet)
  exact ⟨_, hexec, (State.state_of_links hlinks _).trans (congrArg MemChannel.state hfailed),
    (State.state_of_links hlinks _).trans (congrArg MemChannel.state htaken),
    (State.logical_of_links hlinks _).trans (by rw [htaken])⟩

end

/-! ### The triggers of retrains (R290, R302) -/

section
variable (hactive : (s.memChan ch).state = .active) (hidle : ∀ o, (s.memChan o).state ≠ .retraining)
include hactive hidle

/-- A trigger on an active channel starts its retrain at once where no other runs. -/
theorem State.deferRetrain_of_active :
    s.deferRetrain ch = s.updChan ch fun c => { c with deferred := true, state := .retraining } := by
  have hchan := State.memChan_updChan (s := s) (ch := ch) (fun x => { x with deferred := true }) (by simp [hactive])
  have hfree : (allChannels.any fun o => o != ch && (chGroup o) = (chGroup ch) &&
      ((s.updChan ch fun x => { x with deferred := true }).memChan o).deferred &&
      ((s.updChan ch fun x => { x with deferred := true }).memChan o).state = .retraining) = false := by
    refine List.any_eq_false.2 fun o _ => ?_
    by_cases ho : o = ch
    · simp [ho]
    · rw [State.memChan_updChan_ne _ ho]
      simp [hidle o]
  simp only [State.deferRetrain, hactive, true_or, if_true, State.startDeferred, hfree, hchan, decide_true,
    Bool.true_or, Bool.and_self, Bool.not_false, State.retrainNow, State.updChan_updChan]

theorem State.deferRetrain_starts : Only [.chn] s (s.deferRetrain ch) ∧
    (s.deferRetrain ch).memChan ch = { s.memChan ch with deferred := true, state := .retraining } := by
  rw [State.deferRetrain_of_active hactive hidle]
  refine ⟨fun p hp => ?_, State.memChan_updChan _ (by simp [hactive])⟩
  have hchn : p ≠ .chn := by simpa using hp
  simp [hchn]

end

theorem exec_periodicRetrain_of_due (h : (s.memChan ch).lastTrain + 160000000 ≤ s.edge) :
    exec (.periodicRetrain ch) s = .next (s.deferRetrain ch) :=
  congrArg Host.Outcome.next (if_pos h)

theorem exec_driftRetrain_of_temperature (h : 128 ≤ (s.glb.tempNow.toInt - (s.memChan ch).trainTemp).natAbs) :
    exec (.driftRetrain ch) s = .next (s.deferRetrain ch) :=
  congrArg Host.Outcome.next (if_pos (.inl h))

theorem exec_chnRetrain_of_target {v : Word} (h : retrainTarget v = some ch) :
    exec (.chnRetrain v) s = .next (s.deferRetrain ch) := by
  rw [show exec (.chnRetrain v) s = execChnRetrain v s from rfl, execChnRetrain, h]

end

/-- Settles O32: bursts by their receptions, retrains by the channel that they leave, and the replacement by what the
loss of the copies leaves of the channels. -/
theorem channelsRetrainAndAreReplaced : Obligations.ChannelsRetrainAndAreReplaced := by
  unfold Obligations.ChannelsRetrainAndAreReplaced
  refine ⟨?_, ?_, ?_, ?_, fun s c unit first hserve hbad => exec_tierWriteTransaction_of_failures hserve hbad,
    fun s c unit o hbad howner hmirror hreqs => exec_unitUncorrectable_of_mirrored hbad howner hmirror hreqs,
    ?_, fun s c sp train hstate hlogical hspare hnone => exec_retrainDone_of_spare hstate hlogical hspare hnone,
    ?_, ?_, ?_⟩
  · intro s b unit first x hserve hbad hread hreread herr
    rw [exec_tierReadTransaction_single [x] hserve hbad hread, State.readBurst_board _ _ hreread,
      State.receive_of_clean rfl herr]
  · intro s c unit first x hserve hbad hread hreread hcrc herr
    rw [exec_tierReadTransaction_single [x] hserve hbad hread, State.readBurst_golent _ _ hreread,
      State.receive_of_clean (ch := .golent c) (beq_iff_eq.2 hcrc) herr]
    rfl
  · intro s c unit first w x y z hserve hbad hread hreread hcrc
    have hfail := State.receive_of_linkFailures (ch := .golent c) (unit := unit) (w := w) (x := x) (y := y) (z := z)
      (fun b hb => beq_eq_false_iff_ne.2 (hcrc b hb)) (s.updChan (.golent c) (MemChannel.sent unit first))
    refine ⟨_, (exec_tierReadTransaction_single _ hserve hbad hread).trans
      (congrArg _ ((State.readBurst_golent _ _ hreread).trans hfail)), fun p hp => ?_, rfl, ?_⟩
    · simp only [List.mem_cons, List.not_mem_nil, or_false, not_or] at hp
      simp [hp]
    · rw [State.escalate_eq, State.bumpBy_updChan, State.updChan_updChan]
      rfl
  · intro s c unit first hserve hbad
    rw [exec_tierWriteTransaction_single [false] hserve hbad]
    rfl
  · intro s ch train hstate hlatency hothers
    refine ⟨_, exec_retrainDone_of_pass hstate hlatency hothers, fun p hp => ?_,
      State.memChan_trained (s := s.bump (chRetrains ch)) hstate⟩
    simp only [List.mem_cons, List.not_mem_nil, or_false, not_or] at hp
    simp [hp]
  · intro s ch hdue hactive hidle
    exact ⟨_, exec_periodicRetrain_of_due hdue, State.deferRetrain_starts hactive hidle⟩
  · intro s ch hdrift hactive hidle
    exact ⟨_, exec_driftRetrain_of_temperature hdrift, State.deferRetrain_starts hactive hidle⟩
  · intro s v ch htarget hactive hidle
    exact ⟨_, exec_chnRetrain_of_target htarget, State.deferRetrain_starts hactive hidle⟩

end Sys2Proof.Machine
end

section
/-!
PROOF. Linework: deliveries, timeouts, the budgets of the line-weight regulator, and routers that move to their shadow
lanes (R295 to R299, R303, R304, R439, R448).
-/

namespace Sys2Proof.Machine

open Sys2Proof

section
variable {s : State} {node : Fin 16} {tag : BitVec 16}

/-! ### LINEWORK_PACKET_DELIVERED (R295 to R297, R448) -/

/-- A response ends its transaction; no fetch waits at a limit. -/
theorem exec_lineworkPacketDelivered_of_clean (hnode : s.routerLost node = false)
    (htx : (s.lnw.txs.any (·.tag = tag)) = true) (hwaiting : s.lnw.waiting = []) :
    exec (.lineworkPacketDelivered node tag .clean) s =
      .next (s.updLnw fun l => { l with txs := l.txs.eraseP (·.tag = tag) }) := by
  rw [show exec (.lineworkPacketDelivered node tag .clean) s = execLineworkPacketDelivered node tag .clean s from rfl]
  simp only [execLineworkPacketDelivered, hnode, Bool.false_eq_true, if_false, htx, if_true]
  exact congrArg Host.Outcome.next (State.issueWaiting_of_none hwaiting)

/-- A corrected error is counted, and the packet is delivered as an intact one. -/
theorem exec_lineworkPacketDelivered_of_single (hnode : s.routerLost node = false) :
    exec (.lineworkPacketDelivered node tag .single) s =
      exec (.lineworkPacketDelivered node tag .clean) (s.bump .lnwCorr) := by
  rw [show exec (.lineworkPacketDelivered node tag .single) s = execLineworkPacketDelivered node tag .single s from rfl,
    show exec (.lineworkPacketDelivered node tag .clean) (s.bump .lnwCorr) =
      execLineworkPacketDelivered node tag .clean (s.bump .lnwCorr) from rfl]
  have hbumped : (s.bump .lnwCorr).routerLost node = false := hnode
  simp only [execLineworkPacketDelivered, hnode, hbumped, Bool.false_eq_true, if_false]

theorem exec_lineworkPacketDelivered_of_held (hnode : s.routerLost node = false)
    (htx : (s.lnw.txs.any (·.tag = tag)) = false) (hheld : (s.lnw.held.any (·.tag = tag)) = true) :
    exec (.lineworkPacketDelivered node tag .clean) s = .next (s.bump .lnwLateDiscard) := by
  rw [show exec (.lineworkPacketDelivered node tag .clean) s = execLineworkPacketDelivered node tag .clean s from rfl]
  simp only [execLineworkPacketDelivered, hnode, Bool.false_eq_true, if_false, htx, hheld, if_true]

/-- A packet with a double error is dropped, and the router notes it (R297, R439). -/
theorem exec_lineworkPacketDelivered_of_double (hnode : s.routerLost node = false) :
    exec (.lineworkPacketDelivered node tag .double) s =
      .next ((s.bump .lnwUncorr).updLnw fun l => { l with routers := l.routers.modify node fun r => { r with
        uncorrEdges := s.edge :: r.uncorrEdges.filter fun e => decide (s.edge < e + 160000) } }) :=
  congrArg Host.Outcome.next (if_neg (by simp [hnode]))

/-! ### LINEWORK_TIMEOUT (R297) -/

/-- The transaction of a job that has ended is cancelled without a record; no fetch waits at a limit. -/
theorem State.cancelTx_of_ended {x : LineworkTx} (hjob : s.job? x.job = none) (hwaiting : s.lnw.waiting = []) :
    s.cancelTx x = (s.updLnw fun l => { l with
      txs := l.txs.filter (· != x), held := l.held ++ [{ tag := x.tag, edge := s.edge }] }).bump .lnwTimeouts := by
  unfold State.cancelTx
  extract_lets s1
  have hs1 : s1 = _ := State.issueWaiting_of_none hwaiting
  have hnone : s1.job? x.job = none := by
    rw [hs1]
    exact hjob
  simp only [hnone]
  exact hs1

theorem exec_lineworkTimeout_of_ended {x : LineworkTx}
    (hx : s.lnw.txs.find? (fun y => y.tag = tag && s.txLate y) = some x)
    (hjob : s.job? x.job = none) (hwaiting : s.lnw.waiting = []) :
    exec (.lineworkTimeout tag) s = .next ((s.updLnw fun l => { l with
      txs := l.txs.filter (· != x), held := l.held ++ [{ tag := tag, edge := s.edge }] }).bump .lnwTimeouts) := by
  have htag : x.tag = tag := of_decide_eq_true (Bool.and_eq_true_iff.1 (List.find?_some hx :)).1
  have hcancel := State.cancelTx_of_ended hjob hwaiting
  have hnone : (s.cancelTx x).job? x.job = none := by
    rw [hcancel]
    exact hjob
  rw [show exec (.lineworkTimeout tag) s = execLineworkTimeout tag s from rfl]
  simp only [execLineworkTimeout, hx, State.faultJob, hnone]
  rw [hcancel, htag]

/-! ### REGULATION_WINDOW and LNW_BUDGET (R298, R299, R303, R304) -/

theorem exec_regulationWindow_of_due (h : s.lnw.windowEdge + 256 ≤ s.edge) :
    exec .regulationWindow s = .next (((s.choose 241).2.updLnw fun l => { l with
      budgets := l.pending.foldl (fun acc b => putBudget b acc) l.budgets, pending := [], charged := []
      windowEdge := s.edge - s.edge % 256 }).bumpBy .lnwLowered (s.choose 241).1) :=
  congrArg Host.Outcome.next (if_neg (Nat.not_lt.2 h))

section
variable {m : Fin 32} {v : Word} {b : Budget} (hm : budgetMaster m = true)
  (hb : b = {
    part := s.regs.sel.toNat, master := m, min := BitVec.ofNat 12 (fld v 11 0)
    share := BitVec.ofNat 8 (fld v 23 16) })
include hm hb

/-- A write for a master that has budgets is judged by the capacity of its point alone. -/
theorem exec_lnwBudget_of_master : exec (.lnwBudget m v) s = .next
    (if overBudget (putBudget b (s.lnw.pending.foldl (fun acc x => putBudget x acc) s.lnw.budgets)) s.regs.sel.toNat m
      then s.bump .lnwRejected else s.updLnw fun l => { l with pending := putBudget b l.pending }) := by
  subst hb
  exact congrArg Host.Outcome.next (if_neg (by simp [hm]))

end

/-! ### ROUTER_LANE_SWITCH (R439) -/

section
variable {r : Router} (hr : s.lnw.routers[node.val]? = some r)
include hr

theorem exec_routerLaneSwitch_of_failing (hlen : 4 ≤ r.uncorrEdges.length) :
    exec (.routerLaneSwitch node) s = .next (s.switchLane node) :=
  congrArg Host.Outcome.next (if_pos (by rwa [List.getD_eq_getElem?_getD, hr]))

theorem State.switchLane_of_first (hlost : r.lost = false) (hlane : r.onShadow = false) :
    s.switchLane node = ((s.updLnw fun l => { l with
      routers := l.routers.set node { r with onShadow := true, uncorrEdges := [] } }).report
        6 node 2 3 0x0031 none 0 0).bump .brnSpared := by
  have hget : s.lnw.routers.getD node {} = r := by rw [List.getD_eq_getElem?_getD, hr, Option.getD_some]
  have hset : s.lnw.routers.modify node (fun x => { x with onShadow := true, uncorrEdges := [] }) =
      s.lnw.routers.set node { r with onShadow := true, uncorrEdges := [] } := by
    rw [List.modify_eq_set_getElem?, hr]
    rfl
  simp only [State.switchLane, hget, hlost, hlane, Bool.false_eq_true, if_false, State.updLnw, hset]

theorem State.switchLane_of_second (hlost : r.lost = false) (hlane : r.onShadow = true) :
    s.switchLane node = ((s.updLnw fun l => { l with
      routers := l.routers.set node { r with lost := true, uncorrEdges := [] } }).report
        6 node 3 8 0x0032 none 0 0).checkDegraded := by
  have hget : s.lnw.routers.getD node {} = r := by rw [List.getD_eq_getElem?_getD, hr, Option.getD_some]
  have hset : s.lnw.routers.modify node (fun x => { x with lost := true, uncorrEdges := [] }) =
      s.lnw.routers.set node { r with lost := true, uncorrEdges := [] } := by
    rw [List.modify_eq_set_getElem?, hr]
    rfl
  simp only [State.switchLane, hget, hlost, hlane, Bool.false_eq_true, if_false, if_true, State.updLnw, hset]

end

end

/-- Settles O33: each packet by its error, the timeout by its cancellation, and the regulator and the routers by their
equations. -/
theorem lineworkDeliversTimesOutAndRegulates : Obligations.LineworkDeliversTimesOutAndRegulates := by
  unfold Obligations.LineworkDeliversTimesOutAndRegulates
  refine ⟨fun s node tag hnode htx hwaiting => exec_lineworkPacketDelivered_of_clean hnode htx hwaiting, ?_,
    fun s node tag hnode htx hheld => exec_lineworkPacketDelivered_of_held hnode htx hheld, ?_,
    fun s tag x hx hjob hwaiting => exec_lineworkTimeout_of_ended hx hjob hwaiting, ?_, ?_, ?_, ?_, ?_⟩
  · intro s node tag hnode htx hwaiting
    rw [exec_lineworkPacketDelivered_of_single hnode]
    exact exec_lineworkPacketDelivered_of_clean hnode htx hwaiting
  · intro s node tag hnode
    refine ⟨_, exec_lineworkPacketDelivered_of_double hnode, fun p hp => ?_, rfl⟩
    simp only [List.mem_cons, List.not_mem_nil, or_false, not_or] at hp
    simp [hp]
  · intro s h
    exact ⟨_, Nat.le_of_lt_succ (Nat.mod_lt _ (by decide)), exec_regulationWindow_of_due h⟩
  · intro s m v b hm hb hfits
    rw [exec_lnwBudget_of_master hm hb, hfits]
    rfl
  · intro s m v b hm hb hover
    rw [exec_lnwBudget_of_master hm hb, hover]
    rfl
  · intro s node r hr hlen hlost hlane
    rw [exec_routerLaneSwitch_of_failing hr hlen, State.switchLane_of_first hr hlost hlane]
    rfl
  · intro s node r hr hlen hlost hlane
    refine ⟨_, (exec_routerLaneSwitch_of_failing hr hlen).trans
      (congrArg _ (State.switchLane_of_second hr hlost hlane)), fun p hp => ?_, ?_⟩
    · simp only [List.mem_cons, List.not_mem_nil, or_false, not_or] at hp
      simp [hp]
    · exact (State.checkDegraded_rest (p := .lnw) (by decide) _).trans rfl

end Sys2Proof.Machine
end

section
/-!
PROOF. Sensor ingress: a stream by its number (R305), the space that a frame in progress takes (R308), and the commands that
open a frame, land its lines and fragments, end it and drop it (R309 to R315).
-/

namespace Sys2Proof.Machine

open Sys2Proof

section
variable {s : State} {n : Nat} {f g : OpenFrame}

/-! ### A stream by its number (R305) -/

/-- A stream with a frame in progress is one of the table. -/
theorem State.stream_lt_of_open (hopen : (s.stream n).open_ = some f) : n < s.ing.streams.length := by
  by_contra hge
  rw [State.stream, List.getD_eq_default _ _ (Nat.le_of_not_lt hge)] at hopen
  cases hopen

theorem State.stream_of_same {t : State} (h : Part.Same .ing s t) (n : Nat) : t.stream n = s.stream n :=
  congrArg (fun i : Ing => i.streams.getD n {}) h

theorem State.stream_updStream (hn : n < s.ing.streams.length) (u : IngStream → IngStream) :
    (s.updStream n u).stream n = u (s.stream n) :=
  getD_modify u hn _

/-- An update of a stream is known by what it makes of what the stream holds. -/
theorem State.updStream_congr {u v : IngStream → IngStream} (h : u (s.stream n) = v (s.stream n)) :
    s.updStream n u = s.updStream n v := by
  have hlist : s.ing.streams.modify n u = s.ing.streams.modify n v := by
    rw [List.modify_eq_set_getElem?, List.modify_eq_set_getElem?]
    cases hx : s.ing.streams[n]? with
    | none => rfl
    | some x =>
      have hread : s.stream n = x := by rw [State.stream, List.getD_eq_getElem?_getD, hx, Option.getD_some]
      rw [hread] at h
      exact congrArg (s.ing.streams.set n) h
  simp only [State.updStream, State.updIng, hlist]

theorem State.updStream_updStream (u v : IngStream → IngStream) (s : State) :
    (s.updStream n u).updStream n v = s.updStream n fun x => v (u x) :=
  congrArg (fun l => { s with ing := { s.ing with streams := l } }) (List.modify_modify_eq ..)

/-! ### Drops and room (R308, R309) -/

/-- A dropped frame leaves its stream without a frame in progress, and the next sealed frame with GAP. -/
theorem State.stream_dropFrame (hn : n < s.ing.streams.length) :
    (s.dropFrame n).stream n = { s.stream n with
      open_ := none
      dead := (s.stream n).open_.map (·.counter)
      gapNext := true
      droppedSince := (s.stream n).droppedSince + 1 } := by
  unfold State.dropFrame
  rw [State.stream_of_same ((State.tellMissing_same .ing (by decide) _ _ _ _).2
    ((State.bumpStream_same .ing (by decide) _ _ _ _ _).2 (Part.same_refl .ing _)))]
  exact State.stream_updStream hn _

/-- Where the units are free, no version is reused. -/
theorem State.reuse_of_fits {need : Nat} (hfits : need ≤ s.t2Free) (k : Nat) : s.reuse n need k = s := by
  cases k with
  | zero => rfl
  | succ k => exact if_pos hfits

theorem State.openFrame_of_fits (hfits : frameUnits 0 ≤ s.t2Free) (f : OpenFrame) :
    s.openFrame n f = s.updStream n fun x => { x with open_ := some f, dead := none } := by
  simp only [State.openFrame, State.reuse_of_fits hfits, if_neg (Nat.not_lt.2 hfits)]

theorem State.land_of_room (hopen : (s.stream n).open_ = some f) (hroom : s.HasRoom f g) :
    s.land n g = s.updStream n fun x => { x with open_ := some g } := by
  obtain ⟨hlen, hfits⟩ := hroom
  simp only [State.land, hopen, Option.map_some, Option.getD_some, State.reuse_of_fits hfits,
    if_neg (not_or.2 ⟨Nat.not_lt.2 hlen, Nat.not_lt.2 hfits⟩)]

/-- Nothing is sealed on the way to the next frame unless a frame has ended (R306). -/
theorem State.sealEnded_of_going (hgoing : ∀ f, (s.stream n).open_ = some f → f.ended = false) : s.sealEnded n = s := by
  unfold State.sealEnded
  cases hopen : (s.stream n).open_ with
  | none => rfl
  | some f => exact if_neg (by simp [hgoing f hopen])

theorem State.sealEnded_of_open (hopen : (s.stream n).open_ = some f) (hgoing : f.ended = false) : s.sealEnded n = s :=
  State.sealEnded_of_going fun f' hf' => by
    rw [hopen] at hf'
    cases hf'
    exact hgoing

theorem State.sealEnded_of_none (hopen : (s.stream n).open_ = none) : s.sealEnded n = s :=
  State.sealEnded_of_going fun f' hf' => by
    rw [hopen] at hf'
    cases hf'

/-- Where no frame is in progress, the next one opens at once (R306). -/
theorem State.openNext_of_none (hopen : (s.stream n).open_ = none) (hfits : frameUnits 0 ≤ s.t2Free) (f : OpenFrame) :
    ((s.sealEnded n).cutFrame n).openFrame n f = s.updStream n fun x => { x with open_ := some f, dead := none } := by
  have hcut : s.cutFrame n = s := by rw [State.cutFrame, hopen]; rfl
  rw [State.sealEnded_of_none hopen, hcut, State.openFrame_of_fits hfits]

/-! ### Cameras (R310 to R313) -/

section
variable {port : Fin 12} {vc : Fin 4}

theorem exec_csiFrameStart_of_closed (hstream : s.csiStream port vc = some n) (hopen : (s.stream n).open_ = none)
    (hfits : frameUnits 0 ≤ s.t2Free) (counter : BitVec 16) (lanes rate : Nat) (stamp : Int) :
    exec (.csiFrameStart port vc counter lanes rate stamp) s =
      .next (State.updStream n (fun x => { x with
        open_ := some { counter := counter.toNat, arrival := stamp - csiCorrection rate, lastEdge := s.edge }
        dead := none }) (s.updIng fun i => { i with
          ports := i.ports.modify port fun _ => { lanes := lanes, rate := rate } })) := by
  have hexec : exec (.csiFrameStart port vc counter lanes rate stamp) s =
    execCsiFrameStart port vc counter lanes rate stamp s := rfl
  rw [hexec, execCsiFrameStart, hstream]
  exact congrArg Host.Outcome.next (State.openNext_of_none
    (s := s.updIng fun i => { i with ports := i.ports.modify port fun _ => { lanes := lanes, rate := rate } })
    hopen hfits _)

theorem exec_csiLongPacket_of_open (hstream : s.csiStream port vc = some n) (hopen : (s.stream n).open_ = some f)
    (hgoing : f.ended = false) (dt : BitVec 6) (header crc : Bool) (data : List Byte) :
    exec (.csiLongPacket port vc dt header crc false data) s = .next (
      if header = false ∨ crc = false then (s.dropFrame n).portErr port
      else if dt.toNat ≠ (s.streamEntry n).dataType then s.portErr port
      else s.landLine n f data) := by
  have hexec : exec (.csiLongPacket port vc dt header crc false data) s =
    execCsiLongPacket port vc dt header crc false data s := rfl
  rw [hexec, execCsiLongPacket, hstream]
  dsimp only
  rw [hopen]
  dsimp only
  rw [hgoing]
  simp only [Bool.false_eq_true, if_false, Bool.not_eq_true']

/-- A line no longer than the first joins the frame, padded to the row pitch (R311). -/
theorem State.landLine_of_fits {data : List Byte} {first pitch : Nat}
    (hfirst : first = if f.lines = 0 then data.length else f.lineBytes)
    (hlen : 0 < f.lines → data.length ≤ f.lineBytes) (hpitch : pitch = (first + 15) / 16 * 16) :
    s.landLine n f data = s.land n { f with
      payload := f.payload ++ data ++ List.replicate (pitch - data.length) 0
      raw := f.raw ++ data
      lines := f.lines + 1
      lineBytes := first
      lastEdge := s.edge } := by
  have hle : ¬ first < data.length := by
    rw [hfirst, Nat.not_lt]
    split
    · exact Nat.le_refl _
    · next h => exact hlen (Nat.pos_of_ne_zero h)
  subst hpitch
  subst hfirst
  exact if_neg hle

theorem exec_csiEmbeddedData_of_first (hstream : s.csiStream port vc = some n) (hopen : (s.stream n).open_ = some f)
    (hgoing : f.ended = false) (hfirst : f.sensorTime = none) {data : List Byte} (hlen : 8 ≤ data.length) :
    exec (.csiEmbeddedData port vc data) s = .next (s.updStream n fun x => { x with
      open_ := some { f with sensorTime := some (beNat (data.take 8)) } }) := by
  have hexec : exec (.csiEmbeddedData port vc data) s = execCsiEmbeddedData port vc data s := rfl
  rw [hexec, execCsiEmbeddedData, hstream]
  refine congrArg Host.Outcome.next (State.updStream_congr ?_)
  simp [hopen, hgoing, hfirst, hlen]

theorem exec_csiFrameEnd_of_open (hstream : s.csiStream port vc = some n) (hopen : (s.stream n).open_ = some f) :
    exec (.csiFrameEnd port vc) s = .next (s.updStream n fun x => { x with open_ := some { f with ended := true } }) := by
  have hexec : exec (.csiFrameEnd port vc) s = execCsiFrameEnd port vc s := rfl
  rw [hexec, execCsiFrameEnd, hstream]
  refine congrArg Host.Outcome.next (State.updStream_congr ?_)
  simp [hopen]

end

/-! ### Network sensors (R314, R315) -/

section
variable {h : SensorHeader} {stamp : Int}

/-- A fragment carries at most 1,476 bytes (R314). -/
theorem payload_length_of_sensorHeader {data : List Byte} (hh : sensorHeader data = some h) :
    h.payload.length ≤ 1476 := by
  unfold sensorHeader at hh
  extract_lets w len at hh
  split at hh
  · cases hh
  · next hgood =>
    cases hh
    simp only [not_or] at hgood
    exact (List.length_take_le _ _).trans (by omega)

/-- The space of a frame without payload holds its first fragment (R308, R314). -/
theorem State.hasRoom_of_sensorHeader {data : List Byte} (hh : sensorHeader data = some h)
    (hf : f.payload = []) (hg : g.payload = h.payload) : s.HasRoom f g := by
  have hlen := payload_length_of_sensorHeader hh
  rw [← hg] at hlen
  refine ⟨by omega, ?_⟩
  have hunits : frameUnits g.payload.length - frameUnits f.payload.length = 0 := by
    rw [hf]
    simp only [frameUnits, List.length_nil]
    omega
  rw [hunits]
  exact Nat.zero_le _

/-- A fragment in order joins the frame, and LAST ends it. -/
theorem State.landFragment_of_room (hopen : (s.stream n).open_ = some f) (hgoing : f.ended = false)
    (hg : g = { f with
      payload := f.payload ++ h.payload
      raw := f.raw ++ h.payload
      lines := f.lines + 1
      nextFrag := f.nextFrag + 1
      lastEdge := s.edge
      ended := h.last }) (hroom : s.HasRoom f g) :
    s.landFragment n h f = s.updStream n fun x => { x with open_ := some g } := by
  subst hg
  unfold State.landFragment
  rw [State.land_of_room hopen (by exact hroom)]
  cases hlast : h.last with
  | true =>
    simp only [if_true]
    exact State.updStream_updStream ..
  | false =>
    simp only [Bool.false_eq_true, if_false]
    rw [hgoing]

theorem State.fragment_of_next (hopen : (s.stream n).open_ = some f) (hgoing : f.ended = false)
    (hseq : f.counter = h.seq) (hfrag : f.nextFrag = h.frag) : s.fragment n h stamp = s.landFragment n h f := by
  simp only [State.fragment, State.sealEnded_of_open hopen hgoing, hopen, hseq, hfrag, ne_eq, not_true_eq_false, if_false]

theorem State.fragment_of_skipped (hopen : (s.stream n).open_ = some f) (hgoing : f.ended = false)
    (hseq : f.counter = h.seq) (hfrag : f.nextFrag ≠ h.frag) : s.fragment n h stamp = s.dropFrame n := by
  simp only [State.fragment, State.sealEnded_of_open hopen hgoing, hopen, hseq, ne_eq, not_true_eq_false, if_false, hfrag,
    not_false_eq_true, if_true]

/-- Fragment 0 opens a frame and joins it. -/
theorem State.fragment_of_first {data : List Byte} (hh : sensorHeader data = some h)
    (hopen : (s.stream n).open_ = none) (hn : n < s.ing.streams.length) (hfrag : h.frag = 0)
    (hfits : frameUnits 0 ≤ s.t2Free)
    (hf : f = { counter := h.seq, arrival := stamp, sensorTime := some h.time, gptp := h.gptp, lastEdge := s.edge })
    (hg : g = { f with payload := h.payload, raw := h.payload, lines := 1, nextFrag := 1, ended := h.last }) :
    s.fragment n h stamp = s.updStream n fun x => { x with open_ := some g, dead := none } := by
  subst hf
  have hopened := State.stream_updStream hn fun x => { x with
    open_ := some { counter := h.seq, arrival := stamp, sensorTime := some h.time, gptp := h.gptp, lastEdge := s.edge }
    dead := none }
  have hland := State.landFragment_of_room (g := g) (congrArg IngStream.open_ hopened) rfl hg
    (State.hasRoom_of_sensorHeader hh rfl (by rw [hg]))
  simp only [State.fragment, State.sealEnded_of_none hopen, hopen, State.firstFragment, hfrag, ne_eq, not_true_eq_false,
    and_false, if_false, State.openFrame_of_fits hfits, hopened, hland, State.updStream_updStream]

/-- The fragment at the head of a stream has left the receive buffer of its port (R386). -/
def State.fragmentTaken (p : Port) (tsn : BitVec 12) (s : State) : State :=
  s.updPort p fun x => { x with rxq := x.rxq.eraseP (·.tsn = some tsn.toNat) }

/-- A checked fragment leaves the receive buffer and goes to its stream (R314, R386). -/
theorem exec_sensorFragment_of_checked {p : Port} {tsn : BitVec 12} {data : List Byte} {e : StreamEntry}
    (he : s.tsnStream tsn.toNat = some e) (hlistens : s.listens e p = true) (hh : sensorHeader data = some h) :
    exec (.sensorFragment p tsn stamp data) s =
      .next ((s.fragmentTaken p tsn).fragment e.id h (s.rxStamp p stamp)) := by
  have hexec : exec (.sensorFragment p tsn stamp data) s = execSensorFragment p tsn stamp data s := rfl
  rw [hexec, execSensorFragment, he]
  simp only [hlistens, hh, Bool.not_true, Bool.false_eq_true, if_false, State.fragmentTaken]

theorem exec_fragmentTimeout_of_late {n : Fin 48} (hopen : (s.stream n).open_ = some f) (hgoing : f.ended = false)
    (heth : (s.streamEntry n).ethernet = true) (hlate : f.lastEdge + 2 * (s.streamEntry n).periodEdges ≤ s.edge) :
    exec (.fragmentTimeout n) s = .next (s.dropFrame n) := by
  have hexec : exec (.fragmentTimeout n) s = execFragmentTimeout n s := rfl
  rw [hexec, execFragmentTimeout]
  simp [hopen, hgoing, heth, hlate]

end

end

/-- Settles O34: each frame start, line and fragment by the frame that it leaves in progress, and each fault by the drop. -/
theorem sensorFramesAreAssembled : Obligations.SensorFramesAreAssembled := by
  unfold Obligations.SensorFramesAreAssembled
  refine ⟨?_, ?_, ?_, ?_, ?_, ?_, ?_, ?_, ?_⟩
  · intro s port vc counter lanes rate n stamp hstream _ hopen hfits
    exact exec_csiFrameStart_of_closed hstream hopen hfits counter lanes rate stamp
  · intro s port vc dt data n pitch f g hstream hopen hgoing hdt hlen hpitch hg hroom
    subst hg
    rw [exec_csiLongPacket_of_open hstream hopen hgoing, if_neg (by simp), if_neg (not_not_intro hdt),
      State.landLine_of_fits rfl hlen hpitch, State.land_of_room hopen hroom]
    rfl
  · intro s port vc dt header crc data n f hstream hopen hgoing hbad
    have hexec := exec_csiLongPacket_of_open hstream hopen hgoing dt header crc data
    rw [if_pos hbad] at hexec
    have hstream' : ((s.dropFrame n).portErr port).stream n = (s.dropFrame n).stream n :=
      State.stream_of_same (by simp) n
    refine ⟨_, hexec, fun p hp => ?_, ?_⟩
    · simp only [List.mem_cons, List.not_mem_nil, or_false, not_or] at hp
      simp [hp]
    · rw [hstream', State.stream_dropFrame (State.stream_lt_of_open hopen)]
      exact ⟨rfl, rfl, rfl⟩
  · intro s port vc data n f hstream hopen hgoing hfirst hlen
    exact exec_csiEmbeddedData_of_first hstream hopen hgoing hfirst hlen
  · intro s port vc n f hstream hopen
    exact exec_csiFrameEnd_of_open hstream hopen
  · intro s p tsn stamp data e h f g he hlistens hh hopen hgoing hseq hfrag hg hroom
    have hn : e.id < (s.fragmentTaken p tsn).ing.streams.length := State.stream_lt_of_open hopen
    have hland := (State.fragment_of_next (s := s.fragmentTaken p tsn) (stamp := s.rxStamp p stamp) hopen hgoing hseq
      hfrag).trans (State.landFragment_of_room hopen hgoing hg hroom)
    refine ⟨_, (exec_sensorFragment_of_checked he hlistens hh).trans (congrArg _ hland), fun q hq => ?_,
      State.stream_updStream hn _⟩
    simp only [List.mem_cons, List.not_mem_nil, or_false, not_or] at hq
    simp [hq, State.fragmentTaken]
  · intro s p tsn stamp data e h f g he hlistens hh hopen hn hfrag hfits hf hg
    have hfirst := State.fragment_of_first (s := s.fragmentTaken p tsn) hh hopen hn hfrag hfits hf hg
    exact ⟨_, (exec_sensorFragment_of_checked he hlistens hh).trans (congrArg _ hfirst),
      State.stream_updStream (s := s.fragmentTaken p tsn) hn _⟩
  · intro s p tsn stamp data e h f he hlistens hh hopen hgoing hseq hfrag
    have hn : e.id < (s.fragmentTaken p tsn).ing.streams.length := State.stream_lt_of_open hopen
    have hdrop := State.fragment_of_skipped (s := s.fragmentTaken p tsn) (stamp := s.rxStamp p stamp) hopen hgoing hseq hfrag
    refine ⟨_, (exec_sensorFragment_of_checked he hlistens hh).trans (congrArg _ hdrop), ?_⟩
    rw [State.stream_dropFrame hn]
    exact ⟨rfl, rfl⟩
  · intro s n f hopen hgoing heth hlate
    refine ⟨_, exec_fragmentTimeout_of_late hopen hgoing heth hlate, ?_⟩
    rw [State.stream_dropFrame (State.stream_lt_of_open hopen), hopen]
    exact ⟨rfl, rfl, rfl⟩

end Sys2Proof.Machine
end

section
/-!
PROOF. The seal of a frame (R306, R316 to R318) and the watch for stale streams (R319): the stream that a seal leaves, and the
version that it adds.
-/

namespace Sys2Proof.Machine

open Sys2Proof

section
variable {s : State} {f : OpenFrame}

theorem exec_frameSeal_of_ended {n : Fin 48} (hopen : (s.stream n).open_ = some f) (hended : f.ended = true) :
    exec (.frameSeal n) s = .next (s.sealFrame n f) := by
  have hexec : exec (.frameSeal n) s = execFrameSeal n s := rfl
  rw [hexec, execFrameSeal, hopen]
  exact congrArg Host.Outcome.next (if_pos hended)

/-- The seal of a frame in sequence: what its stream holds of the frame, and the version that joins its versions. -/
theorem State.stream_sealFrame_of_inOrder {n : Nat} {q : SeqCheck} {rep : Bool} {run : Nat}
    (hn : n < s.ing.streams.length) (hq : q = seqCheck (s.streamEntry n).ethernet (s.stream n) f.counter)
    (horder : q.outOfOrder = false)
    (hrep : rep = ((s.stream n).hasPrev && (q.same || crc64 f.raw = (s.stream n).lastSignature)))
    (hrun : run = if rep then (s.stream n).repeatRun + 1 else 0) :
    ∃ (clock : ClockModel) (v : LandedFrame),
      (s.sealFrame n f).stream n = { s.stream n with
        state := .active
        frozen := rep && decide ((s.streamEntry n).frozenK ≤ run)
        repeatRun := run
        framesSealed := (s.stream n).framesSealed + 1
        versions := keepVersions ((s.stream n).versions ++ [v])
        open_ := none
        clock := clock
        droppedSince := 0
        gapNext := false
        hasPrev := true
        lastCounter := f.counter
        lastSignature := crc64 f.raw
        lastSealEdge := s.edge } ∧
      v.index = (s.stream n).framesSealed.toNat ∧ v.counter = f.counter ∧ v.payload = f.payload ∧
      v.signature = crc64 f.raw ∧ v.arrival = f.arrival ∧ v.gap = ((s.stream n).gapNext || q.gap) ∧ v.repeat_ = rep ∧
      v.noTime = f.sensorTime.isNone ∧ v.sealEdge = s.edge := by
  subst hq hrep hrun
  unfold State.sealFrame
  extract_lets x e q sig rep run frozen c v s1 s2 s3
  rw [if_neg (by rw [show q.outOfOrder = false from horder]; exact Bool.false_ne_true)]
  have hclock : Part.Same .ing s c.2.2 := by simp [c]
  have hs1 : s1.stream n = _ := State.stream_updStream (s := c.2.2) (by rw [show c.2.2.ing = s.ing from hclock]; exact hn) _
  rw [State.stream_of_same hclock n] at hs1
  have hs3 : Part.Same .ing s1 s3 := by simp [s3, s2]
  refine ⟨c.1.model, v, ?_, rfl, rfl, rfl, rfl, rfl, rfl, rfl, rfl, rfl⟩
  refine (State.stream_of_same (s := s1) ?_ n).trans hs1
  split
  · simpa using hs3
  · exact hs3

/-- A frame out of order is discarded and counted as a drop (R316; that Proof hears of none is log 20). -/
theorem State.sealFrame_of_outOfOrder {n : Fin 48}
    (horder : (seqCheck (s.streamEntry n).ethernet (s.stream n) f.counter).outOfOrder = true) :
    s.sealFrame n f = State.bump (.ingDrops n) (s.updStream n fun y => { y with open_ := none }) := by
  unfold State.sealFrame
  refine (if_pos horder).trans ?_
  rw [State.bumpStream, dif_pos n.isLt]
  rfl

theorem exec_streamStale_of_late {n : Fin 48} (hstate : (s.stream n).state = .active ∨ (s.stream n).state = .waiting)
    (hlate : (s.stream n).lastSealEdge + 2 * (s.streamEntry n).periodEdges ≤ s.edge) :
    exec (.streamStale n) s = .next ((s.updStream n fun y => { y with state := .stale }).updProofStream n
      fun y => { y with stale := true }) := by
  have hexec : exec (.streamStale n) s = execStreamStale n s := rfl
  rw [hexec, execStreamStale]
  exact congrArg Host.Outcome.next (if_pos (by simp [hlate, hstate]))

end

/-- Settles O35: the seal by the stream that it leaves, and the drop and the watch by their equations. -/
theorem framesAreSealedAndWatched : Obligations.FramesAreSealedAndWatched := by
  unfold Obligations.FramesAreSealedAndWatched
  refine ⟨?_, ?_, ?_⟩
  · intro s n f q rep run hopen hended hq horder hrep hrun
    have hexec := exec_frameSeal_of_ended hopen hended
    obtain ⟨clock, v, hstream, hv⟩ :=
      State.stream_sealFrame_of_inOrder (State.stream_lt_of_open hopen) hq horder hrep hrun
    refine ⟨_, hexec, (exec_only hexec).mono (by simp [mayChange]), ?_⟩
    rw [hstream]
    exact ⟨rfl, rfl, rfl, rfl, rfl, rfl, rfl, rfl, v, rfl, hv⟩
  · intro s n f hopen hended horder
    rw [exec_frameSeal_of_ended hopen hended, State.sealFrame_of_outOfOrder horder]
    rfl
  · intro s n hstate hlate
    exact exec_streamStale_of_late hstate hlate

end Sys2Proof.Machine
end

section
/-!
PROOF. The Tracing unit: FUSE and the order in which jobs hold the unit (R329, R330), the life of tracks (R332), the ego filter
(R327, R337), and the bounds of a refinement (R333), which rest on the clamp of FP32 words.
-/

namespace Sys2Proof.Machine

open Sys2Proof

/-! ### The clamp of FP32 words (R138) -/

section
variable {a b w x : Word}

theorem f32IsNan_f32Nan : f32IsNan f32Nan = true := by decide

/-- The minimum is a NaN or no greater than its first operand. -/
theorem f32Key_fMin_le_left (a b : Word) : f32IsNan (fMin a b) = true ∨ f32Key (fMin a b) ≤ f32Key a := by
  unfold fMin
  split
  · exact .inl f32IsNan_f32Nan
  · split
    · exact .inr (Int.le_refl _)
    · next h => exact .inr (Int.le_of_lt (Int.not_le.1 h))

/-- The maximum is a NaN or no less than its first operand. -/
theorem f32Key_left_le_fMax (a b : Word) : f32IsNan (fMax a b) = true ∨ f32Key a ≤ f32Key (fMax a b) := by
  unfold fMax
  split
  · exact .inl f32IsNan_f32Nan
  · split
    · next h => exact .inr h
    · exact .inr (Int.le_refl _)

/-- The maximum is a NaN or one of its operands. -/
theorem fMax_cases (a b : Word) : f32IsNan (fMax a b) = true ∨ fMax a b = a ∨ fMax a b = b := by
  unfold fMax
  split
  · exact .inl f32IsNan_f32Nan
  · split
    · exact .inr (.inr rfl)
    · exact .inr (.inl rfl)

theorem f32Key_fAbs (w : Word) : f32Key (fAbs w) = fld w 30 0 := by
  have hsign : bit (fAbs w) 31 = false := by simp [bit, fAbs]
  have hmod : (fAbs w).toNat = w.toNat % 2 ^ 31 := by
    rw [fAbs, BitVec.toNat_and]
    exact Nat.and_two_pow_sub_one_eq_mod w.toNat 31
  rw [f32Key, hsign, if_neg Bool.false_ne_true]
  simp [fld, hmod]

/-- A word between the negative of a bound and the bound has a magnitude within it. -/
theorem f32Key_fAbs_le (hlo : -f32Key b - 1 ≤ f32Key w) (hhi : f32Key w ≤ f32Key b) :
    f32Key (fAbs w) ≤ f32Key b := by
  have hcases : f32Key w = fld w 30 0 ∨ f32Key w = -(fld w 30 0 : Int) - 1 := by
    unfold f32Key
    split
    · exact .inr rfl
    · exact .inl rfl
  rw [f32Key_fAbs]
  omega

/-- A word that is clamped to a bound and its negative is a NaN or within the bound. -/
theorem fClamp_within (hneg : f32Key (b ||| 0x80000000) = -f32Key b - 1) (hpos : 0 ≤ f32Key b) (x : Word) :
    f32IsNan (fClamp b x) = true ∨ f32Key (fAbs (fClamp b x)) ≤ f32Key b := by
  unfold fClamp
  rcases fMax_cases (b ||| 0x80000000) (fMin b x) with hnan | hlow | hmin
  · exact .inl hnan
  · rw [hlow]
    exact .inr (f32Key_fAbs_le (by omega) (by omega))
  · rcases f32Key_left_le_fMax (b ||| 0x80000000) (fMin b x) with hnan | hlo
    · exact .inl hnan
    · rw [hmin] at hlo ⊢
      rcases f32Key_fMin_le_left b x with hnan | hhi
      · exact .inl hnan
      · exact .inr (f32Key_fAbs_le (by omega) hhi)

theorem calApply_getD (sum solved : List Word) {n : Nat} (hn : n < 6) :
    (calApply sum solved).1.getD n 0 =
      fClamp (calTotal n) (fAdd (sum.getD n 0) (fClamp (calStep n) (solved.getD n 0))).1 := by
  simp [calApply, hn]

/-- The correction that is applied stays within the total bounds (R333). -/
theorem calApply_within (sum solved : List Word) {n : Nat} (hn : n < 6) :
    f32IsNan ((calApply sum solved).1.getD n 0) = true ∨
      f32Key (fAbs ((calApply sum solved).1.getD n 0)) ≤ f32Key (calTotal n) := by
  have hbound : f32Key (calTotal n ||| 0x80000000) = -f32Key (calTotal n) - 1 ∧ 0 ≤ f32Key (calTotal n) := by
    unfold calTotal
    split <;> decide
  rw [calApply_getD sum solved hn]
  exact fClamp_within hbound.1 hbound.2 _

end

/-! ### FUSE and the holder (R329, R330) -/

section
variable {s : State} {job : Word} {slot : Fin 32} {j : Job} {i : InFlight}

/-- A list that parses is applied in the holder's journal, or changes no track where it is late. -/
theorem State.fuseGo_of_list {f : FusionRec} {k : Nat} {time : Int} {ds : List Detection} {r : ListResult}
    (hfusion : s.otl.running.fusion = some f)
    (hentry : firstIdx f.entries.length (fun k => (f.entries.getD k {}).stream = i.desc.param0) = some k)
    (hlist : parseList (j.bytes slot i.desc.aObj) i.desc.aOff s.now = some (time, ds))
    (hread : j.readFault i.desc.aObj i.desc.aOff (listBytes (j.bytes slot i.desc.aObj) i.desc.aOff) = none)
    (hout : i.desc.cObj = 0)
    (hr : r = if s.lateList i.desc.param0 time then { table := s.trc.seen }
      else (s.listView f k time).apply (s.ignored k) ds s.trc.seen) :
    ∃ u cycles, s.fuseGo j slot i = u.acted j slot i stOk {} (wd (r.associated + 65536 * r.born)) 0 cycles ∧
      Only [.trc, .counts] s u ∧
      u.trc = { s.trc with shadow := some r.table, tableFull := s.trc.tableFull || decide (0 < r.refused) } := by
  subst hr
  simp only [State.fuseGo, hfusion, hentry, hlist, hread, hout, if_true]
  refine ⟨_, _, rfl, fun p hp => ?_, rfl⟩
  simp only [List.mem_cons, List.not_mem_nil, or_false, not_or] at hp
  simp [hp]

/-- The job holds the unit (R330). -/
def State.heldBy (job : Word) (s : State) : State := s.updTrc fun t => { t with holder := job }

/-- What a list meets does not depend on the holder. -/
theorem State.lateList_heldBy (job : Word) (s : State) : (s.heldBy job).lateList = s.lateList := rfl
theorem State.listView_heldBy (job : Word) (s : State) : (s.heldBy job).listView = s.listView := rfl
theorem State.ignored_heldBy (job : Word) (s : State) : (s.heldBy job).ignored = s.ignored := rfl
theorem State.seen_heldBy (job : Word) (s : State) : (s.heldBy job).trc.seen = s.trc.seen := rfl

theorem exec_fuse_of_holder (h : s.Issued job slot 0x10 (fun _ => true) j i)
    (hheld : s.trc.holder = job ∨ s.trc.holder = 0 ∧ s.trc.queue = []) :
    exec (.fuse job slot) s = .next ((s.heldBy job).fuseGo j slot i) := by
  have hexec : exec (.fuse job slot) s = execFuse job slot s := rfl
  rw [hexec, execFuse, State.act_of_issued h]
  exact congrArg Host.Outcome.next (if_pos (by simpa using hheld))

theorem exec_fuse_of_other (h : s.Issued job slot 0x10 (fun _ => true) j i) (hother : s.trc.holder ≠ job)
    (htaken : s.trc.holder ≠ 0 ∨ s.trc.queue ≠ []) :
    exec (.fuse job slot) s = .next ((s.updFlight job slot i.index fun x => { x with stage := .waiting }).updTrc
      fun t => { t with queue := t.queue ++ [(job, slot.val)] }) := by
  have hexec : exec (.fuse job slot) s = execFuse job slot s := rfl
  have hwait : ¬(s.trc.holder = job ∨ (s.trc.holder = 0 ∧ s.trc.queue.isEmpty = true)) := by
    rintro (heq | ⟨hfree, hempty⟩)
    · exact hother heq
    · exact htaken.elim (absurd hfree) (absurd (List.isEmpty_iff.1 hempty))
  rw [hexec, execFuse, State.act_of_issued h]
  exact congrArg Host.Outcome.next (if_neg hwait)

/-- The free unit goes to the first of its queue in the order of deadlines. -/
theorem exec_tracingQueueStart_of_free {e : Word × Nat} {l : List (Word × Nat)} (hfree : s.trc.holder = 0)
    (hfirst : s.trc.queue.foldl (fun acc e => insertBy s.marginBefore e acc) [] = e :: l) :
    ∃ t, exec .tracingQueueStart s = .next t ∧
      t.trc = { s.trc with holder := e.1, queue := s.trc.queue.filter (· != e) } := by
  have hexec : exec .tracingQueueStart s = execTracingQueueStart s := rfl
  simp only [execTracingQueueStart, hfree, hfirst, ne_eq, not_true_eq_false, if_false] at hexec
  refine ⟨_, hexec, ?_⟩
  split <;> rfl

end

/-! ### Track life and the ego filter (R327, R332, R337) -/

section
variable {s : State} {f : FusionRec} {x : EgoSample} {time : Int}

theorem exec_trackCoastExpire_tracks (hfusion : s.otl.running.fusion = some f) (track : BitVec 16) :
    ∃ t, exec (.trackCoastExpire track) s = .next t ∧
      t.trc.table.tracks = s.trc.table.tracks.filter fun y => !(y.id = track && y.state = .coasting &&
        decide (y.lastAssoc + (fld ((s.sensor f 0).header.getD 3 0) 31 16 : Int) * 1000000 * unitsNs ≤ s.now)) := by
  have hexec : exec (.trackCoastExpire track) s = execTrackCoastExpire track s := rfl
  simp only [execTrackCoastExpire, hfusion] at hexec
  exact ⟨_, hexec, rfl⟩

theorem exec_egoPropagate_of_frame (hon : s.egoOn = some f) (hlen : x.values.length = 6)
    (hframe : s.egoFrame f.inertialStream x time = true) :
    exec (.egoPropagate x time) s = .next (s.updTrc fun t => { t with ego := { t.ego with
      state := Config.egoPropagate t.ego.state x.values (time - t.ego.time)
      time := time, valid := true, lastInertial := s.edge } }) := by
  have hexec : exec (.egoPropagate x time) s = execEgoPropagate x time s := rfl
  rw [hexec, execEgoPropagate, hon]
  exact congrArg Host.Outcome.next (if_pos ⟨hlen, hframe⟩)

theorem exec_egoMeasure_of_frame (hon : s.egoOn = some f) (hlen : x.values.length = 3)
    (hframe : s.egoFrame f.wheelStream x time = true) :
    exec (.egoMeasure x time) s = .next (s.updTrc fun t => { t with
      ego := { t.ego with state := Config.egoMeasure t.ego.state x.values } }) := by
  have hexec : exec (.egoMeasure x time) s = execEgoMeasure x time s := rfl
  rw [hexec, execEgoMeasure, hon]
  exact congrArg Host.Outcome.next (if_pos ⟨hlen, hframe⟩)

theorem exec_egoPublish_of_due (hon : s.egoOn = some f) (hdue : s.trc.ego.published ≠ s.egoInstant f) :
    exec .egoPublish s = .next (s.updTrc fun t => { t with
      ego := { t.ego with published := s.egoInstant f }
      pose := [(compactOf s.now).w0, (compactOf s.now).w1] ++ (t.ego.pose ++ List.replicate 7 0).take 7 }) := by
  have hexec : exec .egoPublish s = execEgoPublish s := rfl
  rw [hexec, execEgoPublish, hon]
  exact congrArg Host.Outcome.next (if_neg hdue)

theorem exec_egoTimeout_of_late (hlate : s.trc.ego.lastInertial + 50 * edgesMs ≤ s.edge) :
    exec .egoTimeout s = .next (s.updTrc fun t => { t with ego := { t.ego with valid := false } }) :=
  congrArg Host.Outcome.next (if_pos hlate)

theorem exec_trcEgoCapture_of_one {v : Word} (hv : bit v 0 = true) :
    exec (.trcEgoCapture v) s = .next (s.updTrc fun t => { t with egoCap := t.pose }) :=
  congrArg Host.Outcome.next (if_pos hv)

end

/-! ### Calibration (R333, R334) -/

section
variable {s : State} {k : Fin 48} {c : Calibration}

theorem State.draws_length (n : Nat) (s : State) : (s.draws n).1.length = n := by
  induction n generalizing s with
  | zero => rfl
  | succ n ih => exact congrArg Nat.succ (ih s.draw.2)

theorem State.calOf_of_getElem? (hc : s.trc.cal[k.val]? = some c) : s.calOf k = c := by
  rw [State.calOf, List.getD_eq_getElem?_getD, hc, Option.getD_some]

/-- A refinement that is due: with 32 residuals it applies the solution within its bounds, and with fewer it only shifts the
second's violation in. -/
theorem exec_calibrationRefine_of_due (hon : s.trcOn = true) (hc : s.trc.cal[k.val]? = some c)
    (hdue : c.refineEdge + edgesSec ≤ s.edge) {out : List Word × Bool × Bool}
    (hout : out = calApply c.correction (s.draws 6).1) :
    ∃ t, exec (.calibrationRefine k) s = .next t ∧
      t.trc = { s.trc with cal := s.trc.cal.set k { c with
        correction := if 32 ≤ c.residuals then out.1 else c.correction
        limit := if 32 ≤ c.residuals then out.2.2 else c.limit
        history := (c.history <<< 1) ||| (if 32 ≤ c.residuals ∧ (out.2.1 || out.2.2) = true then 1 else 0)
        residuals := 0
        refineEdge := s.edge } } := by
  subst hout
  have hlt : k.val < s.trc.cal.length := (List.getElem?_eq_some_iff.1 hc).1
  have hcal := State.calOf_of_getElem? hc
  have hrefine : s.refineDue k = true := by simp [State.refineDue, hon, hlt, hcal, hdue]
  have htrc : (s.draws 6).2.trc = s.trc := (State.draws_same .trc (by decide) 6 s s).2 rfl
  have hexec : exec (.calibrationRefine k) s = execCalibrationRefine k s := rfl
  refine ⟨_, hexec, ?_⟩
  simp only [hrefine, hcal, Bool.not_true, Bool.false_eq_true, if_false, State.bumpBy_trc, State.updTrc_trc, htrc,
    decide_eq_true_eq, Bool.and_eq_true]

theorem exec_demotionExpire_of_over {e : Nat} {box : List Word} (hc : s.trc.cal[k.val]? = some c)
    (hdem : c.demotions = [(e, box)]) (hover : e ≤ s.edge) :
    exec (.demotionExpire k) s = .next (s.updTrc fun t => { t with
      cal := s.trc.cal.set k { c with demotions := [] } }) := by
  have hexec : exec (.demotionExpire k) s = execDemotionExpire k s := rfl
  have hnone : c.demotions.filter (fun d => decide (s.edge < d.1)) = [] := by simp [hdem, hover]
  rw [hexec, execDemotionExpire]
  refine congrArg (fun l => Host.Outcome.next { s with trc := { s.trc with cal := l } }) ?_
  rw [List.modify_eq_set_getElem?, hc, ← hnone]
  rfl

end

/-- Settles O36: FUSE by the journal that it leaves, the tracks and the ego filter by their equations, and the refinement by
the clamp of its corrections. -/
theorem theTracingUnitFusesAndMoves : Obligations.TheTracingUnitFusesAndMoves := by
  unfold Obligations.TheTracingUnitFusesAndMoves
  refine ⟨?_, ?_, ?_, ?_, ?_, ?_, ?_, ?_, ?_, ?_, ?_, ?_⟩
  · intro s job slot j i f k time ds r h hheld hfusion hentry hlist hread hout hr
    rw [← State.lateList_heldBy job, ← State.listView_heldBy job, ← State.ignored_heldBy job, ← State.seen_heldBy job] at hr
    obtain ⟨u, cycles, hgo, hu, htrc⟩ := State.fuseGo_of_list (s := s.heldBy job) hfusion hentry hlist hread hout hr
    have hexec := exec_fuse_of_holder h hheld
    rw [hgo] at hexec
    have hheldOnly : Only [.trc, .counts] s (s.heldBy job) := fun p hp => by
      simp only [List.mem_cons, List.not_mem_nil, or_false, not_or] at hp
      simp [State.heldBy, hp]
    have hbefore := hheldOnly.trans (rs := [.trc, .counts]) hu (by decide) (by decide)
    have hjob : u.job? job = some j := (State.job?_of_jobs (hbefore .jobs (by decide)) job).trans h.job
    obtain ⟨honly, hacted⟩ := State.acted_of_mem hjob h.mem stOk {} (wd (r.associated + 65536 * r.born)) 0 cycles
    exact ⟨_, hexec, hbefore.trans honly (by decide) (by decide), (honly .trc (by decide)).trans htrc, hacted⟩
  · intro s job slot j i h hother htaken
    exact ⟨_, exec_fuse_of_other h hother htaken, State.waits_of_updFlight h.job h.mem, rfl⟩
  · intro s e l hfree hfirst
    obtain ⟨t, hexec, htrc⟩ := exec_tracingQueueStart_of_free hfree hfirst
    exact ⟨t, hexec, (exec_only hexec).mono (by decide), htrc⟩
  · intro s track f coast hfusion hcoast
    subst hcoast
    obtain ⟨t, hexec, htracks⟩ := exec_trackCoastExpire_tracks hfusion track
    exact ⟨t, hexec, exec_only hexec, htracks⟩
  · intro s x time f hon hlen hframe
    exact exec_egoPropagate_of_frame hon hlen hframe
  · intro s x time f hon hlen hframe
    exact exec_egoMeasure_of_frame hon hlen hframe
  · intro s f hon hdue
    exact exec_egoPublish_of_due hon hdue
  · intro s hlate
    exact exec_egoTimeout_of_late hlate
  · intro s v hv
    exact exec_trcEgoCapture_of_one hv
  · intro s k c hon hc hdue hfew
    obtain ⟨t, hexec, htrc⟩ := exec_calibrationRefine_of_due hon hc hdue rfl
    have hnot : ¬32 ≤ c.residuals := Nat.not_le.2 hfew
    simp only [hnot, false_and, if_false, BitVec.ofNat_eq_ofNat, BitVec.or_zero] at htrc
    exact ⟨t, hexec, (exec_only hexec).mono (by simp [mayChange]), htrc⟩
  · intro s k c hon hc hdue hmany
    obtain ⟨t, hexec, htrc⟩ := exec_calibrationRefine_of_due hon hc hdue rfl
    simp only [hmany, true_and, if_true] at htrc
    exact ⟨t, (s.draws 6).1, hexec, (exec_only hexec).mono (by simp [mayChange]), State.draws_length 6 s, htrc,
      fun n hn => calApply_within c.correction (s.draws 6).1 hn⟩
  · intro s k c e box hc hdem hover
    exact exec_demotionExpire_of_over hc hdem hover

end Sys2Proof.Machine
end

section
/-!
PROOF. The planner: what a query's descriptor and the planner hold when it has ended (R346), and each command by the query
that it queues, starts or ends (R344 to R352, R356).
-/

namespace Sys2Proof.Machine

open Sys2Proof

/-! ### The answer of a query (R346) -/

/-- Descriptor `i` of the slot, which waited for the planner, has acted with RESULT `n`. -/
def State.Answers (t : State) (job : Word) (slot : Nat) (i : InFlight) (n : Nat) : Prop :=
  ∃ x, t.job? job = some x ∧ ∃ y ∈ (x.slots.getD slot {}).inFlight,
    y.index = i.index ∧ y.stage = .acted ∧ y.result = wd n

/-- The RESULT of a result object: bits 15 to 0 of its word 0, and PATH_LEN. -/
def PlanResult.summary (r : PlanResult) : Nat := r.word0 % 65536 + 65536 * r.path.length

theorem Job.mem_of_planFlight {j : Job} {slot : Nat} {i : InFlight} (h : j.planFlight slot = some i) :
    i ∈ (j.slots.getD slot {}).inFlight :=
  List.mem_of_find?_eq_some h

section
variable {s t : State} {q : Query} {i : InFlight} {j : Job}

theorem State.Answers.of_jobs {job : Word} {slot n : Nat} (h : s.Answers job slot i n) (ht : t.jobs = s.jobs) :
    t.Answers job slot i n := by
  obtain ⟨x, hx, hy⟩ := h
  exact ⟨x, (State.job?_of_jobs ht job).trans hx, hy⟩

/-- The journal of a job is not in its slots. -/
theorem State.Answers.updJournal {job : Word} {slot n : Nat} (h : s.Answers job slot i n) (f : Journal → Journal) :
    (s.updJob job fun x => { x with journal := f x.journal }).Answers job slot i n := by
  obtain ⟨x, hx, hy⟩ := h
  exact ⟨_, State.job?_updJob_of_job? (fun _ => by rfl) hx, hy⟩

/-- A store through a handle is a write in its job. -/
theorem State.store_job? {id : Word} (hj : s.job? id = some j) (slot : Nat) (obj : Word) (hi : Nat)
    (f : Memory → Memory) : (s.store j slot obj hi f).job? id = some (j.put slot obj hi f) := by
  have hid := State.id_of_job? hj
  subst hid
  exact State.job?_updJob_of_job? (fun x => x.put_id slot obj hi f) hj

/-- The result object is stored, and the descriptor that waited for it acts. -/
theorem State.planResult_answers (hj : s.job? q.job = some j) (hi : j.planFlight q.slot = some i) (r : PlanResult) :
    (s.planResult q r).Answers q.job q.slot i r.summary := by
  simp only [State.planResult, hj, hi, State.store_job? hj]
  rw [State.acted, Job.put_id, State.id_of_job? hj]
  refine ⟨_, State.job?_withFlight (State.store_job? hj ..) q.slot i.index _, _, Job.mem_withFlight ?_ _, rfl, rfl, rfl⟩
  rw [Job.inFlight_put]
  exact Job.mem_of_planFlight hi

theorem State.planEnds_answers (hj : s.job? q.job = some j) (hi : j.planFlight q.slot = some i) (r : PlanResult) :
    (s.planEnds q r).Answers q.job q.slot i r.summary := by
  have hresult := State.planResult_answers (s := s.updXh fun x => { x with run := none }) hj hi r
  unfold State.planEnds
  extract_lets st s1 s2 s3
  have hs3 : s3.Answers q.job q.slot i r.summary := hresult.of_jobs (by simp [s3, s2, s1])
  split
  · exact hs3.updJournal fun x => { x with plans := x.plans ++ [(q.plan, q.planSeq, r.genChecked.toNat, r.path)] }
  · exact hs3

end

theorem State.cacheMisses_jobs (s : State) : s.cacheMisses.jobs = s.jobs :=
  (State.cacheMisses_same .jobs (by decide) s s).2 rfl

/-! ### PLANQ (R344, R345, R347) -/

/-- A query joins the queue of its kind: PUBLISH has one of its own. -/
def Xh.enqueue (q : Query) (x : Xh) : Xh :=
  if q.kind = .publish then { x with publishQueue := x.publishQueue ++ [q] } else { x with queue := x.queue ++ [q] }

theorem State.planq_eq_of_issued {kind : QueryKind} {s : State} {job : Word} {slot : Fin 32} {j : Job} {i : InFlight}
    {ws : List Word} (h : s.Issued job slot 0x0F (fun d => fld ((j.queryWords slot d).getD 0 0) 1 0 = kind.code) j i)
    (hfit : s.queryFail j slot i.desc = none) (hws : ws = j.queryWords slot i.desc) :
    s.planq kind job slot = (s.updFlight job slot i.index fun x => { x with stage := .waiting }).updXh (Xh.enqueue {
      job := job, slot := slot, kind := kind, plan := fld (ws.getD 0 0) 7 4, install := bit (ws.getD 0 0) 8
      words := ws }) := by
  subst hws
  rw [State.planq, h.job]
  dsimp only
  rw [State.act_of_issued h, hfit]
  rfl

/-! ### Query start (R165, R347, R352) -/

section
variable {s : State} {q : Query} {l : List Query} (hrun : s.xh.run = none) (hret : s.xh.retired = false)
  (hq : s.byDeadline s.xh.queue = q :: l)
include hrun hret hq

/-- A search, and the re-validation of a plan that is not empty, begins on the current generation. -/
theorem exec_plannerQueryStart_of_work (hkind : q.kind = .search ∨ q.kind = .revalidate ∧ (s.planOf q.plan).path ≠ []) :
    exec .plannerQueryStart s = .next (s.updXh fun x => { x with
      queue := x.queue.filter (· != q)
      run := some { q with genBound := s.xh.gen, planSeq := (s.planOf q.plan).seq.toNat, startEdge := s.edge } }) := by
  rcases hkind with hsearch | ⟨hreval, hpath⟩
  · exact exec_plannerQueryStart_of_search hrun hret hq hsearch
  · show execPlannerQueryStart s = _
    simp only [execPlannerQueryStart, hrun, hret, hq, hreval, Option.isSome_none, Bool.false_eq_true, or_self, if_false,
      reduceCtorEq, true_and, List.isEmpty_iff, hpath]

/-- READ_PLAN is answered at once with the plan. -/
theorem exec_plannerQueryStart_of_readPlan (hkind : q.kind = .readPlan) {j : Job} {i : InFlight}
    (hj : s.job? q.job = some j) (hi : j.planFlight q.slot = some i) :
    ∃ t, exec .plannerQueryStart s = .next t ∧ t.xh = { s.xh with queue := s.xh.queue.filter (· != q) } ∧
      t.Answers q.job q.slot i (65536 * (s.planOf q.plan).path.length) := by
  have hexec : exec .plannerQueryStart s = execPlannerQueryStart s := rfl
  simp only [execPlannerQueryStart, hrun, hret, hq, hkind, Option.isSome_none, Bool.false_eq_true, or_self, if_false,
    if_true] at hexec
  refine ⟨_, hexec, ?_, ?_⟩
  · rw [State.planEnds_xh, State.updXh_xh, ← hrun]
  · have hsummary (n : Nat) : xFound % 65536 + n = n := Nat.zero_add n
    rw [← hsummary (65536 * _)]
    exact State.planEnds_answers (by exact hj) (by exact hi) _

end

/-! ### The end of a query (R350 to R352) -/

section
variable {s : State} {q : Query}

/-- A search on the newest generation that its budget stops is answered with TIMEOUT and PARTIAL. -/
theorem State.searchEnds_of_budget (hkind : q.kind = .search) (hgen : q.genBound = s.xh.gen) {r : SearchState}
    (hnone : r.found = none) : ∃ res,
      s.searchEnds q true r = s.planEnds { q with expansions := r.expansions, pushes := r.pushes } res ∧
      res.word0 % 8 = xTimeout ∧ res.word0 / 256 % 2 = 1 := by
  unfold State.searchEnds
  extract_lets maxPlan q1 more
  simp only [hnone, true_or, if_true]
  rw [State.checkPath_of_current (by exact hkind) (by exact hgen)]
  refine ⟨_, rfl, ?_⟩
  have hmore : more = 1024 ∨ more = 0 := ite_eq_or_eq ..
  have hlimit : (if r.limit = true then xNodeLimit else 0) = 2048 ∨ (if r.limit = true then xNodeLimit else 0) = 0 :=
    ite_eq_or_eq ..
  simp only [State.pathResult, xTimeout, xPartial]
  omega

/-- A search on the newest generation that has found a path within MAX_PLAN is answered with the path. -/
theorem State.searchEnds_of_found (hkind : q.kind = .search) (hgen : q.genBound = s.xh.gen) {r : SearchState} {n : Nat}
    (hfound : r.found = some n)
    (hlen : (trace r.nodes r.nodes.length n).length ≤ (s.otl.running.lattice.map (·.maxPlan)).getD 0) : ∃ res,
      s.searchEnds q false r = s.planEnds { q with expansions := r.expansions, pushes := r.pushes } res ∧
      res.summary = (if r.truncated then xTruncated else 0) + 65536 * (trace r.nodes r.nodes.length n).length := by
  unfold State.searchEnds
  extract_lets maxPlan q1 more
  rw [hfound]
  dsimp only
  rw [if_pos hlen, State.checkPath_of_current (by exact hkind) (by exact hgen)]
  refine ⟨_, rfl, ?_⟩
  have hmore : (xFound + more) % 65536 = more := by
    unfold more
    split <;> rfl
  exact congrArg (· + _) hmore

end

section
variable {s : State} {q : Query} {j : Job} {i : InFlight} (hrun : s.xh.run = some q) (hj : s.job? q.job = some j)
  (hi : j.planFlight q.slot = some i)
include hrun hj hi

theorem exec_searchBudgetExpire_answers (hkind : q.kind = .search) (hrep : q.repairStart = none)
    (hbud : q.budgetOver s.edge = true) (hgen : q.genBound = s.xh.gen) :
    ∃ t n, exec .searchBudgetExpire s = .next t ∧ t.xh = { s.xh with run := none } ∧ t.Answers q.job q.slot i n ∧
      n % 8 = xTimeout ∧ n / 256 % 2 = 1 := by
  have hexec : exec .searchBudgetExpire s = execSearchBudgetExpire s := rfl
  have hgo : ¬(q.repairStart.isSome ∨ q.kind ≠ .search ∨ !q.budgetOver s.edge) := by simp [hrep, hkind, hbud]
  simp only [execSearchBudgetExpire, hrun, if_neg hgo] at hexec
  generalize hc : s.choose (fld (q.w 4) 11 0 * edgesUs / 4 + 1) = c at hexec
  have hcxh : c.2.xh = s.xh := hc ▸ rfl
  have hcjobs : c.2.jobs = s.jobs := hc ▸ rfl
  obtain ⟨res, hends, htimeout, hpartial⟩ := State.searchEnds_of_budget (s := c.2.cacheMisses) (q := q) hkind
    (by rw [State.cacheMisses_xh, hcxh, hgen])
    (r := { (s.searchIn q q.genBound).search (latState (q.w 1)) (some c.1) with found := none }) rfl
  rw [hends] at hexec
  refine ⟨_, _, hexec, by rw [State.planEnds_xh, State.cacheMisses_xh, hcxh],
    State.planEnds_answers (j := j) ?_ (by exact hi) res, ?_⟩
  · exact (State.job?_of_jobs ((State.cacheMisses_jobs _).trans hcjobs) q.job).trans hj
  · rw [PlanResult.summary]
    omega

theorem exec_repairBudgetExpire_answers (hover : q.repairOver s.edge = true) :
    ∃ t n, exec .repairBudgetExpire s = .next t ∧ t.xh = { s.xh with run := none } ∧ t.Answers q.job q.slot i n ∧
      n % 8 = xRepairFailed := by
  have hexec : exec .repairBudgetExpire s = execRepairBudgetExpire s := rfl
  simp only [execRepairBudgetExpire, hrun, hover, if_true] at hexec
  refine ⟨_, _, hexec, by rw [State.planEnds_xh, State.cacheMisses_xh],
    State.planEnds_answers ((State.job?_of_jobs s.cacheMisses_jobs q.job).trans hj) hi _, ?_⟩
  simp only [PlanResult.summary, State.pathResult, xRepairFailed]
  omega

theorem exec_searchEnd_answers {r : SearchState} {n : Nat} (hkind : q.kind = .search) (hrep : q.repairStart = none)
    (hbud : q.budgetOver s.edge = false) (hr : r = (s.searchIn q q.genBound).search (latState (q.w 1)) none)
    (hfound : r.found = some n) (hgen : q.genBound = s.xh.gen)
    (hlen : (trace r.nodes r.nodes.length n).length ≤ (s.otl.running.lattice.map (·.maxPlan)).getD 0) :
    ∃ t, exec .searchEnd s = .next t ∧ t.xh = { s.xh with run := none } ∧ t.Answers q.job q.slot i
      ((if r.truncated then xTruncated else 0) + 65536 * (trace r.nodes r.nodes.length n).length) := by
  have hexec := exec_searchEnd_of_found hrun hkind hrep hbud hr hfound
  have hotl : s.cacheMisses.otl = s.otl := (State.cacheMisses_same .otl (by decide) s s).2 rfl
  obtain ⟨res, hends, hsum⟩ := State.searchEnds_of_found (s := s.cacheMisses) hkind
    (by rwa [State.cacheMisses_xh]) hfound (by rwa [hotl])
  rw [hends] at hexec
  refine ⟨_, hexec, by rw [State.planEnds_xh, State.cacheMisses_xh], ?_⟩
  rw [← hsum]
  exact State.planEnds_answers (j := j) ((State.job?_of_jobs s.cacheMisses_jobs q.job).trans hj) (by exact hi) res

end

/-! ### The fault of the planner (R356, R445) -/

section
variable {s : State} {id : Word} {j : Job} {x : ErrorRecord}

/-- A job that ends takes no error record from the Burnisher. -/
theorem State.mem_inbox_finishJob (status : Byte) (detail : Word) (h : x ∈ s.brn.inbox) :
    x ∈ (s.finishJob id status detail).brn.inbox := by
  unfold State.finishJob
  split
  · exact h
  next j _ =>
    have hdone (r : CompRecord) : ((s.releaseJob j).sendDone j r).brn = s.brn :=
      ((State.sendDone_same .brn (by decide) j r _ _).2 rfl).trans ((State.releaseJob_same .brn (by decide) j s s).2 rfl)
    dsimp only
    split
    · exact List.mem_append_left _ (hdone _ ▸ h)
    · exact hdone _ ▸ h

/-- With no attempt left a fault ends the job in FAILED, by its deadline or as exhausted (R155, R158). -/
theorem State.faultJob_of_exhausted (hj : s.job? id = some j) (hrun : j.state = .running) (hspent : j.budget ≤ j.attempt)
    (wait : Option Nat) : ∃ status, (s.faultJob id wait).jobs = (s.finishJob id status 0).jobs ∧
      (s.faultJob id wait).brn = (s.finishJob id status 0).brn := by
  have hid := State.id_of_job? hj
  subst hid
  rw [State.faultJob, hj]
  dsimp only
  rw [if_neg (not_not.2 hrun), if_pos hspent]
  split
  · exact ⟨stDeadline, rfl, rfl⟩
  · exact ⟨stFaultExhausted, rfl, rfl⟩

theorem State.jobIds_of_jobKeys {t : State} (h : t.jobKeys = s.jobKeys.filter (·.1 != id)) :
    t.jobs.list.map (·.id) = (s.jobs.list.map (·.id)).filter (· != id) := by
  have hids (u : State) : u.jobs.list.map (·.id) = u.jobKeys.map Prod.fst := by
    rw [State.jobKeys, List.map_map]
    rfl
  rw [hids, hids, h, List.filter_map]
  rfl

/-- The fault is recorded, and a job without a restart left is forgotten. -/
theorem exec_plannerFault_of_exhausted {q : Query} (hrun : s.xh.run = some q) (hj : s.job? q.job = some j)
    (hrunning : j.state = .running) (hspent : j.budget ≤ j.attempt) :
    ∃ t r, exec .plannerFault s = .next t ∧ r ∈ t.brn.inbox ∧ r.kind = 0x0D ∧ r.code = 5 ∧ r.job = q.job ∧
      t.jobKeys = s.jobKeys.filter (·.1 != q.job) := by
  have hexec : exec .plannerFault s = execPlannerFault s := rfl
  simp only [execPlannerFault, hrun] at hexec
  generalize hu : s.report 0x0D 0 1 2 0x0005 ((s.job? q.job).map (·.part)) q.job 0 = u at hexec
  have hrecord : ∃ r ∈ u.brn.inbox, r.kind = 0x0D ∧ r.code = 5 ∧ r.job = q.job :=
    hu ▸ ⟨_, List.mem_append_right _ (List.mem_singleton_self _), rfl, rfl, rfl⟩
  have hkeys : u.jobKeys = s.jobKeys := hu ▸ rfl
  have huj : u.job? q.job = some j := hu ▸ hj
  obtain ⟨status, hjobs, hbrn⟩ := State.faultJob_of_exhausted huj hrunning hspent none
  obtain ⟨r, hr, hkind, hcode, hjob⟩ := hrecord
  refine ⟨_, r, hexec, hbrn ▸ State.mem_inbox_finishJob status 0 hr, hkind, hcode, hjob, ?_⟩
  rw [State.jobKeys_of_same (s := u.finishJob q.job status 0) hjobs, State.jobKeys_finishJob, hkeys]

end

/-! ### PUBLISH (R343, R344) -/

/-- A PUBLISH waits while a query is bound to the generation that the inactive buffer holds. -/
theorem exec_publishCopyStart_of_bound {s : State} {q : Query} (hrun : s.xh.run = some q)
    (hvalid : (s.xh.buffer (1 - s.xh.current)).valid = true)
    (hgen : q.genBound = (s.xh.buffer (1 - s.xh.current)).gen) : exec .publishCopyStart s = .next s :=
  congrArg Host.Outcome.next (if_pos (.inl (by simp [hrun, hvalid, hgen])))

/-- A copy that is done leaves the map in the inactive buffer, to be sealed with the job. -/
theorem exec_publishCopyDone_xh {s t : State} {q : Query} {j : Job} (hpub : s.xh.publish = some (q, true))
    (hj : s.job? q.job = some j) (h : exec .publishCopyDone s = .next t) : t.xh = { s.xh with
      publish := some (q, false)
      buffers := s.xh.buffers.set (1 - s.xh.current) {
        gen := nextGen s.xh.gen, valid := false
        data := Memory.truncate (j.bytes q.slot (q.w 1)) (((s.otl.running.lattice).map (·.mapBytes)).getD 0) } } := by
  have hexec : exec .publishCopyDone s = execPublishCopyDone s := rfl
  simp only [execPublishCopyDone, hpub, hj] at hexec
  cases hexec.symm.trans h
  exact (State.planResult_same .xh (by decide) q _ _ _).2 rfl

/-- Settles O37: what each command leaves of the planner, with the descriptor that its query answers. -/
theorem plannerQueriesAndMapsAreServed : Obligations.PlannerQueriesAndMapsAreServed := by
  unfold Obligations.PlannerQueriesAndMapsAreServed
  refine ⟨?_, ?_, ?_, ?_, ?_, ?_, ?_, ?_, ?_, ?_⟩
  · intro kind c s job slot j i ws q hkind h hfit hws hq
    have hexec : exec c s = .next (s.planq kind job slot) := by
      simp only [List.mem_cons, Prod.mk.injEq, List.not_mem_nil, or_false] at hkind
      rcases hkind with ⟨rfl, rfl⟩ | ⟨rfl, rfl⟩ | ⟨rfl, rfl⟩ | ⟨rfl, rfl⟩ <;> rfl
    rw [State.planq_eq_of_issued h hfit hws, ← hq] at hexec
    refine ⟨_, hexec, fun p hp => ?_, State.waits_of_updFlight h.job h.mem, ?_⟩
    · simp only [List.mem_cons, List.not_mem_nil, or_false, not_or] at hp
      simp [hp]
    · subst hq
      rfl
  · intro s q l hrun hret hq hkind
    exact exec_plannerQueryStart_of_work hrun hret hq hkind
  · intro s q l j i hrun hret hq hkind hj hi
    obtain ⟨t, hexec, hxh, x, hx, y, hy, hindex, hstage, hresult⟩ :=
      exec_plannerQueryStart_of_readPlan hrun hret hq hkind hj hi
    exact ⟨t, x, y, hexec, hxh, hx, hy, hindex, hstage, hresult⟩
  · intro s q j i hrun hkind hrep hbud hgen hj hi
    obtain ⟨t, n, hexec, hxh, ⟨x, hx, y, hy, hindex, hstage, hresult⟩, hword⟩ :=
      exec_searchBudgetExpire_answers hrun hj hi hkind hrep hbud hgen
    exact ⟨t, x, y, n, hexec, hxh, hx, hy, hindex, hstage, hresult, hword⟩
  · intro s q j i hrun hover hj hi
    obtain ⟨t, n, hexec, hxh, ⟨x, hx, y, hy, hindex, hstage, hresult⟩, hword⟩ :=
      exec_repairBudgetExpire_answers hrun hj hi hover
    exact ⟨t, x, y, n, hexec, hxh, hx, hy, hindex, hstage, hresult, hword⟩
  · intro s q j i r n hrun hkind hrep hbud hr hfound hgen hlen hj hi
    obtain ⟨t, hexec, hxh, x, hx, y, hy, hindex, hstage, hresult⟩ :=
      exec_searchEnd_answers hrun hj hi hkind hrep hbud hr hfound hgen hlen
    exact ⟨t, x, y, hexec, hxh, hx, hy, hindex, hstage, hresult⟩
  · intro s q j hrun hj hrunning hspent
    obtain ⟨t, r, hexec, hr, hkind, hcode, hjob, hkeys⟩ := exec_plannerFault_of_exhausted hrun hj hrunning hspent
    exact ⟨t, r, hexec, hr, hkind, hcode, hjob, State.jobIds_of_jobKeys hkeys⟩
  · intro s q l hpub hret hbound hq
    exact exec_publishCopyStart_of_free hpub hret hbound hq
  · intro s q hrun hvalid hgen
    exact exec_publishCopyStart_of_bound hrun hvalid hgen
  · intro s q j n hpub hj hn
    obtain ⟨t, x, hexec, -, hx, hpublished⟩ := exec_publishCopyDone_of_copying hpub hj
    exact ⟨t, x, hexec, hn ▸ exec_publishCopyDone_xh hpub hj hexec, hx, hpublished⟩

end Sys2Proof.Machine
end

section
/-!
PROOF. The map layout (R341): where a voxel's bit stands, and which bits no voxel reads.
-/

namespace Sys2Proof.Machine

open Sys2Proof

/-- A cell and a height within the map. -/
def LatticeRec.inMap (r : LatticeRec) (x y : Int) (z : Nat) : Prop :=
  0 ≤ x ∧ 0 ≤ y ∧ x < r.mapX ∧ y < r.mapY ∧ z < r.mapZ

/-- The byte at which a cell's column starts. -/
def LatticeRec.columnAt (r : LatticeRec) (x y : Int) : Nat := 16 * (y.toNat * r.mapX + x.toNat)

theorem occupied_of_inMap {r : LatticeRec} {x y : Int} {z : Nat} (h : r.inMap x y z) (m : Memory) :
    occupied r (some m) x y z = (Memory.read m (r.columnAt x y + z / 8)).getLsbD (z % 8) := by
  obtain ⟨hx, hy, hX, hY, hZ⟩ := h
  exact if_neg (by omega)

theorem occupied_of_not_inMap {r : LatticeRec} {x y : Int} {z : Nat} (h : ¬r.inMap x y z) (m : Option Memory) :
    occupied r m x y z = true :=
  if_pos (by unfold LatticeRec.inMap at h; omega)

/-- Settles O38: a voxel within the map by its byte and its bit; of the byte that MAP_Z falls into, only the bits below it
are voxels. -/
theorem voxelsAreWhereTheMapPutsThem : Obligations.VoxelsAreWhereTheMapPutsThem := by
  unfold Obligations.VoxelsAreWhereTheMapPutsThem
  refine ⟨fun r m x y z hx hy hz => ?_, fun r m x y z hout => ?_, fun r m x y z a b hm hx hy hX hY ha hlow => ?_,
    fun r hX hY => ?_⟩
  · exact occupied_of_inMap ⟨by omega, by omega, by omega, by omega, hz⟩ m
  · exact occupied_of_not_inMap (fun hin => by unfold LatticeRec.inMap at hin; omega) m
  · by_cases hz : z < r.mapZ
    · have hin : r.inMap x y z := ⟨hx, hy, hX, hY, hz⟩
      rw [occupied_of_inMap hin, occupied_of_inMap hin, Memory.read_write _ _ _ hm]
      by_cases hbyte : r.columnAt x y + z / 8 = a
      · have hsame : z / 8 = r.mapZ / 8 := by
          unfold LatticeRec.columnAt at hbyte
          omega
        rw [if_pos hbyte, hbyte]
        exact hlow _ (by omega)
      · rw [if_neg hbyte]
    · have hout : ¬r.inMap x y z := fun ⟨_, _, _, _, hlt⟩ => hz hlt
      rw [occupied_of_not_inMap hout, occupied_of_not_inMap hout]
  · rw [LatticeRec.mapBytes, hX, hY]

end Sys2Proof.Machine
end

section
/-!
PROOF. The machine as a whole: a step with a command in front, the outcome of a command, and its list of fields.
-/

namespace Sys2Proof.Machine

open Sys2Proof

/-- Settles O1. -/
theorem stepRunsTheFrontCommand : Obligations.StepRunsTheFrontCommand := by
  unfold Obligations.StepRunsTheFrontCommand
  intro s c rest h
  rw [step, h]

/-- Settles O3: every meaning answers a next state by its form, but that of VOLTAGE_TRIP, which asks first whether the
rail is beyond its absolute limit (R507). -/
theorem everyCommandRunsOrIsARailFault : Obligations.EveryCommandRunsOrIsARailFault := by
  unfold Obligations.EveryCommandRunsOrIsARailFault
  intro c s
  cases c with
  | voltageTrip rail mv =>
    by_cases hbeyond : railLimit rail < mv
    · exact .inr ⟨rail, mv, rfl, hbeyond, if_pos hbeyond⟩
    · exact .inl ⟨_, if_neg hbeyond⟩
  | _ => exact .inl ⟨_, rfl⟩

/-- Settles O5: each command by its own frame. -/
theorem commandsChangeOnlyTheirParts : Obligations.CommandsChangeOnlyTheirParts := by
  unfold Obligations.CommandsChangeOnlyTheirParts
  exact fun _ _ _ h => exec_only h

end Sys2Proof.Machine
end

section
/-!
PROOF. The Stylus laws in Q15 (R361 to R365): the clamps, one PID update by its integral and its output, and the error
that both laws act on.
-/

namespace Sys2Proof.Machine

open Sys2Proof

/-! ### Q15 -/

theorem clampInt_within {lo hi : Int} (h : lo ≤ hi) (x : Int) : lo ≤ clampInt lo hi x ∧ clampInt lo hi x ≤ hi := by
  unfold clampInt
  split
  · exact ⟨le_rfl, h⟩
  · split <;> omega

/-- A clamp that moves a value puts it at a bound. -/
theorem clampInt_of_ne {lo hi x : Int} (h : clampInt lo hi x ≠ x) : clampInt lo hi x = lo ∨ clampInt lo hi x = hi := by
  unfold clampInt at h ⊢
  split
  · exact .inl rfl
  · split
    · exact .inr rfl
    · simp_all

theorem toInt_toQ15 {x : Int} (hlo : -32768 ≤ x) (hhi : x ≤ 32767) : (toQ15 x).toInt = x := by
  rw [toQ15, BitVec.toInt_ofInt, Int.bmod_eq_of_le] <;> omega

theorem toQ15_toInt (b : BitVec 16) : toQ15 b.toInt = b := BitVec.ofInt_toInt

/-- A value between two Q15 numbers is one. -/
theorem toInt_toQ15_of_within {lo hi : BitVec 16} {x : Int} (hlo : lo.toInt ≤ x) (hhi : x ≤ hi.toInt) :
    (toQ15 x).toInt = x := by
  have hmin : -32768 ≤ lo.toInt := by simpa using BitVec.le_toInt lo
  have hmax : hi.toInt < 32768 := by simpa using BitVec.toInt_lt (x := hi)
  exact toInt_toQ15 (by omega) (by omega)

/-! ### One PID update (R363, R364) -/

/-- The exact sum of a PID update, in 31 fraction bits: the integral with its residue, and its growth. -/
def pidSum (c : List (BitVec 16)) (e : Int) (l : LawState) : Int :=
  l.i.toInt * 2 ^ 16 + l.res.toNat + (c.getD 1 0).toInt * e * 2

/-- The sum lies beyond I_MIN or I_MAX. -/
abbrev pidBeyond (c : List (BitVec 16)) (e : Int) (l : LawState) : Prop :=
  (c.getD 4 0).toInt < (pidSum c e l).fdiv (2 ^ 16) ∨ (pidSum c e l).fdiv (2 ^ 16) < (c.getD 5 0).toInt

/-- The output is a value clamped to U_MIN and U_MAX, and saturated where the clamp moves it. -/
theorem pidStep_out (c : List (BitVec 16)) (e : Int) (l : LawState) :
    ∃ x : Int, (pidStep c e l).out = toQ15 (clampInt (c.getD 7 0).toInt (c.getD 6 0).toInt x) ∧
      (pidStep c e l).outSat = decide (clampInt (c.getD 7 0).toInt (c.getD 6 0).toInt x ≠ x) :=
  ⟨_, rfl, rfl⟩

/-- The integral and its residue: held, clamped, or the exact sum; the first two are anti-windup actions (R364). -/
theorem pidStep_integral (c : List (BitVec 16)) (e : Int) (l : LawState) :
    ((pidStep c e l).law.i = l.i ∧ (pidStep c e l).law.res = 0 ∧ 0 < (pidStep c e l).iClamps) ∨
    ((pidStep c e l).law.i = toQ15 (clampInt (c.getD 5 0).toInt (c.getD 4 0).toInt ((pidSum c e l).fdiv (2 ^ 16))) ∧
      (pidStep c e l).law.res = 0 ∧ 0 < (pidStep c e l).iClamps) ∨
    ¬pidBeyond c e l ∧ (pidStep c e l).law.i = toQ15 ((pidSum c e l).fdiv (2 ^ 16)) ∧
      (pidStep c e l).law.res = BitVec.ofInt 16 ((pidSum c e l).fmod (2 ^ 16)) ∧ (pidStep c e l).iClamps = 0 := by
  obtain ⟨hold, _, hi, hres, hclamps⟩ : ∃ (hold : Prop) (_ : Decidable hold),
      (pidStep c e l).law.i = (if hold then l.i else toQ15 (if pidBeyond c e l then
        clampInt (c.getD 5 0).toInt (c.getD 4 0).toInt ((pidSum c e l).fdiv (2 ^ 16))
        else (pidSum c e l).fdiv (2 ^ 16))) ∧
      (pidStep c e l).law.res = (if hold then 0 else BitVec.ofInt 16 (if pidBeyond c e l then 0
        else (pidSum c e l).fmod (2 ^ 16))) ∧
      (pidStep c e l).iClamps = toBit (decide (pidBeyond c e l)) + toBit (decide hold) := ⟨_, _, rfl, rfl, rfl⟩
  rw [hi, hres, hclamps]
  by_cases hhold : hold
  · left
    simp [hhold, toBit]
  · right
    by_cases hbeyond : pidBeyond c e l
    · left
      rw [if_neg hhold, if_neg hhold, if_pos hbeyond, if_pos hbeyond, decide_eq_true hbeyond]
      exact ⟨rfl, rfl, Nat.lt_add_right _ Nat.one_pos⟩
    · right
      rw [if_neg hhold, if_neg hhold, if_neg hbeyond, if_neg hbeyond, decide_eq_false hbeyond, decide_eq_false hhold]
      exact ⟨hbeyond, rfl, rfl, rfl⟩

/-- Settles O41: the output by its clamp, the integral by the three ways that an update takes it. -/
theorem pidOutputsStayInTheirBounds : Obligations.PidOutputsStayInTheirBounds := by
  unfold Obligations.PidOutputsStayInTheirBounds
  rintro c e l r rfl
  obtain ⟨x, hout, hsat⟩ := pidStep_out c e l
  have hI {i : Int} (hi : (c.getD 5 0).toInt ≤ i ∧ i ≤ (c.getD 4 0).toInt) :
      (c.getD 5 0).toInt ≤ (toQ15 i).toInt ∧ (toQ15 i).toInt ≤ (c.getD 4 0).toInt := by
    rwa [toInt_toQ15_of_within hi.1 hi.2]
  refine ⟨fun hu => ?_, fun hi => ?_, fun h => ?_, fun h => ?_, fun h => ?_, rfl, rfl⟩
  · have hx := clampInt_within hu x
    rwa [hout, toInt_toQ15_of_within hx.1 hx.2]
  · obtain ⟨hheld, -, -⟩ | ⟨hclamped, -, -⟩ | ⟨hin, hsum, -, -⟩ := pidStep_integral c e l
    · exact .inl hheld
    · exact .inr (hclamped ▸ hI (clampInt_within hi _))
    · exact .inr (hsum ▸ hI (by omega))
  · rw [hsat] at h
    rw [hout]
    obtain hlo | hhi := clampInt_of_ne (of_decide_eq_true h)
    · exact .inr (by rw [hlo, toQ15_toInt])
    · exact .inl (by rw [hhi, toQ15_toInt])
  · obtain ⟨-, hres, -⟩ | ⟨-, hres, -⟩ | ⟨-, -, -, hnone⟩ := pidStep_integral c e l
    · exact hres
    · exact hres
    · omega
  · obtain ⟨-, -, hact⟩ | ⟨-, -, hact⟩ | ⟨hin, hsum, hres, -⟩ := pidStep_integral c e l
    · omega
    · omega
    · have hi : (toQ15 ((pidSum c e l).fdiv (2 ^ 16))).toInt = (pidSum c e l).fdiv (2 ^ 16) :=
        toInt_toQ15_of_within (lo := c.getD 5 0) (hi := c.getD 4 0) (by omega) (by omega)
      have hsplit : (pidSum c e l).fdiv (2 ^ 16) * 65536 + (pidSum c e l).fmod (2 ^ 16) = pidSum c e l :=
        Int.mul_comm .. ▸ Int.mul_fdiv_add_fmod (pidSum c e l) (2 ^ 16)
      have hmod : ((BitVec.ofInt 16 ((pidSum c e l).fmod (2 ^ 16))).toNat : Int) = (pidSum c e l).fmod (2 ^ 16) := by
        rw [BitVec.toNat_ofInt, Int.fmod_eq_emod_of_nonneg _ (by decide)]
        omega
      rw [hsum, hres, hi, hmod, hsplit]
      rfl

/-! ### The error (R362) -/

/-- Settles O42: the error by the clamp, and each law by its equation; the update reads nothing of a channel but its error,
its state and whether a gap ended. -/
theorem lawsActOnTheSaturatedError : Obligations.LawsActOnTheSaturatedError := by
  unfold Obligations.LawsActOnTheSaturatedError
  refine ⟨fun ref x => ⟨fun h => ?_, fun h => ?_, fun hlo hhi => ?_⟩, fun c y hk hc => ?_, fun c y hk hc => ?_,
    fun c x y he hl hk => ?_⟩
  · exact if_pos h
  · exact (if_neg (by omega)).trans (if_pos h)
  · exact (if_neg (by omega)).trans (if_neg (by omega))
  · simp [ChanEntry.update, hk, hc]
  · simp [ChanEntry.update, hk, hc]
  · unfold ChanEntry.update
    rw [he, hl, hk]

end Sys2Proof.Machine
end

section
/-!
PROOF. The guard and the engine-done edge of a group (R366 to R369, R372): what each leaves of one channel, and then of
a group whose channels are all different.
-/

namespace Sys2Proof.Machine

open Sys2Proof

/-! ### One channel -/

theorem State.styChannel_updStyChannel {s : State} {n : Nat} (f : StyChannel → StyChannel)
    (h : n < s.sty.channels.length) : (s.updStyChannel n f).styChannel n = f (s.styChannel n) :=
  getD_modify f h {}

theorem State.styChannel_updStyChannel_ne {n m : Nat} (h : n ≠ m) (f : StyChannel → StyChannel) (s : State) :
    (s.updStyChannel n f).styChannel m = s.styChannel m :=
  getD_modify_ne f s.sty.channels h {}

/-- What holds of a channel, and through a change of any channel, holds of it after the change. -/
theorem State.updStyChannel_keeps {P : StyChannel → Prop} {f : StyChannel → StyChannel} (hf : ∀ x, P x → P (f x))
    (n m : Nat) {s : State} (h : P (s.styChannel m)) : P ((s.updStyChannel n f).styChannel m) := by
  by_cases hnm : n = m
  · subst hnm
    by_cases hn : n < s.sty.channels.length
    · rw [State.styChannel_updStyChannel f hn]
      exact hf _ h
    · have hsame : s.sty.channels.modify n f = s.sty.channels :=
        List.modify_eq_self (Nat.le_of_not_lt hn)
      rw [State.styChannel, State.updStyChannel, State.updSty_sty, hsame]
      exact h
  · rwa [State.styChannel_updStyChannel_ne hnm]

theorem State.styGroup_updStyGroup {s : State} {g : Nat} (f : StyGroup → StyGroup) (h : g < s.sty.groups.length) :
    (s.updStyGroup g f).styGroup g = f (s.styGroup g) :=
  getD_modify f h {}

/-! ### The channels of a group in turn -/

theorem foldl_styChannel_of_notMem {f : State → ChanEntry → State} {inv : State → Prop} {k : Nat}
    (hinv : ∀ u d, inv u → inv (f u d))
    (hother : ∀ u d, inv u → d.channel ≠ k → (f u d).styChannel k = u.styChannel k) {cs : List ChanEntry}
    (hk : k ∉ cs.map (·.channel)) {s : State} (hs : inv s) : (cs.foldl f s).styChannel k = s.styChannel k := by
  induction cs generalizing s with
  | nil => rfl
  | cons d cs ih =>
    simp only [List.map_cons, List.mem_cons, not_or] at hk
    exact (ih hk.2 (hinv s d hs)).trans (hother s d hs (Ne.symm hk.1))

/-- Where the channels of a list are all different and each step changes its own, one of them is left by its own step,
from a state that has it as it was. -/
theorem foldl_styChannel {f : State → ChanEntry → State} {inv : State → Prop} {c : ChanEntry}
    (hinv : ∀ u d, inv u → inv (f u d))
    (hother : ∀ u d, inv u → d.channel ≠ c.channel → (f u d).styChannel c.channel = u.styChannel c.channel)
    {cs : List ChanEntry} (hnodup : (cs.map (·.channel)).Nodup) (hc : c ∈ cs) {s : State} (hs : inv s) :
    ∃ u, inv u ∧ u.styChannel c.channel = s.styChannel c.channel ∧
      (cs.foldl f s).styChannel c.channel = (f u c).styChannel c.channel := by
  induction cs generalizing s with
  | nil => exact absurd hc List.not_mem_nil
  | cons d cs ih =>
    obtain ⟨hd, hnodup⟩ := List.nodup_cons.1 hnodup
    rcases List.mem_cons.1 hc with rfl | hc
    · exact ⟨s, hs, rfl, foldl_styChannel_of_notMem hinv hother hd (hinv s c hs)⟩
    · have hne : d.channel ≠ c.channel := fun h => hd (List.mem_map.2 ⟨c, hc, h.symm⟩)
      obtain ⟨u, hu, hsame, hfold⟩ := ih hnodup hc (hinv s d hs)
      exact ⟨u, hu, hsame.trans (hother s d hs hne), hfold⟩

/-! ### The guard instant -/

/-- `u` has the frames of `s`, those that the groups latched, and as many channels. -/
structure State.SameFrames (s u : State) : Prop where
  ing : u.ing = s.ing
  latched : u.sty.groups.map (·.latched) = s.sty.groups.map (·.latched)
  channels : u.sty.channels.length = s.sty.channels.length

theorem State.SameFrames.trans {s u v : State} (h : s.SameFrames u) (k : u.SameFrames v) : s.SameFrames v :=
  ⟨k.ing.trans h.ing, k.latched.trans h.latched, k.channels.trans h.channels⟩

theorem State.SameFrames.groups {s u : State} (h : s.SameFrames u) : u.sty.groups.length = s.sty.groups.length := by
  simpa using congrArg List.length h.latched

/-- Fresh samples depend on the frames alone. -/
theorem State.SameFrames.freshSample_iff {s u : State} (h : s.SameFrames u) (o : Outline) (g : Nat) (c : ChanEntry)
    (v : LandedFrame) (i : Nat) : u.FreshSample o g c v i ↔ s.FreshSample o g c v i := by
  have hlatched : (u.styGroup g).latched = (s.styGroup g).latched := getD_of_map_eq h.latched g {}
  unfold State.FreshSample State.stream
  rw [h.ing, hlatched]

theorem State.sameFrames_updStyChannel (n : Nat) (f : StyChannel → StyChannel) (s : State) :
    s.SameFrames (s.updStyChannel n f) :=
  ⟨rfl, rfl, List.length_modify ..⟩

theorem State.sameFrames_updStyGroup {f : StyGroup → StyGroup} (hf : ∀ x, (f x).latched = x.latched) (g : Nat)
    (s : State) : s.SameFrames (s.updStyGroup g f) :=
  ⟨rfl, map_modify_same hf .., rfl⟩

theorem State.sameFrames_foldl {α : Type} {f : State → α → State} (hf : ∀ (u : State) a, u.SameFrames (f u a))
    (l : List α) (s : State) : s.SameFrames (l.foldl f s) :=
  List.foldlRecOn (motive := s.SameFrames) l f ⟨rfl, rfl, rfl⟩ fun u hu a _ => hu.trans (hf u a)

theorem State.sameFrames_foldl_updStyChannel (f : ChanEntry → StyChannel → StyChannel) (cs : List ChanEntry)
    (s : State) : s.SameFrames (cs.foldl (fun s c => s.updStyChannel c.channel (f c)) s) :=
  State.sameFrames_foldl (f := fun s c => State.updStyChannel c.channel (f c) s)
    (fun u _ => u.sameFrames_updStyChannel ..) cs s

theorem State.sameFrames_bindReference (o : Outline) (g : Nat) (s : State) : s.SameFrames (s.bindReference o g) := by
  unfold State.bindReference
  split
  · exact ⟨rfl, rfl, rfl⟩
  · split
    · exact ⟨rfl, rfl, rfl⟩
    · dsimp only
      split
      · split
        · exact ⟨rfl, rfl, rfl⟩
        · exact ⟨rfl, map_modify_same (fun _ => by rfl) .., rfl⟩
      · refine State.SameFrames.trans ?_ (State.sameFrames_foldl_updStyChannel _ _ _)
        exact ⟨rfl, (map_modify_same (fun _ => by rfl) ..).trans (map_modify_same (fun _ => by rfl) ..), rfl⟩

/-- A reference changes no more of a channel than its reference and whether it runs (R368). -/
theorem State.bindReference_missRun (o : Outline) (g k : Nat) (s : State) :
    ((s.bindReference o g).styChannel k).missRun = (s.styChannel k).missRun := by
  unfold State.bindReference
  split
  · rfl
  · split
    · rfl
    · dsimp only
      split
      · split <;> rfl
      · exact List.foldlRecOn (motive := fun u : State => (u.styChannel k).missRun = (s.styChannel k).missRun) _ _
          (by rfl) fun u hu c _ => State.updStyChannel_keeps (P := fun x => x.missRun = (s.styChannel k).missRun)
            (f := fun y => { y with
              run := if y.run = .waitRef then .running else y.run
              ref := _ }) (fun _ h => h) _ _ hu

/-- A channel that has missed a sample, the `n`-th in a row (R367). -/
def StyChannel.afterMiss (n : Nat) (y : StyChannel) : StyChannel :=
  { y with missRun := n, missed := true, fresh := false, run := if n = 3 then .fault else y.run }

theorem State.missSample_sty (c : ChanEntry) (s : State) : (s.missSample c).sty =
    (s.updStyChannel c.channel (StyChannel.afterMiss ((s.styChannel c.channel).missRun + 1))).sty := by
  unfold State.missSample
  dsimp only
  split <;> rfl

theorem State.latchSample_of_fresh {s : State} {o : Outline} {g : Nat} {c : ChanEntry} {v : LandedFrame} {i : Nat}
    (h : s.FreshSample o g c v i) : s.latchSample o g c = s.updStyChannel c.channel
      (StyChannel.freshSample (BitVec.ofNat 16 (beNat ((v.payload.drop (2 * i)).take 2))) (s.styGroup g).hasRef) := by
  obtain ⟨hv, hnew, hrepeat, rfl, hlen⟩ := h
  unfold State.latchSample
  rw [hv]
  exact if_pos ⟨hnew, by simp [hrepeat], hlen⟩

theorem State.latchSample_of_missed {s : State} {o : Outline} {g : Nat} {c : ChanEntry}
    (h : ∀ v i, ¬s.FreshSample o g c v i) : s.latchSample o g c = s.missSample c := by
  unfold State.latchSample
  dsimp only
  split
  · rfl
  next v hv => exact if_neg fun ⟨hnew, hrepeat, hlen⟩ => h v _ ⟨hv, hnew, by simpa using hrepeat, rfl, hlen⟩

/-- A latch changes its own channel alone. -/
theorem State.latchSample_sty (o : Outline) (g : Nat) (c : ChanEntry) (s : State) :
    ∃ f, (s.latchSample o g c).sty = (s.updStyChannel c.channel f).sty := by
  by_cases h : ∃ v i, s.FreshSample o g c v i
  · obtain ⟨v, i, h⟩ := h
    exact ⟨_, congrArg State.sty (State.latchSample_of_fresh h)⟩
  · rw [State.latchSample_of_missed fun v i hf => h ⟨v, i, hf⟩]
    exact ⟨_, s.missSample_sty c⟩

theorem State.sameFrames_latchSample (o : Outline) (g : Nat) (c : ChanEntry) (s : State) :
    s.SameFrames (s.latchSample o g c) := by
  obtain ⟨f, hsty⟩ := s.latchSample_sty o g c
  have h := s.sameFrames_updStyChannel c.channel f
  exact ⟨(State.latchSample_same .ing (by decide) o g c s s).2 rfl, hsty ▸ h.latched, hsty ▸ h.channels⟩

theorem State.styChannel_latchSample_ne {c : ChanEntry} {k : Nat} (h : c.channel ≠ k) (o : Outline) (g : Nat)
    (s : State) : (s.latchSample o g c).styChannel k = s.styChannel k := by
  obtain ⟨f, hsty⟩ := s.latchSample_sty o g c
  exact (congrArg (fun y : Sty => y.channels.getD k {}) hsty).trans (State.styChannel_updStyChannel_ne h f s)

/-- The channels of a group after its guard. -/
def State.guarded (s : State) (o : Outline) (g : Nat) : State :=
  (o.sortedGroup g).foldl (fun s c => s.latchSample o g c) (s.bindReference o g)

theorem State.sameFrames_guarded (s : State) (o : Outline) (g : Nat) : s.SameFrames (s.guarded o g) :=
  (s.sameFrames_bindReference o g).trans (State.sameFrames_foldl (fun u c => u.sameFrames_latchSample o g c) _ _)

/-- What a guard latches of one channel is what its own latch makes of it, from a state with the frames of the guard. -/
theorem State.styChannel_guarded {s : State} {o : Outline} {g : Nat} {c : ChanEntry}
    (hnodup : ((o.sortedGroup g).map (·.channel)).Nodup) (hc : c ∈ o.sortedGroup g) :
    ∃ u, s.SameFrames u ∧ (u.styChannel c.channel).missRun = (s.styChannel c.channel).missRun ∧
      (s.guarded o g).styChannel c.channel = (u.latchSample o g c).styChannel c.channel := by
  obtain ⟨u, hu, hsame, hfold⟩ := foldl_styChannel (f := fun s c => s.latchSample o g c) (inv := s.SameFrames)
    (fun u d hu => hu.trans (u.sameFrames_latchSample o g d))
    (fun u d _ hd => u.styChannel_latchSample_ne hd o g) hnodup hc (s.sameFrames_bindReference o g)
  exact ⟨u, hu, hsame ▸ s.bindReference_missRun o g c.channel, hfold⟩

theorem State.styChannel_guarded_of_fresh {s : State} {o : Outline} {g : Nat} {c : ChanEntry} {v : LandedFrame}
    {i : Nat} (hnodup : ((o.sortedGroup g).map (·.channel)).Nodup) (hc : c ∈ o.sortedGroup g)
    (hlt : c.channel < s.sty.channels.length) (h : s.FreshSample o g c v i) :
    ∃ x hasRef, (s.guarded o g).styChannel c.channel =
      StyChannel.freshSample (BitVec.ofNat 16 (beNat ((v.payload.drop (2 * i)).take 2))) hasRef x := by
  obtain ⟨u, hu, -, hguarded⟩ := s.styChannel_guarded hnodup hc
  rw [State.latchSample_of_fresh ((hu.freshSample_iff o g c v i).2 h),
    State.styChannel_updStyChannel _ (hu.channels ▸ hlt)] at hguarded
  exact ⟨_, _, hguarded⟩

theorem State.styChannel_guarded_of_missed {s : State} {o : Outline} {g : Nat} {c : ChanEntry}
    (hnodup : ((o.sortedGroup g).map (·.channel)).Nodup) (hc : c ∈ o.sortedGroup g)
    (hlt : c.channel < s.sty.channels.length) (h : ∀ v i, ¬s.FreshSample o g c v i) :
    ∃ x, (s.guarded o g).styChannel c.channel = StyChannel.afterMiss ((s.styChannel c.channel).missRun + 1) x := by
  obtain ⟨u, hu, hrun, hguarded⟩ := s.styChannel_guarded hnodup hc
  have hmiss : (u.missSample c).styChannel c.channel = (u.updStyChannel c.channel
      (StyChannel.afterMiss ((u.styChannel c.channel).missRun + 1))).styChannel c.channel :=
    congrArg (fun y : Sty => y.channels.getD c.channel {}) (u.missSample_sty c)
  rw [State.latchSample_of_missed fun v i hf => h v i ((hu.freshSample_iff o g c v i).1 hf), hmiss, hrun,
    State.styChannel_updStyChannel _ (hu.channels ▸ hlt)] at hguarded
  exact ⟨_, hguarded⟩

/-- A guard instant that has come, once for its firing (R367). -/
theorem exec_stylusGuard_of_due {s : State} {g : Fin 16} {k : Nat} (hnext : s.nextStylus g.val = some k)
    (hdue : k ≤ tickOf s.now + 800) (honce : (s.styGroup g).guardTick ≠ some k) (hon : s.stylusOn = true) :
    ∃ latched, exec (.stylusGuard g) s = .next ((s.guarded (s.outlineAt k) g).updStyGroup g fun x =>
      { x with guardTick := some k, latched := latched }) := by
  rw [show exec (.stylusGuard g) s = execStylusGuard g s from rfl, execStylusGuard, hnext]
  exact ⟨_, congrArg Host.Outcome.next (if_neg (by simp [honce, hon]; omega))⟩

/-! ### The engine-done edge -/

/-- `u` has the engines and groups of `s`, what assigns them, and as many channels. -/
structure State.SameEngines (s u : State) : Prop where
  otl : u.otl = s.otl
  edge : u.edge = s.edge
  engines : u.sty.engines = s.sty.engines
  lanes : u.sty.lanes = s.sty.lanes
  groups : u.sty.groups = s.sty.groups
  channels : u.sty.channels.length = s.sty.channels.length

theorem State.SameEngines.engineOf {s u : State} (h : s.SameEngines u) (k : Nat) : u.engineOf k = s.engineOf k := by
  unfold State.engineOf
  rw [h.otl, h.edge, h.engines, h.lanes]

theorem State.SameEngines.updStyChannel {s u : State} (h : s.SameEngines u) (n : Nat) (f : StyChannel → StyChannel) :
    s.SameEngines (u.updStyChannel n f) :=
  ⟨h.otl, h.edge, h.engines, h.lanes, h.groups, (List.length_modify ..).trans h.channels⟩

theorem State.SameEngines.channelDone {s u : State} (h : s.SameEngines u) (fault : BitVec 5) (c : ChanEntry) :
    s.SameEngines (u.channelDone fault c) := by
  unfold State.channelDone
  split
  · exact h
  · split <;> exact h.updStyChannel ..

theorem State.styChannel_channelDone_ne {c : ChanEntry} {k : Nat} (h : c.channel ≠ k) (fault : BitVec 5) (s : State) :
    (s.channelDone fault c).styChannel k = s.styChannel k := by
  unfold State.channelDone
  split
  · rfl
  · split <;> exact State.styChannel_updStyChannel_ne h _ s

/-- What is left of a channel whose engine computed `x`, without or with a residue mismatch (R369, R372). -/
structure StyChannel.Done (bad : Bool) (old : StyChannel) (x : LawState × BitVec 16) (y : StyChannel) : Prop where
  law : y.law = if bad then old.law else x.1
  computed : y.computed = if bad then old.computed else x.2
  ready : y.ready = !bad
  shadow : y.shadow = none

theorem State.styChannel_channelDone {s : State} {fault : BitVec 5} {c : ChanEntry} {n : Nat}
    {x : LawState × BitVec 16} (hengine : s.engineOf c.channel = some n)
    (hshadow : (s.styChannel c.channel).shadow = some x) (hlt : c.channel < s.sty.channels.length) :
    StyChannel.Done (fault.getLsbD n) (s.styChannel c.channel) x ((s.channelDone fault c).styChannel c.channel) := by
  unfold State.channelDone
  rw [hengine]
  dsimp only
  split
  next hbad =>
    rw [State.styChannel_updStyChannel _ hlt, hbad]
    exact ⟨rfl, rfl, rfl, rfl⟩
  next hgood =>
    rw [State.styChannel_updStyChannel _ hlt, hshadow, Bool.eq_false_iff.2 hgood]
    exact ⟨rfl, rfl, rfl, rfl⟩

theorem StyChannel.Done.of_fault {bad : Bool} {old : StyChannel} {x : LawState × BitVec 16} {y : StyChannel}
    (h : StyChannel.Done bad old x y) (run : ChanRun) (stuck : Bool) :
    StyChannel.Done bad old x { y with run := run, stuck := stuck } :=
  ⟨h.law, h.computed, h.ready, h.shadow⟩

theorem State.dropUnfinished_done {bad : Bool} {old : StyChannel} {x : LawState × BitVec 16} {k : Nat} (serves : Nat)
    {s : State} (h : StyChannel.Done bad old x (s.styChannel k)) :
    StyChannel.Done bad old x ((s.dropUnfinished serves).styChannel k) :=
  List.foldlRecOn (motive := fun u : State => StyChannel.Done bad old x (u.styChannel k)) _ _ h fun _ hu _ _ =>
    State.updStyChannel_keeps (fun _ hy => ⟨hy.law, hy.computed, hy.ready, rfl⟩) _ _ hu

/-! ### Engines that retire (R372) -/

/-- Engine `n`. -/
def State.engine (s : State) (n : Nat) : StyEngine := s.sty.engines.getD n {}

/-- An engine that has left service. -/
def StyEngine.retire (x : StyEngine) : StyEngine := { x with state := .retired, serves := 7 }

/-- Engine `m` has left, and what it had not finished has no result. -/
def State.engineLeft (m : Nat) (s : State) : State :=
  (s.dropUnfinished (s.engine m).serves).updSty fun y => { y with engines := y.engines.modify m StyEngine.retire }

/-- The channels that no engine serves. -/
def State.stickChannels (cs : List ChanEntry) (s : State) : State :=
  cs.foldl (fun s c => s.updStyChannel c.channel fun y => { y with run := .fault, stuck := true }) s

/-- What a retirement leaves of the engines, groups and channels: all as it was if the engine was out of service, or it
leaves, and the spare, if there is one, takes its channels, or they are stuck. -/
theorem State.retireEngine_sty (m : Nat) (s : State) :
    ((s.engine m).state = .retired ∨ (s.engine m).state = .off) ∧ (s.retireEngine m).sty = s.sty ∨
    (s.retireEngine m).sty = (s.engineLeft m).sty ∨
    (∃ sp f, (s.engine sp).state = .spare ∧ (s.retireEngine m).sty =
      { (s.engineLeft m).sty with engines := (s.engineLeft m).sty.engines.modify sp f }) ∨
    ∃ cs, ∃ u : State, u.sty = (s.engineLeft m).sty ∧ (s.retireEngine m).sty = (u.stickChannels cs).sty := by
  unfold State.retireEngine
  dsimp only
  split
  next hout => exact .inl ⟨hout, rfl⟩
  · right
    split
    · exact .inl (State.report_sty ..)
    · right
      split
      next sp hsp =>
        obtain ⟨hlt, hspare, -⟩ := List.findIdx?_eq_some_iff_getElem.1 hsp
        exact .inl ⟨sp, _, by simpa [State.engine, hlt] using hspare,
          by simp only [State.bump_sty, State.report_sty]; rfl⟩
      · refine .inr ⟨_, _, ?_, ((State.checkDegraded_same .sty (by decide) _ _).2 rfl).trans (State.report_sty ..)⟩
        rfl

theorem State.stickChannels_done {bad : Bool} {old : StyChannel} {x : LawState × BitVec 16} {k : Nat}
    (cs : List ChanEntry) {s : State} (h : StyChannel.Done bad old x (s.styChannel k)) :
    StyChannel.Done bad old x ((s.stickChannels cs).styChannel k) :=
  List.foldlRecOn (motive := fun u : State => StyChannel.Done bad old x (u.styChannel k)) _ _ h fun _ hu _ _ =>
    State.updStyChannel_keeps (fun _ hy => hy.of_fault _ _) _ _ hu

/-- An engine that retires takes no result back. -/
theorem State.retireEngine_done {bad : Bool} {old : StyChannel} {x : LawState × BitVec 16} {k : Nat} (m : Nat)
    {s : State} (h : StyChannel.Done bad old x (s.styChannel k)) :
    StyChannel.Done bad old x ((s.retireEngine m).styChannel k) := by
  have hleft : StyChannel.Done bad old x ((s.engineLeft m).styChannel k) := State.dropUnfinished_done _ h
  have hof {u v : State} (huv : u.sty.channels = v.sty.channels) (hv : StyChannel.Done bad old x (v.styChannel k)) :
      StyChannel.Done bad old x (u.styChannel k) := by rwa [State.styChannel, huv]
  obtain ⟨-, heq⟩ | heq | ⟨sp, f, -, heq⟩ | ⟨cs, u, hu, heq⟩ := s.retireEngine_sty m
  · exact hof (congrArg Sty.channels heq) h
  · exact hof (congrArg Sty.channels heq) hleft
  · exact hof (v := s.engineLeft m) (by rw [heq]) hleft
  · exact hof (congrArg Sty.channels heq) (State.stickChannels_done cs (hof (congrArg Sty.channels hu) hleft))

theorem State.foldl_updStyChannel_engines (f : ChanEntry → StyChannel → StyChannel) (cs : List ChanEntry) (s : State) :
    (cs.foldl (fun s c => s.updStyChannel c.channel (f c)) s).sty.engines = s.sty.engines :=
  foldl_eq_of_step (f := fun s c => State.updStyChannel c.channel (f c) s) (g := fun u : State => u.sty.engines)
    (fun _ _ => rfl) cs s

theorem State.foldl_updStyChannel_groups (f : ChanEntry → StyChannel → StyChannel) (cs : List ChanEntry) (s : State) :
    (cs.foldl (fun s c => s.updStyChannel c.channel (f c)) s).sty.groups = s.sty.groups :=
  foldl_eq_of_step (f := fun s c => State.updStyChannel c.channel (f c) s) (g := fun u : State => u.sty.groups)
    (fun _ _ => rfl) cs s

theorem State.engineLeft_engines (m : Nat) (s : State) :
    (s.engineLeft m).sty.engines = s.sty.engines.modify m StyEngine.retire :=
  congrArg (List.modify · m StyEngine.retire) (State.foldl_updStyChannel_engines _ _ s)

theorem State.engineLeft_groups (m : Nat) (s : State) : (s.engineLeft m).sty.groups = s.sty.groups :=
  State.foldl_updStyChannel_groups _ _ s

theorem State.stickChannels_engines (cs : List ChanEntry) (s : State) :
    (s.stickChannels cs).sty.engines = s.sty.engines :=
  State.foldl_updStyChannel_engines _ cs s

theorem State.stickChannels_groups (cs : List ChanEntry) (s : State) :
    (s.stickChannels cs).sty.groups = s.sty.groups :=
  State.foldl_updStyChannel_groups _ cs s

theorem State.retireEngine_groups (m : Nat) (s : State) : (s.retireEngine m).sty.groups = s.sty.groups := by
  obtain ⟨-, heq⟩ | heq | ⟨sp, f, -, heq⟩ | ⟨cs, u, hu, heq⟩ := s.retireEngine_sty m
  · rw [heq]
  · rw [heq, State.engineLeft_groups]
  · rw [heq, State.engineLeft_groups]
  · rw [heq, State.stickChannels_groups, hu, State.engineLeft_groups]

/-- What a retirement does to the engines. -/
theorem State.retireEngine_engines (m : Nat) (s : State) :
    ((s.engine m).state = .retired ∨ (s.engine m).state = .off) ∧ (s.retireEngine m).sty.engines = s.sty.engines ∨
    (s.retireEngine m).sty.engines = s.sty.engines.modify m StyEngine.retire ∨
    ∃ sp f, (s.engine sp).state = .spare ∧
      (s.retireEngine m).sty.engines = (s.sty.engines.modify m StyEngine.retire).modify sp f := by
  obtain ⟨hout, heq⟩ | heq | ⟨sp, f, hspare, heq⟩ | ⟨cs, u, hu, heq⟩ := s.retireEngine_sty m
  · exact .inl ⟨hout, by rw [heq]⟩
  · exact .inr (.inl (by rw [heq, State.engineLeft_engines]))
  · exact .inr (.inr ⟨sp, f, hspare, by rw [heq, State.engineLeft_engines]⟩)
  · exact .inr (.inl (by rw [heq, State.stickChannels_engines, hu, State.engineLeft_engines]))

/-- Engine `n` is in service or retired. -/
def State.engineServed (s : State) (n : Nat) : Prop :=
  n < s.sty.engines.length ∧ ((s.engine n).state = .active ∨ (s.engine n).state = .retired)

/-- An engine in service or retired stays so while any engine retires; once its turn has come it is retired (R372). -/
theorem State.engineServed_retireEngine {s : State} {n : Nat} (m : Nat) (h : s.engineServed n) :
    (s.retireEngine m).engineServed n ∧
      ((s.engine n).state = .retired ∨ m = n → ((s.retireEngine m).engine n).state = .retired) := by
  obtain ⟨hlt, hstate⟩ := h
  have hretire : ((s.sty.engines.modify m StyEngine.retire).getD n {}).state =
      if m = n then .retired else (s.engine n).state := by
    split
    next hmn => rw [hmn, getD_modify _ hlt]; rfl
    next hmn => rw [getD_modify_ne _ _ hmn]; rfl
  unfold State.engineServed
  obtain ⟨hout, heq⟩ | heq | ⟨sp, f, hspare, heq⟩ := s.retireEngine_engines m
  · rw [State.engine, heq]
    refine ⟨⟨hlt, hstate⟩, ?_⟩
    rintro (hr | rfl)
    · exact hr
    · exact hout.elim id fun hoff => by simp [hoff] at hstate
  · rw [State.engine, heq, hretire, List.length_modify]
    split
    · exact ⟨⟨hlt, .inr rfl⟩, fun _ => rfl⟩
    next hmn => exact ⟨⟨hlt, hstate⟩, fun h => h.resolve_right hmn⟩
  · have hne : sp ≠ n := by
      rintro rfl
      simp [hspare] at hstate
    rw [State.engine, heq, getD_modify_ne _ _ hne, hretire, List.length_modify, List.length_modify]
    split
    · exact ⟨⟨hlt, .inr rfl⟩, fun _ => rfl⟩
    next hmn => exact ⟨⟨hlt, hstate⟩, fun h => h.resolve_right hmn⟩

theorem State.foldl_retireEngine_retired {l : List Nat} {s : State} {n : Nat} (h : s.engineServed n)
    (hr : (s.engine n).state = .retired) : ((l.foldl (fun s m => s.retireEngine m) s).engine n).state = .retired := by
  induction l generalizing s with
  | nil => exact hr
  | cons m l ih => exact ih (s.engineServed_retireEngine m h).1 ((s.engineServed_retireEngine m h).2 (.inl hr))

/-- Every engine of a list of engines in service or retired is retired when all have left (R372). -/
theorem State.foldl_retireEngine_of_mem {l : List Nat} {s : State} {n : Nat} (h : s.engineServed n) (hn : n ∈ l) :
    ((l.foldl (fun s m => s.retireEngine m) s).engine n).state = .retired := by
  induction l generalizing s with
  | nil => exact absurd hn List.not_mem_nil
  | cons m l ih =>
    obtain ⟨hserved, hturn⟩ := s.engineServed_retireEngine m h
    rcases List.mem_cons.1 hn with heq | hn
    · exact State.foldl_retireEngine_retired (l := l) hserved (hturn (.inr heq.symm))
    · exact ih hserved hn

/-- The engine of a channel is in service. -/
theorem State.engineServed_of_engineOf {s : State} {k n : Nat} (h : s.engineOf k = some n) : s.engineServed n := by
  unfold State.engineOf at h
  split at h
  · cases h
  · obtain ⟨hlt, hactive, -⟩ := List.findIdx?_eq_some_iff_getElem.1 h
    simp only [Bool.and_eq_true, decide_eq_true_eq] at hactive
    exact ⟨hlt, .inl (by simp [State.engine, hlt, hactive.1.1])⟩

/-- The group after its engine-done edge, but for the engines that then retire. -/
def State.delivering (s : State) (g : Nat) (fault : BitVec 5) : State :=
  ((s.otl.running.sortedGroup g).foldl (fun s c => s.channelDone fault c) s).updStyGroup g fun y =>
    { y with delivered := true }

/-- The engines of a group whose residue codes mismatch. -/
def State.faultyEngines (s : State) (g : Nat) (fault : BitVec 5) : List Nat :=
  (List.range 5).filter fun n => fault.getLsbD n && (s.otl.running.sortedGroup g).any fun c =>
    s.engineOf c.channel = some n

theorem exec_stylusEngineDone_of_due {s : State} {g : Fin 16} (fault : BitVec 5) (hdue : s.engineDue g.val = true) :
    exec (.stylusEngineDone g fault) s =
      .next ((s.faultyEngines g fault).foldl (fun s n => s.retireEngine n) (s.delivering g fault)) :=
  congrArg Host.Outcome.next (if_neg (by simp [hdue]))

theorem State.styGroup_delivering {s : State} {g : Nat} (hg : g < s.sty.groups.length) (fault : BitVec 5) :
    ((s.delivering g fault).styGroup g).delivered = true := by
  have hfold : s.SameEngines ((s.otl.running.sortedGroup g).foldl (fun s c => s.channelDone fault c) s) :=
    List.foldlRecOn _ _ ⟨rfl, rfl, rfl, rfl, rfl, rfl⟩ fun u hu c _ => hu.channelDone fault c
  exact congrArg StyGroup.delivered (getD_modify _ (hfold.groups ▸ hg) {})

theorem State.engineServed_delivering {s : State} {g n : Nat} (h : s.engineServed n) (fault : BitVec 5) :
    (s.delivering g fault).engineServed n := by
  have hfold : s.SameEngines ((s.otl.running.sortedGroup g).foldl (fun s c => s.channelDone fault c) s) :=
    List.foldlRecOn _ _ ⟨rfl, rfl, rfl, rfl, rfl, rfl⟩ fun u hu c _ => hu.channelDone fault c
  have hengines : (s.delivering g fault).sty.engines = s.sty.engines := hfold.engines
  unfold State.engineServed State.engine at h ⊢
  rwa [hengines]

theorem State.styChannel_delivering {s : State} {g : Nat} {c : ChanEntry} {fault : BitVec 5} {n : Nat}
    {x : LawState × BitVec 16} (hnodup : ((s.otl.running.sortedGroup g).map (·.channel)).Nodup)
    (hc : c ∈ s.otl.running.sortedGroup g) (hlt : c.channel < s.sty.channels.length)
    (hengine : s.engineOf c.channel = some n) (hshadow : (s.styChannel c.channel).shadow = some x) :
    StyChannel.Done (fault.getLsbD n) (s.styChannel c.channel) x ((s.delivering g fault).styChannel c.channel) := by
  obtain ⟨u, hu, hsame, hfold⟩ := foldl_styChannel (f := fun s c => s.channelDone fault c) (inv := s.SameEngines)
    (fun u d hu => hu.channelDone fault d) (fun u d _ hd => u.styChannel_channelDone_ne hd fault) hnodup hc
    ⟨rfl, rfl, rfl, rfl, rfl, rfl⟩
  rw [show (s.delivering g fault).styChannel c.channel = _ from hfold, ← hsame]
  exact State.styChannel_channelDone ((hu.engineOf _).trans hengine) (hsame ▸ hshadow) (hu.channels ▸ hlt)

/-- Settles O39: the guard by what it latches of each channel, the engine-done edge by what it and the engines that retire
leave of each. -/
theorem guardsLatchAndEnginesDeliver : Obligations.GuardsLatchAndEnginesDeliver := by
  unfold Obligations.GuardsLatchAndEnginesDeliver
  refine ⟨fun s g k o hnext hdue honce hon ho hg hnodup hlt => ?_,
    fun s g fault hfiring hdelivered hskip hdue hg hnodup hlt => ?_⟩
  · subst ho
    obtain ⟨latched, hexec⟩ := exec_stylusGuard_of_due hnext hdue honce hon
    have hframes := s.sameFrames_guarded (s.outlineAt k) g
    refine ⟨_, hexec, (exec_only hexec).mono (by simp [mayChange]),
      congrArg StyGroup.guardTick (State.styGroup_updStyGroup _ (hframes.groups ▸ hg)), fun c hc =>
        ⟨fun v i hfresh => ?_, fun hmissed => ?_⟩⟩
    · obtain ⟨x, hasRef, hx⟩ := State.styChannel_guarded_of_fresh hnodup hc (hlt c hc) hfresh
      refine ⟨congrArg StyChannel.sample hx, congrArg StyChannel.fresh hx, congrArg StyChannel.missed hx,
        congrArg StyChannel.missRun hx⟩
    · obtain ⟨x, hx⟩ := State.styChannel_guarded_of_missed hnodup hc (hlt c hc) hmissed
      exact ⟨congrArg StyChannel.missed hx, congrArg StyChannel.missRun hx, fun hthird =>
        (congrArg StyChannel.run hx).trans (if_pos (by rw [hthird]))⟩
  · have hdone : s.engineDue g.val = true := by
      simp [State.engineDue, hfiring, hdelivered, hskip, hdue]
    refine ⟨_, exec_stylusEngineDone_of_due fault hdone, ?_, fun c hc n x hengine hshadow => ?_⟩
    · have hgroups := foldl_eq_of_step (g := fun u : State => u.sty.groups) (fun u n => u.retireEngine_groups n)
        (s.faultyEngines g fault) (s.delivering g fault)
      rw [State.styGroup, hgroups]
      exact State.styGroup_delivering hg fault
    · have hresult : StyChannel.Done (fault.getLsbD n) (s.styChannel c.channel) x _ :=
        List.foldlRecOn (motive := fun u : State => StyChannel.Done (fault.getLsbD n) (s.styChannel c.channel) x
          (u.styChannel c.channel)) (s.faultyEngines g fault) (fun s n => s.retireEngine n)
          (State.styChannel_delivering hnodup hc (hlt c hc) hengine hshadow) fun u hu m _ => u.retireEngine_done m hu
      refine ⟨fun hgood => ?_, fun hbad => ?_⟩
      · rw [hgood] at hresult
        exact ⟨hresult.law, hresult.computed, hresult.ready, hresult.shadow⟩
      · have hmem (hn : n < 5) : n ∈ s.faultyEngines g fault :=
          List.mem_filter.2 ⟨List.mem_range.2 hn, by simpa [hbad] using ⟨c, hc, hengine⟩⟩
        rw [hbad] at hresult
        have hserved := State.engineServed_delivering (g := g) (State.engineServed_of_engineOf hengine) fault
        exact ⟨hresult.law, hresult.computed, hresult.ready, hresult.shadow, fun _ hn =>
          State.foldl_retireEngine_of_mem hserved (hmem hn)⟩

end Sys2Proof.Machine
end

section
/-!
PROOF. The output frame of a group whose stream carries an R-TAG (R380, R385).
-/

namespace Sys2Proof.Machine

open Sys2Proof

/-- A firing of group 0, whose one channel goes to stream 0, is to be formed at local time 1 s; the network table asks for
an R-TAG in the frames of the stream. -/
def taggedOutput : State :=
  { State.reset with
    tb := { time := { sec := 1 } }
    otl := { running := { channels := [{}] } }
    sty := { groups := [{ firing := true }] }
    eth := { table := { entries := [(0, { rtag := true })] } } }

/-- Its frame has 22 bytes, 6 of them the R-TAG. -/
theorem exec_outputFrameForm_tagged : ∃ t, exec (.outputFrameForm 0) taggedOutput = .next t ∧
    (t.ethPort .ringA).txq.map (·.bytes.length) = [22] :=
  ⟨_, rfl, by decide +kernel⟩

/-- Refutes O40: on `taggedOutput` the frame carries an R-TAG behind its first 16 bytes (R385), where the statement, which
rules out a FRER record alone, has the 16 bytes of template, apply-at time, sequence number and one output. -/
theorem not_outputFramesAreFormed : ¬ Obligations.OutputFramesAreFormed := by
  unfold Obligations.OutputFramesAreFormed
  intro h
  obtain ⟨t, f, hexec, -, -, htxq, hbytes, -⟩ := h taggedOutput 0 0 [{}] .ringA (5000 * unitsEdge) (5000 * unitsEdge)
    rfl (by decide) (by decide) (by decide) (by decide) (by decide +kernel) (by decide) (by decide) (by decide) (by decide)
    (by decide) (by decide) (by decide)
  obtain ⟨u, hu, hlen⟩ := exec_outputFrameForm_tagged
  rw [Host.Outcome.next.inj (hu.symm.trans hexec), htxq] at hlen
  have htagged : f.bytes.length = 22 := List.cons.inj hlen |>.1
  rw [hbytes] at htagged
  revert htagged
  decide +kernel

end Sys2Proof.Machine
end

section
/-!
PROOF. The lock bits in a register write (R399, R489): a frame of more than 64 words writes nothing.
-/

namespace Sys2Proof.Machine

open Sys2Proof

/-- A write of more than 64 words is refused with BAD_FORMAT (R399). -/
theorem exec_regWrite_of_long {s : State} {i : Fin 16} {ws : List Word} (tag a : Word)
    (hopen : (s.session i).open_ = true) (hpart : (s.session i).part = none) (hlen : 64 < ws.length) :
    exec (.regWrite i tag a ws) s = .next (State.sendTo i (.regAck tag 0x16 0) (s.delivered i)) := by
  rw [show exec (.regWrite i tag a ws) s = execRegWrite i tag a ws s from rfl, execRegWrite, State.request]
  simp [hopen, hpart, hlen]

/-- An open device session, number 0. -/
def deviceSession : State := { State.reset with eth := { sessions := [{ open_ := true }] } }

/-- Refutes O8: on `deviceSession` a frame of 65 words from TB_LOCK on is refused (R399), so the lock bit stays 0, where the
clause on one REG_WRITE frame, for any number of words behind the first, has it set. -/
theorem not_lockBitsFreezeTheirRegisters : ¬ Obligations.LockBitsFreezeTheirRegisters := by
  unfold Obligations.LockBitsFreezeTheirRegisters
  rintro ⟨-, -, -, -, -, -, -, hframe, -⟩
  have hlocked := (hframe deviceSession _ 0 0 1 (List.replicate 64 0) rfl rfl (by decide) (by decide)).1
    (exec_regWrite_of_long 0 0x1006C rfl rfl (by decide))
  have hregs : ((deviceSession.delivered 0).sendTo 0 (.regAck 0 0x16 0)).regs = {} :=
    (State.sendTo_same .regs (by decide) _ _ _ deviceSession).2
      ((State.delivered_same .regs (by decide) _ _ deviceSession).2 rfl)
  have hset := hlocked.tbLock
  rw [show (((deviceSession.delivered (0 : Fin 16)).sendTo (0 : Fin 16) (.regAck 0 0x16 0)).regs) = {} from hregs] at hset
  exact absurd hset (by decide)

end Sys2Proof.Machine
end

section
/-!
PROOF. Register access (R399, R482 to R490): one word read or written in a session, the refusals, and the registers that
a device session writes.
-/

namespace Sys2Proof.Machine

open Sys2Proof

/-! ### Requests and words -/

/-- A request in an open session acts on the state with its frame delivered (R395). -/
theorem State.request_of_open {i : Nat} {s : State} (h : (s.session i).open_ = true) (go : Session → State → State) :
    s.request i go = go (s.session i) (s.delivered i) :=
  if_pos h

/-- A read in an open session, of 1 to 64 words. -/
theorem exec_regRead_of_open {s : State} {i : Fin 16} (tag a : Word) {n : Nat} (hopen : (s.session i).open_ = true)
    (hlo : 1 ≤ n) (hhi : n ≤ 64) :
    exec (.regRead i tag a n) s =
      let r := (s.delivered i).readWords (s.session i).part n a.toNat
      .next (State.sendTo i (.regData tag (if r.2.1 then 0 else 0x11) r.1) r.2.2) := by
  rw [show exec (.regRead i tag a n) s = execRegRead i tag a n s from rfl, execRegRead, State.request_of_open hopen,
    if_neg (by omega)]

theorem State.readWords_one {viewer : Option Nat} {a : Nat} {s : State} {w : Word}
    (h : s.readWord viewer a = some w) : s.readWords viewer 1 a = ([w], true, s.readEffect a) := by
  simp [State.readWords, h]

theorem State.readWords_of_unmapped {viewer : Option Nat} {a n : Nat} {s : State} (hn : 1 ≤ n)
    (h : s.readWord viewer a = none) : s.readWords viewer n a = ([], false, s) := by
  obtain ⟨n, rfl⟩ := Nat.exists_eq_add_of_le' hn
  simp [State.readWords, h]

/-- One mapped word is read, with its side effect (R399, R487). -/
theorem exec_regRead_of_mapped {s : State} {i : Fin 16} (tag : Word) {a w : Word} (hopen : (s.session i).open_ = true)
    (hw : (s.delivered i).readWord (s.session i).part a.toNat = some w) :
    exec (.regRead i tag a 1) s =
      .next (State.sendTo i (.regData tag 0 [w]) ((s.delivered i).readEffect a.toNat)) := by
  rw [exec_regRead_of_open tag a hopen le_rfl (by decide), State.readWords_one hw]
  rfl

/-- A word outside every block, or not aligned, is unmapped (R483). -/
theorem State.readWord_of_no_block (viewer : Option Nat) {a : Nat} (h : a % 4 ≠ 0 ∨ blockOf a = none) (s : State) :
    s.readWord viewer a = none := by
  unfold State.readWord
  split
  · rfl
  next hal => rw [h.resolve_left hal]

/-- A register of a block, in every stage but firmware recovery (R454, R482). -/
theorem State.readWord_of_block {s : State} {viewer : Option Nat} {a o : Nat} {b : Block} (hal : a % 4 = 0)
    (ha : blockOf a = some (b, o)) (hstage : s.glb.stage ≠ .firmwareRecovery) :
    s.readWord viewer a = s.blockReg viewer b o := by
  unfold State.readWord
  rw [if_neg (by simp [hal]), ha]
  exact if_neg fun h => hstage h.1

theorem State.delivered_glb (i : Nat) (s : State) : (s.delivered i).glb = s.glb := by rw [State.delivered_eq]

/-- A device session writes one mapped register (R399). -/
theorem exec_regWrite_of_block {s : State} {i : Fin 16} (tag v : Word) {a : Word} {b : Block} {o : Nat}
    (hopen : (s.session i).open_ = true) (hpart : (s.session i).part = none)
    (hstage : s.glb.stage ≠ .firmwareRecovery) (hal : a.toNat % 4 = 0) (ha : blockOf a.toNat = some (b, o))
    (hmapped : ((s.delivered i).blockReg none b o).isSome = true) :
    exec (.regWrite i tag a [v]) s =
      .next (State.sendTo i (.regAck tag 0 1) ((s.delivered i).writeReg b o v)) := by
  have hstage' : (s.delivered i).glb.stage ≠ .firmwareRecovery := by rwa [State.delivered_glb]
  obtain ⟨w, hw⟩ := Option.isSome_iff_exists.1 hmapped
  rw [show exec (.regWrite i tag a [v]) s = execRegWrite i tag a [v] s from rfl, execRegWrite,
    State.request_of_open hopen, hpart]
  simp [State.writeWords, State.readWord_of_block hal ha hstage', hw, ha, hstage']

/-- A write that changes the registers of the host alone (R485). -/
theorem State.writesOne_of_writeReg {s : State} {i : Fin 16} {tag v a : Word} {b : Block} {o : Nat}
    {f : HostRegs → HostRegs} (hopen : (s.session i).open_ = true) (hpart : (s.session i).part = none)
    (hstage : s.glb.stage ≠ .firmwareRecovery) (hal : a.toNat % 4 = 0) (ha : blockOf a.toNat = some (b, o))
    (hmapped : ∀ u : State, (u.blockReg none b o).isSome = true)
    (hwrite : (s.delivered i).writeReg b o v = (s.delivered i).updRegs f) : s.WritesOne i tag a v f := by
  rw [State.WritesOne, exec_regWrite_of_block tag v hopen hpart hstage hal ha (hmapped _), hwrite]
  rfl

/-- A value in its range is taken, and one out of it ignored (R485). -/
theorem State.setIf_eq {ok : Bool} {p : HostRegs → Prop} [DecidablePred p] {f g : HostRegs → HostRegs} {s : State}
    (h : ok = true ↔ p s.regs) (hfg : ∀ r, f r = g r) :
    s.setIf ok f = s.updRegs fun r => if p r then g r else r := by
  unfold State.setIf State.updRegs
  dsimp only
  split
  next hok => rw [if_pos (h.1 hok), hfg]
  next hok => rw [if_neg (mt h.2 hok)]

theorem ofNat_fld_low (v : Word) (n : Nat) : BitVec.ofNat (n + 1) (fld v n 0) = v.setWidth (n + 1) := by
  apply BitVec.eq_of_toNat_eq
  simp [fld]

theorem ofNat_fld (v : Word) (lo n : Nat) : BitVec.ofNat (n + 1) (fld v (lo + n) lo) = v.extractLsb' lo (n + 1) := by
  apply BitVec.eq_of_toNat_eq
  simp [fld, Nat.shiftRight_eq_div_pow, show lo + n + 1 - lo = n + 1 by omega]

/-- Settles O9: reads and refusals by the words that are mapped, each write by what its register takes. -/
theorem registersAreReadAndWritten : Obligations.RegistersAreReadAndWritten := by
  unfold Obligations.RegistersAreReadAndWritten
  refine ⟨fun s i tag a w hopen hw => exec_regRead_of_mapped tag hopen hw,
    fun s i tag a n hopen hlo hhi hnone => ?_, fun s i tag a n hopen hn => ?_, fun s i tag a p ws hopen hpart => ?_,
    fun s i tag v hopen hpart hstage => ?_, fun s v hlock hlo horder hhi => ?_, fun s v hbad => ?_⟩
  · rw [exec_regRead_of_open tag a hopen hlo hhi,
      State.readWords_of_unmapped hlo (State.readWord_of_no_block _ hnone _)]
    rfl
  · rw [show exec (.regRead i tag a n) s = execRegRead i tag a n s from rfl, execRegRead, State.request_of_open hopen,
      if_pos (by omega)]
  · rw [show exec (.regWrite i tag a ws) s = execRegWrite i tag a ws s from rfl, execRegWrite,
      State.request_of_open hopen, hpart]
    rfl
  · have write {a : Word} {b : Block} {o : Nat} {f : HostRegs → HostRegs} (hal : a.toNat % 4 = 0)
        (ha : blockOf a.toNat = some (b, o)) (hmapped : ∀ u : State, (u.blockReg none b o).isSome = true)
        (hwrite : (s.delivered i).writeReg b o v = (s.delivered i).updRegs f) : s.WritesOne i tag a v f :=
      State.writesOne_of_writeReg hopen hpart hstage hal ha hmapped hwrite
    refine ⟨write (by decide) (b := .tb) (o := 0x20) (by decide) (fun _ => rfl) ?_,
      write (by decide) (b := .tb) (o := 0x24) (by decide) (fun _ => rfl) ?_,
      write (by decide) (b := .tb) (o := 0x50) (by decide) (fun _ => rfl) ?_,
      write (by decide) (b := .eth) (o := 0x14) (by decide +kernel) (fun _ => rfl) rfl,
      write (by decide) (b := .eth) (o := 0x18) (by decide +kernel) (fun _ => rfl) ?_,
      write (by decide) (b := .lnw) (o := 0x20) (by decide +kernel) (fun _ => rfl) rfl,
      write (by decide) (b := .sec) (o := 0x1C) (by decide +kernel) (fun _ => rfl) rfl,
      fun harmed => write (by decide) (b := .otl) (o := 0x14) (by decide) (fun _ => rfl) ?_⟩
    · exact State.setIf_eq (by simp [and_assoc]) fun r => by rw [ofNat_fld_low]
    · exact State.setIf_eq (by simp [and_assoc]) fun r => by rw [ofNat_fld_low]
    · exact State.setIf_eq (by simp [and_assoc]) fun r => by rw [ofNat_fld_low]
    · exact State.setIf_eq (p := fun _ => 100 ≤ fld v 16 0 ∧ fld v 16 0 ≤ 100000) (by simp) fun r => by
        rw [ofNat_fld_low]
    · exact if_neg (by rwa [State.delivered_otl])
  · rw [show exec (.glbAvsLimit v) s = execGlbAvsLimit v s from rfl, execGlbAvsLimit,
      if_neg (by simp [hlock]; omega), ofNat_fld v 0 9, ofNat_fld v 16 9]
    rfl
  · rw [show exec (.glbAvsLimit v) s = execGlbAvsLimit v s from rfl, execGlbAvsLimit, if_pos (by tauto)]

/-! ### Context entries (R199, R488) -/

/-- The addresses of the context block. -/
theorem blockOf_eq_ctx {a o : Nat} (h : blockOf a = some (.ctx, o)) : 0x1000000 ≤ a ∧ o = a - 0x1000000 := by
  have hother : ∀ k, [Block.plt, .tir, .chn, .lnw, .ing, .trc, .xh, .sty, .eth, .prf, .brn, .sec].getD k .sec ≠ .ctx := by
    intro k
    by_cases hk : k < 12
    · revert k
      decide
    · rw [List.getD_eq_default _ _ (Nat.le_of_not_lt hk)]
      decide
  unfold blockOf at h
  split_ifs at h <;> simp_all

theorem blockOf_entry {n k : Nat} (hn : n < 16384) (hk : k < 16) :
    blockOf (0x1000000 + 64 * n + 4 * k) = some (.ctx, 64 * n + 4 * k) := by
  unfold blockOf
  rw [if_neg (by omega), if_neg (by omega), if_neg (by omega), if_neg (by omega), if_neg (by omega), if_neg (by omega),
    if_neg (by omega), if_pos (by omega), show 0x1000000 + 64 * n + 4 * k - 0x1000000 = 64 * n + 4 * k by omega]

theorem arr_of_lt {o base stride n : Nat} (h : o < base) : arr o base stride n = none :=
  if_neg fun ⟨hbase, _, _⟩ => absurd h (Nat.not_lt.2 hbase)

/-- A word of an entry: every other register of the block lies behind the entries. -/
theorem State.regCtx_entry (s : State) (viewer : Option Nat) {n k : Nat} (hn : n < 16384) (hk : k < 16) :
    s.regCtx viewer (64 * n + 4 * k) = some (s.ctxEntryReg viewer n k) := by
  have hentry : arr (64 * n + 4 * k) 0 4 (16384 * 16) = some (16 * n + k) :=
    (if_pos ⟨Nat.zero_le _, by omega, by omega⟩).trans (congrArg some (by omega))
  have hhead (w₀ w₁ w₂ : Word) :
      [(0x100000, w₀), (0x100004, w₁), (0x100040, w₂)].lookup (64 * n + 4 * k) = none := by
    rw [List.lookup_eq_none_iff]
    simp
    omega
  unfold State.regCtx State.countRegs arrWord
  dsimp only
  rw [hentry, hhead, arr_of_lt (by omega), arr_of_lt (by omega), arr_of_lt (by omega), arr_of_lt (by omega),
    arr_of_lt (by omega)]
  simp only [firstSome, Option.map_none, Option.map_some]
  rw [show (16 * n + k) / 16 = n by omega, show (16 * n + k) % 16 = k by omega]

/-- Behind the entries a session's partition changes nothing. -/
theorem State.regCtx_of_le (s : State) (viewer : Option Nat) {o : Nat} (h : 64 * 16384 ≤ o) :
    s.regCtx viewer o = s.regCtx none o := by
  have hentry : arr o 0 4 (16384 * 16) = none := if_neg (by omega)
  unfold State.regCtx arrWord
  rw [hentry]
  rfl

theorem State.blockReg_viewer (s : State) (viewer : Option Nat) {b : Block} (h : b ≠ .ctx) (o : Nat) :
    s.blockReg viewer b o = s.blockReg none b o := by
  cases b with
  | ctx => exact absurd rfl h
  | _ => rfl

/-- Outside the entries every session reads the same. -/
theorem State.readWord_viewer (s : State) (viewer : Option Nat) {a : Nat}
    (h : a < 0x1000000 ∨ 0x1000000 + 64 * 16384 ≤ a) : s.readWord viewer a = s.readWord none a := by
  unfold State.readWord
  split
  · rfl
  · split
    · rfl
    next b o hb =>
      split
      · rfl
      · by_cases hctx : b = .ctx
        · subst hctx
          obtain ⟨ha, ho⟩ := blockOf_eq_ctx hb
          exact s.regCtx_of_le viewer (by omega)
        · exact s.blockReg_viewer viewer hctx o

theorem State.readWord_entry {s : State} (viewer : Option Nat) {n k : Nat} (hn : n < 16384) (hk : k < 16)
    (hstage : s.glb.stage ≠ .firmwareRecovery) :
    s.readWord viewer (0x1000000 + 64 * n + 4 * k) = some (s.ctxEntryReg viewer n k) := by
  rw [State.readWord_of_block (by omega) (blockOf_entry hn hk) hstage]
  exact s.regCtx_entry viewer hn hk

theorem State.ctxEntryReg_of_inRange {s : State} {p n : Nat} (h : s.inRange p n = true) (k : Nat) :
    s.ctxEntryReg (some p) n k = s.ctxEntryReg none n k := by
  simp [State.ctxEntryReg, h]

theorem State.ctxEntryReg_of_not_inRange {s : State} {p n : Nat} (h : s.inRange p n = false) (k : Nat) :
    s.ctxEntryReg (some p) n k = 0 := by
  simp [State.ctxEntryReg, h]

/-- A partition session reads a context outside its range as zeros (R488). -/
theorem State.readWord_foreign {s : State} {p n k : Nat} (hn : n < 16384) (hk : k < 16) (hforeign : s.inRange p n = false)
    (hstage : s.glb.stage ≠ .firmwareRecovery) :
    s.readWord (some p) (0x1000000 + 64 * n + 4 * k) = some 0 := by
  rw [State.readWord_entry _ hn hk hstage, State.ctxEntryReg_of_not_inRange hforeign]

/-- Settles O10: the words of the entries by their contexts, every other word as a device session has it. -/
theorem partitionSessionsReadAllButForeignContexts : Obligations.PartitionSessionsReadAllButForeignContexts := by
  unfold Obligations.PartitionSessionsReadAllButForeignContexts
  refine ⟨fun s p a ha => s.readWord_viewer _ ha, fun s p n k hn hk hin => ?_,
    fun s p n k hn hk hforeign hstage => State.readWord_foreign hn hk hforeign hstage,
    fun s i tag a p n k hopen hpart hn hk hforeign hstage ha => ?_, fun s n k hn hk hstage => ?_⟩
  · by_cases hstage : s.glb.stage = .firmwareRecovery
    · unfold State.readWord
      rw [blockOf_entry hn hk]
      simp [hstage]
    · rw [State.readWord_entry _ hn hk hstage, State.readWord_entry _ hn hk hstage, State.ctxEntryReg_of_inRange hin]
  · refine exec_regRead_of_mapped tag hopen ?_
    rw [hpart, ha]
    exact State.readWord_foreign hn hk (by rwa [State.delivered_inRange]) (by rwa [State.delivered_glb])
  · rw [State.readWord_entry _ hn hk hstage]
    rfl

end Sys2Proof.Machine
end

section
/-!
PROOF. The optical by-pass (R389, R391 to R393): its instants, what the events and announcements leave of it and of the
links of the ports, and each command by its equation.
-/

namespace Sys2Proof.Machine

open Sys2Proof

/-! ### Frames that are queued change no link -/

/-- The ports that have link. -/
def State.portLinks (s : State) : List Bool := s.eth.ports.map (·.link)

theorem State.link_of_portLinks {s t : State} (h : t.portLinks = s.portLinks) (p : Port) :
    (t.ethPort p).link = (s.ethPort p).link :=
  getD_of_map_eq h (portNum p) {}

theorem State.portLinks_updPort {f : EthPort → EthPort} (hf : ∀ x, (f x).link = x.link) (p : Port) (s : State) :
    (s.updPort p f).portLinks = s.portLinks :=
  map_modify_same hf ..

theorem State.portLinks_queueFrame (p : Port) (f : TxFrame) (s : State) : (s.queueFrame p f).portLinks = s.portLinks :=
  (State.portLinks_updPort (fun _ => by rfl) p _).trans (State.portLinks_updPort (fun _ => by rfl) p s)

theorem State.portLinks_flush (i : Nat) (s : State) : (s.flush i).portLinks = s.portLinks := by
  unfold State.flush
  dsimp only
  split
  · rfl
  · exact foldl_eq_of_step (g := State.portLinks) (fun u _ => u.portLinks_queueFrame ..) _ s

theorem State.portLinks_sendTo (i : Nat) (b : LimBody) (s : State) : (s.sendTo i b).portLinks = s.portLinks := by
  unfold State.sendTo
  split
  · exact State.portLinks_flush ..
  · rfl

theorem State.portLinks_sendWhere (p : Session → Bool) (b : LimBody) (s : State) :
    (s.sendWhere p b).portLinks = s.portLinks := by
  refine foldl_eq_of_step (g := State.portLinks) (fun u i => ?_) _ s
  split
  · exact u.portLinks_sendTo ..
  · rfl

theorem State.portLinks_bypassEvent (action : Nat) (t : Int) (s : State) :
    (s.bypassEvent action t).portLinks = s.portLinks := by
  unfold State.bypassEvent State.event
  exact State.portLinks_sendWhere ..

/-! ### Opening and closing instants (R391, R393) -/

/-- An instant is a whole second, at least LEAD seconds ahead (R391). -/
theorem State.leadInstant_ahead (s : State) :
    s.now + (s.regs.lead.toNat : Int) * unitsSec ≤ s.leadInstant ∧ s.leadInstant.fmod unitsSec = 0 := by
  have hpos : (0 : Int) ≤ unitsSec := by decide
  unfold State.leadInstant
  dsimp only
  rw [Int.fdiv_eq_ediv_of_nonneg _ hpos, Int.fmod_eq_emod_of_nonneg _ hpos, unitsSec]
  omega

theorem State.instant_eq_byPass (s : State) : s.eth.instant = s.byPass.instant := rfl

theorem State.noReopen_eq_byPass (s : State) : s.eth.noReopen = s.byPass.noReopen := rfl

theorem State.chooseInstant_instant (o : Bool) (s : State) :
    (s.chooseInstant o).eth.instant = some (s.leadInstant, o) := by
  rw [State.instant_eq_byPass, State.chooseInstant_byPass]

theorem State.chooseInstant_noReopen (o : Bool) (s : State) : (s.chooseInstant o).eth.noReopen = s.eth.noReopen := by
  rw [State.noReopen_eq_byPass, State.chooseInstant_byPass]
  rfl

theorem State.armBypass_byPass {s : State} (h : s.mayArm = true) : s.armBypass.byPass = { s.byPass with
    bypass := .armed
    instant := some (s.leadInstant, true)
    bypassTime := compactOf s.leadInstant
    announceEdge := s.edge } := by
  rw [State.armBypass, if_pos h, State.chooseInstant_byPass]
  rfl

/-- An arming changes whether the by-pass is ARMED, its instant and the announcements. -/
theorem State.armBypass_keeps (s : State) : s.armBypass.eth.attempts = s.eth.attempts ∧
    s.armBypass.eth.noReopen = s.eth.noReopen ∧
    (s.armBypass.eth.bypass = s.eth.bypass ∨ s.armBypass.eth.bypass = .armed) := by
  by_cases h : s.mayArm = true
  · have harmed := State.armBypass_byPass h
    exact ⟨congrArg ByPassPart.attempts harmed, congrArg ByPassPart.noReopen harmed,
      .inr (congrArg ByPassPart.bypass harmed)⟩
  · rw [State.armBypass, if_neg h]
    exact ⟨rfl, rfl, .inl rfl⟩

/-- CLOSE_REQ alone, on an open by-pass without a pending instant: a closing instant is chosen (R393). -/
theorem State.bypassCtrl_closeReq {s : State} {v : Word} (hclose : bit v 9 = true) (hretry : bit v 8 = false)
    (hopen : s.eth.bypass = .open_) (hpending : s.bypassPending = false) :
    (s.bypassCtrl v).eth.noReopen = true ∧ ∃ o, (s.bypassCtrl v).eth.instant = some (o, false) := by
  unfold State.bypassCtrl
  extract_lets lead s1 s2
  have heth : s2.eth = s.eth := by
    unfold s2 s1
    simp only [hretry, Bool.false_eq_true, if_false]
    split <;> rfl
  have hfree : s2.bypassPending = false := by rwa [State.bypassPending, heth]
  rw [if_pos ⟨hclose, heth ▸ hopen, by rw [hfree]; rfl⟩]
  exact ⟨State.chooseInstant_noReopen .., _, State.chooseInstant_instant ..⟩

/-- RETRY alone: the attempts are cleared, and a by-pass that had failed is CLOSED, or ARMED again
(R393). -/
theorem State.bypassCtrl_retry {s : State} {v : Word} (hretry : bit v 8 = true) (hclose : bit v 9 = false)
    (hfailed : s.eth.bypass = .failed) :
    (s.bypassCtrl v).eth.attempts = 0 ∧ (s.bypassCtrl v).eth.noReopen = false ∧
      ((s.bypassCtrl v).eth.bypass = .closed ∨ (s.bypassCtrl v).eth.bypass = .armed) := by
  unfold State.bypassCtrl
  extract_lets lead s1 s2
  have hs1 : s1.eth.bypass = .failed := by
    unfold s1
    split <;> exact hfailed
  rw [if_neg (by simp [hclose])]
  unfold s2
  rw [if_pos hretry]
  obtain ⟨hattempts, hreopen, hbypass⟩ := State.armBypass_keeps (s1.updEth fun e => { e with
    attempts := 0, noReopen := false, retryEdge := 0
    bypass := if e.bypass = .failed then .closed else e.bypass })
  exact ⟨hattempts, hreopen, hbypass.imp_left fun h => h.trans (if_pos hs1)⟩

theorem State.bypassEvent_byPass (action : Nat) (t : Int) (s : State) : (s.bypassEvent action t).byPass = s.byPass :=
  State.event_byPass ..

theorem State.closeSwitches_byPass (st : BypassState) (s : State) : (s.closeSwitches st).eth.bypass = st ∧
    (s.closeSwitches st).eth.opening = false := by
  unfold State.closeSwitches
  rw [State.updEth_eth]
  exact ⟨rfl, rfl⟩

/-- The state in which an opening failed for the `n`-th time (R392). -/
def State.openFailed (n : Nat) (st : BypassState) (s : State) : State :=
  (s.closeSwitches st).updEth fun e => { e with
    attempts := BitVec.ofNat 2 (min 3 n), openFail := true, retryEdge := s.edge + 10 * edgesSec }

theorem State.openFailed_eth (n : Nat) (st : BypassState) (s : State) : (s.openFailed n st).eth.bypass = st ∧
    (s.openFailed n st).eth.attempts.toNat = min 3 n ∧ (s.openFailed n st).eth.openFail = true ∧
    (s.openFailed n st).eth.retryEdge = s.edge + 10 * edgesSec := by
  unfold State.openFailed
  rw [State.updEth_eth]
  exact ⟨(s.closeSwitches_byPass st).1, by simp, rfl, rfl⟩

/-- A ring that is not up 2 s after its opening instant: the record and the event leave the rest (R392). -/
theorem exec_bypassOpenFail_of_due {s : State} {o : Int} {d : Bool} (hinstant : s.eth.instant = some (o, d))
    (hopen : s.eth.bypass = .open_) (hopening : s.eth.opening = true) (hdue : o + 2 * unitsSec ≤ s.now) :
    ∃ t, exec .bypassOpenFail s = .next t ∧
      t.byPass = (s.openFailed (s.eth.attempts.toNat + 1)
        (if 3 ≤ s.eth.attempts.toNat + 1 then .failed else .closed)).byPass ∧
      t.portLinks = (s.openFailed (s.eth.attempts.toNat + 1)
        (if 3 ≤ s.eth.attempts.toNat + 1 then .failed else .closed)).portLinks := by
  refine ⟨_, ?_, State.bypassEvent_byPass 3 o (State.report 0x11 0 5
    (if decide (3 ≤ s.eth.attempts.toNat + 1) then 0 else 1) 0x0062 none 0 (s.eth.attempts.toNat + 1)
    (s.openFailed (s.eth.attempts.toNat + 1) (if 3 ≤ s.eth.attempts.toNat + 1 then .failed else .closed))),
    State.portLinks_bypassEvent ..⟩
  rw [show exec .bypassOpenFail s = execBypassOpenFail s from rfl, execBypassOpenFail, hinstant]
  dsimp only
  rw [if_pos ⟨hopen, hopening, hdue⟩]
  simp only [decide_eq_true_eq]
  rfl

/-- Settles O46: the choice of an instant, the switches, and the keys of the control register. -/
theorem theByPassOpensAndCloses : Obligations.TheByPassOpensAndCloses := by
  unfold Obligations.TheByPassOpensAndCloses
  refine ⟨fun s hclosed hreopen hattempts hretry hlocked hruns hring => ?_, fun s hpending => ?_,
    fun s o hinstant harmed hdue => ?_, fun s o d hinstant hopen hopening hdue => ?_, fun s o hinstant hopen hdue => ?_,
    fun s v hclose hretry hopen hpending => ?_, fun s v hretry hclose hfailed => ?_⟩
  · have hmay : s.mayArm = true := by simp [State.mayArm, hclosed, hreopen, hattempts, hretry, hlocked, hruns, hring]
    have hexec : exec .bypassArm s = .next s.armBypass := rfl
    have harmed := State.armBypass_byPass hmay
    exact ⟨_, hexec, exec_only hexec, congrArg ByPassPart.bypass harmed, congrArg ByPassPart.instant harmed,
      congrArg ByPassPart.bypassTime harmed, congrArg ByPassPart.announceEdge harmed, s.leadInstant_ahead⟩
  · have hexec : exec .bypassAnnounce s = .next (((s.lldp .uplink).lldp .peer).updEth fun e =>
        { e with announceEdge := s.edge }) := congrArg Host.Outcome.next (if_pos hpending)
    have hkept : ((s.lldp .uplink).lldp .peer).byPass = s.byPass := by
      rw [State.lldp_byPass, State.lldp_byPass]
    exact ⟨_, hexec, exec_only hexec, rfl, congrArg ByPassPart.instant hkept⟩
  · rw [show exec .bypassOpen s = execBypassOpen s from rfl, execBypassOpen, hinstant]
    exact congrArg Host.Outcome.next (if_pos ⟨harmed, hdue⟩)
  · obtain ⟨t, hexec, hbyPass, hlinks⟩ := exec_bypassOpenFail_of_due hinstant hopen hopening hdue
    obtain ⟨hbypass, hattempts, hfail, hretry⟩ := State.openFailed_eth (s.eth.attempts.toNat + 1)
      (if 3 ≤ s.eth.attempts.toNat + 1 then .failed else .closed) s
    obtain ⟨hringA, hringB⟩ := s.closeSwitches_link (if 3 ≤ s.eth.attempts.toNat + 1 then .failed else .closed)
    exact ⟨t, hexec, (congrArg ByPassPart.bypass hbyPass).trans hbypass,
      (congrArg (fun b : ByPassPart => b.attempts.toNat) hbyPass).trans hattempts,
      (congrArg ByPassPart.openFail hbyPass).trans hfail, (congrArg ByPassPart.retryEdge hbyPass).trans hretry,
      (State.link_of_portLinks hlinks .ringA).trans hringA, (State.link_of_portLinks hlinks .ringB).trans hringB⟩
  · obtain ⟨hbypass, hopening⟩ := s.closeSwitches_byPass .closed
    refine ⟨s.closeSwitches .closed, ?_, hbypass, hopening, s.closeSwitches_link .closed⟩
    rw [show exec .bypassClose s = execBypassClose s from rfl, execBypassClose, hinstant]
    exact congrArg Host.Outcome.next (if_pos ⟨hopen, hdue⟩)
  · exact ⟨_, congrArg Host.Outcome.next (if_pos hclose), State.bypassCtrl_closeReq hclose hretry hopen hpending⟩
  · exact ⟨_, congrArg Host.Outcome.next (if_pos hretry), State.bypassCtrl_retry hretry hclose hfailed⟩

end Sys2Proof.Machine
end

section
/-!
PROOF. Limian sessions (R394 to R398): what the frames that a session sends leave of it and of the others, its closing,
and each command by its equation.
-/

namespace Sys2Proof.Machine

open Sys2Proof

/-! ### One session -/

theorem State.session_lt_of_open {s : State} {i : Nat} (h : (s.session i).open_ = true) :
    i < s.eth.sessions.length := by
  by_contra hle
  rw [State.session, List.getD_eq_default _ _ (Nat.le_of_not_lt hle)] at h
  exact absurd h (by decide)

theorem State.session_updSession {s : State} {i : Nat} (f : Session → Session) (h : i < s.eth.sessions.length) :
    (s.updSession i f).session i = f (s.session i) :=
  getD_modify f h {}

theorem State.session_updSession_ne {i k : Nat} (h : i ≠ k) (f : Session → Session) (s : State) :
    (s.updSession i f).session k = s.session k :=
  getD_modify_ne f s.eth.sessions h {}

theorem State.sessions_foldl_queueFrame {α : Type} (p : Port) (f : State → α → TxFrame) (l : List α) (s : State) :
    (l.foldl (fun s a => s.queueFrame p (f s a)) s).eth.sessions = s.eth.sessions :=
  foldl_eq_of_step (f := fun s a => State.queueFrame p (f s a) s) (g := fun u : State => u.eth.sessions)
    (fun _ _ => rfl) l s

/-- `y` is session `x` after frames of it went out. -/
def Session.Flushed (x y : Session) : Prop :=
  y = { x with sent := y.sent, undelivered := y.undelivered, oldestEdge := y.oldestEdge }

/-- The frames that a session sends change what it has sent, and no other session (R396). -/
theorem State.session_flush (i k : Nat) (s : State) :
    ((s.session i).Flushed ((s.flush i).session i)) ∧ (k ≠ i → (s.flush i).session k = s.session k) := by
  unfold State.flush
  dsimp only
  split
  · exact ⟨rfl, fun _ => rfl⟩
  · generalize hu : List.foldl _ s _ = u
    have hsessions : u.eth.sessions = s.eth.sessions := hu ▸ State.sessions_foldl_queueFrame _ _ _ s
    have hsame (k : Nat) : u.session k = s.session k := congrArg (·.getD k {}) hsessions
    refine ⟨?_, fun hk => (State.session_updSession_ne (Ne.symm hk) _ u).trans (hsame k)⟩
    by_cases hi : i < u.eth.sessions.length
    · rw [State.session_updSession _ hi, hsame]
      rfl
    · have hout (f : Session → Session) : (u.updSession i f).session i = u.session i :=
        congrArg (fun l : List Session => l.getD i {}) (List.modify_eq_self (Nat.le_of_not_lt hi))
      rw [hout, hsame]
      rfl

/-- A reliable frame joins those that the peer has yet to acknowledge (R396). -/
def Session.queued (b : LimBody) (x : Session) : Session :=
  { x with unacked := x.unacked ++ [{ seq := x.txSeq, body := b }], txSeq := x.txSeq + 1 }

theorem State.session_sendTo {s : State} {i : Nat} (b : LimBody) (h : (s.session i).open_ = true) :
    ((s.session i).queued b).Flushed ((s.sendTo i b).session i) ∧
      ∀ k, k ≠ i → (s.sendTo i b).session k = s.session k := by
  have hsend : s.sendTo i b = (s.updSession i (Session.queued b)).flush i := if_pos h
  have hflush := fun k => State.session_flush i k (s.updSession i (Session.queued b))
  rw [hsend]
  rw [State.session_updSession _ (State.session_lt_of_open h)] at hflush
  exact ⟨(hflush i).1, fun k hk => ((hflush k).2 hk).trans (State.session_updSession_ne (Ne.symm hk) _ s)⟩

/-! ### OPEN (R394, R398) -/

/-- The free numbers. -/
def State.freeSessions (s : State) : List Nat := (List.range 16).filter fun i => !(s.session i).open_

/-- The receive slot that an OPEN leaves on its port. -/
def State.openReceived (p : Port) (s : State) : State :=
  s.updPort p fun x => { x with rxq := x.rxq.eraseP fun r => r.limian && r.session.isNone }

/-- A session that an OPEN for partition `p` begins. -/
def openedSession (p : Port) (seq w0 token first : Word) (credits edge : Nat) : Session :=
  { open_ := true, port := p, part := if fld w0 3 0 = 15 then none else some (fld w0 3 0), subscribe := bit w0 8
    token := token, txSeq := first, rxNext := seq + 1, peerAck := first, peerCredits := credits, lastValid := edge }

theorem State.freeSessions_ne_nil {s : State} (hlen : s.eth.sessions.length = 16)
    (h : ∃ x ∈ s.eth.sessions, x.open_ = false) : s.freeSessions ≠ [] := by
  obtain ⟨x, hx, hclosed⟩ := h
  obtain ⟨i, hi, rfl⟩ := List.getElem_of_mem hx
  exact List.ne_nil_of_mem (List.mem_filter.2 ⟨List.mem_range.2 (hlen ▸ hi), by simp [State.session, hi, hclosed]⟩)

/-- A good OPEN begins a session of a free number, and answers in it. -/
theorem exec_limianOpen_of_free {s : State} {p : Port} (seq : Word) {w0 : Word} {credits : BitVec 16}
    (hring : isRing p = false) (hlink : (s.ethPort p).link = true) (hhi : fld w0 31 9 = 0) (hlo : fld w0 7 4 = 0)
    (hcredits : credits.toNat ≤ 256) (hopenable : s.openable (fld w0 3 0) = true) (hfree : s.freeSessions ≠ [])
    (hdevice : fld w0 3 0 = 15 → s.eth.sessions.all (fun x => !(x.open_ && x.part.isNone)) = true) :
    ∃ i token first n fresh, i ∈ s.freeSessions ∧ exec (.limianOpen p seq w0 credits) s =
      .next ((({ s.openReceived p with fresh := fresh } : State).updSession i fun _ =>
        openedSession p seq w0 token first credits.toNat s.edge).sendTo i (.openReply 0 i token n)) := by
  have hmost : ¬(fld w0 3 0 = 15 ∧ (if s.glb.stage = .firmwareRecovery then 1 else 2) ≤
      (s.eth.sessions.filter fun x => x.open_ && x.part.isNone).length) := by
    rintro ⟨hpart, hle⟩
    have hnone : (s.eth.sessions.filter fun x => x.open_ && x.part.isNone) = [] :=
      List.filter_eq_nil_iff.2 fun x hx h => by
        have hother := List.all_eq_true.1 (hdevice hpart) x hx
        rw [show (x.open_ && x.part.isNone) = true from h] at hother
        exact absurd hother (by decide)
    rw [hnone] at hle
    split at hle <;> exact absurd hle (by decide)
  have hpos : 0 < s.freeSessions.length := List.length_pos_of_ne_nil hfree
  refine ⟨s.freeSessions.getD (Config.freeChoice s.fresh % s.freeSessions.length) 0, Config.freeWord (s.fresh + 1),
    Config.freeWord (s.fresh + 2), ?_, s.fresh + 3, ?_, ?_⟩
  rotate_left
  · rw [List.getD_eq_getElem _ _ (Nat.mod_lt _ hpos)]
    exact List.getElem_mem _
  · rw [show exec (.limianOpen p seq w0 credits) s = execLimianOpen p seq w0 credits s from rfl, execLimianOpen]
    dsimp only
    rw [if_neg (by simp [hring, hlink]), if_neg (by simp [hhi, hlo]; omega), if_neg (by simp [hopenable]),
      if_neg (by rintro (h | h); exacts [hfree (List.isEmpty_iff.1 h), hmost h])]
    rfl

/-- An OPEN for a partition that the running Outline lacks is refused (R398, log 22). -/
theorem exec_limianOpen_of_lacking {s : State} {p : Port} (seq : Word) {w0 : Word} {credits : BitVec 16}
    (hring : isRing p = false) (hlink : (s.ethPort p).link = true) (hhi : fld w0 31 9 = 0) (hlo : fld w0 7 4 = 0)
    (hcredits : credits.toNat ≤ 256) (hlacking : s.openable (fld w0 3 0) = false) :
    exec (.limianOpen p seq w0 credits) s = .next ((s.openReceived p).refuseOpen p seq 0x10) := by
  rw [show exec (.limianOpen p seq w0 credits) s = execLimianOpen p seq w0 credits s from rfl, execLimianOpen]
  dsimp only
  rw [if_neg (by simp [hring, hlink]), if_neg (by simp [hhi, hlo]; omega), if_pos (by simp [hlacking])]
  rfl

/-- The body of a Limian frame follows 14 bytes of Ethernet and a header of 20 (R394, R395). -/
theorem State.drop_limFrame (s : State) (p : Port) (sess type flags : Nat) (seq ack token : Word) (body : List Byte) :
    (s.limFrame p sess type flags seq ack token body).bytes.drop 34 = body :=
  List.drop_left' (by simp [wordsBE, natBytesBE, natBytes])

/-! ### Closing (R397, R398, R401) -/

theorem State.loads_dropWrites (p : TierWrite → Bool) (s : State) : (s.dropWrites p).tir.loads = s.tir.loads := by
  unfold State.dropWrites
  refine foldl_eq_of_step (g := fun u : State => u.tir.loads) (fun u w => ?_) _ (s.updTir _)
  unfold State.giveBack
  split
  · exact foldl_eq_of_step (g := fun u : State => u.tir.loads) (fun _ _ => by rfl) _ u
  · rfl

theorem State.loads_dropLoads (p : LoadOp → Bool) (s : State) :
    (s.dropLoads p).tir.loads = s.tir.loads.filter fun l => !p l :=
  congrArg (List.filter fun l => !p l) (s.loads_dropWrites _)

/-- A closed session is as at reset, keeps no load in progress, and the jobs go on (R397, R398). -/
theorem State.closeSession_closes {s : State} {i : Nat} (hi : i < s.eth.sessions.length) :
    (s.closeSession i).session i = {} ∧ (s.closeSession i).tir.loads = s.tir.loads.filter (·.sess != i) ∧
      (s.closeSession i).jobs.list.map (·.id) = s.jobs.list.map (·.id) := by
  have heth : (s.dropLoads (·.sess = i)).eth = s.eth := (State.dropLoads_same .eth (by decide) _ s s).2 rfl
  have hjobs : (s.dropLoads (·.sess = i)).jobs = s.jobs := (State.dropLoads_same .jobs (by decide) _ s s).2 rfl
  refine ⟨?_, ?_, ?_⟩
  · unfold State.closeSession
    refine State.session_updSession _ ?_
    exact lt_of_lt_of_eq hi (congrArg (fun e : Eth => e.sessions.length) heth).symm
  · exact s.loads_dropLoads (·.sess = i)
  · exact (List.map_map ..).trans (congrArg (fun j : Jobs => j.list.map (·.id)) hjobs)

theorem State.delivered_sessions_length (i : Nat) (s : State) :
    (s.delivered i).eth.sessions.length = s.eth.sessions.length := by
  unfold State.delivered
  dsimp only
  split
  · exact (List.length_modify ..).trans (List.length_modify ..)
  · exact List.length_modify ..

theorem exec_limianClose_of_open {s : State} {i : Fin 16} (h : (s.session i).open_ = true) :
    exec (.limianClose i) s = .next ((s.delivered i).closeSession i) :=
  congrArg Host.Outcome.next (if_pos h)

/-! ### Acknowledgements and time-outs (R396 to R398) -/

/-- A session after an acknowledgement of its next `n` frames. -/
def Session.acked (ack : Word) (credits n edge : Nat) (y : Session) : Session :=
  { y with
    lastValid := edge, peerAck := ack, peerCredits := credits, unacked := y.unacked.drop n, sent := y.sent - n
    timeouts := if n = 0 then y.timeouts else 0
    oldestEdge := if n = 0 then y.oldestEdge else edge }

theorem exec_limianAck_of_sent {s : State} {i : Fin 16} {ack : Word} {credits : BitVec 16} {n : Nat}
    (hopen : (s.session i).open_ = true) (hcredits : credits.toNat ≤ 256) (hn : n = (ack - (s.session i).peerAck).toNat)
    (hsent : n ≤ (s.session i).sent) :
    exec (.limianAck i ack credits) s =
      .next ((s.updSession i (Session.acked ack credits.toNat n s.edge)).flush i) := by
  subst hn
  exact congrArg Host.Outcome.next ((if_neg (by simp [hopen]; omega)).trans (if_neg (Nat.not_lt.2 hsent)))

/-- An ACK frame joins its port's queue, and nothing is undelivered (R396). -/
theorem State.sendAck_sends {s : State} {i : Nat} (hi : i < s.eth.sessions.length)
    (hport : portNum (s.session i).port < s.eth.ports.length) :
    ((s.sendAck i).session i).undelivered = 0 ∧ ∃ f,
      ((s.sendAck i).ethPort (s.session i).port).txq = (s.ethPort (s.session i).port).txq ++ [f] := by
  obtain ⟨credit, hqueued⟩ := State.ethPort_queueFrame (s := s)
    (s.limFrame (s.session i).port i 0x01 1 0 (s.session i).rxNext (s.session i).token []) hport
  exact ⟨congrArg Session.undelivered (State.session_updSession _ hi), _, congrArg EthPort.txq hqueued⟩

theorem State.resend_sessions (i : Nat) (s : State) : (s.resend i).eth.sessions = s.eth.sessions :=
  State.sessions_foldl_queueFrame _ _ _ s

/-- The frames of a session that have waited too long (R397). -/
theorem exec_retransmitTimeout_of_due {s : State} {i : Fin 16} (hopen : (s.session i).open_ = true)
    (hsent : 0 < (s.session i).sent)
    (hdue : (s.session i).oldestEdge + s.regs.limRto.toNat * edgesUs * 2 ^ (s.session i).timeouts ≤ s.edge) :
    exec (.retransmitTimeout i) s = .next (if 8 ≤ (s.session i).timeouts + 1 then (s.closeSession i).bump .ethLimLost
      else (s.resend i).updSession i fun y => { y with
        timeouts := y.timeouts + 1, oldestEdge := s.edge, undelivered := 0 }) :=
  congrArg Host.Outcome.next (if_pos ⟨hopen, hsent, hdue⟩)

/-- A request in a closed session is counted (R398). -/
theorem State.request_of_closed {i : Nat} {s : State} (h : (s.session i).open_ = false)
    (go : Session → State → State) : s.request i go = s.bump .ethLimBad :=
  if_neg (by simp [h])

/-- Settles O47: OPEN by the session that it begins, the frames of a session by what they leave of it, and the closing. -/
theorem sessionsAreOpenedServedAndClosed : Obligations.SessionsAreOpenedServedAndClosed := by
  unfold Obligations.SessionsAreOpenedServedAndClosed
  refine ⟨fun s p seq w0 credits hring hlink hhi hlo hcredits hopenable hlen hclosed hdevice => ?_,
    fun s p seq w0 credits hring hlink hhi hlo hcredits hlacking hport => ?_, fun s i hopen => ?_,
    fun s i ack credits n hopen hcredits hn hsent => ?_, fun s i hopen hundelivered hdue hport => ?_,
    fun s i hopen hsent hdue hfew => ?_, fun s i hopen hsent hdue hmany => ?_, fun s i hopen hidle => ?_,
    fun s i tag w addr n ws hclosed => ?_⟩
  · obtain ⟨i, token, first, n, fresh, hfree, hexec⟩ := exec_limianOpen_of_free seq hring hlink hhi hlo hcredits hopenable
      (State.freeSessions_ne_nil hlen hclosed) hdevice
    obtain ⟨hi, hwas⟩ := List.mem_filter.1 hfree
    have hi := List.mem_range.1 hi
    generalize hu : State.updSession i _ _ = u at hexec
    have hbegun : u.session i = openedSession p seq w0 token first credits.toNat s.edge :=
      hu ▸ State.session_updSession _ (lt_of_lt_of_eq hi hlen.symm)
    have hkept (k : Nat) (hk : k ≠ i) : u.session k = s.session k :=
      hu ▸ State.session_updSession_ne (Ne.symm hk) _ _
    obtain ⟨hsession, hother⟩ := State.session_sendTo (s := u) (.openReply 0 i token n) (by rw [hbegun]; rfl)
    rw [hbegun] at hsession
    have hcounts : (u.sendTo i (.openReply 0 i token n)).counts = s.counts :=
      ((State.sendTo_same .counts (by decide) _ _ u u).2 rfl).trans (hu ▸ rfl)
    have htoken := congrArg Session.token hsession
    exact ⟨_, i, hexec, (exec_only hexec).erase (p := .counts) hcounts (by simp [mayChange]), hi, by simpa using hwas,
      congrArg Session.open_ hsession, congrArg Session.port hsession, congrArg Session.part hsession,
      congrArg Session.subscribe hsession, congrArg Session.rxNext hsession, congrArg Session.peerCredits hsession,
      congrArg Session.lastValid hsession, ⟨n, first, htoken ▸ congrArg Session.unacked hsession⟩,
      fun k hk => (hother k hk).trans (hkept k hk)⟩
  · have hexec := exec_limianOpen_of_lacking seq hring hlink hhi hlo hcredits hlacking
    obtain ⟨credit, hqueued⟩ := State.ethPort_queueFrame (s := s.openReceived p)
      ((s.openReceived p).limFrame p 255 0x03 1 0 (seq + 1) 0 (limBody (.openReply 0x10 255 0 0)))
      (lt_of_lt_of_eq hport (State.updPort_ports_length ..).symm)
    have hreceived : ((s.openReceived p).ethPort p).txq = (s.ethPort p).txq := by
      rw [State.openReceived, State.ethPort_updPort _ hport]
    refine ⟨_, _, hexec, ((exec_only hexec).erase (p := .counts) rfl (qs := [.fresh, .eth]) (by simp [mayChange])).erase
      (p := .fresh) rfl (by decide), rfl, (congrArg EthPort.txq hqueued).trans (congrArg (· ++ _) hreceived), ?_⟩
    exact State.drop_limFrame ..
  · have hexec := exec_limianClose_of_open hopen
    have hi := State.session_lt_of_open hopen
    obtain ⟨hsession, hloads, hids⟩ := State.closeSession_closes (s := s.delivered i)
      (lt_of_lt_of_eq hi (State.delivered_sessions_length ..).symm)
    have hdelivered := State.delivered_eq i s
    have htir : (s.delivered i).tir = s.tir := by rw [hdelivered]
    have hjobs : (s.delivered i).jobs = s.jobs := by rw [hdelivered]
    have hcounts : ((s.delivered i).closeSession i).counts = s.counts :=
      ((State.closeSession_same .counts (by decide) _ _ _).2 rfl).trans (by rw [hdelivered])
    exact ⟨_, hexec, (exec_only hexec).erase (p := .counts) hcounts (by simp [mayChange]), hsession, htir ▸ hloads,
      hjobs ▸ hids⟩
  · have hexec := exec_limianAck_of_sent hopen hcredits hn hsent
    have hsession := (State.session_flush i i (s.updSession i (Session.acked ack credits.toNat n s.edge))).1
    rw [State.session_updSession _ (State.session_lt_of_open hopen)] at hsession
    have hcounts : ((s.updSession i (Session.acked ack credits.toNat n s.edge)).flush i).counts = s.counts :=
      (State.flush_same .counts (by decide) _ _ s).2 rfl
    exact ⟨_, hexec, (exec_only hexec).erase (p := .counts) hcounts (by simp [mayChange]),
      congrArg Session.peerAck hsession, congrArg Session.peerCredits hsession, congrArg Session.unacked hsession, congrArg Session.lastValid hsession⟩
  · have hexec : exec (.ackDelay i) s = .next (s.sendAck i) :=
      congrArg Host.Outcome.next (if_pos ⟨hopen, hundelivered, hdue⟩)
    obtain ⟨hnone, f, hqueued⟩ := State.sendAck_sends (State.session_lt_of_open hopen) hport
    exact ⟨_, f, hexec, exec_only hexec, hnone, hqueued⟩
  · have hexec := exec_retransmitTimeout_of_due hopen hsent hdue
    rw [if_neg (by omega)] at hexec
    have hsessions := s.resend_sessions i
    have hresent : (s.resend i).session i = s.session i := congrArg (·.getD i.val {}) hsessions
    have hsession := State.session_updSession (s := s.resend i) (i := i) (fun y => { y with
      timeouts := y.timeouts + 1, oldestEdge := s.edge, undelivered := 0 })
      (hsessions ▸ State.session_lt_of_open hopen)
    rw [hresent] at hsession
    refine ⟨_, hexec, fun q hq => ?_, congrArg Session.timeouts hsession, congrArg Session.oldestEdge hsession,
      by rw [hsession]⟩
    simp only [List.mem_cons, List.not_mem_nil, or_false, not_or] at hq
    exact (State.updSession_same q hq.1 _ _ _ _).2 ((State.resend_same q ⟨hq.2, hq.1⟩ _ s s).2 (Part.same_refl ..))
  · have hexec := exec_retransmitTimeout_of_due hopen hsent hdue
    rw [if_pos (by omega)] at hexec
    have hcounts : (s.closeSession i).counts = s.counts := (State.closeSession_same .counts (by decide) _ s s).2 rfl
    refine ⟨_, hexec, (State.closeSession_closes (State.session_lt_of_open hopen)).1, ?_⟩
    simp [State.count, hcounts]
  · exact ⟨_, congrArg Host.Outcome.next (if_pos ⟨hopen, hidle⟩),
      (State.closeSession_closes (State.session_lt_of_open hopen)).1⟩
  · exact ⟨congrArg Host.Outcome.next (State.request_of_closed hclosed _),
      congrArg Host.Outcome.next (State.request_of_closed hclosed _),
      congrArg Host.Outcome.next (State.request_of_closed hclosed _)⟩

end Sys2Proof.Machine
end

section
/-!
PROOF. Proof's monitors and adaptive voltage (R407 to R414, R424, R469): one entry into SAFE_STATE for all monitors, and
the steps of VDD_CORE.
-/

namespace Sys2Proof.Machine

open Sys2Proof

/-! ### SAFE_STATE (R422, R425) -/

theorem Prf.faultBits_of_safeCause {p : Prf} (h : p.safeCause ≠ 0) : p.faultBits ≠ 0 := by
  unfold Prf.faultBits
  rw [show (p.safeCause != 0) = true from bne_iff_ne.2 h]
  simp [flag]

/-- A cause drives both stop lines and SAFE, and ends the heartbeat. -/
theorem Prf.settle_of_safeCause {p : Prf} (h : p.safeCause ≠ 0) : (Prf.settle p).state = .safeState ∧
    (Prf.settle p).stopA = true ∧ (Prf.settle p).stopB = true ∧ (Prf.settle p).safePin = true ∧
    (Prf.settle p).wdo = false ∧ (Prf.settle p).faultN = true := by
  unfold Prf.settle
  dsimp only
  rw [if_pos h]
  simp [Prf.faultBits_of_safeCause h]

theorem orCause_ne_zero (c : Byte) {n : Nat} (hn : n < 8) : c ||| BitVec.ofNat 8 (2 ^ n) ≠ 0 := by
  intro hzero
  have hbit : (c ||| BitVec.ofNat 8 (2 ^ n)).getLsbD n = true := by
    rw [BitVec.getLsbD_or, getLsbD_ofNat_two_pow hn]
    simp
  rw [hzero] at hbit
  simp at hbit

/-- A monitor that leaves the causes as they are and then tells of its own puts Proof in SAFE_STATE. -/
theorem State.entersSafeState_proofSafe {n : Nat} (hn : n < 8) {f : Prf → Prf} (hf : ∀ p, (f p).safeCause = p.safeCause)
    (s : State) : s.EntersSafeState ((s.updPrf f).proofSafe n) n := by
  obtain ⟨hstate, hA, hB, hpin, hwdo, hfault⟩ := Prf.settle_of_safeCause
    (p := { f s.prf with safeCause := (f s.prf).safeCause ||| BitVec.ofNat 8 (2 ^ n) }) (orCause_ne_zero _ hn)
  refine ⟨congrArg (· ||| _) (hf s.prf), hstate, hA, hB, hpin, hwdo, hfault, _, rfl, rfl, rfl, fun q hq => ?_⟩
  simp only [List.mem_cons, List.not_mem_nil, or_false, not_or] at hq
  exact (State.proofSafe_same q hq _ _ _).2 ((State.updPrf_same q hq.1 _ s s).2 (Part.same_refl ..))

theorem State.entersSafeState (s : State) {n : Nat} (hn : n < 8) : s.EntersSafeState (s.proofSafe n) n :=
  State.entersSafeState_proofSafe hn (f := id) (fun _ => rfl) s

/-! ### Proof's clocks (R410) -/

/-- A count of a window of Proof's clocks lies more than 12 % from its nominal. -/
def clockOff (n nominal : Nat) : Bool := decide (12 * nominal < 100 * ((n : Int) - nominal).natAbs)

theorem clockOff_ctrl (n : Nat) : clockOff n 8192 = true ↔ n < 7209 ∨ 9175 < n := by
  rw [clockOff, decide_eq_true_eq]
  omega

theorem clockOff_aon (n : Nat) : clockOff n 2048 = true ↔ n < 1803 ∨ 2293 < n := by
  rw [clockOff, decide_eq_true_eq]
  omega

theorem exec_proofClockWindow (ctrl aon : BitVec 16) (s : State) : exec (.proofClockWindow ctrl aon) s = .next
    (if (clockOff ctrl.toNat 8192 || clockOff aon.toNat 2048) && s.prf.clkBad then
      (s.updPrf fun p => { p with
        clkCtrl := ctrl, clkAon := aon, clkBad := clockOff ctrl.toNat 8192 || clockOff aon.toNat 2048 }).proofSafe 2
    else s.updPrf fun p => { p with
      clkCtrl := ctrl, clkAon := aon, clkBad := clockOff ctrl.toNat 8192 || clockOff aon.toNat 2048 }) := rfl

/-! ### Rails (R411) -/

theorem exec_voltageTrip_of_limits {rail : Rail} {mv lo hi : Nat} (hlimits : tripLimits rail = some (lo, hi))
    (hmax : mv ≤ railLimit rail) (s : State) :
    exec (.voltageTrip rail mv) s = .next (if mv < lo ∨ hi < mv then s.proofSafe 3 else s) := by
  rw [show exec (.voltageTrip rail mv) s = execVoltageTrip rail mv s from rfl, execVoltageTrip,
    if_neg (Nat.not_lt.2 hmax), hlimits]

/-- The trip limits of a rail lie below its absolute maximum. -/
theorem tripLimits_le_railLimit {rail : Rail} {lo hi : Nat} (h : tripLimits rail = some (lo, hi)) :
    hi ≤ railLimit rail := by
  cases rail <;> simp_all [tripLimits, railLimit] <;> omega

/-! ### Adaptive voltage (R469) -/

theorem State.avsAllowed_bounds {s : State} {target : Nat} (h : s.avsAllowed target = true) :
    460 ≤ target ∧ target ≤ 600 ∧ target ≤ s.glb.avsTarget.toNat + 10 ∧ s.glb.avsTarget.toNat ≤ target + 10 := by
  simp only [State.avsAllowed, Bool.and_eq_true, decide_eq_true_eq] at h
  exact ⟨h.1.1.1.1, h.1.1.1.2, h.1.1.2, h.1.2⟩

theorem exec_avsStep_of_allowed {s : State} {target : Nat} (ack : Bool) (hruns : s.proofRuns = true)
    (hretry : s.glb.pmbusRetry = none) (hallowed : s.avsAllowed target = true)
    (hedge : ∀ e, s.glb.avsEdge = some e → e + edgesMs ≤ s.edge) :
    exec (.avsStep target ack) s = .next (s.voutCommand target ack) := by
  refine congrArg Host.Outcome.next (if_pos ⟨hruns, by simp [hretry], hallowed, ?_⟩)
  rw [Option.all_eq_true]
  exact fun e he => decide_eq_true (hedge e he)

/-- Settles O50: every monitor by the one entry into SAFE_STATE, each voltage step by the regulator's answer. -/
theorem monitorsAndVoltageStepsAct : Obligations.MonitorsAndVoltageStepsAct := by
  unfold Obligations.MonitorsAndVoltageStepsAct
  refine ⟨fun s => ⟨_, rfl, s.entersSafeState (by decide)⟩, fun s => ⟨_, rfl, s.entersSafeState (by decide)⟩,
    fun s ctrl aon hbad hoff => ?_, fun s ctrl aon hclo hchi halo hahi => ?_,
    fun s rail mv lo hi hlimits hmax hout => ⟨_, ?_, s.entersSafeState (by decide)⟩,
    fun s rail mv lo hi hlimits hlo hhi => ?_,
    fun s line => ⟨_, rfl, State.entersSafeState_proofSafe (by decide) (fun p => by cases line <;> rfl) s⟩,
    fun s hruns hstate hdue => ⟨⟨_, ?_, s.entersSafeState (by decide)⟩, ?_⟩, fun s e hedge => ?_,
    fun s target hruns hretry hallowed hedge =>
      ⟨exec_avsStep_of_allowed true hruns hretry hallowed hedge, exec_avsStep_of_allowed false hruns hretry hallowed hedge⟩,
    fun s ack r hretry hdue => ?_, fun s t target ack hexec => ?_⟩
  · have hboth : (clockOff ctrl.toNat 8192 || clockOff aon.toNat 2048) = true := by
      rw [Bool.or_eq_true, clockOff_ctrl, clockOff_aon]
      omega
    rw [exec_proofClockWindow, hboth, hbad]
    exact ⟨_, rfl, State.entersSafeState_proofSafe (by decide) (fun _ => by rfl) s, rfl, rfl⟩
  · have hgood : (clockOff ctrl.toNat 8192 || clockOff aon.toNat 2048) = false := by
      rw [Bool.or_eq_false_iff, ← Bool.not_eq_true, ← Bool.not_eq_true, clockOff_ctrl, clockOff_aon]
      omega
    rw [exec_proofClockWindow, hgood]
    rfl
  · rw [exec_voltageTrip_of_limits hlimits hmax, if_pos hout]
  · rw [exec_voltageTrip_of_limits hlimits (hhi.trans (tripLimits_le_railLimit hlimits)), if_neg (by omega)]
  · exact congrArg Host.Outcome.next ((if_neg (by simp [hruns, hstate, hdue])).trans (if_pos (by decide)))
  · exact congrArg Host.Outcome.next ((if_neg (by simp [hruns, hstate, hdue])).trans (if_neg (by decide)))
  · rw [show exec .wdiEdge s = execWdiEdge s from rfl, execWdiEdge, State.updPrf, hedge]
  · have hexec : exec (.pmbusRetry ack) s = .next (s.voutCommand r.1 ack) := by
      rw [show exec (.pmbusRetry ack) s = execPmbusRetry ack s from rfl, execPmbusRetry, hretry]
      exact congrArg Host.Outcome.next (if_pos hdue)
    refine ⟨_, hexec, exec_only hexec, ?_, ?_⟩
    · rintro rfl
      exact ⟨rfl, rfl, rfl⟩
    · rintro rfl
      exact ⟨rfl, rfl, rfl⟩
  · rw [show exec (.avsStep target ack) s = execAvsStep target ack s from rfl, execAvsStep] at hexec
    obtain rfl := Host.Outcome.next.inj hexec
    split
    next hstep =>
      cases ack with
      | false => exact .inl rfl
      | true =>
        obtain ⟨hlo, hhi, hup, hdown⟩ := State.avsAllowed_bounds hstep.2.2.1
        have htarget : (BitVec.ofNat 10 target).toNat = target := by
          rw [BitVec.toNat_ofNat]
          omega
        right
        rw [show (s.voutCommand target true).glb.avsTarget = BitVec.ofNat 10 target from rfl, htarget]
        exact ⟨hup, hdown, hlo, hhi⟩
    · exact .inl rfl

end Sys2Proof.Machine
end

section
/-!
PROOF. What a reset leaves (R449, R457, R462, R480): of a cold one, of a warm one, and of the key slots.
-/

namespace Sys2Proof.Machine

open Sys2Proof

/-! ### Cold and warm -/

theorem State.restart_of_cold {k : ResetKind} (h : k.warm = false) (b : BootStage) (s : State) :
    s.restart k b = { State.reset with
      pending := s.pending
      fresh := s.fresh
      sec := s.sec.survive k.warm
      glb := { State.reset.glb with stage := b, lastReset := k } } :=
  if_neg (by simp [h])

theorem State.restart_of_warm {k : ResetKind} (h : k.warm = true) (b : BootStage) (s : State) :
    s.restart k b = s.keepWarm { State.reset with
      pending := s.pending
      fresh := s.fresh
      sec := s.sec.survive k.warm
      glb := { State.reset.glb with stage := b, lastReset := k } } :=
  if_pos h

/-- What neither kind of reset keeps: jobs, contexts, objects, Outlines, Proof, time, sessions and ports (R480). -/
theorem State.restart_clears (k : ResetKind) (b : BootStage) (s : State) : (s.restart k b).jobs.list = [] ∧
    (s.restart k b).ctx = State.reset.ctx ∧ (s.restart k b).tir.objs = [] ∧ (s.restart k b).otl = State.reset.otl ∧
    (s.restart k b).prf = State.reset.prf ∧ (s.restart k b).tb = State.reset.tb ∧
    (s.restart k b).eth = State.reset.eth := by
  cases hwarm : k.warm with
  | false =>
    rw [State.restart_of_cold hwarm]
    exact ⟨rfl, rfl, rfl, rfl, rfl, rfl, rfl⟩
  | true =>
    rw [State.restart_of_warm hwarm]
    exact ⟨rfl, rfl, rfl, rfl, rfl, rfl, rfl⟩

/-! ### Key slots (R457) -/

/-- Slots 1 to 14 stand between the derived slot and the one in OTP. -/
theorem keptSlots_warm_getD {n : Nat} {l : List KeySlot} (hlo : 1 ≤ n) (hhi : n ≤ 14) (hlen : 15 ≤ l.length) :
    (keptSlots true l).getD n {} = l.getD n {} := by
  obtain ⟨m, rfl⟩ := Nat.exists_eq_add_of_le' hlo
  have hm : m < 14 := by omega
  simp [keptSlots, List.getElem?_append, hm, show m < l.length - 1 by omega, show m + 1 < l.length by omega]

theorem keptSlots_cold_getD {n : Nat} (hlo : 1 ≤ n) (hhi : n ≤ 14) (l : List KeySlot) :
    (keptSlots false l).getD n {} = {} := by
  obtain ⟨m, rfl⟩ := Nat.exists_eq_add_of_le' hlo
  rw [keptSlots, List.cons_append, List.getD_cons_succ]
  exact (List.getD_append (List.replicate 14 ({} : KeySlot)) _ _ m (by simp; omega)).trans
    (List.getD_replicate _ (by omega))

/-! ### Cores (R449) -/

/-- A retired core stays retired through a warm reset. -/
theorem State.keepWarm_retired {s : State} {n : Nat} (h : (s.core n).state = .retired) (fresh : State) :
    ((s.keepWarm fresh).core n).state = .retired := by
  have hn : n < s.cores.length := by
    by_contra hle
    rw [State.core, List.getD_eq_default _ _ (Nat.le_of_not_lt hle)] at h
    cases h
  rw [State.core, List.getD_eq_getElem _ _ hn] at h
  rw [State.core, State.keepWarm, List.getD_eq_getElem _ _ (by simpa using hn), List.getElem_map, Core.survive, if_pos h]

/-- Settles O58: what every reset clears, and what a cold and a warm one keep. -/
theorem resetsKeepWhatTheirKindKeeps : Obligations.ResetsKeepWhatTheirKindKeeps := by
  unfold Obligations.ResetsKeepWhatTheirKindKeeps
  refine ⟨?_, fun s k b hk => ?_, fun s k b hk => ?_⟩
  · rintro s k b t rfl
    obtain ⟨hjobs, hctx, hobjs, hotl, hprf, htb, heth⟩ := s.restart_clears k b
    have hsec := s.restart_sec k b
    exact ⟨hjobs, hctx, hobjs, s.restart_counts k b, hotl, hprf, htb, s.restart_regs k b, heth, s.restart_edge k b,
      s.restart_pending k b, s.restart_stage k b, s.restart_lastReset k b, by rw [hsec]; rfl, by rw [hsec]; rfl,
      by rw [hsec]; rfl, by rw [hsec]; rfl, by rw [hsec]; rfl⟩
  · have hwarm : k.warm = false := by rcases hk with rfl | rfl <;> rfl
    rw [State.restart_of_cold hwarm, hwarm]
    exact ⟨rfl, rfl, rfl, fun n hlo hhi => keptSlots_cold_getD hlo hhi s.sec.slots⟩
  · have hwarm : k.warm = true := by rcases hk with rfl | rfl <;> rfl
    rw [State.restart_of_warm hwarm, hwarm]
    exact ⟨rfl, rfl, rfl, rfl, fun n hn => State.keepWarm_retired hn _, fun hlen n hlo hhi =>
      keptSlots_warm_getD hlo hhi hlen⟩

end Sys2Proof.Machine
end

section
/-!
PROOF. The security block (R451 to R462, R473, R474): boot writes, rollback, keys, revocation and the debug lock.
-/

namespace Sys2Proof.Machine

open Sys2Proof

/-! ### Key blobs and revocation requests (R458 to R460) -/

/-- A good blob names a slot other than the derived one, and its key is valid and was never exported with. -/
theorem State.keyBlob_some {s : State} {slot : Nat} {k : KeySlot} (h : s.keyBlob slot = some k) :
    k.valid = true ∧ k.exports_ = 0 ∧ slot ≠ 0 := by
  unfold State.keyBlob at h
  split at h
  · cases h
  · dsimp only at h
    split at h
    · cases h
    next hform =>
      split at h
      · cases h
      · split at h
        · cases h
        · obtain ⟨key, -, rfl⟩ := Option.map_eq_some_iff.1 h
          simp only [not_or] at hform
          exact ⟨rfl, rfl, hform.2.2.1⟩

/-- Slot 15 takes one install (R459). -/
theorem State.keyBlob_of_installed {s : State} (h : (s.sec.slots.getD 15 {}).valid = true) : s.keyBlob 15 = none := by
  unfold State.keyBlob
  split
  · rfl
  · dsimp only
    split
    · rfl
    · split
      · rfl
      · exact if_pos ⟨rfl, h⟩

/-- A request names one of the four customer keys. -/
theorem State.revocation_some {s : State} {n : Nat} (h : s.revocation = some n) : 1 ≤ n ∧ n ≤ 4 := by
  unfold State.revocation at h
  split at h
  · cases h
  · dsimp only at h
    split at h
    · cases h
    next hform =>
      split at h
      · cases h
      · obtain rfl := Option.some.inj h
        simp only [not_or] at hform
        omega

theorem exec_secKeyInstall_of_blob {s : State} {v : Word} {k : KeySlot} (h : s.keyBlob (fld v 3 0) = some k) :
    exec (.secKeyInstall v) s = .next { s with sec := { s.sec with slots := s.sec.slots.set (fld v 3 0) k } } := by
  rw [show exec (.secKeyInstall v) s = execSecKeyInstall v s from rfl, execSecKeyInstall, h]
  rfl

theorem exec_secKeyInstall_of_refused {s : State} {v : Word} (h : s.keyBlob (fld v 3 0) = none) :
    exec (.secKeyInstall v) s = .next { s with sec := { s.sec with keyRefused := true } } := by
  rw [show exec (.secKeyInstall v) s = execSecKeyInstall v s from rfl, execSecKeyInstall, h]
  rfl

/-- Settles O55: each command by its equation from the states that the clause names. -/
theorem securityCommandsAct : Obligations.SecurityCommandsAct := by
  unfold Obligations.SecurityCommandsAct
  refine ⟨fun s v img hv hidle himg hgood => ?_, fun s v hv hidle hboot => ?_, fun s v hv hidle hboot => ?_,
    fun s good hwrite => ?_, fun s hwrite => ?_, fun s v hv => ?_, fun s v k hblob => ?_,
    fun s v hnone => exec_secKeyInstall_of_refused hnone, fun s v n hv hn => ?_, fun s v hv hn => ?_,
    fun s v x hidle htarget => ?_, fun s v w e x hwrite hsoon hcode htarget => ?_⟩
  · rw [show exec (.secBootWriteFirmware v) s = execSecBootWriteFirmware v s from rfl, execSecBootWriteFirmware,
      if_neg (by simp [hv, hidle]), himg]
    exact congrArg Host.Outcome.next (if_neg (by simpa using Option.isSome_iff_ne_none.1 hgood))
  · exact congrArg Host.Outcome.next ((if_neg (by simp [hv, hidle])).trans (if_neg (by simp [hboot])))
  · exact congrArg Host.Outcome.next ((if_neg (by simp [hv, hidle])).trans (if_pos (by simp [hboot])))
  · rw [show exec (.bootWriteDone good) s = execBootWriteDone good s from rfl, execBootWriteDone, hwrite]
    rfl
  · rw [show exec (.bootWriteDone true) s = execBootWriteDone true s from rfl, execBootWriteDone, hwrite]
    rfl
  · have hexec : exec (.secRollbackCommit v) s = .next (s.updSec fun x => { x with
        rollback := BitVec.ofNat 7 (max x.rollback.toNat x.version.toNat) }) :=
      congrArg Host.Outcome.next (if_pos hv)
    refine ⟨_, hexec, exec_only hexec, ?_⟩
    rw [State.updSec_sec]
    dsimp only
    rcases Nat.le_total s.sec.rollback.toNat s.sec.version.toNat with hle | hle
    · rw [Nat.max_eq_right hle, BitVec.ofNat_toNat, BitVec.setWidth_eq]
      exact ⟨hle, le_rfl, .inr rfl⟩
    · rw [Nat.max_eq_left hle, BitVec.ofNat_toNat, BitVec.setWidth_eq]
      exact ⟨le_rfl, hle, .inl rfl⟩
  · exact ⟨exec_secKeyInstall_of_blob hblob, State.keyBlob_some hblob⟩
  · obtain ⟨hlo, hhi⟩ := State.revocation_some hn
    have hexec : exec (.secRevoke v) s = .next (s.updSec fun x => { x with
        revoked := x.revoked ||| BitVec.ofNat 4 (2 ^ (n - 1)) }) := by
      rw [show exec (.secRevoke v) s = execSecRevoke v s from rfl, execSecRevoke, if_neg (by simp [hv]), hn]
    refine ⟨_, hexec, exec_only hexec, ?_, hlo, hhi, fun k hk => ?_⟩
    · rw [State.updSec_sec, BitVec.getLsbD_or, getLsbD_ofNat_two_pow (by omega)]
      simp
    · have hbit : (BitVec.ofNat 4 (2 ^ (n - 1))).getLsbD k = false := by
        by_cases hk4 : k < 4
        · rw [getLsbD_ofNat_two_pow hk4, decide_eq_false (Ne.symm hk)]
        · exact BitVec.getLsbD_of_ge _ _ (Nat.le_of_not_lt hk4)
      rw [State.updSec_sec, BitVec.getLsbD_or, hbit, Bool.or_false]
  · rw [show exec (.secRevoke v) s = execSecRevoke v s from rfl, execSecRevoke, if_neg (by simp [hv]), hn]
    rfl
  · rw [show exec (.secLockAdvance v) s = execSecLockAdvance v s from rfl, execSecLockAdvance, hidle, htarget]
    rfl
  · rw [show exec (.secLockAdvance v) s = execSecLockAdvance v s from rfl, execSecLockAdvance, hwrite]
    dsimp only
    rw [if_pos ⟨hsoon, hcode⟩, State.updSec, htarget]
    rfl

end Sys2Proof.Machine
end

section
/-!
PROOF. Key slot 15 (R459): once it is installed, no command changes whether it is valid or its key; each command that may
change the security block is taken in turn.
-/

namespace Sys2Proof.Machine

open Sys2Proof

/-! ### Blocks that keep slot 15 -/

/-- From `x` to `y` an installed slot 15 stays, among sixteen slots. -/
def Sec.KeepsSlot15 (x y : Sec) : Prop :=
  x.slots.length = 16 → (x.slots.getD 15 {}).valid = true →
    y.slots.length = 16 ∧ (y.slots.getD 15 {}).valid = true ∧ (y.slots.getD 15 {}).key = (x.slots.getD 15 {}).key

theorem Sec.KeepsSlot15.of_slots {x y : Sec} (h : y.slots = x.slots) : x.KeepsSlot15 y :=
  fun hlen hvalid => by
    rw [h]
    exact ⟨hlen, hvalid, rfl⟩

theorem Sec.KeepsSlot15.of_same {s t : State} (h : Part.Same .sec s t) : s.sec.KeepsSlot15 t.sec :=
  .of_slots (congrArg Sec.slots h)

theorem Sec.KeepsSlot15.trans {x y z : Sec} (h : x.KeepsSlot15 y) (k : y.KeepsSlot15 z) : x.KeepsSlot15 z := by
  intro hlen hvalid
  obtain ⟨hlen', hvalid', hkey⟩ := h hlen hvalid
  obtain ⟨hlen'', hvalid'', hkey'⟩ := k hlen' hvalid'
  exact ⟨hlen'', hvalid'', hkey'.trans hkey⟩

theorem State.keepsSlot15_after {s : State} {o : Host.Outcome State Fault Refusal}
    (h : ∀ t, o = .next t → s.sec.KeepsSlot15 t.sec) : s.sec.KeepsSlot15 (s.after o).sec :=
  State.after_of (P := fun t => s.sec.KeepsSlot15 t.sec) (.of_slots rfl) h

/-! ### Resets (R457) -/

theorem keptSlots_length {l : List KeySlot} (h : l.length = 16) (warm : Bool) : (keptSlots warm l).length = 16 := by
  cases warm <;> simp [keptSlots, h]

/-- OTP survives every reset, but for the count of its slot. -/
theorem keptSlots_getD_fifteen {l : List KeySlot} (h : l.length = 16) (warm : Bool) :
    (keptSlots warm l).getD 15 {} = { l.getD 15 {} with exports_ := 0 } := by
  cases warm with
  | false => rfl
  | true => simp [keptSlots, h]

theorem Sec.keepsSlot15_survive (x : Sec) (warm : Bool) : x.KeepsSlot15 (x.survive warm) := by
  intro hlen hvalid
  have hslot : (x.survive warm).slots.getD 15 {} = _ := keptSlots_getD_fifteen hlen warm
  rw [hslot]
  exact ⟨keptSlots_length hlen warm, hvalid, rfl⟩

theorem State.keepsSlot15_restart (k : ResetKind) (b : BootStage) (s : State) :
    s.sec.KeepsSlot15 (s.restart k b).sec := by
  rw [State.restart_sec]
  exact s.sec.keepsSlot15_survive _

/-! ### The commands of the block -/

/-- An install changes another slot, or none: slot 15 takes no second install. -/
theorem execSecKeyInstall_keepsSlot15 {v : Word} {s t : State} (h : execSecKeyInstall v s = .next t) :
    s.sec.KeepsSlot15 t.sec := by
  injection h with h
  subst h
  split
  · exact .of_slots rfl
  next k hblob =>
    intro hlen hvalid
    have hne : fld v 3 0 ≠ 15 := by
      intro hslot
      rw [hslot, State.keyBlob_of_installed hvalid] at hblob
      cases hblob
    have hkept : (s.sec.slots.set (fld v 3 0) k).getD 15 {} = s.sec.slots.getD 15 {} := by
      simp [List.getElem?_set_ne hne]
    rw [State.updSec_sec, hkept]
    exact ⟨(List.length_set ..).trans hlen, hvalid, rfl⟩

/-- A context that is exported counts in its slot, and changes no key (R457). -/
theorem State.keepsSlot15_exported (n : Nat) (s : State) : s.sec.KeepsSlot15
    { s.sec with slots := s.sec.slots.modify n fun y => { y with exports_ := y.exports_ + 1 } } := by
  intro hlen hvalid
  have hslot : (s.sec.slots.modify n fun y => { y with exports_ := y.exports_ + 1 }).map (fun y => (y.valid, y.key)) =
      s.sec.slots.map fun y => (y.valid, y.key) := map_modify_same (fun _ => by rfl) ..
  have hkept := getD_of_map_eq hslot 15 {}
  exact ⟨(List.length_modify ..).trans hlen, (congrArg Prod.fst hkept).trans hvalid, congrArg Prod.snd hkept⟩

theorem State.sec_delivered (i : Nat) (s : State) : (s.delivered i).sec = s.sec := by
  rw [State.delivered_eq]

theorem State.sec_sendTo (i : Nat) (b : LimBody) (s : State) : (s.sendTo i b).sec = s.sec :=
  (State.sendTo_same .sec (by decide) i b s s).2 rfl

/-- A request keeps slot 15 where what it runs does. -/
theorem State.keepsSlot15_request {i : Nat} {go : Session → State → State} {s : State}
    (h : ∀ u : State, u.sec = s.sec → s.sec.KeepsSlot15 (go (s.session i) u).sec) :
    s.sec.KeepsSlot15 (s.request i go).sec := by
  rcases State.request_cases i go s with e | e
  · rw [e]
    exact h _ (s.sec_delivered i)
  · rw [e]
    exact .of_slots rfl

/-- A context command keeps slot 15 where what it runs does. -/
theorem State.keepsSlot15_ctxCommand {i : Nat} {tag : Word} {b : CtxBody} {go : Nat → Nat → State → Option Byte × State}
    {s : State} (h : ∀ p n u, u.sec = s.sec → s.sec.KeepsSlot15 (go p n u).2.sec) :
    s.sec.KeepsSlot15 (s.ctxCommand i tag b go).sec := by
  refine State.keepsSlot15_request fun u hu => ?_
  have hreply (body : LimBody) : s.sec.KeepsSlot15 (u.sendTo i body).sec := by
    rw [State.sec_sendTo, hu]
    exact .of_slots rfl
  dsimp only
  split
  · exact hreply _
  · split
    · exact hreply _
    · split
      · exact hreply _
      · split
        · rw [State.sec_sendTo]
          exact h _ _ u hu
        · exact h _ _ u hu

theorem execCtxExport_keepsSlot15 {sess : Fin 16} {tag : Word} {b : CtxBody} {s t : State}
    (h : execCtxExport sess tag b s = .next t) : s.sec.KeepsSlot15 t.sec := by
  injection h with h
  subst h
  refine State.keepsSlot15_ctxCommand fun p n u hu => ?_
  have hnone : s.sec.KeepsSlot15 u.sec := .of_slots (congrArg Sec.slots hu)
  unfold State.onContext
  dsimp only
  split
  · exact hnone
  · split
    · exact hnone
    · split
      · exact hnone
      · split
        · exact hnone
        · split
          · exact hnone
          · split
            · exact hnone
            · exact hu ▸ u.keepsSlot15_exported _

theorem execSecBootWriteFirmware_slots {v : Word} {s t : State} (h : execSecBootWriteFirmware v s = .next t) :
    t.sec.slots = s.sec.slots := by
  injection h with h
  subst h
  split
  · rfl
  · split
    · rfl
    · split <;> rfl

theorem execSecBootWriteOutline_slots {v : Word} {s t : State} (h : execSecBootWriteOutline v s = .next t) :
    t.sec.slots = s.sec.slots := by
  injection h with h
  subst h
  split
  · rfl
  · split <;> rfl

theorem execBootWriteDone_slots {good : Bool} {s t : State} (h : execBootWriteDone good s = .next t) :
    t.sec.slots = s.sec.slots := by
  injection h with h
  subst h
  split <;> rfl

theorem execSecRollbackCommit_slots {v : Word} {s t : State} (h : execSecRollbackCommit v s = .next t) :
    t.sec.slots = s.sec.slots := by
  injection h with h
  subst h
  split <;> rfl

theorem execSecRevoke_slots {v : Word} {s t : State} (h : execSecRevoke v s = .next t) :
    t.sec.slots = s.sec.slots := by
  injection h with h
  subst h
  split
  · rfl
  · split <;> rfl

theorem execSecLockAdvance_slots {v : Word} {s t : State} (h : execSecLockAdvance v s = .next t) :
    t.sec.slots = s.sec.slots := by
  have hfirst (o : Option LockState) (w : Option (BitVec 2 × Nat)) : (match o with
      | some _ => s.updSec fun x => { x with lockWrite := w }
      | none => s).sec.slots = s.sec.slots := by
    cases o <;> rfl
  injection h with h
  subst h
  split
  · exact hfirst _ _
  · split
    · rfl
    · exact hfirst _ _

/-! ### Register writes (R485) -/

theorem State.keepsSlot15_writeSec (o : Nat) (v : Word) (s : State) : s.sec.KeepsSlot15 (s.writeSec o v).sec := by
  have hfirmware (u : State) : u.sec.KeepsSlot15 (u.after (execSecBootWriteFirmware v u)).sec :=
    State.keepsSlot15_after fun t h => .of_slots (execSecBootWriteFirmware_slots h)
  have houtline (u : State) : u.sec.KeepsSlot15 (u.after (execSecBootWriteOutline v u)).sec :=
    State.keepsSlot15_after fun t h => .of_slots (execSecBootWriteOutline_slots h)
  unfold State.writeSec
  split
  · exact .of_slots rfl
  · exact State.keepsSlot15_after fun t h => .of_slots (execSecLockAdvance_slots h)
  · exact State.keepsSlot15_after fun t h => execSecKeyInstall_keepsSlot15 h
  · exact State.keepsSlot15_after fun t h => .of_slots (execSecRevoke_slots h)
  · exact State.keepsSlot15_after fun t h => .of_slots (execSecRollbackCommit_slots h)
  · exact (hfirmware s).trans (houtline _)
  · exact .of_slots rfl
  · exact .of_slots rfl

/-- Of the blocks the security block alone holds key slots. -/
theorem State.keepsSlot15_writeReg (b : Block) (o : Nat) (v : Word) (s : State) :
    s.sec.KeepsSlot15 (s.writeReg b o v).sec := by
  have hclear (b : Block) : Part.Same .sec s (s.after (execCntClear b v s)) :=
    State.after_of (P := Part.Same .sec s) rfl fun t h => execCntClear_same .sec (by decide) b v s h
  cases b with
  | sec => exact s.keepsSlot15_writeSec o v
  | glb => exact .of_same ((State.writeGlb_same .sec (by decide) o v s s).2 rfl)
  | tb => exact .of_same ((State.writeTb_same .sec (by decide) o v s s).2 rfl)
  | rgn => exact .of_same ((State.writeRgn_same .sec (by decide) o v s s).2 rfl)
  | otl => exact .of_same ((State.writeOtl_same .sec (by decide) o v s s).2 rfl)
  | tir => exact .of_same ((State.writeTir_same .sec (by decide) o v s s).2 rfl)
  | chn => exact .of_same ((State.writeChn_same .sec (by decide) o v s s).2 rfl)
  | lnw => exact .of_same ((State.writeLnw_same .sec (by decide) o v s s).2 rfl)
  | ing => exact .of_same ((State.writeIng_same .sec (by decide) o v s s).2 rfl)
  | trc => exact .of_same ((State.writeTrc_same .sec (by decide) o v s s).2 rfl)
  | eth => exact .of_same ((State.writeEth_same .sec (by decide) o v s s).2 rfl)
  | brn => exact .of_same ((State.writeBrn_same .sec (by decide) o v s s).2 rfl)
  | ctx => exact .of_same ((State.writeCtx_same .sec (by decide) o v s s).2 rfl)
  | prf =>
    unfold State.writeReg
    dsimp only
    split
    · exact State.keepsSlot15_after fun t h => .of_same (execPrfRelease_same .sec (by decide) v s h)
    · exact .of_slots rfl
  | core | plt | xh | sty =>
    unfold State.writeReg
    dsimp only
    split
    · exact .of_same (hclear _)
    · exact .of_slots rfl

theorem State.keepsSlot15_writeWords (ws : List Word) (a : Nat) (s : State) :
    s.sec.KeepsSlot15 (State.writeWords ws a s).2.2.sec := by
  induction ws generalizing a s with
  | nil => exact .of_slots rfl
  | cons v ws ih =>
    unfold State.writeWords
    split
    · split
      · exact .of_slots rfl
      · exact (s.keepsSlot15_writeReg _ _ v).trans (ih _ _)
    · exact .of_slots rfl

theorem execRegWrite_keepsSlot15 {i : Fin 16} {tag a : Word} {ws : List Word} {s t : State}
    (h : execRegWrite i tag a ws s = .next t) : s.sec.KeepsSlot15 t.sec := by
  injection h with h
  subst h
  refine State.keepsSlot15_request fun u hu => ?_
  dsimp only
  split
  · rw [State.sec_sendTo, hu]
    exact .of_slots rfl
  · split
    · rw [State.sec_sendTo, hu]
      exact .of_slots rfl
    · rw [State.sec_sendTo, ← hu]
      exact u.keepsSlot15_writeWords ws a.toNat

/-! ### Bring-up and resets (R453, R454, R474) -/

theorem execFirmwareVerified_slots {s t : State} (h : execFirmwareVerified s = .next t) :
    t.sec.slots = s.sec.slots := by
  injection h with h
  subst h
  split
  · rfl
  · split <;> rfl

theorem State.bootInto_slots (k : Nat) (o : Outline) (net : Option NetTable) (ws : List Word) (s : State) :
    (s.bootInto k o net ws).sec.slots = s.sec.slots := by
  have hinstall : ((s.netRefs addRef net).install o net ws fun _ => false).sec = s.sec :=
    (State.install_same .sec (by decide) ..).2 ((State.netRefs_same .sec (by decide) ..).2 rfl)
  simp only [State.bootInto, State.updGlb_sec, State.updClusters_sec, State.updSec_sec, State.updOtl_sec, hinstall]

theorem exec_bootOutlineLoad_slots {s t : State} (h : exec .bootOutlineLoad s = .next t) :
    t.sec.slots = s.sec.slots := by
  by_cases hstage : s.glb.stage = .outline
  · cases hpick : s.sec.bootOrder.findSome? (fun k => (s.bootCheck k).map fun r => (k, r)) with
    | some r =>
      obtain ⟨k, o, net, ws⟩ := r
      obtain ⟨u, hexec, -, -, hsec⟩ := exec_bootOutlineLoad_of_copy hstage hpick
      obtain rfl := Host.Outcome.next.inj (hexec.symm.trans h)
      rw [hsec, State.bootInto_slots]
    | none =>
      rw [show exec .bootOutlineLoad s = execBootOutlineLoad s from rfl, execBootOutlineLoad,
        if_neg (by simp [hstage]), hpick] at h
      obtain rfl := Host.Outcome.next.inj h
      refine (congrArg Sec.slots (State.readoptIf_same (p := .sec) (by decide) _ _)).trans ?_
      exact congrArg Sec.slots ((State.recoveryCode_same .sec (by decide) s s).2 rfl)
  · obtain rfl := Host.Outcome.next.inj h
    rw [if_pos hstage]

/-- A good recovery image changes the boot store, and the device restarts (R454). -/
theorem execRecoveryImageLoad_keepsSlot15 {i : Fin 16} {tag : Word} {image : List Byte} {s t : State}
    (h : execRecoveryImageLoad i tag image s = .next t) : s.sec.KeepsSlot15 t.sec := by
  injection h with h
  subst h
  split
  · exact .of_slots rfl
  · refine State.keepsSlot15_request fun u hu => ?_
    dsimp only
    split
    · rw [State.sec_sendTo, hu]
      exact .of_slots rfl
    · split
      · rw [State.sec_sendTo, hu]
        exact .of_slots rfl
      · refine Sec.KeepsSlot15.trans ?_ (State.keepsSlot15_restart _ _ _)
        rw [← hu]
        exact .of_slots rfl

/-- No command changes an installed slot 15. -/
theorem exec_keepsSlot15 {c : Instr} {s t : State} (h : exec c s = .next t) : s.sec.KeepsSlot15 t.sec := by
  by_cases hc : .sec ∈ mayChange c
  · cases c with
    | ctxExport sess tag b => exact execCtxExport_keepsSlot15 h
    | regWrite sess tag addr values => exact execRegWrite_keepsSlot15 h
    | secBootWriteFirmware v => exact .of_slots (execSecBootWriteFirmware_slots h)
    | secBootWriteOutline v => exact .of_slots (execSecBootWriteOutline_slots h)
    | bootWriteDone good => exact .of_slots (execBootWriteDone_slots h)
    | secRollbackCommit v => exact .of_slots (execSecRollbackCommit_slots h)
    | secKeyInstall v => exact execSecKeyInstall_keepsSlot15 h
    | secRevoke v => exact .of_slots (execSecRevoke_slots h)
    | secLockAdvance v => exact .of_slots (execSecLockAdvance_slots h)
    | recoveryImageLoad sess tag image => exact execRecoveryImageLoad_keepsSlot15 h
    | firmwareVerified => exact .of_slots (execFirmwareVerified_slots h)
    | bootOutlineLoad => exact .of_slots (exec_bootOutlineLoad_slots h)
    | powerOn =>
      obtain rfl := Host.Outcome.next.inj h
      exact s.keepsSlot15_restart _ _
    | vddAonLoss =>
      obtain rfl := Host.Outcome.next.inj h
      exact s.keepsSlot15_restart _ _
    | resetNAssert ns =>
      obtain rfl := Host.Outcome.next.inj h
      split
      · exact .of_slots rfl
      · split
        · exact .of_same ((State.closeSwitches_same .sec (by decide) .closed s s).2 rfl)
        · exact s.keepsSlot15_restart _ _
    | resetNRelease =>
      obtain rfl := Host.Outcome.next.inj h
      split
      · exact s.keepsSlot15_restart _ _
      · exact .of_slots rfl
    | supplyOutOfRange rail =>
      obtain rfl := Host.Outcome.next.inj h
      split
      · exact s.keepsSlot15_restart _ _
      · exact .of_slots rfl
    | _ => exact absurd hc (of_decide_eq_true rfl)
  · exact .of_same (exec_only h .sec hc)

/-- Settles O56: the install by its blob, a reset by the slots that it keeps, and every command by what it leaves. -/
theorem slotFifteenIsInstalledOnce : Obligations.SlotFifteenIsInstalledOnce := by
  unfold Obligations.SlotFifteenIsInstalledOnce
  refine ⟨fun s v k hslot hblob hlen => ?_, fun s v hslot hvalid => ?_, fun s r b hlen => ?_,
    fun c s t hlen hvalid hexec => ?_⟩
  · have hexec := exec_secKeyInstall_of_blob (v := v) (hslot ▸ hblob)
    refine ⟨_, hexec, exec_only hexec, ?_, (State.keyBlob_some hblob).1⟩
    simp [hslot, hlen]
  · exact exec_secKeyInstall_of_refused (hslot ▸ State.keyBlob_of_installed hvalid)
  · have hslot : (s.restart r b).sec.slots.getD 15 {} = { s.sec.slots.getD 15 {} with exports_ := 0 } := by
      rw [State.restart_sec]
      exact keptSlots_getD_fifteen hlen _
    rw [hslot]
    exact ⟨rfl, rfl⟩
  · exact (exec_keepsSlot15 hexec hlen hvalid).2

end Sys2Proof.Machine
end
